-- ==== Sys2Proof/Word.lean ====
section
/-! DEFINITION. The word types of the MTG-96: a byte, a 32-bit register word and a 64-bit word (R38). -/

namespace Sys2Proof

/-- One byte. -/
abbrev Byte := BitVec 8
/-- One 32-bit register word (R38). -/
abbrev Word := BitVec 32
/-- One 64-bit word: a 64-bit register, a timebase value, a sequence number. -/
abbrev DWord := BitVec 64

end Sys2Proof
end

