-- ==== Sys2Proof/Syntax.lean ====
section
/-! DEFINITION. The commands and events of the MTG-96, one constructor per row of spec/opcode_table.json, with the
operands that the spec gives each. Nothing here says what a command does. -/

namespace Sys2Proof

/-- What the controller finds in a command entry's header (R55), whichever command it is: the CSEQ in the slot, INSTANCE,
NOTIFY, BARRIER and COOKIE. BLK_TYPE and OPCODE are the constructor's.
[DESIGN CHOICE: log entry 15] -/
structure CmdHdr where
  cseq : Nat
  inst : Nat
  notify : Bool
  barrier : Bool
  cookie : DWord
  deriving DecidableEq, Repr

/-- A sequenced LDT packet as a port delivers it after its tag has verified (R72, R74): the association of DST_ASSOC,
the LDT header, the operation header, the payload, and whether it arrived with ECN = CE. -/
structure LdtPkt where
  assoc : Nat
  psn : Nat
  first : Bool
  last : Bool
  ackReq : Bool
  txTs : Nat
  path : Nat
  ce : Bool
  msgId : Nat
  msgLen : Nat
  msgOffset : Nat
  target : Nat
  addr : Nat
  imm : Nat
  payload : List Byte
  deriving DecidableEq, Repr

/-- The payload of an ACK (R75). -/
structure AckInfo where
  cumAck : Nat
  sack : Nat
  echoTs : Nat
  ceCount : Nat
  rxCount : Nat
  /-- the packet that carried it was marked CE -/
  ce : Bool := false
  deriving DecidableEq, Repr

/-- A frame at a switch input (R132-R143): source endpoint, class, destination mask, headers, payload, the bytes that R146 hashes
(the five-tuple, or the association index), ECT and CE, the command whose charged cells it takes, the crazed cause that holds at
its tail (0 none), the bank and cell of an on-die error, and whether it is an LDT frame. -/
structure SwFrame where
  src : Nat
  cls : Nat
  mask : Nat
  hdr : List Byte
  payload : List Byte
  flow : List Byte
  ect : Bool
  ce : Bool
  cmd : Option Nat
  bad : Nat
  badBank : Nat
  badCell : Nat
  ldt : Bool
  /-- the byte count of the descriptor: the payload bytes that were announced -/
  len : Nat := payload.length
  /-- cells of it whose error was corrected -/
  corr : Nat := 0
  deriving DecidableEq, Repr

/-- The result of reading a codeword (R269): whether each hard decode, from step 0 on, succeeds, and whether the soft decode does. -/
structure DecodeTry where
  hard : List Bool
  soft : Bool
  deriving DecidableEq, Repr

/-- What finds a ring entry's command (R55): BLK_TYPE and OPCODE. -/
structure EntryOp where
  blkType : Nat
  opcode : Nat
  deriving DecidableEq, Repr

/-- A value for a crossing (R30), and the engine that sends it; none stands for a control core. -/
structure SentValue where
  value : Nat
  engine : Option Nat
  deriving DecidableEq, Repr

/-- A Read as it runs: its command, and the blocks whose bytes arrive altered at egress, by block (R17). -/
structure ReadRun where
  cmd : Nat
  arrived : List (Nat × List Byte)
  deriving DecidableEq, Repr

/-- The sender's half of a SYN (R116): its initial sequence number, and its TSval when it offers timestamps. -/
structure SynFrom where
  irs : Nat
  tsval : Option Nat
  mss : Option Nat := none
  scale : Option Nat := none
  sackOk : Bool := false
  /-- both ECE and CWR are set: the host asks for ECN (RFC 3168) -/
  ecn : Bool := false
  win : Nat := 65535
  deriving DecidableEq, Repr

/-- The rest of a TCP segment (R116): its timestamps (TSval, TSecr), and its payload. -/
structure SegBody where
  ts : Option (Nat × Nat)
  payload : List Byte
  /-- the window field, and the blocks of a SACK option: first sequence number, and the one after the last -/
  win : Nat := 65535
  sack : List (Nat × Nat) := []
  deriving DecidableEq, Repr

/-- A segment whose row is programmed, and the units whose tag and stored form arrive altered at PAR, by row and row grain (R303). -/
structure RowRun where
  seg : Nat
  altered : List (Nat × Nat × List Byte)
  deriving DecidableEq, Repr

/-- How the codewords of a unit decode, in the order in which the unit touches them, and the payloads that decode to other bytes than were
written, by column and codeword (R270). A codeword that `tries` does not reach decodes at once. -/
structure CodewordTry where
  tries : List DecodeTry
  arrived : List (Nat × Nat × List Byte)
  deriving DecidableEq, Repr

/-- A service message's header and data (R412), its OP being the constructor's. -/
structure SvcMsg where
  magic : Nat
  version : Nat
  flags : Nat
  seq : Nat
  count : Nat
  addr : Nat
  data : List Byte
  deriving DecidableEq, Repr

/-- A slot of the boot flash (R422): its directory, empty when erased, and its images by slot offset. -/
structure Slot where
  dir : List Byte := []
  images : List (Nat × List Byte) := []
  deriving DecidableEq, Repr

/-- What a start finds outside the chip's own state (R434-R436): the stacks that train, the sectors that HBM_TEST finds bad
(address / 64), whether the boot flash's parameter table can be read, the images whose every read fails, with true where
the tag and false where the digest fails, and slots A and B where the service processor has written the boot flash since the
last start.
[DESIGN CHOICE: log entry 64] -/
structure BootEnv where
  trains : List Bool := [true, true, true]
  testBad : List Nat := []
  sfdpOk : Bool := true
  badReads : List (Nat × Bool) := []
  flash : Option (Slot × Slot) := none
  deriving DecidableEq, Repr

/-- The commands of the block.
[DESIGN CHOICE: log entry 90] -/
inductive Instr where
  -- 03 control model
  | registerWrite (off size data : Nat)
  | rcCounterRead (off : Nat)
  | blkIrqStatWrite (page : Nat) (value : Word)
  | blkIrqForce (page : Nat) (value : Word)
  | blockEnable (page : Nat)
  | blockDisable (page : Nat)
  | blockQuiesce (page : Nat)
  | blockResume (page : Nat)
  | quiesceComplete (page : Nat)
  | blockReset (page : Nat)
  | blockResetDone (page : Nat)
  | blockFault (page : Nat) (infoA infoB : Word)
  | eseqConsWrite (value : Nat)
  | cseqProdWrite (value : Nat)
  | nop (h : CmdHdr) (entry : EntryOp)
  | configCommit (h : CmdHdr) (blkType : Nat)
  -- 02 fabric and crossings
  | paceWindowEnd (windowUs : Nat) (beats : List Nat)
  | crossingValueTransfer (island crossing : Nat) (value : SentValue) (samples : List Nat)
  | crossingEventToggle (island crossing : Nat)
  | crossingEventAck (island crossing : Nat)
  | islandClockCapture (island crossing : Nat)
  | xeTimeout (island crossing : Nat)
  | clkStopWrite (island : Nat)
  | islandClockStop (island : Nat)
  | islandRefClockLoss (island : Nat)
  | pairReset (island : Nat)
  | pairResetRelease (island : Nat)
  | coreRunWrite (cluster value : Nat)
  | memCfgWrite (cluster ways : Nat)
  | memCfgDone (cluster : Nat)
  | timeSet (value : Nat)
  | timeStep (step : Int)
  | slewDone
  | timebaseRefLost
  | txtsValueRead
  | storeCommit
  | storeSelectA
  | storeSelectB
  | storeCopyAToB
  | storeCopyBToA
  | storeDiscard
  | storeOpDone (verifyFail : Option Nat)
  | storeLock
  -- 04 LDT
  | hportFrameReceive (port : Nat) (frame : List Byte)
  | hsRx (port : Nat) (srcIp : List Byte) (srcUdp : Nat) (payload : List Byte)
  | ldtAckReceive (assoc : Nat) (ack : AckInfo)
  | ldtNakReceive (p : LdtPkt) (code info : Nat)
  | ldtKeepaliveReceive (p : LdtPkt)
  | ldtCloseReceive (p : LdtPkt)
  | ldtWriteReceive (p : LdtPkt)
  | ldtWriteNotifyReceive (p : LdtPkt)
  | ldtSendReceive (p : LdtPkt)
  | ldtReadReqReceive (p : LdtPkt)
  | ldtReadRespReceive (p : LdtPkt)
  | ldtCapsuleReceive (p : LdtPkt)
  | ctxFetchDone (ctx : Nat) (uncorrectable : Bool)
  | ackDelayExpiry (assoc : Nat)
  | ldtPacketTransmit (assoc : Nat)
  | rtoExpiry (assoc : Nat)
  | pathUp (assoc path : Nat)
  | keepaliveIntervalExpiry (assoc : Nat)
  | kaTimeoutExpiry (assoc : Nat)
  | rcIntervalEnd (assoc : Nat)
  | keyPhaseRetire (assoc : Nat)
  | assocOpen (h : CmdHdr) (assoc peerAssoc txPsn0 rxPsn0 port descr : Nat)
  | assocClose (h : CmdHdr) (assoc : Nat)
  | assocCloseSend (assoc : Nat)
  | assocRekey (h : CmdHdr) (assoc : Nat) (armRx txSwitch : Bool)
  | assocFree (h : CmdHdr) (assoc : Nat)
  | hsSend (h : CmdHdr) (port len addr : Nat) (remoteIp : List Byte)
  | ctxPin (h : CmdHdr) (ctx : Nat)
  | ctxUnpin (h : CmdHdr) (ctx : Nat)
  | ctxWriteback (h : CmdHdr) (ctx : Nat)
  -- 05 regions
  | rgnRegister (h : CmdHdr) (index assoc perm notifyTgt base length : Nat)
  | rgnRevoke (h : CmdHdr) (index gen : Nat)
  | regionRevokeDone (index : Nat)
  -- 06 NVMe front end
  | nvmeAdmit
  | heldCommandRelease (tenant : Nat)
  | nvmeFlush (cmd : Nat)
  | nvmeWrite (cmd : Nat)
  | nvmeRead (run : ReadRun)
  | nvmeCompare (cmd : Nat)
  | nvmeWriteZeroes (cmd : Nat)
  | nvmeDatasetManagement (cmd : Nat)
  | nvmeVerify (cmd : Nat)
  | nvmeSoftwareHandoff (cmd : Nat)
  | writeDurable (cmd : Nat)
  | queueCreate (h : CmdHdr) (ctx assoc tenant qid cls flags cntlid size : Nat)
  | queueDelete (h : CmdHdr) (ctx : Nat)
  | nsSet (h : CmdHdr) (nsid : Nat) (entry : List Byte)
  | complete (h : CmdHdr) (ctx cid status dw0 dw1 assoc : Nat)
  | abort (h : CmdHdr) (ctx cid : Nat)
  | nvtcpSyn (port : Nat) (remoteIp localIp : List Byte) (remotePort : Nat) (syn : SynFrom) (iss : Nat)
  | nvtcpSegmentReceive (conn seq ack : Nat) (ce cwr ece : Bool) (body : SegBody)
  | nvtcpIcreq (conn : Nat)
  | nvtcpCapsuleCmd (conn : Nat)
  | nvtcpH2cData (conn : Nat)
  | nvtcpH2cTermReq (conn : Nat)
  | nvtcpRtoExpiry (conn : Nat)
  -- 07 switch
  | swFrameInput (f : SwFrame)
  | mcHoldTimeout (cmd dest : Nat)
  | peerMemberDown (member : Nat)
  | plinkLinkUp (member : Nat)
  -- 08 Mark
  | markFingerprint (unit : Nat) (crazed ecc : Bool)
  | markKeyDerive (h : CmdHdr) (slot alg keySlot : Nat)
  | markKeyClear (h : CmdHdr) (slot : Nat)
  | markKeyClearDone (slot : Nat)
  | markDigest (h : CmdHdr) (flags slot src length result : Nat) (ecc : Bool)
  | markPioStart (quad : Nat)
  | markPioData (quad size data : Nat) (ecc : Bool)
  | markPioLast (quad size data : Nat)
  | markPioDone (quad : Nat)
  | markKeyRefillDone (quad : Nat)
  -- 09 Grog
  | grogLookup (unit : Nat)
  | grogPendingResolve (unit : Nat)
  | grogProbeDone (unit : Nat) (unreadable : Bool)
  | grogConfirm (unit : Nat)
  | grogVerifyDone (unit : Nat)
  | grogMerge (unreadable : Bool)
  | grogDomainSet (h : CmdHdr) (dom tenant mode verify : Nat)
  | grogDomainPurge (h : CmdHdr) (dom : Nat)
  | grogPurgeDone (dom : Nat)
  | grogReconcile (h : CmdHdr)
  | grogReconcileDone
  | grogIndexRebuild (h : CmdHdr) (base : Nat)
  | grogIndexRebuildDone (base : Nat)
  -- 10 Wedge
  | wedgeCompress (unit : Nat) (stream : List Byte)
  | wedgeVerify (unit : Nat)
  | wedgeDecode (rd : Nat)
  | wedgeJob (h : CmdHdr) (desc : Nat) (streams : List (List Byte))
  -- 11 keys, ciphers, tamper
  | keysLoad (h : CmdHdr) (cls form kek type slot src len flags tenant : Nat)
  | keysClear (h : CmdHdr) (cls slot : Nat)
  | keysClearDone (cls slot : Nat)
  | keySlotBringIn (slot : Nat)
  | dciphEncrypt (unit : Nat) (arrived : Option (List Byte))
  | dciphDecrypt (rd : Nat)
  | gciphSeg (h : CmdHdr) (desc : Nat)
  | gciphLockWrite (id : Nat) (core : Bool)
  | gciphReleaseWrite (id : Nat) (core : Bool)
  | gciphForceRelease (hart : Option Nat)
  | leaseExpired
  | tamperWarn (sensor reading : Nat) (alarm : Bool)
  | tamperAlarm (sensor reading zeroTime : Nat)
  -- 12 volumes, maps, moulds
  | volCreate (h : CmdHdr) (vol tenant domain keySlot size : Nat)
  | volResize (h : CmdHdr) (vol size : Nat)
  | volDelete (h : CmdHdr) (vol : Nat)
  | tenantSet (h : CmdHdr) (tenant cap : Nat)
  | mapPageFetchDone (mpa : Nat) (found : CodewordTry)
  | mapPageWriteback (mpa : Nat)
  | mouldCreate (h : CmdHdr) (vol mould : Nat)
  | mouldSealed (mould : Nat)
  | mouldCg (h : CmdHdr) (count list : Nat)
  | mouldDelete (h : CmdHdr) (mould : Nat)
  | mouldDeleteDone (mould : Nat)
  | mouldClone (h : CmdHdr) (mould vol view keySlot : Nat)
  -- 13 slipcast
  | slipPair (h : CmdHdr) (vol role mode policy slotsLog2 assoc tgtVol land status bitmap : Nat)
  | slipShip (h : CmdHdr) (vol base new : Nat)
  | slipResume (h : CmdHdr) (vol assoc : Nat)
  | slipSetMould (h : CmdHdr) (vol mould : Nat)
  | slipPromote (h : CmdHdr) (vol : Nat)
  | slipUnpair (h : CmdHdr) (vol : Nat)
  | slipRecordSend (vol : Nat)
  | slipRecordArrive (vol repSeq : Nat)
  | slipRecordApplied (vol repSeq : Nat)
  | slipStatusReceive (vol applied st reason : Nat)
  | slipAckTimeout (vol repSeq : Nat)
  | slipResyncPass (vol : Nat)
  -- 14 flash translation
  | rowProgram (run : RowRun)
  | rowFillTimeout (run : RowRun)
  | sagLogComplete (seg row : Nat)
  | programFailure (seg row member : Nat)
  | eraseFailure (seg member : Nat)
  | codewordRead (rd : Nat) (found : CodewordTry)
  | patrolRead (seg row member codeword : Nat) (tries : DecodeTry)
  | ftlCheckpoint
  | ftlCkpt (h : CmdHdr)
  | ftlRetire (h : CmdHdr) (module b : Nat)
  -- 15 Pug
  | pugVictimSelect (group : Nat)
  | pugUnitRead (seg row grain : Nat) (found : CodewordTry)
  | pugMoveVerify (seg row : Nat) (bad : List Nat)
  | pugMoveCommit (seg row grain : Nat)
  | pugErase (seg : Nat)
  | segmentEraseDone (seg : Nat)
  | pugScanDone (seg : Nat)
  | pugReclaim (h : CmdHdr) (seg : Nat)
  | pugHold (h : CmdHdr) (group hold : Nat)
  | pugCkptWaitExpiry
  -- 16 parity, Saggar, rebuild
  | parRepair (rd : Nat) (arrived : List (Nat × Nat × List Byte))
  | parGroupCreate (h : CmdHdr) (group spareMode spare members spares : Nat)
  | parGroupDelete (h : CmdHdr) (group : Nat)
  | sagDump
  | sagDumpDone (timeUs : Nat)
  | sagReplay (h : CmdHdr)
  | memberDeclaredFailed (module : Nat)
  | offlineMaxExpiry (module : Nat)
  | rebuildSegment (group : Nat)
  | rbldFail (h : CmdHdr) (module : Nat)
  | rbldOffline (h : CmdHdr) (module : Nat)
  | rbldOnline (h : CmdHdr) (module : Nat)
  | rbldJoin (h : CmdHdr) (module group asSpare : Nat)
  -- 17 module link
  | mlinkLinkEn (module : Nat) (on : Bool)
  | mlinkRetrain (module : Nat)
  | mlinkSignalLock (module lanes : Nat)
  | mlinkAlignDone (module width : Nat)
  | mlinkConfigReceive (module version : Nat)
  | mlinkFlitReceive (module : Nat) (flit : List Byte)
  | mlinkReplayTimeout (module : Nat)
  | mlinkCrcSilence (module : Nat)
  | mlinkDataReceive (module tag page : Nat) (data : List Byte)
  | mlinkCplReceive (module tag status : Nat) (payload : List Byte)
  | mlinkAttnReceive (module reason : Nat)
  | mlinkOpTimeout (module tag : Nat)
  | moduleRemoved (module : Nat)
  | moduleArrived (module : Nat)
  | mlinkReserve (h : CmdHdr) (kind gen : Nat)
  | mlinkFwWrite (h : CmdHdr) (offset length src : Nat)
  | mlinkFwDigest (h : CmdHdr) (result : Nat)
  | mlinkFwActivate (h : CmdHdr)
  | mlinkFwCommit (h : CmdHdr)
  | mlinkFwRevert (h : CmdHdr)
  -- 18 dual heads
  | peerctlPair (h : CmdHdr) (assoc data ring log ctrl inbox : Nat)
  | peerctlUnpair (h : CmdHdr)
  | peerctlResync (h : CmdHdr)
  | resyncCopyDone
  | peerctlTakeover (h : CmdHdr) (force : Bool) (arbiter : Nat) (membersOk : Bool)
  | peerctlHandover (h : CmdHdr) (group halves : Nat)
  | handoverHoldTimeout
  | peerctlHome (h : CmdHdr) (tenant group : Nat)
  | heartbeatInterval
  | heartbeat (seq msgCons inboxCons commitSeq ckptSeq mirror groups arbiter mode : Nat)
  | peerHeartbeatTimeout
  | cancel (seq offset bytes : Nat)
  | runReq (seq runs : Nat)
  | runGrant (seq : Nat) (runs : List Nat)
  | resyncDone (seq commitSeq : Nat)
  | handover (seq group halves loc ckptSeq : Nat)
  | handoverAck (seq group : Nat)
  | mirrorRingReceive (commitSeq : Nat) (records : List Byte)
  | inboxBatchReceive (seq : Nat) (records : List Byte)
  | mirrorAckTimeout (ref : Nat)
  -- 20 tenancy
  | qosSet (h : CmdHdr) (tenant flags iopsRate iopsBurst bwRate bwBurst : Nat)
  | qosHistSnap (h : CmdHdr) (tenant dst : Nat)
  | minuteClose
  -- 19 memory and system cache
  | hbmSelfRefreshEnter (stack : Nat)
  | hbmSelfRefreshExit (stack : Nat)
  | hbmSrEntered (stack : Nat)
  | hbmSrExited (stack : Nat)
  | hbmScrub (stack : Nat)
  | syscRead (addr len : Nat) (core : Bool) (ecc : Nat)
  | syscWrite (addr : Nat) (data : List Byte) (core : Bool)
  | syscFillDone (way addr : Nat)
  | mbDrain (ecc : Bool)
  | syscWayDisable (way : Nat)
  | syscWayEnable (way : Nat)
  | syscWayOff (way : Nat)
  | syscWayPowered (way : Nat)
  | syscInval (h : CmdHdr) (addr length result : Nat)
  | syscZero (h : CmdHdr) (addr length : Nat)
  | syscLockedFill (h : CmdHdr) (way addr length : Nat)
  -- 21 power states
  | pwrSet (h : CmdHdr) (dom target : Nat)
  | domainDrained (dom : Nat)
  | drainTimerExpiry (dom : Nat)
  | domainEntryDone (dom : Nat)
  | domainWakeDone (dom : Nat)
  | pwrCold (h : CmdHdr)
  | wakeNAssert
  | wakeTimeReached
  | pwrBankGate (value : Nat)
  | chipDomainReset (h : CmdHdr) (dom : Nat)
  | powerFailAssert
  | aonSwDataWrite (half data : Nat)
  -- 22 firmware update and service port
  | svcRead (m : SvcMsg)
  | svcWrite (m : SvcMsg)
  | svcRead64 (m : SvcMsg)
  | svcWrite64 (m : SvcMsg)
  | svcHbmRead (m : SvcMsg)
  | svcHbmWrite (m : SvcMsg)
  | updData (m : SvcMsg)
  | ping (m : SvcMsg)
  | svcFrameForward (frame : List Byte)
  | i3cPrivateWrite (msg : List Byte)
  | i3cPrivateRead
  | setdasa (addr : Nat)
  | entdaa (addr : Nat)
  | rstdaa
  | getpid
  | getbcr
  | getdcr
  | getstatus
  | updVerify (h : CmdHdr)
  | updStage (h : CmdHdr) (gotLock flashOk : Bool)
  | updBridges (h : CmdHdr) (mask : Nat)
  | updActivate (h : CmdHdr) (allowOwned : Bool)
  | updConfirm (h : CmdHdr) (commitBridges : Bool)
  | updAbandon (h : CmdHdr)
  | updClear (h : CmdHdr)
  | updConfirmTimeout
  | updKeyRevoke (value : Nat)
  -- 23, 24 start-up, resets, pins
  | porstNAssert
  | porstNRelease (env : BootEnv)
  | powerGoodAssert (env : BootEnv)
  | startStageWrite (value : Nat)
  | warmRestart (value : Nat) (env : BootEnv)
  | watchdogKick
  | watchdogRunEn (on : Bool)
  | watchdogTimeoutWrite (value : Nat)
  | watchdogExpiry
  | jtagTrst
  | jtagInstruction (ir : Nat)
  deriving DecidableEq, Repr

end Sys2Proof
end

