-- ==== Sys2Proof/Decode.lean ====
section
/-! DEFINITION. The command that a word spells. The opcode table gives no row any bits: a command of the ring names its block, opcode and
operands in a 64-byte entry (R55), and every other row is a register write, a message or an event. So no word spells a command. -/

namespace Sys2Proof

/-- The command of an `nbits`-wide word numbered as the opcode table numbers bits: none, for no row has bits. -/
def decodeTableWord (_nbits _w : Nat) : Option Instr := none

end Sys2Proof
end

