-- ==== Sys2Proof/Machine/Bits.lean ====
section
/-! DEFINITION. Bit-field, byte-order and arithmetic helpers that every block shares. -/

namespace Sys2Proof.Machine

/-- The field `[hi:lo]` of a natural number. -/
def getBits (v hi lo : Nat) : Nat := (v / 2 ^ lo) % 2 ^ (hi + 1 - lo)

/-- `v` with the field `[hi:lo]` replaced by `x` (taken modulo the field's width). -/
def setBits (v hi lo x : Nat) : Nat :=
  v - getBits v hi lo * 2 ^ lo + (x % 2 ^ (hi + 1 - lo)) * 2 ^ lo

/-- Bit `i` of a natural number. -/
def bitOf (v i : Nat) : Bool := v.testBit i

/-- 0 or 1. -/
def b2n (b : Bool) : Nat := if b then 1 else 0

/-- `n` bytes of `v`, little-endian (R4). -/
def le : Nat → Nat → List Byte
  | 0, _ => []
  | n + 1, v => BitVec.ofNat 8 v :: le n (v / 256)

/-- `n` bytes of `v`, in network byte order (R4). -/
def be (n v : Nat) : List Byte := (le n v).reverse

/-- The little-endian value of a list of bytes (R4). -/
def unLe : List Byte → Nat
  | [] => 0
  | b :: bs => b.toNat + 256 * unLe bs

/-- The network-order value of a list of bytes (R4). -/
def unBe (bs : List Byte) : Nat := unLe bs.reverse

/-- `bs` cut or zero-filled to exactly `n` bytes. -/
def fitBytes : Nat → List Byte → List Byte
  | 0, _ => []
  | n + 1, [] => 0 :: fitBytes n []
  | n + 1, b :: bs => b :: fitBytes n bs

/-- `n` zero bytes. -/
def zeros (n : Nat) : List Byte := List.replicate n 0

/-- `len` bytes of `bs` from byte `off`. -/
def slice (bs : List Byte) (off len : Nat) : List Byte := (bs.drop off).take len

/-- `bs` with `xs` written over it from byte `off`. -/
def overwrite (bs : List Byte) (off : Nat) (xs : List Byte) : List Byte :=
  bs.take off ++ xs ++ bs.drop (off + xs.length)

/-- `x` kept within `[lo, hi]`. -/
def clampNat (lo hi x : Nat) : Nat := if x < lo then lo else if hi < x then hi else x

/-- A count that stops at its largest value `2^w − 1` (saturating). -/
def satAdd (w a b : Nat) : Nat := min (2 ^ w - 1) (a + b)

/-- Division rounding up. -/
def ceilDiv (a b : Nat) : Nat := (a + b - 1) / b

/-- The signed reading of the low `w` bits. -/
def toSigned (w v : Nat) : Int := if v % 2 ^ w < 2 ^ (w - 1) then (v % 2 ^ w : Nat) else (v % 2 ^ w : Nat) - (2 ^ w : Nat)

/-- The indices below `n` whose bit is set in `v`. -/
def bitList (n v : Nat) : List Nat := (List.range n).filter (fun i => v.testBit i)

/-- How many of the low `n` bits of `v` are set. -/
def popCount (n v : Nat) : Nat := (bitList n v).length

/-- The mask with exactly the bits of `l` set. -/
def maskOf (l : List Nat) : Nat := l.foldl (fun m i => m ||| 2 ^ i) 0

/-- `v` with bit `i` cleared. -/
def clearBit (v i : Nat) : Nat := if v.testBit i then v - 2 ^ i else v

/-- The bits of `v` that are not in `m`. -/
def andNot (v m : Nat) : Nat := v - (v &&& m)

end Sys2Proof.Machine
end

