-- ==== Sys2Proof/Machine/Crypto.lean ====
section
/-! DEFINITION. The published algorithms that the blocks run: SHA-256, SHA-512 and HMAC (FIPS 180-4, FIPS 198-1; R156),
AES-256 with GCM, XTS, CBC and key wrap (FIPS 197, SP 800-38D, IEEE 1619, RFC 3394; R81, R208, R211, R212), CRC-32C (R146),
the 64-bit guard of NVMe (R17), arithmetic of GF(2^8) under 0x11D (R300) and DEFLATE decoding (RFC 1951; R189). -/

namespace Sys2Proof.Machine

/-! ### SHA-2 -/

/-- The round constants of SHA-512; their upper halves are those of SHA-256 (FIPS 180-4). -/
def sha512K : List (BitVec 64) :=
  [0x428a2f98d728ae22, 0x7137449123ef65cd, 0xb5c0fbcfec4d3b2f, 0xe9b5dba58189dbbc] ++
  [0x3956c25bf348b538, 0x59f111f1b605d019, 0x923f82a4af194f9b, 0xab1c5ed5da6d8118] ++
  [0xd807aa98a3030242, 0x12835b0145706fbe, 0x243185be4ee4b28c, 0x550c7dc3d5ffb4e2] ++
  [0x72be5d74f27b896f, 0x80deb1fe3b1696b1, 0x9bdc06a725c71235, 0xc19bf174cf692694] ++
  [0xe49b69c19ef14ad2, 0xefbe4786384f25e3, 0xfc19dc68b8cd5b5, 0x240ca1cc77ac9c65] ++
  [0x2de92c6f592b0275, 0x4a7484aa6ea6e483, 0x5cb0a9dcbd41fbd4, 0x76f988da831153b5] ++
  [0x983e5152ee66dfab, 0xa831c66d2db43210, 0xb00327c898fb213f, 0xbf597fc7beef0ee4] ++
  [0xc6e00bf33da88fc2, 0xd5a79147930aa725, 0x6ca6351e003826f, 0x142929670a0e6e70] ++
  [0x27b70a8546d22ffc, 0x2e1b21385c26c926, 0x4d2c6dfc5ac42aed, 0x53380d139d95b3df] ++
  [0x650a73548baf63de, 0x766a0abb3c77b2a8, 0x81c2c92e47edaee6, 0x92722c851482353b] ++
  [0xa2bfe8a14cf10364, 0xa81a664bbc423001, 0xc24b8b70d0f89791, 0xc76c51a30654be30] ++
  [0xd192e819d6ef5218, 0xd69906245565a910, 0xf40e35855771202a, 0x106aa07032bbd1b8] ++
  [0x19a4c116b8d2d0c8, 0x1e376c085141ab53, 0x2748774cdf8eeb99, 0x34b0bcb5e19b48a8] ++
  [0x391c0cb3c5c95a63, 0x4ed8aa4ae3418acb, 0x5b9cca4f7763e373, 0x682e6ff3d6b2b8a3] ++
  [0x748f82ee5defb2fc, 0x78a5636f43172f60, 0x84c87814a1f0ab72, 0x8cc702081a6439ec] ++
  [0x90befffa23631e28, 0xa4506cebde82bde9, 0xbef9a3f7b2c67915, 0xc67178f2e372532b] ++
  [0xca273eceea26619c, 0xd186b8c721c0c207, 0xeada7dd6cde0eb1e, 0xf57d4f7fee6ed178] ++
  [0x6f067aa72176fba, 0xa637dc5a2c898a6, 0x113f9804bef90dae, 0x1b710b35131c471b] ++
  [0x28db77f523047d84, 0x32caab7b40c72493, 0x3c9ebe0a15c9bebc, 0x431d67c49c100d4c] ++
  [0x4cc5d4becb3e42b6, 0x597f299cfc657e2a, 0x5fcb6fab3ad6faec, 0x6c44198c4a475817]

/-- The initial hash value of SHA-512. -/
def sha512H0 : List (BitVec 64) :=
  [0x6a09e667f3bcc908, 0xbb67ae8584caa73b, 0x3c6ef372fe94f82b, 0xa54ff53a5f1d36f1] ++
  [0x510e527fade682d1, 0x9b05688c2b3e6c1f, 0x1f83d9abfb41bd6b, 0x5be0cd19137e2179]

/-- The initial hash value of SHA-256. -/
def sha256H0 : List (BitVec 32) :=
  [0x6a09e667, 0xbb67ae85, 0x3c6ef372, 0xa54ff53a, 0x510e527f, 0x9b05688c, 0x1f83d9ab, 0x5be0cd19]

/-- The parameters of one member of the SHA-2 family: word width, block bytes, rounds and rotation amounts. -/
structure ShaPar where
  w : Nat
  block : Nat
  rounds : Nat
  bs0 : Nat × Nat × Nat
  bs1 : Nat × Nat × Nat
  ss0 : Nat × Nat × Nat
  ss1 : Nat × Nat × Nat
  deriving DecidableEq, Repr

def par256 : ShaPar := ⟨32, 64, 64, (2, 13, 22), (6, 11, 25), (7, 18, 3), (17, 19, 10)⟩
def par512 : ShaPar := ⟨64, 128, 80, (28, 34, 39), (14, 18, 41), (1, 8, 7), (19, 61, 6)⟩

/-- Rotate right by `n` in words of `w` bits. -/
def rotr {w : Nat} (x : BitVec w) (n : Nat) : BitVec w := x.rotateRight n

/-- The big sigma functions. -/
def bigS {w : Nat} (t : Nat × Nat × Nat) (x : BitVec w) : BitVec w := rotr x t.1 ^^^ rotr x t.2.1 ^^^ rotr x t.2.2

/-- The small sigma functions: the third amount is a shift. -/
def smallS {w : Nat} (t : Nat × Nat × Nat) (x : BitVec w) : BitVec w := rotr x t.1 ^^^ rotr x t.2.1 ^^^ (x >>> t.2.2)

/-- The message schedule, newest word first: `n` more words. -/
def shaSchedule {w : Nat} (p : ShaPar) : Nat → List (BitVec w) → List (BitVec w)
  | 0, l => l
  | n + 1, l =>
    let x := smallS p.ss1 (l.getD 1 0) + l.getD 6 0 + smallS p.ss0 (l.getD 14 0) + l.getD 15 0
    shaSchedule p n (x :: l)

/-- One round on the eight working variables. -/
def shaRound {w : Nat} (p : ShaPar) (v : List (BitVec w)) (kw : BitVec w × BitVec w) : List (BitVec w) :=
  match v with
  | [a, b, c, d, e, f, g, h] =>
    let t1 := h + bigS p.bs1 e + ((e &&& f) ^^^ (~~~e &&& g)) + kw.1 + kw.2
    let t2 := bigS p.bs0 a + ((a &&& b) ^^^ (a &&& c) ^^^ (b &&& c))
    [t1 + t2, a, b, c, d + t1, e, f, g]
  | v => v

/-- Words of a block, first word first. -/
def shaWords (w : Nat) : Nat → List Byte → List (BitVec w)
  | 0, _ => []
  | n + 1, bs => BitVec.ofNat w (unBe (bs.take (w / 8))) :: shaWords w n (bs.drop (w / 8))

/-- One block into the chaining value. -/
def shaBlock {w : Nat} (p : ShaPar) (ks : List (BitVec w)) (h : List (BitVec w)) (blk : List Byte) : List (BitVec w) :=
  let m := shaWords w 16 blk
  let ws := (shaSchedule p (p.rounds - 16) m.reverse).reverse
  let v := (ks.zip ws).foldl (shaRound p) h
  List.zipWith (· + ·) h v

/-- All blocks of a padded message. -/
def shaBlocks {w : Nat} (p : ShaPar) (ks : List (BitVec w)) : Nat → List (BitVec w) → List Byte → List (BitVec w)
  | 0, h, _ => h
  | n + 1, h, bs => shaBlocks p ks n (shaBlock p ks h (bs.take p.block)) (bs.drop p.block)

/-- The padding of a message of `len` bytes. -/
def shaPad (p : ShaPar) (len : Nat) : List Byte :=
  let lb := p.block / 8
  let z := (p.block - (len + 1 + lb) % p.block) % p.block
  0x80 :: zeros z ++ be lb (8 * len)

/-- The bytes of a chaining value. -/
def shaBytes {w : Nat} (h : List (BitVec w)) : List Byte := h.flatMap (fun x => be (w / 8) x.toNat)

/-- SHA-256 (FIPS 180-4). -/
def sha256 (m : List Byte) : List Byte :=
  let bs := m ++ shaPad par256 m.length
  shaBytes (shaBlocks par256 ((sha512K.take 64).map (fun k => BitVec.ofNat 32 (k.toNat / 2 ^ 32))) (bs.length / 64)
    sha256H0 bs)

/-- SHA-512 (FIPS 180-4). -/
def sha512 (m : List Byte) : List Byte :=
  let bs := m ++ shaPad par512 m.length
  shaBytes (shaBlocks par512 sha512K (bs.length / 128) sha512H0 bs)

/-- The digest by MARK's ALG: 0 = SHA-256, 1 = SHA-512 (R156). -/
def shaAlg (alg : Nat) (m : List Byte) : List Byte := if alg = 0 then sha256 m else sha512 m

/-- HMAC under a key no longer than the block (FIPS 198-1); a longer key is hashed first. -/
def hmac (alg : Nat) (key m : List Byte) : List Byte :=
  let bl := if alg = 0 then 64 else 128
  let k := fitBytes bl (if key.length ≤ bl then key else shaAlg alg key)
  shaAlg alg (k.map (· ^^^ 0x5C) ++ shaAlg alg (k.map (· ^^^ 0x36) ++ m))

/-! ### Galois fields -/

/-- Multiplication in GF(2^8) under a polynomial, low byte `poly` of it (0x1B for AES, 0x1D for 0x11D). -/
def gfMulAux (poly : Byte) : Nat → Byte → Byte → Byte
  | 0, _, _ => 0
  | n + 1, a, b =>
    let r := gfMulAux poly n (if a.msb then (a <<< 1) ^^^ poly else a <<< 1) (b >>> 1)
    if b.getLsbD 0 then r ^^^ a else r

/-- Multiplication under the polynomial with low byte `poly`. -/
def gfMul (poly a b : Byte) : Byte := gfMulAux poly 8 a b

/-- Powers. -/
def gfPow (poly : Byte) (a : Byte) : Nat → Byte
  | 0 => 1
  | n + 1 => gfMul poly a (gfPow poly a n)

/-- The inverse, 0 for 0: a^254 by squarings. -/
def gfInv (poly a : Byte) : Byte :=
  let s2 := gfMul poly a a
  let s4 := gfMul poly s2 s2
  let s8 := gfMul poly s4 s4
  let s16 := gfMul poly s8 s8
  let s32 := gfMul poly s16 s16
  let s64 := gfMul poly s32 s32
  let s128 := gfMul poly s64 s64
  gfMul poly s2 (gfMul poly s4 (gfMul poly s8 (gfMul poly s16 (gfMul poly s32 (gfMul poly s64 s128)))))

/-! ### AES-256 (FIPS 197) -/

/-- The AES S-box. -/
def aesSub (x : Byte) : Byte :=
  let b := gfInv 0x1B x
  b ^^^ b.rotateLeft 1 ^^^ b.rotateLeft 2 ^^^ b.rotateLeft 3 ^^^ b.rotateLeft 4 ^^^ 0x63

/-- The inverse S-box. -/
def aesInvSub (y : Byte) : Byte :=
  gfInv 0x1B (y.rotateLeft 1 ^^^ y.rotateLeft 3 ^^^ y.rotateLeft 6 ^^^ 0x05)

/-- Byte-wise exclusive or. -/
def xorBytes (a b : List Byte) : List Byte := List.zipWith (· ^^^ ·) a b

/-- Key expansion, newest word first: word `i` is next, `n` words to go. -/
def aesExpand (nk : Nat) : Nat → Nat → List (List Byte) → List (List Byte)
  | 0, _, l => l
  | n + 1, i, l =>
    let t := l.getD 0 []
    let t' :=
      if i % nk = 0 then xorBytes ((t.drop 1 ++ t.take 1).map aesSub) [gfPow 0x1B 2 (i / nk - 1), 0, 0, 0]
      else if nk = 8 ∧ i % 8 = 4 then t.map aesSub
      else t
    aesExpand nk n (i + 1) (xorBytes (l.getD (nk - 1) []) t' :: l)

/-- Words of four bytes. -/
def words4 : Nat → List Byte → List (List Byte)
  | 0, _ => []
  | n + 1, bs => bs.take 4 :: words4 n (bs.drop 4)

/-- The round keys of 16 bytes: 11 for a key of 16 bytes, 15 for one of 32. -/
def aesKeys (key : List Byte) : List (List Byte) :=
  let nk := if key.length = 16 then 4 else 8
  let ws := (aesExpand nk (3 * nk + 28) nk (words4 nk (fitBytes (4 * nk) key)).reverse).reverse
  (List.range (nk + 7)).map (fun r => (slice' ws (4 * r) 4).flatten)
where slice' (l : List (List Byte)) (o n : Nat) : List (List Byte) := (l.drop o).take n

/-- ShiftRows on a column-major block; `d` = 1 forward, 3 inverse. -/
def aesShift (d : Nat) (b : List Byte) : List Byte :=
  (List.range 16).map (fun i => b.getD ((i + 4 * d * (i % 4)) % 16) 0)

/-- MixColumns with the first row of its matrix. -/
def aesMix (m : List Byte) (b : List Byte) : List Byte :=
  (List.range 16).map (fun i =>
    let c := 4 * (i / 4)
    (List.range 4).foldl (fun acc k => acc ^^^ gfMul 0x1B (m.getD ((k + 4 - i % 4) % 4) 0) (b.getD (c + k) 0)) 0)

/-- One block enciphered under expanded keys. -/
def aesEncK (ks : List (List Byte)) (blk : List Byte) : List Byte :=
  let s0 := xorBytes (fitBytes 16 blk) (ks.getD 0 [])
  let s1 := ((ks.drop 1).take (ks.length - 2)).foldl (fun b k => xorBytes (aesMix [2, 3, 1, 1] (aesShift 1 (b.map aesSub))) k) s0
  xorBytes (aesShift 1 (s1.map aesSub)) (ks.getLastD [])

/-- One block deciphered under expanded keys. -/
def aesDecK (ks : List (List Byte)) (blk : List Byte) : List Byte :=
  let rk := ks.reverse
  let s0 := xorBytes (fitBytes 16 blk) (rk.getD 0 [])
  let s1 := ((rk.drop 1).take (rk.length - 2)).foldl
    (fun b k => aesMix [14, 11, 13, 9] (xorBytes ((aesShift 3 b).map aesInvSub) k)) s0
  xorBytes ((aesShift 3 s1).map aesInvSub) (rk.getLastD [])

/-- AES-256 on one block. -/
def aesEnc (key blk : List Byte) : List Byte := aesEncK (aesKeys key) blk
def aesDec (key blk : List Byte) : List Byte := aesDecK (aesKeys key) blk

/-- The blocks of 16 bytes of a message, the last one perhaps short. -/
def blocks16 : Nat → List Byte → List (List Byte)
  | 0, _ => []
  | n + 1, bs => if bs.isEmpty then [] else bs.take 16 :: blocks16 n (bs.drop 16)

/-- All blocks of a message. -/
def chunks16 (bs : List Byte) : List (List Byte) := blocks16 (bs.length / 16 + 1) bs

/-! ### GCM (SP 800-38D) -/

/-- Multiplication in GF(2^128) with GCM's bit order; `x`'s bits are read from the most significant. -/
def ghashMulAux : Nat → Nat → Nat → Nat → Nat
  | 0, _, _, z => z
  | n + 1, x, v, z =>
    let z' := if x.testBit n then z ^^^ v else z
    let v' := if v.testBit 0 then (v / 2) ^^^ (0xE1 * 2 ^ 120) else v / 2
    ghashMulAux n x v' z'

/-- GHASH over padded blocks. -/
def ghash (h : Nat) (bs : List (List Byte)) : Nat :=
  bs.foldl (fun y b => ghashMulAux 128 (y ^^^ unBe (fitBytes 16 b)) h 0) 0

/-- Counter-mode keystream over a message from counter block `ctr`. -/
def gcmCtr (ks : List (List Byte)) (iv : List Byte) (ctr : Nat) : List (List Byte) → List Byte
  | [] => []
  | b :: bs => xorBytes b (aesEncK ks (iv ++ be 4 ctr)) ++ gcmCtr ks iv (ctr + 1) bs

/-- The tag over associated data and ciphertext. -/
def gcmTag (ks : List (List Byte)) (iv aad ct : List Byte) : List Byte :=
  let h := unBe (aesEncK ks (zeros 16))
  let y := ghash h (chunks16 aad ++ chunks16 ct ++ [be 8 (8 * aad.length) ++ be 8 (8 * ct.length)])
  xorBytes (be 16 y) (aesEncK ks (iv ++ be 4 1))

/-- AES-256-GCM with a 12-byte nonce: ciphertext and tag. -/
def gcmSeal (key iv aad pt : List Byte) : List Byte × List Byte :=
  let ks := aesKeys key
  let ct := gcmCtr ks iv 2 (chunks16 pt)
  (ct, gcmTag ks iv aad ct)

/-- The plaintext, when the tag verifies. -/
def gcmOpen (key iv aad ct tag : List Byte) : Option (List Byte) :=
  let ks := aesKeys key
  if gcmTag ks iv aad ct = tag then some (gcmCtr ks iv 2 (chunks16 ct)) else none

/-! ### XTS (IEEE 1619), CBC and key wrap (RFC 3394) -/

/-- The tweak times alpha. -/
def xtsNext (t : Nat) : Nat := if t < 2 ^ 127 then 2 * t else (2 * t - 2 ^ 128) ^^^ 0x87

/-- One block under a tweak. -/
def xtsOne (f : List Byte → List Byte) (t : Nat) (b : List Byte) : List Byte :=
  xorBytes (f (xorBytes b (le 16 t))) (le 16 t)

/-- XTS over a unit of at least 16 bytes, with ciphertext stealing; `dec` selects the direction. -/
def xtsAux (f : List Byte → List Byte) (dec : Bool) : Nat → Nat → List Byte → List Byte
  | 0, _, _ => []
  | n + 1, t, bs =>
    if bs.length < 16 then []
    else if bs.length = 16 then xtsOne f t bs
    else if bs.length < 32 then
      let r := bs.length - 16
      let ta := if dec then xtsNext t else t
      let tb := if dec then t else xtsNext t
      let cc := xtsOne f ta (bs.take 16)
      let last := bs.drop 16
      xtsOne f tb (last ++ cc.drop r) ++ cc.take r
    else xtsOne f t (bs.take 16) ++ xtsAux f dec n (xtsNext t) (bs.drop 16)

/-- AES-256-XTS encryption under the data key and the tweak key, with the 16-byte tweak `tw` as a number. -/
def xtsEnc (k1 k2 : List Byte) (tw : Nat) (bs : List Byte) : List Byte :=
  let ks := aesKeys k1
  xtsAux (aesEncK ks) false (bs.length / 16 + 1) (unLe (aesEnc k2 (le 16 tw))) bs

/-- AES-256-XTS decryption. -/
def xtsDec (k1 k2 : List Byte) (tw : Nat) (bs : List Byte) : List Byte :=
  let ks := aesKeys k1
  xtsAux (aesDecK ks) true (bs.length / 16 + 1) (unLe (aesEnc k2 (le 16 tw))) bs

/-- CBC encryption of whole blocks. -/
def cbcEnc (ks : List (List Byte)) (iv : List Byte) : List (List Byte) → List Byte
  | [] => []
  | b :: bs => let c := aesEncK ks (xorBytes b iv); c ++ cbcEnc ks c bs

/-- CBC decryption of whole blocks. -/
def cbcDec (ks : List (List Byte)) (iv : List Byte) : List (List Byte) → List Byte
  | [] => []
  | b :: bs => xorBytes (aesDecK ks b) iv ++ cbcDec ks b bs

/-- Registers of 8 bytes. -/
def words8 : Nat → List Byte → List (List Byte)
  | 0, _ => []
  | n + 1, bs => if bs.isEmpty then [] else bs.take 8 :: words8 n (bs.drop 8)

/-- One pass of key wrap over the registers: `t` counts the steps. -/
def kwPass (ks : List (List Byte)) : List Byte → Nat → List (List Byte) → List Byte × List (List Byte)
  | a, _, [] => (a, [])
  | a, t, r :: rs =>
    let b := aesEncK ks (a ++ r)
    let a' := xorBytes (b.take 8) (be 8 t)
    let q := kwPass ks a' (t + 1) rs
    (q.1, b.drop 8 :: q.2)

/-- One pass of key unwrap, the registers last first. -/
def kwUnpass (ks : List (List Byte)) : List Byte → Nat → List (List Byte) → List Byte × List (List Byte)
  | a, _, [] => (a, [])
  | a, t, r :: rs =>
    let b := aesDecK ks (xorBytes a (be 8 t) ++ r)
    let q := kwUnpass ks (b.take 8) (t - 1) rs
    (q.1, b.drop 8 :: q.2)

/-- RFC 3394 wrap with the default initial value. -/
def keyWrap (kek pt : List Byte) : List Byte :=
  let ks := aesKeys kek
  let rs := words8 (pt.length / 8 + 1) pt
  let n := rs.length
  let q := (List.range 6).foldl (fun (st : List Byte × List (List Byte)) j => kwPass ks st.1 (n * j + 1) st.2)
    (List.replicate 8 0xA6, rs)
  q.1 ++ q.2.flatten

/-- RFC 3394 unwrap: the plaintext when the integrity check passes. -/
def keyUnwrap (kek ct : List Byte) : Option (List Byte) :=
  let ks := aesKeys kek
  let rs := words8 (ct.length / 8 + 1) (ct.drop 8)
  let n := rs.length
  let q := (List.range 6).foldl (fun (st : List Byte × List (List Byte)) j =>
      let u := kwUnpass ks st.1 (n * (6 - j)) st.2.reverse
      (u.1, u.2.reverse)) (ct.take 8, rs)
  if q.1 = List.replicate 8 0xA6 then some q.2.flatten else none

/-! ### Check codes -/

/-- One bit-reflected CRC step over `n` bits, register `c`. -/
def crcBits (poly : Nat) : Nat → Nat → Nat
  | 0, c => c
  | n + 1, c => crcBits poly n (if c % 2 = 1 then (c / 2) ^^^ poly else c / 2)

/-- A reflected CRC over bytes from a preset register, with no final inversion. -/
def crcRun (poly preset : Nat) (bs : List Byte) : Nat := bs.foldl (fun c b => crcBits poly 8 (c ^^^ b.toNat)) preset

/-- CRC-32C from a preset register, inverted at the end. -/
def crc32c (preset : Nat) (bs : List Byte) : Nat := crcRun 0x82F63B78 preset bs ^^^ 0xFFFFFFFF

/-- The NVMe 64-bit guard: CRC-64 of polynomial 0xAD93D23594C93659, reflected, preset and inverted to ones. -/
def guard64 (bs : List Byte) : Nat :=
  crcRun 0x9A6C9329AC4BC9B5 0xFFFFFFFFFFFFFFFF bs ^^^ 0xFFFFFFFFFFFFFFFF

/-- A block tag in the 64-bit-guard layout (R17). -/
def blockTag (guard app ref : Nat) : List Byte := be 8 guard ++ be 2 app ++ be 6 ref

/-! ### Parity (R300, R301) -/

/-- A payload scaled (`xorBytes` adds two). -/
def gfScale (c : Byte) (a : List Byte) : List Byte := a.map (gfMul 0x1D c)

/-- g^i of GF(2^8) under 0x11D. -/
def gPow (i : Nat) : Byte := gfPow 0x1D 2 i

/-- P and Q of the payloads of the data columns, in order. -/
def parityP (ds : List (List Byte)) : List Byte := ds.foldl xorBytes (zeros 4112)
def parityQ (ds : List (List Byte)) : List Byte := ds.zipIdx.foldl (fun q d => xorBytes q (gfScale (gPow d.2) d.1)) (zeros 4112)

/-- Data column `x`, from the columns that are not erased (R301): `ds` are the data columns, and none stands for an erasure. -/
def repairColumn (ds : List (Option (List Byte))) (p q : Option (List Byte)) (x : Nat) : Option (List Byte) :=
  match ds.getD x none with
  | some d => some d
  | none =>
    let known := ds.map (fun d => d.getD (zeros 4112))
    match (List.range ds.length).filter (fun i => (ds.getD i none).isNone), p, q with
    | [_], some pw, _ => some (xorBytes pw (parityP known))
    | [_], none, some qw => some (gfScale (gfInv 0x1D (gPow x)) (xorBytes qw (parityQ known)))
    | [a, b], some pw, some qw =>
      let u := xorBytes pw (parityP known)
      let v := xorBytes qw (parityQ known)
      let da := gfScale (gfInv 0x1D (gPow a ^^^ gPow b)) (xorBytes (gfScale (gPow b) u) v)
      some (if x = a then da else xorBytes u da)
    | _, _, _ => none

/-! ### DEFLATE decoding (RFC 1951) -/

/-- The bits of a byte string, least significant bit of each byte first. -/
def bitsOf (bs : List Byte) : List Bool := bs.flatMap (fun b => (List.range 8).map (fun i => b.getLsbD i))

/-- Take `n` bits as a number, first bit least significant. -/
def takeBits : Nat → List Bool → Option (Nat × List Bool)
  | 0, l => some (0, l)
  | _ + 1, [] => none
  | n + 1, b :: l => (takeBits n l).map (fun r => (b2n b + 2 * r.1, r.2))

/-- The canonical code of code lengths: for each symbol its length and code value (RFC 1951, 3.2.2). -/
def huffCodes (lens : List Nat) : List (Nat × Nat × Nat) :=
  let cnt := fun n => (lens.filter (· = n)).length
  let first := (List.range 16).foldl (fun (acc : List Nat) n =>
    acc ++ [if n = 0 then 0 else 2 * (acc.getD (n - 1) 0 + (if n = 1 then 0 else cnt (n - 1)))]) []
  (lens.zipIdx.filter (fun e => e.1 ≠ 0)).map (fun e =>
    (e.1, first.getD e.1 0 + ((lens.take e.2).filter (· = e.1)).length, e.2))

/-- The code space that lengths take, in units of 2^-15. -/
def huffSpace (lens : List Nat) : Nat := (lens.filter (· ≠ 0)).foldl (fun a n => a + 2 ^ (15 - n)) 0

/-- Lengths that over-subscribe the code space, or leave part of it unused. A distance code may have one code of one bit, or none (RFC
1951, 3.2.7). -/
def huffBad (lens : List Nat) (short : Bool) : Bool :=
  let used := lens.filter (· ≠ 0)
  huffSpace lens ≠ 2 ^ 15 && !(short && (used = [] || used = [1]))

/-- Why a DEFLATE stream is refused. -/
inductive InflKind where
  | truncated | illegal | badDist | tooLong
  deriving DecidableEq, Repr

/-- A refusal: why, the bits of input that were left where it was found, and the bytes of output before it. -/
structure InflErr where
  kind : InflKind
  left : Nat
  out : Nat
  deriving DecidableEq, Repr

/-- Decode one symbol: up to `n` more bits, with the code read so far. Bits that no longer code begins with lie outside the table.
[DEDUCED: log entry 18] -/
def huffSym (codes : List (Nat × Nat × Nat)) : Nat → Nat → Nat → List Bool → Except InflKind (Nat × List Bool)
  | 0, _, _, _ => .error .illegal
  | n + 1, len, code, l =>
    if codes.all (fun e => decide (e.1 ≤ len)) then .error .illegal
    else match l with
    | [] => .error .truncated
    | b :: l =>
      let c := 2 * code + b2n b
      match codes.find? (fun e => e.1 = len + 1 && e.2.1 = c) with
      | some e => .ok (e.2.2, l)
      | none => huffSym codes n (len + 1) c l

/-- Base and extra bits of length codes 257-285. -/
def lenBase (s : Nat) : Nat × Nat :=
  if s < 265 then (s - 254, 0)
  else if s = 285 then (258, 0)
  else let e := (s - 261) / 4; (3 + (4 + (s - 261) % 4) * 2 ^ e, e)

/-- Base and extra bits of distance codes 0-29. -/
def distBase (d : Nat) : Nat × Nat :=
  if d < 4 then (d + 1, 0) else let e := (d - 2) / 2; (1 + (2 + d % 2) * 2 ^ e, e)

/-- Copy `n` bytes from `dist` back; the output is held newest first. -/
def copyBack (dist : Nat) : Nat → List Byte → List Byte
  | 0, o => o
  | n + 1, o => copyBack dist n (o.getD (dist - 1) 0 :: o)

/-- The symbols of one block. `o` is the output, newest first, and `max` the largest output allowed. -/
def inflSyms (lit dist : List (Nat × Nat × Nat)) (max : Nat) :
    Nat → List Bool → List Byte → Except InflErr (List Bool × List Byte)
  | 0, l, o => .error ⟨.truncated, l.length, o.length⟩
  | f + 1, l, o =>
    match huffSym lit 15 0 0 l with
    | .error k => .error ⟨k, l.length, o.length⟩
    | .ok (s, l1) =>
      if s < 256 then
        if max ≤ o.length then .error ⟨.tooLong, l.length, max⟩ else inflSyms lit dist max f l1 (BitVec.ofNat 8 s :: o)
      else if s = 256 then .ok (l1, o)
      else if 285 < s then .error ⟨.illegal, l.length, o.length⟩
      else match takeBits (lenBase s).2 l1 with
        | none => .error ⟨.truncated, l1.length, o.length⟩
        | some (x, l2) => match huffSym dist 15 0 0 l2 with
          | .error k => .error ⟨k, l2.length, o.length⟩
          | .ok (d, l3) =>
            if 29 < d then .error ⟨.illegal, l2.length, o.length⟩
            else match takeBits (distBase d).2 l3 with
              | none => .error ⟨.truncated, l3.length, o.length⟩
              | some (y, l4) =>
                let n := (lenBase s).1 + x
                let back := (distBase d).1 + y
                if o.length < back then .error ⟨.badDist, l2.length, o.length⟩
                else if max < o.length + n then .error ⟨.tooLong, l.length, max⟩
                else inflSyms lit dist max f l4 (copyBack back n o)

/-- The code lengths of a dynamic block. -/
def inflLens (codes : List (Nat × Nat × Nat)) : Nat → Nat → List Bool → List Nat → Except (InflKind × Nat) (List Bool × List Nat)
  | 0, _, l, _ => .error (.illegal, l.length)
  | f + 1, want, l, acc =>
    if want ≤ acc.length then .ok (l, acc)
    else match huffSym codes 7 0 0 l with
      | .error k => .error (k, l.length)
      | .ok (s, l1) =>
        if s < 16 then inflLens codes f want l1 (acc ++ [s])
        else
          let p := if s = 16 then (2, 3) else if s = 17 then (3, 3) else (7, 11)
          match takeBits p.1 l1 with
          | none => .error (.truncated, l1.length)
          | some (x, l2) =>
            if s = 16 ∧ acc = [] then .error (.illegal, l.length)
            else inflLens codes f want l2 (acc ++ List.replicate (p.2 + x) (if s = 16 then acc.getLastD 0 else 0))

/-- The order of the code-length code lengths. -/
def clOrder : List Nat := [16, 17, 18, 0, 8, 7, 9, 6, 10, 5, 11, 4, 12, 3, 13, 2, 14, 1, 15]

/-- The fixed code lengths. -/
def fixedLit : List Nat :=
  List.replicate 144 8 ++ List.replicate 112 9 ++ List.replicate 24 7 ++ List.replicate 8 8
def fixedDist : List Nat := List.replicate 32 5

/-- A stored block, from the bits after its 3-bit header; `total` is the stream's bits. -/
def inflStored (max total : Nat) (l : List Bool) (o : List Byte) : Except InflErr (List Bool × List Byte) :=
  let skip := (8 - (total - l.length) % 8) % 8
  let l1 := l.drop skip
  match takeBits 32 l1 with
  | none => .error ⟨.truncated, l1.length, o.length⟩
  | some (x, l2) =>
    let n := x % 2 ^ 16
    if n + x / 2 ^ 16 ≠ 0xFFFF then .error ⟨.illegal, l1.length, o.length⟩
    else
      let k := min n (l2.length / 8)
      if max < o.length + k then .error ⟨.tooLong, l2.length - 8 * (max - o.length), max⟩
      else if k < n then .error ⟨.truncated, 0, o.length + k⟩
      else .ok (l2.drop (8 * n),
        ((List.range n).foldl (fun (a : List Byte) i =>
          BitVec.ofNat 8 (((takeBits 8 (l2.drop (8 * i))).map Prod.fst).getD 0) :: a) o))

/-- The code lengths of a dynamic block, literal and distance, from the bits after its header; `out` bytes have been output. -/
def inflHeader (l : List Bool) (out : Nat) : Except InflErr (List Bool × List Nat × List Nat) :=
  match takeBits 14 l with
  | none => .error ⟨.truncated, l.length, out⟩
  | some (x, l2) =>
    let hlit := x % 32 + 257
    let hdist := x / 32 % 32 + 1
    let hclen := x / 1024 + 4
    if 286 < hlit then .error ⟨.illegal, l.length, out⟩
    else if l2.length < 3 * hclen then .error ⟨.truncated, l2.length, out⟩
    else
      let raw := (List.range hclen).map (fun i => ((takeBits 3 (l2.drop (3 * i))).map Prod.fst).getD 0)
      let cl := (List.range 19).map (fun sym => raw.getD (clOrder.idxOf sym) 0)
      if huffBad cl false then .error ⟨.illegal, l2.length, out⟩
      else match inflLens (huffCodes cl) (hlit + hdist + 1) (hlit + hdist) (l2.drop (3 * hclen)) [] with
      | .error (k, n) => .error ⟨k, n, out⟩
      | .ok (l3, lens) =>
        if lens.length ≠ hlit + hdist ∨ huffBad (lens.take hlit) false ∨ huffBad (lens.drop hlit) true then
          .error ⟨.illegal, l3.length, out⟩
        else .ok (l3, lens.take hlit, lens.drop hlit)

/-- A dynamic block, from the bits after its header. -/
def inflDynamic (max : Nat) (l : List Bool) (o : List Byte) : Except InflErr (List Bool × List Byte) :=
  match inflHeader l o.length with
  | .error e => .error e
  | .ok (l3, lit, dist) => inflSyms (huffCodes lit) (huffCodes dist) max (l3.length + 1) l3 o

/-- The blocks of a stream. -/
def inflBlocks (max total : Nat) : Nat → List Bool → List Byte → Except InflErr (List Bool × List Byte)
  | 0, l, o => .error ⟨.truncated, l.length, o.length⟩
  | f + 1, l, o =>
    match takeBits 3 l with
    | none => .error ⟨.truncated, l.length, o.length⟩
    | some (h, l1) =>
      let r :=
        if h / 2 = 0 then inflStored max total l1 o
        else if h / 2 = 1 then inflSyms (huffCodes fixedLit) (huffCodes fixedDist) max (l1.length + 1) l1 o
        else if h / 2 = 2 then inflDynamic max l1 o
        else .error ⟨.illegal, l.length, o.length⟩
      match r with
      | .error e => .error e
      | .ok (l2, o2) => if h % 2 = 1 then .ok (l2, o2) else inflBlocks max total f l2 o2

/-- Decode a raw DEFLATE stream of at most `max` output bytes: the output and the whole bytes left over.
[DEDUCED: log entry 18] -/
def inflate (max : Nat) (bs : List Byte) : Except InflErr (List Byte × Nat) :=
  let l := bitsOf bs
  match inflBlocks max l.length (l.length + 1) l [] with
  | .error e => .error e
  | .ok (rest, o) => .ok (o.reverse, rest.length / 8)

/-! ### DEFLATE encodings (R188) -/

/-- Bytes of a bit string, least significant bit of each byte first. -/
def bytesOf (l : List Bool) : List Byte :=
  (List.range (ceilDiv l.length 8)).map (fun i => BitVec.ofNat 8 (((l.drop (8 * i)).take 8).foldr (fun b n => b2n b + 2 * n) 0))

/-- The bits of a Huffman code, most significant first. -/
def codeBits (n v : Nat) : List Bool := (List.range n).map (fun i => v.testBit (n - 1 - i))

/-- The unit in the fixed code, without matches: one block with BFINAL = 1. -/
def literalForm (unit : List Byte) : List Byte :=
  let code := fun (v : Nat) => if v < 144 then codeBits 8 (0x30 + v) else codeBits 9 (0x190 + (v - 144))
  bytesOf ([true, true, false] ++ unit.flatMap (fun b => code b.toNat) ++ List.replicate 7 false)

/-- The bits that the symbols of a block take in the fixed code, to the end of the block. -/
def fixedBits (lit dist : List (Nat × Nat × Nat)) : Nat → List Bool → Nat
  | 0, _ => 0
  | f + 1, l =>
    match huffSym lit 15 0 0 l with
    | .error _ => 0
    | .ok (s, l1) =>
      fixedLit.getD s 0 + (if s = 256 then 0
        else if s < 256 then fixedBits lit dist f l1
        else match takeBits (lenBase s).2 l1 with
          | none => 0
          | some (_, l2) => match huffSym dist 15 0 0 l2 with
            | .error _ => 0
            | .ok (d, l3) => (lenBase s).2 + 5 + (distBase d).2 + fixedBits lit dist f (l3.drop (distBase d).2))

/-- The stream is one block with BFINAL = 1, in the fixed code, or in a dynamic code that makes it shorter than the fixed one.
[DEDUCED: log entry 17] -/
def oneBlock (stream : List Byte) : Bool :=
  match takeBits 3 (bitsOf stream) with
  | some (3, _) => true
  | some (5, l) => match inflHeader l 0 with
    | .error _ => false
    | .ok (l3, lit, dist) => decide (stream.length < ceilDiv (3 + fixedBits (huffCodes lit) (huffCodes dist) (l3.length + 1) l3) 8)
  | _ => false

/-- The stream decodes to the unit, and ends there. -/
def decodesTo (unit stream : List Byte) : Bool :=
  match inflate unit.length stream with
  | .ok (o, left) => o = unit && left = 0
  | .error _ => false

end Sys2Proof.Machine
end

