-- ==== Sys2Proof/Config.lean ====
section
/-! DEFINITION. What the spec leaves open: the free values, each an opaque constant that nothing can evaluate, and what an
implementation fixes. -/

namespace Sys2Proof.Config

/-- A free byte, by the index of its taking.
[DESIGN CHOICE: log entry 8] -/
opaque freeByte : Nat → Byte
/-- A free natural number, by the index of its taking.
[DESIGN CHOICE: log entry 8] -/
opaque freeNat : Nat → Nat
/-- The 32-byte device root key, KEK 0, which is fused (R203).
[DESIGN CHOICE: log entry 9] -/
opaque rootKey : List Byte
/-- The bytes of QUEUE_STATE in a queue context, by the submission head, the slots in use and the offset: the spec gives the fields no
places (R95).
[DESIGN CHOICE: log entry 117] -/
opaque queueStateByte : Nat → Nat → Nat → Byte
/-- The 496 LDPC parity bytes of a codeword's 4,112 payload bytes, by their index (R251): the spec gives the code's rate, not the code.
[DESIGN CHOICE: log entry 131] -/
opaque ldpcByte : List Byte → Nat → Byte
/-- Whether a 64-byte sector of HBM holds Pug's move state, for which the spec gives no address (R295).
[DESIGN CHOICE: log entry 132] -/
opaque pugScratch : Nat → Bool
/-- The bytes of the boot ROM, which the spec does not give (R40). -/
opaque bootRom : Nat → Byte
/-- The SHA-256 digests of the fused update keys 0-3 (R423).
[DESIGN CHOICE: log entry 9] -/
opaque fusedKeyDigest : Nat → List Byte
/-- Whether a signature over a message is valid under an ML-DSA-87 public key, with an empty context string (R419): key, message,
signature. The spec names the scheme and gives none of it.
[DESIGN CHOICE: log entry 9] -/
opaque mlDsa87 : List Byte → List Byte → List Byte → Bool
/-- UPD.DIE_ID, 16 bytes (R419).
[DESIGN CHOICE: log entry 9] -/
opaque dieId : List Byte
/-- The 48-bit provisioned ID, the BCR and the DCR of the I3C target (R417).
[DESIGN CHOICE: log entry 9] -/
opaque i3cPid : Nat
/-- [DESIGN CHOICE: log entry 9] -/
opaque i3cBcr : Byte
/-- [DESIGN CHOICE: log entry 9] -/
opaque i3cDcr : Byte

end Sys2Proof.Config
end

