-- ==== Sys2Proof/Machine/Tab.lean ====
section
/-! DEFINITION. Tables: plain lists of (key, entry) pairs in one canonical form. Keys rise strictly, and no entry
equals what an unlisted key reads as; so equal tables are equal data. The reading of an unlisted key is a function
`d` of the key, given at each use. -/

namespace Sys2Proof.Machine

/-- A table from natural keys. -/
abbrev Tab (α : Type) := List (Nat × α)


/-- The entry at `k`, or what an unlisted key reads as. -/
def Tab.getF {α : Type} (d : Nat → α) : Tab α → Nat → α
  | [], k => d k
  | (k', v) :: t, k => if k = k' then v else Tab.getF d t k

/-- `t` without the entry at `k`. -/
def Tab.del {α : Type} (t : Tab α) (k : Nat) : Tab α := t.filter (fun e => e.1 ≠ k)

/-- `t` with `v` listed at `k`, in key order. -/
def Tab.ins {α : Type} : Tab α → Nat → α → Tab α
  | [], k, v => [(k, v)]
  | (k', v') :: t, k, v =>
    if k < k' then (k, v) :: (k', v') :: t
    else if k = k' then (k, v) :: t
    else (k', v') :: Tab.ins t k v

/-- Writing: an entry equal to what the key reads as unlisted is removed, any other is listed. -/
def Tab.putF {α : Type} [DecidableEq α] (d : Nat → α) (t : Tab α) (k : Nat) (v : α) : Tab α :=
  if v = d k then t.del k else t.ins k v

/-- Reading with one default for all keys. -/
def Tab.get {α : Type} (d : α) (t : Tab α) (k : Nat) : α := t.getF (fun _ => d) k

/-- Writing with one default for all keys. -/
def Tab.put {α : Type} [DecidableEq α] (d : α) (t : Tab α) (k : Nat) (v : α) : Tab α := t.putF (fun _ => d) k v

/-- Changing the entry at `k` by `f`. -/
def Tab.upd {α : Type} [DecidableEq α] (d : α) (t : Tab α) (k : Nat) (f : α → α) : Tab α := t.put d k (f (t.get d k))

/-- The listed entry at `k`. -/
def Tab.find {α : Type} : Tab α → Nat → Option α
  | [], _ => none
  | (k', v) :: t, k => if k = k' then some v else Tab.find t k

/-- The listed keys. -/
def Tab.keys {α : Type} (t : Tab α) : List Nat := t.map Prod.fst

/-- Keeping only the listed entries whose key satisfies `p`. -/
def Tab.keepKeys {α : Type} (p : Nat → Bool) (t : Tab α) : Tab α := t.filter (fun e => p e.1)

/-- Keys rise strictly from above `lo`. -/
def Tab.risingFrom {α : Type} : Nat → Tab α → Bool
  | _, [] => true
  | lo, (k, _) :: t => lo ≤ k && Tab.risingFrom (k + 1) t

/-- No listed entry equals what its key reads as unlisted. -/
def Tab.noDefault {α : Type} [DecidableEq α] (d : Nat → α) (t : Tab α) : Bool := t.all (fun e => e.2 ≠ d e.1)

/-- The canonical form. -/
def Tab.wfF {α : Type} [DecidableEq α] (d : Nat → α) (t : Tab α) : Bool := t.risingFrom 0 && t.noDefault d

/-- The canonical form with one default. -/
def Tab.wf {α : Type} [DecidableEq α] (d : α) (t : Tab α) : Bool := t.wfF (fun _ => d)


/-- The lowest key from `lo` up that is not listed. -/
def Tab.firstGap {α : Type} : Nat → Tab α → Nat
  | lo, [] => lo
  | lo, (k, _) :: t => if lo < k then lo else Tab.firstGap (k + 1) t

end Sys2Proof.Machine
end

