-- ==== Sys2Proof/Machine/TypesMap.lean ====
section
/-! DEFINITION. Volumes, logical maps, the content map, moulds, commit units and slipcast replicas as plain data (R217-R249). -/

namespace Sys2Proof.Machine

/-- A volume-table entry (R217); `kind` 0 is free. -/
structure Volume where
  root : Nat := 0
  rootOwner : Nat := 0
  rootBirth : Nat := 0
  epoch : Nat := 0
  size : Nat := 0
  mapped : Nat := 0
  tenant : Nat := 0
  domain : Nat := 0
  keySlot : Nat := 0
  kind : Nat := 0
  levels : Nat := 0
  source : Nat := 0
  moulds : Nat := 0
  readOnly : Bool := false
  cgHold : Bool := false
  /-- pages replaced by copies: (MPA, BIRTH, epoch of replacement) (R231) -/
  replaced : List (Nat × Nat × Nat) := []
  /-- the VOL_DELETE that waits for admitted commands -/
  deleting : Option Nat := none
  deriving DecidableEq, Repr

/-- A tenant-table entry (R217). -/
structure Tenant where
  capGrains : Nat := 0
  physGrains : Nat := 0
  rsvGrains : Nat := 0
  deriving DecidableEq, Repr

/-- A logical or pointer entry (R219). In a leaf `a` is the CID and `b` the application tag; in a pointer page `a` is the MPA,
`b` OWNER and `c` BIRTH. -/
structure MapEnt where
  a : Nat := 0
  b : Nat := 0
  c : Nat := 0
  /-- shelf mode: the location -/
  loc : Nat := 0
  inFlight : Bool := false
  poisoned : Bool := false
  indet : Bool := false
  /-- a pointer whose subtree is deallocated -/
  lost : Bool := false
  deriving DecidableEq, Repr

/-- A tree page: its level (1 = leaf), owner, birth epoch, and entries. -/
structure MapPage where
  level : Nat := 1
  owner : Nat := 0
  birth : Nat := 0
  ents : Tab MapEnt := []
  deriving DecidableEq, Repr

/-- A content entry (R221); `refs` 0 is free. -/
structure Content where
  loc : Nat := 0
  len : Nat := 0
  dom : Nat := 0
  inFlight : Bool := false
  poisoned : Bool := false
  indet : Bool := false
  stored : Bool := false
  keySlot : Nat := 0
  refs : Nat := 0
  /-- its KIND 2 record has committed, and its grains count (R233) -/
  counted : Bool := false
  createSeq : Nat := 0
  guard : Nat := 0
  fp : List Byte := []
  deriving DecidableEq, Repr

/-- A mould-table entry (R228): state 0 Free, 1 Sealing, 2 Sealed, 3 Deleting. -/
structure Mould where
  vol : Nat := 0
  st : Nat := 0
  levels : Nat := 0
  epoch : Nat := 0
  root : Nat := 0
  clones : Nat := 0
  time : Nat := 0
  size : Nat := 0
  /-- the commands that complete when it is Sealed, and the MOULD_DELETE -/
  waits : List Nat := []
  delCmd : Option Nat := none
  deriving DecidableEq, Repr

/-- A map-delta record (R223). -/
structure DeltaRec where
  kind : Nat
  vol : Nat := 0xFFFF
  aux : Nat := 0
  key : Nat := 0
  value : Nat := 0
  /-- the content entry that follows a KIND 2 record -/
  extra : List Byte := []
  deriving DecidableEq, Repr

/-- A commit unit in the delta ring. -/
structure CommitUnit where
  seq : Nat
  recs : List DeltaRec
  deriving DecidableEq, Repr

/-- LMAP and MOULD. -/
structure LmapSt where
  vols : Tab Volume := []
  tens : Tab Tenant := []
  pages : Tab MapPage := []
  cids : Tab Content := []
  moulds : Tab Mould := []
  /-- pages that map-cache frames hold, in clock order, their reference bits, and the page that each frame of the cache holds -/
  frames : List Nat := []
  refbits : List Nat := []
  slots : Tab Nat := []
  dirty : List Nat := []
  /-- pages with changes that flash does not hold: the first commit unit that it lacks -/
  since : Tab Nat := []
  /-- pages being fetched -/
  wanted : List Nat := []
  /-- where each of them is being read from -/
  fetchLoc : Tab Nat := []
  /-- volume- and tenant-table entries that have changed since the last commit unit, as AUX of their KIND 6 records -/
  tabDirty : List Nat := []
  /-- pages whose copy on flash is lost and not yet written again (R265) -/
  lostPages : List Nat := []
  commitSeq : Nat := 0
  createSeq : Nat := 0
  nextMpa : Nat := 1
  /-- shelf mode: CIDs given, which are not kept in a content map -/
  shelfCids : Nat := 0
  /-- VOL_RESIZE commands that wait for map pages: CSEQ and the new SIZE, by volume -/
  resizes : Tab (Nat × Nat) := []
  /-- MOULD_CG commands that run: CSEQ, moulds not yet Sealed, volumes -/
  cgs : List (Nat × List Nat × List Nat) := []
  deriving DecidableEq, Repr

/-- A replica entry (R237) and what SLIP keeps beside it. -/
structure Replica where
  role : Nat := 0
  sync : Bool := false
  degrade : Bool := false
  st : Nat := 0
  assoc : Nat := 0
  tgtVol : Nat := 0
  land : Nat := 0
  slotsLog2 : Nat := 0
  status : Nat := 0
  nextSeq : Nat := 0
  applied : Nat := 0
  bitmap : Nat := 0
  cursor : Nat := 0
  nextMould : Nat := 0xFFFFFFFF
  baseMould : Nat := 0xFFFFFFFF
  /-- the mould being shipped, and the running SLIP_SHIP -/
  shipCmd : Option Nat := none
  /-- records that wait to be sent or to be applied there: (REP_SEQ, header and data, NVF command key or none) -/
  queue : List (Nat × List Byte × Option Nat) := []
  /-- records sent and not yet applied -/
  sent : List (Nat × List Byte × Option Nat) := []
  /-- records whose WRITE_NOTIFY has not ended: their REP_SEQs -/
  out : List Nat := []
  /-- backlog bits, rising -/
  backlog : List Nat := []
  /-- DELTA_END's record, or the last record of the final pass -/
  finalSeq : Option Nat := none
  /-- block ranges that a pass has still to ship: (LBA, blocks) -/
  todo : List (Nat × Nat) := []
  /-- the run of blocks that is being read for the next DATA record -/
  reading : Option (Nat × Nat) := none
  /-- SLIP holds the admission of writes (R246) -/
  hold : Bool := false
  /-- target: records arrived and not admitted: (REP_SEQ, bytes) -/
  arrived : List (Nat × List Byte) := []
  /-- target: records admitted and not applied -/
  inAir : List Nat := []
  /-- target: of the records admitted and not applied, the REP_SEQ, the KIND, and whether only a source that is InSync sends such a record -/
  kinds : List (Nat × Nat × Bool) := []
  /-- target: the moulding record being applied: its REP_SEQ, KIND and mould, and the commit unit of the mould -/
  making : Option (Nat × Nat × Nat × Nat) := none
  /-- target: records whose command has ended, and whether with success -/
  overs : List (Nat × Bool) := []
  /-- MOULD_NEEDED posted for this record -/
  needed : Option Nat := none
  lastKind : Nat := 0
  wasInSync : Bool := false
  promote : Option Nat := none
  /-- a status write is out: APPLIED_SEQ and state that it carried -/
  statusOut : Option (Nat × Nat) := none
  /-- what the last status write carried -/
  told : Nat × Nat := (0, 0)
  /-- the reason it is Broken -/
  reason : Nat := 0
  deriving DecidableEq, Repr

/-- SLIP. -/
structure SlipSt where
  reps : Tab Replica := []
  deriving DecidableEq, Repr

end Sys2Proof.Machine
end

