-- ==== Sys2Proof/Machine/TypesWare.lean ====
section
/-! DEFINITION. The switch and the ware lanes as plain data: SW, BUF, MARK, GROG, WEDGE and the units that travel through
them (R132-R202). -/

namespace Sys2Proof.Machine

/-! ### Switch -/

/-- A frame held by the switch: its cells by where they lie (R133, R143), and the destinations still to take it. A credited
frame lies in its command's charged cells, and has none of its own. -/
structure Stored where
  frame : SwFrame
  head : Nat := 0
  shared : Nat := 0
  ovf : Nat := 0
  /-- the first overflow cell -/
  ovfAt : List Nat := []
  left : List Nat := []
  deriving DecidableEq, Repr

/-- BUF's configuration in force (R141, R144). -/
structure BufCfg where
  res : List Nat := [20480, 20480, 20480, 20480, 20480, 49152, 20480, 4096]
  spill : Nat := 4096
  ovfEn : Nat := 0xC0
  bankEn : Nat := 0xFF
  /-- classes whose reservation a commit lowered below COMMITTED and that take nothing yet (R144) -/
  lowered : List Nat := []
  deriving DecidableEq, Repr

/-- SW and BUF. -/
structure SwSt where
  frames : Tab Stored := []
  nextId : Nat := 0
  /-- egress queues by 8 * endpoint + class, oldest first -/
  queues : Tab (List Nat) := []
  /-- deficit counters by 8 * endpoint + class (R149) -/
  deficit : Tab Nat := []
  /-- the class that the round-robin of an endpoint serves next -/
  turn : Tab Nat := []
  cfg : BufCfg := {}
  /-- cells charged to each admitted command and not yet released: (class, cells) by command key (R142) -/
  charged : Tab (Nat × Nat) := []
  /-- OVF_FULL has been posted and OVF_USE has not fallen below half since (R151) -/
  ovfPosted : Bool := false
  ovfNext : Nat := 0
  /-- a peer copy has been reported Not delivered, and PEERCTL has not acted on it yet (R14, R353) -/
  peerFail : Bool := false
  /-- the commands whose slipcast copy has been reported Not delivered, and that SLIP has not acted on yet (R14, R243) -/
  slipFail : List Nat := []
  /-- frames that internal endpoints hold while SW is not in Run, oldest first (R152) -/
  heldIn : List SwFrame := []
  deriving DecidableEq, Repr

/-! ### Mark -/

/-- A key slot (R158): state 0 Empty, 1 Ready, 2 Clearing. The model keeps the padded key that the two HMAC states stand for. -/
structure MarkSlot where
  st : Nat := 0
  alg512 : Bool := false
  key : List Byte := []
  /-- the MARK_KEY_CLEAR that runs -/
  clear : Option Nat := none
  deriving DecidableEq, Repr

/-- An open programmed-I/O message (R157). -/
structure MarkPio where
  alg512 : Bool
  hmac : Bool
  slot : Nat
  data : List Byte := []
  /-- PIO_LAST has been written -/
  ended : Bool := false
  /-- the digest lane that it has, if it does not wait for one (R155) -/
  lane : Option Nat := none
  deriving DecidableEq, Repr

/-- A MARK_DIGEST that waits for a lane (R155). -/
structure MarkJob where
  cseq : Nat
  flags : Nat
  slot : Nat
  src : Nat
  length : Nat
  result : Nat
  ecc : Bool
  deriving DecidableEq, Repr

/-- A Mark quadrant. -/
structure MarkQuad where
  /-- it holds a key-state copy -/
  copy : Bool := true
  /-- Ready slots that its copy lacks -/
  missing : List Nat := []
  /-- the copy of R159 runs -/
  refill : Bool := false
  pio : Option MarkPio := none
  /-- MARK_DIGEST commands that wait for a lane, oldest first -/
  jobs : List MarkJob := []
  deriving DecidableEq, Repr

/-- MARK. -/
structure MarkSt where
  slots : Tab MarkSlot := []
  quads : Tab MarkQuad := []
  /-- MARK_KEY_DERIVE and MARK_KEY_CLEAR that wait for a refill: (CSEQ, derive, slot, ALG, KEYS slot) -/
  waiting : List (Nat × Bool × Nat × Nat × Nat) := []
  deriving DecidableEq, Repr

/-! ### Grog -/

/-- A domain-table entry (R166): state 0 Unused, 1 Active, 2 Purging. -/
structure DomEnt where
  tenant : Nat := 0
  hotOnly : Bool := false
  verify : Bool := false
  st : Nat := 0
  /-- the GROG_DOMAIN_PURGE that runs -/
  purge : Option Nat := none
  deriving DecidableEq, Repr

/-- A way of a hot bucket (R174). -/
structure HotWay where
  tag : Nat := 0
  dom : Nat := 0
  cid : Nat := 0
  pend : Bool := false
  pin : Bool := false
  ref : Bool := false
  valid : Bool := false
  deriving DecidableEq, Repr

/-- An entry of a full-index page (R176). -/
structure FidxEnt where
  tag : Nat
  dom : Nat
  cid : Nat
  deriving DecidableEq, Repr

/-- A full-index page (R176). -/
structure FidxPage where
  depth : Nat := 0
  base : Nat := 0
  suffix : Nat := 0
  ents : List FidxEnt := []
  deriving DecidableEq, Repr

/-- An insert-log record (R177). -/
structure ILogRec where
  fp : List Byte
  cid : Nat
  dom : Nat
  createSeq : Nat
  /-- true for a remove -/
  remove : Bool := false
  /-- merged ahead of order under R175 -/
  merged : Bool := false
  deriving DecidableEq, Repr

/-- GROG. -/
structure GrogSt where
  doms : Tab DomEnt := []
  /-- by 4 * bucket + way -/
  hot : Tab HotWay := []
  hand : Tab Nat := []
  /-- full-index pages by page number n (R264) -/
  fidx : Tab FidxPage := []
  /-- the bucket directory: depth 0-10, or 15 Rebuilding -/
  dir : Tab Nat := []
  /-- base buckets whose pages are being split, until the new pages are on flash (R177) -/
  splitting : List Nat := []
  /-- unmerged records, oldest first, and records that wait for room in the log (R178) -/
  ilog : List ILogRec := []
  logWait : List ILogRec := []
  prod : Nat := 0
  merged : Nat := 0
  mergeSeq : Nat := 0
  /-- MERGE_SEQ of the last checkpoint record on flash -/
  ckptMerge : Nat := 0
  reconcile : Option Nat := none
  /-- the CREATE_SEQ up to which the running reconciliation has looked -/
  reconSeq : Nat := 0
  /-- GROG_INDEX_REBUILD commands that run: base bucket, CSEQ -/
  rebuild : Tab Nat := []
  indexFull : List Nat := []
  /-- records sent or to be sent to the peer's half of the index, and not yet seen in its pages (R346) -/
  fwd : List ILogRec := []
  /-- MERGE_SEQ stays at or below it: an insert above it was lost, and is not in the log again (R178, R184) -/
  mergeCap : Option Nat := none
  /-- the same for the inserts lost while a reconciliation runs -/
  capNext : Option Nat := none
  deriving DecidableEq, Repr

/-! ### Units on the ware lanes -/

/-- Where a written block stands (R160-R209). -/
inductive UnitPhase where
  | mark
  | lookup (noKey : Bool)
  /-- waits for the lookup that holds the way -/
  | pend (way : Nat)
  /-- waits for a way of its bucket -/
  | pinned
  | probe
  | confirm
  | verify
  | compress
  | check
  | encrypt
  | keyWait
  | place
  /-- placed in a row that is not parity-complete yet -/
  | placed
  /-- a dedup hit, or a unit on flash -/
  | done
  deriving DecidableEq, Repr

/-- A logical block of an admitted write on a ware lane, or in shelf mode on its way to the Saggar write port. -/
structure WareUnit where
  cmd : Nat
  lba : Nat
  quad : Nat
  /-- the 4,096 data bytes, in Saggar memory -/
  data : List Byte
  app : Nat
  dom : Nat
  tenant : Nat
  keySlot : Nat
  phase : UnitPhase := .mark
  /-- the digest lane that hashes it, if it does not wait for one, and whether its message holds the key slot (R155, R158) -/
  lane : Option Nat := none
  held : Bool := false
  fp : List Byte := []
  /-- the hot way that this lookup holds pending -/
  way : Option Nat := none
  /-- the domain's MODE and VERIFY when the lookup started (R168) -/
  hotOnly : Bool := false
  verify : Bool := false
  /-- candidates still to confirm: (CID, hot way or none, from the full index) -/
  cands : List (Nat × Option Nat × Bool) := []
  /-- hot matches found to be tag aliases: (CID, its CREATE_SEQ) -/
  tried : List (Nat × Nat) := []
  probed : Bool := false
  indexed : Bool := false
  hit : Bool := false
  cid : Nat := 0
  createSeq : Nat := 0
  /-- the compressed form, then the stored (encrypted) form, and the guard of the content-unit tag over it (R209) -/
  form : List Byte := []
  guard : Nat := 0
  stored : Bool := false
  tries : Nat := 0
  /-- the Wedge engine that holds it, if it does not wait for one, and the compressor that made its form (R194, R195) -/
  eng : Option Nat := none
  comp : Option Nat := none
  deriving DecidableEq, Repr

/-- Where a block of a read stands. -/
inductive ReadPhase where
  | fetch
  /-- uncorrectable, or on a member that is not read: PAR repairs it -/
  | repair
  | decrypt
  | keyWait
  | decode
  | done
  | failed (status : Nat)
  deriving DecidableEq, Repr

/-- A block that a read, compare, verify, byte-verify or slipcast needs from its stored form. -/
structure ReadUnit where
  /-- the command key, or for a byte-verify the ware unit -/
  cmd : Nat
  /-- position of the block in the transfer -/
  idx : Nat
  lba : Nat
  cid : Nat
  app : Nat
  quad : Nat
  phase : ReadPhase := .fetch
  form : List Byte := []
  data : List Byte := []
  /-- the block reads as zero with PI bytes 0xFF (deallocated, R220) -/
  ffPi : Bool := false
  /-- where it is read from, and its grains there, from its translation until its data is here (R286) -/
  loc : Nat := 0
  grains : Nat := 0
  /-- its READ operations on the links: (module, ADDR) -/
  ops : List (Nat × Nat) := []
  /-- codewords that a READ operation did not return: (position, codeword) -/
  erased : List (Nat × Nat) := []
  tries : Nat := 0
  /-- the decompressor that holds it, if it does not wait for one, and the one that failed it (R195) -/
  eng : Option Nat := none
  failed : Option Nat := none
  deriving DecidableEq, Repr

/-- A WEDGE_JOB that waits for an engine: its descriptor's address, and its compressor's encodings. -/
structure WedgeWait where
  cseq : Nat
  desc : Nat
  streams : List (List Byte)
  deriving DecidableEq, Repr

/-- A Wedge quadrant: the reads (true) and write-path units that wait for a decompressor, in order of arrival, and the jobs that wait
(R195). -/
structure WedgeQuad where
  queue : List (Bool × Nat) := []
  jobs : List WedgeWait := []
  deriving DecidableEq, Repr

/-- The ware lanes. -/
structure WareSt where
  units : Tab WareUnit := []
  nextUnit : Nat := 1
  reads : Tab ReadUnit := []
  nextRead : Nat := 1
  wedge : Tab WedgeQuad := []
  deriving DecidableEq, Repr

end Sys2Proof.Machine
end

