-- ==== Sys2Proof/Machine/TypesBack.lean ====
section
/-! DEFINITION. The back end as plain data: segments, blocks and placed units (FTL), Pug, stripe groups and members (PAR, RBLD),
Saggar memory and its dump (SAG), and the module links (MLINK) (R250-R342). -/

namespace Sys2Proof.Machine

/-- A unit as it lies in a segment (R254, R283): kind 0 a content unit (`ref` = CID), 1 a shelf block (`ref` = LBA, `app` = volume),
2 a map, directory or full-index page (`ref` = MPA), 3 a table page of a checkpoint, 4 a delta page, 5 a checkpoint's header. -/
structure Placed where
  kind : Nat
  row : Nat
  /-- first row grain -/
  grain : Nat
  grains : Nat
  ref : Nat
  app : Nat := 0
  /-- shelf mode: the CID given to the block -/
  cid : Nat := 0
  /-- a delta page: the last commit unit that it holds (R355) -/
  seq : Nat := 0
  /-- the stored form, and the 16-byte tag beside it (R283) -/
  form : List Byte := []
  tag : List Byte := []
  /-- a move has its source (segment, row, grain) -/
  src : Option (Nat × Nat × Nat) := none
  /-- a move whose destination has been read back (R285) -/
  verified : Bool := false
  /-- placed again elsewhere, or found lost: its grains are dead -/
  dead : Bool := false
  deriving DecidableEq, Repr

/-- A program of a row or wordline (R307): the member positions issued, done and failed. -/
structure Program where
  row : Nat
  rows : Nat
  issued : Nat := 0
  done : Nat := 0
  failed : Nat := 0
  logSeq : Nat := 0
  lastCommit : Nat := 0
  /-- its commit unit has waited for room in the delta ring (R305) -/
  ringWaits : Bool := false
  deriving DecidableEq, Repr

/-- The last window record of an open segment, its journal checkpoint (R310): the rows that it names, and its copies (module, b, page). -/
structure JWin where
  first : Nat
  rows : Nat
  copies : List (Nat × Nat × Nat) := []
  /-- how often the journal members have moved on in their rotation (R311) -/
  turn : Nat := 0
  deriving DecidableEq, Repr

/-- A segment-table entry (R257, R258): state 0 Free, 1 Open, 2 Closed, 3 Reclaiming, 4 Released, 5 Erasing. -/
structure Segment where
  st : Nat := 0
  native : Bool := false
  aligned : Bool := false
  stream : Nat := 0
  group : Nat := 0
  refresh : Bool := false
  badMember : Bool := false
  earlyClose : Bool := false
  rows : Nat := 0
  valid : Nat := 0
  meanErase : Nat := 0
  lastWrite : Nat := 0
  releaseSeq : Nat := 0
  /-- member and b of each of its blocks, in module order -/
  blocks : List (Nat × Nat) := []
  units : List Placed := []
  /-- the payloads of P and Q (R300), by 8 * row + 2 * codeword, and 1 more for Q -/
  parity : Tab (List Byte) := []
  /-- the row being filled, its grains used, when its first grain was placed, and whether a Medium command waits for it -/
  row : Nat := 0
  used : Nat := 0
  rowFrom : Nat := 0
  medium : Bool := false
  /-- programs issued and not complete: the in-use entries of the Saggar log (R307) -/
  progs : List Program := []
  /-- its last journal window (R310) -/
  jwin : Option JWin := none
  /-- members whose erase failed -/
  eraseFailed : List Nat := []
  /-- grains that Pug or rebuild moved out of it -/
  moved : Nat := 0
  /-- when it was Released, and the COMMIT_SEQ of the unit that moved it to Erasing -/
  releasedAt : Nat := 0
  eraseSeq : Nat := 0
  /-- codeword positions found lost: (row, member, codeword) -/
  lost : List (Nat × Nat × Nat) := []
  /-- codewords of a victim whose tags are lost, and whose scan has not ended: (row, member position, codeword) -/
  unparsed : List (Nat × Nat × Nat) := []
  deriving DecidableEq, Repr

/-- A block-table entry (R257): state 0 Free, 1 Used, 2 Retired, 3 Factory bad, 4 Anchor. -/
structure Block where
  segment : Nat := 0xFFFFFFFF
  st : Nat := 0
  retry : Nat := 0
  erases : Nat := 0
  /-- refresh count (R274), and the cause of its retirement at the next erase: 0 none, 1 program, 4 FTL_RETIRE -/
  refreshes : Nat := 0
  retire : Nat := 0
  warned : Bool := false
  deriving DecidableEq, Repr

/-- A stripe group (R296, R298): PUG's and FTL's per-group state beside it. -/
structure Group where
  exists_ : Bool := false
  members : Nat := 0
  dedicated : Bool := false
  spare : Nat := 0
  spares : List Nat := []
  st : Nat := 0
  /-- the mode that its checkpoint names differs from the mode in force (R438): 0 array, 1 shelf -/
  foreign : Option Nat := none
  /-- erases since e_mean was computed, and e_mean -/
  eraseCnt : Nat := 0
  eMean : Nat := 0
  pslcOver : Bool := false
  lowPosted : Bool := false
  noSpare : Bool := false
  /-- Pug: pressure level, hold, and segments given by PUG_RECLAIM -/
  level : Nat := 0
  hold : Bool := false
  reclaim : List Nat := []
  /-- segments being moved by Pug, and by rebuild -/
  victims : List Nat := []
  rebuilding : Option Nat := none
  deriving DecidableEq, Repr

/-- A member (R297): state 0 Unassigned, 1 Online, 2 Offline, 3 Failed, 4 Spare, 5 Vacated. -/
structure Member where
  st : Nat := 0
  group : Nat := 0
  worn : Bool := false
  /-- when it went Offline, and the RBLD_OFFLINE that waits -/
  offlineAt : Nat := 0
  offCmd : Option Nat := none
  deriving DecidableEq, Repr

/-- An entry of the media-loss log (R275). -/
structure MediaLoss where
  cls : Nat
  cause : Nat
  vol : Nat
  id : Nat
  deriving DecidableEq, Repr

/-- An entry of the Saggar log that is in use: its segment and program, and the units placed again that it waits for (R307, R308). -/
structure LogHeld where
  seg : Nat
  prog : Program
  waits : List Placed := []
  deriving DecidableEq, Repr

/-- A dump on flash (R312-R314): set, identifier, mode and what it holds. -/
structure Dump where
  id : Nat := 0
  set : Nat := 0
  final : Bool := false
  shelf : Bool := false
  ckptSeq : Nat := 0
  lastComplete : Nat := 0
  released : Bool := false
  /-- bytes written, and the maps as the last commit unit it holds left them -/
  bytes : Nat := 0
  image : Option LmapSt := none
  /-- the units in flight of its commit units, with their data -/
  units : Tab WareUnit := []
  /-- the entries of this head's Saggar log that are in use; and, where the peer link was down, the peer's records that it mirrors -/
  log : List LogHeld := []
  mirror : List Byte := []
  deriving DecidableEq, Repr

/-- What the anchors and the checkpoint chain of the stripe groups of one mode hold (R268, R438). -/
structure FlashMaps where
  shelf : Bool := false
  ckptSeq : Nat := 0
  deltaDone : Nat := 0
  image : LmapSt := {}
  pageLoc : Tab Nat := []
  ckptLoc : Nat := 0
  ckptCount : Nat := 0
  ckptSegs : List Nat := []
  /-- the media-loss log that the checkpoint carries: its entries by SEQ, and MLOG_CONS (R276) -/
  mlog : List (Nat × List Byte) := []
  mlogCons : Nat := 0
  deriving DecidableEq, Repr

/-- A checkpoint that is being written (R267): the CKPT_SEQ that it will have, the CSEQ of its FTL_CKPT, whether it holds every table page, the
table pages still to be placed, those placed with their LOCs, whether its header is placed, the header's LOC once that is on flash, and the
anchor page that is being programmed: (module, page). -/
structure Ckpt where
  seq : Nat
  cmd : Option Nat := none
  full : Bool := false
  todo : List Nat := []
  pages : List (Nat × Nat) := []
  headed : Bool := false
  header : Option Nat := none
  anchor : Option (Nat × Nat) := none
  deriving DecidableEq, Repr

/-- A member's anchor block (R268): the pages programmed in it, and what the newest header named there holds. -/
structure Anchor where
  page : Nat := 0
  newest : Option FlashMaps := none
  deriving DecidableEq, Repr

/-- FTL, PUG, PAR, SAG and RBLD. -/
structure BackSt where
  segs : Tab Segment := []
  /-- by 2^21 * module + b -/
  blocks : Tab Block := []
  groups : Tab Group := []
  mems : Tab Member := []
  /-- locations of map, directory and full-index pages on flash, by MPA -/
  pageLoc : Tab Nat := []
  /-- configuration in force: OPEN_MAX of the streams, P_MIN, P_MAX, directory limits -/
  openMax : List Nat := [32, 16, 4, 16, 8, 16]
  pMin : Nat := 50
  pMax : Nat := 800
  mpdLimit : List Nat := [16777216, 33554432]
  /-- the checkpoint being written -/
  ckpt : Option Ckpt := none
  /-- the 4 KiB table pages that hold something, by 2^40 * table + page: whether each has changed since the last checkpoint. The tables are
  0 the root arrays, 1 the block table, 2 the segment table, 3 the media-loss log -/
  ckptPages : Tab Bool := []
  /-- the anchors by module, and the module of the one written last -/
  anchors : Tab Anchor := []
  anchorLast : Nat := 23
  /-- entries of the media-loss log that the ring holds, by SEQ, and the highest SEQ ever given -/
  mlog : List (Nat × List Byte) := []
  mlogTop : Nat := 0
  mlogCons : Nat := 0
  /-- entries of the Saggar log whose programs have ended, and which are still in use (R308) -/
  logHeld : List LogHeld := []
  /-- the journal block of each member: b, and its next page (R310) -/
  jblocks : Tab (Nat × Nat) := []
  ckptAsked : Bool := false
  /-- LOC of the newest checkpoint header -/
  ckptLoc : Nat := 0
  /-- the highest commit unit that a delta page on flash holds (R355) -/
  deltaDone : Nat := 0
  ckptCount : Nat := 0
  /-- stream-2 segments that hold pages of the newest full checkpoint or later -/
  ckptSegs : List Nat := []
  mlogFull : Bool := false
  logSeq : Nat := 0
  /-- PUG.RECLAIM_CREDIT -/
  credit : Nat := 0
  /-- PUG_RECLAIM commands that run: the segment, by CSEQ -/
  reclaimCmds : Tab Nat := []
  /-- Saggar configuration in force -/
  sizeMib : Nat := 16384
  dataMib : Nat := 12288
  deltaMib : Nat := 1024
  /-- records of this head's delta ring not yet covered by CKPT_SEQ: (COMMIT_SEQ, bytes) -/
  ring : List (Nat × Nat) := []
  /-- bytes written to the ring so far -/
  ringPos : Nat := 0
  /-- the maps as each commit unit above CKPT_SEQ left them, after the ones that CKPT_SEQ covers: (COMMIT_SEQ, maps) -/
  hist : List (Nat × LmapSt) := []
  deltaFull : Bool := false
  /-- a dump is being written: its set -/
  dumping : Option Nat := none
  dumps : List Dump := []
  /-- the SAG_REPLAY that runs -/
  replay : Option Nat := none
  /-- CKPT_SEQ of the newest checkpoint on flash -/
  ckptSeq : Nat := 0
  /-- what flash holds for the mode that is not in force, by that mode (0 array, 1 shelf) -/
  stash : Tab FlashMaps := []
  /-- FTL and SAG have not entered Run since the last reset -/
  ftlFresh : Bool := true
  sagFresh : Bool := true
  deriving DecidableEq, Repr

/-- An operation outstanding on a module link (R332, R335): opcode, ADDR, and what issued it. -/
structure LinkOp where
  opcode : Nat
  addr : Nat
  bufs : Nat := 0
  /-- MLINK command that completes with it -/
  cmd : Option Nat := none
  got : List Byte := []
  /-- FW_DIGEST: the HBM address of the result; under UPD, `got` holds the digest that it must be. FW_WRITE: the offset of the bytes
  still to be sent, which `got` holds. FW_ACTIVATE: 1 once the bridge has taken it, until the IDENTIFY of R341 -/
  arg : Nat := 0
  deriving DecidableEq, Repr

/-- A module link (R325-R340): state 0 Down, 1 Detect, 2 Align, 3 Config, 4 Up. -/
structure Link where
  st : Nat := 0
  width : Nat := 0
  /-- it has been Up, and the BOOT_ID then (R329) -/
  bootId : Option Nat := none
  /-- MODULE_ARRIVED is to be posted after the next IDENTIFY (R338) -/
  arrived : Bool := false
  owner : Nat := 0
  trial : Bool := false
  resvGen : Nat := 0
  serial : Nat := 0
  dieType : Nat := 0
  channels : Nat := 0
  diesPerCh : Nat := 0
  dieMap : Nat := 0
  opCredits : Nat := 0
  bufCredits : Nat := 0
  ops : Tab LinkOp := []
  nextTag : Nat := 0
  /-- flits sent and not acknowledged: (SEQ, payload), and how often the oldest has been replayed -/
  unacked : List (Nat × List Byte) := []
  replays : Nat := 0
  txSeq : Nat := 0
  rxSeq : Nat := 0
  /-- bytes of the packet stream not yet formed into packets -/
  stream : List Byte := []
  /-- RESERVATION_LOST or NOT_OWNER on a write-type operation stopped programs and erases (R336) -/
  stopped : Bool := false
  /-- operations that wait for a credit, with the data that follows the OP, oldest first -/
  waitOps : List (LinkOp × List Byte) := []
  /-- flit payloads that wait for room among the 128 unacknowledged flits -/
  txWait : List (List Byte) := []
  /-- how the last operation of UPD's handling of the bridges ended on this link -/
  jobRes : Option Nat := none
  deriving DecidableEq, Repr

end Sys2Proof.Machine
end

