-- ==== Sys2Proof/Machine/TypesFront.lean ====
section
/-! DEFINITION. The front end, tenancy and the peer head as plain data: NVF, NVTCP, QOS, TALLY and PEERCTL (R111-R131,
R343-R365, R383-R396). -/

namespace Sys2Proof.Machine

/-- A namespace entry (R129). -/
structure NsEnt where
  vol : Nat := 0
  tenant : Nat := 0
  attached : Bool := false
  /-- LBAF1 -/
  format : Bool := false
  piEn : Bool := false
  wprot : Bool := false
  fuaMedium : Bool := false
  /-- bits [1:0] of DP: 0 Mirrored; any other value is Medium -/
  dpCfg : Nat := 0
  dpEff : Nat := 0
  ana : Nat := 0
  anaGrp : Nat := 0
  /-- the entry met an uncorrectable error and NS_SET has not rewritten it -/
  bad : Bool := false
  deriving DecidableEq, Repr

/-- Where a command stands (R118-R131). -/
inductive CmdPhase where
  /-- in its class's admission queue -/
  | waiting
  /-- on the QOS hold list -/
  | held
  | admitted
  /-- waits to be posted to the hand-off queue -/
  | toSoftware
  | software
  /-- ended at the host (its completion is sent), while its effects or its space are still held -/
  | ended
  deriving DecidableEq, Repr

/-- A command that the front end holds. -/
structure NvCmd where
  ctx : Nat := 0
  cid : Nat := 0
  /-- the association, or the NVMe/TCP connection -/
  assoc : Nat := 0
  tcp : Bool := false
  connect : Bool := false
  tenant : Nat := 0
  cls : Nat := 0
  admin : Bool := false
  /-- the 64-byte submission queue entry -/
  sqe : List Byte := []
  /-- where the copy of its in-capsule data lies for the controlling software (R130) -/
  copyAt : Option Nat := none
  /-- in-capsule data, then the whole host data once it has arrived -/
  host : List Byte := []
  arrive : Nat := 0
  phase : CmdPhase := .waiting
  /-- the reason for the controlling software (R129) -/
  reason : Nat := 0
  vol : Nat := 0
  format : Bool := false
  /-- the epoch in which it was admitted (R227), and its place in admission order (R16) -/
  epoch : Nat := 0
  order : Nat := 0
  /-- staging units, overlap entries and reserved grains held -/
  stage : Nat := 0
  ovl : Nat := 0
  rsv : Nat := 0
  /-- block ranges (first, count) -/
  ranges : List (Nat × Nat) := []
  /-- 0 nothing asked, 1 the transfer runs, 2 the data is here, 3 the blocks are on their way -/
  xfer : Nat := 0
  /-- results of the destinations: local, peer, slipcast; none while open -/
  wantP : Bool := false
  wantS : Bool := false
  resL : Option Bool := none
  resP : Option Bool := none
  resS : Option Bool := none
  repSeq : Option Nat := none
  /-- how many REP_SEQs it has: the last is `repSeq` -/
  repCount : Nat := 0
  /-- one of its records has been sent (R245) -/
  shipped : Bool := false
  /-- SLIP's own apply write: the target volume -/
  apply : Option Nat := none
  /-- it completes at Medium -/
  medium : Bool := false
  /-- entries to commit: (LBA, CID, application tag) -/
  changes : List (Nat × Nat × Nat) := []
  /-- CIDs this command allocated, and those its dedup hits reference -/
  made : List Nat := []
  hits : List Nat := []
  /-- blocks not yet resolved on the ware lanes -/
  blocksLeft : Nat := 0
  committed : Bool := false
  /-- the commit unit of its changes -/
  commitSeq : Nat := 0
  /-- its tokens are taken (R386) -/
  paid : Bool := false
  /-- it has been counted in CREDIT_WAIT -/
  credWait : Bool := false
  /-- the 4 KiB units of the pool that it holds: (first unit, units) -/
  stageAt : List (Nat × Nat) := []
  /-- its ware lane, chosen at admission (R148) -/
  lane : Option Nat := none
  /-- the status it ended with, SCT and SC -/
  status : Nat := 0
  /-- it has lacked reclaim credit (R293), and its commit unit has waited for room in the delta ring (R305) -/
  paced : Bool := false
  ringWaits : Bool := false
  deriving DecidableEq, Repr

/-- NVF. -/
structure NvfSt where
  /-- by 65,536 * context + CID; Connects by 2^36 + 65,536 * association + CID; NVMe/TCP commands by their context -/
  cmds : Tab NvCmd := []
  /-- admission queues by class, head first -/
  queues : Tab (List Nat) := []
  /-- the hold list, oldest first -/
  held : List Nat := []
  waitWrite : Option Nat := none
  /-- admitted bytes of the Urgent window: (time, Urgent, bytes), newest first -/
  window : List (Nat × Bool × Nat) := []
  deficit : Tab Nat := []
  turn : Nat := 1
  ns : Tab NsEnt := []
  /-- the staging pool in force, in MiB -/
  poolMib : Nat := 12288
  order : Nat := 0
  deriving DecidableEq, Repr

/-- An NVMe/TCP connection (R116, R117). -/
structure Conn where
  isOpen : Bool := false
  port : Nat := 0
  remoteIp : List Byte := []
  localIp : List Byte := []
  remotePort : Nat := 0
  rcvNxt : Nat := 0
  sndNxt : Nat := 0
  sndUna : Nat := 0
  /-- segments out of order: (sequence, bytes), at most 16 -/
  ooo : List (Nat × List Byte) := []
  /-- sent bytes not yet acknowledged -/
  unacked : List Byte := []
  /-- stream bytes received and not yet read as PDUs -/
  stream : List Byte := []
  icDone : Bool := false
  hdgst : Bool := false
  ddgst : Bool := false
  hpda : Nat := 0
  maxR2t : Nat := 1
  expiries : Nat := 0
  /-- the host sends timestamps, and its TSval to be echoed -/
  ts : Option Nat := none
  /-- the smoothed round trip in microseconds, its variance, and whether a sample has been taken -/
  srtt : Nat := 0
  rttvar : Nat := 0
  hasRtt : Bool := false
  /-- the ECN echo: the peer's CE not yet answered by CWR -/
  ece : Bool := false
  cwnd : Nat := 0
  /-- the SYN asked for ECN, and permitted SACK (R116) -/
  ecn : Bool := false
  sackOk : Bool := false
  /-- the host's MSS, its window scale when it sent one, and the window it has announced -/
  hostMss : Nat := 536
  scale : Option Nat := none
  sndWnd : Nat := 65535
  /-- acknowledgements in a row that moved nothing, and the ranges that the host has announced by SACK -/
  dupAcks : Nat := 0
  sacked : List (Nat × Nat) := []
  /-- cells of Reads that leave with the stream: the key that holds the charge, and the sequence number after their data (R142) -/
  cells : List (Nat × Nat) := []
  /-- SND.NXT at the last halving, and CWR still to be sent (RFC 3168) -/
  cutNxt : Nat := 0
  cwr : Bool := false
  /-- transfers: (command identifier, transfer tag, bytes asked, bytes received) -/
  xfers : List (Nat × Nat × Nat × Nat) := []
  nextTag : Nat := 0
  /-- reading of the receive stream has stopped (R117, R471) -/
  stopped : Bool := false
  deriving DecidableEq, Repr

/-- A limit-table entry (R384, R385); the levels carry their remainders below one unit, in billionths of a unit. -/
structure Limit where
  iopsRate : Nat := 0
  iopsBurst : Nat := 0
  bwRate : Nat := 0
  bwBurst : Nat := 0
  ops : Int := 0
  bw : Int := 0
  opsRem : Nat := 0
  bwRem : Nat := 0
  refill : Nat := 0
  meter : Bool := false
  /-- METER from the next minute close on (R395) -/
  meterNext : Bool := false
  deriving DecidableEq, Repr

/-- A tenant's counts of the open minute (R388). -/
structure TallyCnt where
  readOps : Nat := 0
  writeOps : Nat := 0
  otherOps : Nat := 0
  heldOps : Nat := 0
  readBlocks : Nat := 0
  writeBlocks : Nat := 0
  deriving DecidableEq, Repr

/-- A set-table entry (R389, R392) and what TALLY keeps beside it. -/
structure TallySet where
  prod : Nat := 0
  lost : Nat := 0
  /-- START of the next record -/
  start : Bool := true
  /-- the run of overwrites in progress -/
  overrun : Bool := false
  /-- a record that could not be written, which is written again at the next close (R396); empty for none -/
  retry : List Byte := []
  deriving DecidableEq, Repr

/-- QOS and TALLY. -/
structure TenSt where
  limits : Tab Limit := []
  counts : Tab TallyCnt := []
  sets : Tab TallySet := []
  /-- the open minute, and whether TALLY has opened one since the start -/
  minute : Nat := 0
  opened : Bool := false
  deriving DecidableEq, Repr

/-- Peer state (R349) is kept in PEERCTL.STATE; this is what the rules keep beside it. -/
structure PeerSt where
  assoc : Nat := 0
  /-- handles of the peer's DATA, RING, LOG, CTRL and INBOX -/
  handles : List Nat := []
  pairCmd : Option Nat := none
  resyncCmd : Option Nat := none
  takeover : Option Nat := none
  /-- a handover in progress: CSEQ, group, index halves -/
  handover : Option (Nat × Nat × Nat) := none
  /-- how far it is: 0 waits for the group's commands, 1 writes the checkpoint, 2 HANDOVER is sent -/
  handoverStep : Nat := 0
  /-- message numbers: last sent, last handled, and the peer's MSG_CONS -/
  msgSent : Nat := 0
  msgRecv : Nat := 0
  msgCons : Nat := 0
  batchSent : Nat := 0
  batchRecv : Nat := 0
  inboxCons : Nat := 0
  /-- the peer's candidate and this head's own (R358) -/
  peerArb : Nat := 0xFF
  candidate : Nat := 0xFF
  /-- the peer's mirror treated as Broken at its next HEARTBEAT (R365) -/
  ringGap : Bool := false
  /-- the COMMIT_SEQ that the next unit of a whole mirror has -/
  ringNext : Nat := 0
  inboundHealthy : Bool := false
  /-- staging runs this head does not hold (R352) -/
  runsPeer : List Nat := []
  runReq : Bool := false
  /-- home groups by tenant; 0xFF none -/
  home : Tab Nat := []
  /-- groups that hold the CID runs and the tree runs (R345) -/
  cidRuns : Tab Nat := []
  treeRuns : Tab Nat := []
  /-- index records waiting for the peer's half (R346) -/
  outbox : List (List Byte) := []
  /-- mirror of the peer's commit units: (COMMIT_SEQ, complete records) -/
  ring : Tab (List Byte) := []
  /-- staging offsets of the peer that a CANCEL has marked not live: (offset, bytes) -/
  cancelled : List (Nat × Nat) := []
  /-- mirror WRITEs out: (reference, command key) -/
  writes : List (Nat × Nat) := []
  nextRef : Nat := 1
  /-- the mirror write of RESYNC_DONE, and of HANDOVER -/
  resyncRef : Option Nat := none
  fenced : Bool := false
  /-- groups whose namespaces read Change: a takeover or handover runs -/
  changing : List Nat := []
  /-- a control message or a batch that could not be sent yet: (type, ARGS) -/
  waiting : List (Nat × List Byte) := []
  deriving DecidableEq, Repr

end Sys2Proof.Machine
end

