-- ==== Sys2Proof/Machine/TypesMem.lean ====
section
/-! DEFINITION. In-package memory and the system cache as plain data (R366-R381). -/

namespace Sys2Proof.Machine

/-- HBM.STAT.SR_STATE (R371). -/
inductive SrState where
  | active | entering | selfRefresh | exiting
  deriving DecidableEq, Repr

/-- One HBM stack (R371). -/
structure Stack where
  sr : SrState := .active
  /-- SELF_REFRESH was written 0 during Entering: exit starts as soon as entry completes -/
  exitNext : Bool := false
  trained : Bool := false
  deriving DecidableEq, Repr

/-- The state of a way of one set (R374); Invalid is an unlisted line. -/
inductive LinePhase where
  | invalid | valid | filling | departing
  deriving DecidableEq, Repr

/-- A request waiting for a line: the address and length of a read, and whether it waits on the departing tag. -/
structure LineWait where
  addr : Nat
  len : Nat
  core : Bool
  old : Bool
  deriving DecidableEq, Repr

/-- A way of one set of one slice (R374). `tag` is the new tag while a fill runs, and `oldTag` the departing one. -/
structure Line where
  phase : LinePhase := .invalid
  tag : Nat := 0
  oldTag : Nat := 0
  /-- valid bits of the four sectors -/
  valid : Nat := 0
  /-- the sectors that the fill in progress fetches -/
  fill : Nat := 0
  /-- the bytes of the sectors, by their offset in the line -/
  data : Tab Byte := []
  /-- a range invalidation covered the new tag during the fill -/
  inval : Bool := false
  waits : List LineWait := []
  deriving DecidableEq, Repr

/-- The power state of a way (R380). -/
inductive WayState where
  | powered | draining | off | poweringUp
  deriving DecidableEq, Repr

/-- A merging-buffer entry (R375): a 64-byte sector with a byte mask and the way whose line it updated. -/
structure MbEntry where
  sector : Nat
  mask : Nat
  data : Tab Byte
  way : Option Nat
  deriving DecidableEq, Repr

/-- A command of SYSC that waits its turn or runs (R381): its CSEQ and opcode, its arguments, and for SYSC_ZERO the next line
to zero and the sectors whose zero entries are still in the merging buffer. -/
structure SyscJob where
  cseq : Nat
  opcode : Nat
  way : Nat := 0
  addr : Nat
  length : Nat
  result : Nat := 0
  started : Bool := false
  left : List Nat := []
  deriving DecidableEq, Repr

/-- An access that waits: for a stack that leaves self-refresh (R371), or for a free entry of the merging buffer (R375). -/
structure HeldAccess where
  addr : Nat
  len : Nat
  data : Option (List Byte)
  core : Bool
  deriving DecidableEq, Repr

/-- HBM, the system cache and its merging buffer. -/
structure MemSt where
  /-- the bytes that HBM holds; an unlisted address reads 0 -/
  cells : List Host.Cell := []
  /-- the 64-byte sectors (address / 64) that are uncorrectable (R368), rising -/
  bad : List Nat := []
  /-- the sectors that hold a correctable error (R368), rising -/
  soft : List Nat := []
  hbmStacks : Tab Stack := []
  /-- keyed by 24,576 * way + 8,192 * slice + set -/
  lines : Tab Line := []
  /-- oldest first -/
  mb : List MbEntry := []
  ways : Tab WayState := []
  /-- the ways of each set, least recently used first, where it is not 0 .. 15 in order -/
  lru : Tab (List Nat) := []
  /-- SYSC's commands, one at a time, the running one first -/
  jobs : List SyscJob := []
  /-- accesses that wait, oldest first -/
  held : List HeldAccess := []
  deriving DecidableEq, Repr

end Sys2Proof.Machine
end

