-- ==== Sys2Proof/Machine/TypesNet.lean ====
section
/-! DEFINITION. The transport's state as plain data: LDT associations, the context cache, regions and their queues
(R67-R110, R469, R470). -/

namespace Sys2Proof.Machine

/-- The state of an association (R79). -/
inductive AssocState where
  | free | isOpen | closing | failed
  deriving DecidableEq, Repr

/-- What a packet to be sent carries after its LDT header: the type, the flags, the operation header's fields (R74) and
the source of its payload: an HBM address, or bytes held on die. -/
structure TxPkt where
  type : Nat
  first : Bool := false
  last : Bool := false
  ackReq : Bool := false
  msgId : Nat := 0
  msgLen : Nat := 0
  msgOff : Nat := 0
  target : Nat := 0
  addr : Nat := 0
  imm : Nat := 0
  /-- the HBM address of the payload, when it is not held in `bytes` -/
  src : Option Nat := none
  len : Nat := 0
  bytes : List Byte := []
  /-- the switch class of its frames (R140) -/
  cls : Nat := 7
  deriving DecidableEq, Repr

/-- A packet of the retention list (R84): its PSN, the path of its latest transmission, the packet, whether it is
acknowledged by SACK, and what the loss rule counts (R88). -/
structure Sent where
  psn : Nat
  path : Nat
  pkt : TxPkt
  /-- the order of its latest transmission among the association's transmissions -/
  order : Nat
  sacked : Bool := false
  /-- packets sent later on the same path that have been acknowledged (R88) -/
  dups : Nat := 0
  /-- declared lost and waiting to be resent (R88) -/
  lost : Bool := false
  deriving DecidableEq, Repr

/-- The kind of a local operation: which block started it and what completes it. -/
structure InitOp where
  kind : Nat
  msgLen : Nat
  /-- the block page that started it, and that block's own reference -/
  user : Nat := 0
  ref : Nat := 0
  /-- the PSN of its last packet, once sent -/
  lastPsn : Option Nat := none
  /-- READ_REQ: the HBM address of the destination buffer -/
  dst : Nat := 0
  /-- READ_REQ: the ranges received, as (offset, length, PSN) -/
  got : List (Nat × Nat × Nat) := []
  /-- READ_REQ of the front end: the bytes received, by offset; they go to Saggar memory -/
  data : Tab Byte := []
  deriving DecidableEq, Repr

/-- The end of a local operation, as the block that started it finds it: its page, its reference, the status, the INFO of a NAK,
and the data that a READ_REQ of the front end brought. -/
structure OpEnd where
  user : Nat
  ref : Nat
  status : Nat
  info : Nat := 0
  data : List Byte := []
  deriving DecidableEq, Repr

/-- An operation that targets this head, from its first accepted packet (R85, R99, R102). -/
structure TgtOp where
  kind : Nat
  target : Nat
  msgLen : Nat
  addr : Nat := 0
  imm : Nat := 0
  /-- refused with a NAK: its further packets are accepted and dropped (R76) -/
  refused : Bool := false
  /-- it holds a region (R101) -/
  holds : Option Nat := none
  /-- the HBM address of byte 0 -/
  base : Nat := 0
  /-- the notification queue with a reserved entry, or 0x40 / 0x41 -/
  nq : Option Nat := none
  /-- the ranges received, as (offset, length, PSN) -/
  got : List (Nat × Nat × Nat) := []
  lastPsn : Option Nat := none
  /-- the payload of a CAPSULE, by offset -/
  data : Tab Byte := []
  /-- READ_REQ: the PSN of the request, and the PSN of its last response once queued -/
  reqPsn : Nat := 0
  respMsg : Bool := false
  deriving DecidableEq, Repr

/-- One association: the 64 bytes of reliability state (R78), the address entry, and the state that the rules imply. -/
structure Assoc where
  state : AssocState := .free
  txPhase : Bool := false
  rxNextArmed : Bool := false
  port : Nat := 0
  peerAssoc : Nat := 0
  pathMask : Nat := 0
  srtt : Nat := 0
  txNext : Nat := 0
  txUna : Nat := 0
  rxCum : Nat := 0
  rate : Nat := 0
  rateTarget : Nat := 0
  alpha : Nat := 0
  cleanCount : Nat := 0
  lossCut : Bool := false
  rtoCount : Nat := 0
  rxBitmap : Nat := 0
  txPktNum : Nat := 0
  strikes : Nat := 0
  rttvar : Nat := 0
  intervalEnd : Nat := 0
  deriving DecidableEq, Repr

/-- What the rules imply beside R78's 64 bytes. -/
structure AssocX where
  /-- the 64-byte address entry (R78), as the descriptor's bytes -/
  addrEntry : List Byte := []
  /-- an RTT sample has been taken since ASSOC_OPEN (R87) -/
  hasRtt : Bool := false
  /-- how often the current RTO has been doubled (R89) -/
  rtoShift : Nat := 0
  /-- the path that the next packet of the rotation tries first (R69) -/
  nextPath : Nat := 0
  /-- the KEY_PHASE of the key slot's current half, and whether a packet of the next phase has arrived (R83) -/
  curPhase : Bool := false
  rxSwitched : Bool := false
  /-- transmission has switched in the switch in progress -/
  txSwitched : Bool := false
  /-- REKEY_DUE has been posted in this phase (R81) -/
  rekeyPosted : Bool := false
  /-- packets accepted since the last ACK (R86) -/
  ackPend : Nat := 0
  /-- TX_TS and path of the most recently accepted packet -/
  lastTs : Nat := 0
  lastPath : Nat := 0
  /-- CE_COUNT and RX_COUNT of the next ACK (R75) -/
  ceCnt : Nat := 0
  rxCnt : Nat := 0
  /-- sums of the rate interval (R93), and whether an ACK arrived in it -/
  sumCe : Nat := 0
  sumRx : Nat := 0
  ackSeen : Bool := false
  /-- transmissions so far, which orders them -/
  sends : Nat := 0
  /-- retention list, in PSN order (R84) -/
  sent : List Sent := []
  /-- new packets that wait to be sent, oldest first -/
  txq : List TxPkt := []
  nextMsg : Nat := 0
  /-- operations this end initiated, by MSG_ID -/
  initOps : Tab InitOp := []
  /-- operations that target this end, by MSG_ID -/
  tgtOps : Tab TgtOp := []
  closeSent : Option Nat := none
  /-- the PSN of an accepted CLOSE not yet taken -/
  closeRcvd : Option Nat := none
  /-- CSEQs of the ASSOC_CLOSE commands that wait -/
  closeCmds : List Nat := []
  /-- paths removed from the mask (R90) -/
  removed : Nat := 0
  /-- counters of the selected-association registers -/
  malformed : Nat := 0
  tagFail : Nat := 0
  retx : Nat := 0
  ce : Nat := 0
  deriving DecidableEq, Repr

/-- A local operation that its block holds until LDT is in Run (R469): the association, the packet's fields, the source of its bytes,
and the block's page, reference and buffer. -/
structure HeldOp where
  assoc : Nat
  pkt : TxPkt
  src : Option Nat
  bytes : List Byte
  user : Nat
  ref : Nat
  dst : Nat
  deriving DecidableEq, Repr

/-- An LDT datagram in its port's holding buffer, until its tag has been checked (R82): the port, the frame, its UDP payload, and its
ECN field. -/
structure HeldPkt where
  port : Nat
  frame : List Byte
  body : List Byte
  ecn : Nat
  deriving DecidableEq, Repr

/-- LDT's state. -/
structure LdtSt where
  assoc : Tab Assoc := []
  ext : Tab AssocX := []
  /-- LDT datagrams in the ports' holding buffers, oldest first (R82) -/
  holding : List HeldPkt := []
  /-- ends of operations that the blocks which started them have not taken yet, oldest first -/
  ended : List OpEnd := []
  /-- new local operations that their blocks hold while LDT is not in Run, oldest first (R469) -/
  heldOps : List HeldOp := []
  /-- packets stored in the handshake ring and not read: HS_PROD = HS_CONS with 256 of them is a full ring (R77) -/
  hsCount : Nat := 0
  deriving DecidableEq, Repr

/-- A queue context (R95): the fields of its 384 bytes, and where it is. -/
structure QCtx where
  valid : Bool := false
  assoc : Nat := 0
  tenant : Nat := 0
  qid : Nat := 0
  cls : Nat := 0
  admin : Bool := false
  pinned : Bool := false
  tcp : Bool := false
  cntlid : Nat := 0
  /-- queue size, 0's-based -/
  size : Nat := 0
  /-- QUEUE_STATE: SQ head, and the command identifiers that hold a submission slot -/
  sqhd : Nat := 0
  inSlots : Nat := 0
  /-- the host disabled SQ flow control at Connect (R114) -/
  noFlow : Bool := false
  /-- bytes 0xC0-0x17F, for the controlling software -/
  firmware : List Byte := []
  /-- QUEUE_DELETE runs for it: its CSEQ -/
  deleting : Option Nat := none
  deriving DecidableEq, Repr

/-- A packet in the context-miss queue (R96): the association and operation whose capsule waits. -/
structure MissPkt where
  assoc : Nat
  msgId : Nat
  psn : Nat
  /-- the whole capsule, with the packet that completed it -/
  capsule : Option (List Byte) := none
  /-- a PDU of the NVMe/TCP connection `assoc`, which stays in its stream -/
  tcp : Bool := false
  deriving DecidableEq, Repr

/-- CTX's state (R95-R97). -/
structure CtxSt where
  ctxs : Tab QCtx := []
  /-- resident contexts, in the order of the clock hand -/
  resident : List Nat := []
  /-- reference bits of the clock algorithm -/
  refbits : List Nat := []
  /-- contexts with a fetch in progress, and their waiting packets in arrival order -/
  missq : Tab (List MissPkt) := []
  deriving DecidableEq, Repr

/-- The state of a region (R100). -/
inductive RegionState where
  | free | valid | revoking
  deriving DecidableEq, Repr

/-- A region-table entry (R100). -/
structure Region where
  base : Nat := 0
  length : Nat := 0
  assoc : Nat := 0
  perm : Nat := 0
  notifyTgt : Nat := 0
  state : RegionState := .free
  gen : Nat := 0
  lost : Bool := false
  pins : Nat := 0
  deriving DecidableEq, Repr

/-- RGN's state. -/
structure RgnSt where
  regions : Tab Region := []
  /-- region entries with an uncorrectable HBM error not yet found (R110) -/
  badEntries : List Nat := []
  /-- operations that RGN itself tracks per region, for LOST = 1 (R101) -/
  held : Tab Nat := []
  /-- running RGN_REVOKE commands: index, (CSEQ, GEN argument) -/
  revokes : Tab (Nat × Nat) := []
  /-- reserved notification entries, by queue (R102 order 10) -/
  reserved : Tab Nat := []
  deriving DecidableEq, Repr

end Sys2Proof.Machine
end

