-- ==== Sys2Proof/Machine/TypesOut.lean ====
section
/-! DEFINITION. What leaves the block, as the model's own log of it. -/

namespace Sys2Proof.Machine

/-- A UDP datagram the controller sends (R68): the logical port (0x20 for the peer link), the 802.1Q tag or 0, the
addresses in the R78 form, the next hop, the ports, DSCP and ECN, TTL or hop limit, DF, identification, flow label, and the
UDP checksum and payload; on the peer link the member that its five-tuple is pinned to (R69). -/
structure Datagram where
  port : Nat
  member : Option Nat := none
  vlan : Nat
  mac : List Byte
  localIp : List Byte
  remoteIp : List Byte
  srcPort : Nat
  dstPort : Nat
  dscp : Nat
  ecn : Nat
  ttl : Nat := 64
  df : Bool := true
  ident : Nat := 0
  flow : Nat := 0
  checksum : Nat
  /-- the switch class of its frame (R140) -/
  cls : Nat := 7
  payload : List Byte
  deriving DecidableEq, Repr

/-- The options of a TCP segment (R116): MSS, window scale and SACK-permitted of a SYN-ACK, the timestamps TSval and TSecr, and the
SACK ranges. -/
structure TcpOpts where
  mss : Option Nat := none
  scale : Option Nat := none
  sackOk : Bool := false
  ts : Option (Nat × Nat) := none
  sack : List (Nat × Nat) := []
  /-- the window field of the header, and the switch class of the segment (R140) -/
  win : Nat := 0
  cls : Nat := 7
  deriving DecidableEq, Repr

/-- One thing that left the block.
[DESIGN CHOICE: log entry 7] -/
inductive Out where
  /-- an event posted to the ring (R54), by its header fields and payload -/
  | event (blkType inst code severity flags evseq : Nat) (payload : List Byte)
  /-- an interrupt message: a write of the identity to the hart's interrupt file (R50) -/
  | irqMsg (hart ident : Nat)
  /-- a bus error answered to a core's access (R38-R40) -/
  | busError
  /-- the value answered to a read -/
  | value (v : Nat)
  /-- the bytes answered to a read -/
  | bytes (bs : List Byte)
  /-- a crossing handed a value to the receiving side -/
  | crossed (island crossing value : Nat)
  /-- a crossing delivered this many events -/
  | pulses (island crossing count : Nat)
  /-- a crossing ended a request with the error code of R37 -/
  | crossErr (island crossing code : Nat)
  /-- the engine of a page reports a crossing error in its block's status (R37) -/
  | engineErr (page code : Nat)
  /-- a UDP datagram sent -/
  | datagram (d : Datagram)
  /-- a frame passed from a port to the block that takes it: 0 LDT, 1 NVMe/TCP, 2 IEEE 1588 -/
  | frameTo (port consumer : Nat) (frame : List Byte)
  /-- a verified LDT packet leaves its port: the association and the decrypted part (R82) -/
  | ldtPlain (assoc : Nat) (plain : List Byte) (ce : Bool)
  /-- an operation ends at the block that started it: the page, its reference, and the status -/
  | opDone (page ref status : Nat)
  /-- a notification for PEERCTL (0x40) or SLIP (0x41), in the layout of R108 -/
  | notify (tgt : Nat) (entry : List Byte)
  /-- a capsule handed to the front end: the context and the capsule's bytes -/
  | capsule (ctx : Nat) (bs : List Byte)
  /-- an access to HBM answered with an uncorrectable HBM error; with true it carries HBM_ASLEEP (R372) -/
  | hbmError (addr : Nat) (asleep : Bool)
  /-- the switch hands a frame to an endpoint: the endpoint and the frame -/
  | swOut (dst : Nat) (f : SwFrame)
  /-- a TCP segment of an NVMe/TCP connection: sequence, acknowledgement, flags (1 SYN, 2 ACK, 4 RST, 8 ECE, 16 CWR, 32 FIN), the
  options and the payload -/
  | tcpSegment (conn seq ack flags : Nat) (opts : TcpOpts) (payload : List Byte)
  /-- a flit of a module link: its bytes before the FEC parity (R326) -/
  | flit (module : Nat) (bytes : List Byte)
  /-- a CONFIG flit: the head and the protocol version (R328) -/
  | config (module head version : Nat)
  deriving DecidableEq, Repr

end Sys2Proof.Machine
end

