-- ==== Sys2Proof/Machine/RegNames.lean ====
section
/-! DEFINITION. The addresses of the registers in the register window (R38, R41) and their fields, under the
names of the spec's register tables. `rX_Y` is the window offset of X.Y (its page's offset and its offset in the page);
`fX_Y_F` is its field F. A block of several instances takes its instance number first, and an arrayed register its index.
The registers of the common header (R44) are held in `Page`. -/

namespace Sys2Proof.Machine

/-- A field of a register: the window offset of its 32-bit word and its bits `[hi:lo]`. -/
structure Fld where
  a : Nat
  hi : Nat
  lo : Nat
  deriving DecidableEq, Repr

/-- PACE.CTRL (spec/02_self_timed_fabric_and_crossings.md), 32-bit. -/
def rPACE_CTRL : Nat := 0x60100
def fPACE_CTRL_CONE : Fld := ⟨rPACE_CTRL, 18, 16⟩
def fPACE_CTRL_WINDOW_US : Fld := ⟨rPACE_CTRL, 9, 0⟩
/-- PACE.LOW_STAT (spec/02_self_timed_fabric_and_crossings.md), 32-bit. -/
def rPACE_LOW_STAT : Nat := 0x60104
def fPACE_LOW_STAT_LOW : Fld := ⟨rPACE_LOW_STAT, 23, 0⟩
/-- PACE.RATE (spec/02_self_timed_fabric_and_crossings.md), 32-bit. -/
def rPACE_RATE (i : Nat) : Nat := 0x60200 + 4 * i
def fPACE_RATE_BEATS (i : Nat) : Fld := ⟨rPACE_RATE i, 15, 0⟩
/-- PACE.LOW_THRESH (spec/02_self_timed_fabric_and_crossings.md), 32-bit. -/
def rPACE_LOW_THRESH (i : Nat) : Nat := 0x60300 + 4 * i
def fPACE_LOW_THRESH_THRESH (i : Nat) : Fld := ⟨rPACE_LOW_THRESH i, 15, 0⟩
/-- XING.CTRL (spec/02_self_timed_fabric_and_crossings.md), 32-bit. -/
def rXING_CTRL : Nat := 0x50100
def fXING_CTRL_TIMEOUT_US : Fld := ⟨rXING_CTRL, 13, 0⟩
/-- XING.LAST_FAULT (spec/02_self_timed_fabric_and_crossings.md), 32-bit. -/
def rXING_LAST_FAULT : Nat := 0x50104
def fXING_LAST_FAULT_CODE : Fld := ⟨rXING_LAST_FAULT, 23, 16⟩
def fXING_LAST_FAULT_CROSSING : Fld := ⟨rXING_LAST_FAULT, 12, 8⟩
def fXING_LAST_FAULT_ISLAND : Fld := ⟨rXING_LAST_FAULT, 4, 0⟩
/-- XING.FAULT_CNT (spec/02_self_timed_fabric_and_crossings.md), 32-bit. -/
def rXING_FAULT_CNT : Nat := 0x50108
def fXING_FAULT_CNT_COUNT : Fld := ⟨rXING_FAULT_CNT, 15, 0⟩
/-- XING.ISL_CTRL (spec/02_self_timed_fabric_and_crossings.md), 32-bit. -/
def rXING_ISL_CTRL (i : Nat) : Nat := 0x50200 + 0x20 * (i - 1)
def fXING_ISL_CTRL_PAIR_RESET (i : Nat) : Fld := ⟨rXING_ISL_CTRL i, 1, 1⟩
def fXING_ISL_CTRL_CLK_STOP (i : Nat) : Fld := ⟨rXING_ISL_CTRL i, 0, 0⟩
/-- XING.ISL_STAT (spec/02_self_timed_fabric_and_crossings.md), 32-bit. -/
def rXING_ISL_STAT (i : Nat) : Nat := 0x50204 + 0x20 * (i - 1)
def fXING_ISL_STAT_PULSE_LOST (i : Nat) : Fld := ⟨rXING_ISL_STAT i, 4, 4⟩
def fXING_ISL_STAT_DOMAIN_ON (i : Nat) : Fld := ⟨rXING_ISL_STAT i, 3, 3⟩
def fXING_ISL_STAT_IN_RESET (i : Nat) : Fld := ⟨rXING_ISL_STAT i, 2, 2⟩
def fXING_ISL_STAT_WAKE_PEND (i : Nat) : Fld := ⟨rXING_ISL_STAT i, 1, 1⟩
def fXING_ISL_STAT_CLK_RUN (i : Nat) : Fld := ⟨rXING_ISL_STAT i, 0, 0⟩
/-- XING.PULSE_OVF (spec/02_self_timed_fabric_and_crossings.md), 32-bit. -/
def rXING_PULSE_OVF (i : Nat) : Nat := 0x50208 + 0x20 * (i - 1)
def fXING_PULSE_OVF_OVF (i : Nat) : Fld := ⟨rXING_PULSE_OVF i, 31, 0⟩
/-- XING.ISL_ERR_CNT (spec/02_self_timed_fabric_and_crossings.md), 32-bit. -/
def rXING_ISL_ERR_CNT (i : Nat) : Nat := 0x5020c + 0x20 * (i - 1)
def fXING_ISL_ERR_CNT_COUNT (i : Nat) : Fld := ⟨rXING_ISL_ERR_CNT i, 15, 0⟩
/-- IRQR.ROUTE (spec/03_control_model.md), 32-bit. -/
def rIRQR_ROUTE (i : Nat) : Nat := 0x90100 + 4 * i
def fIRQR_ROUTE_INT_N (i : Nat) : Fld := ⟨rIRQR_ROUTE i, 31, 31⟩
def fIRQR_ROUTE_HART (i : Nat) : Fld := ⟨rIRQR_ROUTE i, 22, 16⟩
def fIRQR_ROUTE_IDENT (i : Nat) : Fld := ⟨rIRQR_ROUTE i, 7, 0⟩
/-- CLU.CORE_RUN (spec/03_control_model.md), 32-bit. -/
def rCLU_CORE_RUN (n : Nat) : Nat := 0x100100 + 0x10000 * n
def fCLU_CORE_RUN_RUN (n : Nat) : Fld := ⟨rCLU_CORE_RUN n, 7, 0⟩
/-- CLU.STAT (spec/03_control_model.md), 32-bit. -/
def rCLU_STAT (n : Nat) : Nat := 0x100104 + 0x10000 * n
def fCLU_STAT_MEM_BUSY (n : Nat) : Fld := ⟨rCLU_STAT n, 8, 8⟩
def fCLU_STAT_RUNNING (n : Nat) : Fld := ⟨rCLU_STAT n, 7, 0⟩
/-- CLU.RESET_VEC (spec/03_control_model.md), 64-bit. -/
def rCLU_RESET_VEC (n : Nat) : Nat := 0x100108 + 0x10000 * n
def fCLU_RESET_VEC_VEC (n : Nat) : Fld := ⟨rCLU_RESET_VEC n, 63, 0⟩
/-- CLU.MEM_CFG (spec/03_control_model.md), 32-bit. -/
def rCLU_MEM_CFG (n : Nat) : Nat := 0x100110 + 0x10000 * n
def fCLU_MEM_CFG_SCRATCH_WAYS (n : Nat) : Fld := ⟨rCLU_MEM_CFG n, 4, 0⟩
/-- EVT.CTRL (spec/03_control_model.md), 32-bit. -/
def rEVT_CTRL : Nat := 0x80100
def fEVT_CTRL_C_SIZE_LOG2 : Fld := ⟨rEVT_CTRL, 20, 16⟩
def fEVT_CTRL_E_SIZE_LOG2 : Fld := ⟨rEVT_CTRL, 12, 8⟩
def fEVT_CTRL_C_PAUSE : Fld := ⟨rEVT_CTRL, 0, 0⟩
/-- EVT.E_BASE (spec/03_control_model.md), 64-bit. -/
def rEVT_E_BASE : Nat := 0x80108
/-- EVT.C_BASE (spec/03_control_model.md), 64-bit. -/
def rEVT_C_BASE : Nat := 0x80110
/-- EVT.ESEQ_PROD (spec/03_control_model.md), 64-bit. -/
def rEVT_ESEQ_PROD : Nat := 0x80120
/-- EVT.ESEQ_CONS (spec/03_control_model.md), 64-bit. -/
def rEVT_ESEQ_CONS : Nat := 0x80128
/-- EVT.CSEQ_PROD (spec/03_control_model.md), 64-bit. -/
def rEVT_CSEQ_PROD : Nat := 0x80130
/-- EVT.CSEQ_CONS (spec/03_control_model.md), 64-bit. -/
def rEVT_CSEQ_CONS : Nat := 0x80138
/-- EVT.CSEQ_DONE (spec/03_control_model.md), 64-bit. -/
def rEVT_CSEQ_DONE : Nat := 0x80140
/-- EVT.E_LOST (spec/03_control_model.md), 64-bit. -/
def rEVT_E_LOST : Nat := 0x80148
/-- EVT.EPOCH (spec/03_control_model.md), 64-bit. -/
def rEVT_EPOCH : Nat := 0x80150
/-- EVT.E_HIGH_WATER (spec/03_control_model.md), 32-bit. -/
def rEVT_E_HIGH_WATER : Nat := 0x80158
def fEVT_E_HIGH_WATER : Fld := ⟨rEVT_E_HIGH_WATER, 20, 0⟩
/-- TIME.NOW (spec/03_control_model.md), 64-bit. -/
def rTIME_NOW : Nat := 0x40100
/-- TIME.SET (spec/03_control_model.md), 64-bit. -/
def rTIME_SET : Nat := 0x40108
/-- TIME.STEP (spec/03_control_model.md), 64-bit. -/
def rTIME_STEP : Nat := 0x40110
/-- TIME.RATE_ADJ (spec/03_control_model.md), 32-bit. -/
def rTIME_RATE_ADJ : Nat := 0x40118
def fTIME_RATE_ADJ : Fld := ⟨rTIME_RATE_ADJ, 31, 0⟩
/-- TIME.STAT (spec/03_control_model.md), 32-bit. -/
def rTIME_STAT : Nat := 0x40120
def fTIME_STAT_SLEWING : Fld := ⟨rTIME_STAT, 2, 2⟩
def fTIME_STAT_REF_LOST : Fld := ⟨rTIME_STAT, 1, 1⟩
def fTIME_STAT_RUNNING : Fld := ⟨rTIME_STAT, 0, 0⟩
/-- TIME.SLEW_REMAIN (spec/03_control_model.md), 64-bit. -/
def rTIME_SLEW_REMAIN : Nat := 0x40128
/-- TIME.TXTS_INFO (spec/03_control_model.md), 32-bit. -/
def rTIME_TXTS_INFO : Nat := 0x40130
def fTIME_TXTS_INFO_VALID : Fld := ⟨rTIME_TXTS_INFO, 31, 31⟩
def fTIME_TXTS_INFO_PORT : Fld := ⟨rTIME_TXTS_INFO, 28, 24⟩
def fTIME_TXTS_INFO_MSG_TYPE : Fld := ⟨rTIME_TXTS_INFO, 19, 16⟩
def fTIME_TXTS_INFO_SEQUENCE_ID : Fld := ⟨rTIME_TXTS_INFO, 15, 0⟩
/-- TIME.TXTS_VALUE (spec/03_control_model.md), 64-bit. -/
def rTIME_TXTS_VALUE : Nat := 0x40138
/-- TIME.TXTS_DROP (spec/03_control_model.md), 32-bit. -/
def rTIME_TXTS_DROP : Nat := 0x40140
def fTIME_TXTS_DROP : Fld := ⟨rTIME_TXTS_DROP, 15, 0⟩
/-- STORE.CMD (spec/03_control_model.md), 32-bit. -/
def rSTORE_CMD : Nat := 0x30100
def fSTORE_CMD_OP : Fld := ⟨rSTORE_CMD, 3, 0⟩
/-- STORE.STAT (spec/03_control_model.md), 32-bit. -/
def rSTORE_STAT : Nat := 0x30104
def fSTORE_STAT_BUSY : Fld := ⟨rSTORE_STAT, 31, 31⟩
def fSTORE_STAT_LAST_OP : Fld := ⟨rSTORE_STAT, 19, 16⟩
def fSTORE_STAT_LAST_RESULT : Fld := ⟨rSTORE_STAT, 15, 8⟩
def fSTORE_STAT_BOOT_BANK : Fld := ⟨rSTORE_STAT, 0, 0⟩
/-- STORE.LOCK (spec/03_control_model.md), 32-bit. -/
def rSTORE_LOCK : Nat := 0x30108
def fSTORE_LOCK_LOCKED : Fld := ⟨rSTORE_LOCK, 0, 0⟩
/-- STORE.LOCK_VIOL (spec/03_control_model.md), 32-bit. -/
def rSTORE_LOCK_VIOL : Nat := 0x3010c
def fSTORE_LOCK_VIOL_COUNT : Fld := ⟨rSTORE_LOCK_VIOL, 15, 0⟩
/-- HPORT.MODE (spec/04_luante_datagram_transport.md), 32-bit. -/
def rHPORT_MODE (n : Nat) : Nat := 0x200100 + 0x10000 * n
def fHPORT_MODE_SPLIT (n : Nat) : Fld := ⟨rHPORT_MODE n, 1, 0⟩
/-- HPORT.MAC (spec/04_luante_datagram_transport.md), 64-bit. -/
def rHPORT_MAC (n i : Nat) : Nat := 0x200110 + 0x10000 * n + 8 * i
/-- HPORT.IP_ADDR (spec/04_luante_datagram_transport.md), 128-bit. -/
def rHPORT_IP_ADDR (n i j : Nat) : Nat := 0x200200 + 0x10000 * n + 0x40 * i + 0x10 * j
/-- HPORT.HOLD_DROP (spec/04_luante_datagram_transport.md), 32-bit. -/
def rHPORT_HOLD_DROP (n : Nat) : Nat := 0x200500 + 0x10000 * n
def fHPORT_HOLD_DROP (n : Nat) : Fld := ⟨rHPORT_HOLD_DROP n, 31, 0⟩
/-- HPORT.TAG_FAIL (spec/04_luante_datagram_transport.md), 32-bit. -/
def rHPORT_TAG_FAIL (n : Nat) : Nat := 0x200504 + 0x10000 * n
def fHPORT_TAG_FAIL (n : Nat) : Fld := ⟨rHPORT_TAG_FAIL n, 31, 0⟩
/-- HPORT.CSUM_ERR (spec/04_luante_datagram_transport.md), 32-bit. -/
def rHPORT_CSUM_ERR (n : Nat) : Nat := 0x200508 + 0x10000 * n
def fHPORT_CSUM_ERR (n : Nat) : Fld := ⟨rHPORT_CSUM_ERR n, 31, 0⟩
/-- LDT.CTRL (spec/04_luante_datagram_transport.md), 32-bit. -/
def rLDT_CTRL : Nat := 0x380100
def fLDT_CTRL_UDP_PORT : Fld := ⟨rLDT_CTRL, 31, 16⟩
def fLDT_CTRL_DSCP : Fld := ⟨rLDT_CTRL, 13, 8⟩
def fLDT_CTRL_MAX_PAYLOAD : Fld := ⟨rLDT_CTRL, 5, 4⟩
def fLDT_CTRL_ECN_EN : Fld := ⟨rLDT_CTRL, 0, 0⟩
/-- LDT.ACK_CFG (spec/04_luante_datagram_transport.md), 32-bit. -/
def rLDT_ACK_CFG : Nat := 0x380108
def fLDT_ACK_CFG_ACK_EVERY : Fld := ⟨rLDT_ACK_CFG, 23, 16⟩
def fLDT_ACK_CFG_ACK_DELAY_NS : Fld := ⟨rLDT_ACK_CFG, 15, 0⟩
/-- LDT.RTO_CFG (spec/04_luante_datagram_transport.md), 32-bit. -/
def rLDT_RTO_CFG : Nat := 0x38010c
def fLDT_RTO_CFG_RTO_MIN_US : Fld := ⟨rLDT_RTO_CFG, 29, 16⟩
def fLDT_RTO_CFG_RTO_MAX_US : Fld := ⟨rLDT_RTO_CFG, 15, 0⟩
/-- LDT.LOSS_CFG (spec/04_luante_datagram_transport.md), 32-bit. -/
def rLDT_LOSS_CFG : Nat := 0x380110
def fLDT_LOSS_CFG_RETX_LIMIT : Fld := ⟨rLDT_LOSS_CFG, 27, 24⟩
def fLDT_LOSS_CFG_DUP_THRESH : Fld := ⟨rLDT_LOSS_CFG, 19, 16⟩
/-- LDT.KA_CFG (spec/04_luante_datagram_transport.md), 32-bit. -/
def rLDT_KA_CFG : Nat := 0x380114
def fLDT_KA_CFG_KA_TIMEOUT_MS : Fld := ⟨rLDT_KA_CFG, 31, 16⟩
def fLDT_KA_CFG_KA_INTERVAL_MS : Fld := ⟨rLDT_KA_CFG, 15, 0⟩
/-- LDT.RC_CFG (spec/04_luante_datagram_transport.md), 32-bit. -/
def rLDT_RC_CFG : Nat := 0x380118
def fLDT_RC_CFG_R_AI_MBPS : Fld := ⟨rLDT_RC_CFG, 31, 16⟩
def fLDT_RC_CFG_G_SHIFT : Fld := ⟨rLDT_RC_CFG, 15, 12⟩
def fLDT_RC_CFG_FR_STEPS : Fld := ⟨rLDT_RC_CFG, 11, 8⟩
/-- LDT.RC_MIN (spec/04_luante_datagram_transport.md), 32-bit. -/
def rLDT_RC_MIN : Nat := 0x38011c
def fLDT_RC_MIN_R_MIN_MBPS : Fld := ⟨rLDT_RC_MIN, 31, 0⟩
/-- LDT.RC_INIT (spec/04_luante_datagram_transport.md), 32-bit. -/
def rLDT_RC_INIT : Nat := 0x380120
def fLDT_RC_INIT_R_INIT_MBPS : Fld := ⟨rLDT_RC_INIT, 31, 0⟩
/-- LDT.RC_INTERVAL (spec/04_luante_datagram_transport.md), 32-bit. -/
def rLDT_RC_INTERVAL : Nat := 0x380124
def fLDT_RC_INTERVAL_MIN_INTERVAL_NS : Fld := ⟨rLDT_RC_INTERVAL, 15, 0⟩
/-- LDT.HS_BASE (spec/04_luante_datagram_transport.md), 64-bit. -/
def rLDT_HS_BASE : Nat := 0x380130
/-- LDT.HS_PROD (spec/04_luante_datagram_transport.md), 32-bit. -/
def rLDT_HS_PROD : Nat := 0x380138
def fLDT_HS_PROD : Fld := ⟨rLDT_HS_PROD, 7, 0⟩
/-- LDT.HS_CONS (spec/04_luante_datagram_transport.md), 32-bit. -/
def rLDT_HS_CONS : Nat := 0x38013c
def fLDT_HS_CONS : Fld := ⟨rLDT_HS_CONS, 7, 0⟩
/-- LDT.TAG_FAIL (spec/04_luante_datagram_transport.md), 32-bit. -/
def rLDT_TAG_FAIL : Nat := 0x380200
def fLDT_TAG_FAIL : Fld := ⟨rLDT_TAG_FAIL, 31, 0⟩
/-- LDT.NO_ASSOC (spec/04_luante_datagram_transport.md), 32-bit. -/
def rLDT_NO_ASSOC : Nat := 0x380204
def fLDT_NO_ASSOC : Fld := ⟨rLDT_NO_ASSOC, 31, 0⟩
/-- LDT.MALFORMED (spec/04_luante_datagram_transport.md), 32-bit. -/
def rLDT_MALFORMED : Nat := 0x380208
def fLDT_MALFORMED : Fld := ⟨rLDT_MALFORMED, 31, 0⟩
/-- LDT.OUT_OF_WINDOW (spec/04_luante_datagram_transport.md), 32-bit. -/
def rLDT_OUT_OF_WINDOW : Nat := 0x38020c
def fLDT_OUT_OF_WINDOW : Fld := ⟨rLDT_OUT_OF_WINDOW, 31, 0⟩
/-- LDT.HS_DROP (spec/04_luante_datagram_transport.md), 32-bit. -/
def rLDT_HS_DROP : Nat := 0x380210
def fLDT_HS_DROP : Fld := ⟨rLDT_HS_DROP, 31, 0⟩
/-- LDT.QUIESCE_DROP (spec/04_luante_datagram_transport.md), 32-bit. -/
def rLDT_QUIESCE_DROP : Nat := 0x380214
def fLDT_QUIESCE_DROP : Fld := ⟨rLDT_QUIESCE_DROP, 31, 0⟩
/-- LDT.ASSOC_SEL (spec/04_luante_datagram_transport.md), 32-bit. -/
def rLDT_ASSOC_SEL : Nat := 0x380300
def fLDT_ASSOC_SEL : Fld := ⟨rLDT_ASSOC_SEL, 11, 0⟩
/-- LDT.ASSOC_STATE (spec/04_luante_datagram_transport.md), 32-bit. -/
def rLDT_ASSOC_STATE : Nat := 0x380304
def fLDT_ASSOC_STATE_PEER_ASSOC : Fld := ⟨rLDT_ASSOC_STATE, 31, 16⟩
def fLDT_ASSOC_STATE_PATH_MASK : Fld := ⟨rLDT_ASSOC_STATE, 15, 0⟩
/-- LDT.ASSOC_INFO (spec/04_luante_datagram_transport.md), 32-bit. -/
def rLDT_ASSOC_INFO : Nat := 0x380308
def fLDT_ASSOC_INFO_SRTT : Fld := ⟨rLDT_ASSOC_INFO, 31, 16⟩
def fLDT_ASSOC_INFO_TX_PHASE : Fld := ⟨rLDT_ASSOC_INFO, 4, 4⟩
def fLDT_ASSOC_INFO_STATE : Fld := ⟨rLDT_ASSOC_INFO, 2, 0⟩
/-- LDT.ASSOC_RATE (spec/04_luante_datagram_transport.md), 32-bit. -/
def rLDT_ASSOC_RATE : Nat := 0x38030c
def fLDT_ASSOC_RATE : Fld := ⟨rLDT_ASSOC_RATE, 31, 0⟩
/-- LDT.ASSOC_MALFORMED (spec/04_luante_datagram_transport.md), 32-bit. -/
def rLDT_ASSOC_MALFORMED : Nat := 0x380310
def fLDT_ASSOC_MALFORMED : Fld := ⟨rLDT_ASSOC_MALFORMED, 31, 0⟩
/-- LDT.ASSOC_TAG_FAIL (spec/04_luante_datagram_transport.md), 32-bit. -/
def rLDT_ASSOC_TAG_FAIL : Nat := 0x380314
def fLDT_ASSOC_TAG_FAIL : Fld := ⟨rLDT_ASSOC_TAG_FAIL, 31, 0⟩
/-- LDT.ASSOC_RETX (spec/04_luante_datagram_transport.md), 32-bit. -/
def rLDT_ASSOC_RETX : Nat := 0x380318
def fLDT_ASSOC_RETX : Fld := ⟨rLDT_ASSOC_RETX, 31, 0⟩
/-- LDT.ASSOC_CE (spec/04_luante_datagram_transport.md), 32-bit. -/
def rLDT_ASSOC_CE : Nat := 0x38031c
def fLDT_ASSOC_CE : Fld := ⟨rLDT_ASSOC_CE, 31, 0⟩
/-- CTX.BACK_BASE (spec/04_luante_datagram_transport.md), 64-bit. -/
def rCTX_BACK_BASE : Nat := 0x390108
/-- CTX.RESIDENT (spec/04_luante_datagram_transport.md), 32-bit. -/
def rCTX_RESIDENT : Nat := 0x390110
def fCTX_RESIDENT : Fld := ⟨rCTX_RESIDENT, 16, 0⟩
/-- CTX.POOL (spec/04_luante_datagram_transport.md), 32-bit. -/
def rCTX_POOL : Nat := 0x390114
def fCTX_POOL_HIGH_WATER : Fld := ⟨rCTX_POOL, 28, 16⟩
def fCTX_POOL_IN_USE : Fld := ⟨rCTX_POOL, 12, 0⟩
/-- CTX.PINNED (spec/04_luante_datagram_transport.md), 32-bit. -/
def rCTX_PINNED : Nat := 0x390118
def fCTX_PINNED : Fld := ⟨rCTX_PINNED, 13, 0⟩
/-- CTX.MISS_CNT (spec/04_luante_datagram_transport.md), 32-bit. -/
def rCTX_MISS_CNT : Nat := 0x390200
def fCTX_MISS_CNT : Fld := ⟨rCTX_MISS_CNT, 31, 0⟩
/-- CTX.MISS_DROP (spec/04_luante_datagram_transport.md), 32-bit. -/
def rCTX_MISS_DROP : Nat := 0x390204
def fCTX_MISS_DROP : Fld := ⟨rCTX_MISS_DROP, 31, 0⟩
/-- CTX.FETCH_ERR (spec/04_luante_datagram_transport.md), 32-bit. -/
def rCTX_FETCH_ERR : Nat := 0x390208
def fCTX_FETCH_ERR : Fld := ⟨rCTX_FETCH_ERR, 15, 0⟩
/-- RGN.TABLE_BASE (spec/05_remote_memory_regions.md), 64-bit. -/
def rRGN_TABLE_BASE : Nat := 0x3a0108
/-- RGN.VALID_COUNT (spec/05_remote_memory_regions.md), 32-bit. -/
def rRGN_VALID_COUNT : Nat := 0x3a0110
def fRGN_VALID_COUNT : Fld := ⟨rRGN_VALID_COUNT, 16, 0⟩
/-- RGN.REVOKING_COUNT (spec/05_remote_memory_regions.md), 32-bit. -/
def rRGN_REVOKING_COUNT : Nat := 0x3a0114
def fRGN_REVOKING_COUNT : Fld := ⟨rRGN_REVOKING_COUNT, 16, 0⟩
/-- RGN.NAK_REVOKED (spec/05_remote_memory_regions.md), 32-bit. -/
def rRGN_NAK_REVOKED : Nat := 0x3a0200
def fRGN_NAK_REVOKED : Fld := ⟨rRGN_NAK_REVOKED, 31, 0⟩
/-- RGN.NAK_INVALID (spec/05_remote_memory_regions.md), 32-bit. -/
def rRGN_NAK_INVALID : Nat := 0x3a0204
def fRGN_NAK_INVALID : Fld := ⟨rRGN_NAK_INVALID, 31, 0⟩
/-- RGN.NAK_DENIED (spec/05_remote_memory_regions.md), 32-bit. -/
def rRGN_NAK_DENIED : Nat := 0x3a0208
def fRGN_NAK_DENIED : Fld := ⟨rRGN_NAK_DENIED, 31, 0⟩
/-- RGN.NAK_BOUNDS (spec/05_remote_memory_regions.md), 32-bit. -/
def rRGN_NAK_BOUNDS : Nat := 0x3a020c
def fRGN_NAK_BOUNDS : Fld := ⟨rRGN_NAK_BOUNDS, 31, 0⟩
/-- RGN.NAK_RECV_FULL (spec/05_remote_memory_regions.md), 32-bit. -/
def rRGN_NAK_RECV_FULL : Nat := 0x3a0210
def fRGN_NAK_RECV_FULL : Fld := ⟨rRGN_NAK_RECV_FULL, 31, 0⟩
/-- RGN.NQ_FULL_DROP (spec/05_remote_memory_regions.md), 32-bit. -/
def rRGN_NQ_FULL_DROP : Nat := 0x3a0214
def fRGN_NQ_FULL_DROP : Fld := ⟨rRGN_NQ_FULL_DROP, 31, 0⟩
/-- RGN.NOT_RUN_DROP (spec/05_remote_memory_regions.md), 32-bit. -/
def rRGN_NOT_RUN_DROP : Nat := 0x3a0218
def fRGN_NOT_RUN_DROP : Fld := ⟨rRGN_NOT_RUN_DROP, 31, 0⟩
/-- RGN.NQ_BASE (spec/05_remote_memory_regions.md), 64-bit. -/
def rRGN_NQ_BASE (i : Nat) : Nat := 0x3a0400 + 0x20 * i
/-- RGN.NQ_CFG (spec/05_remote_memory_regions.md), 32-bit. -/
def rRGN_NQ_CFG (i : Nat) : Nat := 0x3a0408 + 0x20 * i
def fRGN_NQ_CFG_SIZE_LOG2 (i : Nat) : Fld := ⟨rRGN_NQ_CFG i, 4, 0⟩
/-- RGN.NQ_PROD (spec/05_remote_memory_regions.md), 32-bit. -/
def rRGN_NQ_PROD (i : Nat) : Nat := 0x3a040c + 0x20 * i
def fRGN_NQ_PROD (i : Nat) : Fld := ⟨rRGN_NQ_PROD i, 31, 0⟩
/-- RGN.NQ_CONS (spec/05_remote_memory_regions.md), 32-bit. -/
def rRGN_NQ_CONS (i : Nat) : Nat := 0x3a0410 + 0x20 * i
def fRGN_NQ_CONS (i : Nat) : Fld := ⟨rRGN_NQ_CONS i, 31, 0⟩
/-- RGN.RQ_BASE (spec/05_remote_memory_regions.md), 64-bit. -/
def rRGN_RQ_BASE (i : Nat) : Nat := 0x3a0800 + 0x20 * i
/-- RGN.RQ_CFG (spec/05_remote_memory_regions.md), 32-bit. -/
def rRGN_RQ_CFG (i : Nat) : Nat := 0x3a0808 + 0x20 * i
def fRGN_RQ_CFG_ASSOC (i : Nat) : Fld := ⟨rRGN_RQ_CFG i, 31, 16⟩
def fRGN_RQ_CFG_NQ (i : Nat) : Fld := ⟨rRGN_RQ_CFG i, 11, 8⟩
def fRGN_RQ_CFG_SIZE_LOG2 (i : Nat) : Fld := ⟨rRGN_RQ_CFG i, 4, 0⟩
/-- RGN.RQ_PROD (spec/05_remote_memory_regions.md), 32-bit. -/
def rRGN_RQ_PROD (i : Nat) : Nat := 0x3a080c + 0x20 * i
def fRGN_RQ_PROD (i : Nat) : Fld := ⟨rRGN_RQ_PROD i, 31, 0⟩
/-- RGN.RQ_CONS (spec/05_remote_memory_regions.md), 32-bit. -/
def rRGN_RQ_CONS (i : Nat) : Nat := 0x3a0810 + 0x20 * i
def fRGN_RQ_CONS (i : Nat) : Fld := ⟨rRGN_RQ_CONS i, 31, 0⟩
/-- NVF.CFG (spec/06_nvme_front_end.md), 32-bit. -/
def rNVF_CFG : Nat := 0x400100
def fNVF_CFG_ICD_MAX : Fld := ⟨rNVF_CFG, 14, 0⟩
/-- NVF.STAGE_CFG (spec/06_nvme_front_end.md), 32-bit. -/
def rNVF_STAGE_CFG : Nat := 0x400104
def fNVF_STAGE_CFG_POOL_MIB : Fld := ⟨rNVF_STAGE_CFG, 14, 0⟩
/-- NVF.URG_CFG (spec/06_nvme_front_end.md), 32-bit. -/
def rNVF_URG_CFG : Nat := 0x400108
def fNVF_URG_CFG_WINDOW_US : Fld := ⟨rNVF_URG_CFG, 25, 8⟩
def fNVF_URG_CFG_BUDGET_PCT : Fld := ⟨rNVF_URG_CFG, 6, 0⟩
/-- NVF.WEIGHT (spec/06_nvme_front_end.md), 32-bit. -/
def rNVF_WEIGHT : Nat := 0x40010c
def fNVF_WEIGHT_W4 : Fld := ⟨rNVF_WEIGHT, 31, 24⟩
def fNVF_WEIGHT_W3 : Fld := ⟨rNVF_WEIGHT, 23, 16⟩
def fNVF_WEIGHT_W2 : Fld := ⟨rNVF_WEIGHT, 15, 8⟩
def fNVF_WEIGHT_W1 : Fld := ⟨rNVF_WEIGHT, 7, 0⟩
/-- NVF.NS_BASE (spec/06_nvme_front_end.md), 64-bit. -/
def rNVF_NS_BASE : Nat := 0x400110
/-- NVF.SWQ_BASE (spec/06_nvme_front_end.md), 64-bit. -/
def rNVF_SWQ_BASE : Nat := 0x400118
/-- NVF.SWQ_CFG (spec/06_nvme_front_end.md), 32-bit. -/
def rNVF_SWQ_CFG : Nat := 0x400120
def fNVF_SWQ_CFG_SIZE_LOG2 : Fld := ⟨rNVF_SWQ_CFG, 4, 0⟩
/-- NVF.SWQ_PROD (spec/06_nvme_front_end.md), 32-bit. -/
def rNVF_SWQ_PROD : Nat := 0x400124
def fNVF_SWQ_PROD : Fld := ⟨rNVF_SWQ_PROD, 31, 0⟩
/-- NVF.SWQ_CONS (spec/06_nvme_front_end.md), 32-bit. -/
def rNVF_SWQ_CONS : Nat := 0x400128
def fNVF_SWQ_CONS : Fld := ⟨rNVF_SWQ_CONS, 31, 0⟩
/-- NVF.STAGE_FREE (spec/06_nvme_front_end.md), 32-bit. -/
def rNVF_STAGE_FREE : Nat := 0x400130
def fNVF_STAGE_FREE : Fld := ⟨rNVF_STAGE_FREE, 22, 0⟩
/-- NVF.OVL_USED (spec/06_nvme_front_end.md), 32-bit. -/
def rNVF_OVL_USED : Nat := 0x400134
def fNVF_OVL_USED : Fld := ⟨rNVF_OVL_USED, 17, 0⟩
/-- NVF.WAIT_WRITE (spec/06_nvme_front_end.md), 32-bit. -/
def rNVF_WAIT_WRITE : Nat := 0x400138
def fNVF_WAIT_WRITE_VALID : Fld := ⟨rNVF_WAIT_WRITE, 31, 31⟩
def fNVF_WAIT_WRITE_CONTEXT : Fld := ⟨rNVF_WAIT_WRITE, 19, 0⟩
/-- NVF.SQ_OVERFLOW (spec/06_nvme_front_end.md), 32-bit. -/
def rNVF_SQ_OVERFLOW : Nat := 0x400200
def fNVF_SQ_OVERFLOW : Fld := ⟨rNVF_SQ_OVERFLOW, 31, 0⟩
/-- NVF.LEN_MISMATCH (spec/06_nvme_front_end.md), 32-bit. -/
def rNVF_LEN_MISMATCH : Nat := 0x400204
def fNVF_LEN_MISMATCH : Fld := ⟨rNVF_LEN_MISMATCH, 31, 0⟩
/-- NVF.XFER_FAIL (spec/06_nvme_front_end.md), 32-bit. -/
def rNVF_XFER_FAIL : Nat := 0x400208
def fNVF_XFER_FAIL : Fld := ⟨rNVF_XFER_FAIL, 31, 0⟩
/-- NVF.SWQ_FULL_DROP (spec/06_nvme_front_end.md), 32-bit. -/
def rNVF_SWQ_FULL_DROP : Nat := 0x40020c
def fNVF_SWQ_FULL_DROP : Fld := ⟨rNVF_SWQ_FULL_DROP, 31, 0⟩
/-- NVF.SHORT_CAPSULE (spec/06_nvme_front_end.md), 32-bit. -/
def rNVF_SHORT_CAPSULE : Nat := 0x400210
def fNVF_SHORT_CAPSULE : Fld := ⟨rNVF_SHORT_CAPSULE, 31, 0⟩
/-- NVF.CREDIT_WAIT (spec/06_nvme_front_end.md), 32-bit. -/
def rNVF_CREDIT_WAIT : Nat := 0x400214
def fNVF_CREDIT_WAIT : Fld := ⟨rNVF_CREDIT_WAIT, 31, 0⟩
/-- NVF.NOT_RUN_DROP (spec/06_nvme_front_end.md), 32-bit. -/
def rNVF_NOT_RUN_DROP : Nat := 0x400218
def fNVF_NOT_RUN_DROP : Fld := ⟨rNVF_NOT_RUN_DROP, 31, 0⟩
/-- NVTCP.CTRL (spec/06_nvme_front_end.md), 32-bit. -/
def rNVTCP_CTRL : Nat := 0x3b0100
def fNVTCP_CTRL_PORT : Fld := ⟨rNVTCP_CTRL, 31, 16⟩
def fNVTCP_CTRL_C2H_SUCCESS : Fld := ⟨rNVTCP_CTRL, 2, 2⟩
def fNVTCP_CTRL_DDGST_EN : Fld := ⟨rNVTCP_CTRL, 1, 1⟩
def fNVTCP_CTRL_HDGST_EN : Fld := ⟨rNVTCP_CTRL, 0, 0⟩
/-- NVTCP.MAX_XFER_REQ (spec/06_nvme_front_end.md), 32-bit. -/
def rNVTCP_MAX_XFER_REQ : Nat := 0x3b0104
def fNVTCP_MAX_XFER_REQ : Fld := ⟨rNVTCP_MAX_XFER_REQ, 4, 0⟩
/-- NVTCP.MSS (spec/06_nvme_front_end.md), 32-bit. -/
def rNVTCP_MSS : Nat := 0x3b0108
def fNVTCP_MSS : Fld := ⟨rNVTCP_MSS, 13, 0⟩
/-- NVTCP.RTO_CFG (spec/06_nvme_front_end.md), 32-bit. -/
def rNVTCP_RTO_CFG : Nat := 0x3b010c
def fNVTCP_RTO_CFG_RTO_MAX_MS : Fld := ⟨rNVTCP_RTO_CFG, 31, 16⟩
def fNVTCP_RTO_CFG_RTO_MIN_US : Fld := ⟨rNVTCP_RTO_CFG, 15, 0⟩
/-- NVTCP.CONN_BASE (spec/06_nvme_front_end.md), 64-bit. -/
def rNVTCP_CONN_BASE : Nat := 0x3b0110
/-- NVTCP.CONN_COUNT (spec/06_nvme_front_end.md), 32-bit. -/
def rNVTCP_CONN_COUNT : Nat := 0x3b0118
def fNVTCP_CONN_COUNT : Fld := ⟨rNVTCP_CONN_COUNT, 12, 0⟩
/-- NVTCP.HDGST_ERR (spec/06_nvme_front_end.md), 32-bit. -/
def rNVTCP_HDGST_ERR : Nat := 0x3b0200
def fNVTCP_HDGST_ERR : Fld := ⟨rNVTCP_HDGST_ERR, 31, 0⟩
/-- NVTCP.DDGST_ERR (spec/06_nvme_front_end.md), 32-bit. -/
def rNVTCP_DDGST_ERR : Nat := 0x3b0204
def fNVTCP_DDGST_ERR : Fld := ⟨rNVTCP_DDGST_ERR, 31, 0⟩
/-- NVTCP.FATAL_CLOSE (spec/06_nvme_front_end.md), 32-bit. -/
def rNVTCP_FATAL_CLOSE : Nat := 0x3b0208
def fNVTCP_FATAL_CLOSE : Fld := ⟨rNVTCP_FATAL_CLOSE, 31, 0⟩
/-- NVTCP.OOO_DROP (spec/06_nvme_front_end.md), 32-bit. -/
def rNVTCP_OOO_DROP : Nat := 0x3b020c
def fNVTCP_OOO_DROP : Fld := ⟨rNVTCP_OOO_DROP, 31, 0⟩
/-- SW.CTRL (spec/07_internal_switch_and_buffers.md), 32-bit. -/
def rSW_CTRL : Nat := 0x300100
def fSW_CTRL_CT_EN : Fld := ⟨rSW_CTRL, 0, 0⟩
/-- SW.MC_CFG (spec/07_internal_switch_and_buffers.md), 32-bit. -/
def rSW_MC_CFG : Nat := 0x300104
def fSW_MC_CFG_HOLD_TIMEOUT_US : Fld := ⟨rSW_MC_CFG, 23, 0⟩
/-- SW.PIN_CFG (spec/07_internal_switch_and_buffers.md), 32-bit. -/
def rSW_PIN_CFG : Nat := 0x300108
def fSW_PIN_CFG_SEED : Fld := ⟨rSW_PIN_CFG, 31, 0⟩
/-- SW.PIN_TABLE (spec/07_internal_switch_and_buffers.md), 128-bit. -/
def rSW_PIN_TABLE : Nat := 0x300110
/-- SW.WARE_TABLE (spec/07_internal_switch_and_buffers.md), 32-bit. -/
def rSW_WARE_TABLE : Nat := 0x300120
def fSW_WARE_TABLE : Fld := ⟨rSW_WARE_TABLE, 31, 0⟩
/-- SW.EGR_WEIGHT (spec/07_internal_switch_and_buffers.md), 32-bit. -/
def rSW_EGR_WEIGHT : Nat := 0x300130
def fSW_EGR_WEIGHT_W4 : Fld := ⟨rSW_EGR_WEIGHT, 31, 24⟩
def fSW_EGR_WEIGHT_W3 : Fld := ⟨rSW_EGR_WEIGHT, 23, 16⟩
def fSW_EGR_WEIGHT_W2 : Fld := ⟨rSW_EGR_WEIGHT, 15, 8⟩
def fSW_EGR_WEIGHT_W1 : Fld := ⟨rSW_EGR_WEIGHT, 7, 0⟩
/-- SW.EGR_WEIGHT6 (spec/07_internal_switch_and_buffers.md), 32-bit. -/
def rSW_EGR_WEIGHT6 : Nat := 0x300134
def fSW_EGR_WEIGHT6_W6 : Fld := ⟨rSW_EGR_WEIGHT6, 7, 0⟩
/-- SW.ECN_MARK_CELLS (spec/07_internal_switch_and_buffers.md), 32-bit. -/
def rSW_ECN_MARK_CELLS (i : Nat) : Nat := 0x300140 + 4 * i
def fSW_ECN_MARK_CELLS (i : Nat) : Fld := ⟨rSW_ECN_MARK_CELLS i, 18, 0⟩
/-- SW.LAST_CRAZED (spec/07_internal_switch_and_buffers.md), 32-bit. -/
def rSW_LAST_CRAZED : Nat := 0x300180
def fSW_LAST_CRAZED_CAUSE : Fld := ⟨rSW_LAST_CRAZED, 27, 24⟩
def fSW_LAST_CRAZED_SRC : Fld := ⟨rSW_LAST_CRAZED, 20, 16⟩
def fSW_LAST_CRAZED_DST : Fld := ⟨rSW_LAST_CRAZED, 12, 8⟩
def fSW_LAST_CRAZED_CLASS : Fld := ⟨rSW_LAST_CRAZED, 2, 0⟩
/-- SW.CRAZED_IN (spec/07_internal_switch_and_buffers.md), 32-bit. -/
def rSW_CRAZED_IN : Nat := 0x300200
def fSW_CRAZED_IN : Fld := ⟨rSW_CRAZED_IN, 31, 0⟩
/-- SW.CRAZED_DROP (spec/07_internal_switch_and_buffers.md), 32-bit. -/
def rSW_CRAZED_DROP : Nat := 0x300204
def fSW_CRAZED_DROP : Fld := ⟨rSW_CRAZED_DROP, 31, 0⟩
/-- SW.MC_FAIL (spec/07_internal_switch_and_buffers.md), 32-bit. -/
def rSW_MC_FAIL : Nat := 0x300208
def fSW_MC_FAIL : Fld := ⟨rSW_MC_FAIL, 31, 0⟩
/-- SW.NO_DEST (spec/07_internal_switch_and_buffers.md), 32-bit. -/
def rSW_NO_DEST : Nat := 0x30020c
def fSW_NO_DEST : Fld := ⟨rSW_NO_DEST, 31, 0⟩
/-- SW.DEST_DOWN_DROP (spec/07_internal_switch_and_buffers.md), 32-bit. -/
def rSW_DEST_DOWN_DROP : Nat := 0x300210
def fSW_DEST_DOWN_DROP : Fld := ⟨rSW_DEST_DOWN_DROP, 31, 0⟩
/-- SW.IN_DROP (spec/07_internal_switch_and_buffers.md), 32-bit. -/
def rSW_IN_DROP (i : Nat) : Nat := 0x300220 + 4 * i
def fSW_IN_DROP (i : Nat) : Fld := ⟨rSW_IN_DROP i, 31, 0⟩
/-- SW.ECN_MARKED (spec/07_internal_switch_and_buffers.md), 32-bit. -/
def rSW_ECN_MARKED (i : Nat) : Nat := 0x300240 + 4 * i
def fSW_ECN_MARKED (i : Nat) : Fld := ⟨rSW_ECN_MARKED i, 31, 0⟩
/-- BUF.RES (spec/07_internal_switch_and_buffers.md), 32-bit. -/
def rBUF_RES (i : Nat) : Nat := 0x310100 + 4 * i
def fBUF_RES (i : Nat) : Fld := ⟨rBUF_RES i, 18, 0⟩
/-- BUF.OVF_CFG (spec/07_internal_switch_and_buffers.md), 32-bit. -/
def rBUF_OVF_CFG : Nat := 0x310120
def fBUF_OVF_CFG_SPILL_CELLS : Fld := ⟨rBUF_OVF_CFG, 31, 16⟩
def fBUF_OVF_CFG_OVF_EN : Fld := ⟨rBUF_OVF_CFG, 7, 0⟩
/-- BUF.OVF_BASE (spec/07_internal_switch_and_buffers.md), 64-bit. -/
def rBUF_OVF_BASE : Nat := 0x310128
/-- BUF.BANK_EN (spec/07_internal_switch_and_buffers.md), 32-bit. -/
def rBUF_BANK_EN : Nat := 0x310130
def fBUF_BANK_EN : Fld := ⟨rBUF_BANK_EN, 7, 0⟩
/-- BUF.FREE (spec/07_internal_switch_and_buffers.md), 32-bit. -/
def rBUF_FREE : Nat := 0x310140
def fBUF_FREE : Fld := ⟨rBUF_FREE, 18, 0⟩
/-- BUF.SHARED_FREE (spec/07_internal_switch_and_buffers.md), 32-bit. -/
def rBUF_SHARED_FREE : Nat := 0x310144
def fBUF_SHARED_FREE : Fld := ⟨rBUF_SHARED_FREE, 18, 0⟩
/-- BUF.OVF_USE (spec/07_internal_switch_and_buffers.md), 32-bit. -/
def rBUF_OVF_USE : Nat := 0x310148
def fBUF_OVF_USE : Fld := ⟨rBUF_OVF_USE, 24, 0⟩
/-- BUF.COMMITTED (spec/07_internal_switch_and_buffers.md), 32-bit. -/
def rBUF_COMMITTED (i : Nat) : Nat := 0x310160 + 4 * i
def fBUF_COMMITTED (i : Nat) : Fld := ⟨rBUF_COMMITTED i, 18, 0⟩
/-- BUF.CLASS_USE (spec/07_internal_switch_and_buffers.md), 32-bit. -/
def rBUF_CLASS_USE (i : Nat) : Nat := 0x310180 + 4 * i
def fBUF_CLASS_USE (i : Nat) : Fld := ⟨rBUF_CLASS_USE i, 18, 0⟩
/-- BUF.ECC_CORR (spec/07_internal_switch_and_buffers.md), 32-bit. -/
def rBUF_ECC_CORR : Nat := 0x310200
def fBUF_ECC_CORR : Fld := ⟨rBUF_ECC_CORR, 31, 0⟩
/-- MARK.CTRL (spec/08_mark_digest_engine.md), 32-bit. -/
def rMARK_CTRL (n : Nat) : Nat := 0xa00100 + 0x10000 * n
def fMARK_CTRL_JOB_LANES (n : Nat) : Fld := ⟨rMARK_CTRL n, 4, 0⟩
/-- MARK.LANE_STAT (spec/08_mark_digest_engine.md), 32-bit. -/
def rMARK_LANE_STAT (n : Nat) : Nat := 0xa00104 + 0x10000 * n
def fMARK_LANE_STAT_BUSY (n : Nat) : Fld := ⟨rMARK_LANE_STAT n, 31, 0⟩
/-- MARK.KEY_READY (spec/08_mark_digest_engine.md), 32-bit. -/
def rMARK_KEY_READY (n : Nat) : Nat := 0xa00108 + 0x10000 * n
def fMARK_KEY_READY_COUNT (n : Nat) : Fld := ⟨rMARK_KEY_READY n, 12, 0⟩
/-- MARK.KEY_REFILL (spec/08_mark_digest_engine.md), 32-bit. -/
def rMARK_KEY_REFILL (n : Nat) : Nat := 0xa0010c + 0x10000 * n
def fMARK_KEY_REFILL_BUSY (n : Nat) : Fld := ⟨rMARK_KEY_REFILL n, 31, 31⟩
def fMARK_KEY_REFILL_DONE (n : Nat) : Fld := ⟨rMARK_KEY_REFILL n, 12, 0⟩
/-- MARK.KEY_SEL (spec/08_mark_digest_engine.md), 32-bit. -/
def rMARK_KEY_SEL (n : Nat) : Nat := 0xa00110 + 0x10000 * n
def fMARK_KEY_SEL_SLOT (n : Nat) : Fld := ⟨rMARK_KEY_SEL n, 11, 0⟩
/-- MARK.KEY_INFO (spec/08_mark_digest_engine.md), 32-bit. -/
def rMARK_KEY_INFO (n : Nat) : Nat := 0xa00114 + 0x10000 * n
def fMARK_KEY_INFO_HOLDS (n : Nat) : Fld := ⟨rMARK_KEY_INFO n, 31, 16⟩
def fMARK_KEY_INFO_STATE (n : Nat) : Fld := ⟨rMARK_KEY_INFO n, 9, 8⟩
def fMARK_KEY_INFO_ALG (n : Nat) : Fld := ⟨rMARK_KEY_INFO n, 0, 0⟩
/-- MARK.PIO_CTRL (spec/08_mark_digest_engine.md), 32-bit. -/
def rMARK_PIO_CTRL (n : Nat) : Nat := 0xa00200 + 0x10000 * n
def fMARK_PIO_CTRL_BUSY (n : Nat) : Fld := ⟨rMARK_PIO_CTRL n, 31, 31⟩
def fMARK_PIO_CTRL_DONE (n : Nat) : Fld := ⟨rMARK_PIO_CTRL n, 30, 30⟩
def fMARK_PIO_CTRL_LAST_VALID (n : Nat) : Fld := ⟨rMARK_PIO_CTRL n, 27, 24⟩
def fMARK_PIO_CTRL_SLOT (n : Nat) : Fld := ⟨rMARK_PIO_CTRL n, 23, 12⟩
def fMARK_PIO_CTRL_HMAC (n : Nat) : Fld := ⟨rMARK_PIO_CTRL n, 1, 1⟩
def fMARK_PIO_CTRL_ALG (n : Nat) : Fld := ⟨rMARK_PIO_CTRL n, 0, 0⟩
/-- MARK.PIO_CMD (spec/08_mark_digest_engine.md), 32-bit. -/
def rMARK_PIO_CMD (n : Nat) : Nat := 0xa00204 + 0x10000 * n
def fMARK_PIO_CMD_START (n : Nat) : Fld := ⟨rMARK_PIO_CMD n, 0, 0⟩
/-- MARK.PIO_DATA (spec/08_mark_digest_engine.md), 64-bit. -/
def rMARK_PIO_DATA (n : Nat) : Nat := 0xa00208 + 0x10000 * n
/-- MARK.PIO_LAST (spec/08_mark_digest_engine.md), 64-bit. -/
def rMARK_PIO_LAST (n : Nat) : Nat := 0xa00210 + 0x10000 * n
/-- MARK.PIO_COUNT (spec/08_mark_digest_engine.md), 64-bit. -/
def rMARK_PIO_COUNT (n : Nat) : Nat := 0xa00218 + 0x10000 * n
/-- MARK.PIO_RESULT (spec/08_mark_digest_engine.md), 32-bit. -/
def rMARK_PIO_RESULT (n i : Nat) : Nat := 0xa00240 + 0x10000 * n + 4 * i
def fMARK_PIO_RESULT (n i : Nat) : Fld := ⟨rMARK_PIO_RESULT n i, 31, 0⟩
/-- MARK.FP_DONE (spec/08_mark_digest_engine.md), 32-bit. -/
def rMARK_FP_DONE (n : Nat) : Nat := 0xa00300 + 0x10000 * n
def fMARK_FP_DONE (n : Nat) : Fld := ⟨rMARK_FP_DONE n, 31, 0⟩
/-- MARK.FP_RESTART (spec/08_mark_digest_engine.md), 32-bit. -/
def rMARK_FP_RESTART (n : Nat) : Nat := 0xa00304 + 0x10000 * n
def fMARK_FP_RESTART (n : Nat) : Fld := ⟨rMARK_FP_RESTART n, 31, 0⟩
/-- MARK.NO_KEY_CNT (spec/08_mark_digest_engine.md), 32-bit. -/
def rMARK_NO_KEY_CNT (n : Nat) : Nat := 0xa00308 + 0x10000 * n
def fMARK_NO_KEY_CNT (n : Nat) : Fld := ⟨rMARK_NO_KEY_CNT n, 31, 0⟩
/-- MARK.ECC_CORR (spec/08_mark_digest_engine.md), 32-bit. -/
def rMARK_ECC_CORR (n : Nat) : Nat := 0xa0030c + 0x10000 * n
def fMARK_ECC_CORR (n : Nat) : Fld := ⟨rMARK_ECC_CORR n, 15, 0⟩
/-- GROG.DOM_BASE (spec/09_grog_deduplication.md), 64-bit. -/
def rGROG_DOM_BASE (n : Nat) : Nat := 0xa40108 + 0x10000 * n
/-- GROG.HOT_BASE (spec/09_grog_deduplication.md), 64-bit. -/
def rGROG_HOT_BASE (n : Nat) : Nat := 0xa40110 + 0x10000 * n
/-- GROG.ILOG_BASE (spec/09_grog_deduplication.md), 64-bit. -/
def rGROG_ILOG_BASE (n : Nat) : Nat := 0xa40118 + 0x10000 * n
/-- GROG.ILOG_PROD (spec/09_grog_deduplication.md), 64-bit. -/
def rGROG_ILOG_PROD (n : Nat) : Nat := 0xa40120 + 0x10000 * n
/-- GROG.ILOG_MERGED (spec/09_grog_deduplication.md), 64-bit. -/
def rGROG_ILOG_MERGED (n : Nat) : Nat := 0xa40128 + 0x10000 * n
/-- GROG.MERGE_CFG (spec/09_grog_deduplication.md), 32-bit. -/
def rGROG_MERGE_CFG (n : Nat) : Nat := 0xa40130 + 0x10000 * n
def fGROG_MERGE_CFG_URGENT_PCT (n : Nat) : Fld := ⟨rGROG_MERGE_CFG n, 6, 0⟩
/-- GROG.MERGE_SEQ (spec/09_grog_deduplication.md), 64-bit. -/
def rGROG_MERGE_SEQ (n : Nat) : Nat := 0xa40138 + 0x10000 * n
/-- GROG.STAT (spec/09_grog_deduplication.md), 32-bit. -/
def rGROG_STAT (n : Nat) : Nat := 0xa40140 + 0x10000 * n
def fGROG_STAT_RECONCILING (n : Nat) : Fld := ⟨rGROG_STAT n, 2, 2⟩
def fGROG_STAT_REBUILDING (n : Nat) : Fld := ⟨rGROG_STAT n, 1, 1⟩
def fGROG_STAT_PURGING (n : Nat) : Fld := ⟨rGROG_STAT n, 0, 0⟩
/-- GROG.FIDX_PAGES (spec/09_grog_deduplication.md), 32-bit. -/
def rGROG_FIDX_PAGES (n : Nat) : Nat := 0xa40144 + 0x10000 * n
def fGROG_FIDX_PAGES (n : Nat) : Fld := ⟨rGROG_FIDX_PAGES n, 31, 0⟩
/-- GROG.HOT_HIT (spec/09_grog_deduplication.md), 32-bit. -/
def rGROG_HOT_HIT (n : Nat) : Nat := 0xa40200 + 0x10000 * n
def fGROG_HOT_HIT (n : Nat) : Fld := ⟨rGROG_HOT_HIT n, 31, 0⟩
/-- GROG.FIDX_HIT (spec/09_grog_deduplication.md), 32-bit. -/
def rGROG_FIDX_HIT (n : Nat) : Nat := 0xa40204 + 0x10000 * n
def fGROG_FIDX_HIT (n : Nat) : Fld := ⟨rGROG_FIDX_HIT n, 31, 0⟩
/-- GROG.MISS (spec/09_grog_deduplication.md), 32-bit. -/
def rGROG_MISS (n : Nat) : Nat := 0xa40208 + 0x10000 * n
def fGROG_MISS (n : Nat) : Fld := ⟨rGROG_MISS n, 31, 0⟩
/-- GROG.PROBE (spec/09_grog_deduplication.md), 32-bit. -/
def rGROG_PROBE (n : Nat) : Nat := 0xa4020c + 0x10000 * n
def fGROG_PROBE (n : Nat) : Fld := ⟨rGROG_PROBE n, 31, 0⟩
/-- GROG.STALE (spec/09_grog_deduplication.md), 32-bit. -/
def rGROG_STALE (n : Nat) : Nat := 0xa40210 + 0x10000 * n
def fGROG_STALE (n : Nat) : Fld := ⟨rGROG_STALE n, 31, 0⟩
/-- GROG.COLLISION (spec/09_grog_deduplication.md), 32-bit. -/
def rGROG_COLLISION (n : Nat) : Nat := 0xa40214 + 0x10000 * n
def fGROG_COLLISION (n : Nat) : Fld := ⟨rGROG_COLLISION n, 31, 0⟩
/-- GROG.NOT_INDEXED (spec/09_grog_deduplication.md), 32-bit. -/
def rGROG_NOT_INDEXED (n : Nat) : Nat := 0xa40218 + 0x10000 * n
def fGROG_NOT_INDEXED (n : Nat) : Fld := ⟨rGROG_NOT_INDEXED n, 31, 0⟩
/-- GROG.PIN_WAIT (spec/09_grog_deduplication.md), 32-bit. -/
def rGROG_PIN_WAIT (n : Nat) : Nat := 0xa4021c + 0x10000 * n
def fGROG_PIN_WAIT (n : Nat) : Fld := ⟨rGROG_PIN_WAIT n, 31, 0⟩
/-- WEDGE.CTRL (spec/10_wedge_compression.md), 32-bit. -/
def rWEDGE_CTRL (n : Nat) : Nat := 0xa80100 + 0x10000 * n
def fWEDGE_CTRL_JOB_DECOMP (n : Nat) : Fld := ⟨rWEDGE_CTRL n, 10, 8⟩
def fWEDGE_CTRL_JOB_COMP (n : Nat) : Fld := ⟨rWEDGE_CTRL n, 2, 0⟩
/-- WEDGE.BUSY (spec/10_wedge_compression.md), 32-bit. -/
def rWEDGE_BUSY (n : Nat) : Nat := 0xa80104 + 0x10000 * n
def fWEDGE_BUSY_DECOMP (n : Nat) : Fld := ⟨rWEDGE_BUSY n, 31, 16⟩
def fWEDGE_BUSY_COMP (n : Nat) : Fld := ⟨rWEDGE_BUSY n, 11, 0⟩
/-- WEDGE.IN_BYTES (spec/10_wedge_compression.md), 64-bit. -/
def rWEDGE_IN_BYTES (n : Nat) : Nat := 0xa80108 + 0x10000 * n
/-- WEDGE.OUT_BYTES (spec/10_wedge_compression.md), 64-bit. -/
def rWEDGE_OUT_BYTES (n : Nat) : Nat := 0xa80110 + 0x10000 * n
/-- WEDGE.UNITS (spec/10_wedge_compression.md), 32-bit. -/
def rWEDGE_UNITS (n : Nat) : Nat := 0xa80200 + 0x10000 * n
def fWEDGE_UNITS (n : Nat) : Fld := ⟨rWEDGE_UNITS n, 31, 0⟩
/-- WEDGE.STORED (spec/10_wedge_compression.md), 32-bit. -/
def rWEDGE_STORED (n : Nat) : Nat := 0xa80204 + 0x10000 * n
def fWEDGE_STORED (n : Nat) : Fld := ⟨rWEDGE_STORED n, 31, 0⟩
/-- WEDGE.VERIFY_FAIL (spec/10_wedge_compression.md), 32-bit. -/
def rWEDGE_VERIFY_FAIL (n : Nat) : Nat := 0xa80208 + 0x10000 * n
def fWEDGE_VERIFY_FAIL (n : Nat) : Fld := ⟨rWEDGE_VERIFY_FAIL n, 31, 0⟩
/-- WEDGE.DECODED (spec/10_wedge_compression.md), 32-bit. -/
def rWEDGE_DECODED (n : Nat) : Nat := 0xa8020c + 0x10000 * n
def fWEDGE_DECODED (n : Nat) : Fld := ⟨rWEDGE_DECODED n, 31, 0⟩
/-- WEDGE.DECODE_ERR (spec/10_wedge_compression.md), 32-bit. -/
def rWEDGE_DECODE_ERR (n : Nat) : Nat := 0xa80210 + 0x10000 * n
def fWEDGE_DECODE_ERR (n : Nat) : Fld := ⟨rWEDGE_DECODE_ERR n, 31, 0⟩
/-- WEDGE.JOBS (spec/10_wedge_compression.md), 32-bit. -/
def rWEDGE_JOBS (n : Nat) : Nat := 0xa80214 + 0x10000 * n
def fWEDGE_JOBS (n : Nat) : Fld := ⟨rWEDGE_JOBS n, 31, 0⟩
/-- KEYS.CTRL (spec/11_ciphers_keys_and_tamper.md), 32-bit. -/
def rKEYS_CTRL : Nat := 0x4d0100
def fKEYS_CTRL_PLAIN_EN : Fld := ⟨rKEYS_CTRL, 0, 0⟩
/-- KEYS.WRAP_BASE (spec/11_ciphers_keys_and_tamper.md), 64-bit. -/
def rKEYS_WRAP_BASE : Nat := 0x4d0108
/-- KEYS.ACTIVE (spec/11_ciphers_keys_and_tamper.md), 32-bit. -/
def rKEYS_ACTIVE : Nat := 0x4d0110
def fKEYS_ACTIVE : Fld := ⟨rKEYS_ACTIVE, 12, 0⟩
/-- KEYS.PINNED (spec/11_ciphers_keys_and_tamper.md), 32-bit. -/
def rKEYS_PINNED : Nat := 0x4d0114
def fKEYS_PINNED : Fld := ⟨rKEYS_PINNED, 10, 0⟩
/-- KEYS.KEK_VALID (spec/11_ciphers_keys_and_tamper.md), 32-bit. -/
def rKEYS_KEK_VALID : Nat := 0x4d0118
def fKEYS_KEK_VALID : Fld := ⟨rKEYS_KEK_VALID, 7, 0⟩
/-- KEYS.STAT (spec/11_ciphers_keys_and_tamper.md), 32-bit. -/
def rKEYS_STAT : Nat := 0x4d0120
def fKEYS_STAT_ZEROIZED : Fld := ⟨rKEYS_STAT, 0, 0⟩
/-- KEYS.FAULT_CNT (spec/11_ciphers_keys_and_tamper.md), 32-bit. -/
def rKEYS_FAULT_CNT : Nat := 0x4d0200
def fKEYS_FAULT_CNT : Fld := ⟨rKEYS_FAULT_CNT, 31, 0⟩
/-- KEYS.INTEGRITY_ERR (spec/11_ciphers_keys_and_tamper.md), 32-bit. -/
def rKEYS_INTEGRITY_ERR : Nat := 0x4d0204
def fKEYS_INTEGRITY_ERR : Fld := ⟨rKEYS_INTEGRITY_ERR, 15, 0⟩
/-- DCIPH.BUSY (spec/11_ciphers_keys_and_tamper.md), 32-bit. -/
def rDCIPH_BUSY (n : Nat) : Nat := 0xac0104 + 0x10000 * n
def fDCIPH_BUSY (n : Nat) : Fld := ⟨rDCIPH_BUSY n, 15, 0⟩
/-- DCIPH.ENC_UNITS (spec/11_ciphers_keys_and_tamper.md), 32-bit. -/
def rDCIPH_ENC_UNITS (n : Nat) : Nat := 0xac0200 + 0x10000 * n
def fDCIPH_ENC_UNITS (n : Nat) : Fld := ⟨rDCIPH_ENC_UNITS n, 31, 0⟩
/-- DCIPH.DEC_UNITS (spec/11_ciphers_keys_and_tamper.md), 32-bit. -/
def rDCIPH_DEC_UNITS (n : Nat) : Nat := 0xac0204 + 0x10000 * n
def fDCIPH_DEC_UNITS (n : Nat) : Fld := ⟨rDCIPH_DEC_UNITS n, 31, 0⟩
/-- DCIPH.KEY_WAIT (spec/11_ciphers_keys_and_tamper.md), 32-bit. -/
def rDCIPH_KEY_WAIT (n : Nat) : Nat := 0xac0208 + 0x10000 * n
def fDCIPH_KEY_WAIT (n : Nat) : Fld := ⟨rDCIPH_KEY_WAIT n, 31, 0⟩
/-- DCIPH.GUARD_ERR (spec/11_ciphers_keys_and_tamper.md), 32-bit. -/
def rDCIPH_GUARD_ERR (n : Nat) : Nat := 0xac020c + 0x10000 * n
def fDCIPH_GUARD_ERR (n : Nat) : Fld := ⟨rDCIPH_GUARD_ERR n, 15, 0⟩
/-- GCIPH.LOCK (spec/11_ciphers_keys_and_tamper.md), 32-bit. -/
def rGCIPH_LOCK : Nat := 0x4c0100
def fGCIPH_LOCK_BUSY : Fld := ⟨rGCIPH_LOCK, 24, 24⟩
def fGCIPH_LOCK_STATE : Fld := ⟨rGCIPH_LOCK, 17, 16⟩
def fGCIPH_LOCK_OWNER : Fld := ⟨rGCIPH_LOCK, 15, 8⟩
def fGCIPH_LOCK_REQ : Fld := ⟨rGCIPH_LOCK, 7, 0⟩
/-- GCIPH.RELEASE (spec/11_ciphers_keys_and_tamper.md), 32-bit. -/
def rGCIPH_RELEASE : Nat := 0x4c0104
def fGCIPH_RELEASE : Fld := ⟨rGCIPH_RELEASE, 7, 0⟩
/-- GCIPH.FORCE_RELEASE (spec/11_ciphers_keys_and_tamper.md), 32-bit. -/
def rGCIPH_FORCE_RELEASE : Nat := 0x4c0108
def fGCIPH_FORCE_RELEASE : Fld := ⟨rGCIPH_FORCE_RELEASE, 0, 0⟩
/-- GCIPH.LEASE (spec/11_ciphers_keys_and_tamper.md), 32-bit. -/
def rGCIPH_LEASE : Nat := 0x4c010c
def fGCIPH_LEASE_LEASE_MS : Fld := ⟨rGCIPH_LEASE, 13, 0⟩
/-- GCIPH.WAIT (spec/11_ciphers_keys_and_tamper.md), 32-bit. -/
def rGCIPH_WAIT : Nat := 0x4c0110
def fGCIPH_WAIT_ARM : Fld := ⟨rGCIPH_WAIT, 0, 0⟩
/-- GCIPH.LEASE_LEFT (spec/11_ciphers_keys_and_tamper.md), 32-bit. -/
def rGCIPH_LEASE_LEFT : Nat := 0x4c0114
def fGCIPH_LEASE_LEFT : Fld := ⟨rGCIPH_LEASE_LEFT, 23, 0⟩
/-- GCIPH.STAT (spec/11_ciphers_keys_and_tamper.md), 32-bit. -/
def rGCIPH_STAT : Nat := 0x4c0118
def fGCIPH_STAT_MODE : Fld := ⟨rGCIPH_STAT, 3, 1⟩
def fGCIPH_STAT_MSG_OPEN : Fld := ⟨rGCIPH_STAT, 0, 0⟩
/-- GCIPH.BUSY_CNT (spec/11_ciphers_keys_and_tamper.md), 32-bit. -/
def rGCIPH_BUSY_CNT : Nat := 0x4c0200
def fGCIPH_BUSY_CNT : Fld := ⟨rGCIPH_BUSY_CNT, 31, 0⟩
/-- GCIPH.ABORT_CNT (spec/11_ciphers_keys_and_tamper.md), 32-bit. -/
def rGCIPH_ABORT_CNT : Nat := 0x4c0204
def fGCIPH_ABORT_CNT : Fld := ⟨rGCIPH_ABORT_CNT, 15, 0⟩
/-- GCIPH.TAG_FAIL (spec/11_ciphers_keys_and_tamper.md), 32-bit. -/
def rGCIPH_TAG_FAIL : Nat := 0x4c0208
def fGCIPH_TAG_FAIL : Fld := ⟨rGCIPH_TAG_FAIL, 15, 0⟩
/-- TAMP.CLASS (spec/11_ciphers_keys_and_tamper.md), 32-bit. -/
def rTAMP_CLASS : Nat := 0x4e0100
def fTAMP_CLASS : Fld := ⟨rTAMP_CLASS, 5, 0⟩
/-- TAMP.LATCH (spec/11_ciphers_keys_and_tamper.md), 32-bit. -/
def rTAMP_LATCH : Nat := 0x4e0104
def fTAMP_LATCH : Fld := ⟨rTAMP_LATCH, 5, 0⟩
/-- TAMP.WARN (spec/11_ciphers_keys_and_tamper.md), 32-bit. -/
def rTAMP_WARN : Nat := 0x4e0108
def fTAMP_WARN : Fld := ⟨rTAMP_WARN, 5, 0⟩
/-- TAMP.STATE (spec/11_ciphers_keys_and_tamper.md), 32-bit. -/
def rTAMP_STATE : Nat := 0x4e010c
def fTAMP_STATE_ALARM_N_LOW : Fld := ⟨rTAMP_STATE, 1, 1⟩
def fTAMP_STATE_ZEROIZED : Fld := ⟨rTAMP_STATE, 0, 0⟩
/-- TAMP.READING (spec/11_ciphers_keys_and_tamper.md), 32-bit. -/
def rTAMP_READING (i : Nat) : Nat := 0x4e0110 + 4 * i
def fTAMP_READING (i : Nat) : Fld := ⟨rTAMP_READING i, 15, 0⟩
/-- TAMP.ZERO_TIME (spec/11_ciphers_keys_and_tamper.md), 32-bit. -/
def rTAMP_ZERO_TIME : Nat := 0x4e0130
def fTAMP_ZERO_TIME : Fld := ⟨rTAMP_ZERO_TIME, 15, 0⟩
/-- LMAP.VOL_BASE (spec/12_volumes_maps_and_moulds.md), 64-bit. -/
def rLMAP_VOL_BASE : Nat := 0x500108
/-- LMAP.TEN_BASE (spec/12_volumes_maps_and_moulds.md), 64-bit. -/
def rLMAP_TEN_BASE : Nat := 0x500110
/-- LMAP.CACHE_BASE (spec/12_volumes_maps_and_moulds.md), 64-bit. -/
def rLMAP_CACHE_BASE : Nat := 0x500118
/-- LMAP.CACHE_CFG (spec/12_volumes_maps_and_moulds.md), 32-bit. -/
def rLMAP_CACHE_CFG : Nat := 0x500120
def fLMAP_CACHE_CFG_DIRTY_PCT : Fld := ⟨rLMAP_CACHE_CFG, 6, 0⟩
/-- LMAP.DIRTY (spec/12_volumes_maps_and_moulds.md), 32-bit. -/
def rLMAP_DIRTY : Nat := 0x500124
def fLMAP_DIRTY : Fld := ⟨rLMAP_DIRTY, 23, 0⟩
/-- LMAP.CREATE_SEQ (spec/12_volumes_maps_and_moulds.md), 64-bit. -/
def rLMAP_CREATE_SEQ : Nat := 0x500128
/-- LMAP.COMMIT_SEQ (spec/12_volumes_maps_and_moulds.md), 64-bit. -/
def rLMAP_COMMIT_SEQ : Nat := 0x500130
/-- LMAP.CID_FREE (spec/12_volumes_maps_and_moulds.md), 64-bit. -/
def rLMAP_CID_FREE : Nat := 0x500138
/-- LMAP.PAGE_MISS (spec/12_volumes_maps_and_moulds.md), 32-bit. -/
def rLMAP_PAGE_MISS : Nat := 0x500200
def fLMAP_PAGE_MISS : Fld := ⟨rLMAP_PAGE_MISS, 31, 0⟩
/-- LMAP.PAGE_WB (spec/12_volumes_maps_and_moulds.md), 32-bit. -/
def rLMAP_PAGE_WB : Nat := 0x500204
def fLMAP_PAGE_WB : Fld := ⟨rLMAP_PAGE_WB, 31, 0⟩
/-- LMAP.PAGE_COPY (spec/12_volumes_maps_and_moulds.md), 32-bit. -/
def rLMAP_PAGE_COPY : Nat := 0x500208
def fLMAP_PAGE_COPY : Fld := ⟨rLMAP_PAGE_COPY, 31, 0⟩
/-- LMAP.REF_OPS (spec/12_volumes_maps_and_moulds.md), 32-bit. -/
def rLMAP_REF_OPS : Nat := 0x50020c
def fLMAP_REF_OPS : Fld := ⟨rLMAP_REF_OPS, 31, 0⟩
/-- MOULD.TABLE_BASE (spec/12_volumes_maps_and_moulds.md), 64-bit. -/
def rMOULD_TABLE_BASE : Nat := 0x510108
/-- MOULD.COUNT (spec/12_volumes_maps_and_moulds.md), 32-bit. -/
def rMOULD_COUNT : Nat := 0x510110
def fMOULD_COUNT : Fld := ⟨rMOULD_COUNT, 20, 0⟩
/-- MOULD.SEALING (spec/12_volumes_maps_and_moulds.md), 32-bit. -/
def rMOULD_SEALING : Nat := 0x510114
def fMOULD_SEALING : Fld := ⟨rMOULD_SEALING, 20, 0⟩
/-- MOULD.LAST_HOLD (spec/12_volumes_maps_and_moulds.md), 32-bit. -/
def rMOULD_LAST_HOLD : Nat := 0x510118
def fMOULD_LAST_HOLD : Fld := ⟨rMOULD_LAST_HOLD, 19, 0⟩
/-- MOULD.DELETE_LEFT (spec/12_volumes_maps_and_moulds.md), 32-bit. -/
def rMOULD_DELETE_LEFT : Nat := 0x51011c
def fMOULD_DELETE_LEFT : Fld := ⟨rMOULD_DELETE_LEFT, 31, 0⟩
/-- SLIP.REP_BASE (spec/13_slipcast_replication.md), 64-bit. -/
def rSLIP_REP_BASE : Nat := 0x520108
/-- SLIP.SYNC_CFG (spec/13_slipcast_replication.md), 32-bit. -/
def rSLIP_SYNC_CFG : Nat := 0x520110
def fSLIP_SYNC_CFG_FINAL_REGIONS : Fld := ⟨rSLIP_SYNC_CFG, 31, 16⟩
def fSLIP_SYNC_CFG_ACK_TIMEOUT_US : Fld := ⟨rSLIP_SYNC_CFG, 15, 0⟩
/-- SLIP.TGT_CFG (spec/13_slipcast_replication.md), 32-bit. -/
def rSLIP_TGT_CFG : Nat := 0x520114
def fSLIP_TGT_CFG_CLASS : Fld := ⟨rSLIP_TGT_CFG, 2, 0⟩
/-- SLIP.RECORDS_SENT (spec/13_slipcast_replication.md), 32-bit. -/
def rSLIP_RECORDS_SENT : Nat := 0x520200
def fSLIP_RECORDS_SENT : Fld := ⟨rSLIP_RECORDS_SENT, 31, 0⟩
/-- SLIP.RECORDS_APPLIED (spec/13_slipcast_replication.md), 32-bit. -/
def rSLIP_RECORDS_APPLIED : Nat := 0x520204
def fSLIP_RECORDS_APPLIED : Fld := ⟨rSLIP_RECORDS_APPLIED, 31, 0⟩
/-- SLIP.SYNC_FAIL (spec/13_slipcast_replication.md), 32-bit. -/
def rSLIP_SYNC_FAIL : Nat := 0x520208
def fSLIP_SYNC_FAIL : Fld := ⟨rSLIP_SYNC_FAIL, 31, 0⟩
/-- SLIP.DUP_DROP (spec/13_slipcast_replication.md), 32-bit. -/
def rSLIP_DUP_DROP : Nat := 0x52020c
def fSLIP_DUP_DROP : Fld := ⟨rSLIP_DUP_DROP, 31, 0⟩
/-- SLIP.BACKLOG_BITS (spec/13_slipcast_replication.md), 32-bit. -/
def rSLIP_BACKLOG_BITS : Nat := 0x520210
def fSLIP_BACKLOG_BITS : Fld := ⟨rSLIP_BACKLOG_BITS, 31, 0⟩
/-- FTL.CTRL (spec/14_flash_translation.md), 32-bit. -/
def rFTL_CTRL : Nat := 0x580100
def fFTL_CTRL_PATROL_EN : Fld := ⟨rFTL_CTRL, 0, 0⟩
/-- FTL.BLOCK_BASE (spec/14_flash_translation.md), 64-bit. -/
def rFTL_BLOCK_BASE : Nat := 0x580108
/-- FTL.SEG_BASE (spec/14_flash_translation.md), 64-bit. -/
def rFTL_SEG_BASE : Nat := 0x580110
/-- FTL.MPD_BASE (spec/14_flash_translation.md), 64-bit. -/
def rFTL_MPD_BASE : Nat := 0x580118
/-- FTL.MPD_LIMIT (spec/14_flash_translation.md), 32-bit. -/
def rFTL_MPD_LIMIT (i : Nat) : Nat := 0x580120 + 4 * i
def fFTL_MPD_LIMIT (i : Nat) : Fld := ⟨rFTL_MPD_LIMIT i, 28, 0⟩
/-- FTL.PSLC_CFG (spec/14_flash_translation.md), 32-bit. -/
def rFTL_PSLC_CFG : Nat := 0x580130
def fFTL_PSLC_CFG_P_MAX : Fld := ⟨rFTL_PSLC_CFG, 27, 16⟩
def fFTL_PSLC_CFG_P_MIN : Fld := ⟨rFTL_PSLC_CFG, 11, 0⟩
/-- FTL.ROW_CFG (spec/14_flash_translation.md), 32-bit. -/
def rFTL_ROW_CFG : Nat := 0x580134
def fFTL_ROW_CFG_FILL_US : Fld := ⟨rFTL_ROW_CFG, 15, 0⟩
/-- FTL.READ_CFG (spec/14_flash_translation.md), 32-bit. -/
def rFTL_READ_CFG : Nat := 0x580138
def fFTL_READ_CFG_SOFT_EN : Fld := ⟨rFTL_READ_CFG, 8, 8⟩
def fFTL_READ_CFG_RETRY_MAX : Fld := ⟨rFTL_READ_CFG, 3, 0⟩
/-- FTL.BAD_CFG (spec/14_flash_translation.md), 32-bit. -/
def rFTL_BAD_CFG : Nat := 0x58013c
def fFTL_BAD_CFG_MEMBER_LIMIT : Fld := ⟨rFTL_BAD_CFG, 25, 16⟩
def fFTL_BAD_CFG_REFRESH_RETIRE : Fld := ⟨rFTL_BAD_CFG, 11, 8⟩
def fFTL_BAD_CFG_REFRESH_LEVEL : Fld := ⟨rFTL_BAD_CFG, 3, 0⟩
/-- FTL.WEAR_CFG (spec/14_flash_translation.md), 32-bit. -/
def rFTL_WEAR_CFG : Nat := 0x580140
def fFTL_WEAR_CFG_WARN_ERASES : Fld := ⟨rFTL_WEAR_CFG, 23, 0⟩
/-- FTL.PATROL_CFG (spec/14_flash_translation.md), 32-bit. -/
def rFTL_PATROL_CFG : Nat := 0x580144
def fFTL_PATROL_CFG_PATROL_DAYS : Fld := ⟨rFTL_PATROL_CFG, 15, 0⟩
/-- FTL.RESERVE_CFG (spec/14_flash_translation.md), 32-bit. -/
def rFTL_RESERVE_CFG : Nat := 0x580148
def fFTL_RESERVE_CFG_GC_SEGS : Fld := ⟨rFTL_RESERVE_CFG, 15, 0⟩
/-- FTL.CKPT_CFG (spec/14_flash_translation.md), 32-bit. -/
def rFTL_CKPT_CFG : Nat := 0x58014c
def fFTL_CKPT_CFG_FULL_EVERY : Fld := ⟨rFTL_CKPT_CFG, 31, 24⟩
def fFTL_CKPT_CFG_INTERVAL_MS : Fld := ⟨rFTL_CKPT_CFG, 15, 0⟩
/-- FTL.STREAM_CFG (spec/14_flash_translation.md), 32-bit. -/
def rFTL_STREAM_CFG (i : Nat) : Nat := 0x580150 + 4 * i
def fFTL_STREAM_CFG_OPEN_MAX (i : Nat) : Fld := ⟨rFTL_STREAM_CFG i, 7, 0⟩
/-- FTL.MLOG_BASE (spec/14_flash_translation.md), 64-bit. -/
def rFTL_MLOG_BASE : Nat := 0x580170
/-- FTL.MLOG_CFG (spec/14_flash_translation.md), 32-bit. -/
def rFTL_MLOG_CFG : Nat := 0x580178
def fFTL_MLOG_CFG_MLOG_LOG2 : Fld := ⟨rFTL_MLOG_CFG, 4, 0⟩
/-- FTL.MLOG_PROD (spec/14_flash_translation.md), 64-bit. -/
def rFTL_MLOG_PROD : Nat := 0x580180
/-- FTL.MLOG_CONS (spec/14_flash_translation.md), 64-bit. -/
def rFTL_MLOG_CONS : Nat := 0x580188
/-- FTL.FREE_GRAINS (spec/14_flash_translation.md), 64-bit. -/
def rFTL_FREE_GRAINS : Nat := 0x580190
/-- FTL.CKPT_SEQ (spec/14_flash_translation.md), 64-bit. -/
def rFTL_CKPT_SEQ : Nat := 0x580198
/-- FTL.GROUP_SEL (spec/14_flash_translation.md), 32-bit. -/
def rFTL_GROUP_SEL : Nat := 0x5801a0
def fFTL_GROUP_SEL : Fld := ⟨rFTL_GROUP_SEL, 1, 0⟩
/-- FTL.GROUP_BUDGET (spec/14_flash_translation.md), 32-bit. -/
def rFTL_GROUP_BUDGET : Nat := 0x5801a4
def fFTL_GROUP_BUDGET : Fld := ⟨rFTL_GROUP_BUDGET, 21, 0⟩
/-- FTL.GROUP_PSLC (spec/14_flash_translation.md), 32-bit. -/
def rFTL_GROUP_PSLC : Nat := 0x5801a8
def fFTL_GROUP_PSLC : Fld := ⟨rFTL_GROUP_PSLC, 21, 0⟩
/-- FTL.GROUP_FREE (spec/14_flash_translation.md), 32-bit. -/
def rFTL_GROUP_FREE : Nat := 0x5801ac
def fFTL_GROUP_FREE : Fld := ⟨rFTL_GROUP_FREE, 21, 0⟩
/-- FTL.GROUP_EMEAN (spec/14_flash_translation.md), 32-bit. -/
def rFTL_GROUP_EMEAN : Nat := 0x5801b0
def fFTL_GROUP_EMEAN : Fld := ⟨rFTL_GROUP_EMEAN, 23, 0⟩
/-- FTL.READ_RETRY (spec/14_flash_translation.md), 32-bit. -/
def rFTL_READ_RETRY : Nat := 0x580200
def fFTL_READ_RETRY : Fld := ⟨rFTL_READ_RETRY, 31, 0⟩
/-- FTL.SOFT_DECODE (spec/14_flash_translation.md), 32-bit. -/
def rFTL_SOFT_DECODE : Nat := 0x580204
def fFTL_SOFT_DECODE : Fld := ⟨rFTL_SOFT_DECODE, 31, 0⟩
/-- FTL.UNCORRECTABLE (spec/14_flash_translation.md), 32-bit. -/
def rFTL_UNCORRECTABLE : Nat := 0x580208
def fFTL_UNCORRECTABLE : Fld := ⟨rFTL_UNCORRECTABLE, 31, 0⟩
/-- FTL.PROG_FAIL (spec/14_flash_translation.md), 32-bit. -/
def rFTL_PROG_FAIL : Nat := 0x58020c
def fFTL_PROG_FAIL : Fld := ⟨rFTL_PROG_FAIL, 31, 0⟩
/-- FTL.ERASE_FAIL (spec/14_flash_translation.md), 32-bit. -/
def rFTL_ERASE_FAIL : Nat := 0x580210
def fFTL_ERASE_FAIL : Fld := ⟨rFTL_ERASE_FAIL, 31, 0⟩
/-- FTL.PAD_GRAINS (spec/14_flash_translation.md), 32-bit. -/
def rFTL_PAD_GRAINS : Nat := 0x580214
def fFTL_PAD_GRAINS : Fld := ⟨rFTL_PAD_GRAINS, 31, 0⟩
/-- FTL.MAP_READS (spec/14_flash_translation.md), 32-bit. -/
def rFTL_MAP_READS : Nat := 0x580218
def fFTL_MAP_READS : Fld := ⟨rFTL_MAP_READS, 31, 0⟩
/-- FTL.MLOG_LOST (spec/14_flash_translation.md), 32-bit. -/
def rFTL_MLOG_LOST : Nat := 0x58021c
def fFTL_MLOG_LOST : Fld := ⟨rFTL_MLOG_LOST, 31, 0⟩
/-- FTL.RETIRED (spec/14_flash_translation.md), 32-bit. -/
def rFTL_RETIRED : Nat := 0x580220
def fFTL_RETIRED : Fld := ⟨rFTL_RETIRED, 31, 0⟩
/-- PUG.CTRL (spec/15_pug_garbage_collection.md), 32-bit. -/
def rPUG_CTRL : Nat := 0x590100
def fPUG_CTRL_ACTIVE_MAX : Fld := ⟨rPUG_CTRL, 11, 8⟩
def fPUG_CTRL_FOLD_EN : Fld := ⟨rPUG_CTRL, 1, 1⟩
def fPUG_CTRL_AUTO : Fld := ⟨rPUG_CTRL, 0, 0⟩
/-- PUG.AGE_CFG (spec/15_pug_garbage_collection.md), 32-bit. -/
def rPUG_AGE_CFG : Nat := 0x590104
def fPUG_AGE_CFG_A_CAP_H : Fld := ⟨rPUG_AGE_CFG, 27, 16⟩
def fPUG_AGE_CFG_A_REF_H : Fld := ⟨rPUG_AGE_CFG, 9, 0⟩
/-- PUG.WEIGHT_CFG (spec/15_pug_garbage_collection.md), 32-bit. -/
def rPUG_WEIGHT_CFG : Nat := 0x590108
def fPUG_WEIGHT_CFG_U_FLOOR : Fld := ⟨rPUG_WEIGHT_CFG, 31, 16⟩
def fPUG_WEIGHT_CFG_K_W : Fld := ⟨rPUG_WEIGHT_CFG, 15, 0⟩
/-- PUG.FREE_CFG (spec/15_pug_garbage_collection.md), 32-bit. -/
def rPUG_FREE_CFG : Nat := 0x59010c
def fPUG_FREE_CFG_START_BLOCKS : Fld := ⟨rPUG_FREE_CFG, 31, 16⟩
def fPUG_FREE_CFG_URGENT_BLOCKS : Fld := ⟨rPUG_FREE_CFG, 15, 0⟩
/-- PUG.SHARE_CFG (spec/15_pug_garbage_collection.md), 32-bit. -/
def rPUG_SHARE_CFG : Nat := 0x590110
def fPUG_SHARE_CFG_URGENT_PCT : Fld := ⟨rPUG_SHARE_CFG, 14, 8⟩
def fPUG_SHARE_CFG_SHARE_PCT : Fld := ⟨rPUG_SHARE_CFG, 6, 0⟩
/-- PUG.CKPT_CFG (spec/15_pug_garbage_collection.md), 32-bit. -/
def rPUG_CKPT_CFG : Nat := 0x590114
def fPUG_CKPT_CFG_WAIT_MS : Fld := ⟨rPUG_CKPT_CFG, 31, 16⟩
def fPUG_CKPT_CFG_RELEASED_MAX : Fld := ⟨rPUG_CKPT_CFG, 7, 0⟩
/-- PUG.GROUP_SEL (spec/15_pug_garbage_collection.md), 32-bit. -/
def rPUG_GROUP_SEL : Nat := 0x590118
def fPUG_GROUP_SEL : Fld := ⟨rPUG_GROUP_SEL, 1, 0⟩
/-- PUG.GROUP_STATE (spec/15_pug_garbage_collection.md), 32-bit. -/
def rPUG_GROUP_STATE : Nat := 0x59011c
def fPUG_GROUP_STATE_RELEASED : Fld := ⟨rPUG_GROUP_STATE, 25, 8⟩
def fPUG_GROUP_STATE_LEVEL : Fld := ⟨rPUG_GROUP_STATE, 1, 0⟩
/-- PUG.VICTIM (spec/15_pug_garbage_collection.md), 32-bit. -/
def rPUG_VICTIM : Nat := 0x590120
def fPUG_VICTIM : Fld := ⟨rPUG_VICTIM, 31, 0⟩
/-- PUG.VICTIM_SCORE (spec/15_pug_garbage_collection.md), 32-bit. -/
def rPUG_VICTIM_SCORE : Nat := 0x590124
def fPUG_VICTIM_SCORE : Fld := ⟨rPUG_VICTIM_SCORE, 31, 0⟩
/-- PUG.F_AVAIL (spec/15_pug_garbage_collection.md), 32-bit. -/
def rPUG_F_AVAIL : Nat := 0x590128
def fPUG_F_AVAIL : Fld := ⟨rPUG_F_AVAIL, 31, 0⟩
/-- PUG.RECLAIM_CREDIT (spec/15_pug_garbage_collection.md), 64-bit. -/
def rPUG_RECLAIM_CREDIT : Nat := 0x590130
/-- PUG.SEGS_RECLAIMED (spec/15_pug_garbage_collection.md), 32-bit. -/
def rPUG_SEGS_RECLAIMED : Nat := 0x590200
def fPUG_SEGS_RECLAIMED : Fld := ⟨rPUG_SEGS_RECLAIMED, 31, 0⟩
/-- PUG.GRAINS_MOVED (spec/15_pug_garbage_collection.md), 32-bit. -/
def rPUG_GRAINS_MOVED : Nat := 0x590204
def fPUG_GRAINS_MOVED : Fld := ⟨rPUG_GRAINS_MOVED, 31, 0⟩
/-- PUG.MOVES_VOID (spec/15_pug_garbage_collection.md), 32-bit. -/
def rPUG_MOVES_VOID : Nat := 0x590208
def fPUG_MOVES_VOID : Fld := ⟨rPUG_MOVES_VOID, 31, 0⟩
/-- PUG.SRC_RECON (spec/15_pug_garbage_collection.md), 32-bit. -/
def rPUG_SRC_RECON : Nat := 0x59020c
def fPUG_SRC_RECON : Fld := ⟨rPUG_SRC_RECON, 31, 0⟩
/-- PUG.DEST_FAIL (spec/15_pug_garbage_collection.md), 32-bit. -/
def rPUG_DEST_FAIL : Nat := 0x590210
def fPUG_DEST_FAIL : Fld := ⟨rPUG_DEST_FAIL, 31, 0⟩
/-- PUG.ERASE_REFUSED (spec/15_pug_garbage_collection.md), 32-bit. -/
def rPUG_ERASE_REFUSED : Nat := 0x590214
def fPUG_ERASE_REFUSED : Fld := ⟨rPUG_ERASE_REFUSED, 31, 0⟩
/-- PUG.HOST_WAIT (spec/15_pug_garbage_collection.md), 32-bit. -/
def rPUG_HOST_WAIT : Nat := 0x590218
def fPUG_HOST_WAIT : Fld := ⟨rPUG_HOST_WAIT, 31, 0⟩
/-- PUG.POISONED (spec/15_pug_garbage_collection.md), 32-bit. -/
def rPUG_POISONED : Nat := 0x59021c
def fPUG_POISONED : Fld := ⟨rPUG_POISONED, 31, 0⟩
/-- PAR.GROUP_SEL (spec/16_parity_saggar_and_rebuild.md), 32-bit. -/
def rPAR_GROUP_SEL : Nat := 0x5a0100
def fPAR_GROUP_SEL : Fld := ⟨rPAR_GROUP_SEL, 1, 0⟩
/-- PAR.GROUP_MEMBERS (spec/16_parity_saggar_and_rebuild.md), 32-bit. -/
def rPAR_GROUP_MEMBERS : Nat := 0x5a0104
def fPAR_GROUP_MEMBERS : Fld := ⟨rPAR_GROUP_MEMBERS, 23, 0⟩
/-- PAR.GROUP_CFG (spec/16_parity_saggar_and_rebuild.md), 32-bit. -/
def rPAR_GROUP_CFG : Nat := 0x5a0108
def fPAR_GROUP_CFG_EXISTS : Fld := ⟨rPAR_GROUP_CFG, 31, 31⟩
def fPAR_GROUP_CFG_SPARE_B : Fld := ⟨rPAR_GROUP_CFG, 28, 24⟩
def fPAR_GROUP_CFG_SPARE_A : Fld := ⟨rPAR_GROUP_CFG, 20, 16⟩
def fPAR_GROUP_CFG_SPARE_B_VALID : Fld := ⟨rPAR_GROUP_CFG, 15, 15⟩
def fPAR_GROUP_CFG_SPARE_A_VALID : Fld := ⟨rPAR_GROUP_CFG, 14, 14⟩
def fPAR_GROUP_CFG_SPARE : Fld := ⟨rPAR_GROUP_CFG, 9, 8⟩
def fPAR_GROUP_CFG_MODE : Fld := ⟨rPAR_GROUP_CFG, 0, 0⟩
/-- PAR.GROUP_STATE (spec/16_parity_saggar_and_rebuild.md), 32-bit. -/
def rPAR_GROUP_STATE : Nat := 0x5a010c
def fPAR_GROUP_STATE_STATE : Fld := ⟨rPAR_GROUP_STATE, 17, 16⟩
def fPAR_GROUP_STATE_F : Fld := ⟨rPAR_GROUP_STATE, 4, 0⟩
/-- PAR.REPAIR_1 (spec/16_parity_saggar_and_rebuild.md), 32-bit. -/
def rPAR_REPAIR_1 : Nat := 0x5a0200
def fPAR_REPAIR_1 : Fld := ⟨rPAR_REPAIR_1, 31, 0⟩
/-- PAR.REPAIR_2 (spec/16_parity_saggar_and_rebuild.md), 32-bit. -/
def rPAR_REPAIR_2 : Nat := 0x5a0204
def fPAR_REPAIR_2 : Fld := ⟨rPAR_REPAIR_2, 31, 0⟩
/-- PAR.TAG_ERR (spec/16_parity_saggar_and_rebuild.md), 32-bit. -/
def rPAR_TAG_ERR : Nat := 0x5a0208
def fPAR_TAG_ERR : Fld := ⟨rPAR_TAG_ERR, 31, 0⟩
/-- PAR.LOST_UNITS (spec/16_parity_saggar_and_rebuild.md), 32-bit. -/
def rPAR_LOST_UNITS : Nat := 0x5a020c
def fPAR_LOST_UNITS : Fld := ⟨rPAR_LOST_UNITS, 31, 0⟩
/-- SAG.CTRL (spec/16_parity_saggar_and_rebuild.md), 32-bit. -/
def rSAG_CTRL : Nat := 0x5b0100
def fSAG_CTRL_JSTRIP_EN : Fld := ⟨rSAG_CTRL, 0, 0⟩
/-- SAG.SIZE (spec/16_parity_saggar_and_rebuild.md), 32-bit. -/
def rSAG_SIZE : Nat := 0x5b0104
def fSAG_SIZE_SIZE_MIB : Fld := ⟨rSAG_SIZE, 14, 0⟩
/-- SAG.AREA_CFG (spec/16_parity_saggar_and_rebuild.md), 32-bit. -/
def rSAG_AREA_CFG : Nat := 0x5b0108
def fSAG_AREA_CFG_DELTA_MIB : Fld := ⟨rSAG_AREA_CFG, 30, 16⟩
def fSAG_AREA_CFG_DATA_MIB : Fld := ⟨rSAG_AREA_CFG, 14, 0⟩
/-- SAG.BASE (spec/16_parity_saggar_and_rebuild.md), 64-bit. -/
def rSAG_BASE : Nat := 0x5b0110
/-- SAG.DUMP_KEY (spec/16_parity_saggar_and_rebuild.md), 32-bit. -/
def rSAG_DUMP_KEY : Nat := 0x5b0118
def fSAG_DUMP_KEY : Fld := ⟨rSAG_DUMP_KEY, 15, 0⟩
/-- SAG.JCFG (spec/16_parity_saggar_and_rebuild.md), 32-bit. -/
def rSAG_JCFG : Nat := 0x5b011c
def fSAG_JCFG_WINDOW_ROWS : Fld := ⟨rSAG_JCFG, 7, 0⟩
/-- SAG.DELTA_USE (spec/16_parity_saggar_and_rebuild.md), 32-bit. -/
def rSAG_DELTA_USE : Nat := 0x5b0120
def fSAG_DELTA_USE : Fld := ⟨rSAG_DELTA_USE, 22, 0⟩
/-- SAG.LOG_USE (spec/16_parity_saggar_and_rebuild.md), 32-bit. -/
def rSAG_LOG_USE : Nat := 0x5b0124
def fSAG_LOG_USE : Fld := ⟨rSAG_LOG_USE, 19, 0⟩
/-- SAG.DUMP_STAT (spec/16_parity_saggar_and_rebuild.md), 32-bit. -/
def rSAG_DUMP_STAT : Nat := 0x5b0128
def fSAG_DUMP_STAT_VALID : Fld := ⟨rSAG_DUMP_STAT, 31, 31⟩
def fSAG_DUMP_STAT_SET : Fld := ⟨rSAG_DUMP_STAT, 30, 30⟩
def fSAG_DUMP_STAT_FINAL : Fld := ⟨rSAG_DUMP_STAT, 29, 29⟩
def fSAG_DUMP_STAT_REPLAYING : Fld := ⟨rSAG_DUMP_STAT, 28, 28⟩
/-- SAG.LAST_COMPLETE (spec/16_parity_saggar_and_rebuild.md), 64-bit. -/
def rSAG_LAST_COMPLETE : Nat := 0x5b0130
/-- SAG.DUMP_ID (spec/16_parity_saggar_and_rebuild.md), 64-bit. -/
def rSAG_DUMP_ID : Nat := 0x5b0138
/-- SAG.DUMP_BYTES (spec/16_parity_saggar_and_rebuild.md), 64-bit. -/
def rSAG_DUMP_BYTES : Nat := 0x5b0140
/-- SAG.DUMP_TIME_US (spec/16_parity_saggar_and_rebuild.md), 32-bit. -/
def rSAG_DUMP_TIME_US : Nat := 0x5b0148
def fSAG_DUMP_TIME_US : Fld := ⟨rSAG_DUMP_TIME_US, 31, 0⟩
/-- SAG.DELTA_WAIT (spec/16_parity_saggar_and_rebuild.md), 32-bit. -/
def rSAG_DELTA_WAIT : Nat := 0x5b0200
def fSAG_DELTA_WAIT : Fld := ⟨rSAG_DELTA_WAIT, 31, 0⟩
/-- SAG.PEER_REPAIR (spec/16_parity_saggar_and_rebuild.md), 32-bit. -/
def rSAG_PEER_REPAIR : Nat := 0x5b0204
def fSAG_PEER_REPAIR : Fld := ⟨rSAG_PEER_REPAIR, 31, 0⟩
/-- SAG.RESYNC_ROWS (spec/16_parity_saggar_and_rebuild.md), 32-bit. -/
def rSAG_RESYNC_ROWS : Nat := 0x5b0208
def fSAG_RESYNC_ROWS : Fld := ⟨rSAG_RESYNC_ROWS, 31, 0⟩
/-- SAG.INDETERMINATE (spec/16_parity_saggar_and_rebuild.md), 32-bit. -/
def rSAG_INDETERMINATE : Nat := 0x5b020c
def fSAG_INDETERMINATE : Fld := ⟨rSAG_INDETERMINATE, 31, 0⟩
/-- RBLD.CFG (spec/16_parity_saggar_and_rebuild.md), 32-bit. -/
def rRBLD_CFG : Nat := 0x5c0100
def fRBLD_CFG_DOWN_MS : Fld := ⟨rRBLD_CFG, 31, 16⟩
def fRBLD_CFG_OFFLINE_MAX_S : Fld := ⟨rRBLD_CFG, 15, 0⟩
/-- RBLD.SHARE_CFG (spec/16_parity_saggar_and_rebuild.md), 32-bit. -/
def rRBLD_SHARE_CFG : Nat := 0x5c0104
def fRBLD_SHARE_CFG_CRIT_PCT : Fld := ⟨rRBLD_SHARE_CFG, 14, 8⟩
def fRBLD_SHARE_CFG_SHARE_PCT : Fld := ⟨rRBLD_SHARE_CFG, 6, 0⟩
/-- RBLD.GROUP_SEL (spec/16_parity_saggar_and_rebuild.md), 32-bit. -/
def rRBLD_GROUP_SEL : Nat := 0x5c0110
def fRBLD_GROUP_SEL : Fld := ⟨rRBLD_GROUP_SEL, 1, 0⟩
/-- RBLD.SEGS_LEFT (spec/16_parity_saggar_and_rebuild.md), 32-bit. -/
def rRBLD_SEGS_LEFT : Nat := 0x5c0114
def fRBLD_SEGS_LEFT : Fld := ⟨rRBLD_SEGS_LEFT, 31, 0⟩
/-- RBLD.BYTES_MOVED (spec/16_parity_saggar_and_rebuild.md), 64-bit. -/
def rRBLD_BYTES_MOVED : Nat := 0x5c0118
/-- RBLD.RATE (spec/16_parity_saggar_and_rebuild.md), 32-bit. -/
def rRBLD_RATE : Nat := 0x5c0120
def fRBLD_RATE : Fld := ⟨rRBLD_RATE, 31, 0⟩
/-- RBLD.MEMBER (spec/16_parity_saggar_and_rebuild.md), 32-bit. -/
def rRBLD_MEMBER (i : Nat) : Nat := 0x5c0200 + 4 * i
def fRBLD_MEMBER_STATE (i : Nat) : Fld := ⟨rRBLD_MEMBER i, 26, 24⟩
def fRBLD_MEMBER_GROUP (i : Nat) : Fld := ⟨rRBLD_MEMBER i, 17, 16⟩
/-- RBLD.POISONED (spec/16_parity_saggar_and_rebuild.md), 32-bit. -/
def rRBLD_POISONED : Nat := 0x5c0300
def fRBLD_POISONED : Fld := ⟨rRBLD_POISONED, 31, 0⟩
/-- RBLD.LOST_READS (spec/16_parity_saggar_and_rebuild.md), 32-bit. -/
def rRBLD_LOST_READS : Nat := 0x5c0304
def fRBLD_LOST_READS : Fld := ⟨rRBLD_LOST_READS, 31, 0⟩
/-- MLINK.CTRL (spec/17_brizan_module_link.md), 32-bit. -/
def rMLINK_CTRL (n : Nat) : Nat := 0x600100 + 0x10000 * n
def fMLINK_CTRL_RETRAIN (n : Nat) : Fld := ⟨rMLINK_CTRL n, 1, 1⟩
def fMLINK_CTRL_LINK_EN (n : Nat) : Fld := ⟨rMLINK_CTRL n, 0, 0⟩
/-- MLINK.STAT (spec/17_brizan_module_link.md), 32-bit. -/
def rMLINK_STAT (n : Nat) : Nat := 0x600104 + 0x10000 * n
def fMLINK_STAT_LSTATE (n : Nat) : Fld := ⟨rMLINK_STAT n, 31, 28⟩
def fMLINK_STAT_WIDTH (n : Nat) : Fld := ⟨rMLINK_STAT n, 26, 24⟩
def fMLINK_STAT_PRESENT (n : Nat) : Fld := ⟨rMLINK_STAT n, 16, 16⟩
def fMLINK_STAT_OWNER (n : Nat) : Fld := ⟨rMLINK_STAT n, 9, 8⟩
def fMLINK_STAT_TRIAL (n : Nat) : Fld := ⟨rMLINK_STAT n, 0, 0⟩
/-- MLINK.TIMEOUT (spec/17_brizan_module_link.md), 32-bit. -/
def rMLINK_TIMEOUT (n : Nat) : Nat := 0x600108 + 0x10000 * n
def fMLINK_TIMEOUT_OP_TIMEOUT_MS (n : Nat) : Fld := ⟨rMLINK_TIMEOUT n, 15, 0⟩
/-- MLINK.PRESENCE (spec/17_brizan_module_link.md), 32-bit. -/
def rMLINK_PRESENCE (n : Nat) : Nat := 0x60010c + 0x10000 * n
def fMLINK_PRESENCE_INPUT (n : Nat) : Fld := ⟨rMLINK_PRESENCE n, 6, 0⟩
/-- MLINK.GEOM (spec/17_brizan_module_link.md), 32-bit. -/
def rMLINK_GEOM (n : Nat) : Nat := 0x600110 + 0x10000 * n
def fMLINK_GEOM_DIE_TYPE (n : Nat) : Fld := ⟨rMLINK_GEOM n, 31, 24⟩
def fMLINK_GEOM_CHANNELS (n : Nat) : Fld := ⟨rMLINK_GEOM n, 23, 16⟩
def fMLINK_GEOM_DIES_PER_CH (n : Nat) : Fld := ⟨rMLINK_GEOM n, 15, 8⟩
/-- MLINK.T_PROG (spec/17_brizan_module_link.md), 32-bit. -/
def rMLINK_T_PROG (n : Nat) : Nat := 0x600114 + 0x10000 * n
def fMLINK_T_PROG_NATIVE_US (n : Nat) : Fld := ⟨rMLINK_T_PROG n, 31, 16⟩
def fMLINK_T_PROG_PSLC_US (n : Nat) : Fld := ⟨rMLINK_T_PROG n, 15, 0⟩
/-- MLINK.T_OTHER (spec/17_brizan_module_link.md), 32-bit. -/
def rMLINK_T_OTHER (n : Nat) : Nat := 0x600118 + 0x10000 * n
def fMLINK_T_OTHER_ERASE_US (n : Nat) : Fld := ⟨rMLINK_T_OTHER n, 31, 16⟩
def fMLINK_T_OTHER_READ_US (n : Nat) : Fld := ⟨rMLINK_T_OTHER n, 15, 0⟩
/-- MLINK.SERIAL (spec/17_brizan_module_link.md), 64-bit. -/
def rMLINK_SERIAL (n : Nat) : Nat := 0x600120 + 0x10000 * n
/-- MLINK.FW_VER (spec/17_brizan_module_link.md), 32-bit. -/
def rMLINK_FW_VER (n : Nat) : Nat := 0x600128 + 0x10000 * n
def fMLINK_FW_VER_RUNNING (n : Nat) : Fld := ⟨rMLINK_FW_VER n, 31, 16⟩
def fMLINK_FW_VER_STAGED (n : Nat) : Fld := ⟨rMLINK_FW_VER n, 15, 0⟩
/-- MLINK.RESV_GEN (spec/17_brizan_module_link.md), 32-bit. -/
def rMLINK_RESV_GEN (n : Nat) : Nat := 0x60012c + 0x10000 * n
def fMLINK_RESV_GEN (n : Nat) : Fld := ⟨rMLINK_RESV_GEN n, 31, 0⟩
/-- MLINK.OUTSTANDING (spec/17_brizan_module_link.md), 32-bit. -/
def rMLINK_OUTSTANDING (n : Nat) : Nat := 0x600130 + 0x10000 * n
def fMLINK_OUTSTANDING (n : Nat) : Fld := ⟨rMLINK_OUTSTANDING n, 12, 0⟩
/-- MLINK.CRC_ERR (spec/17_brizan_module_link.md), 32-bit. -/
def rMLINK_CRC_ERR (n : Nat) : Nat := 0x600200 + 0x10000 * n
def fMLINK_CRC_ERR (n : Nat) : Fld := ⟨rMLINK_CRC_ERR n, 31, 0⟩
/-- MLINK.REPLAY (spec/17_brizan_module_link.md), 32-bit. -/
def rMLINK_REPLAY (n : Nat) : Nat := 0x600204 + 0x10000 * n
def fMLINK_REPLAY (n : Nat) : Fld := ⟨rMLINK_REPLAY n, 31, 0⟩
/-- MLINK.RETRAIN (spec/17_brizan_module_link.md), 32-bit. -/
def rMLINK_RETRAIN (n : Nat) : Nat := 0x600208 + 0x10000 * n
def fMLINK_RETRAIN (n : Nat) : Fld := ⟨rMLINK_RETRAIN n, 31, 0⟩
/-- MLINK.PKT_ERR (spec/17_brizan_module_link.md), 32-bit. -/
def rMLINK_PKT_ERR (n : Nat) : Nat := 0x60020c + 0x10000 * n
def fMLINK_PKT_ERR (n : Nat) : Fld := ⟨rMLINK_PKT_ERR n, 31, 0⟩
/-- MLINK.OP_TIMEOUT (spec/17_brizan_module_link.md), 32-bit. -/
def rMLINK_OP_TIMEOUT (n : Nat) : Nat := 0x600210 + 0x10000 * n
def fMLINK_OP_TIMEOUT (n : Nat) : Fld := ⟨rMLINK_OP_TIMEOUT n, 31, 0⟩
/-- MLINK.PROG_FAIL (spec/17_brizan_module_link.md), 32-bit. -/
def rMLINK_PROG_FAIL (n : Nat) : Nat := 0x600214 + 0x10000 * n
def fMLINK_PROG_FAIL (n : Nat) : Fld := ⟨rMLINK_PROG_FAIL n, 31, 0⟩
/-- MLINK.ERASE_FAIL (spec/17_brizan_module_link.md), 32-bit. -/
def rMLINK_ERASE_FAIL (n : Nat) : Nat := 0x600218 + 0x10000 * n
def fMLINK_ERASE_FAIL (n : Nat) : Fld := ⟨rMLINK_ERASE_FAIL n, 31, 0⟩
/-- MLINK.NOT_OWNER (spec/17_brizan_module_link.md), 32-bit. -/
def rMLINK_NOT_OWNER (n : Nat) : Nat := 0x60021c + 0x10000 * n
def fMLINK_NOT_OWNER (n : Nat) : Fld := ⟨rMLINK_NOT_OWNER n, 31, 0⟩
/-- PLINK.CTRL (spec/18_dual_heads_and_shelf_mode.md), 32-bit. -/
def rPLINK_CTRL (n : Nat) : Nat := 0x280100 + 0x10000 * n
def fPLINK_CTRL_LINK_EN (n : Nat) : Fld := ⟨rPLINK_CTRL n, 0, 0⟩
/-- PLINK.STAT (spec/18_dual_heads_and_shelf_mode.md), 32-bit. -/
def rPLINK_STAT (n : Nat) : Nat := 0x280104 + 0x10000 * n
def fPLINK_STAT_LINK_UP (n : Nat) : Fld := ⟨rPLINK_STAT n, 0, 0⟩
/-- PLINK.MAC (spec/18_dual_heads_and_shelf_mode.md), 64-bit. -/
def rPLINK_MAC (n : Nat) : Nat := 0x280110 + 0x10000 * n
/-- PLINK.IP_ADDR (spec/18_dual_heads_and_shelf_mode.md), 128-bit. -/
def rPLINK_IP_ADDR (n : Nat) : Nat := 0x280200 + 0x10000 * n
/-- PLINK.HOLD_DROP (spec/18_dual_heads_and_shelf_mode.md), 32-bit. -/
def rPLINK_HOLD_DROP (n : Nat) : Nat := 0x280500 + 0x10000 * n
def fPLINK_HOLD_DROP (n : Nat) : Fld := ⟨rPLINK_HOLD_DROP n, 31, 0⟩
/-- PLINK.TAG_FAIL (spec/18_dual_heads_and_shelf_mode.md), 32-bit. -/
def rPLINK_TAG_FAIL (n : Nat) : Nat := 0x280504 + 0x10000 * n
def fPLINK_TAG_FAIL (n : Nat) : Fld := ⟨rPLINK_TAG_FAIL n, 31, 0⟩
/-- PLINK.CSUM_ERR (spec/18_dual_heads_and_shelf_mode.md), 32-bit. -/
def rPLINK_CSUM_ERR (n : Nat) : Nat := 0x280508 + 0x10000 * n
def fPLINK_CSUM_ERR (n : Nat) : Fld := ⟨rPLINK_CSUM_ERR n, 31, 0⟩
/-- PLINK.NOT_LDT (spec/18_dual_heads_and_shelf_mode.md), 32-bit. -/
def rPLINK_NOT_LDT (n : Nat) : Nat := 0x28050c + 0x10000 * n
def fPLINK_NOT_LDT (n : Nat) : Fld := ⟨rPLINK_NOT_LDT n, 31, 0⟩
/-- PLINK.FEC_UNCORR (spec/18_dual_heads_and_shelf_mode.md), 32-bit. -/
def rPLINK_FEC_UNCORR (n : Nat) : Nat := 0x280510 + 0x10000 * n
def fPLINK_FEC_UNCORR (n : Nat) : Fld := ⟨rPLINK_FEC_UNCORR n, 31, 0⟩
/-- PEERCTL.CFG (spec/18_dual_heads_and_shelf_mode.md), 32-bit. -/
def rPEERCTL_CFG : Nat := 0x900100
def fPEERCTL_CFG_RGN_INDEX : Fld := ⟨rPEERCTL_CFG, 31, 16⟩
def fPEERCTL_CFG_HEADS : Fld := ⟨rPEERCTL_CFG, 9, 8⟩
def fPEERCTL_CFG_HEAD_ID : Fld := ⟨rPEERCTL_CFG, 0, 0⟩
/-- PEERCTL.CTRL (spec/18_dual_heads_and_shelf_mode.md), 32-bit. -/
def rPEERCTL_CTRL : Nat := 0x900104
def fPEERCTL_CTRL_AUTO_RESYNC : Fld := ⟨rPEERCTL_CTRL, 0, 0⟩
/-- PEERCTL.HB_CFG (spec/18_dual_heads_and_shelf_mode.md), 32-bit. -/
def rPEERCTL_HB_CFG : Nat := 0x900108
def fPEERCTL_HB_CFG_HB_TIMEOUT_MS : Fld := ⟨rPEERCTL_HB_CFG, 31, 16⟩
def fPEERCTL_HB_CFG_HB_INTERVAL_MS : Fld := ⟨rPEERCTL_HB_CFG, 7, 0⟩
/-- PEERCTL.MIRROR_CFG (spec/18_dual_heads_and_shelf_mode.md), 32-bit. -/
def rPEERCTL_MIRROR_CFG : Nat := 0x90010c
def fPEERCTL_MIRROR_CFG_ACK_TIMEOUT_US : Fld := ⟨rPEERCTL_MIRROR_CFG, 15, 0⟩
/-- PEERCTL.HOLD_CFG (spec/18_dual_heads_and_shelf_mode.md), 32-bit. -/
def rPEERCTL_HOLD_CFG : Nat := 0x900110
def fPEERCTL_HOLD_CFG_HOLD_MS : Fld := ⟨rPEERCTL_HOLD_CFG, 15, 0⟩
/-- PEERCTL.STATE (spec/18_dual_heads_and_shelf_mode.md), 32-bit. -/
def rPEERCTL_STATE : Nat := 0x900114
def fPEERCTL_STATE_PEER_STATE : Fld := ⟨rPEERCTL_STATE, 31, 28⟩
def fPEERCTL_STATE_PEER_MIRROR : Fld := ⟨rPEERCTL_STATE, 27, 24⟩
def fPEERCTL_STATE_MIRROR : Fld := ⟨rPEERCTL_STATE, 19, 16⟩
def fPEERCTL_STATE_GROUP_OWNER : Fld := ⟨rPEERCTL_STATE, 7, 0⟩
/-- PEERCTL.ARBITER (spec/18_dual_heads_and_shelf_mode.md), 32-bit. -/
def rPEERCTL_ARBITER : Nat := 0x900118
def fPEERCTL_ARBITER_VALID : Fld := ⟨rPEERCTL_ARBITER, 7, 7⟩
def fPEERCTL_ARBITER_MODULE : Fld := ⟨rPEERCTL_ARBITER, 4, 0⟩
/-- PEERCTL.INDEX_GROUP (spec/18_dual_heads_and_shelf_mode.md), 32-bit. -/
def rPEERCTL_INDEX_GROUP : Nat := 0x90011c
def fPEERCTL_INDEX_GROUP_H1 : Fld := ⟨rPEERCTL_INDEX_GROUP, 3, 2⟩
def fPEERCTL_INDEX_GROUP_H0 : Fld := ⟨rPEERCTL_INDEX_GROUP, 1, 0⟩
/-- PEERCTL.HOME_BASE (spec/18_dual_heads_and_shelf_mode.md), 64-bit. -/
def rPEERCTL_HOME_BASE : Nat := 0x900120
/-- PEERCTL.RUN_BASE (spec/18_dual_heads_and_shelf_mode.md), 64-bit. -/
def rPEERCTL_RUN_BASE : Nat := 0x900128
/-- PEERCTL.POOL (spec/18_dual_heads_and_shelf_mode.md), 32-bit. -/
def rPEERCTL_POOL : Nat := 0x900130
def fPEERCTL_POOL_RUNS_HELD : Fld := ⟨rPEERCTL_POOL, 31, 16⟩
def fPEERCTL_POOL_RUNS_FREE : Fld := ⟨rPEERCTL_POOL, 15, 0⟩
/-- PEERCTL.PEER_COMMIT_SEQ (spec/18_dual_heads_and_shelf_mode.md), 64-bit. -/
def rPEERCTL_PEER_COMMIT_SEQ : Nat := 0x900138
/-- PEERCTL.RESYNC_LEFT (spec/18_dual_heads_and_shelf_mode.md), 64-bit. -/
def rPEERCTL_RESYNC_LEFT : Nat := 0x900140
/-- PEERCTL.HB_MISSED (spec/18_dual_heads_and_shelf_mode.md), 32-bit. -/
def rPEERCTL_HB_MISSED : Nat := 0x900200
def fPEERCTL_HB_MISSED : Fld := ⟨rPEERCTL_HB_MISSED, 31, 0⟩
/-- PEERCTL.MSG_SENT (spec/18_dual_heads_and_shelf_mode.md), 32-bit. -/
def rPEERCTL_MSG_SENT : Nat := 0x900204
def fPEERCTL_MSG_SENT : Fld := ⟨rPEERCTL_MSG_SENT, 31, 0⟩
/-- PEERCTL.MSG_RECV (spec/18_dual_heads_and_shelf_mode.md), 32-bit. -/
def rPEERCTL_MSG_RECV : Nat := 0x900208
def fPEERCTL_MSG_RECV : Fld := ⟨rPEERCTL_MSG_RECV, 31, 0⟩
/-- PEERCTL.CANCEL_SENT (spec/18_dual_heads_and_shelf_mode.md), 32-bit. -/
def rPEERCTL_CANCEL_SENT : Nat := 0x90020c
def fPEERCTL_CANCEL_SENT : Fld := ⟨rPEERCTL_CANCEL_SENT, 31, 0⟩
/-- PEERCTL.MIRROR_BREAKS (spec/18_dual_heads_and_shelf_mode.md), 32-bit. -/
def rPEERCTL_MIRROR_BREAKS : Nat := 0x900210
def fPEERCTL_MIRROR_BREAKS : Fld := ⟨rPEERCTL_MIRROR_BREAKS, 31, 0⟩
/-- PEERCTL.FWD_DROP (spec/18_dual_heads_and_shelf_mode.md), 32-bit. -/
def rPEERCTL_FWD_DROP : Nat := 0x900214
def fPEERCTL_FWD_DROP : Fld := ⟨rPEERCTL_FWD_DROP, 31, 0⟩
/-- HBM.CTRL (spec/19_memory_and_system_cache.md), 32-bit. -/
def rHBM_CTRL (n : Nat) : Nat := 0x810100 + 0x10000 * n
def fHBM_CTRL_SELF_REFRESH (n : Nat) : Fld := ⟨rHBM_CTRL n, 0, 0⟩
/-- HBM.STAT (spec/19_memory_and_system_cache.md), 32-bit. -/
def rHBM_STAT (n : Nat) : Nat := 0x810104 + 0x10000 * n
def fHBM_STAT_SR_STATE (n : Nat) : Fld := ⟨rHBM_STAT n, 3, 2⟩
def fHBM_STAT_TRAINED (n : Nat) : Fld := ⟨rHBM_STAT n, 1, 1⟩
def fHBM_STAT_PRESENT (n : Nat) : Fld := ⟨rHBM_STAT n, 0, 0⟩
/-- HBM.SCRUB_CFG (spec/19_memory_and_system_cache.md), 32-bit. -/
def rHBM_SCRUB_CFG (n : Nat) : Nat := 0x810108 + 0x10000 * n
def fHBM_SCRUB_CFG_PERIOD_H (n : Nat) : Fld := ⟨rHBM_SCRUB_CFG n, 15, 0⟩
/-- HBM.TEMP (spec/19_memory_and_system_cache.md), 32-bit. -/
def rHBM_TEMP (n : Nat) : Nat := 0x81010c + 0x10000 * n
def fHBM_TEMP (n : Nat) : Fld := ⟨rHBM_TEMP n, 7, 0⟩
/-- HBM.LAST_UNCORR (spec/19_memory_and_system_cache.md), 64-bit. -/
def rHBM_LAST_UNCORR (n : Nat) : Nat := 0x810110 + 0x10000 * n
/-- HBM.CORR (spec/19_memory_and_system_cache.md), 32-bit. -/
def rHBM_CORR (n : Nat) : Nat := 0x810200 + 0x10000 * n
def fHBM_CORR (n : Nat) : Fld := ⟨rHBM_CORR n, 31, 0⟩
/-- HBM.UNCORR (spec/19_memory_and_system_cache.md), 32-bit. -/
def rHBM_UNCORR (n : Nat) : Nat := 0x810204 + 0x10000 * n
def fHBM_UNCORR (n : Nat) : Fld := ⟨rHBM_UNCORR n, 31, 0⟩
/-- HBM.POISON_WRITE (spec/19_memory_and_system_cache.md), 32-bit. -/
def rHBM_POISON_WRITE (n : Nat) : Nat := 0x810208 + 0x10000 * n
def fHBM_POISON_WRITE (n : Nat) : Fld := ⟨rHBM_POISON_WRITE n, 31, 0⟩
/-- HBM.SR_REFUSED (spec/19_memory_and_system_cache.md), 32-bit. -/
def rHBM_SR_REFUSED (n : Nat) : Nat := 0x81020c + 0x10000 * n
def fHBM_SR_REFUSED (n : Nat) : Fld := ⟨rHBM_SR_REFUSED n, 31, 0⟩
/-- HCH.CORR (spec/19_memory_and_system_cache.md), 32-bit. -/
def rHCH_CORR (n i : Nat) : Nat := 0xc00200 + 0x10000 * n + 4 * i
def fHCH_CORR (n i : Nat) : Fld := ⟨rHCH_CORR n i, 31, 0⟩
/-- HCH.UNCORR (spec/19_memory_and_system_cache.md), 32-bit. -/
def rHCH_UNCORR (n i : Nat) : Nat := 0xc00208 + 0x10000 * n + 4 * i
def fHCH_UNCORR (n i : Nat) : Fld := ⟨rHCH_UNCORR n i, 31, 0⟩
/-- SRAM.CORR (spec/19_memory_and_system_cache.md), 32-bit. -/
def rSRAM_CORR (i : Nat) : Nat := 0x840200 + 8 * i
def fSRAM_CORR (i : Nat) : Fld := ⟨rSRAM_CORR i, 31, 0⟩
/-- SRAM.UNCORR (spec/19_memory_and_system_cache.md), 32-bit. -/
def rSRAM_UNCORR (i : Nat) : Nat := 0x840204 + 8 * i
def fSRAM_UNCORR (i : Nat) : Fld := ⟨rSRAM_UNCORR i, 31, 0⟩
/-- SRAM.LAST_ERR (spec/19_memory_and_system_cache.md), 32-bit. -/
def rSRAM_LAST_ERR : Nat := 0x840300
def fSRAM_LAST_ERR_PARTITION : Fld := ⟨rSRAM_LAST_ERR, 31, 29⟩
def fSRAM_LAST_ERR_WORD : Fld := ⟨rSRAM_LAST_ERR, 24, 0⟩
/-- SYSC.CTRL (spec/19_memory_and_system_cache.md), 32-bit. -/
def rSYSC_CTRL : Nat := 0x800100
def fSYSC_CTRL_PREFETCH_SECTORS : Fld := ⟨rSYSC_CTRL, 1, 0⟩
/-- SYSC.WAY_EN (spec/19_memory_and_system_cache.md), 32-bit. -/
def rSYSC_WAY_EN : Nat := 0x800104
def fSYSC_WAY_EN : Fld := ⟨rSYSC_WAY_EN, 15, 0⟩
/-- SYSC.WAY_STAT (spec/19_memory_and_system_cache.md), 32-bit. -/
def rSYSC_WAY_STAT : Nat := 0x800108
def fSYSC_WAY_STAT_POWERED : Fld := ⟨rSYSC_WAY_STAT, 31, 16⟩
def fSYSC_WAY_STAT_DRAINING : Fld := ⟨rSYSC_WAY_STAT, 15, 0⟩
/-- SYSC.LOCK (spec/19_memory_and_system_cache.md), 32-bit. -/
def rSYSC_LOCK : Nat := 0x80010c
def fSYSC_LOCK : Fld := ⟨rSYSC_LOCK, 15, 0⟩
/-- SYSC.MB_CFG (spec/19_memory_and_system_cache.md), 32-bit. -/
def rSYSC_MB_CFG : Nat := 0x800110
def fSYSC_MB_CFG_HIGH : Fld := ⟨rSYSC_MB_CFG, 24, 16⟩
def fSYSC_MB_CFG_MAX_AGE_NS : Fld := ⟨rSYSC_MB_CFG, 15, 0⟩
/-- SYSC.MB_STAT (spec/19_memory_and_system_cache.md), 32-bit. -/
def rSYSC_MB_STAT : Nat := 0x800114
def fSYSC_MB_STAT_USED : Fld := ⟨rSYSC_MB_STAT, 9, 0⟩
/-- SYSC.LAST_INVAL_LOCKED (spec/19_memory_and_system_cache.md), 32-bit. -/
def rSYSC_LAST_INVAL_LOCKED : Nat := 0x800118
def fSYSC_LAST_INVAL_LOCKED : Fld := ⟨rSYSC_LAST_INVAL_LOCKED, 31, 0⟩
/-- SYSC.HIT (spec/19_memory_and_system_cache.md), 32-bit. -/
def rSYSC_HIT : Nat := 0x800200
def fSYSC_HIT : Fld := ⟨rSYSC_HIT, 31, 0⟩
/-- SYSC.MISS (spec/19_memory_and_system_cache.md), 32-bit. -/
def rSYSC_MISS : Nat := 0x800204
def fSYSC_MISS : Fld := ⟨rSYSC_MISS, 31, 0⟩
/-- SYSC.DEPARTING_WAIT (spec/19_memory_and_system_cache.md), 32-bit. -/
def rSYSC_DEPARTING_WAIT : Nat := 0x800208
def fSYSC_DEPARTING_WAIT : Fld := ⟨rSYSC_DEPARTING_WAIT, 31, 0⟩
/-- SYSC.MB_FULL_WAIT (spec/19_memory_and_system_cache.md), 32-bit. -/
def rSYSC_MB_FULL_WAIT : Nat := 0x80020c
def fSYSC_MB_FULL_WAIT : Fld := ⟨rSYSC_MB_FULL_WAIT, 31, 0⟩
/-- SYSC.NO_ALLOC (spec/19_memory_and_system_cache.md), 32-bit. -/
def rSYSC_NO_ALLOC : Nat := 0x800210
def fSYSC_NO_ALLOC : Fld := ⟨rSYSC_NO_ALLOC, 31, 0⟩
/-- SYSC.ECC_CORR (spec/19_memory_and_system_cache.md), 32-bit. -/
def rSYSC_ECC_CORR : Nat := 0x800214
def fSYSC_ECC_CORR : Fld := ⟨rSYSC_ECC_CORR, 31, 0⟩
/-- SYSC.ECC_REFETCH (spec/19_memory_and_system_cache.md), 32-bit. -/
def rSYSC_ECC_REFETCH : Nat := 0x800218
def fSYSC_ECC_REFETCH : Fld := ⟨rSYSC_ECC_REFETCH, 31, 0⟩
/-- QOS.LIM_BASE (spec/20_tenancy_and_tallies.md), 64-bit. -/
def rQOS_LIM_BASE : Nat := 0x410108
/-- QOS.HIST_BASE (spec/20_tenancy_and_tallies.md), 64-bit. -/
def rQOS_HIST_BASE : Nat := 0x410110
/-- QOS.HELD_NOW (spec/20_tenancy_and_tallies.md), 32-bit. -/
def rQOS_HELD_NOW : Nat := 0x410118
def fQOS_HELD_NOW : Fld := ⟨rQOS_HELD_NOW, 20, 0⟩
/-- QOS.HELD (spec/20_tenancy_and_tallies.md), 32-bit. -/
def rQOS_HELD : Nat := 0x410200
def fQOS_HELD : Fld := ⟨rQOS_HELD, 31, 0⟩
/-- QOS.SAMPLES (spec/20_tenancy_and_tallies.md), 32-bit. -/
def rQOS_SAMPLES : Nat := 0x410204
def fQOS_SAMPLES : Fld := ⟨rQOS_SAMPLES, 31, 0⟩
/-- TALLY.SET_BASE (spec/20_tenancy_and_tallies.md), 64-bit. -/
def rTALLY_SET_BASE : Nat := 0x420108
/-- TALLY.SET_EN (spec/20_tenancy_and_tallies.md), 32-bit. -/
def rTALLY_SET_EN (i : Nat) : Nat := 0x420110 + 4 * i
def fTALLY_SET_EN (i : Nat) : Fld := ⟨rTALLY_SET_EN i, 31, 0⟩
/-- TALLY.MINUTE (spec/20_tenancy_and_tallies.md), 64-bit. -/
def rTALLY_MINUTE : Nat := 0x420130
/-- TALLY.LAST_CLOSE (spec/20_tenancy_and_tallies.md), 64-bit. -/
def rTALLY_LAST_CLOSE : Nat := 0x420138
/-- TALLY.CLOSE_US (spec/20_tenancy_and_tallies.md), 32-bit. -/
def rTALLY_CLOSE_US : Nat := 0x420140
def fTALLY_CLOSE_US : Fld := ⟨rTALLY_CLOSE_US, 15, 0⟩
/-- TALLY.OVERRUN (spec/20_tenancy_and_tallies.md), 32-bit. -/
def rTALLY_OVERRUN : Nat := 0x420200
def fTALLY_OVERRUN : Fld := ⟨rTALLY_OVERRUN, 31, 0⟩
/-- TALLY.DISCARDED (spec/20_tenancy_and_tallies.md), 32-bit. -/
def rTALLY_DISCARDED : Nat := 0x420204
def fTALLY_DISCARDED : Fld := ⟨rTALLY_DISCARDED, 31, 0⟩
/-- PWR.CTRL (spec/21_power_states_and_domains.md), 32-bit. -/
def rPWR_CTRL : Nat := 0x10100
def fPWR_CTRL_DRAIN_TIMEOUT_MS : Fld := ⟨rPWR_CTRL, 25, 16⟩
def fPWR_CTRL_DRAIN_MODE : Fld := ⟨rPWR_CTRL, 0, 0⟩
/-- PWR.WAKE_EN (spec/21_power_states_and_domains.md), 32-bit. -/
def rPWR_WAKE_EN : Nat := 0x10104
def fPWR_WAKE_EN_TIMER : Fld := ⟨rPWR_WAKE_EN, 2, 2⟩
def fPWR_WAKE_EN_SVC : Fld := ⟨rPWR_WAKE_EN, 1, 1⟩
def fPWR_WAKE_EN_WAKE_N : Fld := ⟨rPWR_WAKE_EN, 0, 0⟩
/-- PWR.WAKE_TIME (spec/21_power_states_and_domains.md), 64-bit. -/
def rPWR_WAKE_TIME : Nat := 0x10108
/-- PWR.COLD_CAUSE (spec/21_power_states_and_domains.md), 32-bit. -/
def rPWR_COLD_CAUSE : Nat := 0x10110
def fPWR_COLD_CAUSE : Fld := ⟨rPWR_COLD_CAUSE, 1, 0⟩
/-- PWR.BANK_GATE (spec/21_power_states_and_domains.md), 32-bit. -/
def rPWR_BANK_GATE : Nat := 0x10114
def fPWR_BANK_GATE : Fld := ⟨rPWR_BANK_GATE, 7, 0⟩
/-- PWR.DOMAIN (spec/21_power_states_and_domains.md), 32-bit. -/
def rPWR_DOMAIN (i : Nat) : Nat := 0x10200 + 4 * i
def fPWR_DOMAIN_STATE (i : Nat) : Fld := ⟨rPWR_DOMAIN i, 30, 28⟩
def fPWR_DOMAIN_TARGET (i : Nat) : Fld := ⟨rPWR_DOMAIN i, 26, 24⟩
def fPWR_DOMAIN_FORCE_OK (i : Nat) : Fld := ⟨rPWR_DOMAIN i, 16, 16⟩
def fPWR_DOMAIN_ENTRIES (i : Nat) : Fld := ⟨rPWR_DOMAIN i, 15, 0⟩
/-- AON.SW_ADDR (spec/21_power_states_and_domains.md), 32-bit. -/
def rAON_SW_ADDR : Nat := 0x20100
def fAON_SW_ADDR : Fld := ⟨rAON_SW_ADDR, 19, 3⟩
/-- AON.SW_DATA (spec/21_power_states_and_domains.md), 64-bit. -/
def rAON_SW_DATA : Nat := 0x20108
/-- AON.SAVE_USED (spec/21_power_states_and_domains.md), 32-bit. -/
def rAON_SAVE_USED (i : Nat) : Nat := 0x20110 + 4 * i
def fAON_SAVE_USED_VALID (i : Nat) : Fld := ⟨rAON_SAVE_USED i, 31, 31⟩
def fAON_SAVE_USED_BYTES (i : Nat) : Fld := ⟨rAON_SAVE_USED i, 15, 0⟩
/-- AON.ECC_CORR (spec/21_power_states_and_domains.md), 32-bit. -/
def rAON_ECC_CORR : Nat := 0x20200
def fAON_ECC_CORR : Fld := ⟨rAON_ECC_CORR, 31, 0⟩
/-- SVC.CTRL (spec/22_firmware_update_and_service_port.md), 32-bit. -/
def rSVC_CTRL : Nat := 0x880100
def fSVC_CTRL_ACCESS : Fld := ⟨rSVC_CTRL, 9, 8⟩
def fSVC_CTRL_HBM_EN : Fld := ⟨rSVC_CTRL, 4, 4⟩
def fSVC_CTRL_FWD : Fld := ⟨rSVC_CTRL, 2, 2⟩
def fSVC_CTRL_MODE : Fld := ⟨rSVC_CTRL, 0, 0⟩
/-- SVC.STAT (spec/22_firmware_update_and_service_port.md), 32-bit. -/
def rSVC_STAT : Nat := 0x880104
def fSVC_STAT_AN_DONE : Fld := ⟨rSVC_STAT, 1, 1⟩
def fSVC_STAT_LINK_UP : Fld := ⟨rSVC_STAT, 0, 0⟩
/-- SVC.MAC (spec/22_firmware_update_and_service_port.md), 64-bit. -/
def rSVC_MAC : Nat := 0x880108
/-- SVC.I3C_CFG (spec/22_firmware_update_and_service_port.md), 32-bit. -/
def rSVC_I3C_CFG : Nat := 0x880110
def fSVC_I3C_CFG_I3C_EN : Fld := ⟨rSVC_I3C_CFG, 8, 8⟩
def fSVC_I3C_CFG_STATIC_ADDR : Fld := ⟨rSVC_I3C_CFG, 6, 0⟩
/-- SVC.I3C_DA (spec/22_firmware_update_and_service_port.md), 32-bit. -/
def rSVC_I3C_DA : Nat := 0x880114
def fSVC_I3C_DA_VALID : Fld := ⟨rSVC_I3C_DA, 7, 7⟩
def fSVC_I3C_DA_ADDR : Fld := ⟨rSVC_I3C_DA, 6, 0⟩
/-- SVC.RX_MSG (spec/22_firmware_update_and_service_port.md), 32-bit. -/
def rSVC_RX_MSG : Nat := 0x880200
def fSVC_RX_MSG : Fld := ⟨rSVC_RX_MSG, 31, 0⟩
/-- SVC.TX_MSG (spec/22_firmware_update_and_service_port.md), 32-bit. -/
def rSVC_TX_MSG : Nat := 0x880204
def fSVC_TX_MSG : Fld := ⟨rSVC_TX_MSG, 31, 0⟩
/-- SVC.RX_DROP (spec/22_firmware_update_and_service_port.md), 32-bit. -/
def rSVC_RX_DROP : Nat := 0x880208
def fSVC_RX_DROP : Fld := ⟨rSVC_RX_DROP, 31, 0⟩
/-- SVC.DUP (spec/22_firmware_update_and_service_port.md), 32-bit. -/
def rSVC_DUP : Nat := 0x88020c
def fSVC_DUP : Fld := ⟨rSVC_DUP, 31, 0⟩
/-- SVC.REFUSED (spec/22_firmware_update_and_service_port.md), 32-bit. -/
def rSVC_REFUSED : Nat := 0x880210
def fSVC_REFUSED : Fld := ⟨rSVC_REFUSED, 31, 0⟩
/-- UPD.CFG (spec/22_firmware_update_and_service_port.md), 32-bit. -/
def rUPD_CFG : Nat := 0x890100
def fUPD_CFG_TRIAL_BOOTS : Fld := ⟨rUPD_CFG, 27, 24⟩
def fUPD_CFG_CONFIRM_TIMEOUT_S : Fld := ⟨rUPD_CFG, 15, 0⟩
/-- UPD.SETTINGS_POLICY (spec/22_firmware_update_and_service_port.md), 32-bit. -/
def rUPD_SETTINGS_POLICY : Nat := 0x890104
def fUPD_SETTINGS_POLICY_POLICY : Fld := ⟨rUPD_SETTINGS_POLICY, 0, 0⟩
/-- UPD.PKG_BASE (spec/22_firmware_update_and_service_port.md), 64-bit. -/
def rUPD_PKG_BASE : Nat := 0x890108
/-- UPD.STATE (spec/22_firmware_update_and_service_port.md), 32-bit. -/
def rUPD_STATE : Nat := 0x890110
def fUPD_STATE_STATE : Fld := ⟨rUPD_STATE, 3, 0⟩
/-- UPD.SLOT (spec/22_firmware_update_and_service_port.md), 32-bit. -/
def rUPD_SLOT : Nat := 0x890114
def fUPD_SLOT_FELL_BACK : Fld := ⟨rUPD_SLOT, 8, 8⟩
def fUPD_SLOT_TRIES : Fld := ⟨rUPD_SLOT, 7, 4⟩
def fUPD_SLOT_TRIAL : Fld := ⟨rUPD_SLOT, 1, 1⟩
def fUPD_SLOT_ACTIVE : Fld := ⟨rUPD_SLOT, 0, 0⟩
/-- UPD.ROLLBACK_FLOOR (spec/22_firmware_update_and_service_port.md), 32-bit. -/
def rUPD_ROLLBACK_FLOOR : Nat := 0x890118
def fUPD_ROLLBACK_FLOOR : Fld := ⟨rUPD_ROLLBACK_FLOOR, 31, 0⟩
/-- UPD.KEY_REVOKE (spec/22_firmware_update_and_service_port.md), 32-bit. -/
def rUPD_KEY_REVOKE : Nat := 0x89011c
def fUPD_KEY_REVOKE : Fld := ⟨rUPD_KEY_REVOKE, 3, 0⟩
/-- UPD.DEVICE_ID (spec/22_firmware_update_and_service_port.md), 32-bit. -/
def rUPD_DEVICE_ID : Nat := 0x890120
def fUPD_DEVICE_ID : Fld := ⟨rUPD_DEVICE_ID, 31, 0⟩
/-- UPD.DIE_ID (spec/22_firmware_update_and_service_port.md), 128-bit. -/
def rUPD_DIE_ID : Nat := 0x890128
/-- UPD.LOCK_WAIT (spec/22_firmware_update_and_service_port.md), 32-bit. -/
def rUPD_LOCK_WAIT : Nat := 0x890138
def fUPD_LOCK_WAIT_LOCK_WAIT_MS : Fld := ⟨rUPD_LOCK_WAIT, 15, 0⟩
/-- UPD.PROGRESS (spec/22_firmware_update_and_service_port.md), 64-bit. -/
def rUPD_PROGRESS : Nat := 0x890140
/-- UPD.RUNNING_VER (spec/22_firmware_update_and_service_port.md), 32-bit. -/
def rUPD_RUNNING_VER : Nat := 0x890148
def fUPD_RUNNING_VER : Fld := ⟨rUPD_RUNNING_VER, 31, 0⟩
/-- UPD.STAGED_VER (spec/22_firmware_update_and_service_port.md), 32-bit. -/
def rUPD_STAGED_VER : Nat := 0x89014c
def fUPD_STAGED_VER : Fld := ⟨rUPD_STAGED_VER, 31, 0⟩
/-- UPD.VERIFY_FAIL (spec/22_firmware_update_and_service_port.md), 32-bit. -/
def rUPD_VERIFY_FAIL : Nat := 0x890200
def fUPD_VERIFY_FAIL : Fld := ⟨rUPD_VERIFY_FAIL, 31, 0⟩
/-- UPD.STAGE_FAIL (spec/22_firmware_update_and_service_port.md), 32-bit. -/
def rUPD_STAGE_FAIL : Nat := 0x890204
def fUPD_STAGE_FAIL : Fld := ⟨rUPD_STAGE_FAIL, 31, 0⟩
/-- UPD.FALLBACKS (spec/22_firmware_update_and_service_port.md), 32-bit. -/
def rUPD_FALLBACKS : Nat := 0x890208
def fUPD_FALLBACKS : Fld := ⟨rUPD_FALLBACKS, 31, 0⟩
/-- CHIP.RESET_CTRL (spec/23_startup_reset_and_errors.md), 32-bit. -/
def rCHIP_RESET_CTRL : Nat := 0x100
def fCHIP_RESET_CTRL_KEY : Fld := ⟨rCHIP_RESET_CTRL, 31, 16⟩
def fCHIP_RESET_CTRL_WARM : Fld := ⟨rCHIP_RESET_CTRL, 0, 0⟩
/-- CHIP.RESET_CAUSE (spec/23_startup_reset_and_errors.md), 32-bit. -/
def rCHIP_RESET_CAUSE : Nat := 0x104
def fCHIP_RESET_CAUSE_CAUSE : Fld := ⟨rCHIP_RESET_CAUSE, 2, 0⟩
/-- CHIP.START_STAGE (spec/23_startup_reset_and_errors.md), 32-bit. -/
def rCHIP_START_STAGE : Nat := 0x108
def fCHIP_START_STAGE_START_ERR : Fld := ⟨rCHIP_START_STAGE, 15, 8⟩
def fCHIP_START_STAGE_STAGE : Fld := ⟨rCHIP_START_STAGE, 3, 0⟩
/-- CHIP.WDOG (spec/23_startup_reset_and_errors.md), 32-bit. -/
def rCHIP_WDOG : Nat := 0x10c
def fCHIP_WDOG_KICK : Fld := ⟨rCHIP_WDOG, 31, 31⟩
def fCHIP_WDOG_RUN_EN : Fld := ⟨rCHIP_WDOG, 16, 16⟩
def fCHIP_WDOG_TIMEOUT_S : Fld := ⟨rCHIP_WDOG, 15, 0⟩
/-- CHIP.FATAL (spec/23_startup_reset_and_errors.md), 32-bit. -/
def rCHIP_FATAL : Nat := 0x110
def fCHIP_FATAL_CODE : Fld := ⟨rCHIP_FATAL, 15, 8⟩
def fCHIP_FATAL_FATAL_RESTART : Fld := ⟨rCHIP_FATAL, 0, 0⟩
/-- CHIP.WARM_COUNT (spec/23_startup_reset_and_errors.md), 32-bit. -/
def rCHIP_WARM_COUNT : Nat := 0x114
def fCHIP_WARM_COUNT : Fld := ⟨rCHIP_WARM_COUNT, 15, 0⟩
/-- CHIP.FAULT_PAGES (spec/23_startup_reset_and_errors.md), 32-bit. -/
def rCHIP_FAULT_PAGES (i : Nat) : Nat := 0x120 + 4 * i
def fCHIP_FAULT_PAGES (i : Nat) : Fld := ⟨rCHIP_FAULT_PAGES i, 31, 0⟩
/-- CHIP.OFF_ACCESS (spec/23_startup_reset_and_errors.md), 32-bit. -/
def rCHIP_OFF_ACCESS : Nat := 0x200
def fCHIP_OFF_ACCESS : Fld := ⟨rCHIP_OFF_ACCESS, 31, 0⟩

end Sys2Proof.Machine
end

