-- ==== Sys2Proof/Machine/RegTable.lean ====
section
/-! DEFINITION. The register tables of the spec as data: for every register at offset 0x100 or above of a page, its place,
its access types (R5), its reset value, its bits that read 0, and what its table says of writes (kept while not Idle,
clamped, ignored). Rows are grouped by block. -/

namespace Sys2Proof.Machine

/-- What a register's table says of a written field that is out of range. -/
inductive FieldRule where
  /-- the nearest bound is stored -/
  | clamp (hi lo mn mx : Nat)
  /-- the field keeps its value; 0 is in range too when `zeroOk` -/
  | keep (hi lo mn mx : Nat) (zeroOk : Bool)
  /-- the whole write is ignored; 0 is in range too when `zeroOk` -/
  | drop (hi lo mn mx : Nat) (zeroOk : Bool)
  deriving DecidableEq, Repr

/-- One register, or an array of registers: `cnt` copies `stride` apart, each of them `cnt2` copies `stride2` apart.
`words` is its length in 32-bit words. The masks say which bits are RW, W1C, W1S, RWL and RC; bits in no mask are RO, WO or
reserved. `idle` says that the register changes only while its block is Idle. -/
structure RegRow where
  name : String
  off : Nat
  cnt : Nat
  stride : Nat
  cnt2 : Nat
  stride2 : Nat
  words : Nat
  rw : Nat
  w1c : Nat
  w1s : Nat
  rwl : Nat
  rc : Nat
  reset : Nat
  idle : Bool
  rules : List FieldRule
  deriving DecidableEq, Repr

/-- The registers of PACE. -/
def rowsPACE : List RegRow := [
  ⟨"PACE.CTRL", 0x100, 1, 0, 1, 0, 1, 0x703ff, 0, 0, 0, 0, 0x40064, false, [.keep 18 16 1 6 false, .clamp 9 0 1 1000]⟩,
  ⟨"PACE.LOW_STAT", 0x104, 1, 0, 1, 0, 1, 0, 0xffffff, 0, 0, 0, 0, false, []⟩,
  ⟨"PACE.RATE", 0x200, 24, 4, 1, 0, 1, 0, 0, 0, 0, 0, 0, false, []⟩,
  ⟨"PACE.LOW_THRESH", 0x300, 24, 4, 1, 0, 1, 0xffff, 0, 0, 0, 0, 0, false, []⟩]

/-- The registers of XING. -/
def rowsXING : List RegRow := [
  ⟨"XING.CTRL", 0x100, 1, 0, 1, 0, 1, 0x3fff, 0, 0, 0, 0, 0x32, false, [.clamp 13 0 1 10000]⟩,
  ⟨"XING.LAST_FAULT", 0x104, 1, 0, 1, 0, 1, 0, 0, 0, 0, 0, 0, false, []⟩,
  ⟨"XING.FAULT_CNT", 0x108, 1, 0, 1, 0, 1, 0, 0, 0, 0, 0xffff, 0, false, []⟩,
  ⟨"XING.ISL_CTRL", 0x200, 25, 0x20, 1, 0, 1, 1, 0, 0, 0, 0, 0, false, []⟩,
  ⟨"XING.ISL_STAT", 0x204, 25, 0x20, 1, 0, 1, 0, 0x10, 0, 0, 0, 0, false, []⟩,
  ⟨"XING.PULSE_OVF", 0x208, 25, 0x20, 1, 0, 1, 0, 0xffffffff, 0, 0, 0, 0, false, []⟩,
  ⟨"XING.ISL_ERR_CNT", 0x20c, 25, 0x20, 1, 0, 1, 0, 0, 0, 0, 0xffff, 0, false, []⟩]

/-- The registers of IRQR. -/
def rowsIRQR : List RegRow := [
  ⟨"IRQR.ROUTE", 0x100, 216, 4, 1, 0, 1, 0x807f00ff, 0, 0, 0, 0, 0, false, [.drop 22 16 0 95 false]⟩]

/-- The registers of CLU. -/
def rowsCLU : List RegRow := [
  ⟨"CLU.CORE_RUN", 0x100, 1, 0, 1, 0, 1, 0xff, 0, 0, 0, 0, 0, false, []⟩,
  ⟨"CLU.STAT", 0x104, 1, 0, 1, 0, 1, 0, 0, 0, 0, 0, 0, false, []⟩,
  ⟨"CLU.RESET_VEC", 0x108, 1, 0, 1, 0, 2, 0xfffffffffffffffc, 0, 0, 0, 0, 0x2300000000, false, []⟩,
  ⟨"CLU.MEM_CFG", 0x110, 1, 0, 1, 0, 1, 0x1f, 0, 0, 0, 0, 0, false, []⟩]

/-- The registers of EVT. -/
def rowsEVT : List RegRow := [
  ⟨"EVT.CTRL", 0x100, 1, 0, 1, 0, 1, 0x1f1f01, 0, 0, 0, 0, 0xa1000, false, []⟩,
  ⟨"EVT.E_BASE", 0x108, 1, 0, 1, 0, 2, 0xfffffffffffff000, 0, 0, 0, 0, 0, true, []⟩,
  ⟨"EVT.C_BASE", 0x110, 1, 0, 1, 0, 2, 0xfffffffffffff000, 0, 0, 0, 0, 0, true, []⟩,
  ⟨"EVT.ESEQ_PROD", 0x120, 1, 0, 1, 0, 2, 0, 0, 0, 0, 0, 0, false, []⟩,
  ⟨"EVT.ESEQ_CONS", 0x128, 1, 0, 1, 0, 2, 0xffffffffffffffff, 0, 0, 0, 0, 0, false, []⟩,
  ⟨"EVT.CSEQ_PROD", 0x130, 1, 0, 1, 0, 2, 0xffffffffffffffff, 0, 0, 0, 0, 0, false, []⟩,
  ⟨"EVT.CSEQ_CONS", 0x138, 1, 0, 1, 0, 2, 0, 0, 0, 0, 0, 0, false, []⟩,
  ⟨"EVT.CSEQ_DONE", 0x140, 1, 0, 1, 0, 2, 0, 0, 0, 0, 0, 0, false, []⟩,
  ⟨"EVT.E_LOST", 0x148, 1, 0, 1, 0, 2, 0, 0, 0, 0, 0, 0, false, []⟩,
  ⟨"EVT.EPOCH", 0x150, 1, 0, 1, 0, 2, 0, 0, 0, 0, 0, 0, false, []⟩,
  ⟨"EVT.E_HIGH_WATER", 0x158, 1, 0, 1, 0, 1, 0x1fffff, 0, 0, 0, 0, 0xc000, false, []⟩]

/-- The registers of TIME. -/
def rowsTIME : List RegRow := [
  ⟨"TIME.NOW", 0x100, 1, 0, 1, 0, 2, 0, 0, 0, 0, 0, 0, false, []⟩,
  ⟨"TIME.SET", 0x108, 1, 0, 1, 0, 2, 0, 0, 0, 0, 0, 0, false, []⟩,
  ⟨"TIME.STEP", 0x110, 1, 0, 1, 0, 2, 0, 0, 0, 0, 0, 0, false, []⟩,
  ⟨"TIME.RATE_ADJ", 0x118, 1, 0, 1, 0, 1, 0xffffffff, 0, 0, 0, 0, 0, false, []⟩,
  ⟨"TIME.STAT", 0x120, 1, 0, 1, 0, 1, 0, 2, 0, 0, 0, 0, false, []⟩,
  ⟨"TIME.SLEW_REMAIN", 0x128, 1, 0, 1, 0, 2, 0, 0, 0, 0, 0, 0, false, []⟩,
  ⟨"TIME.TXTS_INFO", 0x130, 1, 0, 1, 0, 1, 0, 0, 0, 0, 0, 0, false, []⟩,
  ⟨"TIME.TXTS_VALUE", 0x138, 1, 0, 1, 0, 2, 0, 0, 0, 0, 0, 0, false, []⟩,
  ⟨"TIME.TXTS_DROP", 0x140, 1, 0, 1, 0, 1, 0, 0, 0, 0, 0xffff, 0, false, []⟩]

/-- The registers of STORE. -/
def rowsSTORE : List RegRow := [
  ⟨"STORE.CMD", 0x100, 1, 0, 1, 0, 1, 0, 0, 0, 0, 0, 0, false, []⟩,
  ⟨"STORE.STAT", 0x104, 1, 0, 1, 0, 1, 0, 0, 0, 0, 0, 0, false, []⟩,
  ⟨"STORE.LOCK", 0x108, 1, 0, 1, 0, 1, 0, 0, 1, 0, 0, 0, false, []⟩,
  ⟨"STORE.LOCK_VIOL", 0x10c, 1, 0, 1, 0, 1, 0, 0, 0, 0, 0xffff, 0, false, []⟩]

/-- The registers of HPORT. -/
def rowsHPORT : List RegRow := [
  ⟨"HPORT.MODE", 0x100, 1, 0, 1, 0, 1, 3, 0, 0, 0, 0, 0, true, [.drop 1 0 0 2 false]⟩,
  ⟨"HPORT.MAC", 0x110, 4, 8, 1, 0, 2, 0xffffffffffff, 0, 0, 0, 0, 0, false, []⟩,
  ⟨"HPORT.IP_ADDR", 0x200, 4, 0x40, 4, 0x10, 4, 0xffffffffffffffffffffffffffffffff, 0, 0, 0, 0, 0, false, []⟩,
  ⟨"HPORT.HOLD_DROP", 0x500, 1, 0, 1, 0, 1, 0, 0, 0, 0, 0xffffffff, 0, false, []⟩,
  ⟨"HPORT.TAG_FAIL", 0x504, 1, 0, 1, 0, 1, 0, 0, 0, 0, 0xffffffff, 0, false, []⟩,
  ⟨"HPORT.CSUM_ERR", 0x508, 1, 0, 1, 0, 1, 0, 0, 0, 0, 0xffffffff, 0, false, []⟩]

/-- The registers of LDT. -/
def rowsLDT : List RegRow := [
  ⟨"LDT.CTRL", 0x100, 1, 0, 1, 0, 1, 0xffff3f31, 0, 0, 0, 0, 0x1b6d0021, true, []⟩,
  ⟨"LDT.ACK_CFG", 0x108, 1, 0, 1, 0, 1, 0xffffff, 0, 0, 0, 0, 0x80fa0, false, [.clamp 23 16 0 64]⟩,
  ⟨"LDT.RTO_CFG", 0x10c, 1, 0, 1, 0, 1, 0x3fffffff, 0, 0, 0, 0, 0x284e20, false, []⟩,
  ⟨"LDT.LOSS_CFG", 0x110, 1, 0, 1, 0, 1, 0xf0f0000, 0, 0, 0, 0, 0xc030000, false, [.clamp 27 24 1 15, .clamp 19 16 1 15]⟩,
  ⟨"LDT.KA_CFG", 0x114, 1, 0, 1, 0, 1, 0xffffffff, 0, 0, 0, 0, 0x138803e8, false, []⟩,
  ⟨"LDT.RC_CFG", 0x118, 1, 0, 1, 0, 1, 0xffffff00, 0, 0, 0, 0, 0x3e84500, false, [.clamp 15 12 1 8]⟩,
  ⟨"LDT.RC_MIN", 0x11c, 1, 0, 1, 0, 1, 0xffffffff, 0, 0, 0, 0, 0x64, false, [.clamp 31 0 10 4294967295]⟩,
  ⟨"LDT.RC_INIT", 0x120, 1, 0, 1, 0, 1, 0xffffffff, 0, 0, 0, 0, 0, false, []⟩,
  ⟨"LDT.RC_INTERVAL", 0x124, 1, 0, 1, 0, 1, 0xffff, 0, 0, 0, 0, 0x1f40, false, [.clamp 15 0 1000 65535]⟩,
  ⟨"LDT.HS_BASE", 0x130, 1, 0, 1, 0, 2, 0xfffffffffffff000, 0, 0, 0, 0, 0, true, []⟩,
  ⟨"LDT.HS_PROD", 0x138, 1, 0, 1, 0, 1, 0, 0, 0, 0, 0, 0, false, []⟩,
  ⟨"LDT.HS_CONS", 0x13c, 1, 0, 1, 0, 1, 0xff, 0, 0, 0, 0, 0, false, []⟩,
  ⟨"LDT.TAG_FAIL", 0x200, 1, 0, 1, 0, 1, 0, 0, 0, 0, 0xffffffff, 0, false, []⟩,
  ⟨"LDT.NO_ASSOC", 0x204, 1, 0, 1, 0, 1, 0, 0, 0, 0, 0xffffffff, 0, false, []⟩,
  ⟨"LDT.MALFORMED", 0x208, 1, 0, 1, 0, 1, 0, 0, 0, 0, 0xffffffff, 0, false, []⟩,
  ⟨"LDT.OUT_OF_WINDOW", 0x20c, 1, 0, 1, 0, 1, 0, 0, 0, 0, 0xffffffff, 0, false, []⟩,
  ⟨"LDT.HS_DROP", 0x210, 1, 0, 1, 0, 1, 0, 0, 0, 0, 0xffffffff, 0, false, []⟩,
  ⟨"LDT.QUIESCE_DROP", 0x214, 1, 0, 1, 0, 1, 0, 0, 0, 0, 0xffffffff, 0, false, []⟩,
  ⟨"LDT.ASSOC_SEL", 0x300, 1, 0, 1, 0, 1, 0xfff, 0, 0, 0, 0, 0, false, []⟩,
  ⟨"LDT.ASSOC_STATE", 0x304, 1, 0, 1, 0, 1, 0, 0, 0, 0, 0, 0, false, []⟩,
  ⟨"LDT.ASSOC_INFO", 0x308, 1, 0, 1, 0, 1, 0, 0, 0, 0, 0, 0, false, []⟩,
  ⟨"LDT.ASSOC_RATE", 0x30c, 1, 0, 1, 0, 1, 0, 0, 0, 0, 0, 0, false, []⟩,
  ⟨"LDT.ASSOC_MALFORMED", 0x310, 1, 0, 1, 0, 1, 0, 0, 0, 0, 0xffffffff, 0, false, []⟩,
  ⟨"LDT.ASSOC_TAG_FAIL", 0x314, 1, 0, 1, 0, 1, 0, 0, 0, 0, 0xffffffff, 0, false, []⟩,
  ⟨"LDT.ASSOC_RETX", 0x318, 1, 0, 1, 0, 1, 0, 0, 0, 0, 0xffffffff, 0, false, []⟩,
  ⟨"LDT.ASSOC_CE", 0x31c, 1, 0, 1, 0, 1, 0, 0, 0, 0, 0xffffffff, 0, false, []⟩]

/-- The registers of CTX. -/
def rowsCTX : List RegRow := [
  ⟨"CTX.BACK_BASE", 0x108, 1, 0, 1, 0, 2, 0xffffffffffe00000, 0, 0, 0, 0, 0, true, []⟩,
  ⟨"CTX.RESIDENT", 0x110, 1, 0, 1, 0, 1, 0, 0, 0, 0, 0, 0, false, []⟩,
  ⟨"CTX.POOL", 0x114, 1, 0, 1, 0, 1, 0, 0, 0, 0, 0x1fff0000, 0, false, []⟩,
  ⟨"CTX.PINNED", 0x118, 1, 0, 1, 0, 1, 0, 0, 0, 0, 0, 0, false, []⟩,
  ⟨"CTX.MISS_CNT", 0x200, 1, 0, 1, 0, 1, 0, 0, 0, 0, 0xffffffff, 0, false, []⟩,
  ⟨"CTX.MISS_DROP", 0x204, 1, 0, 1, 0, 1, 0, 0, 0, 0, 0xffffffff, 0, false, []⟩,
  ⟨"CTX.FETCH_ERR", 0x208, 1, 0, 1, 0, 1, 0, 0, 0, 0, 0xffff, 0, false, []⟩]

/-- The registers of RGN. -/
def rowsRGN : List RegRow := [
  ⟨"RGN.TABLE_BASE", 0x108, 1, 0, 1, 0, 2, 0xffffffffffe00000, 0, 0, 0, 0, 0, true, []⟩,
  ⟨"RGN.VALID_COUNT", 0x110, 1, 0, 1, 0, 1, 0, 0, 0, 0, 0, 0, false, []⟩,
  ⟨"RGN.REVOKING_COUNT", 0x114, 1, 0, 1, 0, 1, 0, 0, 0, 0, 0, 0, false, []⟩,
  ⟨"RGN.NAK_REVOKED", 0x200, 1, 0, 1, 0, 1, 0, 0, 0, 0, 0xffffffff, 0, false, []⟩,
  ⟨"RGN.NAK_INVALID", 0x204, 1, 0, 1, 0, 1, 0, 0, 0, 0, 0xffffffff, 0, false, []⟩,
  ⟨"RGN.NAK_DENIED", 0x208, 1, 0, 1, 0, 1, 0, 0, 0, 0, 0xffffffff, 0, false, []⟩,
  ⟨"RGN.NAK_BOUNDS", 0x20c, 1, 0, 1, 0, 1, 0, 0, 0, 0, 0xffffffff, 0, false, []⟩,
  ⟨"RGN.NAK_RECV_FULL", 0x210, 1, 0, 1, 0, 1, 0, 0, 0, 0, 0xffffffff, 0, false, []⟩,
  ⟨"RGN.NQ_FULL_DROP", 0x214, 1, 0, 1, 0, 1, 0, 0, 0, 0, 0xffffffff, 0, false, []⟩,
  ⟨"RGN.NOT_RUN_DROP", 0x218, 1, 0, 1, 0, 1, 0, 0, 0, 0, 0xffffffff, 0, false, []⟩,
  ⟨"RGN.NQ_BASE", 0x400, 16, 0x20, 1, 0, 2, 0xffffffffffffffc0, 0, 0, 0, 0, 0, false, []⟩,
  ⟨"RGN.NQ_CFG", 0x408, 16, 0x20, 1, 0, 1, 0x1f, 0, 0, 0, 0, 0, false, []⟩,
  ⟨"RGN.NQ_PROD", 0x40c, 16, 0x20, 1, 0, 1, 0, 0, 0, 0, 0, 0, false, []⟩,
  ⟨"RGN.NQ_CONS", 0x410, 16, 0x20, 1, 0, 1, 0xffffffff, 0, 0, 0, 0, 0, false, []⟩,
  ⟨"RGN.RQ_BASE", 0x800, 64, 0x20, 1, 0, 2, 0xfffffffffffffff0, 0, 0, 0, 0, 0, false, []⟩,
  ⟨"RGN.RQ_CFG", 0x808, 64, 0x20, 1, 0, 1, 0xffff0f1f, 0, 0, 0, 0, 0xffff0000, false, [.keep 4 0 4 16 true]⟩,
  ⟨"RGN.RQ_PROD", 0x80c, 64, 0x20, 1, 0, 1, 0xffffffff, 0, 0, 0, 0, 0, false, []⟩,
  ⟨"RGN.RQ_CONS", 0x810, 64, 0x20, 1, 0, 1, 0, 0, 0, 0, 0, 0, false, []⟩]

/-- The registers of NVF. -/
def rowsNVF : List RegRow := [
  ⟨"NVF.CFG", 0x100, 1, 0, 1, 0, 1, 0x7fff, 0, 0, 0, 0, 0x4000, false, [.clamp 14 0 0 16384]⟩,
  ⟨"NVF.STAGE_CFG", 0x104, 1, 0, 1, 0, 1, 0x7fff, 0, 0, 0, 0, 0x3000, false, []⟩,
  ⟨"NVF.URG_CFG", 0x108, 1, 0, 1, 0, 1, 0x3ffff7f, 0, 0, 0, 0, 0x3e80a, false, [.clamp 25 8 100 100000, .clamp 6 0 0 100]⟩,
  ⟨"NVF.WEIGHT", 0x10c, 1, 0, 1, 0, 1, 0xffffffff, 0, 0, 0, 0, 0x1020408, false, [.clamp 31 24 1 255, .clamp 23 16 1 255, .clamp 15 8 1 255, .clamp 7 0 1 255]⟩,
  ⟨"NVF.NS_BASE", 0x110, 1, 0, 1, 0, 2, 0xfffffffffff00000, 0, 0, 0, 0, 0, true, []⟩,
  ⟨"NVF.SWQ_BASE", 0x118, 1, 0, 1, 0, 2, 0xfffffffffffff000, 0, 0, 0, 0, 0, true, []⟩,
  ⟨"NVF.SWQ_CFG", 0x120, 1, 0, 1, 0, 1, 0x1f, 0, 0, 0, 0, 0xa, false, [.keep 4 0 6 16 false]⟩,
  ⟨"NVF.SWQ_PROD", 0x124, 1, 0, 1, 0, 1, 0, 0, 0, 0, 0, 0, false, []⟩,
  ⟨"NVF.SWQ_CONS", 0x128, 1, 0, 1, 0, 1, 0xffffffff, 0, 0, 0, 0, 0, false, []⟩,
  ⟨"NVF.STAGE_FREE", 0x130, 1, 0, 1, 0, 1, 0, 0, 0, 0, 0, 0, false, []⟩,
  ⟨"NVF.OVL_USED", 0x134, 1, 0, 1, 0, 1, 0, 0, 0, 0, 0, 0, false, []⟩,
  ⟨"NVF.WAIT_WRITE", 0x138, 1, 0, 1, 0, 1, 0, 0, 0, 0, 0, 0, false, []⟩,
  ⟨"NVF.SQ_OVERFLOW", 0x200, 1, 0, 1, 0, 1, 0, 0, 0, 0, 0xffffffff, 0, false, []⟩,
  ⟨"NVF.LEN_MISMATCH", 0x204, 1, 0, 1, 0, 1, 0, 0, 0, 0, 0xffffffff, 0, false, []⟩,
  ⟨"NVF.XFER_FAIL", 0x208, 1, 0, 1, 0, 1, 0, 0, 0, 0, 0xffffffff, 0, false, []⟩,
  ⟨"NVF.SWQ_FULL_DROP", 0x20c, 1, 0, 1, 0, 1, 0, 0, 0, 0, 0xffffffff, 0, false, []⟩,
  ⟨"NVF.SHORT_CAPSULE", 0x210, 1, 0, 1, 0, 1, 0, 0, 0, 0, 0xffffffff, 0, false, []⟩,
  ⟨"NVF.CREDIT_WAIT", 0x214, 1, 0, 1, 0, 1, 0, 0, 0, 0, 0xffffffff, 0, false, []⟩,
  ⟨"NVF.NOT_RUN_DROP", 0x218, 1, 0, 1, 0, 1, 0, 0, 0, 0, 0xffffffff, 0, false, []⟩]

/-- The registers of NVTCP. -/
def rowsNVTCP : List RegRow := [
  ⟨"NVTCP.CTRL", 0x100, 1, 0, 1, 0, 1, 0xffff0007, 0, 0, 0, 0, 0x11440003, true, []⟩,
  ⟨"NVTCP.MAX_XFER_REQ", 0x104, 1, 0, 1, 0, 1, 0x1f, 0, 0, 0, 0, 0x10, false, [.clamp 4 0 1 16]⟩,
  ⟨"NVTCP.MSS", 0x108, 1, 0, 1, 0, 1, 0x3fff, 0, 0, 0, 0, 0x2300, false, [.clamp 13 0 536 8960]⟩,
  ⟨"NVTCP.RTO_CFG", 0x10c, 1, 0, 1, 0, 1, 0xffffffff, 0, 0, 0, 0, 0x7d003e8, false, [.clamp 31 16 1 60000, .clamp 15 0 100 65535]⟩,
  ⟨"NVTCP.CONN_BASE", 0x110, 1, 0, 1, 0, 2, 0xfffffffffff00000, 0, 0, 0, 0, 0, true, []⟩,
  ⟨"NVTCP.CONN_COUNT", 0x118, 1, 0, 1, 0, 1, 0, 0, 0, 0, 0, 0, false, []⟩,
  ⟨"NVTCP.HDGST_ERR", 0x200, 1, 0, 1, 0, 1, 0, 0, 0, 0, 0xffffffff, 0, false, []⟩,
  ⟨"NVTCP.DDGST_ERR", 0x204, 1, 0, 1, 0, 1, 0, 0, 0, 0, 0xffffffff, 0, false, []⟩,
  ⟨"NVTCP.FATAL_CLOSE", 0x208, 1, 0, 1, 0, 1, 0, 0, 0, 0, 0xffffffff, 0, false, []⟩,
  ⟨"NVTCP.OOO_DROP", 0x20c, 1, 0, 1, 0, 1, 0, 0, 0, 0, 0xffffffff, 0, false, []⟩]

/-- The registers of SW. -/
def rowsSW : List RegRow := [
  ⟨"SW.CTRL", 0x100, 1, 0, 1, 0, 1, 1, 0, 0, 0, 0, 1, false, []⟩,
  ⟨"SW.MC_CFG", 0x104, 1, 0, 1, 0, 1, 0xffffff, 0, 0, 0, 0, 0x1f4, false, [.clamp 23 0 10 100000]⟩,
  ⟨"SW.PIN_CFG", 0x108, 1, 0, 1, 0, 1, 0xffffffff, 0, 0, 0, 0, 0xffffffff, false, []⟩,
  ⟨"SW.PIN_TABLE", 0x110, 1, 0, 1, 0, 4, 0xffffffffffffffffffffffffffffffff, 0, 0, 0, 0, 0xe4e4e4e4e4e4e4e4e4e4e4e4e4e4e4e4, false, []⟩,
  ⟨"SW.WARE_TABLE", 0x120, 1, 0, 1, 0, 1, 0xffffffff, 0, 0, 0, 0, 0xe4e4e4e4, false, []⟩,
  ⟨"SW.EGR_WEIGHT", 0x130, 1, 0, 1, 0, 1, 0xffffffff, 0, 0, 0, 0, 0x1020408, false, [.clamp 31 24 1 255, .clamp 23 16 1 255, .clamp 15 8 1 255, .clamp 7 0 1 255]⟩,
  ⟨"SW.EGR_WEIGHT6", 0x134, 1, 0, 1, 0, 1, 0xff, 0, 0, 0, 0, 2, false, [.clamp 7 0 1 255]⟩,
  ⟨"SW.ECN_MARK_CELLS", 0x140, 8, 4, 1, 0, 1, 0x7ffff, 0, 0, 0, 0, 0x2000, false, []⟩,
  ⟨"SW.LAST_CRAZED", 0x180, 1, 0, 1, 0, 1, 0, 0, 0, 0, 0, 0, false, []⟩,
  ⟨"SW.CRAZED_IN", 0x200, 1, 0, 1, 0, 1, 0, 0, 0, 0, 0xffffffff, 0, false, []⟩,
  ⟨"SW.CRAZED_DROP", 0x204, 1, 0, 1, 0, 1, 0, 0, 0, 0, 0xffffffff, 0, false, []⟩,
  ⟨"SW.MC_FAIL", 0x208, 1, 0, 1, 0, 1, 0, 0, 0, 0, 0xffffffff, 0, false, []⟩,
  ⟨"SW.NO_DEST", 0x20c, 1, 0, 1, 0, 1, 0, 0, 0, 0, 0xffffffff, 0, false, []⟩,
  ⟨"SW.DEST_DOWN_DROP", 0x210, 1, 0, 1, 0, 1, 0, 0, 0, 0, 0xffffffff, 0, false, []⟩,
  ⟨"SW.IN_DROP", 0x220, 8, 4, 1, 0, 1, 0, 0, 0, 0, 0xffffffff, 0, false, []⟩,
  ⟨"SW.ECN_MARKED", 0x240, 8, 4, 1, 0, 1, 0, 0, 0, 0, 0xffffffff, 0, false, []⟩]

/-- The registers of BUF. -/
def rowsBUF : List RegRow := [
  ⟨"BUF.RES", 0x100, 1, 0, 1, 0, 1, 0x7ffff, 0, 0, 0, 0, 0x5000, false, []⟩,
  ⟨"BUF.RES", 0x104, 1, 0, 1, 0, 1, 0x7ffff, 0, 0, 0, 0, 0x5000, false, []⟩,
  ⟨"BUF.RES", 0x108, 1, 0, 1, 0, 1, 0x7ffff, 0, 0, 0, 0, 0x5000, false, []⟩,
  ⟨"BUF.RES", 0x10c, 1, 0, 1, 0, 1, 0x7ffff, 0, 0, 0, 0, 0x5000, false, []⟩,
  ⟨"BUF.RES", 0x110, 1, 0, 1, 0, 1, 0x7ffff, 0, 0, 0, 0, 0x5000, false, []⟩,
  ⟨"BUF.RES", 0x114, 1, 0, 1, 0, 1, 0x7ffff, 0, 0, 0, 0, 0xc000, false, []⟩,
  ⟨"BUF.RES", 0x118, 1, 0, 1, 0, 1, 0x7ffff, 0, 0, 0, 0, 0x5000, false, []⟩,
  ⟨"BUF.RES", 0x11c, 1, 0, 1, 0, 1, 0x7ffff, 0, 0, 0, 0, 0x1000, false, []⟩,
  ⟨"BUF.OVF_CFG", 0x120, 1, 0, 1, 0, 1, 0xffff00ff, 0, 0, 0, 0, 0x100000c0, false, []⟩,
  ⟨"BUF.OVF_BASE", 0x128, 1, 0, 1, 0, 2, 0xffffffff00000000, 0, 0, 0, 0, 0, true, []⟩,
  ⟨"BUF.BANK_EN", 0x130, 1, 0, 1, 0, 1, 0xff, 0, 0, 0, 0, 0xff, false, []⟩,
  ⟨"BUF.FREE", 0x140, 1, 0, 1, 0, 1, 0, 0, 0, 0, 0, 0, false, []⟩,
  ⟨"BUF.SHARED_FREE", 0x144, 1, 0, 1, 0, 1, 0, 0, 0, 0, 0, 0, false, []⟩,
  ⟨"BUF.OVF_USE", 0x148, 1, 0, 1, 0, 1, 0, 0, 0, 0, 0, 0, false, []⟩,
  ⟨"BUF.COMMITTED", 0x160, 8, 4, 1, 0, 1, 0, 0, 0, 0, 0, 0, false, []⟩,
  ⟨"BUF.CLASS_USE", 0x180, 8, 4, 1, 0, 1, 0, 0, 0, 0, 0, 0, false, []⟩,
  ⟨"BUF.ECC_CORR", 0x200, 1, 0, 1, 0, 1, 0, 0, 0, 0, 0xffffffff, 0, false, []⟩]

/-- The registers of MARK. -/
def rowsMARK : List RegRow := [
  ⟨"MARK.CTRL", 0x100, 1, 0, 1, 0, 1, 0x1f, 0, 0, 0, 0, 2, false, [.clamp 4 0 0 16]⟩,
  ⟨"MARK.LANE_STAT", 0x104, 1, 0, 1, 0, 1, 0, 0, 0, 0, 0, 0, false, []⟩,
  ⟨"MARK.KEY_READY", 0x108, 1, 0, 1, 0, 1, 0, 0, 0, 0, 0, 0, false, []⟩,
  ⟨"MARK.KEY_REFILL", 0x10c, 1, 0, 1, 0, 1, 0, 0, 0, 0, 0, 0, false, []⟩,
  ⟨"MARK.KEY_SEL", 0x110, 1, 0, 1, 0, 1, 0xfff, 0, 0, 0, 0, 0, false, []⟩,
  ⟨"MARK.KEY_INFO", 0x114, 1, 0, 1, 0, 1, 0, 0, 0, 0, 0, 0, false, []⟩,
  ⟨"MARK.PIO_CTRL", 0x200, 1, 0, 1, 0, 1, 0xffff003, 0, 0, 0, 0, 0, false, [.clamp 27 24 0 8]⟩,
  ⟨"MARK.PIO_CMD", 0x204, 1, 0, 1, 0, 1, 0, 0, 0, 0, 0, 0, false, []⟩,
  ⟨"MARK.PIO_DATA", 0x208, 1, 0, 1, 0, 2, 0, 0, 0, 0, 0, 0, false, []⟩,
  ⟨"MARK.PIO_LAST", 0x210, 1, 0, 1, 0, 2, 0, 0, 0, 0, 0, 0, false, []⟩,
  ⟨"MARK.PIO_COUNT", 0x218, 1, 0, 1, 0, 2, 0, 0, 0, 0, 0, 0, false, []⟩,
  ⟨"MARK.PIO_RESULT", 0x240, 16, 4, 1, 0, 1, 0, 0, 0, 0, 0, 0, false, []⟩,
  ⟨"MARK.FP_DONE", 0x300, 1, 0, 1, 0, 1, 0, 0, 0, 0, 0xffffffff, 0, false, []⟩,
  ⟨"MARK.FP_RESTART", 0x304, 1, 0, 1, 0, 1, 0, 0, 0, 0, 0xffffffff, 0, false, []⟩,
  ⟨"MARK.NO_KEY_CNT", 0x308, 1, 0, 1, 0, 1, 0, 0, 0, 0, 0xffffffff, 0, false, []⟩,
  ⟨"MARK.ECC_CORR", 0x30c, 1, 0, 1, 0, 1, 0, 0, 0, 0, 0xffff, 0, false, []⟩]

/-- The registers of GROG. -/
def rowsGROG : List RegRow := [
  ⟨"GROG.DOM_BASE", 0x108, 1, 0, 1, 0, 2, 0xffffffffffff0000, 0, 0, 0, 0, 0, true, []⟩,
  ⟨"GROG.HOT_BASE", 0x110, 1, 0, 1, 0, 2, 0xffffffffc0000000, 0, 0, 0, 0, 0, true, []⟩,
  ⟨"GROG.ILOG_BASE", 0x118, 1, 0, 1, 0, 2, 0xffffffffc0000000, 0, 0, 0, 0, 0, true, []⟩,
  ⟨"GROG.ILOG_PROD", 0x120, 1, 0, 1, 0, 2, 0, 0, 0, 0, 0, 0, false, []⟩,
  ⟨"GROG.ILOG_MERGED", 0x128, 1, 0, 1, 0, 2, 0, 0, 0, 0, 0, 0, false, []⟩,
  ⟨"GROG.MERGE_CFG", 0x130, 1, 0, 1, 0, 1, 0x7f, 0, 0, 0, 0, 0x4b, false, [.clamp 6 0 0 100]⟩,
  ⟨"GROG.MERGE_SEQ", 0x138, 1, 0, 1, 0, 2, 0, 0, 0, 0, 0, 0, false, []⟩,
  ⟨"GROG.STAT", 0x140, 1, 0, 1, 0, 1, 0, 0, 0, 0, 0, 0, false, []⟩,
  ⟨"GROG.FIDX_PAGES", 0x144, 1, 0, 1, 0, 1, 0, 0, 0, 0, 0, 0, false, []⟩,
  ⟨"GROG.HOT_HIT", 0x200, 1, 0, 1, 0, 1, 0, 0, 0, 0, 0xffffffff, 0, false, []⟩,
  ⟨"GROG.FIDX_HIT", 0x204, 1, 0, 1, 0, 1, 0, 0, 0, 0, 0xffffffff, 0, false, []⟩,
  ⟨"GROG.MISS", 0x208, 1, 0, 1, 0, 1, 0, 0, 0, 0, 0xffffffff, 0, false, []⟩,
  ⟨"GROG.PROBE", 0x20c, 1, 0, 1, 0, 1, 0, 0, 0, 0, 0xffffffff, 0, false, []⟩,
  ⟨"GROG.STALE", 0x210, 1, 0, 1, 0, 1, 0, 0, 0, 0, 0xffffffff, 0, false, []⟩,
  ⟨"GROG.COLLISION", 0x214, 1, 0, 1, 0, 1, 0, 0, 0, 0, 0xffffffff, 0, false, []⟩,
  ⟨"GROG.NOT_INDEXED", 0x218, 1, 0, 1, 0, 1, 0, 0, 0, 0, 0xffffffff, 0, false, []⟩,
  ⟨"GROG.PIN_WAIT", 0x21c, 1, 0, 1, 0, 1, 0, 0, 0, 0, 0xffffffff, 0, false, []⟩]

/-- The registers of WEDGE. -/
def rowsWEDGE : List RegRow := [
  ⟨"WEDGE.CTRL", 0x100, 1, 0, 1, 0, 1, 0x707, 0, 0, 0, 0, 0x101, false, [.clamp 10 8 0 4, .clamp 2 0 0 4]⟩,
  ⟨"WEDGE.BUSY", 0x104, 1, 0, 1, 0, 1, 0, 0, 0, 0, 0, 0, false, []⟩,
  ⟨"WEDGE.IN_BYTES", 0x108, 1, 0, 1, 0, 2, 0, 0, 0, 0, 0, 0, false, []⟩,
  ⟨"WEDGE.OUT_BYTES", 0x110, 1, 0, 1, 0, 2, 0, 0, 0, 0, 0, 0, false, []⟩,
  ⟨"WEDGE.UNITS", 0x200, 1, 0, 1, 0, 1, 0, 0, 0, 0, 0xffffffff, 0, false, []⟩,
  ⟨"WEDGE.STORED", 0x204, 1, 0, 1, 0, 1, 0, 0, 0, 0, 0xffffffff, 0, false, []⟩,
  ⟨"WEDGE.VERIFY_FAIL", 0x208, 1, 0, 1, 0, 1, 0, 0, 0, 0, 0xffffffff, 0, false, []⟩,
  ⟨"WEDGE.DECODED", 0x20c, 1, 0, 1, 0, 1, 0, 0, 0, 0, 0xffffffff, 0, false, []⟩,
  ⟨"WEDGE.DECODE_ERR", 0x210, 1, 0, 1, 0, 1, 0, 0, 0, 0, 0xffffffff, 0, false, []⟩,
  ⟨"WEDGE.JOBS", 0x214, 1, 0, 1, 0, 1, 0, 0, 0, 0, 0xffffffff, 0, false, []⟩]

/-- The registers of KEYS. -/
def rowsKEYS : List RegRow := [
  ⟨"KEYS.CTRL", 0x100, 1, 0, 1, 0, 1, 0, 0, 0, 1, 0, 1, false, []⟩,
  ⟨"KEYS.WRAP_BASE", 0x108, 1, 0, 1, 0, 2, 0xffffffffff800000, 0, 0, 0, 0, 0, true, []⟩,
  ⟨"KEYS.ACTIVE", 0x110, 1, 0, 1, 0, 1, 0, 0, 0, 0, 0, 0, false, []⟩,
  ⟨"KEYS.PINNED", 0x114, 1, 0, 1, 0, 1, 0, 0, 0, 0, 0, 0, false, []⟩,
  ⟨"KEYS.KEK_VALID", 0x118, 1, 0, 1, 0, 1, 0, 0, 0, 0, 0, 1, false, []⟩,
  ⟨"KEYS.STAT", 0x120, 1, 0, 1, 0, 1, 0, 0, 0, 0, 0, 0, false, []⟩,
  ⟨"KEYS.FAULT_CNT", 0x200, 1, 0, 1, 0, 1, 0, 0, 0, 0, 0xffffffff, 0, false, []⟩,
  ⟨"KEYS.INTEGRITY_ERR", 0x204, 1, 0, 1, 0, 1, 0, 0, 0, 0, 0xffff, 0, false, []⟩]

/-- The registers of DCIPH. -/
def rowsDCIPH : List RegRow := [
  ⟨"DCIPH.BUSY", 0x104, 1, 0, 1, 0, 1, 0, 0, 0, 0, 0, 0, false, []⟩,
  ⟨"DCIPH.ENC_UNITS", 0x200, 1, 0, 1, 0, 1, 0, 0, 0, 0, 0xffffffff, 0, false, []⟩,
  ⟨"DCIPH.DEC_UNITS", 0x204, 1, 0, 1, 0, 1, 0, 0, 0, 0, 0xffffffff, 0, false, []⟩,
  ⟨"DCIPH.KEY_WAIT", 0x208, 1, 0, 1, 0, 1, 0, 0, 0, 0, 0xffffffff, 0, false, []⟩,
  ⟨"DCIPH.GUARD_ERR", 0x20c, 1, 0, 1, 0, 1, 0, 0, 0, 0, 0xffff, 0, false, []⟩]

/-- The registers of GCIPH. -/
def rowsGCIPH : List RegRow := [
  ⟨"GCIPH.LOCK", 0x100, 1, 0, 1, 0, 1, 0, 0, 0, 0, 0, 0, false, []⟩,
  ⟨"GCIPH.RELEASE", 0x104, 1, 0, 1, 0, 1, 0, 0, 0, 0, 0, 0, false, []⟩,
  ⟨"GCIPH.FORCE_RELEASE", 0x108, 1, 0, 1, 0, 1, 0, 0, 0, 0, 0, 0, false, []⟩,
  ⟨"GCIPH.LEASE", 0x10c, 1, 0, 1, 0, 1, 0x3fff, 0, 0, 0, 0, 0x64, false, [.clamp 13 0 1 10000]⟩,
  ⟨"GCIPH.WAIT", 0x110, 1, 0, 1, 0, 1, 0, 0, 1, 0, 0, 0, false, []⟩,
  ⟨"GCIPH.LEASE_LEFT", 0x114, 1, 0, 1, 0, 1, 0, 0, 0, 0, 0, 0, false, []⟩,
  ⟨"GCIPH.STAT", 0x118, 1, 0, 1, 0, 1, 0, 0, 0, 0, 0, 0, false, []⟩,
  ⟨"GCIPH.BUSY_CNT", 0x200, 1, 0, 1, 0, 1, 0, 0, 0, 0, 0xffffffff, 0, false, []⟩,
  ⟨"GCIPH.ABORT_CNT", 0x204, 1, 0, 1, 0, 1, 0, 0, 0, 0, 0xffff, 0, false, []⟩,
  ⟨"GCIPH.TAG_FAIL", 0x208, 1, 0, 1, 0, 1, 0, 0, 0, 0, 0xffff, 0, false, []⟩]

/-- The registers of TAMP. -/
def rowsTAMP : List RegRow := [
  ⟨"TAMP.CLASS", 0x100, 1, 0, 1, 0, 1, 0, 0, 0, 0x1f, 0, 0x37, false, []⟩,
  ⟨"TAMP.LATCH", 0x104, 1, 0, 1, 0, 1, 0, 0, 0, 0, 0, 0, false, []⟩,
  ⟨"TAMP.WARN", 0x108, 1, 0, 1, 0, 1, 0, 0x3f, 0, 0, 0, 0, false, []⟩,
  ⟨"TAMP.STATE", 0x10c, 1, 0, 1, 0, 1, 0, 0, 0, 0, 0, 0, false, []⟩,
  ⟨"TAMP.READING", 0x110, 5, 4, 1, 0, 1, 0, 0, 0, 0, 0, 0, false, []⟩,
  ⟨"TAMP.ZERO_TIME", 0x130, 1, 0, 1, 0, 1, 0, 0, 0, 0, 0, 0, false, []⟩]

/-- The registers of LMAP. -/
def rowsLMAP : List RegRow := [
  ⟨"LMAP.VOL_BASE", 0x108, 1, 0, 1, 0, 2, 0xffffffffffc00000, 0, 0, 0, 0, 0, true, []⟩,
  ⟨"LMAP.TEN_BASE", 0x110, 1, 0, 1, 0, 2, 0xfffffffffff80000, 0, 0, 0, 0, 0, true, []⟩,
  ⟨"LMAP.CACHE_BASE", 0x118, 1, 0, 1, 0, 2, 0xffffffffc0000000, 0, 0, 0, 0, 0, true, []⟩,
  ⟨"LMAP.CACHE_CFG", 0x120, 1, 0, 1, 0, 1, 0x7f, 0, 0, 0, 0, 0x19, false, [.clamp 6 0 0 90]⟩,
  ⟨"LMAP.DIRTY", 0x124, 1, 0, 1, 0, 1, 0, 0, 0, 0, 0, 0, false, []⟩,
  ⟨"LMAP.CREATE_SEQ", 0x128, 1, 0, 1, 0, 2, 0, 0, 0, 0, 0, 0, false, []⟩,
  ⟨"LMAP.COMMIT_SEQ", 0x130, 1, 0, 1, 0, 2, 0, 0, 0, 0, 0, 0, false, []⟩,
  ⟨"LMAP.CID_FREE", 0x138, 1, 0, 1, 0, 2, 0, 0, 0, 0, 0, 0, false, []⟩,
  ⟨"LMAP.PAGE_MISS", 0x200, 1, 0, 1, 0, 1, 0, 0, 0, 0, 0xffffffff, 0, false, []⟩,
  ⟨"LMAP.PAGE_WB", 0x204, 1, 0, 1, 0, 1, 0, 0, 0, 0, 0xffffffff, 0, false, []⟩,
  ⟨"LMAP.PAGE_COPY", 0x208, 1, 0, 1, 0, 1, 0, 0, 0, 0, 0xffffffff, 0, false, []⟩,
  ⟨"LMAP.REF_OPS", 0x20c, 1, 0, 1, 0, 1, 0, 0, 0, 0, 0xffffffff, 0, false, []⟩]

/-- The registers of MOULD. -/
def rowsMOULD : List RegRow := [
  ⟨"MOULD.TABLE_BASE", 0x108, 1, 0, 1, 0, 2, 0xfffffffffe000000, 0, 0, 0, 0, 0, true, []⟩,
  ⟨"MOULD.COUNT", 0x110, 1, 0, 1, 0, 1, 0, 0, 0, 0, 0, 0, false, []⟩,
  ⟨"MOULD.SEALING", 0x114, 1, 0, 1, 0, 1, 0, 0, 0, 0, 0, 0, false, []⟩,
  ⟨"MOULD.LAST_HOLD", 0x118, 1, 0, 1, 0, 1, 0, 0, 0, 0, 0, 0, false, []⟩,
  ⟨"MOULD.DELETE_LEFT", 0x11c, 1, 0, 1, 0, 1, 0, 0, 0, 0, 0, 0, false, []⟩]

/-- The registers of SLIP. -/
def rowsSLIP : List RegRow := [
  ⟨"SLIP.REP_BASE", 0x108, 1, 0, 1, 0, 2, 0xffffffffffc00000, 0, 0, 0, 0, 0, true, []⟩,
  ⟨"SLIP.SYNC_CFG", 0x110, 1, 0, 1, 0, 1, 0xffffffff, 0, 0, 0, 0, 0x4007d0, false, [.clamp 15 0 100 65535]⟩,
  ⟨"SLIP.TGT_CFG", 0x114, 1, 0, 1, 0, 1, 7, 0, 0, 0, 0, 4, false, [.keep 2 0 1 4 false]⟩,
  ⟨"SLIP.RECORDS_SENT", 0x200, 1, 0, 1, 0, 1, 0, 0, 0, 0, 0xffffffff, 0, false, []⟩,
  ⟨"SLIP.RECORDS_APPLIED", 0x204, 1, 0, 1, 0, 1, 0, 0, 0, 0, 0xffffffff, 0, false, []⟩,
  ⟨"SLIP.SYNC_FAIL", 0x208, 1, 0, 1, 0, 1, 0, 0, 0, 0, 0xffffffff, 0, false, []⟩,
  ⟨"SLIP.DUP_DROP", 0x20c, 1, 0, 1, 0, 1, 0, 0, 0, 0, 0xffffffff, 0, false, []⟩,
  ⟨"SLIP.BACKLOG_BITS", 0x210, 1, 0, 1, 0, 1, 0, 0, 0, 0, 0, 0, false, []⟩]

/-- The registers of FTL.
[DESIGN CHOICE: log entry 2] -/
def rowsFTL : List RegRow := [
  ⟨"FTL.CTRL", 0x100, 1, 0, 1, 0, 1, 1, 0, 0, 0, 0, 1, false, []⟩,
  ⟨"FTL.BLOCK_BASE", 0x108, 1, 0, 1, 0, 2, 0xffffffffe0000000, 0, 0, 0, 0, 0, true, []⟩,
  ⟨"FTL.SEG_BASE", 0x110, 1, 0, 1, 0, 2, 0xffffffffc0000000, 0, 0, 0, 0, 0, true, []⟩,
  ⟨"FTL.MPD_BASE", 0x118, 1, 0, 1, 0, 2, 0xffffffffc0000000, 0, 0, 0, 0, 0, true, []⟩,
  ⟨"FTL.MPD_LIMIT", 0x120, 1, 0, 1, 0, 1, 0x1fffffff, 0, 0, 0, 0, 0x1000000, false, [.clamp 28 0 0 33554432]⟩,
  ⟨"FTL.MPD_LIMIT", 0x124, 1, 0, 1, 0, 1, 0x1fffffff, 0, 0, 0, 0, 0x2000000, false, [.clamp 28 0 0 33554432]⟩,
  ⟨"FTL.MPD_LIMIT", 0x128, 1, 0, 1, 0, 1, 0, 0, 0, 0, 0, 0x8000000, false, [.clamp 28 0 0 33554432]⟩,
  ⟨"FTL.PSLC_CFG", 0x130, 1, 0, 1, 0, 1, 0xfff0fff, 0, 0, 0, 0, 0x3200032, false, []⟩,
  ⟨"FTL.ROW_CFG", 0x134, 1, 0, 1, 0, 1, 0xffff, 0, 0, 0, 0, 0x32, false, [.clamp 15 0 5 10000]⟩,
  ⟨"FTL.READ_CFG", 0x138, 1, 0, 1, 0, 1, 0x10f, 0, 0, 0, 0, 0x108, false, []⟩,
  ⟨"FTL.BAD_CFG", 0x13c, 1, 0, 1, 0, 1, 0x3ff0f0f, 0, 0, 0, 0, 0x140306, false, []⟩,
  ⟨"FTL.WEAR_CFG", 0x140, 1, 0, 1, 0, 1, 0xffffff, 0, 0, 0, 0, 0xbb8, false, []⟩,
  ⟨"FTL.PATROL_CFG", 0x144, 1, 0, 1, 0, 1, 0xffff, 0, 0, 0, 0, 0x1e, false, [.clamp 15 0 1 365]⟩,
  ⟨"FTL.RESERVE_CFG", 0x148, 1, 0, 1, 0, 1, 0xffff, 0, 0, 0, 0, 0x10, false, [.clamp 15 0 4 4096]⟩,
  ⟨"FTL.CKPT_CFG", 0x14c, 1, 0, 1, 0, 1, 0xff00ffff, 0, 0, 0, 0, 0x400003e8, false, [.clamp 31 24 1 255, .clamp 15 0 10 60000]⟩,
  ⟨"FTL.STREAM_CFG", 0x150, 1, 0, 1, 0, 1, 0xff, 0, 0, 0, 0, 0x20, false, [.clamp 7 0 1 128]⟩,
  ⟨"FTL.STREAM_CFG", 0x154, 1, 0, 1, 0, 1, 0xff, 0, 0, 0, 0, 0x10, false, [.clamp 7 0 1 128]⟩,
  ⟨"FTL.STREAM_CFG", 0x158, 1, 0, 1, 0, 1, 0xff, 0, 0, 0, 0, 4, false, [.clamp 7 0 1 128]⟩,
  ⟨"FTL.STREAM_CFG", 0x15c, 1, 0, 1, 0, 1, 0xff, 0, 0, 0, 0, 0x10, false, [.clamp 7 0 1 128]⟩,
  ⟨"FTL.STREAM_CFG", 0x160, 1, 0, 1, 0, 1, 0xff, 0, 0, 0, 0, 8, false, [.clamp 7 0 1 128]⟩,
  ⟨"FTL.STREAM_CFG", 0x164, 1, 0, 1, 0, 1, 0xff, 0, 0, 0, 0, 0x10, false, [.clamp 7 0 1 128]⟩,
  ⟨"FTL.MLOG_BASE", 0x170, 1, 0, 1, 0, 2, 0xffffffffffffffc0, 0, 0, 0, 0, 0, true, []⟩,
  ⟨"FTL.MLOG_CFG", 0x178, 1, 0, 1, 0, 1, 0x1f, 0, 0, 0, 0, 0x10, false, [.keep 4 0 10 20 false]⟩,
  ⟨"FTL.MLOG_PROD", 0x180, 1, 0, 1, 0, 2, 0, 0, 0, 0, 0, 0, false, []⟩,
  ⟨"FTL.MLOG_CONS", 0x188, 1, 0, 1, 0, 2, 0xffffffffffffffff, 0, 0, 0, 0, 0, false, []⟩,
  ⟨"FTL.FREE_GRAINS", 0x190, 1, 0, 1, 0, 2, 0, 0, 0, 0, 0, 0, false, []⟩,
  ⟨"FTL.CKPT_SEQ", 0x198, 1, 0, 1, 0, 2, 0, 0, 0, 0, 0, 0, false, []⟩,
  ⟨"FTL.GROUP_SEL", 0x1a0, 1, 0, 1, 0, 1, 3, 0, 0, 0, 0, 0, false, []⟩,
  ⟨"FTL.GROUP_BUDGET", 0x1a4, 1, 0, 1, 0, 1, 0, 0, 0, 0, 0, 0, false, []⟩,
  ⟨"FTL.GROUP_PSLC", 0x1a8, 1, 0, 1, 0, 1, 0, 0, 0, 0, 0, 0, false, []⟩,
  ⟨"FTL.GROUP_FREE", 0x1ac, 1, 0, 1, 0, 1, 0, 0, 0, 0, 0, 0, false, []⟩,
  ⟨"FTL.GROUP_EMEAN", 0x1b0, 1, 0, 1, 0, 1, 0, 0, 0, 0, 0, 0, false, []⟩,
  ⟨"FTL.READ_RETRY", 0x200, 1, 0, 1, 0, 1, 0, 0, 0, 0, 0xffffffff, 0, false, []⟩,
  ⟨"FTL.SOFT_DECODE", 0x204, 1, 0, 1, 0, 1, 0, 0, 0, 0, 0xffffffff, 0, false, []⟩,
  ⟨"FTL.UNCORRECTABLE", 0x208, 1, 0, 1, 0, 1, 0, 0, 0, 0, 0xffffffff, 0, false, []⟩,
  ⟨"FTL.PROG_FAIL", 0x20c, 1, 0, 1, 0, 1, 0, 0, 0, 0, 0xffffffff, 0, false, []⟩,
  ⟨"FTL.ERASE_FAIL", 0x210, 1, 0, 1, 0, 1, 0, 0, 0, 0, 0xffffffff, 0, false, []⟩,
  ⟨"FTL.PAD_GRAINS", 0x214, 1, 0, 1, 0, 1, 0, 0, 0, 0, 0xffffffff, 0, false, []⟩,
  ⟨"FTL.MAP_READS", 0x218, 1, 0, 1, 0, 1, 0, 0, 0, 0, 0xffffffff, 0, false, []⟩,
  ⟨"FTL.MLOG_LOST", 0x21c, 1, 0, 1, 0, 1, 0, 0, 0, 0, 0xffffffff, 0, false, []⟩,
  ⟨"FTL.RETIRED", 0x220, 1, 0, 1, 0, 1, 0, 0, 0, 0, 0, 0, false, []⟩]

/-- The registers of PUG.
[DESIGN CHOICE: log entry 2] -/
def rowsPUG : List RegRow := [
  ⟨"PUG.CTRL", 0x100, 1, 0, 1, 0, 1, 0xf03, 0, 0, 0, 0, 0x403, false, [.clamp 11 8 1 15]⟩,
  ⟨"PUG.AGE_CFG", 0x104, 1, 0, 1, 0, 1, 0xfff03ff, 0, 0, 0, 0, 0x2d00018, false, [.clamp 9 0 1 1023]⟩,
  ⟨"PUG.WEIGHT_CFG", 0x108, 1, 0, 1, 0, 1, 0xffffffff, 0, 0, 0, 0, 0x4008000, false, [.clamp 31 16 1 65535]⟩,
  ⟨"PUG.FREE_CFG", 0x10c, 1, 0, 1, 0, 1, 0xffffffff, 0, 0, 0, 0, 0x20000400, false, []⟩,
  ⟨"PUG.SHARE_CFG", 0x110, 1, 0, 1, 0, 1, 0x7f7f, 0, 0, 0, 0, 0x3c14, false, [.clamp 14 8 10 100, .clamp 6 0 10 100]⟩,
  ⟨"PUG.CKPT_CFG", 0x114, 1, 0, 1, 0, 1, 0xffff00ff, 0, 0, 0, 0, 0xc80008, false, [.clamp 31 16 10 60000]⟩,
  ⟨"PUG.GROUP_SEL", 0x118, 1, 0, 1, 0, 1, 3, 0, 0, 0, 0, 0, false, []⟩,
  ⟨"PUG.GROUP_STATE", 0x11c, 1, 0, 1, 0, 1, 0, 0, 0, 0, 0, 0, false, []⟩,
  ⟨"PUG.VICTIM", 0x120, 1, 0, 1, 0, 1, 0, 0, 0, 0, 0, 0xffffffff, false, []⟩,
  ⟨"PUG.VICTIM_SCORE", 0x124, 1, 0, 1, 0, 1, 0, 0, 0, 0, 0, 0, false, []⟩,
  ⟨"PUG.F_AVAIL", 0x128, 1, 0, 1, 0, 1, 0, 0, 0, 0, 0, 0, false, []⟩,
  ⟨"PUG.RECLAIM_CREDIT", 0x130, 1, 0, 1, 0, 2, 0, 0, 0, 0, 0, 0, false, []⟩,
  ⟨"PUG.SEGS_RECLAIMED", 0x200, 1, 0, 1, 0, 1, 0, 0, 0, 0, 0xffffffff, 0, false, []⟩,
  ⟨"PUG.GRAINS_MOVED", 0x204, 1, 0, 1, 0, 1, 0, 0, 0, 0, 0xffffffff, 0, false, []⟩,
  ⟨"PUG.MOVES_VOID", 0x208, 1, 0, 1, 0, 1, 0, 0, 0, 0, 0xffffffff, 0, false, []⟩,
  ⟨"PUG.SRC_RECON", 0x20c, 1, 0, 1, 0, 1, 0, 0, 0, 0, 0xffffffff, 0, false, []⟩,
  ⟨"PUG.DEST_FAIL", 0x210, 1, 0, 1, 0, 1, 0, 0, 0, 0, 0xffffffff, 0, false, []⟩,
  ⟨"PUG.ERASE_REFUSED", 0x214, 1, 0, 1, 0, 1, 0, 0, 0, 0, 0xffffffff, 0, false, []⟩,
  ⟨"PUG.HOST_WAIT", 0x218, 1, 0, 1, 0, 1, 0, 0, 0, 0, 0xffffffff, 0, false, []⟩,
  ⟨"PUG.POISONED", 0x21c, 1, 0, 1, 0, 1, 0, 0, 0, 0, 0xffffffff, 0, false, []⟩]

/-- The registers of PAR. -/
def rowsPAR : List RegRow := [
  ⟨"PAR.GROUP_SEL", 0x100, 1, 0, 1, 0, 1, 3, 0, 0, 0, 0, 0, false, []⟩,
  ⟨"PAR.GROUP_MEMBERS", 0x104, 1, 0, 1, 0, 1, 0, 0, 0, 0, 0, 0, false, []⟩,
  ⟨"PAR.GROUP_CFG", 0x108, 1, 0, 1, 0, 1, 0, 0, 0, 0, 0, 0, false, []⟩,
  ⟨"PAR.GROUP_STATE", 0x10c, 1, 0, 1, 0, 1, 0, 0, 0, 0, 0, 0, false, []⟩,
  ⟨"PAR.REPAIR_1", 0x200, 1, 0, 1, 0, 1, 0, 0, 0, 0, 0xffffffff, 0, false, []⟩,
  ⟨"PAR.REPAIR_2", 0x204, 1, 0, 1, 0, 1, 0, 0, 0, 0, 0xffffffff, 0, false, []⟩,
  ⟨"PAR.TAG_ERR", 0x208, 1, 0, 1, 0, 1, 0, 0, 0, 0, 0xffffffff, 0, false, []⟩,
  ⟨"PAR.LOST_UNITS", 0x20c, 1, 0, 1, 0, 1, 0, 0, 0, 0, 0xffffffff, 0, false, []⟩]

/-- The registers of SAG. -/
def rowsSAG : List RegRow := [
  ⟨"SAG.CTRL", 0x100, 1, 0, 1, 0, 1, 1, 0, 0, 0, 0, 0, false, []⟩,
  ⟨"SAG.SIZE", 0x104, 1, 0, 1, 0, 1, 0x7fff, 0, 0, 0, 0, 0x4000, false, []⟩,
  ⟨"SAG.AREA_CFG", 0x108, 1, 0, 1, 0, 1, 0x7fff7fff, 0, 0, 0, 0, 0x4003000, false, []⟩,
  ⟨"SAG.BASE", 0x110, 1, 0, 1, 0, 2, 0xffffffffc0000000, 0, 0, 0, 0, 0, true, []⟩,
  ⟨"SAG.DUMP_KEY", 0x118, 1, 0, 1, 0, 1, 0xffff, 0, 0, 0, 0, 0, false, []⟩,
  ⟨"SAG.JCFG", 0x11c, 1, 0, 1, 0, 1, 0xff, 0, 0, 0, 0, 0x40, false, [.clamp 7 0 1 255]⟩,
  ⟨"SAG.DELTA_USE", 0x120, 1, 0, 1, 0, 1, 0, 0, 0, 0, 0, 0, false, []⟩,
  ⟨"SAG.LOG_USE", 0x124, 1, 0, 1, 0, 1, 0, 0, 0, 0, 0, 0, false, []⟩,
  ⟨"SAG.DUMP_STAT", 0x128, 1, 0, 1, 0, 1, 0, 0, 0, 0, 0, 0, false, []⟩,
  ⟨"SAG.LAST_COMPLETE", 0x130, 1, 0, 1, 0, 2, 0, 0, 0, 0, 0, 0, false, []⟩,
  ⟨"SAG.DUMP_ID", 0x138, 1, 0, 1, 0, 2, 0, 0, 0, 0, 0, 0, false, []⟩,
  ⟨"SAG.DUMP_BYTES", 0x140, 1, 0, 1, 0, 2, 0, 0, 0, 0, 0, 0, false, []⟩,
  ⟨"SAG.DUMP_TIME_US", 0x148, 1, 0, 1, 0, 1, 0, 0, 0, 0, 0, 0, false, []⟩,
  ⟨"SAG.DELTA_WAIT", 0x200, 1, 0, 1, 0, 1, 0, 0, 0, 0, 0xffffffff, 0, false, []⟩,
  ⟨"SAG.PEER_REPAIR", 0x204, 1, 0, 1, 0, 1, 0, 0, 0, 0, 0xffffffff, 0, false, []⟩,
  ⟨"SAG.RESYNC_ROWS", 0x208, 1, 0, 1, 0, 1, 0, 0, 0, 0, 0xffffffff, 0, false, []⟩,
  ⟨"SAG.INDETERMINATE", 0x20c, 1, 0, 1, 0, 1, 0, 0, 0, 0, 0xffffffff, 0, false, []⟩]

/-- The registers of RBLD. -/
def rowsRBLD : List RegRow := [
  ⟨"RBLD.CFG", 0x100, 1, 0, 1, 0, 1, 0xffffffff, 0, 0, 0, 0, 0x3e80258, false, [.clamp 31 16 10 60000]⟩,
  ⟨"RBLD.SHARE_CFG", 0x104, 1, 0, 1, 0, 1, 0x7f7f, 0, 0, 0, 0, 0x3c14, false, [.clamp 14 8 10 100, .clamp 6 0 10 100]⟩,
  ⟨"RBLD.GROUP_SEL", 0x110, 1, 0, 1, 0, 1, 3, 0, 0, 0, 0, 0, false, []⟩,
  ⟨"RBLD.SEGS_LEFT", 0x114, 1, 0, 1, 0, 1, 0, 0, 0, 0, 0, 0, false, []⟩,
  ⟨"RBLD.BYTES_MOVED", 0x118, 1, 0, 1, 0, 2, 0, 0, 0, 0, 0, 0, false, []⟩,
  ⟨"RBLD.RATE", 0x120, 1, 0, 1, 0, 1, 0, 0, 0, 0, 0, 0, false, []⟩,
  ⟨"RBLD.MEMBER", 0x200, 24, 4, 1, 0, 1, 0, 0, 0, 0, 0, 0, false, []⟩,
  ⟨"RBLD.POISONED", 0x300, 1, 0, 1, 0, 1, 0, 0, 0, 0, 0xffffffff, 0, false, []⟩,
  ⟨"RBLD.LOST_READS", 0x304, 1, 0, 1, 0, 1, 0, 0, 0, 0, 0xffffffff, 0, false, []⟩]

/-- The registers of MLINK. -/
def rowsMLINK : List RegRow := [
  ⟨"MLINK.CTRL", 0x100, 1, 0, 1, 0, 1, 1, 0, 0, 0, 0, 1, false, []⟩,
  ⟨"MLINK.STAT", 0x104, 1, 0, 1, 0, 1, 0, 0, 0, 0, 0, 0, false, []⟩,
  ⟨"MLINK.TIMEOUT", 0x108, 1, 0, 1, 0, 1, 0xffff, 0, 0, 0, 0, 0x32, false, [.clamp 15 0 1 1000]⟩,
  ⟨"MLINK.PRESENCE", 0x10c, 1, 0, 1, 0, 1, 0x7f, 0, 0, 0, 0, 0x7f, false, []⟩,
  ⟨"MLINK.GEOM", 0x110, 1, 0, 1, 0, 1, 0, 0, 0, 0, 0, 0, false, []⟩,
  ⟨"MLINK.T_PROG", 0x114, 1, 0, 1, 0, 1, 0, 0, 0, 0, 0, 0, false, []⟩,
  ⟨"MLINK.T_OTHER", 0x118, 1, 0, 1, 0, 1, 0, 0, 0, 0, 0, 0, false, []⟩,
  ⟨"MLINK.SERIAL", 0x120, 1, 0, 1, 0, 2, 0, 0, 0, 0, 0, 0, false, []⟩,
  ⟨"MLINK.FW_VER", 0x128, 1, 0, 1, 0, 1, 0, 0, 0, 0, 0, 0, false, []⟩,
  ⟨"MLINK.RESV_GEN", 0x12c, 1, 0, 1, 0, 1, 0, 0, 0, 0, 0, 0, false, []⟩,
  ⟨"MLINK.OUTSTANDING", 0x130, 1, 0, 1, 0, 1, 0, 0, 0, 0, 0, 0, false, []⟩,
  ⟨"MLINK.CRC_ERR", 0x200, 1, 0, 1, 0, 1, 0, 0, 0, 0, 0xffffffff, 0, false, []⟩,
  ⟨"MLINK.REPLAY", 0x204, 1, 0, 1, 0, 1, 0, 0, 0, 0, 0xffffffff, 0, false, []⟩,
  ⟨"MLINK.RETRAIN", 0x208, 1, 0, 1, 0, 1, 0, 0, 0, 0, 0xffffffff, 0, false, []⟩,
  ⟨"MLINK.PKT_ERR", 0x20c, 1, 0, 1, 0, 1, 0, 0, 0, 0, 0xffffffff, 0, false, []⟩,
  ⟨"MLINK.OP_TIMEOUT", 0x210, 1, 0, 1, 0, 1, 0, 0, 0, 0, 0xffffffff, 0, false, []⟩,
  ⟨"MLINK.PROG_FAIL", 0x214, 1, 0, 1, 0, 1, 0, 0, 0, 0, 0xffffffff, 0, false, []⟩,
  ⟨"MLINK.ERASE_FAIL", 0x218, 1, 0, 1, 0, 1, 0, 0, 0, 0, 0xffffffff, 0, false, []⟩,
  ⟨"MLINK.NOT_OWNER", 0x21c, 1, 0, 1, 0, 1, 0, 0, 0, 0, 0xffffffff, 0, false, []⟩]

/-- The registers of PLINK.
[DESIGN CHOICE: log entry 86] -/
def rowsPLINK : List RegRow := [
  ⟨"PLINK.CTRL", 0x100, 1, 0, 1, 0, 1, 1, 0, 0, 0, 0, 1, false, []⟩,
  ⟨"PLINK.STAT", 0x104, 1, 0, 1, 0, 1, 0, 0, 0, 0, 0, 0, false, []⟩,
  ⟨"PLINK.MAC", 0x110, 1, 0, 1, 0, 2, 0xffffffffffff, 0, 0, 0, 0, 0, false, []⟩,
  ⟨"PLINK.IP_ADDR", 0x200, 1, 0, 1, 0, 4, 0xffffffffffffffffffffffffffffffff, 0, 0, 0, 0, 0, false, []⟩,
  ⟨"PLINK.HOLD_DROP", 0x500, 1, 0, 1, 0, 1, 0, 0, 0, 0, 0xffffffff, 0, false, []⟩,
  ⟨"PLINK.TAG_FAIL", 0x504, 1, 0, 1, 0, 1, 0, 0, 0, 0, 0xffffffff, 0, false, []⟩,
  ⟨"PLINK.CSUM_ERR", 0x508, 1, 0, 1, 0, 1, 0, 0, 0, 0, 0xffffffff, 0, false, []⟩,
  ⟨"PLINK.NOT_LDT", 0x50c, 1, 0, 1, 0, 1, 0, 0, 0, 0, 0xffffffff, 0, false, []⟩,
  ⟨"PLINK.FEC_UNCORR", 0x510, 1, 0, 1, 0, 1, 0, 0, 0, 0, 0xffffffff, 0, false, []⟩]

/-- The registers of PEERCTL. -/
def rowsPEERCTL : List RegRow := [
  ⟨"PEERCTL.CFG", 0x100, 1, 0, 1, 0, 1, 0xffff0000, 0, 0, 0, 0, 0, true, [.clamp 31 16 0 65531]⟩,
  ⟨"PEERCTL.CTRL", 0x104, 1, 0, 1, 0, 1, 1, 0, 0, 0, 0, 1, false, []⟩,
  ⟨"PEERCTL.HB_CFG", 0x108, 1, 0, 1, 0, 1, 0xffff00ff, 0, 0, 0, 0, 0x140001, false, []⟩,
  ⟨"PEERCTL.MIRROR_CFG", 0x10c, 1, 0, 1, 0, 1, 0xffff, 0, 0, 0, 0, 0x3e8, false, [.clamp 15 0 50 65535]⟩,
  ⟨"PEERCTL.HOLD_CFG", 0x110, 1, 0, 1, 0, 1, 0xffff, 0, 0, 0, 0, 0x1f4, false, [.clamp 15 0 10 10000]⟩,
  ⟨"PEERCTL.STATE", 0x114, 1, 0, 1, 0, 1, 0, 0, 0, 0, 0, 0xaa, false, []⟩,
  ⟨"PEERCTL.ARBITER", 0x118, 1, 0, 1, 0, 1, 0, 0, 0, 0, 0, 0, false, []⟩,
  ⟨"PEERCTL.INDEX_GROUP", 0x11c, 1, 0, 1, 0, 1, 0xf, 0, 0, 0, 0, 4, false, []⟩,
  ⟨"PEERCTL.HOME_BASE", 0x120, 1, 0, 1, 0, 2, 0xffffffffffffc000, 0, 0, 0, 0, 0, true, []⟩,
  ⟨"PEERCTL.RUN_BASE", 0x128, 1, 0, 1, 0, 2, 0xfffffffffffe0000, 0, 0, 0, 0, 0, true, []⟩,
  ⟨"PEERCTL.POOL", 0x130, 1, 0, 1, 0, 1, 0, 0, 0, 0, 0, 0, false, []⟩,
  ⟨"PEERCTL.PEER_COMMIT_SEQ", 0x138, 1, 0, 1, 0, 2, 0, 0, 0, 0, 0, 0, false, []⟩,
  ⟨"PEERCTL.RESYNC_LEFT", 0x140, 1, 0, 1, 0, 2, 0, 0, 0, 0, 0, 0, false, []⟩,
  ⟨"PEERCTL.HB_MISSED", 0x200, 1, 0, 1, 0, 1, 0, 0, 0, 0, 0xffffffff, 0, false, []⟩,
  ⟨"PEERCTL.MSG_SENT", 0x204, 1, 0, 1, 0, 1, 0, 0, 0, 0, 0xffffffff, 0, false, []⟩,
  ⟨"PEERCTL.MSG_RECV", 0x208, 1, 0, 1, 0, 1, 0, 0, 0, 0, 0xffffffff, 0, false, []⟩,
  ⟨"PEERCTL.CANCEL_SENT", 0x20c, 1, 0, 1, 0, 1, 0, 0, 0, 0, 0xffffffff, 0, false, []⟩,
  ⟨"PEERCTL.MIRROR_BREAKS", 0x210, 1, 0, 1, 0, 1, 0, 0, 0, 0, 0xffffffff, 0, false, []⟩,
  ⟨"PEERCTL.FWD_DROP", 0x214, 1, 0, 1, 0, 1, 0, 0, 0, 0, 0xffffffff, 0, false, []⟩]

/-- The registers of HBM. -/
def rowsHBM : List RegRow := [
  ⟨"HBM.CTRL", 0x100, 1, 0, 1, 0, 1, 1, 0, 0, 0, 0, 0, false, []⟩,
  ⟨"HBM.STAT", 0x104, 1, 0, 1, 0, 1, 0, 0, 0, 0, 0, 1, false, []⟩,
  ⟨"HBM.SCRUB_CFG", 0x108, 1, 0, 1, 0, 1, 0xffff, 0, 0, 0, 0, 0x18, false, []⟩,
  ⟨"HBM.TEMP", 0x10c, 1, 0, 1, 0, 1, 0, 0, 0, 0, 0, 0, false, []⟩,
  ⟨"HBM.LAST_UNCORR", 0x110, 1, 0, 1, 0, 2, 0, 0, 0, 0, 0, 0, false, []⟩,
  ⟨"HBM.CORR", 0x200, 1, 0, 1, 0, 1, 0, 0, 0, 0, 0xffffffff, 0, false, []⟩,
  ⟨"HBM.UNCORR", 0x204, 1, 0, 1, 0, 1, 0, 0, 0, 0, 0xffffffff, 0, false, []⟩,
  ⟨"HBM.POISON_WRITE", 0x208, 1, 0, 1, 0, 1, 0, 0, 0, 0, 0xffffffff, 0, false, []⟩,
  ⟨"HBM.SR_REFUSED", 0x20c, 1, 0, 1, 0, 1, 0, 0, 0, 0, 0xffffffff, 0, false, []⟩]

/-- The registers of HCH. -/
def rowsHCH : List RegRow := [
  ⟨"HCH.CORR", 0x200, 2, 4, 1, 0, 1, 0, 0, 0, 0, 0xffffffff, 0, false, []⟩,
  ⟨"HCH.UNCORR", 0x208, 2, 4, 1, 0, 1, 0, 0, 0, 0, 0xffffffff, 0, false, []⟩]

/-- The registers of SRAM. -/
def rowsSRAM : List RegRow := [
  ⟨"SRAM.CORR", 0x200, 6, 8, 1, 0, 1, 0, 0, 0, 0, 0xffffffff, 0, false, []⟩,
  ⟨"SRAM.UNCORR", 0x204, 6, 8, 1, 0, 1, 0, 0, 0, 0, 0xffffffff, 0, false, []⟩,
  ⟨"SRAM.LAST_ERR", 0x300, 1, 0, 1, 0, 1, 0, 0, 0, 0, 0, 0, false, []⟩]

/-- The registers of SYSC. -/
def rowsSYSC : List RegRow := [
  ⟨"SYSC.CTRL", 0x100, 1, 0, 1, 0, 1, 3, 0, 0, 0, 0, 0, false, []⟩,
  ⟨"SYSC.WAY_EN", 0x104, 1, 0, 1, 0, 1, 0xffff, 0, 0, 0, 0, 0xffff, false, []⟩,
  ⟨"SYSC.WAY_STAT", 0x108, 1, 0, 1, 0, 1, 0, 0, 0, 0, 0, 0xffff0000, false, []⟩,
  ⟨"SYSC.LOCK", 0x10c, 1, 0, 1, 0, 1, 0xffff, 0, 0, 0, 0, 0, false, []⟩,
  ⟨"SYSC.MB_CFG", 0x110, 1, 0, 1, 0, 1, 0x1ffffff, 0, 0, 0, 0, 0x18007d0, false, [.clamp 24 16 1 511]⟩,
  ⟨"SYSC.MB_STAT", 0x114, 1, 0, 1, 0, 1, 0, 0, 0, 0, 0, 0, false, []⟩,
  ⟨"SYSC.LAST_INVAL_LOCKED", 0x118, 1, 0, 1, 0, 1, 0, 0, 0, 0, 0, 0, false, []⟩,
  ⟨"SYSC.HIT", 0x200, 1, 0, 1, 0, 1, 0, 0, 0, 0, 0xffffffff, 0, false, []⟩,
  ⟨"SYSC.MISS", 0x204, 1, 0, 1, 0, 1, 0, 0, 0, 0, 0xffffffff, 0, false, []⟩,
  ⟨"SYSC.DEPARTING_WAIT", 0x208, 1, 0, 1, 0, 1, 0, 0, 0, 0, 0xffffffff, 0, false, []⟩,
  ⟨"SYSC.MB_FULL_WAIT", 0x20c, 1, 0, 1, 0, 1, 0, 0, 0, 0, 0xffffffff, 0, false, []⟩,
  ⟨"SYSC.NO_ALLOC", 0x210, 1, 0, 1, 0, 1, 0, 0, 0, 0, 0xffffffff, 0, false, []⟩,
  ⟨"SYSC.ECC_CORR", 0x214, 1, 0, 1, 0, 1, 0, 0, 0, 0, 0xffffffff, 0, false, []⟩,
  ⟨"SYSC.ECC_REFETCH", 0x218, 1, 0, 1, 0, 1, 0, 0, 0, 0, 0xffffffff, 0, false, []⟩]

/-- The registers of QOS. -/
def rowsQOS : List RegRow := [
  ⟨"QOS.LIM_BASE", 0x108, 1, 0, 1, 0, 2, 0xfffffffffff00000, 0, 0, 0, 0, 0, true, []⟩,
  ⟨"QOS.HIST_BASE", 0x110, 1, 0, 1, 0, 2, 0xfffffffffffff000, 0, 0, 0, 0, 0, true, []⟩,
  ⟨"QOS.HELD_NOW", 0x118, 1, 0, 1, 0, 1, 0, 0, 0, 0, 0, 0, false, []⟩,
  ⟨"QOS.HELD", 0x200, 1, 0, 1, 0, 1, 0, 0, 0, 0, 0xffffffff, 0, false, []⟩,
  ⟨"QOS.SAMPLES", 0x204, 1, 0, 1, 0, 1, 0, 0, 0, 0, 0xffffffff, 0, false, []⟩]

/-- The registers of TALLY. -/
def rowsTALLY : List RegRow := [
  ⟨"TALLY.SET_BASE", 0x108, 1, 0, 1, 0, 2, 0xffffffffffffe000, 0, 0, 0, 0, 0, true, []⟩,
  ⟨"TALLY.SET_EN", 0x110, 8, 4, 1, 0, 1, 0xffffffff, 0, 0, 0, 0, 0, false, []⟩,
  ⟨"TALLY.MINUTE", 0x130, 1, 0, 1, 0, 2, 0, 0, 0, 0, 0, 0, false, []⟩,
  ⟨"TALLY.LAST_CLOSE", 0x138, 1, 0, 1, 0, 2, 0, 0, 0, 0, 0, 0, false, []⟩,
  ⟨"TALLY.CLOSE_US", 0x140, 1, 0, 1, 0, 1, 0, 0, 0, 0, 0, 0, false, []⟩,
  ⟨"TALLY.OVERRUN", 0x200, 1, 0, 1, 0, 1, 0, 0, 0, 0, 0xffffffff, 0, false, []⟩,
  ⟨"TALLY.DISCARDED", 0x204, 1, 0, 1, 0, 1, 0, 0, 0, 0, 0xffffffff, 0, false, []⟩]

/-- The registers of PWR. -/
def rowsPWR : List RegRow := [
  ⟨"PWR.CTRL", 0x100, 1, 0, 1, 0, 1, 0x3ff0001, 0, 0, 0, 0, 0xa0000, false, [.clamp 25 16 1 1000]⟩,
  ⟨"PWR.WAKE_EN", 0x104, 1, 0, 1, 0, 1, 7, 0, 0, 0, 0, 3, false, []⟩,
  ⟨"PWR.WAKE_TIME", 0x108, 1, 0, 1, 0, 2, 0xffffffffffffffff, 0, 0, 0, 0, 0, false, []⟩,
  ⟨"PWR.COLD_CAUSE", 0x110, 1, 0, 1, 0, 1, 0, 0, 0, 0, 0, 0, false, []⟩,
  ⟨"PWR.BANK_GATE", 0x114, 1, 0, 1, 0, 1, 0xff, 0, 0, 0, 0, 0, false, []⟩,
  ⟨"PWR.DOMAIN", 0x200, 33, 4, 1, 0, 1, 0, 0, 0, 0, 0xffff, 0, false, []⟩]

/-- The registers of AON. -/
def rowsAON : List RegRow := [
  ⟨"AON.SW_ADDR", 0x100, 1, 0, 1, 0, 1, 0xffff8, 0, 0, 0, 0, 0, false, []⟩,
  ⟨"AON.SW_DATA", 0x108, 1, 0, 1, 0, 2, 0xffffffffffffffff, 0, 0, 0, 0, 0, false, []⟩,
  ⟨"AON.SAVE_USED", 0x110, 33, 4, 1, 0, 1, 0, 0, 0, 0, 0, 0, false, []⟩,
  ⟨"AON.ECC_CORR", 0x200, 1, 0, 1, 0, 1, 0, 0, 0, 0, 0xffffffff, 0, false, []⟩]

/-- The registers of SVC.
[DESIGN CHOICE: log entry 86] -/
def rowsSVC : List RegRow := [
  ⟨"SVC.CTRL", 0x100, 1, 0, 1, 0, 1, 5, 0, 0, 0x310, 0, 0, false, [.keep 9 8 0 2 false]⟩,
  ⟨"SVC.STAT", 0x104, 1, 0, 1, 0, 1, 0, 0, 0, 0, 0, 0, false, []⟩,
  ⟨"SVC.MAC", 0x108, 1, 0, 1, 0, 2, 0xffffffffffff, 0, 0, 0, 0, 0, false, []⟩,
  ⟨"SVC.I3C_CFG", 0x110, 1, 0, 1, 0, 1, 0x17f, 0, 0, 0, 0, 0x13a, false, []⟩,
  ⟨"SVC.I3C_DA", 0x114, 1, 0, 1, 0, 1, 0, 0, 0, 0, 0, 0, false, []⟩,
  ⟨"SVC.RX_MSG", 0x200, 1, 0, 1, 0, 1, 0, 0, 0, 0, 0xffffffff, 0, false, []⟩,
  ⟨"SVC.TX_MSG", 0x204, 1, 0, 1, 0, 1, 0, 0, 0, 0, 0xffffffff, 0, false, []⟩,
  ⟨"SVC.RX_DROP", 0x208, 1, 0, 1, 0, 1, 0, 0, 0, 0, 0xffffffff, 0, false, []⟩,
  ⟨"SVC.DUP", 0x20c, 1, 0, 1, 0, 1, 0, 0, 0, 0, 0xffffffff, 0, false, []⟩,
  ⟨"SVC.REFUSED", 0x210, 1, 0, 1, 0, 1, 0, 0, 0, 0, 0xffffffff, 0, false, []⟩]

/-- The registers of UPD. -/
def rowsUPD : List RegRow := [
  ⟨"UPD.CFG", 0x100, 1, 0, 1, 0, 1, 0xf00ffff, 0, 0, 0, 0, 0x2000384, false, [.clamp 27 24 1 15]⟩,
  ⟨"UPD.SETTINGS_POLICY", 0x104, 1, 0, 1, 0, 1, 1, 0, 0, 0, 0, 0, false, []⟩,
  ⟨"UPD.PKG_BASE", 0x108, 1, 0, 1, 0, 2, 0xfffffffffe000000, 0, 0, 0, 0, 0, true, []⟩,
  ⟨"UPD.STATE", 0x110, 1, 0, 1, 0, 1, 0, 0, 0, 0, 0, 0, false, []⟩,
  ⟨"UPD.SLOT", 0x114, 1, 0, 1, 0, 1, 0, 0, 0, 0, 0, 0, false, []⟩,
  ⟨"UPD.ROLLBACK_FLOOR", 0x118, 1, 0, 1, 0, 1, 0, 0, 0, 0, 0, 0, false, []⟩,
  ⟨"UPD.KEY_REVOKE", 0x11c, 1, 0, 1, 0, 1, 0, 0, 0xf, 0, 0, 0, false, []⟩,
  ⟨"UPD.DEVICE_ID", 0x120, 1, 0, 1, 0, 1, 0, 0, 0, 0, 0, 0x9600b0, false, []⟩,
  ⟨"UPD.DIE_ID", 0x128, 1, 0, 1, 0, 4, 0, 0, 0, 0, 0, 0, false, []⟩,
  ⟨"UPD.LOCK_WAIT", 0x138, 1, 0, 1, 0, 1, 0xffff, 0, 0, 0, 0, 0x3e8, false, [.clamp 15 0 1 60000]⟩,
  ⟨"UPD.PROGRESS", 0x140, 1, 0, 1, 0, 2, 0, 0, 0, 0, 0, 0, false, []⟩,
  ⟨"UPD.RUNNING_VER", 0x148, 1, 0, 1, 0, 1, 0, 0, 0, 0, 0, 0, false, []⟩,
  ⟨"UPD.STAGED_VER", 0x14c, 1, 0, 1, 0, 1, 0, 0, 0, 0, 0, 0, false, []⟩,
  ⟨"UPD.VERIFY_FAIL", 0x200, 1, 0, 1, 0, 1, 0, 0, 0, 0, 0xffffffff, 0, false, []⟩,
  ⟨"UPD.STAGE_FAIL", 0x204, 1, 0, 1, 0, 1, 0, 0, 0, 0, 0xffffffff, 0, false, []⟩,
  ⟨"UPD.FALLBACKS", 0x208, 1, 0, 1, 0, 1, 0, 0, 0, 0, 0xffffffff, 0, false, []⟩]

/-- The registers of CHIP. -/
def rowsCHIP : List RegRow := [
  ⟨"CHIP.RESET_CTRL", 0x100, 1, 0, 1, 0, 1, 0, 0, 0, 0, 0, 0, false, []⟩,
  ⟨"CHIP.RESET_CAUSE", 0x104, 1, 0, 1, 0, 1, 0, 0, 0, 0, 0, 0, false, []⟩,
  ⟨"CHIP.START_STAGE", 0x108, 1, 0, 1, 0, 1, 0xf, 0, 0, 0, 0, 0, false, []⟩,
  ⟨"CHIP.WDOG", 0x10c, 1, 0, 1, 0, 1, 0x1ffff, 0, 0, 0, 0, 0x78, false, []⟩,
  ⟨"CHIP.FATAL", 0x110, 1, 0, 1, 0, 1, 1, 0, 0, 0, 0, 0, false, []⟩,
  ⟨"CHIP.WARM_COUNT", 0x114, 1, 0, 1, 0, 1, 0, 0, 0, 0, 0, 0, false, []⟩,
  ⟨"CHIP.FAULT_PAGES", 0x120, 7, 4, 1, 0, 1, 0, 0, 0, 0, 0, 0, false, []⟩,
  ⟨"CHIP.OFF_ACCESS", 0x200, 1, 0, 1, 0, 1, 0, 0, 0, 0, 0xffffffff, 0, false, []⟩]

/-- The register rows of a page, by the number of the page. -/
def pageRows (p : Nat) : List RegRow :=
  if p == 0x6 then rowsPACE
  else if p == 0x5 then rowsXING
  else if p == 0x9 then rowsIRQR
  else if 0x10 ≤ p && p < 0x1c then rowsCLU
  else if p == 0x8 then rowsEVT
  else if p == 0x4 then rowsTIME
  else if p == 0x3 then rowsSTORE
  else if 0x20 ≤ p && p < 0x28 then rowsHPORT
  else if p == 0x38 then rowsLDT
  else if p == 0x39 then rowsCTX
  else if p == 0x3a then rowsRGN
  else if p == 0x40 then rowsNVF
  else if p == 0x3b then rowsNVTCP
  else if p == 0x30 then rowsSW
  else if p == 0x31 then rowsBUF
  else if 0xa0 ≤ p && p < 0xa4 then rowsMARK
  else if 0xa4 ≤ p && p < 0xa8 then rowsGROG
  else if 0xa8 ≤ p && p < 0xac then rowsWEDGE
  else if p == 0x4d then rowsKEYS
  else if 0xac ≤ p && p < 0xb0 then rowsDCIPH
  else if p == 0x4c then rowsGCIPH
  else if p == 0x4e then rowsTAMP
  else if p == 0x50 then rowsLMAP
  else if p == 0x51 then rowsMOULD
  else if p == 0x52 then rowsSLIP
  else if p == 0x58 then rowsFTL
  else if p == 0x59 then rowsPUG
  else if p == 0x5a then rowsPAR
  else if p == 0x5b then rowsSAG
  else if p == 0x5c then rowsRBLD
  else if 0x60 ≤ p && p < 0x78 then rowsMLINK
  else if 0x28 ≤ p && p < 0x2c then rowsPLINK
  else if p == 0x90 then rowsPEERCTL
  else if 0x81 ≤ p && p < 0x84 then rowsHBM
  else if 0xc0 ≤ p && p < 0xd8 then rowsHCH
  else if p == 0x84 then rowsSRAM
  else if p == 0x80 then rowsSYSC
  else if p == 0x41 then rowsQOS
  else if p == 0x42 then rowsTALLY
  else if p == 0x1 then rowsPWR
  else if p == 0x2 then rowsAON
  else if p == 0x88 then rowsSVC
  else if p == 0x89 then rowsUPD
  else if p == 0x0 then rowsCHIP
  else []

/-- The index of a hit in an array of registers: which copy and which byte within it. -/
def RegRow.hit (r : RegRow) (o : Nat) : Option Nat :=
  if o < r.off then none
  else
    let d := o - r.off
    let i := if r.cnt = 1 then 0 else d / r.stride
    let d1 := d - i * r.stride
    let j := if r.cnt2 = 1 then 0 else d1 / r.stride2
    let d2 := d1 - j * r.stride2
    if i < r.cnt && j < r.cnt2 && d2 < 4 * r.words then some d2 else none

/-- The row that holds the offset `o` of a page, with the byte position of `o` within the register. -/
def findRow : List RegRow → Nat → Option (RegRow × Nat)
  | [], _ => none
  | r :: rs, o => match r.hit o with
    | some d => some (r, d)
    | none => findRow rs o

/-- The reset value of the 32-bit word at window offset `a` (R5; 0 for a reserved offset, R6). CLU0 has its core 0
released (R52).
[DEDUCED: log entry 1] [DESIGN CHOICE: log entry 2] -/
def resetWord (a : Nat) : Word :=
  if a = rCLU_CORE_RUN 0 ∨ a = rCLU_STAT 0 then 1
  else match findRow (pageRows (a / 0x10000)) (a % 0x10000) with
    | some (r, d) => BitVec.ofNat 32 (r.reset / 2 ^ (8 * d))
    | none => 0

end Sys2Proof.Machine
end

