-- ==== Sys2Proof/Machine/TypesPlat.lean ====
section
/-! DEFINITION. The platform's state as plain data: block pages, the event and command rings, the timebase, the settings
store, crossings and islands, power domains, core clusters, always-on memory, start-up and pins. -/

namespace Sys2Proof.Machine

/-- BLK_STAT.STATE (R44, R45). -/
inductive BlkState where
  | off | idle | run | quiescing | quiesced | fault
  deriving DecidableEq, Repr

/-- The header of a block page (R44, R45, R47). -/
structure Page where
  st : BlkState := .idle
  enable : Bool := false
  quiesce : Bool := false
  /-- BLK_CTRL.RESET reads 1 until the reset has finished -/
  resetting : Bool := false
  irqStat : Word := 0
  irqEn : Word := 0
  errCap : Byte := 0
  infoA : Word := 0
  infoB : Word := 0
  /-- error capture is armed (R47) -/
  armed : Bool := true
  /-- the block's event sequence, whose low 32 bits BLK_EVSEQ shows -/
  evseq : Nat := 0
  scratch : Word := 0
  deriving DecidableEq, Repr

/-- A command taken from the command ring and not yet completed (R59). -/
structure Running where
  page : Nat
  opcode : Nat
  notify : Bool
  cookie : DWord
  args : List Nat
  deriving DecidableEq, Repr

/-- EVT's ring positions (R56-R60). They live in the hardware area of always-on memory. -/
structure EvtSt where
  eseqProd : Nat := 0
  eseqCons : Nat := 0
  cseqProd : Nat := 0
  cseqCons : Nat := 0
  cseqDone : Nat := 0
  /-- completed commands above `cseqDone`, rising (R59) -/
  ahead : List Nat := []
  eLost : Nat := 0
  /-- the run of overwrites in progress: its first and last overwritten sequence (R58) -/
  ovRun : Option (Nat × Nat) := none
  /-- taking is stopped on an unexpected CSEQ (R60) -/
  seqStop : Bool := false
  epoch : Nat := 0
  /-- RING_START has been posted since the last start (R56) -/
  started : Bool := false
  /-- the reason the next RING_START carries (R54) -/
  startReason : Nat := 0
  /-- commands taken and not completed, by CSEQ -/
  running : Tab Running := []
  deriving DecidableEq, Repr

/-- An entry of the two-step transmit-timestamp queue (TIME.TXTS_INFO, TXTS_VALUE). -/
structure TxTs where
  port : Nat
  msgType : Nat
  seqId : Nat
  value : Nat
  deriving DecidableEq, Repr

/-- The timebase (R61). -/
structure TimeSt where
  now : Nat := 0
  /-- ns of negative step not yet absorbed -/
  slewRemain : Nat := 0
  slewing : Bool := false
  refLost : Bool := false
  /-- the reference runs -/
  refOn : Bool := true
  /-- the fraction of a nanosecond that the rate correction has gathered, in 1/1,024 ppb of 10 ns -/
  frac : Int := 0
  /-- the two-step transmit-timestamp queue, oldest first, at most 64 -/
  txts : List TxTs := []
  deriving DecidableEq, Repr

/-- The settings store (R63-R65). A row is keyed by 65,536 * bank + row; its 64 bytes are one little-endian number. -/
structure StoreSt where
  rows : Tab Nat := []
  /-- rows whose own check fails (R65) -/
  torn : List Nat := []
  /-- stage slots 0-63: [31] VALID [16] BANK [15:0] ROW, as STORE.STAGE_ADDR -/
  stageAddr : Tab Nat := []
  /-- the 64 data bytes of a stage slot, as one little-endian number -/
  stageData : Tab Nat := []
  /-- the OP that is running -/
  busy : Option Nat := none
  lastOp : Nat := 0
  lastResult : Nat := 0
  bootBank : Nat := 0
  deriving DecidableEq, Repr

/-- A clocked island (R29-R36). -/
structure Island where
  clkRun : Bool := true
  /-- CLK_STOP is written and the stop not yet taken back -/
  clkStop : Bool := false
  refOn : Bool := true
  inReset : Bool := false
  pulseLost : Bool := false
  pulseOvf : Word := 0
  deriving DecidableEq, Repr

/-- A handshake that a bridge holds for an island-clock edge (R33): its value, the samples that the island side will take of it (R30), and who
waits for it: the engine of a page, or a core's load or store (R37). -/
structure Handshake where
  value : Nat
  samples : List Nat
  engine : Option Nat
  deriving DecidableEq, Repr

/-- A crossing of an island: its pulse bridge (R31) and its waiting handshake (R33). -/
structure Crossing where
  /-- a toggle awaits its acknowledgement -/
  toggle : Bool := false
  /-- the 4-bit saturating count at the source side -/
  count : Nat := 0
  /-- the events that the outstanding toggle carries -/
  carried : Nat := 0
  /-- the handshake that waits for an island-clock edge -/
  waiting : Option Handshake := none
  deriving DecidableEq, Repr

/-- PWR.DOMAIN.STATE (R400). -/
inductive DomState where
  | firing | draining | entering | soak | banked | waking
  deriving DecidableEq, Repr

/-- The command that runs for a domain: PWR_SET to a target state (0 Firing, 1 Soak, 2 Banked), or CHIP_DOMAIN_RESET. -/
structure DomCmd where
  cseq : Nat
  target : Nat
  chipReset : Bool
  deriving DecidableEq, Repr

/-- A power domain (R400). -/
structure Domain where
  st : DomState := .firing
  cmd : Option DomCmd := none
  /-- the Firing command recorded during Entering (R404) -/
  wake : Option Nat := none
  /-- the pages whose QUIESCE bit PWR set when it started the drain -/
  quiesced : List Nat := []
  entries : Nat := 0
  /-- the save slot of always-on memory: the domain's RW and RWL words by window offset -/
  saved : Tab Word := []
  /-- the saved header words: (page, ENABLE, IRQ_EN, SCRATCH) -/
  savedHdr : List (Nat × Bool × Word × Word) := []
  saveValid : Bool := false
  /-- an uncorrectable error in the save slot (R410) -/
  saveBad : Bool := false
  deriving DecidableEq, Repr

/-- PWR's chip-wide state (R406, R408). -/
structure PwrSt where
  doms : Tab Domain := []
  cold : Bool := false
  /-- a wake source has ended Cold and the rails come up (R407) -/
  waking : Bool := false
  coldCause : Nat := 0
  enCore : Bool := true
  enHbm : Bool := true
  /-- POWER_FAIL_N has been taken as asserted (R458) -/
  powerFail : Bool := false
  deriving DecidableEq, Repr

/-- The software area of always-on memory (AON.SW_DATA): 64-bit words by word address, and the words that cannot be read. -/
structure AonSt where
  words : Tab Nat := []
  bad : List Nat := []
  deriving DecidableEq, Repr

/-- A core cluster (R52, R53): cluster scratch and the conversion in progress. -/
structure Cluster where
  /-- ways in use as scratch -/
  scratchWays : Nat := 0
  /-- the conversion in progress (CLU.STAT.MEM_BUSY): the ways it goes to -/
  memTarget : Option Nat := none
  /-- the scratch bytes written, by offset from the scratch base -/
  scratch : Tab Byte := []
  deriving DecidableEq, Repr

/-- CHIP: start-up, resets, the watchdog (R431-R446) and the control area of the settings store. -/
structure ChipSt where
  stage : Nat := 0
  startErr : Nat := 0
  resetCause : Nat := 0
  warmCount : Nat := 0
  fatal : Nat := 0
  /-- a warm restart or chip-fatal sequence has stopped NVF admission (R439, R445) -/
  admissionStopped : Bool := false
  /-- a chip-fatal sequence holds until a restart is requested (R445) -/
  fatalHold : Bool := false
  runEn : Bool := false
  timeoutS : Nat := 120
  /-- the watchdog counts -/
  wdogCounting : Bool := false
  /-- the timebase value at which its count started -/
  wdogFrom : Nat := 0
  /-- hart 0 is held -/
  hartHeld : Bool := true
  /-- array mode (R1): the mode that start-up read -/
  shelf : Bool := false
  heads : Nat := 2
  headId : Nat := 0
  porstLow : Bool := true
  /-- HBM_TEST of the hardware settings -/
  hbmTest : Bool := false
  /-- a requested warm restart that has not been carried out: its RESET_CAUSE -/
  restartReq : Option Nat := none
  /-- the dump that precedes the restart is complete -/
  dumpDone : Bool := false
  /-- what the next start finds outside the chip's own state -/
  env : BootEnv := {}
  deriving DecidableEq, Repr

/-- The balls that the model keeps (R448): open-drain outputs are derived. -/
structure PinSt where
  wakeN : Bool := true
  pgCore : Bool := true
  pgHbm : Bool := true
  trstN : Bool := true
  /-- board inputs GPIO0-GPIO31 (R449); an input reads low when the module is present -/
  gpio : Word := 0xFFFFFFFF
  /-- the TAP's instruction register -/
  tapIr : Nat := 0
  /-- scan instructions refused while PORST_N is high, counted in DBG (R462) -/
  dbgCount : Nat := 0
  deriving DecidableEq, Repr

/-- The platform. -/
structure Plat where
  evt : EvtSt := {}
  time : TimeSt := {}
  store : StoreSt := {}
  islands : Tab Island := []
  crossings : Tab Crossing := []
  /-- the length in µs of the pace window in progress (R28) -/
  paceWindow : Nat := 100
  pwr : PwrSt := {}
  aon : AonSt := {}
  clus : Tab Cluster := []
  /-- the pending bits of each core's interrupt file, by hart (R50) -/
  imsic : Tab Nat := []
  chip : ChipSt := {}
  pins : PinSt := {}
  deriving DecidableEq, Repr

end Sys2Proof.Machine
end

