-- ==== Sys2Proof/Machine/TypesSec.lean ====
section
/-! DEFINITION. Keys, ciphers and tamper response as plain data (R203-R216). -/

namespace Sys2Proof.Machine

/-- One direction's key and salt of an association key half (R81). -/
structure DirKey where
  key : List Byte
  salt : List Byte
  deriving DecidableEq, Repr

/-- A half of an association key slot. -/
structure KeyHalf where
  tx : Option DirKey := none
  rx : Option DirKey := none
  deriving DecidableEq, Repr

/-- An association key slot: its current and next halves (R81, R83). -/
structure AssocKey where
  cur : KeyHalf := {}
  next : KeyHalf := {}
  deriving DecidableEq, Repr

/-- The record of a data slot (R204). -/
structure KeyRec where
  wrapped : List Byte := []
  type : Nat := 0
  len : Nat := 0
  kek : Nat := 0
  pin : Bool := false
  tenant : Nat := 0
  deriving DecidableEq, Repr

/-- GCIPH's lock (R214). -/
inductive LockState where
  | free | held | locked
  deriving DecidableEq, Repr

/-- The open message of GCIPH (R211-R213): what its FIRST segment gave, the input so far, and the output ranges written. -/
structure GcMsg where
  mode : Nat
  cls : Nat
  slot : Nat
  key : List Byte
  iv : List Byte
  aad : List Byte
  input : List Byte := []
  written : List (Nat × Nat) := []
  deriving DecidableEq, Repr

/-- A segment that waits for its key slot: its command, its descriptor's address and the slot (R205). -/
structure GcSeg where
  cseq : Nat
  desc : Nat
  slot : Nat
  deriving DecidableEq, Repr

/-- GCIPH. -/
structure GciphSt where
  lock : LockState := .free
  owner : Nat := 0
  busy : Bool := false
  arm : Bool := false
  /-- the TIME.NOW at which the lease ends -/
  leaseEnd : Nat := 0
  msg : Option GcMsg := none
  seg : Option GcSeg := none
  /-- the segments behind the one that waits for its slot, in order: (CSEQ, descriptor) -/
  next : List (Nat × Nat) := []
  deriving DecidableEq, Repr

/-- TAMP (R215, R216). -/
structure TampSt where
  zeroized : Bool := false
  latch : Nat := 0
  zeroTime : Nat := 0
  /-- the TIME.NOW at which the last zeroization ends -/
  zeroEnd : Nat := 0
  deriving DecidableEq, Repr

/-- The security blocks. -/
structure SecSt where
  assocKeys : Tab AssocKey := []
  /-- KEK 1-7, by number; empty where none is loaded -/
  keks : Tab (List Byte) := []
  /-- data slots' wrapped records (R204) -/
  recs : Tab KeyRec := []
  /-- active data slots: the unwrapped keys -/
  active : Tab (List Byte) := []
  /-- active slots in the order of the clock hand, and their reference bits -/
  clock : List Nat := []
  clockRef : List Nat := []
  /-- data slots being cleared, and the KEYS_CLEAR commands that run for them -/
  clearing : Tab (List Nat) := []
  /-- slots that a unit or a message waits for -/
  bringIn : List Nat := []
  /-- the update body key (R203) -/
  bodyKey : List Byte := []
  gciph : GciphSt := {}
  tamp : TampSt := {}
  deriving DecidableEq, Repr

end Sys2Proof.Machine
end

