-- ==== Sys2Proof/Machine/TypesSys.lean ====
section
/-! DEFINITION. The service port, the I3C target and firmware update as plain data (R411-R430). -/

namespace Sys2Proof.Machine

/-- The service port's memory of executed messages: (SEQ, OP, response), newest first, at most 32 (R415), and the I3C
target (R417). -/
structure SvcSt where
  recent : List (Nat × Nat × List Byte) := []
  /-- the response that a private read returns, once ready -/
  i3cResp : Option (List Byte) := none
  deriving DecidableEq, Repr

/-- The state of UPD (R423). -/
inductive UpdState where
  | idle | verified | staging | staged | activating | trial | failed
  deriving DecidableEq, Repr

/-- Where the rolling handling of one module stands (R425). -/
inductive BridgeStep where
  | offline | write | digest | activate | online | revert
  deriving DecidableEq, Repr

/-- UPD_BRIDGES, or the rolling reversal of R425 and R428: its CSEQ, the modules still to handle, the step of the first of them,
the modules this command activated, whether it reverts, and the cause of the fall-back that follows a reversal. -/
structure BridgeJob where
  cseq : Option Nat
  todo : List Nat
  step : BridgeStep := .offline
  /-- the operation of this step has been issued -/
  sent : Bool := false
  activated : List Nat := []
  reverting : Bool := false
  fallBack : Option Nat := none
  deriving DecidableEq, Repr

/-- UPD and the boot flash. -/
structure UpdSt where
  st : UpdState := .idle
  /-- slots A and B -/
  slotA : Slot := {}
  slotB : Slot := {}
  /-- the control area: active slot (true = B), TRIAL, the attempt count, the recorded TRIAL_BOOTS, and whether the settings
  were copied at activation -/
  activeB : Bool := false
  trial : Bool := false
  tries : Nat := 0
  boots : Nat := 2
  policy0 : Bool := false
  floor : Nat := 0
  /-- revoked fused keys -/
  revoked : Nat := 0
  fellBack : Bool := false
  /-- FELL_BACK is to be posted after the restart, with this cause -/
  fellCause : Option Nat := none
  /-- bytes 0-4,095 of the header that UPD_VERIFY accepted -/
  header : List Byte := []
  envelope : List Byte := []
  progress : Nat := 0
  /-- the modules whose bridges were activated from this package -/
  bridges : List Nat := []
  job : Option BridgeJob := none
  /-- a UPD_STAGE that waits for lane 31 of quadrant 0 of Mark (R155): its CSEQ, and whether the lock and every flash step are had -/
  stageWait : Option (Nat × Bool × Bool) := none
  deriving DecidableEq, Repr

end Sys2Proof.Machine
end

