-- ==== Sys2Proof/Machine/State.lean ====
section
/-! DEFINITION. The state of the MTG-96 as plain data, what can stop it, and the state under reset. -/

namespace Sys2Proof.Machine

/-- Why the machine stops with a fault: it never does, for every command of the spec has an effect. -/
inductive Fault where
  deriving DecidableEq, Repr

/-- Why the machine refuses a command. -/
inductive Refusal where
  /-- A command whose meaning is not written, by its mnemonic; `exec` alone would raise it, and no arm does. Safe: nothing can be
  proved of what such a command does. -/
  | notModelled (mnemonic : String)
  deriving DecidableEq, Repr

/-- The whole block. -/
structure State where
  /-- the commands that wait, first in, first out -/
  pending : List Instr := []
  /-- the model's own counter: each free value taken advances it -/
  free : Nat := 0
  /-- what has left the block, newest first -/
  out : List Out := []
  /-- the page headers, by page number (R41, R44) -/
  pages : Tab Page := []
  /-- the register words at offset 0x100 and above, by window offset (R38); an unlisted word holds its reset value -/
  regs : Tab Word := []
  plat : Plat := {}
  mem : MemSt := {}
  ldt : LdtSt := {}
  ctx : CtxSt := {}
  rgn : RgnSt := {}
  sec : SecSt := {}
  sw : SwSt := {}
  mark : MarkSt := {}
  grog : GrogSt := {}
  ware : WareSt := {}
  lmap : LmapSt := {}
  slip : SlipSt := {}
  nvf : NvfSt := {}
  conns : Tab Conn := []
  ten : TenSt := {}
  peer : PeerSt := {}
  back : BackSt := {}
  links : Tab Link := []
  svc : SvcSt := {}
  upd : UpdSt := {}
  deriving DecidableEq, Repr

/-- The machine under reset: PORST_N low, every register at its reset value, every block Idle, every table empty (R434,
R457).
[DEDUCED: log entry 1] -/
def State.reset : State := {}

end Sys2Proof.Machine
end

