-- ==== Sys2Proof/Machine/Ops.lean ====
section
/-! DEFINITION. The named operations over pages, registers, the output log, the free-value counter and HBM that every
meaning is written with. -/

namespace Sys2Proof.Machine

/-! ### Pages (R41, R42) -/

/-- The first page number and the number of pages of every block that has a page (R41). -/
def pageRuns : List (Nat × Nat) :=
  [(0x00, 1), (0x01, 1), (0x02, 1), (0x03, 1), (0x04, 1), (0x05, 1), (0x06, 1), (0x07, 1), (0x08, 1), (0x09, 1),
   (0x10, 12), (0x20, 8), (0x28, 4), (0x30, 1), (0x31, 1), (0x38, 1), (0x39, 1), (0x3A, 1), (0x3B, 1),
   (0x40, 1), (0x41, 1), (0x42, 1), (0x48, 1), (0x49, 1), (0x4A, 1), (0x4B, 1), (0x4C, 1), (0x4D, 1), (0x4E, 1),
   (0x50, 1), (0x51, 1), (0x52, 1), (0x58, 1), (0x59, 1), (0x5A, 1), (0x5B, 1), (0x5C, 1), (0x60, 24),
   (0x80, 1), (0x81, 3), (0x84, 1), (0x88, 1), (0x89, 1), (0x8A, 1), (0x8B, 1), (0x90, 1),
   (0xB0, 16), (0xC0, 24)]

/-- The four broadcast pages of the ware-lane blocks (R43). -/
def isBroadcast (p : Nat) : Bool := 0x48 ≤ p && p ≤ 0x4B

/-- A quadrant page of a ware-lane block (R41). -/
def isQuadrant (p : Nat) : Bool := 0xA0 ≤ p && p ≤ 0xAF

/-- Quadrant `q`'s page of the ware-lane block with broadcast page `b` (R41). -/
def quadPage (b q : Nat) : Nat := 0xA0 + 4 * (b - 0x48) + q

/-- BLK_ID.TYPE of a page: the page number of its block's first page (R42). -/
def blkTypeOf (p : Nat) : Nat :=
  if isQuadrant p then 0x48 + (p - 0xA0) / 4
  else match pageRuns.find? (fun r => r.1 ≤ p && p < r.1 + r.2) with
    | some r => r.1
    | none => p

/-- BLK_ID.INSTANCE of a page (R42, R43). -/
def blkInstOf (p : Nat) : Nat :=
  if isBroadcast p then 0xFF else if isQuadrant p then (p - 0xA0) % 4 else p - blkTypeOf p

/-- Whether the page number holds a page (R41). -/
def pageExists (p : Nat) : Bool :=
  isQuadrant p || pageRuns.any (fun r => r.1 ≤ p && p < r.1 + r.2)

/-- Every page number that holds a page. -/
def allPages : List Nat := (List.range 0xD8).filter pageExists

/-- Page numbers by block name (R41). -/
def pgCHIP : Nat := 0x00
def pgPWR : Nat := 0x01
def pgAON : Nat := 0x02
def pgSTORE : Nat := 0x03
def pgTIME : Nat := 0x04
def pgXING : Nat := 0x05
def pgPACE : Nat := 0x06
def pgTSENS : Nat := 0x07
def pgEVT : Nat := 0x08
def pgIRQR : Nat := 0x09
def pgCLU (c : Nat) : Nat := 0x10 + c
def pgHPORT (n : Nat) : Nat := 0x20 + n
def pgPLINK (n : Nat) : Nat := 0x28 + n
def pgSW : Nat := 0x30
def pgBUF : Nat := 0x31
def pgLDT : Nat := 0x38
def pgCTX : Nat := 0x39
def pgRGN : Nat := 0x3A
def pgNVTCP : Nat := 0x3B
def pgNVF : Nat := 0x40
def pgQOS : Nat := 0x41
def pgTALLY : Nat := 0x42
def pgMARK : Nat := 0x48
def pgGROG : Nat := 0x49
def pgWEDGE : Nat := 0x4A
def pgDCIPH : Nat := 0x4B
def pgGCIPH : Nat := 0x4C
def pgKEYS : Nat := 0x4D
def pgTAMP : Nat := 0x4E
def pgLMAP : Nat := 0x50
def pgMOULD : Nat := 0x51
def pgSLIP : Nat := 0x52
def pgFTL : Nat := 0x58
def pgPUG : Nat := 0x59
def pgPAR : Nat := 0x5A
def pgSAG : Nat := 0x5B
def pgRBLD : Nat := 0x5C
def pgMLINK (n : Nat) : Nat := 0x60 + n
def pgSYSC : Nat := 0x80
def pgHBM (n : Nat) : Nat := 0x81 + n
def pgSRAM : Nat := 0x84
def pgSVC : Nat := 0x88
def pgUPD : Nat := 0x89
def pgBOARD : Nat := 0x8A
def pgDBG : Nat := 0x8B
def pgPEERCTL : Nat := 0x90
def pgSEG (n : Nat) : Nat := 0xB0 + n
def pgHCH (n : Nat) : Nat := 0xC0 + n

/-- The power domain of a page (R397); none for the fabric core. -/
def domOfPage (p : Nat) : Option Nat :=
  if p = pgCHIP ∨ p = pgPWR ∨ p = pgAON ∨ p = pgSTORE ∨ p = pgTIME ∨ p = pgXING ∨ p = pgTSENS ∨ p = pgEVT
    ∨ p = pgIRQR ∨ p = pgSVC ∨ p = pgBOARD ∨ p = pgDBG then some 0
  else if p = pgGCIPH ∨ p = pgKEYS ∨ p = pgTAMP then some 1
  else if 0x10 ≤ p ∧ p < 0x1C then some (2 + (p - 0x10))
  else if 0xB0 ≤ p ∧ p < 0xB8 then some 14
  else if 0xB8 ≤ p ∧ p < 0xC0 then some 15
  else if 0x20 ≤ p ∧ p < 0x28 then some (16 + (p - 0x20) / 2)
  else if (0x28 ≤ p ∧ p < 0x2C) ∨ p = pgPEERCTL then some 20
  else if 0x60 ≤ p ∧ p < 0x78 then some (21 + (p - 0x60) / 4)
  else if 0xA0 ≤ p ∧ p ≤ 0xAF then some (27 + p % 4)
  else none

/-- The pages of a domain (R397). -/
def pagesOfDom (d : Nat) : List Nat := allPages.filter (fun p => domOfPage p = some d)

/-- The domain of an island (R29); none for the HBM PHYs. -/
def domOfIsland (i : Nat) : Option Nat :=
  if 1 ≤ i ∧ i ≤ 8 then some (16 + (i - 1) / 2)
  else if i = 9 ∨ i = 10 then some 20
  else if 11 ≤ i ∧ i ≤ 16 then some (21 + (i - 11))
  else if 17 ≤ i ∧ i ≤ 19 then none
  else if i = 25 then some 1
  else some 0

/-- What a meaning answers. -/
abbrev Res := Host.Outcome State Fault Refusal

/-! ### The output log and free values -/

/-- Something leaves the block.
[DESIGN CHOICE: log entry 7] -/
def State.emit (s : State) (o : Out) : State := { s with out := o :: s.out }

/-- Take the next free value's index. -/
def State.takeFree (s : State) : Nat × State := (s.free, { s with free := s.free + 1 })

/-- `n` free bytes.
[DESIGN CHOICE: log entry 8] -/
def State.freeBytes (s : State) (n : Nat) : List Byte × State :=
  ((List.range n).map (fun i => Config.freeByte (s.free + i)), { s with free := s.free + n })

/-- A free number.
[DESIGN CHOICE: log entry 8] -/
def State.freeNat (s : State) : Nat × State := (Config.freeNat s.free, { s with free := s.free + 1 })

/-! ### Page headers -/

/-- The header of page `p`. -/
def State.page (s : State) (p : Nat) : Page := s.pages.get {} p

/-- Replace the header of page `p`. -/
def State.setPage (s : State) (p : Nat) (v : Page) : State := { s with pages := s.pages.put {} p v }

/-- Change the header of page `p`. -/
def State.modPage (s : State) (p : Nat) (f : Page → Page) : State := s.setPage p (f (s.page p))

/-- The state of a block. A broadcast page shows quadrant 0 (R43). -/
def State.blk (s : State) (p : Nat) : BlkState := (s.page (if isBroadcast p then quadPage p 0 else p)).st

/-- The block runs. -/
def State.runs (s : State) (p : Nat) : Bool := s.blk p = .run

/-- The block runs or finishes what it holds (R45). -/
def State.working (s : State) (p : Nat) : Bool := s.blk p = .run || s.blk p = .quiescing

/-! ### Register words and fields -/

/-- The register word at window offset `a`. -/
def State.reg (s : State) (a : Nat) : Word := s.regs.getF resetWord a

/-- Write the register word at window offset `a`. -/
def State.setReg (s : State) (a : Nat) (v : Word) : State := { s with regs := s.regs.putF resetWord a v }

/-- The value of a field. -/
def State.fld (s : State) (f : Fld) : Nat := getBits (s.reg f.a).toNat f.hi f.lo

/-- Write a field; the rest of its word keeps its value. -/
def State.setFld (s : State) (f : Fld) (v : Nat) : State :=
  s.setReg f.a (BitVec.ofNat 32 (setBits (s.reg f.a).toNat f.hi f.lo v))

/-- A 64-bit register, low word first (R38). -/
def State.reg64 (s : State) (a : Nat) : Nat := (s.reg a).toNat + 2 ^ 32 * (s.reg (a + 4)).toNat

/-- Write a 64-bit register. -/
def State.setReg64 (s : State) (a v : Nat) : State :=
  (s.setReg a (BitVec.ofNat 32 v)).setReg (a + 4) (BitVec.ofNat 32 (v / 2 ^ 32))

/-- The bytes of a register of four words, byte 4k of word k in bits [7:0] (R78). -/
def State.regBytes16 (s : State) (a : Nat) : List Byte :=
  le 4 (s.reg a).toNat ++ le 4 (s.reg (a + 4)).toNat ++ le 4 (s.reg (a + 8)).toNat ++ le 4 (s.reg (a + 12)).toNat

/-- Add `n` to a saturating counter field. -/
def State.bump (s : State) (f : Fld) (n : Nat := 1) : State := s.setFld f (satAdd (f.hi + 1 - f.lo) (s.fld f) n)

/-! ### Time, domains, clusters -/

/-- TIME.NOW. -/
def State.now (s : State) : Nat := s.plat.time.now

/-- Power domain `d`. -/
def State.dom (s : State) (d : Nat) : Domain := s.plat.pwr.doms.get {} d

/-- Replace power domain `d`. -/
def State.setDom (s : State) (d : Nat) (v : Domain) : State :=
  { s with plat.pwr.doms := s.plat.pwr.doms.put {} d v }

/-- The domain counts as Firing: it is Firing or Draining (R466). -/
def State.domOn (s : State) (d : Nat) : Bool :=
  ((s.dom d).st = .firing || (s.dom d).st = .draining) && (d ≤ 1 || !s.plat.pwr.cold)

/-- A page's power is on: its domain counts as Firing, or the fabric core runs (R397, R466). -/
def State.pageOn (s : State) (p : Nat) : Bool :=
  match domOfPage p with
  | some d => s.domOn d
  | none => !s.plat.pwr.cold

/-- The power of an island is on (R34).
[DESIGN CHOICE: log entry 127] -/
def State.islandOn (s : State) (i : Nat) : Bool :=
  match domOfIsland i with
  | some d => s.domOn d
  | none => !s.plat.pwr.cold

/-- Array mode (R1). -/
def State.arrayMode (s : State) : Bool := !s.plat.chip.shelf

/-! ### HBM and the system cache (R366, R368, R373, R375) -/

/-- The end of HBM: 96 GiB (R19). -/
def hbmEnd : Nat := 0x1800000000

/-- The stack, and cache slice, of an HBM address (R366). -/
def stackOf (a : Nat) : Nat := (a / 256) % 3

/-- The set within the slice (R366). -/
def setOf (a : Nat) : Nat := (a / 256 / 3) % 8192

/-- The channel within the stack (R366). -/
def chanOf (a : Nat) : Nat := (a / 256 / 3) % 16

/-- The tag of an address (R366). -/
def tagOf (a : Nat) : Nat := a / 256 / 24576

/-- The sector of an address within its line (R366). -/
def sectorOf (a : Nat) : Nat := (a / 64) % 4

/-- The key of way `w` of the set of address `a`. -/
def lineKey (w a : Nat) : Nat := 24576 * w + 8192 * stackOf a + setOf a

/-- A stack. -/
def State.stack (s : State) (n : Nat) : Stack := s.mem.hbmStacks.get {} n

/-- A cache line. -/
def State.line (s : State) (k : Nat) : Line := s.mem.lines.get {} k

/-- The power state of a way; every way counts as Off while PD31 is not Firing. -/
def State.way (s : State) (w : Nat) : WayState := if s.domOn 31 then s.mem.ways.get .powered w else .off

/-- The way whose line holds the tag of `a` and is Valid. -/
def State.hitWay (s : State) (a : Nat) : Option Nat :=
  (List.range 16).find? (fun w =>
    let l := s.line (lineKey w a)
    l.phase = .valid && l.tag = tagOf a && (s.way w = .powered || s.way w = .draining))

/-- The sector of `a` is valid in the cache. -/
def State.cached (s : State) (a : Nat) : Option Nat :=
  match s.hitWay a with
  | some w => if (s.line (lineKey w a)).valid.testBit (sectorOf a) then some w else none
  | none => none

/-- The newest merging-buffer byte of address `a`. -/
def mbByte (mb : List MbEntry) (a : Nat) : Option Byte :=
  match mb.reverse.find? (fun e => e.sector = a / 64 && e.mask.testBit (a % 64)) with
  | some e => some (e.data.get 0 (a % 64))
  | none => none

/-- The byte that HBM itself holds, without the cache and the merging buffer.
[DESIGN CHOICE: log entry 3] -/
def State.rawByte (s : State) (a : Nat) : Byte := Tab.get 0 s.mem.cells a

/-- The byte that a coherent read of address `a` returns (R373). -/
def State.hbmByte (s : State) (a : Nat) : Byte :=
  match mbByte s.mem.mb a with
  | some b => b
  | none => match s.cached a with
    | some w => (s.line (lineKey w a)).data.get 0 (a % 256)
    | none => s.rawByte a

/-- A coherent read of `n` bytes. -/
def State.hbmRead (s : State) (a : Nat) : Nat → List Byte
  | 0 => []
  | n + 1 => s.hbmByte a :: s.hbmRead (a + 1) n

/-- A little-endian value read from HBM. -/
def State.hbmNat (s : State) (a n : Nat) : Nat := unLe (s.hbmRead a n)

/-- Whether an engine's read of `[a, a + n)` ends in an uncorrectable HBM error: an address beyond HBM, an uncorrectable
sector that the cache does not hold (R368), or a stack that is not Active (R372); in Cold HBM has no power.
[DEDUCED: log entry 87] -/
def State.hbmErr (s : State) (a n : Nat) : Bool :=
  s.plat.pwr.cold || decide (hbmEnd < a + n) ||
  s.mem.bad.any (fun k => decide (64 * k < a + n) && decide (a < 64 * k + 64) && (s.cached (64 * k)).isNone) ||
  (n ≠ 0 && (List.range 3).any (fun k =>
    ((s.stack k).sr = .entering || (s.stack k).sr = .selfRefresh) &&
    ((List.range (min 3 (((a + n - 1) / 256 - a / 256) + 1))).any (fun j => stackOf (a + 256 * j) = k))))

/-- Write bytes into a byte table. -/
def writeCells : Tab Byte → Nat → List Byte → Tab Byte
  | t, _, [] => t
  | t, a, b :: bs => writeCells (t.put 0 a b) (a + 1) bs

/-- `n` bytes of a byte table from offset `a`. -/
def tabBytes (t : Tab Byte) (a : Nat) : Nat → List Byte
  | 0 => []
  | n + 1 => t.get 0 a :: tabBytes t (a + 1) n

/-- The sector of `a` in way `w` is no longer valid. -/
def dropSector (a : Nat) (t : Tab Line) (w : Nat) : Tab Line :=
  let l := t.get {} (lineKey w a)
  if l.tag = tagOf a ∧ l.valid.testBit (sectorOf a) then t.put {} (lineKey w a) { l with valid := clearBit l.valid (sectorOf a) }
  else t

/-- The cache copy of a written byte follows the write (R373). A sector of an array that is not powered is invalidated, for
the cache never holds data that HBM does not hold. -/
def patchLine (s : State) (a : Nat) (bs : List Byte) : State :=
  match s.cached a with
  | some w =>
    let l := s.line (lineKey w a)
    { s with mem.lines := s.mem.lines.put {} (lineKey w a) { l with data := writeCells l.data (a % 256) bs } }
  | none =>
    if s.domOn 31 then s
    else { s with mem.lines := (List.range 16).foldl (dropSector a) s.mem.lines }

/-- The merging-buffer bytes of a written range follow the write. -/
def patchMb (mb : List MbEntry) (a : Nat) (bs : List Byte) : List MbEntry :=
  mb.map (fun e => if e.sector = a / 64 then
    { e with data := (List.range bs.length).foldl (fun t i =>
        if e.mask.testBit (a % 64 + i) then t.put 0 (a % 64 + i) (bs.getD i 0) else t) e.data } else e)

/-- An engine's write of bytes within one 64-byte sector. A write of part of an uncorrectable sector is dropped and
counted; one of all 64 bytes replaces the sector (R368). A write to a stack that is not Active is refused (R372). -/
def State.writeSector (s : State) (a : Nat) (bs : List Byte) : State :=
  if (s.stack (stackOf a)).sr = .entering || (s.stack (stackOf a)).sr = .selfRefresh then s.bump (fHBM_SR_REFUSED (stackOf a))
  else if s.mem.bad.contains (a / 64) && bs.length < 64 then s.bump (fHBM_POISON_WRITE (stackOf a))
  else
    let s1 := patchLine s a bs
    { s1 with
      mem.cells := writeCells s1.mem.cells a bs
      mem.mb := patchMb s1.mem.mb a bs
      mem.bad := s1.mem.bad.filter (fun k => k ≠ a / 64) }

/-- An engine's coherent write of any length, sector by sector. -/
def State.writeFuel : Nat → State → Nat → List Byte → State
  | 0, s, _, _ => s
  | f + 1, s, a, bs =>
    if bs.isEmpty then s
    else
      let n := 64 - a % 64
      State.writeFuel f (s.writeSector a (bs.take n)) (a + n) (bs.drop n)

/-- An engine's coherent write. HBM has no power in Cold. -/
def State.hbmWrite (s : State) (a : Nat) (bs : List Byte) : State :=
  if s.plat.pwr.cold then s else State.writeFuel (bs.length / 64 + 2) s a bs

end Sys2Proof.Machine
end

