-- ==== Sys2Proof/Machine/Flags.lean ====
section
/-! DEFINITION. Status and interrupt flags, error capture, and events: how a block reports (R44, R47, R50, R51, R54,
R56-R58, R468). -/

namespace Sys2Proof.Machine

/-! ### Interrupt lines (R50, R51) -/

/-- A page's interrupt line: high while a pending source is enabled; the isolation clamps hold it at 0 while its domain is
not Firing (R399). A broadcast page raises no interrupt of its own (R43). -/
def State.irqLine (s : State) (p : Nat) : Bool :=
  (s.page p).irqStat &&& (s.page p).irqEn ≠ 0 && s.pageOn p && !isBroadcast p

/-- IRQR sends the message of page `p` if its route names an identity and its core's cluster is Firing (R50, R399). -/
def State.irqMessage (s : State) (p : Nat) : State :=
  let hart := s.fld (fIRQR_ROUTE_HART p)
  let ident := s.fld (fIRQR_ROUTE_IDENT p)
  if s.irqLine p && ident ≠ 0 && s.domOn (2 + hart / 8) then
    { s.emit (.irqMsg hart ident) with
      plat.imsic := s.plat.imsic.put 0 hart (s.plat.imsic.get 0 hart ||| 2 ^ ident) }
  else s

/-- Source bits of BLK_IRQ_STAT fire; IRQR sends a message when the line rises (R50). -/
def State.irqSet (s : State) (p : Nat) (bits : Word) : State :=
  let s1 := s.modPage p (fun g => { g with irqStat := g.irqStat ||| bits })
  if s.irqLine p then s1 else s1.irqMessage p

/-- Source bit `i` fires. -/
def State.irqBit (s : State) (p i : Nat) : State := s.irqSet p (BitVec.ofNat 32 (2 ^ i))

/-- INT_N is asserted: some page with ROUTE.INT_N = 1 has its line high (R51). -/
def State.intN (s : State) : Bool :=
  allPages.any (fun p => s.fld (fIRQR_ROUTE_INT_N p) = 1 && s.irqLine p)

/-! ### Error capture (R47) -/

/-- A block detects an error: the first one is captured while the capture is armed. -/
def State.capture (s : State) (p code a b : Nat) : State :=
  if (s.page p).armed then
    s.modPage p (fun g => { g with
      errCap := BitVec.ofNat 8 code, infoA := BitVec.ofNat 32 a, infoB := BitVec.ofNat 32 b, armed := false })
  else s

/-! ### Errors of HBM (R368, R372) -/

/-- HBM page of the stack of an address, and HCH page and channel of its pair (R366). -/
def hchOf (a : Nat) : Nat := 8 * stackOf a + chanOf a / 2

/-- A reader meets an uncorrectable sector (R368). -/
def State.hbmUncorr (s : State) (a : Nat) : State :=
  let k := stackOf a
  let base := a / 64 * 64
  let s1 := ((s.setReg64 (rHBM_LAST_UNCORR k) base).bump (fHBM_UNCORR k)).bump (fHCH_UNCORR (hchOf a) (chanOf a % 2))
  (s1.capture (pgHBM k) 0x01 base (base / 2 ^ 32)).irqBit (pgHBM k) 0

/-- A reader meets a correctable error (R368). -/
def State.hbmCorr (s : State) (a : Nat) : State :=
  (s.bump (fHBM_CORR (stackOf a))).bump (fHCH_CORR (hchOf a) (chanOf a % 2))

/-- Corrected words of an on-die SRAM partition, in R18's order (R370). -/
def State.sramCorr (s : State) (part n : Nat) : State := if n = 0 then s else s.bump (fSRAM_CORR part) n

/-- An uncorrectable 64-bit word of a partition: counted, recorded and captured (R370, R382). -/
def State.sramUncorr (s : State) (part word : Nat) : State :=
  ((s.bump (fSRAM_UNCORR part)).setReg rSRAM_LAST_ERR (BitVec.ofNat 32 (part * 2 ^ 29 + word % 2 ^ 25))).capture pgSRAM 0x01 part word

/-- An access to a stack that is asleep is refused (R372). -/
def State.srRefused (s : State) (a : Nat) : State :=
  let k := stackOf a
  ((s.bump (fHBM_SR_REFUSED k)).capture (pgHBM k) 0x02 a (a / 2 ^ 32)).irqBit (pgHBM k) 1

/-- What a read of `[a, a + n)` that `hbmErr` fails leaves behind in the HBM pages. -/
def State.noteErr (s : State) (a n : Nat) : State :=
  match s.mem.bad.find? (fun k => decide (64 * k < a + n) && decide (a < 64 * k + 64)) with
  | some k => s.hbmUncorr (64 * k)
  | none => if a + n ≤ hbmEnd then s.srRefused a else s

/-! ### Events -/

/-- Bytes of BLK_STAT.STATE (R44). -/
def BlkState.code : BlkState → Nat
  | .off => 0
  | .idle => 1
  | .run => 2
  | .quiescing => 3
  | .quiesced => 4
  | .fault => 5

/-- The common event codes (R54). -/
def evCmdDone : Nat := 0xFF00
def evRingStart : Nat := 0xFF01
def evOverrun : Nat := 0xFF02
def evStateChange : Nat := 0xFF03

/-- The event codes of a block that carry severity 3, 2 and 1 whatever their content (R468), as (block type, code). -/
def sevCritical : List (Nat × Nat) := [(pgTAMP, 2), (pgPEERCTL, 6)]
def sevError : List (Nat × Nat) :=
  [(pgLDT, 1), (pgRGN, 1), (pgNVF, 2), (pgMARK, 1), (pgGROG, 2), (pgWEDGE, 1), (pgWEDGE, 2), (pgKEYS, 1), (pgLMAP, 1),
   (pgSLIP, 5), (pgSLIP, 8), (pgFTL, 3), (pgPAR, 1), (pgPAR, 2), (pgSAG, 4), (pgRBLD, 1), (pgMLINK 0, 6), (pgPEERCTL, 2)]
def sevWarning : List (Nat × Nat) :=
  [(pgEVT, 1), (pgPACE, 1), (pgTAMP, 1), (pgGCIPH, 1), (pgLDT, 4), (pgLDT, 5), (pgNVF, 1), (pgBUF, 1), (pgGROG, 1),
   (pgGROG, 3), (pgSLIP, 1), (pgSLIP, 2), (pgSLIP, 4), (pgSLIP, 9), (pgFTL, 1), (pgFTL, 2), (pgFTL, 4), (pgFTL, 5),
   (pgFTL, 7), (pgFTL, 8), (pgFTL, 9), (pgPUG, 1), (pgPUG, 3), (pgSAG, 2), (pgSAG, 3), (pgRBLD, 5), (pgMLINK 0, 2),
   (pgMLINK 0, 3), (pgMLINK 0, 5), (pgMLINK 0, 7), (pgPEERCTL, 3), (pgPWR, 2), (pgPWR, 3), (pgTALLY, 2), (pgUPD, 3)]

/-- The severity of an event by its block, code and payload (R468). GROUP_STATE of RBLD is code 3, its new state in payload
byte 2. -/
def severityOf (blk code : Nat) (payload : List Byte) : Nat :=
  if code = evStateChange then (if payload.getD 1 0 = 5 then 2 else 0)
  else if code = evOverrun then 1
  else if code = evCmdDone then (if unLe (slice payload 16 2) = 0 then 0 else 1)
  else if blk = pgRBLD ∧ code = 3 then (payload.getD 2 0).toNat
  else if sevCritical.contains (blk, code) then 3
  else if sevError.contains (blk, code) then 2
  else if sevWarning.contains (blk, code) then 1
  else 0

/-- The 64 bytes of an event entry (R54). -/
def eventEntry (eseq time blk inst sev code flags evseq : Nat) (payload : List Byte) : List Byte :=
  le 8 eseq ++ le 8 time ++ le 2 blk ++ le 1 inst ++ le 1 sev ++ le 2 code ++ le 2 flags ++ le 4 evseq ++ zeros 4
    ++ fitBytes 32 payload

/-- Ring sizes (R56). -/
def State.evtSize (s : State) : Nat := 2 ^ s.fld fEVT_CTRL_E_SIZE_LOG2
def State.cmdSize (s : State) : Nat := 2 ^ s.fld fEVT_CTRL_C_SIZE_LOG2

/-- The overwriting part of a posting of sequence `q` (R58): E_LOST, the E_OVERRUN bit and the run in progress. -/
def overwriteStep (s : State) (q : Nat) : State :=
  let old := q - s.evtSize
  if s.evtSize < q ∧ s.plat.evt.eseqCons < old then
    let run := match s.plat.evt.ovRun with
      | some (a, _) => (a, old)
      | none => (old, old)
    ({ s with plat.evt.eLost := old, plat.evt.ovRun := some run }).irqBit pgEVT 2
  else s

/-- Post one entry (R57): written whole before ESEQ_PROD covers it; E_POST, and E_HIGH at the high-water mark. -/
def ringPost (s : State) (p code flags : Nat) (payload : List Byte) : State :=
  let blk := blkTypeOf p
  let inst := blkInstOf p
  let sev := severityOf blk code payload
  let q := s.plat.evt.eseqProd + 1
  let es := (s.page p).evseq
  let entry := eventEntry q s.now blk inst sev code flags (es % 2 ^ 32) payload
  let s1 := (overwriteStep s q).hbmWrite (s.reg64 rEVT_E_BASE + 64 * (q % s.evtSize)) entry
  let s2 := { s1 with plat.evt.eseqProd := q }
  let s3 := (s2.emit (.event blk inst code sev flags es payload)).irqBit pgEVT 0
  let hw := s.fld fEVT_E_HIGH_WATER
  if hw ≠ 0 ∧ hw ≤ q - s.plat.evt.eseqCons then s3.irqBit pgEVT 1 else s3

/-- A block raises an event: BLK_EVSEQ rises by 1, and while EVT is in Run one entry is posted (R44, R57). A posting that
ends a run of overwrites is followed by one E_OVERRUN (R58). -/
def State.event (s : State) (p code : Nat) (payload : List Byte) (flags : Nat := 0) : State :=
  let s1 := s.modPage p (fun g => { g with evseq := g.evseq + 1 })
  if s1.runs pgEVT then
    let q := s1.plat.evt.eseqProd + 1
    let overwrites := decide (s1.evtSize < q ∧ s1.plat.evt.eseqCons < q - s1.evtSize)
    let s2 := ringPost s1 p code flags payload
    match s1.plat.evt.ovRun, overwrites with
    | some (a, b), false =>
      let s3 := { s2 with plat.evt.ovRun := none }
      let s4 := s3.modPage pgEVT (fun g => { g with evseq := g.evseq + 1 })
      ringPost s4 pgEVT evOverrun 0 (le 8 a ++ le 8 b)
    | _, _ => s2
  else s1

/-- A block's state changes with a STATE_CHANGE event (R45, R54). -/
def State.stateChange (s : State) (p : Nat) (new : BlkState) : State :=
  let old := (s.page p).st
  (s.modPage p (fun g => { g with st := new })).event p evStateChange (le 1 old.code ++ le 1 new.code)

end Sys2Proof.Machine
end

