-- ==== Sys2Proof/Machine/Operands.lean ====
section
/-! DEFINITION. The form in which a command of the command ring reaches its block: taking, refusing and completing it
(R55, R59, R60, R465). -/

namespace Sys2Proof.Machine

/-- The common statuses (R55). -/
def stOk : Nat := 0x0000
def stNoBlock : Nat := 0xFF01
def stUnknown : Nat := 0xFF02
def stState : Nat := 0xFF03
def stEnded : Nat := 0xFF04
def stConfig : Nat := 0xFF05

/-- The HBM address of the command entry with sequence `q` (R56). -/
def State.cmdEntry (s : State) (q : Nat) : Nat := s.reg64 rEVT_C_BASE + 64 * (q % s.cmdSize)

/-- The RESULT word: DONE, the opcode's result bits, STATUS (R55). -/
def resultWord (bits status : Nat) : Nat := 2 ^ 31 + (bits % 2 ^ 15) * 2 ^ 16 + status % 2 ^ 16

/-- CSEQ_DONE advances over the leading run of completed sequences (R59). -/
def advanceDone : Nat → List Nat → Nat × List Nat
  | d, [] => (d, [])
  | d, a :: l => if a = d + 1 then advanceDone a l else (d, a :: l)

/-- Insert a sequence in rising order. -/
def insertSeq (q : Nat) : List Nat → List Nat
  | [] => [q]
  | a :: l => if q < a then q :: a :: l else if q = a then a :: l else a :: insertSeq q l

/-- A command completes (R59): RESULT into its entry, CSEQ_DONE, C_DONE, and CMD_DONE when NOTIFY = 1. The event's source is
the target block, and EVT where no block is named.
[DEDUCED: log entry 10] -/
def State.finish (s : State) (p cseq : Nat) (notify : Bool) (cookie : DWord) (bits status : Nat) : State :=
  let w := resultWord bits status
  let s1 := s.hbmWrite (s.cmdEntry cseq + 0x10) (le 4 w)
  let r := advanceDone s1.plat.evt.cseqDone (insertSeq cseq s1.plat.evt.ahead)
  let s2 := { s1 with
    plat.evt.cseqDone := r.1, plat.evt.ahead := r.2, plat.evt.running := s1.plat.evt.running.del cseq }
  let s3 := s2.irqBit pgEVT 5
  if notify then s3.event (if pageExists p then p else pgEVT) evCmdDone (le 8 cseq ++ le 8 cookie.toNat ++ le 4 w) 1
  else s3

/-- A command that was kept running completes. Nothing happens for a sequence that does not run. -/
def State.finishRunning (s : State) (cseq bits status : Nat) : State :=
  match s.plat.evt.running.find cseq with
  | some r => s.finish r.page cseq r.notify r.cookie bits status
  | none => s

/-- How a command's own effect ends: complete now, or still running with what its later events need. -/
inductive CmdEnd where
  | done (status : Nat) (bits : Nat)
  | running (args : List Nat)
  deriving DecidableEq, Repr

/-- The controller can take the next command: EVT runs, C_PAUSE = 0, a published command waits, no unexpected CSEQ has stopped
it, and a BARRIER finds every earlier command complete (R55, R59, R60). -/
def State.canTake (s : State) (h : CmdHdr) : Bool :=
  s.runs pgEVT && s.fld fEVT_CTRL_C_PAUSE = 0 && s.plat.evt.cseqCons < s.plat.evt.cseqProd && !s.plat.evt.seqStop
    && (!h.barrier || s.plat.evt.cseqDone = s.plat.evt.cseqCons)

/-- The controller finds an unexpected CSEQ in the slot (R60). -/
def State.cseqError (s : State) (found : Nat) : State :=
  let q := s.plat.evt.cseqCons + 1
  (({ s with plat.evt.seqStop := true }).irqBit pgEVT 3).event pgEVT 1
    (le 8 q ++ le 8 found ++ le 4 (q % s.cmdSize))

/-- The controller takes the command it finds (R59). -/
def State.consume (s : State) : State := { s with plat.evt.cseqCons := s.plat.evt.cseqCons + 1 }

/-- Which commands a target takes in a state (R465): NOP, CONFIG_COMMIT, any other, and those that only end, release or finish
work already taken. -/
inductive CmdClass where
  | nop | commit | work | release
  deriving DecidableEq, Repr

/-- The state test of R465. -/
def CmdClass.taken : CmdClass → BlkState → Bool
  | .nop, _ => true
  | .commit, .idle => true
  | .commit, .run => true
  | .commit, .quiescing => true
  | .commit, .quiesced => true
  | .commit, _ => false
  | .work, .run => true
  | .work, _ => false
  | .release, .run => true
  | .release, .quiescing => true
  | .release, .quiesced => true
  | .release, _ => false

/-- The pages that a command's BLK_TYPE and INSTANCE name (R55): a ware-lane block takes a quadrant or 0xFF for all; a block
of several instances its instance; any other block instance 0. -/
def targetPages (blk inst : Nat) : List Nat :=
  if isBroadcast blk then
    (if inst = 0xFF then (List.range 4).map (quadPage blk) else if inst < 4 then [quadPage blk inst] else [])
  else match pageRuns.find? (fun r => r.1 = blk) with
    | some r => if inst < r.2 then [blk + inst] else []
    | none => []

/-- Take a command of block `blk`, test its target's state, run its effect, and complete it or keep it running (R59, R60,
R465). A broadcast target takes a command that any quadrant would take. When the controller cannot take a command, nothing
happens.
[DESIGN CHOICE: log entry 15] [DEDUCED: log entry 96] -/
def State.command (s : State) (h : CmdHdr) (blk opcode : Nat) (cls : CmdClass)
    (body : Nat → State → State × CmdEnd) : State :=
  if s.canTake h then
    if h.cseq = s.plat.evt.cseqCons + 1 then
      let s1 := s.consume
      match targetPages blk h.inst with
      | [] => s1.finish 0xFFFF h.cseq h.notify h.cookie 0 stNoBlock
      | p :: ps =>
        if (p :: ps).any (fun g => cls.taken (s.page g).st) then
          match body p s1 with
          | (s2, .done st bits) => s2.finish p h.cseq h.notify h.cookie bits st
          | (s2, .running args) =>
            { s2 with plat.evt.running := s2.plat.evt.running.ins h.cseq ⟨p, opcode, h.notify, h.cookie, args⟩ }
        else s1.finish p h.cseq h.notify h.cookie 0 stState
    else s.cseqError h.cseq
  else s

/-- How many opcodes from 0x0100 up each block has, by its BLK_TYPE. -/
def opcodeCounts : List (Nat × Nat) :=
  [(pgCHIP, 1), (pgPWR, 2), (pgLDT, 5), (pgCTX, 3), (pgRGN, 2), (pgNVF, 5), (pgQOS, 2), (pgMARK, 3), (pgGROG, 4), (pgWEDGE, 1), (pgGCIPH, 1),
   (pgKEYS, 2), (pgLMAP, 4), (pgMOULD, 4), (pgSLIP, 6), (pgFTL, 2), (pgPUG, 2), (pgPAR, 2), (pgSAG, 1), (pgRBLD, 4), (pgMLINK 0, 6), (pgSYSC, 3),
   (pgUPD, 7), (pgPEERCTL, 6)]

/-- The opcodes that a block knows: NOP, CONFIG_COMMIT and its own.
[DESIGN CHOICE: log entry 115] -/
def opcodeKnown (blk opcode : Nat) : Bool :=
  decide (opcode ≤ 1) || (decide (0x0100 ≤ opcode) && decide (opcode < 0x0100 + ((opcodeCounts.find? (fun e => e.1 = blk)).map Prod.snd).getD 0))

/-- A command that completes when it is taken. -/
def State.simpleCmd (s : State) (h : CmdHdr) (blk opcode : Nat) (body : State → State × Nat) : State :=
  s.command h blk opcode .work (fun _ s1 => let r := body s1; (r.1, .done r.2 0))

/-- A write to a register of a page: dropped and counted while the page's power is off, dropped in a block that the mode leaves Off, ignored
in Fault (R10, R45, R48). -/
def State.gated (s : State) (p : Nat) (f : State → State) : State :=
  if !s.pageOn p then s.bump fCHIP_OFF_ACCESS else if s.blk p = .fault ∨ s.blk p = .off then s else f s

end Sys2Proof.Machine
end

