-- ==== Sys2Proof/Machine/Frames.lean ====
section
/-! DEFINITION. Frames at the network ports: EtherTypes, IP and UDP headers, checksums, IEEE 1588 event messages (R62, R67), and the
member of the peer link that a flow takes (R146, R147). -/

namespace Sys2Proof.Machine

/-- The UDP or TCP datagram of a frame, when its headers are of a form the port parses (R67): protocol, addresses in the R78 form,
source and destination port, whether it is IPv4, the ECN field, and the L4 bytes. -/
structure L4 where
  proto : Nat
  src : List Byte
  dst : List Byte
  sport : Nat
  dport : Nat
  v4 : Bool
  ecn : Nat
  body : List Byte
  deriving DecidableEq, Repr

/-- The EtherType after at most one 802.1Q tag, and the payload; none for a frame with more than one tag. -/
def etherOf (f : List Byte) : Option (Nat × List Byte) :=
  let t := unBe (slice f 12 2)
  if t = 0x8100 then
    let t2 := unBe (slice f 16 2)
    if t2 = 0x8100 ∨ t2 = 0x88A8 then none else some (t2, f.drop 18)
  else if t = 0x88A8 then none
  else some (t, f.drop 14)

/-- The IPv4 address form of R78. -/
def v4Form (a : List Byte) : List Byte := zeros 10 ++ [0xFF, 0xFF] ++ a

/-- The L4 part of an IP packet without options, fragmentation or extension headers. -/
def l4Of (f : List Byte) : Option L4 :=
  match etherOf f with
  | none => none
  | some (t, ip) =>
    if t = 0x0800 then
      if ip.getD 0 0 = 0x45 ∧ unBe (slice ip 6 2) % 2 ^ 14 = 0 then
        let l4 := (ip.take (unBe (slice ip 2 2))).drop 20
        some ⟨(ip.getD 9 0).toNat, v4Form (slice ip 12 4), v4Form (slice ip 16 4), unBe (l4.take 2), unBe (slice l4 2 2),
          true, (ip.getD 1 0).toNat % 4, l4⟩
      else none
    else if t = 0x86DD then
      let nh := (ip.getD 6 0).toNat
      if nh = 17 ∨ nh = 6 then
        let l4 := (ip.drop 40).take (unBe (slice ip 4 2))
        some ⟨nh, slice ip 8 16, slice ip 24 16, unBe (l4.take 2), unBe (slice l4 2 2), false,
          unBe (ip.take 2) / 16 % 4, l4⟩
      else none
    else none

/-- Where the UDP or TCP header of a frame begins. -/
def l4Start (f : List Byte) : Nat :=
  f.length - (((etherOf f).map Prod.snd).getD []).length + (match l4Of f with
    | some l => if l.v4 then 20 else 40
    | none => 0)

/-- The bytes of a UDP or TCP header, options included. -/
def L4.headLen (l : L4) : Nat := if l.proto = 6 then 4 * ((l.body.getD 12 0).toNat / 16) else 8

/-- The one's complement sum of 16-bit words. -/
def sum16 : List Byte → Nat
  | [] => 0
  | [a] => a.toNat * 256
  | a :: b :: l => a.toNat * 256 + b.toNat + sum16 l

/-- The one's complement sum of a UDP datagram with its pseudo header, folded to 16 bits. -/
def udpSum (l : L4) : Nat :=
  let adr := fun (x : List Byte) => if l.v4 then x.drop 12 else x
  let s := sum16 (adr l.src) + sum16 (adr l.dst) + 17 + l.body.length + sum16 l.body
  let fold := fun (n : Nat) => n % 65536 + n / 65536
  fold (fold (fold s))

/-- Whether a UDP checksum is good: 0 is accepted over IPv4 and refused over IPv6 (R67). -/
def udpGood (l : L4) : Bool := if unBe (slice l.body 6 2) = 0 then l.v4 else udpSum l = 0xFFFF

/-- The checksum of a UDP datagram to be sent (R68): the one's complement of the sum, and 0xFFFF where that is 0. -/
def udpChecksum (src dst : List Byte) (v4 : Bool) (sport dport : Nat) (payload : List Byte) : Nat :=
  let body := be 2 sport ++ be 2 dport ++ be 2 (8 + payload.length) ++ zeros 2 ++ payload
  let c := 0xFFFF - udpSum ⟨17, src, dst, sport, dport, v4, 0, body⟩
  if c = 0 then 0xFFFF else c

/-- What R146 hashes of an IP flow: the 37 bytes of its five-tuple. -/
def fiveTuple (src dst : List Byte) (proto sport dport : Nat) : List Byte :=
  fitBytes 16 src ++ fitBytes 16 dst ++ be 1 proto ++ be 2 sport ++ be 2 dport

/-! ### Flow pinning (R146, R147) -/

/-- A peer link member can carry frames: in Run with its link up (R147). -/
def State.memberUp (s : State) (m : Nat) : Bool := s.runs (pgPLINK m) && s.fld (fPLINK_STAT_LINK_UP m) = 1 && s.domOn 20

/-- The member that serves an entry naming member `m`: itself or the next in rotation 0-3 that is up (R147). -/
def State.servingMember (s : State) (m : Nat) : Option Nat :=
  ((List.range 4).map (fun i => (m + i) % 4)).find? s.memberUp

/-- CRC-32C over `bs` with the preset SW.PIN_CFG.SEED (R146). -/
def State.pinHash (s : State) (bs : List Byte) : Nat := crc32c (s.reg rSW_PIN_CFG).toNat bs

/-- The peer link member of a flow (R146, R147). -/
def State.pinMember (s : State) (flow : List Byte) : Option Nat :=
  let i := s.pinHash flow % 64
  s.servingMember (getBits (s.reg (rSW_PIN_TABLE + 4 * (i / 16))).toNat (2 * (i % 16) + 1) (2 * (i % 16)))

/-! ### IEEE 1588 event messages (R62) -/

/-- Where the IEEE 1588 event message of a frame begins: UDP to port 319, or EtherType 0x88F7, with a message type of 0-3.
[DEDUCED: log entry 91] -/
def ptpAt (f : List Byte) : Option Nat :=
  let at_ := match l4Of f with
    | some l => if l.proto = 17 ∧ l.dport = 319 then some (f.length - (((etherOf f).map Prod.snd).getD []).length + (if l.v4 then 28 else 48)) else none
    | none => match etherOf f with
      | some (0x88F7, m) => some (f.length - m.length)
      | _ => none
  at_.filter (fun k => decide ((f.getD k 0).toNat % 16 < 4))

/-- A one-step Sync, whose timestamp the port inserts: every other event message is two-step.
[DEDUCED: log entry 91] -/
def ptpOneStep (f : List Byte) (k : Nat) : Bool := (f.getD k 0).toNat % 16 = 0 && !(f.getD (k + 6) 0).toNat.testBit 1

/-- The UDP checksum is corrected; a checksum of 0 stays 0. -/
def udpFix (f : List Byte) (k : Nat) : List Byte :=
  if unBe (slice f (k - 2) 2) = 0 then f
  else
    let g := overwrite f (k - 2) [0, 0]
    match l4Of g with
    | some l => let c := 0xFFFF - udpSum l; overwrite g (k - 2) (be 2 (if c = 0 then 0xFFFF else c))
    | none => f

/-- The frame of a one-step Sync with `now` as its originTimestamp: seconds and nanoseconds.
[DEDUCED: log entry 91] -/
def ptpStamp (f : List Byte) (k now : Nat) : List Byte :=
  let g := overwrite f (k + 34) (be 6 (now / 10 ^ 9) ++ be 4 (now % 10 ^ 9))
  match l4Of f with
  | some _ => udpFix g k
  | none => g

end Sys2Proof.Machine
end

