-- ==== Sys2Proof/Machine/LdtOps.lean ====
section
/-! DEFINITION. What the LDT commands and events share: associations, packets sent and their encryption, acceptance and
acknowledgement, regions and their admission (R68-R93, R100-R110). -/

namespace Sys2Proof.Machine

/-! ### Access -/

def State.assoc (s : State) (a : Nat) : Assoc := s.ldt.assoc.get {} a
def State.ax (s : State) (a : Nat) : AssocX := s.ldt.ext.get {} a
def State.setAssoc (s : State) (a : Nat) (v : Assoc) : State := { s with ldt.assoc := s.ldt.assoc.put {} a v }
def State.setAx (s : State) (a : Nat) (v : AssocX) : State := { s with ldt.ext := s.ldt.ext.put {} a v }
def State.modAssoc (s : State) (a : Nat) (f : Assoc → Assoc) : State := s.setAssoc a (f (s.assoc a))
def State.modAx (s : State) (a : Nat) (f : AssocX → AssocX) : State := s.setAx a (f (s.ax a))

/-- The association is Open or Closing: it exchanges packets (R79). -/
def State.assocLive (s : State) (a : Nat) : Bool := (s.assoc a).state = .isOpen || (s.assoc a).state = .closing

/-- LDT handles traffic and runs its timers: it is in Run, or drains (R469). -/
def State.ldtOn (s : State) : Bool := s.blk pgLDT = .run || s.blk pgLDT = .quiescing || s.blk pgLDT = .quiesced

/-- The key slot of an association (R81). -/
def State.akey (s : State) (a : Nat) : AssocKey := s.sec.assocKeys.get {} a

/-! ### Serial arithmetic (R84) -/

def psnMod (n : Nat) : Nat := n % 2 ^ 32
/-- `a − b` in 32-bit serial arithmetic. -/
def psnSub (a b : Nat) : Nat := (a % 2 ^ 32 + 2 ^ 32 - b % 2 ^ 32) % 2 ^ 32
/-- `a` is at or before `b`. -/
def psnLe (a b : Nat) : Bool := psnSub b a < 2 ^ 31
/-- `a` is before `b`. -/
def psnLt (a b : Nat) : Bool := psnLe a b && a % 2 ^ 32 ≠ b % 2 ^ 32

/-! ### Configuration -/

/-- The largest payload per packet (R70). -/
def State.maxPayload (s : State) : Nat := 1024 * 2 ^ s.fld fLDT_CTRL_MAX_PAYLOAD

/-- The line rate of a logical port in Mb/s, or of the peer link (R92). -/
def State.lineRate (s : State) (port : Nat) : Nat :=
  if port = 0x20 then 1600000
  else match s.fld (fHPORT_MODE_SPLIT (port / 4)) with
    | 0 => 400000
    | 1 => 200000
    | _ => 100000

/-- The RTO in 64 ns units before doubling (R89). -/
def State.rtoBase (s : State) (a : Nat) : Nat :=
  let us := fun n => n * 1000 / 64
  min (us (s.fld fLDT_RTO_CFG_RTO_MAX_US))
    (max (us (s.fld fLDT_RTO_CFG_RTO_MIN_US)) ((s.assoc a).srtt + 4 * (s.assoc a).rttvar))

/-! ### Paths (R69, R90) -/

/-- The first path in `mask` at or after `p`, in rotation. -/
def nextPathIn (mask p : Nat) : Nat :=
  ((List.range 16).map (fun i => (p + i) % 16)).find? (fun q => mask.testBit q) |>.getD 0

/-- Strikes of a path: 2 bits each (R78). -/
def strikesOf (strikes p : Nat) : Nat := getBits strikes (2 * p + 1) (2 * p)
def setStrikes (strikes p n : Nat) : Nat := setBits strikes (2 * p + 1) (2 * p) n

/-! ### Packets (R71, R72, R74, R81) -/

/-- The 16-byte LDT header. -/
def ldtHeader (type flags plen psn ts path : Nat) : List Byte :=
  be 1 type ++ be 1 flags ++ be 2 plen ++ be 4 psn ++ be 4 ts ++ be 1 path ++ zeros 3

/-- The 32-byte operation header of the types that have one (R73). -/
def opHeader (p : TxPkt) : List Byte :=
  if 0x10 ≤ p.type then be 4 p.msgId ++ be 4 p.msgLen ++ be 4 p.msgOff ++ be 4 p.target ++ be 8 p.addr ++ be 8 p.imm
  else []

/-- The IP address form (R78): whether 16 bytes hold an IPv4 address. -/
def isIpv4 (ip : List Byte) : Bool := ip.take 10 = zeros 10 && slice ip 10 2 = [0xFF, 0xFF]

/-- A UDP datagram from a logical port, or from the peer link on the member that its five-tuple is pinned to (R68, R69). -/
def State.udpDatagram (s : State) (port vlan : Nat) (mac localIp remoteIp : List Byte) (src : Nat) (payload : List Byte) : Datagram :=
  let v6 := !isIpv4 remoteIp
  let dst := s.fld fLDT_CTRL_UDP_PORT
  { port := port, member := if port = 0x20 then s.pinMember (fiveTuple localIp remoteIp 17 src dst) else none,
    vlan := vlan, mac := mac, localIp := localIp, remoteIp := remoteIp, srcPort := src, dstPort := dst,
    dscp := s.fld fLDT_CTRL_DSCP, ecn := if s.fld fLDT_CTRL_ECN_EN = 1 then 2 else 0, df := !v6, flow := if v6 then src else 0,
    checksum := udpChecksum localIp remoteIp (!v6) src dst payload, payload := payload }

/-- The datagram that carries a UDP payload on path `path` of association `a` (R68, R69). -/
def State.datagramOf (s : State) (a path : Nat) (payload : List Byte) : Datagram :=
  let e := (s.ax a).addrEntry
  s.udpDatagram (s.assoc a).port (unLe (slice e 0x26 2)) (slice e 0x20 6) (slice e 0x10 16) (e.take 16)
    (0xC000 + 16 * (a % 1024) + path) payload

/-- A datagram leaves. For the peer link with no member up it is dropped and counted (R147). -/
def State.sendDatagram (s : State) (d : Datagram) : State :=
  if d.port = 0x20 ∧ d.member = none then s.bump fSW_DEST_DOWN_DROP else s.emit (.datagram d)

/-- The key half that transmission uses: the next half once transmission has switched (R83). -/
def State.txHalf (s : State) (a : Nat) : KeyHalf :=
  if (s.ax a).txSwitched then (s.akey a).next else (s.akey a).cur

/-- Encrypt and send one packet under a new PKT_NUM (R81). REKEY_DUE is posted when PKT_NUM reaches 2^40; from 2^48 on nothing is
sent until a key-phase switch. The flags byte carries FIRST, LAST, ACK_REQ and RETX. -/
def State.ldtSend (s : State) (a path psn : Nat) (retx : Bool) (p : TxPkt) (payload : List Byte) : State :=
  let x := s.assoc a
  if 2 ^ 48 ≤ x.txPktNum then s
  else
    let flags := b2n p.first + 2 * b2n p.last + 4 * b2n p.ackReq + 8 * b2n retx
    let hdr := ldtHeader p.type flags payload.length psn ((s.now / 64) % 2 ^ 32) path
    let aad := be 1 (0x10 + 8 * b2n x.txPhase) ++ zeros 1 ++ be 2 x.peerAssoc ++ be 8 x.txPktNum
    let k := (s.txHalf a).tx.getD ⟨[], []⟩
    let sealed := gcmSeal k.key (k.salt ++ be 8 x.txPktNum) aad (hdr ++ opHeader p ++ payload)
    let s1 := s.sendDatagram { s.datagramOf a path (aad ++ sealed.1 ++ sealed.2) with cls := p.cls }
    let n := x.txPktNum + 1
    let s2 := s1.setAssoc a { x with txPktNum := n }
    if n = 2 ^ 40 then s2.event pgLDT 4 (le 2 a ++ le 8 n) else s2

/-- The payload bytes of a packet to be sent: held on die, or read again from its source (R84, R109). -/
def State.payloadOf (s : State) (p : TxPkt) : List Byte :=
  match p.src with
  | some addr => s.hbmRead addr p.len
  | none => p.bytes

/-- Send an ACK on a path with ECHO_TS (R75, R86). -/
def State.sendAck (s : State) (a path echo : Nat) : State :=
  let x := s.assoc a
  let e := s.ax a
  let pl := be 4 x.rxCum ++ be 16 x.rxBitmap ++ be 4 echo ++ be 2 (min 0xFFFF e.ceCnt) ++ be 2 (min 0xFFFF e.rxCnt) ++ zeros 4
  (s.ldtSend a path 0 false { type := 0x01 } pl).modAx a (fun e => { e with ackPend := 0, ceCnt := 0, rxCnt := 0 })

/-- Put new sequenced packets at the end of the association's send queue. -/
def State.queueTx (s : State) (a : Nat) (ps : List TxPkt) : State := s.modAx a (fun e => { e with txq := e.txq ++ ps })

/-- Refuse an operation with a NAK: a sequenced packet of 16 bytes (R75, R76).
[DESIGN CHOICE: log entry 109] -/
def State.sendNak (s : State) (a msgId code info : Nat) : State :=
  s.queueTx a [{ type := 0x02, first := true, last := true, ackReq := true, msgId := msgId, len := 16,
                 bytes := be 4 msgId ++ be 2 code ++ zeros 2 ++ be 8 info }]

/-- The packets of an operation, split at the largest payload (R74). -/
def splitOp (mp : Nat) (p : TxPkt) (src : Option Nat) (bytes : List Byte) : Nat → Nat → List TxPkt
  | 0, _ => []
  | n + 1, off =>
    let len := min mp (p.msgLen - off)
    let last := decide (p.msgLen ≤ off + len)
    { p with first := off = 0, last := last, ackReq := last, msgOff := off, len := len,
             src := src.map (· + off), bytes := slice bytes off len } ::
      (if last then [] else splitOp mp p src bytes n (off + len))

/-- The reference of an operation whose end its block does not wait for. -/
def noWait : Nat := 2 ^ 60

/-- A local operation ends at the block that started it. -/
def State.opEnd (s : State) (e : OpEnd) : State :=
  let s1 := s.emit (.opDone e.user e.ref e.status)
  if e.ref < noWait then { s1 with ldt.ended := s.ldt.ended ++ [e] } else s1

/-- The end of the operation `ref` of a block, if it has come. -/
def State.opEnded (s : State) (user ref : Nat) : Option OpEnd :=
  s.ldt.ended.find? (fun e => e.user = user && e.ref = ref)

/-- A block takes the end of an operation. -/
def State.takeEnd (s : State) (user ref : Nat) : State :=
  { s with ldt.ended := s.ldt.ended.filter (fun e => !(e.user = user && e.ref = ref)) }

/-- LDT begins a local operation: it takes the next MSG_ID, and its packets join the send queue (R74). -/
def State.beginOp (s : State) (o : HeldOp) : State :=
  let id := (s.ax o.assoc).nextMsg
  let p := { o.pkt with msgId := id }
  let pk := if p.type = 0x13 then [{ p with first := true, last := true, ackReq := true }]
            else splitOp s.maxPayload p o.src o.bytes (p.msgLen / s.maxPayload + 1) 0
  (s.queueTx o.assoc pk).modAx o.assoc (fun e => { e with
    nextMsg := (id + 1) % 2 ^ 32,
    initOps := e.initOps.ins id { kind := p.type, msgLen := p.msgLen, user := o.user, ref := o.ref, dst := o.dst } })

/-- A block starts a local operation on an association (R74, R79, R109): WRITE 0x10, WRITE_NOTIFY 0x11, SEND 0x12, READ_REQ 0x13,
CAPSULE 0x20. On an association that is not Open the operation ends at once with its status; one that finds LDT not in Run is held by
its block until LDT is in Run again (R469). -/
def State.startOp (s : State) (a : Nat) (p : TxPkt) (src : Option Nat) (bytes : List Byte) (user ref dst : Nat) : State :=
  match (s.assoc a).state with
  | .free => s.opEnd ⟨user, ref, 2, 0, []⟩
  | .failed => s.opEnd ⟨user, ref, 1, 0, []⟩
  | .closing => s.opEnd ⟨user, ref, 3, 0, []⟩
  | .isOpen =>
    let o : HeldOp := ⟨a, p, src, bytes, user, ref, dst⟩
    if s.blk pgLDT = .run then s.beginOp o else { s with ldt.heldOps := s.ldt.heldOps ++ [o] }

/-- LDT is in Run: the operations that the blocks held start, oldest first (R469). -/
def State.startHeld (s : State) : State :=
  s.ldt.heldOps.foldl (fun t o => t.startOp o.assoc o.pkt o.src o.bytes o.user o.ref o.dst) { s with ldt.heldOps := [] }

/-! ### Regions (R100-R103) -/

def State.region (s : State) (i : Nat) : Region := s.rgn.regions.get {} i

/-- The 32 bytes of a region-table entry (R100). -/
def Region.bytes (r : Region) : List Byte :=
  le 8 r.base ++ le 8 r.length ++ le 2 r.assoc ++ le 1 r.perm ++ le 1 r.notifyTgt
    ++ le 1 (match r.state with | .free => 0 | .valid => 1 | .revoking => 2)
    ++ le 1 r.gen ++ le 1 (b2n r.lost) ++ zeros 1 ++ le 4 r.pins ++ zeros 4

/-- The HBM address of a region-table entry. -/
def State.regionAddr (s : State) (i : Nat) : Nat := s.reg64 rRGN_TABLE_BASE + 32 * i

/-- An entry changes, and its bytes with it (R100).
[DESIGN CHOICE: log entry 16] -/
def State.setRegion (s : State) (i : Nat) (v : Region) : State :=
  { s with rgn.regions := s.rgn.regions.put {} i v }.hbmWrite (s.regionAddr i) v.bytes
def State.modRegion (s : State) (i : Nat) (f : Region → Region) : State := s.setRegion i (f (s.region i))

/-- RGN.VALID_COUNT and REVOKING_COUNT. -/
def State.regionCount (s : State) (st : RegionState) : Nat := (s.rgn.regions.filter (fun e => e.2.state = st)).length

/-- One more operation holds a region; one held operation is released (R101, R103). -/
def State.pinRegion (s : State) (i : Nat) : State :=
  let s1 := s.modRegion i (fun r => { r with pins := r.pins + 1 })
  { s1 with rgn.held := s1.rgn.held.put 0 i (s1.rgn.held.get 0 i + 1) }
/-- [DESIGN CHOICE: log entry 129] -/
def State.unpinRegion (s : State) (i : Nat) : State :=
  let s1 := s.modRegion i (fun r => { r with pins := r.pins - 1 })
  { s1 with rgn.held := s1.rgn.held.put 0 i (s1.rgn.held.get 0 i - 1) }

/-- A read of an entry meets an uncorrectable HBM error: in its sector, or found before with the other entry of that sector. -/
def State.regionBad (s : State) (i : Nat) : Bool := s.rgn.badEntries.contains i || s.hbmErr (s.regionAddr i) 32

/-- The uncorrectable error of a region entry is found, and the entry is rewritten as LOST (R101, R110). RGN rewrites the whole sector
of 64 bytes; the other entry in it is lost too, and its loss is found when it is next read.
[DESIGN CHOICE: log entry 116, 129] -/
def State.regionLost (s : State) (i : Nat) : State :=
  let a := s.regionAddr (i / 2 * 2)
  let other := if i % 2 = 0 then i + 1 else i - 1
  let bad := s.rgn.badEntries.filter (· ≠ i)
  let sector := s.mem.bad.contains (s.regionAddr i / 64)
  let s1 := { s with rgn.badEntries := if sector then other :: bad.filter (· ≠ other) else bad }
  let s1 := if s.hbmErr (s.regionAddr i) 32 then s1.noteErr (s.regionAddr i) 32 else s1
  let s2 : State := { s1 with rgn.regions := s1.rgn.regions.put {} i { s.region i with state := .revoking, lost := true, pins := 0 } }
  let s3 := s2.hbmWrite a ((s2.region (i / 2 * 2)).bytes ++ (s2.region (i / 2 * 2 + 1)).bytes)
  ((s3.capture pgRGN 0x01 i 0).irqBit pgRGN 16).event pgRGN 1 (le 4 i)

/-- The result of the region check (R102). -/
inductive Admit where
  | nak (code info : Nat)
  | drop
  | lost
  | ok (base : Nat) (nq : Option Nat)
  deriving DecidableEq, Repr

/-- A notification queue has a free entry: not all are posted and unconsumed or reserved (R102 order 9, R108). -/
def State.nqFree (s : State) (q : Nat) : Bool :=
  let lg := s.fld (fRGN_NQ_CFG_SIZE_LOG2 q)
  let used := ((s.reg (rRGN_NQ_PROD q)).toNat + 2 ^ 32 - (s.reg (rRGN_NQ_CONS q)).toNat) % 2 ^ 32
  lg ≠ 0 && used + s.rgn.reserved.get 0 q < 2 ^ lg

/-- The region check of R102 for an operation that needs the permission bits `perm` (bit 0 WRITE, 1 READ, 2 NOTIFY). -/
def State.regionCheck (s : State) (a target addr len perm : Nat) : Admit :=
  let i := target / 256
  let r := s.region i
  if 16777216 < len then .nak 0x0030 0
  else if 65536 ≤ i then .nak 0x0011 0
  else if s.regionBad i then .lost
  else if r.lost ∨ target % 256 ≠ r.gen then .nak 0x0010 0
  else if r.state = .free then .nak 0x0011 0
  else if r.state = .revoking then .nak 0x0010 0
  else if (r.assoc ≠ 0xFFFF ∧ r.assoc ≠ a) ∨ r.perm &&& perm ≠ perm then .nak 0x0012 (r.perm * 2 ^ 56)
  else if r.length < addr + len then .nak 0x0013 r.length
  else if perm.testBit 2 ∧ r.notifyTgt = 0x40 ∧ (s.dom 20).st = .draining then .nak 0x0040 20
  else if perm.testBit 2 ∧ r.notifyTgt < 16 ∧ !s.nqFree r.notifyTgt then .drop
  else .ok (r.base + addr) (if perm.testBit 2 then some r.notifyTgt else none)

/-- The counter of a NAK that RGN sends (RGN.NAK_*). -/
def State.countNak (s : State) (code : Nat) : State :=
  if code = 0x0010 then s.bump fRGN_NAK_REVOKED
  else if code = 0x0011 then s.bump fRGN_NAK_INVALID
  else if code = 0x0012 then s.bump fRGN_NAK_DENIED
  else if code = 0x0013 then s.bump fRGN_NAK_BOUNDS
  else if code = 0x0021 then s.bump fRGN_NAK_RECV_FULL
  else s

/-- One notification-queue entry is reserved, or given back. -/
def State.reserveNq (s : State) (nq : Option Nat) : State :=
  match nq with
  | some q => if q < 16 then { s with rgn.reserved := s.rgn.reserved.put 0 q (s.rgn.reserved.get 0 q + 1) } else s
  | none => s
def State.unreserveNq (s : State) (nq : Option Nat) : State :=
  match nq with
  | some q => if q < 16 then { s with rgn.reserved := s.rgn.reserved.put 0 q (s.rgn.reserved.get 0 q - 1) } else s
  | none => s

/-- The 32 bytes of a notification (R108). -/
def notifyEntry (a kind msgId imm target len addr : Nat) : List Byte :=
  le 2 a ++ le 1 kind ++ zeros 1 ++ le 4 msgId ++ le 8 imm ++ le 4 target ++ le 4 len ++ le 8 addr

/-- Post a notification to queue `q`, or hand it to PEERCTL or SLIP (R108). -/
def State.postNotify (s : State) (q : Nat) (entry : List Byte) : State :=
  if q < 16 then
    let prod := (s.reg (rRGN_NQ_PROD q)).toNat
    let s1 := s.hbmWrite (s.reg64 (rRGN_NQ_BASE q) + 32 * (prod % 2 ^ s.fld (fRGN_NQ_CFG_SIZE_LOG2 q))) entry
    ((s1.setReg (rRGN_NQ_PROD q) (BitVec.ofNat 32 (prod + 1))).unreserveNq (some q)).irqBit pgRGN q
  else s.emit (.notify q entry)

/-- A control message whose notification comes to PEERCTL is dropped when its MAGIC or FROM is wrong (R349). -/
def State.checkMsg (s : State) (q seq target addr : Nat) : State :=
  let m := s.hbmRead ((s.region (target / 256)).base + addr) 4
  if q = 0x40 ∧ target / 256 = s.fld fPEERCTL_CFG_RGN_INDEX + 3 ∧ (unLe (m.take 2) ≠ 0x5043 ∨ unLe (slice m 3 1) ≠ 1 - s.plat.chip.headId) then
    let s1 := if seq = s.peer.msgRecv + 1 then { s with peer.msgRecv := seq } else s
    (s1.capture pgPEERCTL 0x01 seq (seq / 2 ^ 32)).irqBit pgPEERCTL 3
  else s

/-! ### Ending operations and associations -/

/-- Everything that an operation targeting this head holds is released (R103). -/
def State.releaseTgt (s : State) (o : TgtOp) : State :=
  let s1 := match o.holds with
    | some i => s.unpinRegion i
    | none => s
  s1.unreserveNq o.nq

/-- Every operation of an association ends: the local ones with `status`, the others released (R79, R103). -/
def State.endOps (s : State) (a status : Nat) : State :=
  let e := s.ax a
  let s1 := e.initOps.foldl (fun t o => t.opEnd ⟨o.2.user, o.2.ref, status, 0, []⟩) s
  e.tgtOps.foldl (fun t o => t.releaseTgt o.2) s1

/-- The ASSOC_CLOSE commands of an association complete. -/
def State.finishCloses (s : State) (a : Nat) : State :=
  (s.ax a).closeCmds.foldl (fun t q => t.finishRunning q 0 stOk) s

/-- Entry to Free: key slot and state are zeroized (R79).
[DESIGN CHOICE: log entry 110] -/
def State.assocToFree (s : State) (a : Nat) : State :=
  { s with ldt.assoc := s.ldt.assoc.put {} a {}, ldt.ext := s.ldt.ext.put {} a {},
           sec.assocKeys := s.sec.assocKeys.put {} a {} }

/-- A close completes: ASSOC_CLOSED with its initiator, the waiting commands, and Free (R79). -/
def State.assocClosed (s : State) (a initiator : Nat) : State :=
  let s1 := (s.endOps a 2).finishCloses a
  (s1.assocToFree a).event pgLDT 2 (le 2 a ++ le 2 initiator)

/-- An association fails (R79): pending operations end with ASSOC_FAILED, nothing more is sent, ASSOC_FAILED is posted. -/
def State.assocFail (s : State) (a reason : Nat) : State :=
  let una := (s.assoc a).txUna
  let s1 := (s.endOps a 1).finishCloses a
  let s2 := (s1.modAssoc a (fun x => { x with state := .failed })).setAx a
    { addrEntry := (s.ax a).addrEntry, malformed := (s.ax a).malformed, tagFail := (s.ax a).tagFail,
      retx := (s.ax a).retx, ce := (s.ax a).ce }
  s2.event pgLDT 1 (le 2 a ++ le 2 reason ++ le 4 una)

/-! ### Rate control (R93) -/

def State.rMin (s : State) : Nat := (s.reg rLDT_RC_MIN).toNat

/-- R stays in [R_MIN, line rate of the port] (R92). -/
def State.boundRate (s : State) (port r : Nat) : Nat := min (s.lineRate port) (max s.rMin r)

/-- R of every live association is brought within its bounds: R_MIN or a port's line rate has changed (R92). -/
def State.boundRates (s : State) : State :=
  s.ldt.assoc.foldl (fun t e => if t.assocLive e.1 then t.modAssoc e.1 (fun x => { x with rate := t.boundRate x.port x.rate }) else t) s

/-- The cut on a declared loss. -/
def State.lossCutRate (s : State) (a : Nat) : State :=
  s.modAssoc a (fun x => if x.lossCut then x
    else { x with rateTarget := x.rate, rate := s.boundRate x.port (x.rate / 2), lossCut := true, cleanCount := 0 })

/-- The cut on an RTO. -/
def State.rtoCutRate (s : State) (a : Nat) : State :=
  s.modAssoc a (fun x => { x with rateTarget := x.rate, rate := s.boundRate x.port (x.rate / 8), cleanCount := 0 })

/-! ### Reception (R85, R86, R94) -/

/-- A malformed packet is counted (R94). -/
def State.malformed (s : State) (a : Nat) : State :=
  (s.bump fLDT_MALFORMED).modAx a (fun e => { e with malformed := satAdd 32 e.malformed 1 })

/-- Bytes received of an operation. -/
def gotBytes (got : List (Nat × Nat × Nat)) : Nat := got.foldl (fun n r => n + r.2.1) 0

/-- A payload overlaps bytes received under another PSN (R94). -/
def overlapsGot (got : List (Nat × Nat × Nat)) (off len psn : Nat) : Bool :=
  got.any (fun r => r.2.2 ≠ psn && decide (off < r.1 + r.2.1) && decide (r.1 < off + len))

/-- RX_CUM advances over the leading run of set bits (R85). -/
def advanceCum : Nat → Nat → Nat → Nat × Nat
  | 0, cum, bm => (cum, bm)
  | n + 1, cum, bm => if bm.testBit 0 then advanceCum n (psnMod (cum + 1)) (bm / 2) else (cum, bm)

/-- How a sequenced packet sorts (R85). -/
inductive RxSort where
  | dup | fresh | outside
  deriving DecidableEq, Repr

def State.rxSort (s : State) (a psn : Nat) : RxSort :=
  let x := s.assoc a
  let d := psnSub psn x.rxCum
  if psnLe psn x.rxCum then .dup
  else if d ≤ 128 then (if x.rxBitmap.testBit (d - 1) then .dup else .fresh)
  else .outside

/-- Insert by the PSN of the LAST packet. -/
def insertOp (e : Nat × TgtOp) : List (Nat × TgtOp) → List (Nat × TgtOp)
  | [] => [e]
  | b :: l => if psnLe (e.2.lastPsn.getD 0) (b.2.lastPsn.getD 0) then e :: b :: l else b :: insertOp e l

/-- The operations whose announcement or release RX_CUM now allows, in PSN order of their LAST packets (R107). -/
def readyOps (cum : Nat) (t : Tab TgtOp) : List (Nat × TgtOp) :=
  let ready := t.filter (fun e => match e.2.lastPsn with
    | some l => psnLe l cum && (e.2.refused || (gotBytes e.2.got = e.2.msgLen && e.2.kind ≠ 0x13))
    | none => false)
  ready.foldr insertOp []

/-- An announced operation: its notification is posted and its region released. A WRITE was released when its bytes were
placed. -/
def State.announce (s : State) (a : Nat) (e : Nat × TgtOp) : State :=
  let o := e.2
  let s1 :=
    if o.refused then s
    else if o.kind = 0x11 then
      (match o.nq with
        | some q => (s.postNotify q (notifyEntry a 1 e.1 o.imm o.target o.msgLen o.addr)).checkMsg q o.imm o.target o.addr
        | none => s)
    else if o.kind = 0x12 then
      (match o.nq with
        | some q => s.postNotify q (notifyEntry a 2 e.1 o.imm o.target o.msgLen o.addr)
        | none => s)
    else s
  let s2 := match o.holds with
    | some i => if o.kind = 0x11 ∧ !o.refused then s1.unpinRegion i else s1
    | none => s1
  s2.modAx a (fun x => { x with tgtOps := x.tgtOps.del e.1 })

/-- READ_REQs that RX_CUM now lets read their region: their responses are queued from it (R107). The peer head's are mirror traffic
(R140). -/
def State.startReads (s : State) (a : Nat) : State :=
  let cum := (s.assoc a).rxCum
  ((s.ax a).tgtOps.filter (fun e => e.2.kind = 0x13 && !e.2.refused && !e.2.respMsg
      && psnLe e.2.reqPsn (psnMod (cum + 1)))).foldl
    (fun t e =>
      let o := e.2
      let p : TxPkt := { type := 0x14, msgId := e.1, msgLen := o.msgLen, cls := if a = s.peer.assoc then 5 else 7 }
      (t.queueTx a (splitOp t.maxPayload p (some o.base) [] (o.msgLen / t.maxPayload + 1) 0)).modAx a
        (fun x => { x with tgtOps := x.tgtOps.put { kind := 0, target := 0, msgLen := 0 } e.1 { o with respMsg := true } })) s

/-- What follows an advance of RX_CUM: announcements in order, reads, and a CLOSE that is now taken (R79, R107). -/
def State.afterCum (s : State) (a : Nat) : State :=
  let s1 := (readyOps (s.assoc a).rxCum (s.ax a).tgtOps).foldl (fun t e => t.announce a e) s
  let s2 := s1.startReads a
  match (s2.ax a).closeRcvd with
  | some c =>
    if psnLe c (s2.assoc a).rxCum then
      s2.assocClosed a (if (s2.ax a).closeSent.isSome then 0 else 1)
    else s2
  | none => s2

/-- The consumer has accepted packet `psn` (R85): bit, RX_CUM, and the ACK that R86 asks for. -/
def State.acceptPkt (s : State) (p : LdtPkt) : State :=
  let a := p.assoc
  let x := s.assoc a
  let bm := x.rxBitmap ||| 2 ^ (psnSub p.psn x.rxCum - 1)
  let adv := advanceCum 128 x.rxCum bm
  let s1 := (s.setAssoc a { x with rxCum := adv.1, rxBitmap := adv.2 }).modAx a
    (fun e => { e with ackPend := e.ackPend + 1, lastTs := p.txTs, lastPath := p.path })
  let every := s.fld fLDT_ACK_CFG_ACK_EVERY
  let now := p.ackReq || p.ce || s.fld fLDT_ACK_CFG_ACK_DELAY_NS = 0
    || (every ≠ 0 && decide (every ≤ (s1.ax a).ackPend))
  let s2 := if now then s1.sendAck a p.path p.txTs else s1
  s2.afterCum a

/-- The page of a port: a host port's, or for 0x20 + n that of member n of the peer link, which has counters of its own (R347). -/
def portPage (port : Nat) : Nat := if port < 0x20 then pgHPORT (port / 4) else pgPLINK (port - 0x20)

/-- Bytes in the holding buffer of the port whose page is `page` (R82).
[DESIGN CHOICE: log entry 77] -/
def State.holdUse (s : State) (page : Nat) : Nat :=
  ((s.ldt.holding.filter (fun h => portPage h.port = page)).map (fun h => h.body.length)).sum

/-- The buffers of port pages are emptied.
[DESIGN CHOICE: log entry 77] -/
def State.clearHold (s : State) (gone : Nat → Bool) : State :=
  { s with ldt.holding := s.ldt.holding.filter (fun h => !gone (portPage h.port)) }

/-- RX_COUNT and CE_COUNT of a received packet, of any type (R75).
[DEDUCED: log entry 95] -/
def State.countPkt (s : State) (a : Nat) (ce : Bool) : State :=
  s.modAx a (fun e => { e with
    rxCnt := e.rxCnt + 1, ceCnt := e.ceCnt + b2n ce, ce := satAdd 32 e.ce (b2n ce) })
/-- [DEDUCED: log entry 95] -/
def State.countRx (s : State) (p : LdtPkt) : State := s.countPkt p.assoc p.ce

/-- The common path of a sequenced packet (R79, R85, R469): a packet for an association in Free or Failed is counted and dropped; a
duplicate is acknowledged at once; one beyond the window is counted; a new one goes to its consumer, which says whether it
accepts it. `begins` says that the packet would begin an operation, which a quiescing LDT does not take.
[DEDUCED: log entry 95] -/
def State.sequenced (s : State) (p : LdtPkt) (begins : Bool) (consumer : State → State × Bool) : State :=
  let a := p.assoc
  if !s.ldtOn then s.bump fLDT_QUIESCE_DROP
  else if !s.assocLive a then s.bump fLDT_NO_ASSOC
  else
    let s1 := s.countRx p
    match s1.rxSort a p.psn with
    | .dup => s1.sendAck a p.path p.txTs
    | .outside => s1.bump fLDT_OUT_OF_WINDOW
    | .fresh =>
      if begins ∧ s.blk pgLDT ≠ .run then s1.bump fLDT_QUIESCE_DROP
      else
        let r := consumer s1
        if r.2 then r.1.acceptPkt p else r.1

/-- The operation of a packet at its target. -/
def State.tgtOp (s : State) (p : LdtPkt) : Option TgtOp := (s.ax p.assoc).tgtOps.find p.msgId

/-- The operation-level tests of R94 against what was accepted before. -/
def opMalformed (o : TgtOp) (p : LdtPkt) : Bool :=
  o.msgLen ≠ p.msgLen || (!o.refused && overlapsGot o.got p.msgOffset p.payload.length p.psn)

/-- Record a packet of a target operation. -/
def State.putTgt (s : State) (p : LdtPkt) (o : TgtOp) : State :=
  s.modAx p.assoc (fun e => { e with tgtOps := e.tgtOps.ins p.msgId o })

/-- An operation with one more packet received: its range, and its LAST packet's PSN. -/
def TgtOp.receive (o : TgtOp) (p : LdtPkt) : TgtOp :=
  { o with got := o.got ++ [(p.msgOffset, p.payload.length, p.psn)],
           lastPsn := if p.last then some p.psn else o.lastPsn }

/-- An operation refused at its first packet: a NAK, and its further packets are accepted and dropped (R76). -/
def State.refuseOp (s : State) (p : LdtPkt) (kind code info : Nat) : State :=
  ((s.countNak code).sendNak p.assoc p.msgId code info).putTgt p
    { kind := kind, target := p.target, msgLen := p.msgLen, refused := true, lastPsn := if p.last then some p.psn else none }

/-- A WRITE whose bytes are all placed is released at once (R103). -/
def State.releaseWrite (s : State) (p : LdtPkt) (o : TgtOp) : State :=
  if o.kind = 0x10 ∧ gotBytes o.got = o.msgLen then
    match o.holds with
    | some i => (s.unpinRegion i).putTgt p { o with holds := none }
    | none => s
  else s

/-- Place a packet of an admitted operation (R85, R99). -/
def State.place (s : State) (p : LdtPkt) (o : TgtOp) : State :=
  let o1 := o.receive p
  ((s.hbmWrite (o.base + p.msgOffset) p.payload).putTgt p o1).releaseWrite p o1

/-- The consumer of WRITE and WRITE_NOTIFY packets (R99, R102, R470). -/
def regionConsumer (kind perm : Nat) (p : LdtPkt) (s : State) : State × Bool :=
  match s.tgtOp p with
  | some o =>
    if opMalformed o p then (s.malformed p.assoc, false)
    else if o.refused then
      (s.putTgt p { o with lastPsn := if p.last then some p.psn else o.lastPsn }, true)
    else (s.place p o, true)
  | none =>
    if !s.runs pgRGN then (s.bump fRGN_NOT_RUN_DROP, false)
    else match s.regionCheck p.assoc p.target p.addr p.msgLen perm with
      | .nak code info => (s.refuseOp p kind code info, true)
      | .drop => (s.bump fRGN_NQ_FULL_DROP, false)
      | .lost => ((s.regionLost (p.target / 256)).refuseOp p kind 0x0011 0, true)
      | .ok base nq =>
        let o : TgtOp := { kind := kind, target := p.target, msgLen := p.msgLen, addr := p.addr, imm := p.imm,
                           holds := some (p.target / 256), base := base, nq := nq }
        (((s.pinRegion (p.target / 256)).reserveNq nq).place p o, true)

end Sys2Proof.Machine
end

