-- ==== Sys2Proof/Machine/SegOps.lean ====
section
/-! DEFINITION. Physical locations, the block and segment tables, and the grains that a unit takes (R252, R254, R257, R264). -/

namespace Sys2Proof.Machine

/-- A physical location taken apart (R252). -/
structure Loc where
  module : Nat
  b : Nat
  page : Nat
  grain : Nat
  deriving DecidableEq, Repr

/-- The 48-bit LOC of a location; `b` is channel, die, plane and block together. -/
def Loc.code (l : Loc) : Nat := l.module * 2 ^ 43 + l.b * 2 ^ 22 + l.page * 2 ^ 10 + l.grain * 2 ^ 5

/-- The location of a LOC. -/
def locOf (n : Nat) : Loc := ⟨getBits n 47 43, getBits n 42 22, getBits n 21 10, getBits n 9 5⟩

/-- Channel, die, plane and block of `b`. -/
def chanOfB (b : Nat) : Nat := getBits b 20 17
def dieOfB (b : Nat) : Nat := getBits b 16 13
def planeOfB (b : Nat) : Nat := getBits b 12 11
def blockOfB (b : Nat) : Nat := getBits b 10 0

/-- Grains of a packed unit of `l` stored bytes (R11, R254). -/
def grainsOf (l : Nat) : Nat := ceilDiv (l + 16) 512

/-! ### MPAs (R264) -/

/-- The MPA of the content page of a CID. -/
def contentMpa (cid : Nat) : Nat := 2 ^ 46 + cid / 64

/-- The range of an MPA. -/
def mpaRange (m : Nat) : Nat := m / 2 ^ 46

/-- The directory page that holds an MPA's entry (R265). -/
def dirMpa (m : Nat) : Nat := 3 * 2 ^ 46 + mpaRange m * 2 ^ 44 + (m % 2 ^ 46) / 512

/-! ### Tables in HBM (R257) -/

def State.seg (s : State) (id : Nat) : Segment := s.back.segs.get {} id
def State.block (s : State) (k : Nat) : Block := s.back.blocks.get {} k
def State.group (s : State) (g : Nat) : Group := s.back.groups.get {} g
def State.setGroup (s : State) (g : Nat) (v : Group) : State := { s with back.groups := s.back.groups.put {} g v }
def State.modGroup (s : State) (g : Nat) (f : Group → Group) : State := s.setGroup g (f (s.group g))
def State.member (s : State) (m : Nat) : Member := s.back.mems.get {} m
def State.setMember (s : State) (m : Nat) (v : Member) : State := { s with back.mems := s.back.mems.put {} m v }

/-- The key of a block: module and b. -/
def blockKey (module b : Nat) : Nat := 2 ^ 21 * module + b

/-- The 8-byte block-table entry. -/
def Block.bytes (b : Block) : List Byte :=
  le 8 (b.segment % 2 ^ 32 * 2 ^ 32 + b.st * 2 ^ 28 + b.retry % 16 * 2 ^ 24 + min 0xFFFFFF b.erases)

/-- The 128-byte segment-table entry. -/
def Segment.bytes (g : Segment) : List Byte :=
  le 1 g.st ++ le 1 (b2n g.native) ++ le 1 (b2n g.aligned) ++ le 1 g.stream ++ le 1 g.group
    ++ le 1 (b2n g.refresh + 2 * b2n g.badMember + 4 * b2n g.earlyClose) ++ le 2 g.rows ++ le 4 g.valid ++ le 4 g.meanErase
    ++ le 8 g.lastWrite ++ le 8 g.releaseSeq ++ fitBytes 96 (g.blocks.flatMap (fun b => le 4 b.2))

/-- A 4 KiB page of a table changes, by table and byte offset; the next checkpoint holds it (R267). -/
def State.tabPage (s : State) (table off : Nat) : State :=
  { s with back.ckptPages := s.back.ckptPages.ins (2 ^ 40 * table + off / 4096) true }

def State.setSeg (s : State) (id : Nat) (v : Segment) : State :=
  ({ s with back.segs := s.back.segs.put {} id v }.tabPage 2 (128 * id)).hbmWrite (s.reg64 rFTL_SEG_BASE + 128 * id) v.bytes
def State.modSeg (s : State) (id : Nat) (f : Segment → Segment) : State := s.setSeg id (f (s.seg id))
def State.setBlock (s : State) (k : Nat) (v : Block) : State :=
  ({ s with back.blocks := s.back.blocks.put {} k v }.tabPage 1 (8 * k)).hbmWrite (s.reg64 rFTL_BLOCK_BASE + 8 * k) v.bytes

/-- The segment that a location lies in, when its block belongs to one. -/
def State.segOfLoc (s : State) (loc : Nat) : Option Nat :=
  let l := locOf loc
  let k := blockKey l.module l.b
  let g := (s.block k).segment
  if (s.block k).st = 1 ∧ g ≠ 0xFFFFFFFF then some g else none

/-- Grains of a unit at `loc` are no longer referenced, or are referenced (VALID_GRAINS). -/
def State.dropValid (s : State) (loc n : Nat) : State :=
  match s.segOfLoc loc with
  | some g => s.modSeg g (fun v => { v with valid := v.valid - n })
  | none => s
def State.addValid (s : State) (loc n : Nat) : State :=
  match s.segOfLoc loc with
  | some g => s.modSeg g (fun v => { v with valid := v.valid + n })
  | none => s

end Sys2Proof.Machine
end

