-- ==== Sys2Proof/Machine/PeerBase.lean ====
section
/-! DEFINITION. What the maps need of the pair of heads: ownership, home groups, runs of CIDs and of tree pages, and the
mirror of commit units and index records (R343-R346, R348, R351). -/

namespace Sys2Proof.Machine

/-- Peer states and mirror states (R349, R353). -/
def psUnpaired : Nat := 0
def psPairing : Nat := 1
def psPaired : Nat := 2
def psLost : Nat := 3
def psTaken : Nat := 4
def psFenced : Nat := 5
def msAbsent : Nat := 0
def msHealthy : Nat := 1
def msBroken : Nat := 2
def msResync : Nat := 3

def State.peerState (s : State) : Nat := s.fld fPEERCTL_STATE_PEER_STATE
def State.mirror (s : State) : Nat := s.fld fPEERCTL_STATE_MIRROR

/-- The owner of a group: 0 or 1, a head; 2 none (R343). -/
def State.groupOwner (s : State) (g : Nat) : Nat := getBits (s.fld fPEERCTL_STATE_GROUP_OWNER) (2 * g + 1) (2 * g)

/-- This head owns the group. -/
def State.owns (s : State) (g : Nat) : Bool := s.groupOwner g = s.plat.chip.headId

/-- The home group of a tenant, 0xFF where it has none, and the group its data goes to (R344). -/
def State.homeOf (s : State) (t : Nat) : Nat := s.peer.home.get 0xFF t
/-- [DEDUCED: log entry 27] -/
def State.homeGroup (s : State) (t : Nat) : Nat := if s.homeOf t < 4 then s.homeOf t else 0

/-- New writes are multicast and records mirrored: the mirror is Healthy or Resyncing (R353, R354). -/
def State.mirroring (s : State) : Bool := s.mirror = msHealthy || s.mirror = msResync

/-- A mirror write is started on the peer association (R348): its class of operation, the peer region's handle by index, the offset
there, the immediate, the payload, and the command it belongs to. The copy of a command's write data stays in the command's class, any
other mirror traffic is in SC5 (R140). -/
def State.mirrorWrite (s : State) (type idx addr imm : Nat) (bytes : List Byte) (key : Nat) : State :=
  let ref := s.peer.nextRef
  let s1 := { s with peer.nextRef := ref + 1, peer.writes := s.peer.writes ++ [(ref, key)] }
  s1.startOp s.peer.assoc { type := type, target := s.peer.handles.getD idx 0, addr := addr, imm := imm, msgLen := bytes.length,
                              cls := if type = 0x10 ∧ idx = 0 ∧ key ≠ 0 then (s.nvf.cmds.get ({} : NvCmd) key).cls else 5 }
    none bytes pgPEERCTL ref 0

/-- The half of the full index that a base bucket lies in belongs to this head (R345). -/
def State.ownsHalf (s : State) (b : Nat) : Bool :=
  s.plat.chip.heads < 2 ||
    s.owns (if b / 2 ^ 25 % 2 = 0 then s.fld fPEERCTL_INDEX_GROUP_H0 else s.fld fPEERCTL_INDEX_GROUP_H1)

/-- Both directions of the mirror are Healthy, as far as this head knows (R346). -/
def State.mirrorBoth (s : State) : Bool := s.mirror = msHealthy && s.fld fPEERCTL_STATE_PEER_MIRROR = msHealthy

/-- An index record for the peer's half waits for the next batch, or is dropped (R346). -/
def State.forwardRecord (s : State) (rec : List Byte) : State :=
  if s.mirrorBoth then { s with peer.outbox := s.peer.outbox ++ [rec] } else s.bump fPEERCTL_FWD_DROP

/-! ### Runs (R345) -/

/-- The runs that a group holds, rising; the run tables name the group of each run. -/
def runsOf (t : Tab Nat) (g : Nat) : List Nat := (t.filter (fun e => e.2 = g)).map Prod.fst

/-- The lowest free run that this head may claim. -/
def freeRun (t : Tab Nat) (head : Nat) : Nat → Nat → Nat
  | 0, r => r
  | f + 1, r => if r % 2 = head ∧ (t.find r).isNone then r else freeRun t head f (r + 1)

/-- The lowest free run of a table that this head may claim. -/
def State.claimRun (s : State) (t : Tab Nat) : Nat := freeRun t s.plat.chip.headId (2 * t.length + 2) 0

end Sys2Proof.Machine
end

