-- ==== Sys2Proof/Machine/GrogBase.lean ====
section
/-! DEFINITION. Grog's three tiers and domain table, and the operations on them (R166, R170, R174-R179). -/

namespace Sys2Proof.Machine

/-! ### The fields of a fingerprint -/

def fpX (fp : List Byte) : Nat := unBe (fp.take 8)
def fpT (fp : List Byte) : Nat := unBe (slice fp 8 8)
/-- Hot bucket H, base bucket B, split bits. -/
def fpH (fp : List Byte) : Nat := fpX fp / 2 ^ 36
def fpB (fp : List Byte) : Nat := fpX fp / 2 ^ 10 % 2 ^ 26
def fpSplit (fp : List Byte) : Nat := fpX fp % 2 ^ 10

/-- The low `d` bits of `v` in reverse order. -/
def reverseBits : Nat → Nat → Nat
  | 0, _ => 0
  | d + 1, v => (v % 2) * 2 ^ d + reverseBits d (v / 2)

/-- The page number of base bucket `b` at depth `d` and suffix `sfx` (R264). -/
def fidxNo (b d sfx : Nat) : Nat := b + 2 ^ 26 * reverseBits d sfx

/-- The page of a fingerprint at a depth: its suffix is the top `d` of the ten split bits. -/
def fpSuffix (fp : List Byte) (d : Nat) : Nat := fpSplit fp / 2 ^ (10 - d)

/-! ### Domain table (R166) -/

def State.domEnt (s : State) (d : Nat) : DomEnt := s.grog.doms.get {} d
def DomEnt.bytes (e : DomEnt) : List Byte := le 2 e.tenant ++ le 1 (b2n e.hotOnly) ++ le 1 (b2n e.verify) ++ le 1 e.st ++ zeros 11
def State.setDomEnt (s : State) (d : Nat) (e : DomEnt) : State :=
  { s with grog.doms := s.grog.doms.put {} d e }.hbmWrite (s.reg64 (rGROG_DOM_BASE 0) + 16 * d) e.bytes

/-! ### Hot tier (R174, R175) -/

def State.hotWay (s : State) (h w : Nat) : HotWay := s.grog.hot.get {} (4 * h + w)
def State.hotHand (s : State) (h : Nat) : Nat := s.grog.hand.get 0 h

/-- The 128-bit word of a hot entry; HAND stands in way 0. -/
def HotWay.word (e : HotWay) (hand : Nat) : Nat :=
  e.tag * 2 ^ 66 + hand * 2 ^ 64 + e.dom * 2 ^ 52 + e.cid * 2 ^ 4 + 8 * b2n e.pend + 4 * b2n e.pin + 2 * b2n e.ref + b2n e.valid

/-- Write a way of a bucket. -/
def State.setHot (s : State) (h w : Nat) (e : HotWay) : State :=
  { s with grog.hot := s.grog.hot.put {} (4 * h + w) e }.hbmWrite (s.reg64 (rGROG_HOT_BASE 0) + 64 * h + 16 * w)
    (le 16 (e.word (if w = 0 then s.hotHand h else 0)))

/-- Move the hand of a bucket. -/
def State.setHand (s : State) (h v : Nat) : State :=
  let s1 := { s with grog.hand := s.grog.hand.put 0 h (v % 4) }
  s1.setHot h 0 (s1.hotWay h 0)

/-- The way of bucket H that matches a domain and a fingerprint's tag. -/
def State.hotMatches (s : State) (dom : Nat) (fp : List Byte) : List Nat :=
  (List.range 4).filter (fun w =>
    let e := s.hotWay (fpH fp) w
    e.valid && e.dom = dom && e.tag = fpT fp / 4)

/-- The hot tier is empty: no word of it in HBM is valid (R175). -/
def State.hotEmpty (s : State) : State :=
  let s1 := (s.grog.hot.map (fun (e : Nat × HotWay) => e.1 / 4) ++ s.grog.hand.keys).foldl (fun (t : State) (h : Nat) =>
    t.hbmWrite (t.reg64 (rGROG_HOT_BASE 0) + 64 * h) (zeros 64)) s
  { s1 with grog.hot := [], grog.hand := [] }

/-- The insert record of a unit has been merged: its hot entry may be evicted. -/
def State.unpin (s : State) (fp : List Byte) (dom cid : Nat) : State :=
  (s.hotMatches dom fp).foldl (fun t w =>
    let e := t.hotWay (fpH fp) w
    if e.cid = cid ∧ e.pin then t.setHot (fpH fp) w { e with pin := false } else t) s

/-- The hot entry of a unit is removed. -/
def State.hotRemove (s : State) (fp : List Byte) (dom cid : Nat) : State :=
  (s.hotMatches dom fp).foldl (fun t w =>
    if (t.hotWay (fpH fp) w).cid = cid ∧ !(t.hotWay (fpH fp) w).pend then t.setHot (fpH fp) w {} else t) s

/-! ### Insert log (R177) -/

/-- The 64 bytes of a record. -/
def ILogRec.bytes (r : ILogRec) : List Byte :=
  fitBytes 32 r.fp ++ le 6 r.cid ++ le 2 r.dom ++ le 8 r.createSeq ++ le 1 (if r.remove then 2 else 1) ++ zeros 15

/-- An insert is lost: MERGE_SEQ does not pass it before a reconciliation has put it into the log again (R178, R184). -/
def State.loseInsert (s : State) (r : ILogRec) : State :=
  if r.remove then s
  else { s with grog.mergeCap := some (min (r.createSeq - 1) (s.grog.mergeCap.getD (r.createSeq - 1)))
                grog.capNext := some (min (r.createSeq - 1) (s.grog.capNext.getD (r.createSeq - 1))) }

/-- A record for the peer's half of the index that cannot be delivered, or whose merging this head will not see: the entry may be
evicted.
[DESIGN CHOICE: log entry 122] -/
def State.dropFwd (s : State) (r : ILogRec) : State := (s.loseInsert r).unpin r.fp r.dom r.cid

/-- MERGE_SEQ: the highest CREATE_SEQ below the first insert that is not merged (R178). -/
def State.mergeSeqNow (s : State) : Nat :=
  ((s.grog.ilog ++ s.grog.logWait ++ s.grog.fwd).filter (fun r => !r.merged && !r.remove)).foldl (fun n r => min n (r.createSeq - 1))
    (min s.lmap.createSeq (s.grog.mergeCap.getD s.lmap.createSeq))

/-- The log is full: 67,108,864 records not merged in order. -/
def State.ilogFull (s : State) : Bool := decide (2 ^ 26 ≤ s.grog.prod - s.grog.merged)

/-- A record takes the next place in the ring. -/
def State.ilogPut (s : State) (r : ILogRec) : State :=
  { s with grog.ilog := s.grog.ilog ++ [r], grog.prod := s.grog.prod + 1 }.hbmWrite
    (s.reg64 (rGROG_ILOG_BASE 0) + 64 * (s.grog.prod % 2 ^ 26)) r.bytes

/-- Append a record, here or at the head that owns its half of the index (R345, R346). While the log is full, it waits (R178). -/
def State.ilogAppend (s : State) (r : ILogRec) : State :=
  if s.ownsHalf (fpB r.fp) then
    (if s.ilogFull ∨ !s.grog.logWait.isEmpty then { s with grog.logWait := s.grog.logWait ++ [r] } else s.ilogPut r)
  else
    let s1 := s.forwardRecord r.bytes
    if s.mirrorBoth then { s1 with grog.fwd := s1.grog.fwd ++ [r] } else s1.dropFwd r

/-- Records that wait go into the log while it has room. -/
def State.ilogPump : Nat → State → State
  | 0, s => s
  | f + 1, s => match s.grog.logWait with
    | r :: l => if s.ilogFull then s else State.ilogPump f ({ s with grog.logWait := l }.ilogPut r)
    | [] => s

/-- The log has reached URGENT_PCT: merge writes go before Pug's in the module queues (R178). -/
def State.mergeUrgent (s : State) : Bool :=
  let p := s.fld (fGROG_MERGE_CFG_URGENT_PCT 0)
  p ≠ 0 && decide (p * 2 ^ 26 ≤ 100 * (s.grog.prod - s.grog.merged))

/-! ### Full-index pages (R176, R177) -/

def State.fidxDir (s : State) (b : Nat) : Nat := s.grog.dir.get 0 b
def State.fidxPage (s : State) (n : Nat) : FidxPage := s.grog.fidx.get {} n

/-- The page number of a fingerprint. -/
def State.fidxOf (s : State) (fp : List Byte) : Nat :=
  let d := s.fidxDir (fpB fp)
  fidxNo (fpB fp) d (fpSuffix fp d)

/-- A Grog quadrant page, and an error captured there (R187). -/
def pgGrogQ (q : Nat) : Nat := quadPage pgGROG q
/-- [DEDUCED: log entry 44] -/
def State.grogError (s : State) (q code info : Nat) : State := (s.capture (pgGrogQ q) code info 0).irqBit (pgGrogQ q) 3

/-- The directory's Rebuilding value. -/
def dirRebuilding : Nat := 15

/-- A base bucket's page is lost: the bucket is Rebuilding, and INDEX_PAGE_LOST is posted (R185). -/
def State.fidxLost (s : State) (q b : Nat) : State :=
  if s.fidxDir b = dirRebuilding then s
  else
    let s1 := { s with grog.dir := s.grog.dir.put 0 b dirRebuilding, grog.splitting := s.grog.splitting.filter (· ≠ b) }
    ((s1.irqBit (pgGrogQ q) 1).event (pgGrogQ q) 2 (le 4 b)).grogError q 0x02 b

/-- The 16 bytes of an entry, and the 4,096 of a page. -/
def FidxEnt.word (e : FidxEnt) : Nat := e.tag * 2 ^ 64 + e.dom * 2 ^ 52 + e.cid * 2 ^ 4 + 1
def FidxPage.bytes (p : FidxPage) : List Byte :=
  le 2 0x4D47 ++ le 1 p.depth ++ le 1 p.ents.length ++ le 4 p.base ++ le 2 p.suffix ++ zeros 6
    ++ fitBytes 4080 (p.ents.flatMap (fun e => le 16 e.word))

end Sys2Proof.Machine
end

