-- ==== Sys2Proof/Machine/LmapOps.lean ====
section
/-! DEFINITION. Volumes, trees, content entries and commit units: what the LMAP and MOULD commands and the data path share
(R217-R235, R305). -/

namespace Sys2Proof.Machine

/-! ### Tables (R217, R228) -/

def State.vol (s : State) (v : Nat) : Volume := s.lmap.vols.get {} v
def State.tenE (s : State) (t : Nat) : Tenant := s.lmap.tens.get {} t
def State.mould (s : State) (m : Nat) : Mould := s.lmap.moulds.get {} m
def State.cont (s : State) (c : Nat) : Content := s.lmap.cids.get {} c
def State.tpage (s : State) (m : Nat) : MapPage := s.lmap.pages.get {} m

/-- The 64 bytes of a volume-table entry. -/
def Volume.bytes (v : Volume) : List Byte :=
  le 6 v.root ++ le 2 v.rootOwner ++ le 4 v.rootBirth ++ le 4 v.epoch ++ le 8 v.size ++ le 8 v.mapped ++ le 2 v.tenant
    ++ le 2 v.domain ++ le 2 v.keySlot ++ le 1 v.kind ++ le 1 v.levels ++ le 4 v.source ++ le 2 v.moulds
    ++ le 2 (b2n v.readOnly + 2 * b2n v.cgHold) ++ zeros 16

/-- The 32 bytes of a mould-table entry. -/
def Mould.bytes (m : Mould) : List Byte :=
  le 2 m.vol ++ le 1 m.st ++ le 1 m.levels ++ le 4 m.epoch ++ le 6 m.root ++ le 2 m.clones ++ le 8 m.time ++ le 6 m.size ++ zeros 2

/-- Map pages that the tenant's volumes own (R233). -/
def State.mapPages (s : State) (t : Nat) : Nat :=
  (s.lmap.pages.filter (fun e => (s.vol e.2.owner).kind ≠ 0 && (s.vol e.2.owner).tenant = t)).length

/-- The 32 bytes of a tenant-table entry. -/
def State.tenBytes (s : State) (t : Nat) : List Byte :=
  let x := s.tenE t
  le 8 x.capGrains ++ le 8 x.physGrains ++ le 8 x.rsvGrains ++ le 8 (s.mapPages t)

/-- An entry of the volume table (0) or the tenant table (1) changes: the next commit unit holds its record (R217). -/
def State.tabChanged (s : State) (table index : Nat) : State :=
  let a := table * 2 ^ 24 + index
  { s with lmap.tabDirty := if s.lmap.tabDirty.contains a then s.lmap.tabDirty else s.lmap.tabDirty ++ [a] }

/-- [DESIGN CHOICE: log entry 16] -/
def State.setVol (s : State) (v : Nat) (x : Volume) : State :=
  let s1 := { s with lmap.vols := s.lmap.vols.put {} v x }.hbmWrite (s.reg64 rLMAP_VOL_BASE + 64 * v) x.bytes
  if x.bytes = (s.vol v).bytes then s1 else s1.tabChanged 0 v
def State.modVol (s : State) (v : Nat) (f : Volume → Volume) : State := s.setVol v (f (s.vol v))
def State.setTen (s : State) (t : Nat) (x : Tenant) : State :=
  let s1 := { s with lmap.tens := s.lmap.tens.put {} t x }
  (s1.hbmWrite (s.reg64 rLMAP_TEN_BASE + 32 * t) (s1.tenBytes t)).tabChanged 1 t
def State.modTen (s : State) (t : Nat) (f : Tenant → Tenant) : State := s.setTen t (f (s.tenE t))
def State.setMould (s : State) (m : Nat) (x : Mould) : State :=
  { s with lmap.moulds := s.lmap.moulds.put {} m x }.hbmWrite (s.reg64 rMOULD_TABLE_BASE + 32 * m) x.bytes
/-- An uncorrectable HBM error in the volume's or its tenant's entry (R236). -/
def State.volBad (s : State) (v : Nat) : Bool :=
  s.hbmErr (s.reg64 rLMAP_VOL_BASE + 64 * v) 64 || s.hbmErr (s.reg64 rLMAP_TEN_BASE + 32 * (s.vol v).tenant) 32

/-- TABLE_UNCORRECTABLE is captured, with the index of the entry in its table. -/
def State.volBadNote (s : State) (v : Nat) : State :=
  if s.hbmErr (s.reg64 rLMAP_VOL_BASE + 64 * v) 64 then (s.noteErr (s.reg64 rLMAP_VOL_BASE + 64 * v) 64).capture pgLMAP 0x02 v 0
  else (s.noteErr (s.reg64 rLMAP_TEN_BASE + 32 * (s.vol v).tenant) 32).capture pgLMAP 0x02 (s.vol v).tenant 0

/-- The same for a mould entry. -/
def State.mouldBad (s : State) (m : Nat) : Bool := s.hbmErr (s.reg64 rMOULD_TABLE_BASE + 32 * m) 32
def State.mouldBadNote (s : State) (m : Nat) : State :=
  (s.noteErr (s.reg64 rMOULD_TABLE_BASE + 32 * m) 32).capture pgLMAP 0x02 m 0

/-- The 64 bytes of a content entry (R221). -/
def Content.bytes (c : Content) : List Byte :=
  le 6 c.loc ++ le 2 c.len
    ++ le 2 (c.dom + 2 ^ 12 * b2n c.inFlight + 2 ^ 13 * b2n c.poisoned + 2 ^ 14 * b2n c.indet + 2 ^ 15 * b2n c.stored)
    ++ le 2 c.keySlot ++ le 4 c.refs ++ le 8 c.createSeq ++ le 8 c.guard ++ fitBytes 32 c.fp

/-! ### The bytes of map pages (R4, R176, R219, R221, R265) -/

/-- An entry of a leaf in array mode, of a leaf in shelf mode, and of a pointer page; bit 0 of a pointer's FLAGS is EMPTY. -/
def MapEnt.leafBytes (e : MapEnt) : List Byte := le 6 e.a ++ le 2 e.b
def MapEnt.shelfBytes (e : MapEnt) : List Byte :=
  le 6 e.a ++ le 2 e.b ++ le 6 e.loc ++ le 2 (b2n e.inFlight + 2 * b2n e.poisoned + 4 * b2n e.indet)
def MapEnt.ptrBytes (e : MapEnt) : List Byte :=
  le 6 e.a ++ le 2 e.b ++ le 4 e.c ++ le 1 (b2n (e.a = 0 && !e.lost) + 2 * b2n e.lost) ++ zeros 3

/-- Blocks per leaf. -/
def State.leafCap (s : State) : Nat := if s.arrayMode then 512 else 256

/-- The bytes of entry `e` of a tree page of level `k`. -/
def State.entBytes (s : State) (k : Nat) (e : MapEnt) : List Byte :=
  if k ≠ 1 then e.ptrBytes else if s.arrayMode then e.leafBytes else e.shelfBytes

/-- Entries of a tree page. -/
def State.pageCap (s : State) (k : Nat) : Nat := if k = 1 then s.leafCap else 256

/-- A directory entry: LOC, VALID and LOST. -/
def State.dirEntry (s : State) (m : Nat) : Nat :=
  (match s.back.pageLoc.find m with
    | some l => l + 2 ^ 48
    | none => 0) + 2 ^ 49 * b2n (s.lmap.lostPages.contains m)

/-- The MPA of full-index page `n`, and the range and first MPA that a directory page covers. -/
def fidxMpa (n : Nat) : Nat := 2 * 2 ^ 46 + n
def dirFirst (m : Nat) : Nat := (m / 2 ^ 44 % 4) * 2 ^ 46 + 512 * (m % 2 ^ 44)

/-- The split bits of an entry's fingerprint, from its unit's content entry. -/
def State.entSplit (s : State) (e : FidxEnt) : Nat := fpSplit (s.cont e.cid).fp

/-- The pages of a bucket at depth d + 1: every page becomes two (R177). -/
def State.splitPages (s : State) (b : Nat) : List (Nat × FidxPage) :=
  let d := s.fidxDir b
  (List.range (2 ^ (d + 1))).map (fun y => (fidxNo b (d + 1) y,
    { depth := d + 1, base := b, suffix := y
      ents := (s.fidxPage (fidxNo b d (y / 2))).ents.filter (fun e => s.entSplit e / 2 ^ (10 - (d + 1)) = y) }))

/-- The full-index page that the FTL has to write: in a bucket that is being split, a new one. -/
def State.fidxNow (s : State) (n : Nat) : FidxPage :=
  let b := n % 2 ^ 26
  if s.grog.splitting.contains b then (((s.splitPages b).find? (fun e => e.1 = n)).map Prod.snd).getD {} else s.fidxPage n

/-- The 4,096 bytes of a map page. -/
def State.pageBytes (s : State) (m : Nat) : List Byte :=
  if mpaRange m = 0 then
    let p := s.tpage m
    (List.range (s.pageCap p.level)).flatMap (fun i => s.entBytes p.level (p.ents.get {} i))
  else if mpaRange m = 1 then (List.range 64).flatMap (fun i => (s.cont (64 * (m % 2 ^ 46) + i)).bytes)
  else if mpaRange m = 2 then (s.fidxNow (m % 2 ^ 46)).bytes
  else (List.range 512).flatMap (fun i => le 8 (s.dirEntry (dirFirst m + i)))

/-! ### The map cache (R224) -/

/-- The pages that map-cache frames hold; a changed page is dirty (R224). -/
def State.resident (s : State) (m : Nat) : Bool := s.lmap.frames.contains m

/-- The address of the frame that holds a page. -/
def State.frameAddr (s : State) (m : Nat) : Option Nat :=
  (s.lmap.slots.find? (fun e => e.2 = m)).map (fun e => s.reg64 rLMAP_CACHE_BASE + 4096 * e.1)

/-- Bytes of a page are written into its frame. -/
def State.frameWrite (s : State) (m off : Nat) (bs : List Byte) : State :=
  match s.frameAddr m with
  | some a => s.hbmWrite (a + off) bs
  | none => s

/-- A whole tree page, or one entry of it, changes, and its frame follows. -/
def State.setTpage (s : State) (m : Nat) (x : MapPage) : State :=
  let s1 := { s with lmap.pages := s.lmap.pages.ins m x }
  s1.frameWrite m 0 (s1.pageBytes m)
def State.setEnt (s : State) (m i : Nat) (e : MapEnt) : State :=
  let p := s.tpage m
  let bs := s.entBytes p.level e
  { s with lmap.pages := s.lmap.pages.ins m { p with ents := p.ents.put {} i e } }.frameWrite m (bs.length * i) bs
def State.markDirty (s : State) (m : Nat) : State :=
  { s with
    lmap.dirty := if s.lmap.dirty.contains m then s.lmap.dirty else s.lmap.dirty ++ [m]
    lmap.since := if (s.lmap.since.find m).isSome then s.lmap.since else s.lmap.since.ins m (s.lmap.commitSeq + 1) }

/-- A row lies in a program that is issued and not complete. -/
def Segment.inProg (v : Segment) (r : Nat) : Bool := v.progs.any (fun p => decide (p.row ≤ r) && decide (r < p.row + p.rows))

/-- The row is parity-complete. -/
def Segment.rowDone (v : Segment) (r : Nat) : Bool := (decide (r < v.row) || v.st ≠ 1) && !v.inProg r

/-- A map page lies in a row that is not parity-complete: its last copy is not on flash yet. -/
def State.pageInRow (s : State) (m : Nat) : Bool :=
  s.back.segs.any (fun e => e.2.units.any (fun u => u.kind = 2 && u.ref = m && !u.dead && u.src.isNone && !e.2.rowDone u.row))

/-- A directory page of range 2 that holds a VALID entry (R266). -/
def State.pinnedDir (s : State) (m : Nat) : Bool :=
  mpaRange m = 3 && m / 2 ^ 44 % 4 = 2 && s.back.pageLoc.any (fun e => dirMpa e.1 = m)

/-- A page may leave its frame: flash holds it, no child of it is cached, it is no root of a volume with attached namespaces, and no directory
page that stays. -/
def State.evictPage (s : State) (m : Nat) : Bool :=
  !s.lmap.dirty.contains m && !s.pageInRow m && !s.pinnedDir m
    && !((s.tpage m).level ≠ 1 && (s.tpage m).ents.any (fun e => s.resident e.2.a))
    && !s.nvf.ns.any (fun e => e.2.attached && (s.vol e.2.vol).root = m && m ≠ 0)

/-- The clock algorithm over the frames. -/
def State.clockPage (s : State) : Nat → List Nat → List Nat → List Nat × List Nat
  | 0, l, r => (l, r)
  | _ + 1, [], r => ([], r)
  | f + 1, p :: l, r =>
    if !s.evictPage p then s.clockPage f (l ++ [p]) r
    else if r.contains p then s.clockPage f (l ++ [p]) (r.filter (· ≠ p))
    else (l, r)

/-- The frames of the map cache. -/
def cacheFrames : Nat := 10485760

/-- A page takes a frame (R224). While no frame may be taken, it has none. -/
def State.fillFrame (s : State) (m : Nat) : State :=
  if s.resident m then { s with lmap.refbits := m :: s.lmap.refbits.filter (· ≠ m) }
  else
    let e := if s.lmap.frames.length < cacheFrames then (s.lmap.frames, s.lmap.refbits)
      else s.clockPage (2 * s.lmap.frames.length + 1) s.lmap.frames s.lmap.refbits
    if cacheFrames ≤ e.1.length then { s with lmap.frames := e.1, lmap.refbits := e.2 } else
    let kept : Tab Nat := s.lmap.slots.filter (fun x => e.1.contains x.2)
    let s1 := { s with lmap.frames := e.1 ++ [m], lmap.refbits := m :: e.2, lmap.slots := kept.ins (Tab.firstGap 0 kept) m }
    s1.frameWrite m 0 (s1.pageBytes m)

/-- A content entry changes: its content page is dirty.
[DESIGN CHOICE: log entry 16] -/
def State.setCont (s : State) (c : Nat) (x : Content) : State :=
  let s1 := ({ s with lmap.cids := s.lmap.cids.put {} c x }).frameWrite (contentMpa c) (64 * (c % 64)) x.bytes
  (s1.fillFrame (contentMpa c)).markDirty (contentMpa c)
def State.modCont (s : State) (c : Nat) (f : Content → Content) : State := s.setCont c (f (s.cont c))

/-! ### Commit units (R223, R305) -/

/-- The bytes of a record of commit unit `seq`. -/
def DeltaRec.bytes (seq : Nat) (r : DeltaRec) : List Byte :=
  le 8 seq ++ le 1 r.kind ++ zeros 1 ++ le 2 r.vol ++ le 4 r.aux ++ le 8 r.key ++ le 8 r.value ++ r.extra

/-- The bytes of a unit: its records and its end. -/
def unitBytes (seq : Nat) (recs : List DeltaRec) : List Byte :=
  (recs ++ [({ kind := 7 } : DeltaRec)]).flatMap (fun (r : DeltaRec) => r.bytes seq)

/-- This head's delta ring: its address and its size. -/
def State.ringBase (s : State) : Nat := s.reg64 rSAG_BASE + 2 ^ 20 * s.back.dataMib + 2 ^ 20 * s.back.dataMib / 256
def State.ringSize (s : State) : Nat := 2 ^ 20 * s.back.deltaMib

/-- Bytes of the ring that no checkpoint covers. -/
def State.ringUsed (s : State) : Nat := s.back.ring.foldl (fun n e => n + e.2) 0

/-- A commit unit of these records finds room (R305). -/
def State.deltaRoom (s : State) (recs : List DeltaRec) : Bool :=
  decide (s.ringUsed + (unitBytes 0 recs).length ≤ s.ringSize)

/-- A unit waits for room: counted, and DELTA_FULL posted once until the ring is below half.
[DEDUCED: log entry 26] -/
def State.deltaWait (s : State) : State :=
  let s1 := s.bump fSAG_DELTA_WAIT
  if s.back.deltaFull then s1
  else ({ s1 with back.deltaFull := true, back.ckptAsked := true }.irqBit pgSAG 0).event pgSAG 2 (le 4 (s.ringUsed / 2 ^ 20))

/-- Write bytes into the ring at a position, wrapping at its end. -/
def State.ringWrite (s : State) (pos : Nat) (bs : List Byte) : State :=
  let o := pos % s.ringSize
  let n := s.ringSize - o
  (s.hbmWrite (s.ringBase + o) (bs.take n)).hbmWrite s.ringBase (bs.drop n)

/-- The two ranges of HBM that the newest `n` bytes of the ring take: (address, length). -/
def State.ringSpan (s : State) (n : Nat) : List (Nat × Nat) :=
  let o := (s.back.ringPos - n) % s.ringSize
  let k := min n (s.ringSize - o)
  [(s.ringBase + o, k), (s.ringBase, n - k)]

/-- A range of the ring is read (R306): an uncorrectable error is repaired from the peer's copy, or from the map cache, and captured.
[DESIGN CHOICE: log entry 126] -/
def State.ringHeal (s : State) (r : Nat × Nat) : State :=
  if r.2 ≠ 0 ∧ s.hbmErr r.1 r.2 then
    let s1 := s.noteErr r.1 r.2
    let s2 := if s.mirror = msHealthy then s1.bump fSAG_PEER_REPAIR else (s1.capture pgSAG 0x01 0 0).irqBit pgSAG 2
    let a := r.1 / 64 * 64
    s2.hbmWrite a (s2.hbmRead a (64 * ceilDiv (r.1 + r.2 - a) 64))
  else s

/-- The newest `n` bytes of the ring are read. -/
def State.ringTake (s : State) (n : Nat) : State × List Byte :=
  let s1 := (s.ringSpan n).foldl State.ringHeal s
  (s1, (s.ringSpan n).flatMap (fun r => s1.hbmRead r.1 r.2))

/-- A table change as a KIND 6 record: table 0 volumes, 1 tenants, 2 moulds, 3 CID runs, 4 tree runs, 5 segments, 6 home groups.
[DESIGN CHOICE: log entry 25] -/
def tableRec (table index : Nat) : DeltaRec := { kind := 6, aux := table * 2 ^ 24 + index }

/-- The bytes of a table's entry. -/
def State.entryBytes (s : State) (table i : Nat) : List Byte :=
  match table with
  | 0 => (s.vol i).bytes
  | 1 => s.tenBytes i
  | 2 => (s.mould i).bytes
  | 3 => le 1 (s.peer.cidRuns.get 0xFF i)
  | 4 => le 1 (s.peer.treeRuns.get 0xFF i)
  | 5 => (s.seg i).bytes
  | _ => le 1 (s.homeOf i)

/-- A table change takes a KIND 6 record for every 8 bytes of the entry: KEY is their offset, VALUE what they hold.
[DESIGN CHOICE: log entry 25] -/
def State.tableRecs (s : State) (r : DeltaRec) : List DeltaRec :=
  if r.kind ≠ 6 then [r]
  else
    let bs := s.entryBytes (r.aux / 2 ^ 24) (r.aux % 2 ^ 24)
    (List.range (ceilDiv bs.length 8)).map (fun i => { r with key := 8 * i, value := unLe (slice bs (8 * i) 8) })

/-- The records of a unit, with those of the table entries that have changed beside them (R217). -/
def State.withTables (s : State) (recs : List DeltaRec) : List DeltaRec :=
  (recs ++ (s.lmap.tabDirty.filter (fun a => !recs.any (fun r => r.kind = 6 && r.aux = a))).map
    (fun a => ({ kind := 6, aux := a } : DeltaRec))).flatMap s.tableRecs

/-- The counts as committed units alone leave them: without what a command that has not committed raised or made (R172, R222). -/
def dropRaise (t : Tab Content) (made : Bool) (cid : Nat) : Tab Content :=
  let c := t.get {} cid
  if c.refs = 0xFFFFFFFF ∨ c.refs = 0 then t
  else if made ∧ c.refs = 1 then t.del cid
  else t.put {} cid { c with refs := c.refs - 1 }

/-- The maps as the committed units leave them; `key` is the command that commits.
[DESIGN CHOICE: log entry 30] -/
def State.committedMaps (s : State) (key : Nat) : LmapSt :=
  let open_ := s.nvf.cmds.filter (fun e => e.1 ≠ key && !e.2.committed)
  { s.lmap with
    tabDirty := []
    cids := open_.foldl (fun t e => e.2.made.foldl (fun u c => dropRaise u true c) (e.2.hits.foldl (fun u c => dropRaise u false c) t)) s.lmap.cids }

/-- Maps as flash holds them: nothing cached, nothing in progress. -/
def LmapSt.stored (m : LmapSt) : LmapSt :=
  { m with
    frames := [], refbits := [], slots := [], dirty := [], since := [], wanted := [], fetchLoc := [], tabDirty := [], cgs := []
    tens := m.tens.map (fun e => (e.1, { e.2 with rsvGrains := 0 }))
    vols := m.vols.map (fun e => (e.1, { e.2 with deleting := none, cgHold := false }))
    moulds := m.moulds.map (fun e => (e.1, { e.2 with waits := [], delCmd := none })) }

/-- Commit a unit (R223): COMMIT_SEQ rises, its records go to the ring and to the peer's mirror of it (R351), and SAG asks for a
checkpoint when the ring passes three quarters. `key` is the command that waits for the mirror, 0 for none.
[DEDUCED: log entry 26] -/
def State.commit (s0 : State) (recs0 : List DeltaRec) (key : Nat := 0) : State :=
  let s := { s0 with lmap.tabDirty := [] }
  let recs := s0.withTables recs0
  let seq := s.lmap.commitSeq + 1
  let bs := unitBytes seq recs
  let s1 := { s with
    lmap.commitSeq := seq
    back.ring := s.back.ring ++ [(seq, bs.length)]
    back.ringPos := s.back.ringPos + bs.length
    back.hist := s.back.hist ++ [(seq, { s.committedMaps key with commitSeq := seq })] }
  let s2 := if 0 < s.ringSize then s1.ringWrite s.back.ringPos bs else s1
  let s3 := if s.mirroring then s2.mirrorWrite 0x11 1 (s.back.ringPos % max 1 s.ringSize) seq bs key else s2
  if 3 * s3.ringSize < 4 * s3.ringUsed then { s3 with back.ckptAsked := true } else s3

/-- Table entries that changed outside any other unit are committed in one of their own (R217).
[DEDUCED: log entry 99] -/
def State.commitTables (s : State) : State := if s.lmap.tabDirty.isEmpty then s else s.commit []

/-! ### CIDs and tree pages (R220, R345) -/

/-- The lowest unlisted key of `t` in `[lo, hi)`. -/
def gapIn {α : Type} (t : Tab α) (lo hi : Nat) : Option Nat :=
  let n := Tab.firstGap lo (t.keepKeys (fun k => decide (lo ≤ k)))
  if n < hi then some n else none

/-- How many keys of `t` lie in the runs of `n` keys. -/
def usedIn {α : Type} (t : Tab α) (runs : List Nat) (n : Nat) : Nat := (t.filter (fun e => runs.contains (e.1 / n))).length

/-- A group claims a run of CIDs, or of tree pages, when seven eighths of what it holds is used (R345). -/
def State.claimCids (s : State) (g : Nat) : State :=
  let rs := runsOf s.peer.cidRuns g
  if 7 * 2 ^ 32 * rs.length ≤ 8 * usedIn s.lmap.cids rs (2 ^ 32) then
    let r := s.claimRun s.peer.cidRuns
    ({ s with peer.cidRuns := s.peer.cidRuns.ins r g }.hbmWrite (s.reg64 rPEERCTL_RUN_BASE + r) (le 1 g)).commit [tableRec 3 r]
  else s
def State.claimTree (s : State) (g : Nat) : State :=
  let rs := runsOf s.peer.treeRuns g
  if 7 * 2 ^ 24 * rs.length ≤ 8 * usedIn s.lmap.pages rs (2 ^ 24) then
    let r := s.claimRun s.peer.treeRuns
    ({ s with peer.treeRuns := s.peer.treeRuns.ins r g }.hbmWrite (s.reg64 rPEERCTL_RUN_BASE + 2 ^ 16 + r) (le 1 g)).commit [tableRec 4 r]
  else s

/-- The lowest free CID, or tree page number, of a group's runs. -/
def State.freeCid (s : State) (g : Nat) : Option Nat :=
  (runsOf s.peer.cidRuns g).findSome? (fun r => gapIn s.lmap.cids (max 16 (2 ^ 32 * r)) (min 0xFFFFFFFFFFFF (2 ^ 32 * (r + 1))))
def State.freePage (s : State) (g : Nat) : Option Nat :=
  (runsOf s.peer.treeRuns g).findSome? (fun r => gapIn s.lmap.pages (max 1 (2 ^ 24 * r)) (2 ^ 24 * (r + 1)))

/-- How many CIDs there are (R220). -/
def cidCount : Nat := 0xFFFFFFFFFFFF - 16

/-- A shelf CID is in use: a leaf names it. -/
def State.shelfUsed (s : State) (cid : Nat) : Bool := s.lmap.pages.any (fun p => p.2.level = 1 && p.2.ents.any (fun e => e.2.a = cid))

/-- The next CID of a shelf block (R10, R220): they are given in turn, from 16 up. After the last, those that are free again are.
[DEDUCED: log entry 130] -/
def State.shelfNext (s : State) : Nat → Nat → Nat
  | 0, n => n
  | f + 1, n => if n < cidCount ∨ !s.shelfUsed (16 + n % cidCount) then n else s.shelfNext f (n + 1)
def State.shelfFuel (s : State) : Nat := s.lmap.pages.foldl (fun n p => n + p.2.ents.length) 1

/-- The directory page of an MPA lies below its limit (R265). -/
def State.mpaOk (s : State) (m : Nat) : Bool :=
  2 ≤ mpaRange m || decide ((m % 2 ^ 46) / 512 < s.back.mpdLimit.getD (mpaRange m) 0)

/-- Allocate a CID for a tenant's group, with a new CREATE_SEQ (R221): none when the content map cannot be stored. -/
def State.allocCid (s : State) (tenant : Nat) : State × Option Nat :=
  let g := s.homeGroup tenant
  let s1 := s.claimCids g
  match s1.freeCid g with
  | some c =>
    if s1.mpaOk (contentMpa c) then
      let q := s1.lmap.createSeq + 1
      ({ s1 with lmap.createSeq := q }.setCont c { createSeq := q }, some c)
    else (s1, none)
  | none => (s1, none)

/-- A new tree page: it counts for its owner's tenant (R233). -/
def State.newPage (s : State) (g : Nat) (p : MapPage) : State × Nat :=
  let s1 := s.claimTree g
  let m := (s1.freePage g).getD s1.lmap.nextMpa
  ((((s1.setTpage m p).fillFrame m).markDirty m).modTen (s.vol p.owner).tenant id, m)

/-- The directory page of a page is on flash and in no frame (R266). -/
def State.dirAbsent (s : State) (m : Nat) : Bool :=
  mpaRange m ≠ 3 && !s.resident (dirMpa m) && (s.back.pageLoc.find (dirMpa m)).isSome

/-- A page that the next step of a row needs is asked for, and before it its directory page where that is absent too (R224, R266). -/
def State.wantPage (s : State) (m : Nat) : State :=
  if s.lmap.wanted.contains m then s
  else
    let d := if s.dirAbsent m ∧ !s.lmap.wanted.contains (dirMpa m) then [dirMpa m] else []
    let locs := (d ++ [m]).foldl (fun (t : Tab Nat) k => match s.back.pageLoc.find k with
      | some l => t.ins k l
      | none => t) s.lmap.fetchLoc
    { s.bump fLMAP_PAGE_MISS with lmap.wanted := s.lmap.wanted ++ d ++ [m], lmap.fetchLoc := locs }

/-! ### Counts (R222, R233) -/

/-- The tenant of a dedup domain. -/
def State.domTenant (s : State) (d : Nat) : Nat := (s.domEnt d).tenant

/-- A unit's count has reached 0: its grains leave the tenant's count and its segment's, its hot entry goes and a remove record is
appended (R179, R222, R233). -/
def State.releaseUnit (s : State) (cid : Nat) : State :=
  let c := s.cont cid
  let n := grainsOf c.len
  let s1 := if c.counted then s.modTen (s.domTenant c.dom) (fun t => { t with physGrains := t.physGrains - n }) else s
  let s2 := if c.inFlight then s1 else s1.dropValid c.loc n
  (s2.hotRemove c.fp c.dom cid).ilogAppend { fp := c.fp, cid := cid, dom := c.dom, createSeq := c.createSeq, remove := true }

/-- A change of a count by +1 or −1, with its record. -/
def State.incRef (s : State) (cid : Nat) : State × List DeltaRec :=
  if cid < 16 ∨ !s.arrayMode then (s, [])
  else
    let c := s.cont cid
    ((s.bump fLMAP_REF_OPS).setCont cid { c with refs := satAdd 32 c.refs 1 },
      [{ kind := 4, key := cid, value := 1 }])
def State.decRef (s : State) (cid : Nat) : State × List DeltaRec :=
  if cid < 16 ∨ !s.arrayMode then (s, [])
  else
    let c := s.cont cid
    let s1 := s.bump fLMAP_REF_OPS
    if c.refs = 0xFFFFFFFF ∨ c.refs = 0 then (s1, [])
    else
      let s2 := s1.setCont cid { c with refs := c.refs - 1 }
      (if c.refs = 1 then s2.releaseUnit cid else s2, [{ kind := 4, key := cid, value := 2 ^ 64 - 1 }])

/-- Run a step with records over a list. -/
def State.foldRecs {α : Type} (f : State → α → State × List DeltaRec) : List α → State → List DeltaRec → State × List DeltaRec
  | [], s, r => (s, r)
  | x :: xs, s, r => let a := f s x; State.foldRecs f xs a.1 (r ++ a.2)

/-! ### Trees (R219, R225) -/

/-- LEVELS for a size (R219). -/
def State.levelsFor (s : State) (size : Nat) : Nat :=
  ((List.range 5).find? (fun k => decide (size ≤ s.leafCap * 256 ^ k))).getD 4 + 1

/-- The index into a page of level `k` for a leaf number, or for a block in a leaf. -/
def pathIdx (k leaf : Nat) : Nat := leaf / 256 ^ (k - 2) % 256

/-- A page whose whole content is lost (R235). -/
def lostPage (level cap owner birth : Nat) : MapPage :=
  { level := level, owner := owner, birth := birth,
    ents := if level = 1 then (List.range cap).map (fun i => (i, ({ a := 2 } : MapEnt)))
            else (List.range 256).map (fun i => (i, ({ lost := true } : MapEnt))) }

/-- The entry of a block, walking down from a page (R220). -/
def State.walk (s : State) (lba : Nat) : Nat → Nat → MapEnt
  | 0, _ => {}
  | k + 1, mpa =>
    if mpa = 0 then {}
    else if k = 0 then (s.tpage mpa).ents.get {} (lba % s.leafCap)
    else
      let e := (s.tpage mpa).ents.get {} (pathIdx (k + 1) (lba / s.leafCap))
      if e.lost then { a := 2 } else s.walk lba k e.a

/-- The logical entry of a block of a volume. -/
def State.lookup (s : State) (v lba : Nat) : MapEnt := s.walk lba (s.vol v).levels (s.vol v).root

/-- The pages on the way to a block. -/
def State.wayTo (s : State) (lba : Nat) : Nat → Nat → List Nat
  | 0, _ => []
  | k + 1, mpa =>
    if mpa = 0 then []
    else mpa :: (if k = 0 then [] else
      let e := (s.tpage mpa).ents.get {} (pathIdx (k + 1) (lba / s.leafCap))
      if e.lost then [] else s.wayTo lba k e.a)

/-- The first page on the way to a block that no frame holds. -/
def State.absentPage (s : State) (v lba : Nat) : Option Nat :=
  (s.wayTo lba (s.vol v).levels (s.vol v).root).find? (fun m => !s.resident m)

/-- The content page of a CID, where no frame holds it and flash does. -/
def State.contNeed (s : State) (cid : Nat) : Option Nat :=
  let m := contentMpa cid
  if s.arrayMode ∧ 16 ≤ cid ∧ !s.resident m ∧ (s.back.pageLoc.find m).isSome then some m else none

/-- The first page that a change of a block's entry in a tree has to read: on the way to it, or to change the counts of what the entry
names, or a frozen leaf (R225). -/
def State.treeNeed (s : State) (v e lba levels root : Nat) : Option Nat :=
  let way := s.wayTo lba levels root
  (way.find? (fun m => !s.resident m)) <|>
    (if way.length = levels then way.getLast? else none).bind (fun m =>
      let p := s.tpage m
      (if p.owner = v ∧ p.birth = e then [(p.ents.get {} (lba % s.leafCap)).a] else p.ents.map (fun x => x.2.a)).findSome? s.contNeed)

/-- A page that may be changed in place for a volume and epoch: the page itself, a copy of a frozen one (R225), or a new page
where there is none. A copy of a leaf raises the counts of what it names. -/
def State.ownPage (s : State) (g v epoch level mpa : Nat) (lost : Bool) : State × Nat × List DeltaRec :=
  if mpa = 0 then
    let p : MapPage := if lost then lostPage level s.leafCap v epoch else { level := level, owner := v, birth := epoch }
    let r := s.newPage g p
    (r.1, r.2, [{ kind := 5, vol := v, aux := epoch, key := 0, value := r.2 }])
  else
    let p := s.tpage mpa
    if p.owner = v ∧ p.birth = epoch then (s.markDirty mpa, mpa, [])
    else
      let r := (s.bump fLMAP_PAGE_COPY).newPage g { p with owner := v, birth := epoch }
      let c := if level = 1 then State.foldRecs (fun t (e : Nat × MapEnt) => t.incRef e.2.a) p.ents r.1 [] else (r.1, [])
      let s1 := c.1.modVol v (fun x => { x with replaced := x.replaced ++ [(mpa, p.birth, epoch)] })
      (s1, r.2, { kind := 5, vol := v, aux := epoch, key := mpa, value := r.2 } :: c.2)

/-- Change the entry of a block in a tree (R225): the root's new MPA, and the entry that was there. -/
def State.changeAt (s : State) (g v epoch lba : Nat) (ent : MapEnt) : Nat → Nat → Bool → State × Nat × MapEnt × List DeltaRec
  | 0, mpa, _ => (s, mpa, {}, [])
  | k + 1, mpa, lost =>
    let r := s.ownPage g v epoch (k + 1) mpa lost
    let m := r.2.1
    let p := r.1.tpage m
    if k = 0 then
      let i := lba % s.leafCap
      let old := p.ents.get {} i
      (r.1.setEnt m i ent, m, old,
        r.2.2 ++ [{ kind := 1, vol := v, aux := epoch, key := lba, value := ent.a + ent.b * 2 ^ 48 }])
    else
      let i := pathIdx (k + 1) (lba / s.leafCap)
      let e := p.ents.get {} i
      let d := r.1.changeAt g v epoch lba ent k e.a e.lost
      (d.1.setEnt m i { a := d.2.1, b := v, c := epoch }, m, d.2.2.1, r.2.2 ++ d.2.2.2)

/-- The entry names an allocated CID. -/
def MapEnt.mapped (e : MapEnt) : Bool := decide (16 ≤ e.a)

/-- What an overwritten entry gives back: its count, or in shelf mode its grains (R222, R233). -/
def State.dropEntry (s : State) (v : Nat) (old : MapEnt) : State × List DeltaRec :=
  if s.arrayMode then s.decRef old.a
  else if old.mapped then
    let s1 := s.modTen (s.vol v).tenant (fun t => { t with physGrains := t.physGrains - 8 })
    (if old.inFlight then s1 else s1.dropValid old.loc 8, [])
  else (s, [])

/-- What a new entry takes: its count, or in shelf mode its grains. `raised` says that the count has been raised already (R172). -/
def State.takeEntry (s : State) (v : Nat) (ent : MapEnt) (raised : Bool) : State × List DeltaRec :=
  if s.arrayMode then (if raised then (s, [{ kind := 4, key := ent.a, value := 1 }]) else s.incRef ent.a)
  else if ent.mapped then (s.modTen (s.vol v).tenant (fun t => { t with physGrains := t.physGrains + 8 }), [])
  else (s, [])

/-- Set the entry of a block in the current tree of a volume. -/
def State.setCurrent (s : State) (v lba : Nat) (ent : MapEnt) (raised : Bool) : State × List DeltaRec :=
  let x := s.vol v
  let r := s.changeAt (s.homeGroup x.tenant) v x.epoch lba ent x.levels x.root false
  let old := r.2.2.1
  let s1 := r.1.modVol v (fun y => { y with
    root := r.2.1, rootOwner := v, rootBirth := x.epoch,
    mapped := y.mapped + b2n ent.mapped - b2n old.mapped })
  let t := s1.takeEntry v ent raised
  let d := t.1.dropEntry v old
  (d.1, r.2.2.2 ++ t.2 ++ d.2)

/-- The mould of a volume that holds epoch `e`, while it is Sealing or Sealed. -/
def State.mouldOf (s : State) (v e : Nat) : Option Nat :=
  (s.lmap.moulds.find? (fun m => (m.2.st = 1 || m.2.st = 2) && m.2.vol = v && m.2.epoch = e)).map Prod.fst

/-- The leaf of a block in a tree. -/
def State.leafOf (s : State) (lba levels root : Nat) : Option Nat :=
  let w := s.wayTo lba levels root
  if w.length = levels then w.getLast? else none

/-- The first page that setting the entry of a block has to read, in the current tree and in that of a mould (R225, R227). -/
def State.entNeed (s : State) (v e lba : Nat) (ent : MapEnt) : Option Nat :=
  let x := s.vol v
  s.treeNeed v x.epoch lba x.levels x.root <|>
    (if e = x.epoch then none else (s.mouldOf v e).bind (fun m => s.treeNeed v e lba (s.mould m).levels (s.mould m).root)) <|> s.contNeed ent.a

/-- Set the entry of a block for a write admitted in epoch `e` (R227): in the current tree, and where the volume has moved on in the
tree of the mould of that epoch too; one change serves both where both trees reach the same page. -/
def State.setEntry (s : State) (v e lba : Nat) (ent : MapEnt) (raised : Bool) : State × List DeltaRec :=
  let x := s.vol v
  if e = x.epoch then s.setCurrent v lba ent raised
  else match s.mouldOf v e with
    | none => s.setCurrent v lba ent raised
    | some m =>
      let md := s.mould m
      let r := s.changeAt (s.homeGroup x.tenant) v e lba ent md.levels md.root false
      let leaf := r.1.leafOf lba md.levels r.2.1
      let shared := leaf.isSome && r.1.leafOf lba x.levels x.root = leaf
      -- the pages made for the mould's tree alone are replaced from the next epoch on (R231)
      let fresh := (r.2.2.2.filter (fun d => d.kind = 5)).map (fun d => (d.value, e, e + 1))
      let s1 := (r.1.modVol v (fun y => { y with replaced := y.replaced ++ fresh })).setMould m { r.1.mould m with root := r.2.1 }
      let t := s1.takeEntry v ent raised
      let d := t.1.dropEntry v r.2.2.1
      let recs := r.2.2.2 ++ t.2 ++ d.2
      if shared then
        (d.1.modVol v (fun y => { y with mapped := y.mapped + b2n ent.mapped - b2n r.2.2.1.mapped }), recs)
      else
        let c := d.1.setCurrent v lba ent false
        (c.1, recs ++ c.2)

/-! ### Reach (R231) -/

/-- Without repeats. -/
def dedupNat : List Nat → List Nat
  | [] => []
  | a :: l => a :: (dedupNat l).filter (· ≠ a)


/-- The pages that a tree reaches. -/
def State.reach (s : State) : Nat → Nat → List Nat
  | 0, _ => []
  | k + 1, mpa => if mpa = 0 then [] else mpa :: (if k = 0 then [] else (s.tpage mpa).ents.flatMap (fun e => s.reach k e.2.a))

/-- The blocks of a tree with their entries, from a page that covers blocks from `lo` up. -/
def State.entriesFrom (s : State) : Nat → Nat → Nat → List (Nat × MapEnt)
  | 0, _, _ => []
  | k + 1, mpa, lo =>
    if mpa = 0 then []
    else if k = 0 then (s.tpage mpa).ents.map (fun e => (lo + e.1, e.2))
    else (s.tpage mpa).ents.flatMap (fun e => s.entriesFrom k e.2.a (lo + e.1 * (s.leafCap * 256 ^ (k - 1))))

/-- The blocks of a tree in `[lo, hi)` that hold something, from a page of level `k` that covers blocks from `base` up; beneath a LOST pointer
every block is lost (R235). -/
def State.entriesIn (s : State) (lo hi : Nat) : Nat → Nat → Nat → List (Nat × MapEnt)
  | 0, _, _ => []
  | k + 1, mpa, base =>
    if mpa = 0 then []
    else if k = 0 then
      ((s.tpage mpa).ents.map (fun e => (base + e.1, e.2))).filter (fun e => decide (lo ≤ e.1) && decide (e.1 < hi) && e.2 ≠ {})
    else (s.tpage mpa).ents.flatMap (fun e =>
      let n := s.leafCap * 256 ^ (k - 1)
      let from_ := base + e.1 * n
      if e.2.lost then
        let a := max lo from_
        (List.range (min hi (from_ + n) - a)).map (fun i => (a + i, ({ a := 2 } : MapEnt)))
      else s.entriesIn lo hi k e.2.a from_)

/-- The pages that the remaining trees reach: every volume's but `exV`, every mould's but `exM`. -/
def State.reached (s : State) (exV exM : Option Nat) : List Nat :=
  (s.lmap.vols.filter (fun v => v.2.kind ≠ 0 && some v.1 ≠ exV)).flatMap (fun v => s.reach v.2.levels v.2.root)
    ++ (s.lmap.moulds.filter (fun m => m.2.st ≠ 0 && some m.1 ≠ exM)).flatMap (fun m => s.reach m.2.levels m.2.root)

/-- The pages that a deletion of a mould examines: those replaced by copies in an epoch after the mould's, and written in it or before
(R231). -/
def State.toExamine (s : State) (m : Nat) : List Nat :=
  let x := s.mould m
  dedupNat (((s.vol x.vol).replaced.filter (fun p => decide (p.2.1 ≤ x.epoch) && decide (x.epoch < p.2.2))).map Prod.fst)

/-- The first page that freeing pages has to read. -/
def State.freeNeed (s : State) (ps : List Nat) : Option Nat :=
  ps.findSome? (fun m => if !s.resident m then some m
    else if (s.tpage m).level = 1 then (s.tpage m).ents.findSome? (fun e => s.contNeed e.2.a) else none)

/-- A page is freed; a leaf gives back what it names (R222). -/
def State.freePageOf (s : State) (v mpa : Nat) : State × List DeltaRec :=
  let p := s.tpage mpa
  let r := if p.level = 1 then State.foldRecs (fun t (e : Nat × MapEnt) => t.dropEntry v e.2) p.ents s [] else (s, [])
  let s0 := { r.1 with lmap.pages := r.1.lmap.pages.del mpa, lmap.frames := r.1.lmap.frames.filter (· ≠ mpa),
                       lmap.slots := r.1.lmap.slots.filter (fun e => e.2 ≠ mpa),
                       lmap.dirty := r.1.lmap.dirty.filter (· ≠ mpa) }
  let s1 := s0.modTen (s.vol p.owner).tenant id
  (match s1.back.pageLoc.find mpa with
    | some l => { s1.dropValid l 8 with back.pageLoc := s1.back.pageLoc.del mpa }
    | none => s1, r.2)

end Sys2Proof.Machine
end

