-- ==== Sys2Proof/Machine/FtlOps.lean ====
section
/-! DEFINITION. Placement of units in stripe rows, the space of a group, the media-loss log and checkpoints: what the FTL, PUG,
PAR, SAG and RBLD commands share (R250-R266, R275-R276, R298-R299). -/

namespace Sys2Proof.Machine

/-! ### Geometry (R250, R253, R298, R299) -/

def State.link (s : State) (m : Nat) : Link := s.links.get {} m
def State.setLink (s : State) (m : Nat) (l : Link) : State := { s with links := s.links.put {} m l }
def State.modLink (s : State) (m : Nat) (f : Link → Link) : State := s.setLink m (f (s.link m))

/-- Blocks per plane, native pages per block and pages per wordline by die type: 1 QLC 2 Tb, 2 TLC 1 Tb. -/
def blocksPerPlane (die : Nat) : Nat := if die = 1 then 1656 else if die = 2 then 1104 else 0
def nativePages (die : Nat) : Nat := if die = 1 then 2304 else if die = 2 then 1728 else 0
def wordlineRows (die : Nat) : Nat := if die = 1 then 4 else 3

/-- The members of a group. -/
def State.groupMembers (s : State) (g : Nat) : List Nat := bitList 24 (s.group g).members
def State.onlineMembers (s : State) (g : Nat) : List Nat := (s.groupMembers g).filter (fun m => (s.member m).st = 1)

/-- The die type of a group's members. -/
def State.groupDie (s : State) (g : Nat) : Nat := match s.groupMembers g with
  | m :: _ => (s.link m).dieType
  | [] => 0

/-- b = 0x1F_FFFF: the member has no block in the segment. -/
def noBlock : Nat := 0x1FFFFF

/-- The blocks of a segment by member position, and its width W. -/
def Segment.posBlocks (v : Segment) : List (Nat × Nat) := v.blocks.filter (fun b => b.2 ≠ noBlock)
def Segment.width (v : Segment) : Nat := v.posBlocks.length

/-- Rows of the whole segment, and rows of one program. -/
def State.segRows (s : State) (v : Segment) : Nat := if v.native then nativePages (s.groupDie v.group) else 576
def State.progRows (s : State) (v : Segment) : Nat := if v.native then wordlineRows (s.groupDie v.group) else 1

/-- Data grains of a row. -/
def Segment.rowCap (v : Segment) : Nat := 32 * (v.width - 2)

/-- The positions of P and Q in row `r` of segment `id`, and the data columns in order. -/
def pPos (id w r : Nat) : Nat := (id % 2 ^ 21 + r) % w
def qPos (id w r : Nat) : Nat := (id % 2 ^ 21 + r + 1) % w
def dataCols (id w r : Nat) : List Nat := (List.range w).filter (fun p => p ≠ pPos id w r && p ≠ qPos id w r)

/-- The member position of row grain `i`. -/
def grainPos (id w r i : Nat) : Nat := (dataCols id w r).getD (i / 32) 0

/-- The LOC of row grain `i` of row `r` of segment `id`. -/
def State.locAt (s : State) (id r i : Nat) : Nat :=
  let v := s.seg id
  let b := v.posBlocks.getD (grainPos id v.width r i) (0, 0)
  (⟨b.1, b.2, r, i % 32⟩ : Loc).code

/-- The row grain of a location in the segment that holds its block: (segment, row, row grain). A LOC with a reserved bit set, or with a field
outside its range, addresses nothing (R252). -/
def State.rowGrain (s : State) (loc : Nat) : Option (Nat × Nat × Nat) :=
  let l := locOf loc
  match s.segOfLoc loc with
  | none => none
  | some id =>
    let v := s.seg id
    let pos := v.posBlocks.findIdx (fun b => b = (l.module, l.b))
    let col := (dataCols id v.width l.page).findIdx (fun p => p = pos)
    if loc % 32 = 0 ∧ loc < 2 ^ 48 ∧ l.page < s.segRows v ∧ pos < v.width then some (id, l.page, 32 * col + l.grain) else none

/-- The unit that lies at a location. -/
def State.placedAt (s : State) (loc : Nat) : Option Placed :=
  match s.rowGrain loc with
  | some (id, r, i) => (s.seg id).units.find? (fun u => u.row = r && u.grain = i)
  | none => none

/-- The tag that names a unit with this stored form (R283). -/
def Placed.named (u : Placed) (form : List Byte) : List Byte :=
  blockTag (guard64 form) (if u.kind = 0 then form.length else if u.kind = 2 then 0 else u.app) (u.ref % 2 ^ 48)

/-- A unit with its stored form and its tag. -/
def Placed.withForm (u : Placed) (form : List Byte) : Placed := { u with form := form, tag := u.named form }

/-- The member positions that a placed unit touches. -/
def unitPos (id w : Nat) (u : Placed) : List Nat := dedupNat ((List.range u.grains).map (fun k => grainPos id w u.row (u.grain + k)))

/-! ### Blocks and space (R257, R259, R261, R262) -/

/-- Block 1 of plane 0 of die position 0 is the anchor (R268). -/
def isAnchor (b : Nat) : Bool := b = 1

/-- The die position of `b` is present in the module. -/
def Link.hasDie (l : Link) (b : Nat) : Bool := decide (dieOfB b < l.diesPerCh) && l.dieMap.testBit (16 * chanOfB b + dieOfB b)

/-- A block of a member that exists and is no anchor. -/
def State.blockExists (s : State) (m b : Nat) : Bool :=
  (s.link m).hasDie b && decide (blockOfB b < blocksPerPlane (s.link m).dieType) && decide (b < 2 ^ 21) && !isAnchor b

/-- The next block in the order of b. -/
def nextBlock (die b : Nat) : Nat :=
  if blockOfB b + 1 < blocksPerPlane die then b + 1
  else if planeOfB b < 3 then b - blockOfB b + 2 ^ 11
  else (dieOfB b + 16 * chanOfB b + 1) * 2 ^ 13

/-- The die positions of a module, and the blocks of those that are absent: each is Factory bad (R257, R334). -/
def Link.positions (l : Link) : List Nat := (List.range 256).filter (fun p => decide (p % 16 < l.diesPerCh))
def Link.absentBlocks (l : Link) : Nat :=
  4 * blocksPerPlane l.dieType * (l.positions.filter (fun p => !l.dieMap.testBit p)).length

/-- All blocks of a member, its blocks that exist and are no anchors, and those in a state that the block table lists. -/
def State.allBlocks (s : State) (m : Nat) : Nat := 4 * blocksPerPlane (s.link m).dieType * (s.link m).positions.length
def State.totalBlocks (s : State) (m : Nat) : Nat := s.allBlocks m - (s.link m).absentBlocks - b2n ((s.link m).hasDie 1)
def State.blocksIn (s : State) (m : Nat) (st : Nat → Bool) : Nat :=
  (s.back.blocks.filter (fun e => e.1 / 2 ^ 21 = m && s.blockExists m (e.1 % 2 ^ 21) && st e.2.st)).length

/-- Good blocks (Free or Used) and free blocks of a member. -/
def State.goodBlocks (s : State) (m : Nat) : Nat := s.totalBlocks m - s.blocksIn m (fun x => x = 2 || x = 3 || x = 4)
def State.freeBlocks (s : State) (m : Nat) : Nat := s.totalBlocks m - s.blocksIn m (fun x => x ≠ 0)

/-- The smallest of a list, 0 when empty. -/
def minOf (l : List Nat) : Nat := match l with
  | [] => 0
  | a :: t => t.foldl min a

/-- F, G, N and R_S of a group. -/
def State.grpF (s : State) (g : Nat) : Nat := minOf ((s.groupMembers g).map s.freeBlocks)
def State.grpG (s : State) (g : Nat) : Nat := minOf ((s.groupMembers g).map s.goodBlocks)
def State.grpN (s : State) (g : Nat) : Nat := (s.groupMembers g).length
def State.spareOf (s : State) (g : Nat) : Nat := if (s.group g).dedicated then 0 else (s.group g).spare
def State.grpRs (s : State) (g : Nat) : Nat := ceilDiv (s.spareOf g * s.grpG g) (max 1 (s.grpN g))
def State.gcSegs (s : State) : Nat := s.fld fFTL_RESERVE_CFG_GC_SEGS

/-- F_avail of a group (R281), signed. -/
def State.fAvail (s : State) (g : Nat) : Int := (s.grpF g : Int) - s.grpRs g - s.gcSegs

/-- Data grains of a native segment of full width. -/
def State.nativeGrains (s : State) (g : Nat) : Nat := nativePages (s.groupDie g) * (s.grpN g - 2) * 32

/-- FTL.FREE_GRAINS (R261). -/
def State.freeGrains (s : State) : Nat :=
  (List.range 4).foldl (fun n g => if (s.group g).exists_ then n + (s.fAvail g).toNat * s.nativeGrains g else n) 0

/-- B_P of a group (R262), computed exactly and rounded down once. -/
def State.pslcBudget (s : State) (g : Nat) : Nat :=
  let f := s.grpF g
  let gg := s.grpG g
  let rs := s.grpRs g
  let num := min (f - rs) (gg - rs)
  let den := gg - rs
  if den = 0 then gg * s.back.pMin / 10000
  else gg * (s.back.pMin * den + (s.back.pMax - s.back.pMin) * num) / (10000 * den)

/-- The group's pSLC segments that are not Free. -/
def State.pslcUse (s : State) (g : Nat) : Nat :=
  (s.back.segs.filter (fun e => e.2.st ≠ 0 && e.2.group = g && !e.2.native)).length

/-! ### Errors and the media-loss log (R275, R276, R278) -/

/-- An FTL error is captured. -/
def State.ftlError (s : State) (code info : Nat) : State := (s.capture pgFTL code info 0).irqBit pgFTL 4

/-- An entry of the FTL's tables is read. One that an uncorrectable HBM error hits is taken again from the last checkpoint and the committed
records (R278).
[DEDUCED: log entry 133] -/
def State.tableRead (s : State) (a n index : Nat) : State :=
  if s.hbmErr a n then
    let b := a / 64 * 64
    ((s.noteErr a n).ftlError 0x05 index).hbmWrite b (s.hbmRead b (64 * ceilDiv (a + n - b) 64))
  else s
/-- [DEDUCED: log entry 133] -/
def State.segRead (s : State) (id : Nat) : State := s.tableRead (s.reg64 rFTL_SEG_BASE + 128 * id) 128 id
/-- [DEDUCED: log entry 133] -/
def State.blockRead (s : State) (k : Nat) : State := s.tableRead (s.reg64 rFTL_BLOCK_BASE + 8 * k) 8 k

/-- One entry of the media-loss log, unless the ring is full. Its sequence is never reused (R275, R276). -/
def State.mediaLoss (s : State) (e : MediaLoss) : State :=
  let prod := max (s.reg64 rFTL_MLOG_PROD) s.back.mlogTop
  let size := 2 ^ s.fld fFTL_MLOG_CFG_MLOG_LOG2
  if prod - s.reg64 rFTL_MLOG_CONS = size then
    let s1 := s.bump fFTL_MLOG_LOST
    if s.back.mlogFull then s1
    else ({ s1 with back.mlogFull := true }.irqBit pgFTL 3).event pgFTL 4 (le 8 prod)
  else
    let q := prod + 1
    let bs := le 8 q ++ le 8 s.now ++ le 1 e.cls ++ le 1 e.cause ++ le 2 e.vol ++ zeros 4 ++ le 8 e.id
    let s1 := ({ s with back.mlogTop := q, back.mlog := s.back.mlog.filter (fun (x : Nat × List Byte) => decide (q < x.1 + size)) ++ [(q, bs)] }).tabPage 3 (32 * (q % size))
    (((s1.hbmWrite (s.reg64 rFTL_MLOG_BASE + 32 * (q % size)) bs).setReg64 rFTL_MLOG_PROD q).irqBit pgFTL 0).event pgFTL 3 (le 8 q ++ le 1 e.cls)

/-- A content unit is poisoned, or marked indeterminate: the mark is committed, and the CID is logged once. -/
def State.poisonCid (s : State) (cid cause : Nat) (indet : Bool := false) : State :=
  let c := s.cont cid
  if c.poisoned ∨ c.indet then s
  else
    let c1 := { c with poisoned := !indet, indet := indet }
    let n := ((s.committedMaps 0).cids.get {} cid).refs
    ((s.setCont cid c1).commit [{ kind := 2, key := cid, extra := { c1 with refs := n }.bytes }]).mediaLoss
      ⟨if indet then 2 else 1, cause, 0xFFFF, cid⟩

/-- Replace the flags of a leaf entry in place (shelf mode): the entry of a block of a volume. -/
def State.setLeaf (s : State) (v lba : Nat) (f : MapEnt → MapEnt) : State :=
  let x := s.vol v
  match s.leafOf lba x.levels x.root with
  | some m =>
    let i := lba % s.leafCap
    (s.setEnt m i (f ((s.tpage m).ents.get {} i))).markDirty m
  | none => s

/-- A block is poisoned (shelf mode). -/
def State.poisonBlock (s : State) (v lba cause : Nat) (indet : Bool := false) : State :=
  let e := s.lookup v lba
  if e.poisoned ∨ e.indet then s
  else ((s.setLeaf v lba (fun e => { e with poisoned := !indet, indet := indet })).commit
    [{ kind := 1, vol := v, aux := (s.vol v).epoch, key := lba, value := e.a + e.b * 2 ^ 48 }]).mediaLoss
      ⟨if indet then 5 else 4, cause, v, lba⟩

/-! ### Opening segments (R259, R263, R298) -/

/-- The lowest block of a member, from `b` on, that the block table does not list: never used, with 0 erases. A die position that is absent
is passed over whole. -/
def lowestFresh (s : State) (m die : Nat) : Nat → Nat → Option Nat
  | 0, _ => none
  | f + 1, b =>
    if 2 ^ 21 ≤ b then none
    else if s.blockExists m b ∧ (s.back.blocks.find (blockKey m b)).isNone then some b
    else lowestFresh s m die f (if (s.link m).hasDie b then nextBlock die b else (b / 2 ^ 13 + 1) * 2 ^ 13)

/-- Of two candidates, (ERASES, b), the less worn. -/
def lessWorn (a b : Option (Nat × Nat)) : Option (Nat × Nat) := match a, b with
  | some x, some y => if y.1 < x.1 ∨ (y.1 = x.1 ∧ y.2 < x.2) then some y else some x
  | some x, none => some x
  | none, y => y

/-- The free block of a member with the fewest erases, the lowest b first. -/
def State.pickBlock (s : State) (m : Nat) : Option Nat :=
  let die := (s.link m).dieType
  let fresh := (lowestFresh s m die (s.back.blocks.length + 258) 0).map (fun b => (0, b))
  let listed := s.back.blocks.foldl (fun best e =>
    if e.1 / 2 ^ 21 = m ∧ e.2.st = 0 ∧ s.blockExists m (e.1 % 2 ^ 21) then lessWorn best (some (e.2.erases, e.1 % 2 ^ 21)) else best) none
  (lessWorn fresh listed).map Prod.snd

/-- Free blocks of a member that a stream must leave. -/
def State.reserveFor (s : State) (g stream : Nat) (m : Nat) : Nat :=
  (if stream = 5 then 0 else ceilDiv (s.spareOf g * s.goodBlocks m) (max 1 (s.grpN g)))
    + (if stream < 2 then s.gcSegs else 0)

/-- The next free segment index of a group. -/
def freeSegIdx (t : Tab Segment) (g : Nat) : Nat :=
  Tab.firstGap (2 ^ 21 * g) (t.filter (fun e => e.2.st ≠ 0 && decide (2 ^ 21 * g ≤ e.1)))

/-- A stream of a group opens a segment: one block of each Online member, when at least 4 are and each has a block that the
stream may take; else LOW_SPACE once. -/
def State.openSegment (s : State) (g stream : Nat) : State × Option Nat :=
  let on := s.onlineMembers g
  if on.length < 4 ∨ (s.group g).st = 3 then (s, none)
  else match on.find? (fun m => decide (s.freeBlocks m ≤ s.reserveFor g stream m)) with
  | some m =>
    if (s.group g).lowPosted then (s, none)
    else (((s.modGroup g (fun x => { x with lowPosted := true })).irqBit pgFTL 2).event pgFTL 8
      (le 1 g ++ le 1 m ++ le 4 (s.freeBlocks m)), none)
  | none =>
    let id := freeSegIdx s.back.segs g
    let bs := (s.groupMembers g).map (fun m => if on.contains m then (m, (s.pickBlock m).getD noBlock) else (m, noBlock))
    let s1 := bs.foldl (fun t b => if b.2 = noBlock then t
      else (t.blockRead (blockKey b.1 b.2)).setBlock (blockKey b.1 b.2) { t.block (blockKey b.1 b.2) with segment := id, st := 1 }) (s.segRead id)
    let used := bs.filter (fun b => b.2 ≠ noBlock)
    let mean := (used.foldl (fun n b => n + (s.block (blockKey b.1 b.2)).erases) 0) / max 1 used.length
    (s1.setSeg id { st := 1, native := stream ≠ 0 && stream ≠ 2, aligned := stream = 2 || !s.arrayMode, stream := stream,
                    group := g, meanErase := mean, blocks := bs }, some id)

/-- The stream that new units of a group go to (R263): the budget is recomputed, and PSLC_OVER posted once. -/
def State.hostStream (s : State) (g : Nat) : State × Nat :=
  let b := s.pslcBudget g
  let u := s.pslcUse g
  if u < b then (s, 0)
  else if (s.group g).pslcOver then (s, 1)
  else ((s.modGroup g (fun x => { x with pslcOver := true })).event pgFTL 5 (le 1 g ++ le 4 b ++ le 4 u), 1)

/-- PSLC_UNDER, and the end of LOW_SPACE, once space has come back. -/
def State.spaceBack (s : State) (g : Nat) : State :=
  let b := s.pslcBudget g
  let u := s.pslcUse g
  let s1 := if (s.group g).pslcOver ∧ u < b then
      (s.modGroup g (fun x => { x with pslcOver := false })).event pgFTL 6 (le 1 g ++ le 4 b ++ le 4 u)
    else s
  if (s1.group g).lowPosted ∧ (s1.onlineMembers g).all (fun m =>
      decide (s1.reserveFor g 0 m + s1.gcSegs < s1.freeBlocks m)) then
    s1.modGroup g (fun x => { x with lowPosted := false })
  else s1

/-! ### Pug's pressure level (R281) -/

def State.levelOf (s : State) (g : Nat) : Nat :=
  let f := s.fAvail g
  if f ≤ s.fld fPUG_FREE_CFG_URGENT_BLOCKS then 2
  else if f ≤ s.fld fPUG_FREE_CFG_START_BLOCKS then 1 else 0

/-- The level is evaluated again; URGENT, RELAXED, and the credit when no group is Urgent (R293). -/
def State.relevel (s : State) (g : Nat) : State :=
  let old := (s.group g).level
  let new := s.levelOf g
  let f := (BitVec.ofInt 32 (s.fAvail g)).toNat
  let s1 := s.modGroup g (fun x => { x with level := new })
  let s2 := if new = 2 ∧ old ≠ 2 then (s1.irqBit pgPUG 0).event pgPUG 1 (le 1 g ++ le 4 f)
    else if new ≠ 2 ∧ old = 2 then s1.event pgPUG 2 (le 1 g ++ le 1 new ++ le 4 f) else s1
  if s2.back.groups.any (fun e => e.2.exists_ && e.2.level = 2) then s2 else { s2 with back.credit := 0 }

/-! ### Placing (R254-R256) -/

/-- The open segments of a stream, those whose current row was started earliest first. -/
def insertByStart (e : Nat × Segment) : List (Nat × Segment) → List (Nat × Segment)
  | [] => [e]
  | b :: l =>
    if (b.2.used = 0 ∧ e.2.used ≠ 0) ∨ (decide (b.2.used = 0) = decide (e.2.used = 0) ∧ e.2.rowFrom < b.2.rowFrom) then e :: b :: l
    else b :: insertByStart e l
def State.openSegs (s : State) (g stream : Nat) : List (Nat × Segment) :=
  (s.back.segs.filter (fun e => e.2.st = 1 && e.2.group = g && e.2.stream = stream)).foldl (fun l e => insertByStart e l) []

/-- Where `n` grains go in a segment: at the current row, or, past its rest, at the next row of the wordline. -/
def State.roomIn (s : State) (v : Segment) (n : Nat) : Option (Nat × Nat) :=
  if s.segRows v ≤ v.row then none
  else if v.used + n ≤ v.rowCap then some (v.row, v.used)
  else if (v.row + 1) % s.progRows v ≠ 0 ∧ n ≤ v.rowCap then some (v.row + 1, 0)
  else none

/-- Put a unit into a segment. -/
def State.putUnit (s : State) (id r i : Nat) (u : Placed) : State :=
  let v := s.seg id
  let s1 := if v.row < r then s.bump fFTL_PAD_GRAINS (v.rowCap - v.used) else s
  s1.setSeg id { v with
    units := v.units ++ [{ u with row := r, grain := i }], row := r, used := i + u.grains,
    rowFrom := if i = 0 then s.now else v.rowFrom }

/-- The rest of the earliest row of a stream is padded, so that it can be programmed. -/
def State.closeRow (s : State) (g stream : Nat) : State :=
  match (s.openSegs g stream).find? (fun e => e.2.used ≠ 0 && decide (e.2.used < e.2.rowCap)) with
  | some e => (s.bump fFTL_PAD_GRAINS (e.2.rowCap - e.2.used)).modSeg e.1 (fun v => { v with used := v.rowCap, row := v.row })
  | none => s

/-- Place a unit in a stream of a group: in the open segment with room whose row was started earliest, or in a new one while fewer than
OPEN_MAX are open. With neither, the earliest row is closed and the unit waits. -/
def State.placeIn (s : State) (g stream : Nat) (u : Placed) : State × Option (Nat × Nat × Nat) :=
  let os := s.openSegs g stream
  match os.findSome? (fun e => (s.roomIn e.2 u.grains).map (fun p => (e.1, p.1, p.2))) with
  | some (id, r, i) => (s.putUnit id r i u, some (id, r, i))
  | none =>
    if os.length < s.back.openMax.getD stream 1 then
      match s.openSegment g stream with
      | (s1, some id) => ((s1.putUnit id 0 0 u).relevel g, some (id, 0, 0))
      | (s1, none) => (s1.closeRow g stream, none)
    else (s.closeRow g stream, none)

/-- The group takes units: it exists, this head owns it and it is not Foreign. -/
def State.groupTakes (s : State) (g : Nat) : Bool :=
  (s.group g).exists_ && (s.group g).foreign.isNone && (s.group g).st ≠ 3 && (s.owns g || decide (s.plat.chip.heads < 2))
    && s.working pgFTL

/-- Pug and rebuild work in a group: not while it is handed over (R360). -/
def State.groupMoves (s : State) (g : Nat) : Bool := s.groupTakes g && !s.peer.changing.contains g

/-- Place a unit in stream 0 while the budget allows it; once over budget, in what stream 0 still has open, and then in stream 1 (R263). -/
def State.placeBudget (s : State) (g : Nat) (u : Placed) : State × Option (Nat × Nat × Nat) :=
  let h := s.hostStream g
  if h.2 = 1 then
    match (h.1.openSegs g 0).findSome? (fun e => (h.1.roomIn e.2 u.grains).map (fun p => (e.1, p.1, p.2))) with
    | some (id, r, i) => (h.1.putUnit id r i u, some (id, r, i))
    | none => h.1.placeIn g 1 u
  else h.1.placeIn g 0 u

/-- Place a unit in a stream: stream 0 is under the pSLC budget. -/
def State.placeStream (s : State) (g stream : Nat) (u : Placed) : State × Option (Nat × Nat × Nat) :=
  if stream = 0 then s.placeBudget g u else s.placeIn g stream u

/-- Place a new unit of the host. -/
def State.placeHost (s : State) (g : Nat) (u : Placed) : State × Option (Nat × Nat × Nat) :=
  if !s.groupTakes g then (s, none) else s.placeBudget g u

/-- The group that an MPA's page is stored in (R345). -/
def State.groupOfMpa (s : State) (m : Nat) : Nat :=
  let base := if mpaRange m = 3 then (m / 2 ^ 44 % 4) * 2 ^ 46 + (m % 2 ^ 44) * 512 else m
  let k := base % 2 ^ 46
  let g := if mpaRange base = 0 then s.peer.treeRuns.get 0xFF (k / 2 ^ 24)
    else if mpaRange base = 1 then s.peer.cidRuns.get 0xFF (64 * k / 2 ^ 32)
    else if k % 2 ^ 26 / 2 ^ 25 = 0 then s.fld fPEERCTL_INDEX_GROUP_H0 else s.fld fPEERCTL_INDEX_GROUP_H1
  if g < 4 then g else 0

/-- Place a map, content, directory or full-index page in stream 2. An MPA beyond its root limit is refused with MPA_RANGE. -/
def State.placePage (s : State) (m : Nat) : State × Option (Nat × Nat × Nat) :=
  if !s.mpaOk m then (s.ftlError 0x04 m, none)
  else if !s.groupTakes (s.groupOfMpa m) then (s, none)
  else s.placeIn (s.groupOfMpa m) 2 (({ kind := 2, row := 0, grain := 0, grains := 8, ref := m } : Placed).withForm (s.pageBytes m))

end Sys2Proof.Machine
end

