-- ==== Sys2Proof/Machine/MlinkOps.lean ====
section
/-! DEFINITION. Sending on a module link: operations under credits, packets and flits (R292, R326, R327, R330-R335). -/

namespace Sys2Proof.Machine

/-- Link states (R328). -/
def lkDown : Nat := 0
def lkDetect : Nat := 1
def lkAlign : Nat := 2
def lkConfig : Nat := 3
def lkUp : Nat := 4

/-- Opcodes (R332). -/
def opRead : Nat := 0x0001
def opProgram : Nat := 0x0002
def opErase : Nat := 0x0003
def opIdentify : Nat := 0x0005
def opReserve : Nat := 0x0010
def opPreempt : Nat := 0x0011
def opRelease : Nat := 0x0012
def opFwWrite : Nat := 0x0020
def opFwDigest : Nat := 0x0021
def opFwActivate : Nat := 0x0022
def opFwCommit : Nat := 0x0023
def opFwRevert : Nat := 0x0024

/-- A packet: its 16-byte header and payload (R330). -/
def linkPacket (type flags tag code addr : Nat) (payload : List Byte) : List Byte :=
  be 1 type ++ be 1 flags ++ be 2 tag ++ be 2 payload.length ++ be 2 code ++ be 8 addr ++ payload

/-- ADDR of a NAND operation on block `b` of a module (R331). -/
def nandAddr (b page mask pages mode retry : Nat) : Nat :=
  (16 * chanOfB b + dieOfB b) * 2 ^ 56 + planeOfB b * 2 ^ 54 + blockOfB b * 2 ^ 43 + page * 2 ^ 31 + mask * 2 ^ 27 + pages * 2 ^ 24
    + mode * 2 ^ 20 + retry * 2 ^ 16

/-- The bytes of a flit up to its CRC: with every flit the last PACKET SEQ received in order is acknowledged (R326, R327). -/
def flitBytes (type seq ack : Nat) (nak : Bool) (payload : List Byte) : List Byte :=
  let b := be 1 type ++ be 1 seq ++ be 1 ack ++ be 1 (if nak then 0x80 else 0) ++ payload
  b ++ be 4 (crc32c 0xFFFFFFFF b)

/-- A flit goes out: type 0 IDLE, type 1 PACKET. -/
def State.sendFlit (s : State) (m type seq : Nat) (nak : Bool) (payload : List Byte) : State :=
  s.emit (.flit m (flitBytes type seq (((s.link m).rxSeq + 255) % 256) nak payload))

/-- An IDLE flit that acknowledges, or asks for a replay. -/
def State.ackFlit (s : State) (m : Nat) (nak : Bool) : State := s.sendFlit m 0 0 nak (zeros 236)

/-- Flits that wait are sent while fewer than 128 are unacknowledged. -/
def State.flitPump : Nat → State → Nat → State
  | 0, s, _ => s
  | f + 1, s, m =>
    let l := s.link m
    match l.txWait with
    | [] => s
    | p :: rest =>
      if 128 ≤ l.unacked.length ∨ l.st ≠ lkUp then s
      else
        let q := l.txSeq % 256
        State.flitPump f ((s.setLink m { l with txWait := rest, unacked := l.unacked ++ [(q, p)], txSeq := (q + 1) % 256 }).sendFlit m 1 q
          false p) m

/-- Cut bytes into flit payloads, the last filled up with 0x00 filler. -/
def flitPayloads : Nat → List Byte → List (List Byte)
  | 0, _ => []
  | f + 1, bs => if bs.isEmpty then [] else fitBytes 236 (bs.take 236) :: flitPayloads f (bs.drop 236)

/-- Send bytes of the packet stream. -/
def State.linkSend (s : State) (m : Nat) (bs : List Byte) : State :=
  let ps := flitPayloads (bs.length / 236 + 1) bs
  let s1 := s.modLink m (fun l => { l with txWait := l.txWait ++ ps })
  State.flitPump (s1.link m).txWait.length s1 m

/-- The next tag that no operation in flight on the link has. -/
def freeTag (t : Tab LinkOp) : Nat → Nat → Nat
  | 0, n => n % 4096
  | f + 1, n => if (t.find (n % 4096)).isNone then n % 4096 else freeTag t f (n + 1)

/-- A write-type operation (R336). -/
def writeType (op : Nat) : Bool := op = opProgram || op = opErase

/-- The DATA packets that follow an operation: an FW_WRITE's bytes in one, a PROGRAM's pages of 18,432 bytes in one each (R330, R332).
[DEDUCED: log entry 20] -/
def dataPackets (o : LinkOp) (tag : Nat) (data : List Byte) : List (List Byte) :=
  if o.opcode = opFwWrite then (if data.isEmpty then [] else [linkPacket 0x11 2 tag 0 o.addr data])
  else if o.opcode = opProgram then
    (List.range o.bufs).map (fun k => linkPacket 0x11 (if k + 1 = o.bufs then 2 else 0) tag k o.addr (slice data (18432 * k) 18432))
  else []

/-- Operations that wait go out, in order, and a stopped link's programs and erases never (R336), while the link is Up, the block runs and credits are held (R335, R339). -/
def State.opPump : Nat → State → Nat → State
  | 0, s, _ => s
  | f + 1, s, m =>
    let l := s.link m
    match l.waitOps with
    | [] => s
    | (o, data) :: rest =>
      if l.stopped ∧ writeType o.opcode then State.opPump f (s.setLink m { l with waitOps := rest }) m
      else if l.st ≠ lkUp ∨ !s.runs (pgMLINK m) ∨ l.opCredits = 0 ∨ l.bufCredits < o.bufs then s
      else
        let tag := freeTag l.ops 4096 l.nextTag
        let s1 := s.setLink m { l with
          waitOps := rest, ops := l.ops.ins tag o, nextTag := (tag + 1) % 4096, opCredits := l.opCredits - 1, bufCredits := l.bufCredits - o.bufs }
        let s2 := s1.linkSend m (linkPacket 0x10 0 tag o.opcode o.addr [])
        State.opPump f ((dataPackets o tag data).foldl (fun t p => t.linkSend m p) s2) m

/-- Send what waits on a link. -/
def State.linkPump (s : State) (m : Nat) : State := State.opPump (s.link m).waitOps.length s m

/-- The block of an ADDR. -/
def addrBlock (addr : Nat) : Nat := getBits addr 63 56 * 2 ^ 13 + getBits addr 55 54 * 2 ^ 11 + getBits addr 53 43

/-- The segment that a module's block lies in. -/
def State.segOfAddr (s : State) (m addr : Nat) : Option Nat :=
  let b := s.block (blockKey m (addrBlock addr))
  if b.st = 1 ∧ b.segment ≠ 0xFFFFFFFF then some b.segment else none

/-- The units of the rows that a PROGRAM writes. -/
def State.opUnits (s : State) (m : Nat) (o : LinkOp) : List Placed :=
  match s.segOfAddr m o.addr with
  | some id => let r := getBits o.addr 42 31
    (s.seg id).units.filter (fun u => !u.dead && decide (r ≤ u.row) && decide (u.row < r + o.bufs))
  | none => []

/-- A unit that Pug moves: one that rebuild moves is not Pug's (R317). -/
def State.pugUnit (s : State) (u : Placed) : Bool := match u.src with
  | some x => (s.group (s.seg x.1).group).rebuilding ≠ some x.1
  | none => false

/-- The turn of an operation (R178, R292): host reads come first; then rebuild and what the host and the map write; then Pug, whose programs hold
nothing but its moves, and whose erases. Merge writes go before Pug once merging is urgent, and with it until then.
[DEDUCED: log entry 135] -/
def State.opTurn (s : State) (m : Nat) (o : LinkOp) : Nat :=
  if o.opcode = opRead then 0
  else if o.opcode = opProgram then
    let us := s.opUnits m o
    if us.isEmpty then 1
    else if us.all s.pugUnit then 2
    else if !s.mergeUrgent ∧ us.all (fun u => s.pugUnit u || (u.kind = 2 && mpaRange u.ref = 2)) then 2
    else 1
  else 2

/-- The queue of a link with one operation more: in order, but before those whose turn comes later.
[DEDUCED: log entry 135] -/
def State.queueOp (s : State) (m : Nat) (o : LinkOp) (data : List Byte) (l : List (LinkOp × List Byte)) : List (LinkOp × List Byte) :=
  let k := s.opTurn m o
  l.takeWhile (fun e => decide (s.opTurn m e.1 ≤ k)) ++ (o, data) :: l.dropWhile (fun e => decide (s.opTurn m e.1 ≤ k))

/-- An operation is given to a link. A stopped link sends no PROGRAM or ERASE (R336). -/
def State.sendOp (s : State) (m : Nat) (o : LinkOp) (data : List Byte) : State :=
  if (s.link m).stopped ∧ writeType o.opcode then s
  else (s.modLink m (fun l => { l with waitOps := s.queueOp m o data l.waitOps })).linkPump m

/-- The operation of this opcode and address leaves the link: its answer has been taken, and its credits return (R335). -/
def State.endOp (s : State) (m opcode addr : Nat) : State :=
  let l := s.link m
  match l.ops.find? (fun e => e.2.opcode = opcode && e.2.addr = addr) with
  | some e => (s.setLink m { l with ops := l.ops.del e.1, opCredits := l.opCredits + 1, bufCredits := l.bufCredits + e.2.bufs }).linkPump m
  | none => s.setLink m { l with waitOps := l.waitOps.filter (fun e => !(e.1.opcode = opcode && e.1.addr = addr)) }

end Sys2Proof.Machine
end

