-- ==== Sys2Proof/Machine/Ckpt.lean ====
section
/-! DEFINITION. Checkpoints and anchors: the pages of a checkpoint, its header, the anchor that names it, and what flash then holds
(R251, R267, R268, R276-R278). -/

namespace Sys2Proof.Machine

/-! ### The bytes of a page (R251) -/

/-- A codeword: 4,096 data bytes, the 16-byte tag field and 496 parity bytes.
[DESIGN CHOICE: log entry 131] -/
def codeword (payload : List Byte) : List Byte :=
  let w := fitBytes 4112 payload
  w ++ (List.range 496).map (Config.ldpcByte w)

/-- A page: codeword `k` at byte 4,608 k. -/
def flashPage (payloads : List (List Byte)) : List Byte := payloads.flatMap codeword

/-- A page of one aligned unit with its tag, for an anchor or a journal block; the rest of it is 0. -/
def onePage (form tag : List Byte) : List Byte := flashPage [form ++ tag, [], [], []]

/-! ### What flash holds (R268) -/

/-- The highest COMMIT_SEQ whose effects are all on flash: below the first that some page still lacks. -/
def State.safeSeq (s : State) : Nat := s.lmap.since.foldl (fun n e => min n (e.2 - 1)) s.lmap.commitSeq

/-- The newest checkpoint and the commit units of the delta pages above it.
[DESIGN CHOICE: log entry 30] -/
def State.flashNow (s : State) : FlashMaps :=
  let top := max s.back.ckptSeq s.back.deltaDone
  let img := match (s.back.hist.filter (fun e => decide (e.1 ≤ top))).getLast? with
    | some e => e.2.stored
    | none => {}
  { shelf := s.plat.chip.shelf, ckptSeq := s.back.ckptSeq, deltaDone := s.back.deltaDone, image := img, pageLoc := s.back.pageLoc
    ckptLoc := s.back.ckptLoc, ckptCount := s.back.ckptCount, ckptSegs := s.back.ckptSegs, mlog := s.back.mlog
    mlogCons := s.reg64 rFTL_MLOG_CONS }

def State.anchorAt (s : State) (m : Nat) : Anchor := s.back.anchors.get {} m

/-- The newer of two headers. -/
def newerHeader (a b : Option FlashMaps) : Option FlashMaps := match a, b with
  | some x, some y => if x.ckptSeq < y.ckptSeq then some y else some x
  | some x, none => some x
  | none, y => y

/-- The header with the highest CKPT_SEQ among the anchors that can be read. -/
def State.newestHeader (s : State) : Option FlashMaps :=
  (List.range 24).foldl (fun (h : Option FlashMaps) m =>
    if (s.member m).st = 1 ∨ (s.member m).st = 2 then
      newerHeader h ((s.anchorAt m).newest.filter (fun f => f.shelf = s.plat.chip.shelf))
    else h) none

/-- What a start finds on flash: the newest header that an anchor names, and what was committed to flash above it. The media-loss log is as
the header's checkpoint carries it.
[DESIGN CHOICE: log entry 30] -/
def State.flashMaps (s : State) : FlashMaps :=
  match s.newestHeader with
  | some f => if f.ckptSeq = s.back.ckptSeq then { s.flashNow with mlog := f.mlog, mlogCons := f.mlogCons } else f
  | none => { s.flashNow with mlog := [], mlogCons := 0 }

/-! ### A checkpoint (R267) -/

def State.modCkpt (s : State) (f : Ckpt → Ckpt) : State := { s with back.ckpt := s.back.ckpt.map f }

/-- No anchor could be written (R278): CKPT_SEQ does not advance, and the next checkpoint holds the pages again. -/
def State.ckptFail (s : State) : State :=
  match s.back.ckpt with
  | none => s
  | some c =>
    let s1 := { s.ftlError 0x06 0 with
      back.ckpt := none
      back.ckptPages := (c.todo ++ c.pages.map Prod.fst).foldl (fun t k => t.ins k true) s.back.ckptPages }
    match c.cmd with
    | some q => s1.finishRunning q 0 stOk
    | none => s1

/-- The address of a table page. -/
def State.tableAddr (s : State) (k : Nat) : Nat :=
  let t := k / 2 ^ 40
  s.reg64 (if t = 0 then rFTL_MPD_BASE else if t = 1 then rFTL_BLOCK_BASE else if t = 2 then rFTL_SEG_BASE else rFTL_MLOG_BASE) + 4096 * (k % 2 ^ 40)

/-- A unit of the checkpoint, its tag naming it and its page index (R283). -/
def ckptUnit (kind index : Nat) (form : List Byte) : Placed :=
  ({ kind := kind, row := 0, grain := 0, grains := 8, ref := 0xFFFFFFFFFFFF, app := index } : Placed).withForm form

/-- The next table page of the checkpoint is placed, unless one before it waits for room. -/
def State.ckptPage (g : Nat) (s : State) (k : Nat) : State :=
  match s.back.ckpt with
  | none => s
  | some c =>
    if c.todo.head? ≠ some k then s
    else
      let s1 := s.tableRead (s.tableAddr k) 4096 k
      let r := s1.placeIn g 2 (ckptUnit 3 c.pages.length (s1.hbmRead (s.tableAddr k) 4096))
      match r.2 with
      | some (id, row, i) => r.1.modCkpt (fun x => { x with todo := x.todo.drop 1, pages := x.pages ++ [(k, r.1.locAt id row i)] })
      | none => r.1

/-- The header is placed after the last table page, in a row that is programmed without waiting.
[DESIGN CHOICE: log entry 30] -/
def State.ckptHeader (s : State) (g : Nat) : State :=
  match s.back.ckpt with
  | none => s
  | some c =>
    if !c.todo.isEmpty ∨ c.headed then s
    else
      let f := s.freeBytes 4096
      let r := f.2.placeIn g 2 (ckptUnit 5 c.pages.length f.1)
      match r.2 with
      | some (id, _, _) =>
        let v := r.1.seg id
        ((r.1.bump fFTL_PAD_GRAINS (v.rowCap - v.used)).modSeg id (fun v => { v with used := v.rowCap })).modCkpt (fun x => { x with headed := true })
      | none => r.1

/-- The pages of the checkpoint that is being written, and then its header, are placed in stream 2. With no group that takes units, no anchor
can be written; without room, they wait.
[DESIGN CHOICE: log entry 30] -/
def State.ckptPlace (s : State) : State :=
  match s.back.ckpt with
  | none => s
  | some c =>
    if c.headed then s
    else match (List.range 4).find? s.groupTakes with
      | none => s.ckptFail
      | some g => (c.todo.foldl (State.ckptPage g) s).ckptHeader g

/-- A checkpoint starts: its pages are those that have changed since the one before it, and every FULL_EVERY-th time all. It runs for the
command `cmd`.
[DESIGN CHOICE: log entry 30] -/
def State.startCkpt (s : State) (cmd : Option Nat) : State :=
  let full := s.back.ckptCount % max 1 (s.fld fFTL_CKPT_CFG_FULL_EVERY) = 0
  let todo := (s.back.ckptPages.filter (fun e => e.2 || full)).map Prod.fst
  let none_ : Tab Bool := s.back.ckptPages.map (fun e => (e.1, false))
  { s with
    back.ckptAsked := false
    back.ckpt := some { seq := s.safeSeq, cmd := cmd, full := full, todo := todo }
    back.ckptPages := none_ }.ckptPlace

/-- A row with pages of the checkpoint failed: its pages and its header are placed again. -/
def State.ckptAgain (s : State) : State :=
  (s.modCkpt (fun c => { c with todo := c.pages.map Prod.fst ++ c.todo, pages := [], headed := false, header := none })).ckptPlace

/-- A checkpoint that SAG, Pug or Grog asks for starts as soon as none is being written.
[DEDUCED: log entry 41] -/
def State.askedCkpt (s : State) : State :=
  if s.back.ckptAsked ∧ s.back.ckpt.isNone ∧ s.working pgFTL then s.startCkpt none else s

/-! ### Anchors (R268) -/

/-- The pages of an anchor block, which is written in pSLC mode.
[DEDUCED: log entry 134] -/
def anchorPages : Nat := 576

/-- The block of an anchor is erased: the erase counts, and no page of it can be read. -/
def State.anchorErase (s : State) (m : Nat) : State :=
  let k := blockKey m 1
  ({ s.setBlock k { s.block k with erases := (s.block k).erases + 1 } with back.anchors := s.back.anchors.put {} m {} }).sendOp m
    { opcode := opErase, addr := nandAddr 1 0 0 0 0 0 } []

/-- The next page of a member's anchor is programmed; an anchor block that is full is erased first.
[DEDUCED: log entry 134] -/
def State.anchorWrite (s : State) (m : Nat) : State :=
  let s1 := if anchorPages ≤ (s.anchorAt m).page then s.anchorErase m else s
  let p := (s1.anchorAt m).page
  let f := s1.freeBytes 4112
  ({ f.2 with back.anchors := f.2.back.anchors.put {} m { f.2.anchorAt m with page := p + 1 }, back.anchorLast := m }).sendOp m
    { opcode := opProgram, addr := nandAddr 1 p 0xF 1 0 0, bufs := 1 } (onePage f.1 [])

/-- The next anchor in rotation: of an Online member.
[DEDUCED: log entry 134] -/
def State.nextAnchor (s : State) : Option Nat :=
  ((List.range 24).map (fun i => (s.back.anchorLast + 1 + i) % 24)).find? (fun m => (s.member m).st = 1)

/-- The rows of all pages of the checkpoint are parity-complete. -/
def State.ckptPagesDone (s : State) (c : Ckpt) : Bool :=
  c.pages.all (fun p => match s.rowGrain p.2 with
    | some (id, r, _) => (s.seg id).rowDone r
    | none => true)

/-- The header's LOC goes to the next anchor once the whole checkpoint is on flash. An anchor whose member is Online no more cannot be
written.
[DEDUCED: log entry 134] -/
def State.ckptAnchor (s : State) : State :=
  match s.back.ckpt with
  | none => s
  | some c =>
    match c.header, c.anchor with
    | some _, none =>
      if s.ckptPagesDone c then
        match s.nextAnchor with
        | some m =>
          let t := s.anchorWrite m
          t.modCkpt (fun x => { x with anchor := some (m, (t.anchorAt m).page - 1) })
        | none => s.ckptFail
      else s
    | some _, some (m, _) => if (s.member m).st = 1 then s else s.ckptFail
    | none, _ => s

/-- Records that the checkpoint covers leave the ring (R305), and the images that it passes. -/
def State.trimRing (s : State) (seq : Nat) : State :=
  let old := s.back.hist.filter (fun e => decide (e.1 ≤ seq))
  let s1 := { s with
    back.ring := s.back.ring.filter (fun e => decide (seq < e.1))
    back.hist := (match old.getLast? with | some e => [e] | none => []) ++ s.back.hist.filter (fun e => decide (seq < e.1)) }
  if 2 * s1.ringUsed < s1.ringSize then { s1 with back.deltaFull := false } else s1

/-- The segments of a checkpoint's pages and header. -/
def State.ckptHome (s : State) (c : Ckpt) : List Nat :=
  dedupNat ((c.pages.map Prod.snd ++ c.header.toList).filterMap s.segOfLoc)

/-- A checkpoint's header is on an anchor of `m`: CKPT_SEQ, the segments of the newest full checkpoint and later ones, and FTL_CKPT. -/
def State.ckptDone (s : State) (m : Nat) : State :=
  match s.back.ckpt with
  | none => s
  | some c =>
    let free := fun (d : Dump) => if d.lastComplete ≤ c.seq ∧ s.back.replay.isNone then { d with released := true } else d
    let s1 := { (s.setReg64 rFTL_CKPT_SEQ c.seq).trimRing c.seq with
      back.ckpt := none
      back.ckptLoc := c.header.getD 0
      back.ckptSeq := c.seq
      back.ckptCount := s.back.ckptCount + 1
      back.ckptSegs := if c.full then s.ckptHome c else s.back.ckptSegs ++ (s.ckptHome c).filter (fun g => !s.back.ckptSegs.contains g)
      grog.ckptMerge := s.grog.mergeSeq
      back.dumps := s.back.dumps.map free }
    let s2 := { s1 with back.anchors := s1.back.anchors.put {} m { s1.anchorAt m with newest := some s1.flashNow } }
    match c.cmd with
    | some q => s2.finishRunning q 0 stOk
    | none => s2

/-- An ADDR lies in the anchor block. -/
def anchorAddr (addr : Nat) : Bool := addrBlock addr = 1

/-- The program of an anchor page has ended well, or has failed. -/
def State.anchorDone (s : State) (m addr : Nat) : State :=
  match s.back.ckpt with
  | some c => if c.anchor = some (m, getBits addr 42 31) then s.ckptDone m else s
  | none => s
def State.anchorFails (s : State) (m addr : Nat) : State :=
  match s.back.ckpt with
  | some c => if c.anchor = some (m, getBits addr 42 31) then s.ckptFail else s
  | none => s

end Sys2Proof.Machine
end

