-- ==== Sys2Proof/Machine/Keys.lean ====
section
/-! DEFINITION. Key stores, the KEYS commands, and GCIPH with its lock (R203-R206, R211-R214). -/

namespace Sys2Proof.Machine

/-! ### Stores (R203-R205) -/

/-- The chip has been zeroized by a tamper alarm (R216). -/
def State.zeroized (s : State) : Bool := s.sec.tamp.zeroized

def State.keyRec (s : State) (slot : Nat) : KeyRec := s.sec.recs.get {} slot

/-- KEK `k`: the fused device root key, or a loaded key; empty where none is loaded. -/
def State.kek (s : State) (k : Nat) : List Byte := if k = 0 then Config.rootKey else s.sec.keks.get [] k

/-- KEK `k` of 1-7 holds a key (KEYS.KEK_VALID). -/
def State.kekValid (s : State) (k : Nat) : Bool := decide (1 ≤ k) && decide (k ≤ 7) && !(s.sec.keks.get [] k).isEmpty

/-- KEYS.PINNED. -/
def State.pinnedKeys (s : State) : Nat := (s.sec.recs.filter (fun e => e.2.pin)).length

/-- The 128 bytes of a wrapped record (R204). -/
def KeyRec.bytes (r : KeyRec) : List Byte :=
  fitBytes 72 r.wrapped ++ le 1 r.type ++ le 1 r.len ++ le 1 r.kek ++ le 1 (b2n r.pin) ++ le 2 r.tenant ++ zeros 50

/-- KEYS writes the record of a slot; software reads the table in HBM. -/
def State.setKeyRec (s : State) (slot : Nat) (r : KeyRec) : State :=
  ({ s with sec.recs := s.sec.recs.put {} slot r }).hbmWrite (s.reg64 rKEYS_WRAP_BASE + 128 * slot) r.bytes

/-- A unit in DCIPH or a message of GCIPH holds the data slot (R205). -/
def State.slotHeld (s : State) (slot : Nat) : Bool :=
  s.ware.units.any (fun e => (e.2.phase = .keyWait || e.2.phase = .encrypt) && e.2.keySlot = slot)
  || s.ware.reads.any (fun e => (e.2.phase = .keyWait || e.2.phase = .decrypt) && (s.lmap.cids.get {} e.2.cid).keySlot = slot)
  || (match s.sec.gciph.msg with
      | some m => m.cls = 1 && m.slot = slot
      | none => false)
  || (match s.sec.gciph.seg with
      | some g => g.slot = slot
      | none => false)

/-- The active copy of a data slot. -/
def State.activeKey (s : State) (slot : Nat) : Option (List Byte) := s.sec.active.find slot

/-- A use of an active slot sets its reference bit. -/
def State.useKey (s : State) (slot : Nat) : State :=
  { s with sec.clockRef := slot :: s.sec.clockRef.filter (· ≠ slot) }

/-- The active copy is destroyed. -/
def State.dropKey (s : State) (slot : Nat) : State :=
  { s with sec.active := s.sec.active.del slot, sec.clock := s.sec.clock.filter (· ≠ slot),
           sec.clockRef := s.sec.clockRef.filter (· ≠ slot) }

/-- The clock passes slots, clearing reference bits, until one can be replaced: not pinned and not held (R205). The result is that slot, the
slots in their order behind the hand, and the reference bits that are left. -/
def State.clockKey (s : State) : Nat → List Nat → List Nat → Option (Nat × List Nat × List Nat)
  | 0, _, _ => none
  | _ + 1, [], _ => none
  | f + 1, k :: l, r =>
    if (s.keyRec k).pin ∨ s.slotHeld k then s.clockKey f (l ++ [k]) r
    else if r.contains k then s.clockKey f (l ++ [k]) (r.filter (· ≠ k))
    else some (k, l, r)

/-- The slot becomes active, replacing one when 4,096 are. -/
def State.activate (s : State) (slot : Nat) (key : List Byte) : State :=
  let s1 := if s.sec.active.length < 4096 then s
    else match s.clockKey (2 * s.sec.clock.length + 1) s.sec.clock s.sec.clockRef with
      | some (k, l, r) => { s with sec.active := s.sec.active.del k, sec.clock := l, sec.clockRef := r }
      | none => s
  { s1 with sec.active := s1.sec.active.ins slot key, sec.clock := s1.sec.clock.filter (· ≠ slot) ++ [slot],
            sec.clockRef := slot :: s1.sec.clockRef.filter (· ≠ slot) }

/-- A slot can become active: there is room, or an active slot that can be replaced. -/
def State.keyRoom (s : State) : Bool :=
  decide (s.sec.active.length < 4096) || (s.clockKey (2 * s.sec.clock.length + 1) s.sec.clock s.sec.clockRef).isSome

/-- A slot is asked for. -/
def State.wantKey (s : State) (slot : Nat) : State :=
  { s with sec.bringIn := if s.sec.bringIn.contains slot then s.sec.bringIn else s.sec.bringIn ++ [slot] }

/-- What a bring-in ends with. -/
inductive BringRes where
  | active | absent | integrity
  deriving DecidableEq, Repr

/-- KEYS brings a slot in (R205): it reads the record and unwraps it. -/
def State.bringInKey (s : State) (slot : Nat) : State × BringRes :=
  let r := s.keyRec slot
  let s1 := { s.bump fKEYS_FAULT_CNT with sec.bringIn := s.sec.bringIn.filter (· ≠ slot) }
  if s.zeroized ∨ r.type = 0 then (s1, .absent)
  else
    let bad := s.hbmErr (s.reg64 rKEYS_WRAP_BASE + 128 * slot) 128 || !s.kekValid r.kek
    match if bad then none else keyUnwrap (s.kek r.kek) (r.wrapped.take (r.len + 8)) with
    | some key => (s1.activate slot key, .active)
    | none => ((s1.bump fKEYS_INTEGRITY_ERR).event pgKEYS 1 (le 4 slot), .integrity)

/-! ### KEYS_LOAD and KEYS_CLEAR (R206) -/

/-- The arguments that name no target, or a length that the target does not have. -/
def keysBadTarget (cls form type slot len : Nat) : Bool :=
  decide (1 < form) ||
  (if cls = 0 then slot = 0 || decide (7 < slot) || len ≠ 32
   else if cls = 1 then decide (65536 ≤ slot) || !((type = 1 && len = 64) || (type = 2 && (len = 16 || len = 24 || len = 32))
      || (type = 3 && (len = 16 || len = 32)))
   else if cls = 2 || cls = 3 then decide (4096 ≤ slot) || len ≠ 40
   else true)

/-- The KEK argument must name KEK 0 for a wrapped KEK, and a loaded KEK for any other wrapped target and a plaintext data key. -/
def State.keysBadKek (s : State) (cls form kek : Nat) : Bool :=
  if form = 0 then (if cls = 0 then kek ≠ 0 else !s.kekValid kek)
  else if cls = 1 then !s.kekValid kek
  else false

/-- Store an association key's direction: the current half while the association is Free, else the next half. -/
def State.loadAssocKey (s : State) (slot : Nat) (tx : Bool) (key : List Byte) : State :=
  let d : DirKey := ⟨key.take 32, slice key 32 4⟩
  let put := fun (h : KeyHalf) => if tx then { h with tx := some d } else { h with rx := some d }
  let k := s.akey slot
  let k1 := if (s.assoc slot).state = .free then { k with cur := put k.cur } else { k with next := put k.next }
  { s with sec.assocKeys := s.sec.assocKeys.put {} slot k1 }

/-- KEYS_LOAD.
[DEDUCED: log entry 56] -/
def execKeysLoad (h : CmdHdr) (cls form kek type slot src len flags tenant : Nat) (s : State) : Res :=
  .next <| s.simpleCmd h pgKEYS 0x0100 (fun t =>
    let pin := flags.testBit 0
    let n := if form = 0 then len + 8 else len
    if t.zeroized then (t, 6)
    else if keysBadTarget cls form type slot len then (t, 1)
    else if t.keysBadKek cls form kek then (t, 1)
    else if form = 1 ∧ t.fld fKEYS_CTRL_PLAIN_EN = 0 then (t, 4)
    else if (cls = 1 ∧ ((t.keyRec slot).type ≠ 0 ∨ (t.sec.clearing.find slot).isSome)) ∨ (cls = 0 ∧ t.kekValid slot) then (t, 2)
    else if cls = 1 ∧ pin ∧ 1024 ≤ t.pinnedKeys then (t, 5)
    else if t.hbmErr src n then (t.noteErr src n, 1)
    else
      let bytes := t.hbmRead src n
      match if form = 0 then keyUnwrap (t.kek kek) bytes else some bytes with
      | none => (t, 3)
      | some key =>
        let t1 :=
          if cls = 0 then { t with sec.keks := t.sec.keks.put [] slot key }
          else if cls = 1 then
            t.setKeyRec slot { wrapped := if form = 0 then bytes else keyWrap (t.kek kek) key, type := type, len := len,
                               kek := kek, pin := pin, tenant := tenant }
          else t.loadAssocKey slot (cls = 2) key
        (if form = 1 then t1.hbmWrite src (zeros len) else t1, stOk))

/-- KEYS_CLEAR: new users are refused from the moment it is taken; it completes when no unit or message holds the slot. -/
def execKeysClear (h : CmdHdr) (cls slot : Nat) (s : State) : Res :=
  .next <| s.command h pgKEYS 0x0101 .release (fun _ t =>
    if cls = 0 then
      if slot = 0 ∨ 7 < slot then (t, .done 1 0) else ({ t with sec.keks := t.sec.keks.del slot }, .done stOk 0)
    else if cls = 1 then
      if 65536 ≤ slot then (t, .done 1 0)
      else
        let held := t.slotHeld slot
        let t1 := (t.dropKey slot).setKeyRec slot {}
        if held then ({ t1 with sec.clearing := t1.sec.clearing.put [] slot (t1.sec.clearing.get [] slot ++ [h.cseq]) }, .running [slot])
        else (t1, .done stOk 0)
    else if cls = 2 ∨ cls = 3 then
      if 4096 ≤ slot then (t, .done 1 0)
      else
        let clr := fun (x : KeyHalf) => if cls = 2 then { x with tx := none } else { x with rx := none }
        let k := t.akey slot
        ({ t with sec.assocKeys := t.sec.assocKeys.put {} slot { cur := clr k.cur, next := clr k.next } }, .done stOk 0)
    else (t, .done 1 0))

/-- KEYS_CLEAR_DONE: every unit and message that held the data slot has ended. -/
def execKeysClearDone (cls slot : Nat) (s : State) : Res :=
  .next (match s.sec.clearing.find slot with
    | some cseqs =>
      if cls = 1 ∧ !s.slotHeld slot then
        cseqs.foldl (fun t q => t.finishRunning q 0 stOk) { s with sec.clearing := s.sec.clearing.del slot }
      else s
    | none => s)

/-! ### GCIPH: segments (R211-R213) -/

/-- A segment descriptor. -/
structure GcDesc where
  owner : Nat
  mode : Nat
  first : Bool
  last : Bool
  pad : Bool
  cls : Nat
  key : Nat
  len : Nat
  src : Nat
  dst : Nat
  aad : Nat
  aadLen : Nat
  iv : List Byte
  tag : List Byte
  deriving DecidableEq, Repr

def State.gcDesc (s : State) (a : Nat) : GcDesc :=
  let f := s.hbmNat (a + 2) 1
  { owner := s.hbmNat a 1, mode := s.hbmNat (a + 1) 1, first := f.testBit 0, last := f.testBit 1, pad := f.testBit 2,
    cls := s.hbmNat (a + 3) 1, key := s.hbmNat (a + 4) 4, len := s.hbmNat (a + 8) 8, src := s.hbmNat (a + 0x10) 8,
    dst := s.hbmNat (a + 0x18) 8, aad := s.hbmNat (a + 0x20) 8, aadLen := s.hbmNat (a + 0x28) 2,
    iv := s.hbmRead (a + 0x30) 16, tag := s.hbmRead (a + 0x40) 16 }

/-- GCIPH writes a segment's result fields. -/
def State.gcResult (s : State) (a outLen st : Nat) : State := (s.hbmWrite (a + 0x50) (le 8 outLen)).hbmWrite (a + 0x58) (le 2 st)

/-- The message ends without success: what a GCM decryption has written is overwritten with zeroes (R213). -/
def State.gcWipe (s : State) : State :=
  match s.sec.gciph.msg with
  | some m =>
    let s1 := if m.mode = 4 then m.written.foldl (fun t w => t.hbmWrite w.1 (zeros w.2)) s else s
    { s1 with sec.gciph.msg := none }
  | none => s

/-- The length rules of R211 and R212 for a segment, `total` counting the whole message's input with it. -/
def gcBadLen (d : GcDesc) (total : Nat) : Bool :=
  (!d.last && d.len % 16 ≠ 0) ||
  (match d.mode with
    | 1 => !(d.first && d.last) || decide (d.len < 16) || decide (4096 < d.len) || d.len % 8 ≠ 0
    | 2 => !(d.first && d.last) || decide (d.len < 24) || decide (4104 < d.len) || d.len % 8 ≠ 0
    | 3 | 4 => decide (2 ^ 36 - 32 < total)
    | 5 => d.last && !d.pad && d.len % 16 ≠ 0
    | 6 => d.last && (d.len % 16 ≠ 0 || (d.pad && d.len = 0))
    | _ => true)

/-- CTR or CBC output of a segment whose message's input before it is `pre`. -/
def gcOut (m : GcMsg) (d : GcDesc) (bytes : List Byte) : List Byte :=
  let ks := aesKeys m.key
  let n := m.input.length
  if m.mode = 3 ∨ m.mode = 4 then (gcmCtr ks (m.iv.take 12) 2 (chunks16 (m.input ++ bytes))).drop n
  else if m.mode = 5 then
    let p := 16 - (n + bytes.length) % 16
    let all := m.input ++ bytes ++ (if d.last ∧ d.pad then List.replicate p (BitVec.ofNat 8 p) else [])
    (cbcEnc ks m.iv (chunks16 all)).drop n
  else (cbcDec ks m.iv (chunks16 (m.input ++ bytes))).drop n

/-- The padding of a CBC message's last block: how many bytes to strip, or none when it is wrong. -/
def cbcPad (blk : List Byte) : Option Nat :=
  let p := (blk.getLastD 0).toNat
  if 1 ≤ p ∧ p ≤ 16 ∧ blk.drop (16 - p) = List.replicate p (BitVec.ofNat 8 p) then some p else none

/-- The bytes that a segment writes to DST, its input being `bytes` (R212). -/
def gcOutLen (d : GcDesc) (m : GcMsg) (bytes : List Byte) : Nat :=
  match m.mode with
  | 1 => d.len + 8
  | 2 => d.len - 8
  | 5 => if d.last ∧ d.pad then d.len + (16 - (m.input.length + d.len) % 16) else d.len
  | 6 => if d.last ∧ d.pad then d.len - (cbcPad ((gcOut m d bytes).drop (d.len - 16))).getD 16 else d.len
  | _ => d.len

/-- Run a segment whose key is at hand (R212, R213): the new state, OUT_LEN and the status. An empty segment that is not the LAST does
nothing (R211). -/
def State.gcRun (s : State) (a : Nat) (d : GcDesc) (m : GcMsg) : State × Nat × Nat :=
  if d.len = 0 ∧ !d.last then ({ s with sec.gciph.msg := some m }, 0, stOk)
  else if (d.len ≠ 0 ∧ s.hbmErr d.src d.len) ∨ (gcOutLen d m (s.hbmRead d.src d.len) ≠ 0 ∧ hbmEnd < d.dst + gcOutLen d m (s.hbmRead d.src d.len)) then ((s.noteErr d.src d.len).gcWipe, 0, 8)
  else
    let bytes := s.hbmRead d.src d.len
    if m.mode = 1 then
      let o := keyWrap m.key bytes
      ({ s.hbmWrite d.dst o with sec.gciph.msg := none }, o.length, stOk)
    else if m.mode = 2 then
      match keyUnwrap m.key bytes with
      | some o => ({ s.hbmWrite d.dst o with sec.gciph.msg := none }, o.length, stOk)
      | none => ({ s with sec.gciph.msg := none }, 0, 4)
    else
      let out := gcOut m d bytes
      let m1 := { m with input := m.input ++ bytes }
      let cont := fun (o : List Byte) =>
        ({ s.hbmWrite d.dst o with sec.gciph.msg := if d.last then none else some { m1 with written := m.written ++ [(d.dst, o.length)] } },
          o.length, stOk)
      if m.mode = 3 then
        let r := cont out
        if d.last then
          (r.1.hbmWrite (a + 0x40) (gcmSeal m.key (m.iv.take 12) m.aad m1.input).2, r.2)
        else r
      else if m.mode = 4 ∧ d.last then
        let good := decide (gcmTag (aesKeys m.key) (m.iv.take 12) m.aad m1.input = d.tag)
        if good then cont out
        else
          let s1 := if d.first ∧ d.len ≤ 65536 then s
            else (s.hbmWrite d.dst out).hbmWrite d.dst (zeros out.length)
          (s1.gcWipe.bump fGCIPH_TAG_FAIL, 0, 3)
      else if m.mode = 6 ∧ d.last ∧ d.pad then
        match cbcPad (out.drop (out.length - 16)) with
        | some p => cont (out.take (out.length - p))
        | none => ({ s.hbmWrite d.dst (out.take (out.length - 16)) with sec.gciph.msg := none }, out.length - 16, 9)
      else cont out

/-- What a FIRST segment opens, once its key is known.
[DEDUCED: log entry 55] -/
def State.gcOpen (s : State) (d : GcDesc) (key : List Byte) : GcMsg :=
  { mode := d.mode, cls := d.cls, slot := d.key, key := key, iv := d.iv,
    aad := if d.mode = 3 ∨ d.mode = 4 then s.hbmRead d.aad d.aadLen else [] }

/-- Where a FIRST segment's key stands. -/
inductive GcKey where
  | bad (st : Nat)
  | wait (slot : Nat)
  | ok (key : List Byte)
  deriving DecidableEq, Repr

def State.gcKey (s : State) (d : GcDesc) : GcKey :=
  if d.mode = 1 ∨ d.mode = 2 then
    if d.cls ≠ 0 ∨ d.key = 0 ∨ 7 < d.key then .bad 1
    else if s.kekValid d.key then .ok (s.kek d.key) else .bad 7
  else if d.cls ≠ 1 ∨ 65536 ≤ d.key then .bad 1
  else if (s.keyRec d.key).type ≠ 3 then .bad 7
  else match s.activeKey d.key with
    | some k => .ok k
    | none => .wait d.key

/-- What a segment comes to: a status with OUT_LEN, or a wait for its data slot. -/
inductive GcEnd where
  | ended (outLen st : Nat)
  | waits (slot : Nat)
  deriving DecidableEq, Repr

/-- A segment of the lock's owner (R211-R213). -/
def State.gcSegment (s : State) (a : Nat) : State × GcEnd :=
  let d := s.gcDesc a
  match s.sec.gciph.msg with
  | some m =>
    if d.first then (s, .ended 0 10)
    else if d.mode ≠ m.mode ∨ gcBadLen d (m.input.length + d.len) then (s, .ended 0 1)
    else
      let r := s.gcRun a d m
      (r.1, .ended r.2.1 r.2.2)
  | none =>
    if d.mode = 0 ∨ 6 < d.mode then (s, .ended 0 1)
    else if !d.first then (s, .ended 0 10)
    else if gcBadLen d d.len then (s, .ended 0 1)
    else match s.gcKey d with
      | .bad st => (s, .ended 0 st)
      | .wait slot => (s, .waits slot)
      | .ok key =>
        if (d.mode = 3 ∨ d.mode = 4) ∧ d.aadLen ≠ 0 ∧ s.hbmErr d.aad d.aadLen then (s.noteErr d.aad d.aadLen, .ended 0 8)
        else
          let r := (if d.cls = 1 then s.useKey d.key else s).gcRun a d (s.gcOpen d key)
          (r.1, .ended r.2.1 r.2.2)

/-- The class of a GCIPH_SEG: a segment of a message already open is taken while the block quiesces (R465). -/
def State.gcClass (s : State) (desc : Nat) : CmdClass :=
  if (s.sec.gciph.msg.isSome ∨ s.sec.gciph.seg.isSome) ∧ !(s.gcDesc desc).first then .release else .work

/-- GCIPH_SEG. Behind a FIRST segment that waits for its slot, segments wait in their order. -/
def execGciphSeg (h : CmdHdr) (desc : Nat) (s : State) : Res :=
  .next <| s.command h pgGCIPH 0x0100 (s.gcClass desc) (fun _ t =>
    if t.sec.gciph.lock = .locked then (t, .done 6 0)
    else if desc % 128 ≠ 0 then (t, .done 1 0)
    else if t.hbmErr desc 128 then (t.noteErr desc 128, .done 8 0)
    else if t.sec.gciph.lock ≠ .held ∨ t.hbmNat desc 1 ≠ t.sec.gciph.owner then (t, .done 2 0)
    else if t.sec.gciph.seg.isSome then ({ t with sec.gciph.next := t.sec.gciph.next ++ [(h.cseq, desc)] }, .running [desc])
    else match t.gcSegment desc with
      | (t1, .ended n st) => (t1.gcResult desc n st, .done st 0)
      | (t1, .waits slot) => ({ t1.wantKey slot with sec.gciph.seg := some ⟨h.cseq, desc, slot⟩ }, .running [desc]))

/-- A segment ends with its result. -/
def State.gcSegEnds (s : State) (cseq desc outLen st : Nat) : State := (s.gcResult desc outLen st).finishRunning cseq 0 st

/-- The segments that waited behind another run in their order, until one waits for its own slot. -/
def State.gcPump : Nat → State → State
  | 0, s => s
  | f + 1, s =>
    match s.sec.gciph.next with
    | [] => s
    | (cseq, desc) :: l => match ({ s with sec.gciph.next := l } : State).gcSegment desc with
      | (s1, .ended n st) => State.gcPump f (s1.gcSegEnds cseq desc n st)
      | (s1, .waits slot) => { s1.wantKey slot with sec.gciph.seg := some ⟨cseq, desc, slot⟩ }

/-- The segment that waited for its slot goes on, or ends because the slot could not be brought in (R205); then those behind it. -/
def State.gcResume (s : State) (res : BringRes) : State :=
  match s.sec.gciph.seg with
  | none => s
  | some ⟨cseq, desc, _⟩ =>
    let s1 := { s with sec.gciph.seg := none }
    let s2 := match res with
      | .absent => s1.gcSegEnds cseq desc 0 7
      | .integrity => s1.gcSegEnds cseq desc 0 4
      | .active => match s1.gcSegment desc with
        | (u, .ended n st) => u.gcSegEnds cseq desc n st
        | (_, .waits _) => s1.gcSegEnds cseq desc 0 7
    State.gcPump s2.sec.gciph.next.length s2

/-! ### GCIPH: the lock (R214) -/

/-- Every open message ends with the status, and with it the segment that runs and those behind it. -/
def State.gcEnd (s : State) (st : Nat) : State :=
  let opened := s.sec.gciph.msg.isSome || s.sec.gciph.seg.isSome
  let s1 := s.gcWipe
  let s2 := match s1.sec.gciph.seg with
    | some ⟨cseq, desc, _⟩ =>
      s1.sec.gciph.next.foldl (fun t e => t.gcSegEnds e.1 e.2 0 st)
        ({ s1 with sec.gciph.seg := none, sec.gciph.next := [] }.gcSegEnds cseq desc 0 st)
    | none => s1
  if opened then s2.bump fGCIPH_ABORT_CNT else s2

/-- The lock becomes Free: RELEASED is raised when armed. -/
def State.gcUnlock (s : State) : State :=
  let s1 := { s with sec.gciph := { s.sec.gciph with lock := .free, owner := 0, busy := false, arm := false } }
  if s.sec.gciph.arm then s1.irqBit pgGCIPH 0 else s1

/-- The lock moves to Free: the message ends ABORTED and the context is zeroized. -/
def State.gcFree (s : State) : State := (s.gcEnd 5).gcUnlock

/-- GCIPH stops: its message ends before a successful LAST (R213), its segment with its command, and a Held lock becomes Free. -/
def State.gcStops (s : State) : State :=
  let opened := s.sec.gciph.msg.isSome || s.sec.gciph.seg.isSome
  let s1 : State := { s.gcWipe with sec.gciph.seg := none, sec.gciph.next := [] }
  let s2 : State := if opened then s1.bump fGCIPH_ABORT_CNT else s1
  if s2.sec.gciph.lock = .held then s2.gcUnlock else s2

/-- The end of a lease that starts or restarts now. -/
def State.leaseEnds (s : State) : Nat := s.now + s.fld fGCIPH_LEASE_LEASE_MS * 10 ^ 6

/-- An ID is written to LOCK, by a core or through another path. -/
def State.gcLock (s : State) (id : Nat) (core : Bool) : State :=
  if core ∧ (id = 0 ∨ 0xF0 ≤ id) then s
  else match s.sec.gciph.lock with
    | .locked => s
    | .free => { s with sec.gciph := { s.sec.gciph with lock := .held, owner := id, leaseEnd := s.leaseEnds } }
    | .held =>
      if id = s.sec.gciph.owner then { s with sec.gciph.leaseEnd := s.leaseEnds }
      else { s.bump fGCIPH_BUSY_CNT with sec.gciph.busy := true }

def execGciphLockWrite (id : Nat) (core : Bool) (s : State) : Res :=
  .next (if id < 256 then s.gated pgGCIPH (fun t => t.gcLock id core) else s)

/-- An ID is written to RELEASE. -/
def State.gcRelease (s : State) (id : Nat) (core : Bool) : State :=
  if core ∧ (id = 0 ∨ 0xF0 ≤ id) then s
  else if s.sec.gciph.lock = .held ∧ id = s.sec.gciph.owner then s.gcFree
  else s

def execGciphReleaseWrite (id : Nat) (core : Bool) (s : State) : Res := .next (s.gated pgGCIPH (fun t => t.gcRelease id core))

/-- The lease expires: the lock is freed and LEASE_EXPIRED is posted with OWNER. -/
def State.gcExpire (s : State) : State :=
  if s.sec.gciph.lock = .held then
    let o := s.sec.gciph.owner
    ((s.gcFree).irqBit pgGCIPH 1).event pgGCIPH 1 (le 1 o)
  else s

/-- GCIPH.FORCE_RELEASE by hart 0 or through the service port (`none`). -/
def execGciphForceRelease (hart : Option Nat) (s : State) : Res :=
  .next (if hart = none ∨ hart = some 0 then s.gated pgGCIPH State.gcExpire else s)

def execLeaseExpired (s : State) : Res := .next s.gcExpire

end Sys2Proof.Machine
end

