-- ==== Sys2Proof/Machine/Mark.lean ====
section
/-! DEFINITION. The Mark digest engine: key slots, programmed I/O, digests and fingerprints (R154-R165). -/

namespace Sys2Proof.Machine

def State.markSlot (s : State) (i : Nat) : MarkSlot := s.mark.slots.get {} i
def State.setMarkSlot (s : State) (i : Nat) (v : MarkSlot) : State := { s with mark.slots := s.mark.slots.put {} i v }
def State.markQuad (s : State) (q : Nat) : MarkQuad := s.mark.quads.get {} q
def State.setMarkQuad (s : State) (q : Nat) (v : MarkQuad) : State := { s with mark.quads := s.mark.quads.put {} q v }

/-- Mark's page of quadrant `q`. -/
def pgMarkQ (q : Nat) : Nat := quadPage pgMARK q

/-- An error of R165: captured, with its interrupt. -/
def State.markError (s : State) (q code a : Nat) : State := (s.capture (pgMarkQ q) code a 0).irqBit (pgMarkQ q) 2

def State.wareUnit (s : State) (u : Nat) : Option WareUnit := s.ware.units.find u
def State.setWareUnit (s : State) (u : Nat) (v : WareUnit) : State := { s with ware.units := s.ware.units.ins u v }
def State.delWareUnit (s : State) (u : Nat) : State := { s with ware.units := s.ware.units.del u }

/-- The message of a unit holds a key slot. -/
def WareUnit.holds (w : WareUnit) (slot : Nat) : Bool := w.phase = .mark && w.held && w.dom = slot

/-- Messages that hold a slot (KEY_INFO.HOLDS): fingerprints that have started under it, and open programmed-I/O messages. -/
def State.markHolds (s : State) (slot : Nat) : Nat :=
  (s.ware.units.filter (fun e => e.2.holds slot)).length
    + ((List.range 4).filter (fun q => match (s.markQuad q).pio with
        | some m => m.hmac && m.slot = slot
        | none => false)).length

/-- A message may start on a slot in a quadrant: the slot is Ready for its hash, and the quadrant's copy holds it (R158, R162).
[DEDUCED: log entry 97] -/
def State.markKey (s : State) (q slot : Nat) (alg512 : Bool) : Option (List Byte) :=
  let k := s.markSlot slot
  let g := s.markQuad q
  if k.st = 1 ∧ k.alg512 = alg512 ∧ g.copy ∧ !g.missing.contains slot then some k.key else none

/-- KEY_LOST (R165): slot, quadrant, reason.
[DEDUCED: log entry 49] -/
def State.keyLost (s : State) (slot q reason : Nat) : State :=
  (s.event (pgMarkQ q) 1 (le 2 slot ++ le 1 q ++ le 1 reason)).irqBit (pgMarkQ q) 1

/-- A fingerprint is not computed: NO_KEY goes to Grog (R162). -/
def State.unitNoKey (s : State) (u : Nat) (w : WareUnit) : State :=
  (s.setWareUnit u { w with phase := .lookup true, lane := none, held := false }).bump (fMARK_NO_KEY_CNT w.quad)

/-- A slot becomes Empty; a clear of it that runs completes. -/
def State.slotEmpty (s : State) (slot : Nat) : State :=
  let s1 := s.setMarkSlot slot {}
  match (s.markSlot slot).clear with
  | some c => s1.finishRunning c 0 stOk
  | none => s1

/-- An uncorrectable error in a quadrant's key-state copy (R165): the slot's messages in the quadrant end with NO_KEY, and the slot is
copied again from another quadrant, or becomes Empty.
[DEDUCED: log entry 49] -/
def State.markEcc (s : State) (q slot : Nat) : State :=
  let s1 := s.markError q 0x04 slot
  let s2 := (s.ware.units.filter (fun e => e.2.quad = q && e.2.holds slot)).foldl (fun t e => t.unitNoKey e.1 e.2) s1
  let s3 := match (s.markQuad q).pio with
    | some m => if m.hmac ∧ m.slot = slot then s2.setMarkQuad q { s2.markQuad q with pio := none } else s2
    | none => s2
  let other := (List.range 4).any (fun p => p ≠ q && s.domOn (27 + p) && (s.markQuad p).copy && !(s.markQuad p).missing.contains slot)
  (if other then s3 else s3.slotEmpty slot).keyLost slot q 1

/-! ### Digest lanes (R155) -/

/-- Lanes 30 - JOB_LANES + 1 to 30 of a quadrant serve MARK_DIGEST and programmed I/O alone. -/
def State.laneReserved (s : State) (q k : Nat) : Bool := decide (k ≤ 30) && decide (30 < k + s.fld (fMARK_CTRL_JOB_LANES q))

/-- The lanes of a quadrant that hold a message. -/
def State.lanesHeld (s : State) (q : Nat) : List Nat :=
  (s.ware.units.filter (fun e => e.2.quad = q && e.2.phase = .mark)).filterMap (fun e => e.2.lane)
    ++ (match (s.markQuad q).pio with
        | some m => m.lane.toList
        | none => [])

/-- Lane 31 of quadrant 0 is free for a snoop of the update's body: PD27 is Firing, and no message holds the lane (R155). -/
def State.snoopLane (s : State) : Bool := s.domOn 27 && !(s.lanesHeld 0).contains 31

/-- The lane that an error of programmed I/O names: the open message's, or the one that a message would take first (R165). -/
def State.pioLaneNo (s : State) (q : Nat) : Nat :=
  (((s.markQuad q).pio.bind MarkPio.lane)).getD (if s.fld (fMARK_CTRL_JOB_LANES q) = 0 then 31 else 30)

/-- A free lane for a fingerprint: the lowest that is not reserved. -/
def State.fpLane (s : State) (q : Nat) : Option Nat :=
  (List.range 32).find? (fun k => !s.laneReserved q k && !(s.lanesHeld q).contains k)

/-- A free lane for MARK_DIGEST or programmed I/O: the highest reserved one, or with none reserved the highest of all.
[DEDUCED: log entry 97] -/
def State.jobLane (s : State) (q : Nat) : Option Nat :=
  (List.range 32).reverse.find? (fun k =>
    (s.laneReserved q k || s.fld (fMARK_CTRL_JOB_LANES q) = 0) && !(s.lanesHeld q).contains k)

/-- Fingerprints that wait for a lane start, in order. -/
def State.fpStarts (s : State) (q : Nat) : State :=
  (s.ware.units.filter (fun e => e.2.quad = q && e.2.phase = .mark && e.2.lane.isNone)).foldl (fun t e =>
    match t.fpLane q with
    | some k => t.setWareUnit e.1 { e.2 with lane := some k, held := (t.markKey q e.2.dom false).isSome }
    | none => t) s

/-- The effect of a MARK_DIGEST that has its lane: the status. -/
def State.digestRun (s : State) (q lane : Nat) (j : MarkJob) : State × Nat :=
  let alg := j.flags % 2
  let key := s.markKey q j.slot (alg = 1)
  if j.flags.testBit 1 ∧ key.isNone then (s.markError q 0x01 j.slot, 5)
  else if j.flags.testBit 1 ∧ j.ecc then (s.markEcc q j.slot, 5)
  else if 0 < j.length ∧ s.hbmErr j.src j.length then ((s.noteErr j.src j.length).markError q 0x05 lane, 6)
  else
    let m := s.hbmRead j.src j.length
    let d := if j.flags.testBit 1 then hmac alg (key.getD []) m else shaAlg alg m
    (s.hbmWrite j.result d, stOk)

/-- MARK_DIGEST commands that wait take a lane, in order. -/
def State.jobStarts (s : State) (q : Nat) : State :=
  match s.jobLane q with
  | none => s
  | some k =>
    let js := (s.markQuad q).jobs
    js.foldl (fun t j => let r := t.digestRun q k j; r.1.finishRunning j.cseq 0 r.2)
      (s.setMarkQuad q { s.markQuad q with jobs := [] })

/-- The open programmed-I/O message takes a lane. -/
def State.pioLane (s : State) (q : Nat) : State :=
  let g := s.markQuad q
  match g.pio with
  | some m => if m.lane.isNone then s.setMarkQuad q { g with pio := some { m with lane := s.jobLane q } } else s
  | none => s

/-- The lanes of a quadrant go to the work that waits, in the order of R155. -/
def State.markLanes (s : State) (q : Nat) : State := ((s.fpStarts q).jobStarts q).pioLane q

/-! ### Key slots (R158, R159, R164) -/

/-- A refill of some quadrant runs. -/
def State.refilling (s : State) : Bool := s.mark.quads.any (fun e => e.2.refill)

/-- The effect of MARK_KEY_DERIVE, once no refill runs: the status.
[DEDUCED: log entry 97] -/
def State.deriveKey (s : State) (slot alg keySlot : Nat) : State × Nat :=
  let r := s.keyRec keySlot
  if (s.markSlot slot).st ≠ 0 then (s, 2)
  else if s.zeroized ∨ r.type ≠ 2 ∨ !s.kekValid r.kek ∨ s.hbmErr (s.reg64 rKEYS_WRAP_BASE + 128 * keySlot) 128 then (s, 4)
  else match keyUnwrap (s.kek r.kek) (r.wrapped.take (r.len + 8)) with
    | some key =>
      let s1 := s.setMarkSlot slot { st := 1, alg512 := alg = 1, key := key }
      ((List.range 4).foldl (fun t q =>
        let g := t.markQuad q
        t.setMarkQuad q { g with missing := (g.missing.filter (· ≠ slot)) ++ (if t.domOn (27 + q) then [] else [slot]) }) s1, stOk)
    | none => (s, 4)

/-- The effect of MARK_KEY_CLEAR, once no refill runs. -/
def State.clearKey (s : State) (slot cseq : Nat) : State × CmdEnd :=
  let k := s.markSlot slot
  if k.st ≠ 1 then (s, .done 3 0)
  else if s.markHolds slot = 0 then (s.setMarkSlot slot {}, .done stOk 0)
  else (s.setMarkSlot slot { k with st := 2, clear := some cseq }, .running [slot])

/-- MARK_KEY_DERIVE.
[DEDUCED: log entry 97] -/
def execMarkKeyDerive (h : CmdHdr) (slot alg keySlot : Nat) (s : State) : Res :=
  .next <| s.command h pgMARK 0x0100 .work (fun _ t =>
    if h.inst ≠ 0xFF ∨ 4095 < slot ∨ 1 < alg then (t, .done 1 0)
    else if t.refilling then
      ({ t with mark.waiting := t.mark.waiting ++ [(h.cseq, true, slot, alg, keySlot)] }, .running [slot])
    else
      let r := t.deriveKey slot alg keySlot
      (r.1, .done r.2 0))

/-- MARK_KEY_CLEAR. -/
def execMarkKeyClear (h : CmdHdr) (slot : Nat) (s : State) : Res :=
  .next <| s.command h pgMARK 0x0101 .release (fun _ t =>
    if h.inst ≠ 0xFF ∨ 4095 < slot then (t, .done 1 0)
    else if t.refilling then
      ({ t with mark.waiting := t.mark.waiting ++ [(h.cseq, false, slot, 0, 0)] }, .running [slot])
    else t.clearKey slot h.cseq)

/-- A clearing slot that no message holds is zeroized, and its clear completes. -/
def State.clearDone (s : State) (slot : Nat) : State :=
  let k := s.markSlot slot
  if k.st = 2 ∧ s.markHolds slot = 0 then s.slotEmpty slot else s

/-- MARK_KEY_CLEAR_DONE. -/
def execMarkKeyClearDone (slot : Nat) (s : State) : Res := .next (s.clearDone slot)

/-- The commands that waited for a refill take effect, in order. -/
def State.markWaiters (s : State) : State :=
  if s.refilling then s
  else s.mark.waiting.foldl (fun t w =>
    match w with
    | (cseq, true, slot, alg, ks) => let r := t.deriveKey slot alg ks; r.1.finishRunning cseq 0 r.2
    | (cseq, false, slot, _, _) =>
      match t.clearKey slot cseq with
      | (t1, .done st b) => t1.finishRunning cseq b st
      | (t1, .running _) => t1) { s with mark.waiting := [] }

/-- A quadrant loses its key-state copy (R159). -/
def State.markLose (s : State) (q : Nat) : State :=
  s.setMarkQuad q { copy := false }

/-- A quadrant returns (R159): it copies every Ready slot from the lowest-numbered quadrant that is Firing and holds a copy, reading
Idle until then; if no other quadrant is Firing, every slot becomes Empty and KEY_LOST is posted.
[DEDUCED: log entry 49, 97] -/
def State.markReturn (s : State) (q : Nat) : State :=
  let src := (List.range 4).find? (fun p => p ≠ q && s.domOn (27 + p) && (s.markQuad p).copy)
  match src with
  | some _ =>
    (s.setMarkQuad q { s.markQuad q with refill := true }).modPage (pgMarkQ q) (fun g => { g with st := .idle })
  | none =>
    let s1 := s.mark.slots.foldl (fun t e => t.slotEmpty e.1) s
    (s1.setMarkQuad q { s1.markQuad q with copy := true, missing := [] }).keyLost 0xFFFF q 2

/-- MARK_KEY_REFILL_DONE: the copy ends, and the quadrant enters Run if ENABLE = 1. -/
def State.refillDone (s : State) (q : Nat) : State :=
  let g := s.markQuad q
  if g.refill ∧ s.domOn (27 + q) then
    let n := (s.mark.slots.filter (fun e => e.2.st = 1)).length
    let s1 := (s.setMarkQuad q { g with copy := true, missing := [], refill := false }).setFld (fMARK_KEY_REFILL_DONE q) n
    let p := s1.page (pgMarkQ q)
    let s2 := if !p.enable then s1 else if p.quiesce then s1.stateChange (pgMarkQ q) .quiesced
      else s1.modPage (pgMarkQ q) (fun x => { x with st := .run })
    s2.markWaiters
  else s

def execMarkKeyRefillDone (quad : Nat) (s : State) : Res := .next (if quad < 4 then s.refillDone quad else s)

/-! ### MARK_DIGEST (R155, R156, R163, R164) -/

/-- MARK_DIGEST; `ecc` says that the quadrant's copy of the slot has an uncorrectable error. It runs on a lane that is free for it, and
waits for one otherwise (R155). -/
def execMarkDigest (h : CmdHdr) (flags slot src length result : Nat) (ecc : Bool) (s : State) : Res :=
  .next <| s.command h pgMARK 0x0102 .work (fun p t =>
    let q := blkInstOf p
    let n := if flags % 2 = 0 then 32 else 64
    if 3 < h.inst ∨ 4095 < slot ∨ 2 ^ 40 < length ∨ result % 64 ≠ 0 ∨ hbmEnd < src + length ∨ hbmEnd < result + n then (t, .done 1 0)
    else
      let j : MarkJob := ⟨h.cseq, flags, slot, src, length, result, ecc⟩
      match t.jobLane q with
      | some k =>
        let r := t.digestRun q k j
        (r.1.markLanes q, .done r.2 0)
      | none => (t.setMarkQuad q { t.markQuad q with jobs := (t.markQuad q).jobs ++ [j] }, .running []))

/-! ### Programmed I/O (R156, R157) -/

/-- The result words of a digest. -/
def State.setPioResult (s : State) (q : Nat) (d : List Byte) : State :=
  (List.range 16).foldl (fun t i => t.setReg (rMARK_PIO_RESULT q i) (BitVec.ofNat 32 (unLe (slice d (4 * i) 4)))) s

/-- MARK.PIO_CMD.START is written 1. -/
def State.pioStart (s : State) (q : Nat) : State :=
  let g := s.markQuad q
  if !s.runs (pgMarkQ q) then s
  else if g.pio.isSome then s.markError q 0x03 (s.pioLaneNo q)
  else
    let alg := s.fld (fMARK_PIO_CTRL_ALG q)
    let hm := s.fld (fMARK_PIO_CTRL_HMAC q) = 1
    let slot := s.fld (fMARK_PIO_CTRL_SLOT q)
    let s1 := ((s.setFld (fMARK_PIO_CTRL_DONE q) 0).setPioResult q []).setReg64 (rMARK_PIO_COUNT q) 0
    if hm ∧ (s.markKey q slot (alg = 1)).isNone then s1.markError q 0x01 slot
    else (s1.setMarkQuad q { g with pio := some { alg512 := alg = 1, hmac := hm, slot := slot } }).pioLane q

def execMarkPioStart (quad : Nat) (s : State) : Res := .next (if quad < 4 then s.gated (pgMarkQ quad) (fun t => t.pioStart quad) else s)

/-- The open message of a quadrant ends without a digest: its lane, and its hold of a slot, are free. -/
def State.pioAbort (s : State) (q : Nat) : State := (s.setMarkQuad q { s.markQuad q with pio := none }).markLanes q

/-- Bytes are appended to the open message (R156, R157). -/
def State.pioAppend (s : State) (q size : Nat) (bytes : List Byte) (last ecc : Bool) : State :=
  let g := s.markQuad q
  match g.pio with
  | none => s.markError q 0x03 (s.pioLaneNo q)
  | some m =>
    if size ≠ 64 ∨ m.ended then s.markError q 0x03 (s.pioLaneNo q)
    else if ecc ∧ m.hmac then (s.markEcc q m.slot).markLanes q
    else if 2 ^ 56 - 1 < m.data.length + bytes.length then (s.markError q 0x02 (s.pioLaneNo q)).pioAbort q
    else
      let d := m.data ++ bytes
      (s.setMarkQuad q { g with pio := some { m with data := d, ended := last } }).setReg64 (rMARK_PIO_COUNT q) d.length

/-- MARK_PIO_DATA: a write of MARK.PIO_DATA. -/
def execMarkPioData (quad size data : Nat) (ecc : Bool) (s : State) : Res :=
  .next (if quad < 4 then s.gated (pgMarkQ quad) (fun t => t.pioAppend quad size (le 8 data) false ecc) else s)

/-- MARK.PIO_LAST is written: LAST_VALID bytes are appended and the message ends. -/
def State.pioLast (s : State) (q size data : Nat) : State :=
  s.pioAppend q size ((le 8 data).take (min 8 (s.fld (fMARK_PIO_CTRL_LAST_VALID q)))) true false

/-- MARK_PIO_LAST: a write of MARK.PIO_LAST. -/
def execMarkPioLast (quad size data : Nat) (s : State) : Res :=
  .next (if quad < 4 then
    s.gated (pgMarkQ quad) (fun t => t.pioLast quad size data) else s)

/-- MARK_PIO_DONE: the digest is delivered. -/
def State.pioDone (s : State) (q : Nat) : State :=
  let g := s.markQuad q
  match g.pio with
  | some m =>
    if m.ended ∧ m.lane.isSome then
      let alg := b2n m.alg512
      let d := if m.hmac then hmac alg (s.markSlot m.slot).key m.data else shaAlg alg m.data
      let s1 := ((s.setMarkQuad q { g with pio := none }).setPioResult q d).setFld (fMARK_PIO_CTRL_DONE q) 1
      (s1.irqBit (pgMarkQ q) 0).markLanes q
    else s
  | none => s

def execMarkPioDone (quad : Nat) (s : State) : Res := .next (if quad < 4 then s.pioDone quad else s)

/-! ### Fingerprints (R160-R162) -/

/-- MARK_FINGERPRINT: the keyed fingerprint of a unit that has its lane, or NO_KEY for one that was refused a hold of its slot. A crazed
frame restarts the block. `ecc` says that the quadrant's copy of the slot has an uncorrectable error. The lane goes to the next work. -/
def State.fingerprint (s : State) (u : Nat) (crazed ecc : Bool) : State :=
  match s.wareUnit u with
  | some w =>
    if w.phase = .mark ∧ w.lane.isSome ∧ s.working (pgMarkQ w.quad) then
      if crazed then s.bump (fMARK_FP_RESTART w.quad)
      else if !w.held then ((s.unitNoKey u w).markError w.quad 0x01 w.dom).markLanes w.quad
      else if ecc then (s.markEcc w.quad w.dom).markLanes w.quad
      else
        let fp := hmac 0 (s.markSlot w.dom).key w.data
        ((s.setWareUnit u { w with phase := .lookup false, fp := fp, lane := none, held := false }).bump
          (fMARK_FP_DONE w.quad)).markLanes w.quad
    else s
  | none => s

/-- [DEDUCED: log entry 97] -/
def execMarkFingerprint (unit : Nat) (crazed ecc : Bool) (s : State) : Res := .next (s.fingerprint unit crazed ecc)

/-- Tamper zeroization (R158, R216): every slot is zeroized, and messages holding one end with NO_KEY. -/
def State.markZeroize (s : State) : State :=
  let s1 := (List.range 4).foldl (fun t q => match (t.markQuad q).pio with
    | some m => if m.hmac then (t.setMarkQuad q { t.markQuad q with pio := none }).markError q 0x01 m.slot else t
    | none => t) s
  let s2 := (s.ware.units.filter (fun e => e.2.phase = .mark && e.2.held)).foldl (fun t e =>
    (t.unitNoKey e.1 e.2).markError e.2.quad 0x01 e.2.dom) s1
  let s3 := s.mark.slots.foldl (fun t e => t.slotEmpty e.1) s2
  s3.mark.waiting.foldl (fun t w => t.finishRunning w.1 0 (if w.2.1 then 4 else 3)) { s3 with mark.waiting := [] }

end Sys2Proof.Machine
end

