-- ==== Sys2Proof/Machine/Rgn.lean ====
section
/-! DEFINITION. The context cache's operations and commands (R95-R97) and the region commands (R101, R110). -/

namespace Sys2Proof.Machine

/-! ### The context cache -/

def State.qctx (s : State) (c : Nat) : QCtx := s.ctx.ctxs.get {} c

/-- The context is in the cache. -/
def State.ctxResident (s : State) (c : Nat) : Bool := s.ctx.resident.contains c

/-- The 384 bytes of a context. The spec gives the places within QUEUE_STATE to no field.
[DESIGN CHOICE: log entry 117] -/
def QCtx.bytes (c : Nat) (q : QCtx) : List Byte :=
  le 4 (c + 2 ^ 31 * b2n q.valid) ++ le 2 q.assoc ++ le 2 q.tenant ++ le 2 q.qid ++ le 1 q.cls
    ++ le 1 (b2n q.admin + 2 * b2n q.pinned + 4 * b2n q.tcp) ++ le 4 (q.cntlid + 65536 * q.size)
    ++ (List.range 176).map (fun k => Config.queueStateByte q.sqhd q.inSlots k) ++ fitBytes 192 q.firmware

/-- A context is written to its home in HBM (R95).
[DESIGN CHOICE: log entry 117] -/
def State.writeHome (s : State) (c : Nat) : State := s.hbmWrite (s.reg64 rCTX_BACK_BASE + 384 * c) ((s.qctx c).bytes c)

/-- A context changes: in the cache, or in its home when it is not resident.
[DESIGN CHOICE: log entry 117] -/
def State.setQctx (s : State) (c : Nat) (v : QCtx) : State :=
  let s1 : State := { s with ctx.ctxs := s.ctx.ctxs.put {} c v }
  if s.ctxResident c then s1 else s1.writeHome c

/-- CTX.PINNED. -/
def State.pinnedCount (s : State) : Nat := (s.ctx.ctxs.filter (fun e => e.2.pinned)).length

/-- A context may be evicted: not pinned (R95). A packet is processed within one step, so none is in process between two. -/
def State.evictable (s : State) (c : Nat) : Bool := !(s.qctx c).pinned

/-- The clock algorithm: the hand passes contexts, clearing reference bits, until one can be evicted: that one, those that stay and
their reference bits. -/
def clockEvict (s : State) : Nat → List Nat → List Nat → Option Nat × List Nat × List Nat
  | 0, l, r => (none, l, r)
  | _ + 1, [], r => (none, [], r)
  | f + 1, c :: l, r =>
    if !s.evictable c ∨ r.contains c then clockEvict s f (l ++ [c]) (r.filter (· ≠ c))
    else (some c, l, r)

/-- The context becomes resident. When the cache holds 65,536 another is evicted, and written to its home (R95, R97). -/
def State.makeResident (s : State) (c : Nat) : State :=
  if s.ctxResident c then { s with ctx.refbits := c :: s.ctx.refbits.filter (· ≠ c) }
  else
    let full := decide (65536 ≤ s.ctx.resident.length)
    let e := if full then clockEvict s (2 * s.ctx.resident.length + 1) s.ctx.resident s.ctx.refbits else (none, s.ctx.resident, s.ctx.refbits)
    let s1 := match e.1 with
      | some v => s.writeHome v
      | none => s
    { s1 with ctx.resident := e.2.1 ++ [c], ctx.refbits := c :: e.2.2 }

/-- CTX_PIN (R95). The index is the low 20 bits of its argument.
[DESIGN CHOICE: log entry 128] -/
def execCtxPin (h : CmdHdr) (ctx : Nat) (s : State) : Res :=
  .next <| s.simpleCmd h pgCTX 0x0100 (fun t =>
    let c := ctx % 2 ^ 20
    if (t.qctx c).pinned then (t, stOk)
    else if 8192 ≤ t.pinnedCount then (t, 1)
    else
      let t1 := t.makeResident c
      (t1.setQctx c { t1.qctx c with pinned := true }, stOk))

/-- CTX_UNPIN (R95). -/
def execCtxUnpin (h : CmdHdr) (ctx : Nat) (s : State) : Res :=
  .next <| s.command h pgCTX 0x0101 .release (fun _ t =>
    let c := ctx % 2 ^ 20
    (t.setQctx c { t.qctx c with pinned := false }, .done stOk 0))

/-- The context leaves the cache for its home in HBM, which is written when the cache held it (R97). -/
def State.dropCtx (s : State) (c : Nat) : State :=
  let s1 := if s.ctxResident c then s.writeHome c else s
  { s1 with ctx.resident := s.ctx.resident.filter (· ≠ c), ctx.refbits := s.ctx.refbits.filter (· ≠ c) }

/-- CTX_WRITEBACK: no packet for the context is in process between two steps, so the context leaves at once. -/
def execCtxWriteback (h : CmdHdr) (ctx : Nat) (s : State) : Res :=
  .next <| s.command h pgCTX 0x0102 .release (fun _ t =>
    (t.dropCtx (ctx % 2 ^ 20), .done stOk 0))

/-! ### Region commands -/

/-- The arguments that RGN_REGISTER refuses with BAD_ARG (R110). -/
def rgnBadArg (assoc perm notifyTgt base length : Nat) : Bool :=
  length = 0 || decide (2 ^ 40 < length) || base % 64 ≠ 0 || decide (hbmEnd < base + length)
    || (decide (4096 ≤ assoc) && assoc ≠ 0xFFFF) || decide (8 ≤ perm)
    || !(decide (notifyTgt < 16) || notifyTgt = 0x40 || notifyTgt = 0x41 || notifyTgt = 0xFF)
    || (perm.testBit 2 && notifyTgt = 0xFF)

/-- RGN_REGISTER (R101, R110). -/
def execRgnRegister (h : CmdHdr) (index assoc perm notifyTgt base length : Nat) (s : State) : Res :=
  .next <| s.simpleCmd h pgRGN 0x0100 (fun t =>
    if 65536 ≤ index then (t, 1)
    else if rgnBadArg assoc perm notifyTgt base length then (t, 4)
    else if t.regionBad index then (t.regionLost index, 2)
    else if (t.region index).state ≠ .free then (t, 2)
    else (t.setRegion index { base := base, length := length, assoc := assoc, perm := perm, notifyTgt := notifyTgt,
                              state := .valid, gen := (t.region index).gen }, stOk))

/-- RGN_REVOKE (R101, R110): new operations are refused from now on; it completes when the region reaches Free.
[DEDUCED: log entry 13] -/
def execRgnRevoke (h : CmdHdr) (index gen : Nat) (s : State) : Res :=
  .next <| s.command h pgRGN 0x0101 .release (fun _ t =>
    if 65536 ≤ index then (t, .done 1 0)
    else
      let t1 := if t.regionBad index then t.regionLost index else t
      let r := t1.region index
      if r.state = .free ∨ (r.state = .revoking ∧ !r.lost) ∨ (r.lost ∧ (t1.rgn.revokes.find index).isSome) then (t1, .done 3 0)
      else
        ({ t1.setRegion index { r with state := .revoking } with
            rgn.revokes := t1.rgn.revokes.ins index (h.cseq, gen) }, .running [index, gen]))

/-- Every operation that held a Revoking region is released: GEN advances, the region is Free, RGN_REVOKE completes (R101).
[DEDUCED: log entry 13] [DESIGN CHOICE: log entry 129] -/
def State.revokeDone (s : State) (index : Nat) : State :=
  let r := s.region index
  match s.rgn.revokes.find index with
  | some (cseq, gen) =>
    if r.state = .revoking ∧ (if r.lost then s.rgn.held.get 0 index = 0 else r.pins = 0) then
      let g := if r.lost then (gen + 1) % 256 else (r.gen + 1) % 256
      let s1 := s.setRegion index { r with state := .free, gen := g, lost := false, pins := 0 }
      ({ s1 with rgn.revokes := s1.rgn.revokes.del index }).finishRunning cseq 0 stOk
    else s
  | none => s

def execRegionRevokeDone (index : Nat) (s : State) : Res := .next (s.revokeDone index)

end Sys2Proof.Machine
end

