-- ==== Sys2Proof/Machine/Sw.lean ====
section
/-! DEFINITION. The internal switch and buffer management: cells and their accounting, forwarding, flow pinning and egress
(R132-R153). -/

namespace Sys2Proof.Machine

/-! ### Endpoints (R132) -/

/-- The endpoint is one of 0-7, 8-11 or 20 (R132). -/
def isExternal (ep : Nat) : Bool := decide (ep < 12) || ep = 20

/-- The power domain of an endpoint's unit; none in the fabric core. -/
def epDom (ep : Nat) : Option Nat :=
  if ep < 8 then some (16 + ep / 2)
  else if ep < 12 then some 20
  else if ep < 14 then some (14 + (ep - 12))
  else if ep < 18 then some (27 + (ep - 14))
  else if ep = 20 then some 0
  else none

/-- The domain of an endpoint counts as Firing. -/
def State.epOn (s : State) (ep : Nat) : Bool :=
  match epDom ep with
  | some d => s.domOn d
  | none => !s.plat.pwr.cold

/-- The blocks behind an endpoint: its port, the four blocks of its ware lane, SLIP or the service path. -/
def epPages (ep : Nat) : List Nat :=
  if ep < 8 then [pgHPORT ep]
  else if ep < 12 then [pgPLINK (ep - 8)]
  else if 14 ≤ ep ∧ ep < 18 then (List.range 4).map (fun b => quadPage (0x48 + b) (ep - 14))
  else if ep = 18 then [pgSLIP]
  else if ep = 20 then [pgSVC]
  else []

/-- The endpoint is not in reset. -/
def State.epLive (s : State) (ep : Nat) : Bool := s.epOn ep && (epPages ep).all (fun p => !(s.page p).resetting)

/-- The endpoint takes the copy of a multicast write: it is not in reset, and its block is not Quiesced (R145). -/
def State.epTakes (s : State) (ep : Nat) : Bool := s.epLive ep && (epPages ep).all (fun p => (s.page p).st ≠ .quiesced)

/-- A ware lane can take commands: its domain is Firing and its blocks are in Run (R148). -/
def State.laneUp (s : State) (q : Nat) : Bool :=
  s.domOn (27 + q) && (List.range 4).all (fun b => s.runs (quadPage (0x48 + b) q))

/-- The ware lane of a command (R148). -/
def State.wareLane (s : State) (bs : List Byte) : Option Nat :=
  let i := s.pinHash bs % 16
  let q := getBits (s.reg rSW_WARE_TABLE).toNat (2 * i + 1) (2 * i)
  ((List.range 4).map (fun j => (q + j) % 4)).find? s.laneUp

/-! ### Cells (R133, R140-R143) -/

/-- The cells of a frame (R133). -/
def frameCells (f : SwFrame) : Nat := max 1 (ceilDiv f.payload.length 256)

/-- Reservations and headroom in force (R141). -/
def State.bufRes (s : State) (c : Nat) : Nat := s.sw.cfg.res.getD c 0
/-- [DEDUCED: log entry 22] -/
def headroomOf (res c : Nat) : Nat := if c = 7 then res else min 64 res

/-- COMMITTED[c] (R142).
[DEDUCED: log entry 22] -/
def State.committed (s : State) (c : Nat) : Nat :=
  s.sw.charged.foldl (fun n e => if e.2.1 = c then n + e.2.2 else n) 0

/-- The headroom, and the shared-pool cells, that uncredited frames of a class occupy. -/
def State.headUse (s : State) (c : Nat) : Nat := s.sw.frames.foldl (fun n e => if e.2.frame.cls = c then n + e.2.head else n) 0
def State.sharedUse (s : State) : Nat := s.sw.frames.foldl (fun n e => n + e.2.shared) 0
def State.headTotal (s : State) : Nat := s.sw.frames.foldl (fun n e => n + e.2.head) 0

/-- Overflow cells occupied (BUF.OVF_USE). -/
def State.ovfUse (s : State) : Nat := s.sw.frames.foldl (fun n e => n + e.2.ovf) 0

/-- On-die cells occupied by the frames of class `c` (BUF.CLASS_USE). -/
def State.classUse (s : State) (c : Nat) : Nat :=
  s.sw.frames.foldl (fun n e => if e.2.frame.cls = c ∧ e.2.ovf = 0 then n + frameCells e.2.frame else n) 0

/-- The cells of the enabled banks. -/
def State.bankCells (s : State) : Nat := 32768 * popCount 8 s.sw.cfg.bankEn

/-- Cells that class `c` has borrowed from the shared pool (R142). -/
def State.borrowed (s : State) (c : Nat) : Nat := s.committed c - (s.bufRes c - headroomOf (s.bufRes c) c)

/-- SHARED_FREE (R142). -/
def State.sharedFree (s : State) : Nat :=
  s.bankCells - s.sw.cfg.res.foldl (· + ·) 0 - (List.range 8).foldl (fun n c => n + s.borrowed c) 0 - s.sharedUse

/-- BUF.FREE. -/
def State.bufFree (s : State) : Nat :=
  s.bankCells - (List.range 8).foldl (fun n c => n + s.committed c) 0 - s.headTotal - s.sharedUse

/-- A command of class `c` has switch credit for `n` cells (R142), unless a commit has lowered its class's reservation and
COMMITTED has not fallen below the new one less 64 (R144). -/
def State.switchCredit (s : State) (c n : Nat) : Bool :=
  !s.sw.cfg.lowered.contains c && decide (n ≤ (s.bufRes c - 64 - s.committed c) + s.sharedFree)

/-- A lowered class admits again once COMMITTED has fallen (R144). -/
def State.relaxLowered (s : State) : State :=
  { s with sw.cfg.lowered := s.sw.cfg.lowered.filter (fun c => decide (s.bufRes c - 64 ≤ s.committed c)) }

/-- Charge cells to a command, and release what it still holds (R142). -/
def State.chargeCells (s : State) (key c n : Nat) : State := { s with sw.charged := s.sw.charged.put (0, 0) key (if n = 0 then (0, 0) else (c, n)) }
def State.releaseCells (s : State) (key : Nat) : State := { s with sw.charged := s.sw.charged.del key }.relaxLowered

/-- Cells of a command whose frames have left are released (R142). -/
def State.drainCells (s : State) (key n : Nat) : State :=
  match s.sw.charged.find key with
  | some e => (s.chargeCells key e.1 (e.2 - n)).relaxLowered
  | none => s

/-! ### Multicast results (R145) -/

/-- The destinations of a multicast write: 0 local, 1 peer, 2 slipcast. A result that is still open is set. -/
def NvCmd.setResult (c : NvCmd) (d : Nat) (ok : Bool) : NvCmd :=
  if d = 0 then { c with resL := c.resL.orElse (fun _ => some ok) }
  else if d = 1 then { c with resP := c.resP.orElse (fun _ => some ok) }
  else { c with resS := c.resS.orElse (fun _ => some ok) }

/-- The result that a destination has. -/
def NvCmd.result (c : NvCmd) (d : Nat) : Option Bool := if d = 0 then c.resL else if d = 1 then c.resP else c.resS

/-- The command takes this destination. -/
def NvCmd.wants (c : NvCmd) (d : Nat) : Bool := if d = 0 then true else if d = 1 then c.wantP else c.wantS

/-- A command held by the front end. -/
def State.nvCmd (s : State) (k : Nat) : NvCmd := s.nvf.cmds.get {} k
def State.setNvCmd (s : State) (k : Nat) (c : NvCmd) : State := { s with nvf.cmds := s.nvf.cmds.put {} k c }
def State.modNvCmd (s : State) (k : Nat) (f : NvCmd → NvCmd) : State := s.setNvCmd k (f (s.nvCmd k))

/-- An open copy of a multicast write is Not delivered: the result is reported and counted (R145). -/
def State.copyFails (s : State) (key d : Nat) : State :=
  match s.nvf.cmds.find key with
  | some c =>
    if c.wants d ∧ c.result d = none then ((s.setNvCmd key (c.setResult d false)).bump fSW_MC_FAIL).irqBit pgSW 1 else s
  | none => s

/-- The switch finds that a destination of a multicast write is Not delivered, once its data moves. PEERCTL hears of a peer copy, and
SLIP of a slipcast copy. -/
def State.notDelivered (s : State) (key d : Nat) : State :=
  match s.nvf.cmds.find key with
  | some c =>
    if c.wants d ∧ c.result d = none ∧ c.xfer ≠ 0 then
      let s1 := s.copyFails key d
      if d = 1 then { s1 with sw.peerFail := true } else if d = 2 then { s1 with sw.slipFail := s1.sw.slipFail ++ [key] } else s1
    else s
  | none => s

/-- The multicast destination that an endpoint is. -/
def mcDest (ep : Nat) : Nat := if 8 ≤ ep ∧ ep < 12 then 1 else if ep = 18 then 2 else 0

/-! ### Queues -/

def State.swQueue (s : State) (ep c : Nat) : List Nat := s.sw.queues.get [] (8 * ep + c)
def State.setSwQueue (s : State) (ep c : Nat) (l : List Nat) : State := { s with sw.queues := s.sw.queues.put [] (8 * ep + c) l }

/-- No frame: what an unlisted identifier reads as. -/
def noFrame : Stored := { frame := ⟨0, 0, 0, [], [], [], false, false, none, 0, 0, 0, false, 0, 0⟩ }
def State.stored (s : State) (id : Nat) : Stored := s.sw.frames.get noFrame id

/-- The cells of a queue. -/
def State.queueCells (s : State) (ep c : Nat) : Nat := (s.swQueue ep c).foldl (fun n id => n + frameCells (s.stored id).frame) 0

/-- A destination has taken, or lost, its copy; the last one frees the cells (R142). Data that comes in for a write stays in its cells
for the destinations of the write. -/
def State.copyGone (s : State) (id ep : Nat) : State :=
  let st := s.stored id
  let left := st.left.filter (· ≠ ep)
  if left.isEmpty then
    let s1 := { s with sw.frames := s.sw.frames.del id }
    let s2 := match st.frame.cmd with
      | some k =>
        if st.frame.ldt ∧ st.frame.src < 12 then s1
        else
          let e := s1.sw.charged.get (0, 0) k
          let n := e.2 - frameCells st.frame
          { s1 with sw.charged := s1.sw.charged.put (0, 0) k (if n = 0 then (0, 0) else (e.1, n)) }.relaxLowered
      | none => s1
    { s2 with sw.ovfPosted := s2.sw.ovfPosted && decide (2 ^ 23 ≤ s2.ovfUse) }
  else { s with sw.frames := s.sw.frames.put noFrame id { st with left := left } }

/-- A queued copy is dropped because its destination is down (R147, R153). -/
def State.dropCopy (s : State) (id ep : Nat) : State :=
  let s1 := s.bump fSW_DEST_DOWN_DROP
  let s2 := match (s.stored id).frame.cmd with
    | some k => s1.notDelivered k (mcDest ep)
    | none => s1
  s2.copyGone id ep

/-- Every frame queued toward an endpoint is dropped (R153). -/
def State.dropQueues (s : State) (ep : Nat) : State :=
  (List.range 8).foldl (fun t c => ((t.swQueue ep c).foldl (fun u id => u.dropCopy id ep) t).setSwQueue ep c []) s

/-! ### Crazed frames (R137, R138) -/

/-- A crazed frame reaches the tail at destination `ep`. -/
def State.crazed (s : State) (f : SwFrame) (cause ep : Nat) : State :=
  let s1 := s.setReg rSW_LAST_CRAZED
    (BitVec.ofNat 32 (cause * 2 ^ 24 + f.src * 2 ^ 16 + ep * 2 ^ 8 + f.cls))
  (s1.bump (if isExternal ep then fSW_CRAZED_DROP else fSW_CRAZED_IN)).irqBit pgSW 0

/-- Why the tail of a frame is marked crazed, 0 for none (R137): what its source or a cell error says, a payload shorter than its byte
count, or a source that is in reset or down. A cause 1 does not craze an LDT frame from a host port.
[DEDUCED: log entry 23] -/
def State.crazedCause (s : State) (f : SwFrame) : Nat :=
  if f.bad ≠ 0 ∧ !(f.bad = 1 ∧ f.ldt ∧ f.src < 8) then f.bad
  else if f.payload.length < f.len then 2
  else if !s.epLive f.src then 4
  else 0

/-! ### Input (R134, R143, R147, R150, R151) -/

/-- What R146 hashes of a frame: the five-tuple of its headers, and without one the association index that its source names. -/
def flowOf (f : SwFrame) : List Byte :=
  match l4Of (f.hdr ++ f.payload) with
  | some l => fiveTuple l.src l.dst l.proto l.sport l.dport
  | none => f.flow

/-- The destinations of a frame: its endpoints, with the peer link's members replaced by the one its flow is pinned to. -/
def State.frameDests (s : State) (f : SwFrame) : List Nat :=
  let eps := (bitList 21 f.mask).filter (fun e => !(8 ≤ e && e < 12))
  if f.mask &&& 0xF00 = 0 then eps
  else match s.pinMember (flowOf f) with
    | some m => eps ++ [8 + m]
    | none => eps

/-- A frame for the peer link finds no member up. -/
def State.peerLost (s : State) (f : SwFrame) : Bool := f.mask &&& 0xF00 ≠ 0 && (s.pinMember (flowOf f)).isNone

/-- Where an uncredited frame's cells come from (R143, R151). -/
inductive Placement where
  | onDie (head shared : Nat)
  | overflow
  | ovfFull
  | drop
  deriving DecidableEq, Repr

/-- A frame of a class that may spill goes to overflow when its queue is deeper than SPILL_CELLS (R151), and when headroom and shared
pool have no cells for it (R143).
[DEDUCED: log entry 21] -/
def State.placement (s : State) (f : SwFrame) (dests : List Nat) : Placement :=
  let n := frameCells f
  let may := s.sw.cfg.ovfEn.testBit f.cls
  let deep := dests.any (fun e => decide (s.sw.cfg.spill < s.queueCells e f.cls))
  let head := min n (headroomOf (s.bufRes f.cls) f.cls - s.headUse f.cls)
  if !(may && deep) && decide (n - head ≤ s.sharedFree) then .onDie head (n - head)
  else if !may then .drop
  else if s.ovfUse + n ≤ 2 ^ 24 then .overflow else .ovfFull

/-- An input drop (R143). -/
def State.inDrop (s : State) (c : Nat) : State := (s.bump (fSW_IN_DROP c)).irqBit pgSW 2

/-- `n` free cells of the overflow area from cell `i` on, around its end: those that no queued frame occupies. -/
def freeOvf (used : List Nat) : Nat → Nat → Nat → List Nat
  | 0, _, _ => []
  | f + 1, n, i =>
    if n = 0 then []
    else if used.contains i then freeOvf used f n ((i + 1) % 2 ^ 24)
    else i :: freeOvf used f (n - 1) ((i + 1) % 2 ^ 24)

/-- The overflow cells that a new frame of `n` cells takes. -/
def State.takeOvf (s : State) (n : Nat) : List Nat :=
  let used := s.sw.frames.flatMap (fun e => e.2.ovfAt)
  freeOvf used (n + used.length) n s.sw.ovfNext

/-- The payload of a frame is written into overflow cells.
[DEDUCED: log entry 21] -/
def writeOvf (base : Nat) : List Nat → State → List Byte → State
  | [], s, _ => s
  | i :: l, s, bs => writeOvf base l (s.hbmWrite (base + 256 * i) (bs.take 256)) (bs.drop 256)

/-- The headers of an IP frame with its ECN field set to CE, and an IPv4 header checksum that fits (R150). -/
def markCe (hdr : List Byte) : List Byte :=
  match etherOf hdr with
  | none => hdr
  | some (t, ip) =>
    let o := hdr.length - ip.length
    let b := hdr.getD (o + 1) 0
    if t = 0x0800 then
      let h := overwrite (overwrite hdr (o + 1) [b ||| 3]) (o + 10) [0, 0]
      let fold := fun (n : Nat) => n % 65536 + n / 65536
      overwrite h (o + 10) (be 2 (0xFFFF - fold (fold (sum16 (slice h o 20)))))
    else if t = 0x86DD then overwrite hdr (o + 1) [b ||| 0x30]
    else hdr

/-- Put a placed frame into the queues of its destinations, with its ECN mark (R150). -/
def State.enqueue (s : State) (f : SwFrame) (dests : List Nat) (head shared ovf : Nat) : State :=
  let id := s.sw.nextId
  let st : Stored := { frame := f, head := head, shared := shared, ovf := ovf, ovfAt := s.takeOvf ovf, left := dests }
  let s1 := { s with
    sw.frames := s.sw.frames.put noFrame id st
    sw.nextId := id + 1
    sw.ovfNext := match st.ovfAt.getLast? with
      | some i => (i + 1) % 2 ^ 24
      | none => s.sw.ovfNext }
  let s2 := writeOvf (s1.reg64 rBUF_OVF_BASE) st.ovfAt s1 f.payload
  let mark := s2.fld (fSW_ECN_MARK_CELLS f.cls)
  let s3 :=
    if f.src < 12 ∧ f.ect ∧ !f.ce ∧ mark ≠ 0 ∧ mark < s2.classUse f.cls then
      { s2.bump (fSW_ECN_MARKED f.cls) with
        sw.frames := s2.sw.frames.put noFrame id { st with frame := { f with ce := true, hdr := markCe f.hdr } } }
    else s2
  dests.foldl (fun t e => t.setSwQueue e f.cls (t.swQueue e f.cls ++ [id])) s3

/-- A cell error on the way to a destination of a multicast write: its copy is Not delivered (R145). -/
def State.cellLost (s : State) (f : SwFrame) (ep : Nat) : State :=
  match f.cmd with
  | some k => s.notDelivered k (mcDest ep)
  | none => s

/-- Place a frame that has a destination (R143), and act on its tail (R137, R138).
[DESIGN CHOICE: log entry 140] -/
def State.placeFrame (s0 : State) (f : SwFrame) (dests : List Nat) : State :=
  let s := if f.corr = 0 then s0 else s0.bump fBUF_ECC_CORR f.corr
  let bad := s.crazedCause f
  let credited := match f.cmd with
    | some k => (s.sw.charged.find k).isSome
    | none => false
  let pl := if credited then Placement.onDie 0 0 else s.placement f dests
  let tail := fun (head shared ovf : Nat) =>
    let s := if ovf = 0 then s.sramCorr 1 f.corr else s
    if bad ≠ 0 then
      let s1 := if bad = 3 then
          (if ovf ≠ 0 then (s.capture pgBUF 0x02 ((s.takeOvf ovf).headD 0) 0).irqBit pgBUF 2
            else ((s.capture pgBUF 0x01 f.badBank f.badCell).irqBit pgBUF 1).sramUncorr 1 (2 ^ 20 * f.badBank + 32 * f.badCell))
        else s
      dests.foldl (fun t e => (if bad = 3 then t.cellLost f e else t).crazed f bad e) s1
    else s.enqueue f dests head shared ovf
  match pl with
  | .onDie h sh => tail h sh 0
  | .overflow => tail 0 0 (frameCells f)
  | .drop => s.inDrop f.cls
  | .ovfFull =>
    let s1 := s.inDrop f.cls
    if s.sw.ovfPosted then s1
    else ({ s1 with sw.ovfPosted := true }.irqBit pgBUF 0).event pgBUF 1 []

/-- A frame of a multicast write finds endpoints that do not take its copy; any other finds endpoints that are down. -/
def State.endpointDown (s : State) (f : SwFrame) (e : Nat) : Bool := if f.cmd.isSome then !s.epTakes e else !s.epOn e

/-- A frame that the switch takes is forwarded by its mask. -/
def State.forward (s : State) (f : SwFrame) : State :=
  if f.mask % 2 ^ 21 = 0 then ((s.bump fSW_NO_DEST).capture pgSW 0x01 f.src 0).irqBit pgSW 3
  else
    let dests := s.frameDests f
    let down := dests.filter (s.endpointDown f)
    let up := dests.filter (fun e => !s.endpointDown f e)
    let lost := down ++ (if s.peerLost f then [8] else [])
    let s1 := lost.foldl (fun t e =>
      let t1 := t.bump fSW_DEST_DOWN_DROP
      match f.cmd with
      | some k => t1.notDelivered k (mcDest e)
      | none => t1) s
    if up.isEmpty then s1 else s1.placeFrame f up

/-- The copies of a command's frames that wait toward one of its destinations end (R145, R152). -/
def State.dropCopies (s : State) (key d : Nat) : State :=
  (List.range 21).foldl (fun t ep =>
    if mcDest ep ≠ d then t
    else (List.range 8).foldl (fun u c =>
      let mine := (u.swQueue ep c).filter (fun id => (u.stored id).frame.cmd = some key)
      if mine.isEmpty then u
      else mine.foldl (fun v id => v.copyGone id ep) (u.setSwQueue ep c ((u.swQueue ep c).filter (fun id => !mine.contains id)))) t) s

/-- MC_HOLD_TIMEOUT: a copy of a multicast write has waited longer than HOLD_TIMEOUT_US (R145). -/
def execMcHoldTimeout (cmd dest : Nat) (s : State) : Res := .next ((s.notDelivered cmd dest).dropCopies cmd dest)

/-! ### Peer link members (R147) -/

/-- The frames queued on a member that is not up go to the next one in rotation, in order. -/
def State.moveQueues (s1 : State) (m : Nat) : State :=
  (List.range 8).foldl (fun t c =>
    let q := t.swQueue (8 + m) c
    let t1 := t.setSwQueue (8 + m) c []
    match t1.servingMember m with
    | some m' =>
      let fr := q.foldl (fun u id =>
        let st := u.get noFrame id
        u.put noFrame id { st with left := st.left.map (fun e => if e = 8 + m then 8 + m' else e) }) t1.sw.frames
      ({ t1 with sw.frames := fr }).setSwQueue (8 + m') c (t1.swQueue (8 + m') c ++ q)
    | none => q.foldl (fun u id => u.dropCopy id (8 + m)) t1) s1

/-- PEER_MEMBER_DOWN: the member's link is down. -/
def State.memberDown (s : State) (m : Nat) : State := (s.setFld (fPLINK_STAT_LINK_UP m) 0).moveQueues m

def execPeerMemberDown (member : Nat) (s : State) : Res := .next (if member < 4 then s.memberDown member else s)

/-- PLINK_LINK_UP: the entries of the pin table return to the member. -/
def execPlinkLinkUp (member : Nat) (s : State) : Res :=
  .next (if member < 4 ∧ s.domOn 20 ∧ s.fld (fPLINK_CTRL_LINK_EN member) = 1 then s.setFld (fPLINK_STAT_LINK_UP member) 1 else s)

/-! ### Egress (R149, R151) -/

/-- The quantum of a class of the deficit round-robin. -/
def State.quantum (s : State) (c : Nat) : Nat :=
  max 1 (if c = 1 then s.fld fSW_EGR_WEIGHT_W1 else if c = 2 then s.fld fSW_EGR_WEIGHT_W2
    else if c = 3 then s.fld fSW_EGR_WEIGHT_W3 else if c = 4 then s.fld fSW_EGR_WEIGHT_W4 else s.fld fSW_EGR_WEIGHT6_W6)

/-- The class after `c` in the round-robin of SC1-SC4 and SC6.
[DEDUCED: log entry 23] -/
def nextDrr (c : Nat) : Nat := if c = 1 then 2 else if c = 2 then 3 else if c = 3 then 4 else if c = 4 then 6 else 1

/-- The deficit round-robin of an endpoint: the class to serve, with the deficit counters and the turn.
[DEDUCED: log entry 23] -/
def drrPick (s : State) (ep : Nat) : Nat → Nat → Tab Nat → Option (Nat × Tab Nat)
  | 0, _, _ => none
  | f + 1, c, d =>
    let k := 8 * ep + c
    let move := fun (d1 : Tab Nat) =>
      let n := nextDrr c
      drrPick s ep f n (d1.put 0 (8 * ep + n) (d1.get 0 (8 * ep + n) + s.quantum n))
    match s.swQueue ep c with
    | [] => move (d.put 0 k 0)
    | id :: _ =>
      let n := frameCells (s.stored id).frame
      if n ≤ d.get 0 k then some (c, d.put 0 k (d.get 0 k - n)) else move d

/-- The class that an endpoint serves next (R149).
[DEDUCED: log entry 23] -/
def State.serveClass (s : State) (ep : Nat) : Option (Nat × Tab Nat) :=
  if !(s.swQueue ep 7).isEmpty then some (7, s.sw.deficit)
  else if !(s.swQueue ep 5).isEmpty then some (5, s.sw.deficit)
  else if !(s.swQueue ep 0).isEmpty then some (0, s.sw.deficit)
  else
    let heads := [1, 2, 3, 4, 6].flatMap (fun c => (s.swQueue ep c).take 1)
    if heads.isEmpty then none
    else
      let big := heads.foldl (fun n id => max n (frameCells (s.stored id).frame)) 0
      drrPick s ep (5 * (big + 2)) (s.sw.turn.get 1 ep) s.sw.deficit

/-- A host port sends a frame. An IEEE 1588 event message takes its transmit timestamp (R62): a one-step Sync carries it, and for any other the
queue of 64 takes it, or it is lost and counted. The subport is the one whose MAC address is the frame's source.
[DEDUCED: log entry 91] -/
def State.portSends (s : State) (ep : Nat) (f : SwFrame) : State :=
  let bs := f.hdr ++ f.payload
  match if ep < 8 ∧ !f.ldt then ptpAt bs else none with
  | none => s.emit (.swOut ep f)
  | some k =>
    if ptpOneStep bs k then
      let g := ptpStamp bs k s.now
      s.emit (.swOut ep { f with hdr := g.take f.hdr.length, payload := g.drop f.hdr.length })
    else
      let sub := ((List.range 4).find? (fun i => s.reg64 (rHPORT_MAC ep i) = unBe (slice bs 6 6))).getD 0
      let e : TxTs := { port := 4 * ep + sub, msgType := (bs.getD k 0).toNat % 16, seqId := unBe (slice bs (k + 30) 2), value := s.now }
      let s1 := s.emit (.swOut ep f)
      if s1.plat.time.txts.length < 64 then { s1 with plat.time.txts := s1.plat.time.txts ++ [e] } else s1.bump fTIME_TXTS_DROP

/-- The payload of a spilled frame, read back from the overflow area. -/
def readOvf (s : State) (base : Nat) : List Nat → Nat → List Byte
  | [], _ => []
  | i :: l, n => s.hbmRead (base + 256 * i) (min 256 n) ++ readOvf s base l (n - 256)

/-- The cells of a spilled frame whose HBM sectors needed correction, counted in BUF.ECC_CORR (R151). -/
def State.ovfCorr (s : State) (base : Nat) (cells : List Nat) : Nat :=
  (cells.filter (fun i => (List.range 4).any (fun j => s.mem.soft.contains ((base + 256 * i) / 64 + j)))).length

/-- An endpoint sends its next frame. Overflow cells are read back; an uncorrectable error there crazes the frame (R151). -/
def State.egressOne (s : State) (ep : Nat) : State :=
  match s.serveClass ep with
  | none => s
  | some (c, d) =>
    match s.swQueue ep c with
    | [] => s
    | id :: q =>
      let st := s.stored id
      let s1 := ({ s with sw.deficit := d, sw.turn := if c = 0 ∨ c = 5 ∨ c = 7 then s.sw.turn else s.sw.turn.put 1 ep c }).setSwQueue ep c q
      let base := s1.reg64 rBUF_OVF_BASE
      let corr := s1.ovfCorr base st.ovfAt
      let s1 := if corr = 0 then s1 else s1.bump fBUF_ECC_CORR corr
      let s2 := match st.ovfAt.find? (fun i => s1.hbmErr (base + 256 * i) 256) with
        | some i => (((s1.capture pgBUF 0x02 i 0).irqBit pgBUF 2).cellLost st.frame ep).crazed st.frame 3 ep
        | none =>
          s1.portSends ep (if st.ovfAt.isEmpty then st.frame
            else { st.frame with payload := readOvf s1 base st.ovfAt st.frame.payload.length })
      s2.copyGone id ep

/-- An endpoint may send: a member of the peer link only while it is up (R147). -/
def State.epSends (s : State) (ep : Nat) : Bool := if 8 ≤ ep ∧ ep < 12 then s.memberUp (ep - 8) else s.epOn ep

/-- Every endpoint sends one frame. What waits on a member that is not up moves first. -/
def State.egress (s : State) : State :=
  if s.sw.frames.isEmpty ∨ !s.working pgSW then s
  else
    let s1 := (List.range 4).foldl (fun t m => if t.memberUp m then t else t.moveQueues m) s
    (List.range 21).foldl (fun t ep => if t.epSends ep then t.egressOne ep else t) s1

/-! ### A frame at an input (R134, R135, R152) -/

/-- Cut-through (R135): an internal endpoint whose queues were empty takes the frame that has just been put into its queue. A spilled
frame never goes so (R151).
[DEDUCED: log entry 23] -/
def State.cutThrough (s0 s : State) : State :=
  if s0.fld fSW_CTRL_CT_EN = 0 ∨ s.sw.nextId = s0.sw.nextId then s
  else
    let st := s.stored s0.sw.nextId
    if st.ovf ≠ 0 then s
    else st.left.foldl (fun t e =>
      if isExternal e ∨ !t.epSends e ∨ (List.range 8).any (fun c => !(s0.swQueue e c).isEmpty) then t else t.egressOne e) s

/-- A frame arrives at an input of the switch. While SW is not in Run an external endpoint's frame is dropped, and an internal endpoint
holds its own (R152).
[DEDUCED: log entry 23] -/
def State.frameInput (s : State) (f : SwFrame) : State :=
  if s.runs pgSW then s.cutThrough (s.forward f)
  else if isExternal f.src then s.inDrop f.cls
  else { s with sw.heldIn := s.sw.heldIn ++ [f] }

/-- SW is in Run: the frames that internal endpoints held enter, oldest first. -/
def State.inputHeld (s : State) : State := s.sw.heldIn.foldl State.frameInput { s with sw.heldIn := [] }

/-- A frame of an admitted command is in its command's class (R140). -/
def State.inClass (s : State) (f : SwFrame) : SwFrame :=
  match f.cmd with
  | some k => match s.sw.charged.find k with
    | some e => { f with cls := e.1 }
    | none => f
  | none => f

/-- SW_FRAME_INPUT. A class is one of SC0-SC7 and a source an endpoint. -/
def execSwFrameInput (f : SwFrame) (s : State) : Res :=
  .next (if f.cls < 8 ∧ f.src < 21 then s.frameInput (s.inClass f) else s)

/-- A frame that its port hands to the control cores' network interface (R67, R134): its headers are Ethernet, IP and UDP or TCP, up to
128 bytes (R132).
[DESIGN CHOICE: log entry 121] -/
def coreFrame (src : Nat) (frame : List Byte) : SwFrame :=
  let n := min 128 (l4Start frame + ((l4Of frame).map L4.headLen).getD 0)
  let ecn := ((l4Of frame).map L4.ecn).getD 0
  { src := src, cls := 7, mask := 2 ^ 19, hdr := frame.take n, payload := frame.drop n, flow := [], ect := ecn = 1 || ecn = 2, ce := ecn = 3,
    cmd := none, bad := 0, badBank := 0, badCell := 0, ldt := false, len := frame.length - n }

/-! ### Reset (R152) -/

/-- A reset of SW ends every queued frame and frees every cell; each multicast write in flight fails at all its destinations. -/
def State.swReset (s : State) : State :=
  let s1 := { s with sw := { s.sw with frames := [], queues := [], deficit := [], turn := [], charged := [], ovfPosted := false } }
  s1.nvf.cmds.foldl (fun t e => (List.range 3).foldl (fun u d => u.notDelivered e.1 d) t) s1

end Sys2Proof.Machine
end

