-- ==== Sys2Proof/Machine/TenOps.lean ====
section
/-! DEFINITION. Token buckets, counts of the open minute and histogram samples (R383-R394). -/

namespace Sys2Proof.Machine

/-! ### Limits (R384-R386) -/

def State.lim (s : State) (t : Nat) : Limit := s.ten.limits.get {} t
def State.limAddr (s : State) (t : Nat) : Nat := s.reg64 rQOS_LIM_BASE + 64 * t

/-- Commands of the tenant on the hold list. -/
def State.heldOf (s : State) (t : Nat) : Nat := (s.nvf.held.filter (fun k => (s.nvCmd k).tenant = t)).length

/-- The 64 bytes of a limit-table entry. -/
def Limit.bytes (l : Limit) (held : Nat) : List Byte :=
  le 4 l.iopsRate ++ le 4 l.iopsBurst ++ le 4 l.bwRate ++ le 4 l.bwBurst ++ le 8 (BitVec.ofInt 64 l.ops).toNat
    ++ le 8 (BitVec.ofInt 64 l.bw).toNat ++ le 8 l.refill ++ le 2 (b2n l.meter + 2 * b2n (held ≠ 0)) ++ zeros 2 ++ le 4 held ++ zeros 16

/-- [DESIGN CHOICE: log entry 16] -/
def State.setLim (s : State) (t : Nat) (l : Limit) : State :=
  { s with ten.limits := s.ten.limits.put {} t l }.hbmWrite (s.limAddr t) (l.bytes (s.heldOf t))

/-- The entry meets an uncorrectable HBM error (R396). -/
def State.limBad (s : State) (t : Nat) : Bool := s.hbmErr (s.limAddr t) 64
def State.limError (s : State) (t : Nat) : State := ((s.noteErr (s.limAddr t) 64).capture pgQOS 0x01 t 0).irqBit pgQOS 0

/-- One bucket refilled exactly: `rate` level units per second over `dt` ns with the remainder carried, capped at `burst`. -/
def refillLevel (level : Int) (rem rate dt burst : Nat) : Int × Nat :=
  let n := rate * dt + rem
  let l := level + (n / 10 ^ 9 : Nat)
  if (burst : Int) ≤ l then (burst, 0) else (l, n % 10 ^ 9)

/-- Both buckets refilled to `now`. -/
def Limit.refilled (l : Limit) (now : Nat) : Limit :=
  let dt := now - l.refill
  let o := if l.iopsRate = 0 then (l.ops, l.opsRem) else refillLevel l.ops l.opsRem (l.iopsRate * 2 ^ 32) dt (l.iopsBurst * 2 ^ 32)
  let b := if l.bwRate = 0 then (l.bw, l.bwRem)
    else refillLevel l.bw l.bwRem (l.bwRate * 10 ^ 6 * 2 ^ 16) dt (l.bwBurst * 1024 * 2 ^ 16)
  { l with ops := o.1, opsRem := o.2, bw := b.1, bwRem := b.2, refill := now }

/-- Every limited bucket is above 0. -/
def Limit.open_ (l : Limit) : Bool := (l.iopsRate = 0 || decide (0 < l.ops)) && (l.bwRate = 0 || decide (0 < l.bw))

/-- The charge of one operation and `bytes` bytes. -/
def Limit.charge (l : Limit) (bytes : Nat) : Limit :=
  { l with ops := if l.iopsRate = 0 then l.ops else l.ops - 2 ^ 32, bw := if l.bwRate = 0 then l.bw else l.bw - (bytes * 2 ^ 16 : Nat) }

/-- The admission test of R385; a bad entry passes unlimited. -/
def State.qosPass (s : State) (t bytes : Nat) : State × Bool :=
  if s.limBad t then (s.limError t, true)
  else
    let l := (s.lim t).refilled s.now
    if l.open_ then (s.setLim t (l.charge bytes), true) else (s.setLim t l, false)

/-! ### Counts (R387, R388) -/

def State.tally (s : State) (t : Nat) : TallyCnt := s.ten.counts.get {} t
def State.metered (s : State) (t : Nat) : Bool := (s.lim t).meter && !s.limBad t
def State.modTally (s : State) (t : Nat) (f : TallyCnt → TallyCnt) : State :=
  if s.metered t then { s with ten.counts := s.ten.counts.put {} t (f (s.tally t)) } else s

/-! ### Histograms (R393) -/

/-- The counter of a sample of `v` ns. -/
def histIdx (v : Nat) : Nat :=
  if v < 1024 then 0 else if 2 ^ 36 ≤ v then 833
  else let e := Nat.log2 v; 1 + 32 * (e - 10) + v / 2 ^ (e - 5) % 32

/-- A tenant's block of a class in HBM. -/
def State.histAddr (s : State) (t cls : Nat) : Nat := s.reg64 rQOS_HIST_BASE + 4096 * (5 * t + cls)

/-- One sample, unless the block is damaged: then it is zeroed with DAMAGED = 1. -/
def State.histSample (s : State) (t cls v : Nat) : State :=
  let a := s.histAddr t cls
  let s0 := s.bump fQOS_SAMPLES
  let s1 := if s.hbmErr a 4096 then
      (((s0.noteErr a 4096).capture pgQOS 0x02 t 0).irqBit pgQOS 0).hbmWrite a (zeros 0xD10 ++ le 4 2 ++ zeros (4096 - 0xD14))
    else s0
  let i := histIdx v
  let n := s1.hbmNat (a + 4 * i) 4
  let n1 := min 0xFFFFFFFF (n + 1)
  let s2 := (s1.hbmWrite (a + 4 * i) (le 4 n1)).hbmWrite (a + 0xD08) (le 8 (s1.hbmNat (a + 0xD08) 8 + 1))
  if n1 = 0xFFFFFFFF then s2.hbmWrite (a + 0xD10) (le 4 (s2.hbmNat (a + 0xD10) 4 ||| 1)) else s2

end Sys2Proof.Machine
end

