-- ==== Sys2Proof/Machine/NvfBase.lean ====
section
/-! DEFINITION. Commands of the front end as they lie in State: their fields, their PDUs and capsules, and how one ends
(R112-R117, R123, R127, R129, R387). -/

namespace Sys2Proof.Machine

/-! ### NVMe/TCP streams (R116, R117) -/

def State.conn (s : State) (c : Nat) : Conn := s.conns.get {} c
def State.setConn (s : State) (c : Nat) (v : Conn) : State := { s with conns := s.conns.put {} c v }
def State.modConn (s : State) (c : Nat) (f : Conn → Conn) : State := s.setConn c (f (s.conn c))

/-- The SACK ranges of the segments held out of order. -/
def Conn.sack (c : Conn) : List (Nat × Nat) := c.ooo.map (fun e => (e.1, (e.1 + e.2.length) % 2 ^ 32))

/-- The timestamps of a segment on a connection whose host sends them: TSval counts microseconds.
[PRESUMED: log entry 120] -/
def State.tcpClock (s : State) : Nat := s.now / 1000 % 2 ^ 32
def State.tcpStamp (s : State) (x : Conn) : Option (Nat × Nat) := x.ts.map (fun e => (s.tcpClock, e))

/-- The retransmission timeout in microseconds: doubled on each expiry, up to RTO_MAX_MS (R116).
[DESIGN CHOICE: log entry 34] -/
def State.tcpRto (s : State) (x : Conn) : Nat :=
  min (1000 * s.fld fNVTCP_RTO_CFG_RTO_MAX_MS) (max (s.fld fNVTCP_RTO_CFG_RTO_MIN_US) (x.srtt + 4 * x.rttvar) * 2 ^ x.expiries)

/-- A round-trip sample of `m` microseconds.
[PRESUMED: log entry 120] -/
def Conn.rttSample (x : Conn) (m : Nat) : Conn :=
  if x.hasRtt then { x with rttvar := (3 * x.rttvar + (if x.srtt ≤ m then m - x.srtt else x.srtt - m)) / 4, srtt := (7 * x.srtt + m) / 8 }
  else { x with srtt := m, rttvar := m / 2, hasRtt := true }

/-- The queue context that a connection serves; none before its Connect has completed. -/
def State.connCtx (s : State) (c : Nat) : Option Nat :=
  (s.ctx.ctxs.find? (fun e => e.2.valid && e.2.tcp && e.2.assoc = c)).map Prod.fst

/-- The window field of a segment: the room in the receive window of 1 MiB, scaled by 7 when the SYN brought a scale (R116). -/
def Conn.window (x : Conn) : Nat :=
  let room := 2 ^ 20 - x.stream.length
  if x.scale.isSome then room / 128 else min 65535 room

/-- The switch class of a segment: its context's when it carries data, and SC7 otherwise (R140). -/
def State.segClass (s : State) (c : Nat) (payload : List Byte) : Nat :=
  match s.connCtx c with
  | some k => if payload.isEmpty then 7 else (s.qctx k).cls
  | none => 7

/-- One segment leaves: 2 ACK, 8 ECE, and 16 CWR on the first data after a halving. ECN is used when the SYN asked for it, and SACK
when it permitted it. -/
def State.tcpEmit (s : State) (c seq flags : Nat) (payload : List Byte) : State :=
  let x := s.conn c
  let cwr := x.ecn && x.cwr && !payload.isEmpty
  (if cwr then s.setConn c { x with cwr := false } else s).emit
    (.tcpSegment c seq x.rcvNxt (flags + 8 * b2n (x.ecn && x.ece) + 16 * b2n cwr)
      { ts := s.tcpStamp x, sack := if x.sackOk then x.sack else [], win := x.window, cls := s.segClass c payload } payload)

/-- The largest payload of a segment: what the connection's MSS options allow. -/
def State.tcpMss (s : State) (x : Conn) : Nat := max 1 (min (s.fld fNVTCP_MSS) x.hostMss)

/-- The cells of a Read are released as the bytes of the stream that carry its data leave (R142). -/
def State.tcpDrain (s : State) (c : Nat) : State :=
  let x := s.conn c
  let left := fun (e : Nat × Nat) => if psnLe e.2 x.sndNxt then 0 else ceilDiv (psnSub e.2 x.sndNxt) 256
  (x.cells.foldl (fun t e => t.drainCells e.1 ((t.sw.charged.get (0, 0) e.1).2 - left e)) s).modConn c
    (fun y => { y with cells := y.cells.filter (fun e => left e ≠ 0) })

/-- Send what the congestion window and the host's window allow of the bytes that wait, segment by segment.
[DESIGN CHOICE: log entry 34] -/
def State.tcpPump : Nat → State → Nat → State
  | 0, s, _ => s
  | f + 1, s, c =>
    let x := s.conn c
    let out := psnSub x.sndNxt x.sndUna
    let rest := x.unacked.drop out
    if rest.isEmpty ∨ min x.cwnd x.sndWnd ≤ out ∨ !x.isOpen then s
    else
      let seg := rest.take (min (s.tcpMss x) (x.sndWnd - out))
      State.tcpPump f (((s.tcpEmit c x.sndNxt 2 seg).modConn c (fun y => { y with sndNxt := psnMod (y.sndNxt + seg.length) })).tcpDrain c) c

/-- Bytes go into a connection's stream. -/
def State.tcpSend (s : State) (c : Nat) (bs : List Byte) : State :=
  if !(s.conn c).isOpen then s else
  let s1 := s.modConn c (fun x => { x with unacked := x.unacked ++ bs })
  State.tcpPump ((s1.conn c).unacked.length + 1) s1 c

/-- A CRC-32C digest of PDU bytes. -/
def pduDigest (bs : List Byte) : List Byte := le 4 (crc32c 0xFFFFFFFF bs)

/-- A PDU of `type` with its specific header and data, with the digests that the connection uses; `flags` beside the digest flags. -/
def Conn.pdu (c : Conn) (type flags : Nat) (specific data : List Byte) : List Byte :=
  let hlen := 8 + specific.length
  let dig := c.icDone && type ≠ 1 && type ≠ 3
  let hd := c.hdgst && dig
  let dd := c.ddgst && dig && !data.isEmpty
  let head := hlen + 4 * b2n hd
  let align := 4 * (c.hpda + 1)
  let pdo := if data.isEmpty then 0 else ceilDiv head align * align
  let plen := if data.isEmpty then head else pdo + data.length + 4 * b2n dd
  let hdr := le 1 type ++ le 1 (flags + b2n hd + 2 * b2n dd) ++ le 1 hlen ++ le 1 (if type = 3 then 0 else pdo) ++ le 4 plen ++ specific
  if data.isEmpty then hdr ++ (if hd then pduDigest hdr else [])
  else hdr ++ (if hd then pduDigest hdr else []) ++ zeros (pdo - head) ++ data ++ (if dd then pduDigest data else [])

/-! ### Command keys and submission queue entries -/

/-- The key of a command on a queue context, and of a Connect over LDT and over NVMe/TCP. -/
def cmdKey (ctx cid : Nat) : Nat := 65536 * ctx + cid
def connectKey (tcp : Bool) (assoc cid : Nat) : Nat := 2 ^ 36 + 2 ^ 36 * b2n tcp + 65536 * assoc + cid

/-- Fields of a submission queue entry. -/
def sqeField (sqe : List Byte) (off n : Nat) : Nat := unLe (slice sqe off n)
def NvCmd.opc (c : NvCmd) : Nat := sqeField c.sqe 0 1
def NvCmd.nsid (c : NvCmd) : Nat := sqeField c.sqe 4 4
def NvCmd.slba (c : NvCmd) : Nat := sqeField c.sqe 40 8
def NvCmd.cdw10 (c : NvCmd) : Nat := sqeField c.sqe 40 4
/-- The ranges that a Dataset Management command brings. -/
def NvCmd.dsmRanges (c : NvCmd) : Nat := c.cdw10 % 256 + 1
def NvCmd.cdw11 (c : NvCmd) : Nat := sqeField c.sqe 44 4
def NvCmd.cdw12 (c : NvCmd) : Nat := sqeField c.sqe 48 4
/-- Blocks: NLB is 0's-based. -/
def NvCmd.nlb (c : NvCmd) : Nat := c.cdw12 % 65536 + 1
def NvCmd.fua (c : NvCmd) : Bool := c.cdw12.testBit 30
def NvCmd.deac (c : NvCmd) : Bool := c.cdw12.testBit 25
/-- PRINFO: PRACT and the checks of guard, application tag and reference tag. -/
def NvCmd.prinfo (c : NvCmd) : Nat := getBits c.cdw12 29 26
def NvCmd.pract (c : NvCmd) : Bool := c.cdw12.testBit 29
def NvCmd.lbat (c : NvCmd) : Nat := sqeField c.sqe 60 2
def NvCmd.lbatm (c : NvCmd) : Nat := sqeField c.sqe 62 2
/-- The SGL descriptor: its type byte, address, and length and key. -/
def NvCmd.sglType (c : NvCmd) : Nat := sqeField c.sqe 39 1
def NvCmd.sglAddr (c : NvCmd) : Nat := sqeField c.sqe 24 8
def NvCmd.sglLen (c : NvCmd) : Nat := if c.sglType = 0x40 then sqeField c.sqe 32 3 else sqeField c.sqe 32 4
def NvCmd.sglKey (c : NvCmd) : Nat := sqeField c.sqe 35 4
/-- Bytes per logical block on the wire (R126). -/
def NvCmd.blk (c : NvCmd) : Nat := if c.format then 4112 else 4096

/-- The opcodes of R112. -/
def ocFlush : Nat := 0x00
def ocWrite : Nat := 0x01
def ocRead : Nat := 0x02
def ocCompare : Nat := 0x05
def ocWriteZeroes : Nat := 0x08
def ocDsm : Nat := 0x09
def ocVerify : Nat := 0x0C
/-- Commands that the hardware executes, and those handed over. -/
def ocHardware : List Nat := [0x00, 0x01, 0x02, 0x05, 0x08, 0x09, 0x0C]
def ocSoftware : List Nat := [0x0D, 0x0E, 0x11, 0x15, 0x19]

/-- The Deallocate attribute of a Dataset Management command. -/
def NvCmd.dealloc (c : NvCmd) : Bool := c.cdw11.testBit 2
/-- The command changes blocks: Dataset Management does only with Deallocate (R125). -/
def NvCmd.writes (c : NvCmd) : Bool := !c.admin && (c.opc = ocWrite || c.opc = ocWriteZeroes || (c.opc = ocDsm && c.dealloc))
/-- It has a declared length (R126). -/
def NvCmd.isData (c : NvCmd) : Bool := c.opc = ocWrite || c.opc = ocRead || c.opc = ocCompare

/-! ### Statuses: 256 * SCT + SC (R127) -/

def scOk : Nat := 0
def scOpcode : Nat := 0x001
def scField : Nat := 0x002
def scConflict : Nat := 0x003
def scTransfer : Nat := 0x004
def scInternal : Nat := 0x006
def scAborted : Nat := 0x007
def scSqDeleted : Nat := 0x008
def scNamespace : Nat := 0x00B
def scSglLen : Nat := 0x00F
def scSglType : Nat := 0x011
def scWrProt : Nat := 0x020
def scTransient : Nat := 0x022
def scLba : Nat := 0x080
def scCapacity : Nat := 0x081
def scUnrecovered : Nat := 0x281
def scGuard : Nat := 0x282
def scAppTag : Nat := 0x283
def scRefTag : Nat := 0x284
def scCompare : Nat := 0x285
def scAnaLoss : Nat := 0x301
def scAnaInacc : Nat := 0x302
def scAnaTrans : Nat := 0x303
def scPowered : Nat := 0x7C0
def scDraining : Nat := 0x7C1

/-! ### Namespaces (R129, R13) -/

def State.ns (s : State) (n : Nat) : NsEnt := s.nvf.ns.get {} n

/-- The 16 bytes of a namespace entry. -/
def NsEnt.bytes (e : NsEnt) : List Byte :=
  le 4 e.vol ++ le 2 e.tenant
    ++ le 1 (b2n e.attached + 2 * b2n e.format + 4 * b2n e.piEn + 8 * b2n e.wprot + 16 * b2n e.fuaMedium)
    ++ le 1 (e.dpCfg + 4 * e.dpEff + 16 * e.ana) ++ le 4 e.anaGrp ++ zeros 4

def State.nsAddr (s : State) (n : Nat) : Nat := s.reg64 rNVF_NS_BASE + 16 * (n - 1)
def State.setNs (s : State) (n : Nat) (e : NsEnt) : State :=
  { s with nvf.ns := s.nvf.ns.put {} n e }.hbmWrite (s.nsAddr n) e.bytes

/-- Why the durability point of this head is Medium whatever is configured: the reasons of DP_CHANGE. -/
def State.dpReason (s : State) : Option Nat :=
  if s.plat.chip.shelf ∧ s.plat.chip.heads < 2 then some 4
  else if s.peerState ≠ psPaired then some 2
  else if s.mirror ≠ msHealthy then some 1
  else none

/-- The effective point of an entry (R13): 0 Mirrored, 1 Medium.
[DEDUCED: log entry 93] -/
def State.effective (s : State) (e : NsEnt) : Nat := if e.dpCfg ≠ 0 ∨ s.dpReason.isSome then 1 else 0

/-- Every namespace's effective point is computed again; each change posts DP_CHANGE. -/
def State.recomputeDp (s : State) : State :=
  s.nvf.ns.foldl (fun t e =>
    let new := t.effective e.2
    if e.2.dpEff = new ∨ !e.2.attached then t
    else ((t.setNs e.1 { e.2 with dpEff := new }).irqBit pgNVF 2).event pgNVF 1
      (le 4 e.1 ++ le 1 e.2.dpEff ++ le 1 new ++ le 2 (t.dpReason.getD 3))) s

/-! ### Completions (R114, R387, R393) -/

/-- The 16 bytes of a completion queue entry; the phase tag is the host's own. -/
def cqe (dw0 dw1 sqhd sqid cid status15 : Nat) : List Byte :=
  le 4 dw0 ++ le 4 dw1 ++ le 2 sqhd ++ le 2 sqid ++ le 2 cid ++ le 2 (2 * status15)

/-- A Connect disables SQ flow control: bit 2 of CATTR.
[PRESUMED: log entry 119] -/
def NvCmd.catNoFlow (c : NvCmd) : Bool := (sqeField c.sqe 46 1).testBit 2
/-- The completion belongs to a queue without SQ flow control. -/
def NvCmd.noFlow (c : NvCmd) (q : QCtx) : Bool := if c.connect then c.catNoFlow else q.noFlow

/-- Send a completion to its host: the submission slot is freed. Without SQ flow control SQHD reads 0xFFFF (R114).
[DEDUCED: log entry 93] -/
def State.sendCqe (s : State) (c : NvCmd) (status15 dw0 dw1 : Nat) : State :=
  let q := s.qctx c.ctx
  let head := if c.connect then 0 else (q.sqhd + 1) % (q.size + 1)
  let s1 := if c.connect then s else s.setQctx c.ctx { q with sqhd := head, inSlots := q.inSlots - 1 }
  let e := cqe dw0 dw1 (if c.noFlow q then 0xFFFF else head) (if c.connect then 0 else q.qid) c.cid status15
  if c.tcp then s1.tcpSend c.assoc ((s1.conn c.assoc).pdu 5 0 e [])
  else s1.startOp c.assoc { type := 0x20, target := if c.connect then 2 ^ 31 else c.ctx, msgLen := 16,
                               cls := if c.connect then 7 else c.cls } none e pgNVF noWait 0

/-- A completion is dropped (R131): the slot is freed without it. -/
def State.dropCqe (s : State) (c : NvCmd) : State :=
  let q := s.qctx c.ctx
  if c.connect then s else s.setQctx c.ctx { q with inSlots := q.inSlots - 1 }

/-- A command ends for the counts (R387, R388) and, when its completion is sent, for the histogram. -/
def State.countEnd (s : State) (c : NvCmd) (ok sent : Bool) : State :=
  if c.admin ∨ c.connect then s
  else
    let s1 := s.modTally c.tenant (fun t =>
      if c.opc = ocRead then { t with readOps := t.readOps + 1, readBlocks := t.readBlocks + (if ok then c.nlb else 0) }
      else if c.opc = ocWrite then { t with writeOps := t.writeOps + 1, writeBlocks := t.writeBlocks + (if ok then c.nlb else 0) }
      else { t with otherOps := t.otherOps + 1 })
    if sent then s1.histSample c.tenant c.cls (s.now - c.arrive) else s1

/-- A command of SLIP's own has ended: its replica learns how (R241). -/
def State.applyEnded (s : State) (v seq : Nat) (ok : Bool) : State :=
  let r := s.slip.reps.get {} v
  { s with slip.reps := s.slip.reps.put {} v { r with overs := r.overs ++ [(seq, ok)] } }

/-- The completion of a command goes out with a status, or is dropped because its queue is being deleted. -/
def State.complete (s : State) (c : NvCmd) (status dw0 dw1 : Nat) : State :=
  match c.apply with
  | some v => s.applyEnded v (c.repSeq.getD 0) (status = 0)
  | none =>
  let drop := !c.connect && ((s.qctx c.ctx).deleting.isSome || !(s.qctx c.ctx).valid)
  let s1 := if drop then s.dropCqe c else s.sendCqe c status dw0 dw1
  s1.countEnd c (status = 0) (!drop)

/-! ### What a command holds -/

/-- Free staging units that this head may take (R352). -/
def State.stageFree (s : State) : Nat :=
  let used := s.nvf.cmds.foldl (fun n e => n + e.2.stage) 0
  256 * s.nvf.poolMib - 512 * s.peer.runsPeer.length - used

def State.ovlUsed (s : State) : Nat := s.nvf.cmds.foldl (fun n e => n + e.2.ovl) 0

/-- A QUEUE_DELETE that waits goes on once no admitted command of its context is left.
[DEDUCED: log entry 36] -/
def State.queuePump (s : State) (ctx : Nat) : State :=
  match (s.qctx ctx).deleting with
  | some q =>
    if s.nvf.cmds.any (fun e => e.2.ctx = ctx && !e.2.connect && e.2.phase = .admitted) then s
    else { s with ctx.ctxs := s.ctx.ctxs.put {} ctx {}, ctx.resident := s.ctx.resident.filter (· ≠ ctx),
                  ctx.refbits := s.ctx.refbits.filter (· ≠ ctx) }.finishRunning q 0 stOk
  | none => s

/-- A command leaves the front end: its cells, its reserved grains, its reads and its blocks that were dedup hits go. -/
def State.forget (s : State) (key : Nat) : State :=
  let c := s.nvCmd key
  let s1 := (if c.rsv = 0 then s else (s.modTen c.tenant (fun t => { t with rsvGrains := t.rsvGrains - c.rsv })).commitTables).releaseCells key
  let s2 := { s1 with
    nvf.cmds := s1.nvf.cmds.del key
    nvf.held := s1.nvf.held.filter (· ≠ key)
    nvf.queues := (s1.nvf.queues.map (fun (q : Nat × List Nat) => (q.1, q.2.filter (· ≠ key)))).filter (fun q => !q.2.isEmpty)
    nvf.waitWrite := if s1.nvf.waitWrite = some key then none else s1.nvf.waitWrite
    ware.reads := s1.ware.reads.filter (fun e => e.2.cmd ≠ key)
    ware.units := s1.ware.units.filter (fun e => !(e.2.cmd = key && e.2.phase = UnitPhase.done)) }
  s2.queuePump c.ctx

/-- A command that holds nothing beyond its completion ends.
[DEDUCED: log entry 48] -/
def State.endCmd (s : State) (key status : Nat) (dw0 : Nat := 0) : State :=
  (s.complete (s.nvCmd key) status dw0 0).forget key

end Sys2Proof.Machine
end

