-- ==== Sys2Proof/Machine/Lmap.lean ====
section
/-! DEFINITION. The commands of LMAP and MOULD: volumes, tenants, moulds, consistency groups and clones (R217-R218,
R225-R236). -/

namespace Sys2Proof.Machine

/-! ### Statuses (R236) -/

def lsBadArg : Nat := 1
def lsNotFree : Nat := 2
def lsTenant : Nat := 3
def lsReadOnly : Nat := 4
def lsHasMoulds : Nat := 5
def lsHasClones : Nat := 6
def lsNotSealed : Nat := 7
def lsLimit : Nat := 8
def lsBusy : Nat := 9

/-- A domain or a key slot of another tenant (R218). An Unused domain and an empty slot have no tenant. -/
def State.foreignDomain (s : State) (dom tenant : Nat) : Bool := (s.domEnt dom).st ≠ 0 && (s.domEnt dom).tenant ≠ tenant
def State.foreignSlot (s : State) (slot tenant : Nat) : Bool :=
  !(s.keyRec slot).wrapped.isEmpty && (s.keyRec slot).tenant ≠ tenant

/-- A tenant without a home group takes no volume at a head that has a peer (R344). -/
def State.homeless (s : State) (t : Nat) : Bool := decide (2 ≤ s.plat.chip.heads) && s.homeOf t = 0xFF

/-- VOL_CREATE (R236).
[DEDUCED: log entry 24, 53, 99] -/
def execVolCreate (h : CmdHdr) (vol tenant domain keySlot size : Nat) (s : State) : Res :=
  .next (s.simpleCmd h pgLMAP 0x0100 fun t =>
    if size = 0 ∨ 2 ^ 36 < size ∨ 65536 ≤ vol ∨ 16384 ≤ tenant ∨ (t.arrayMode ∧ 4096 ≤ domain) ∨ t.homeless tenant then (t, lsBadArg)
    else if (t.vol vol).kind ≠ 0 then (t, lsNotFree)
    else if t.arrayMode ∧ (t.foreignDomain domain tenant ∨ t.foreignSlot keySlot tenant) then (t, lsTenant)
    else
      ((t.setVol vol { size := size, tenant := tenant, domain := if t.arrayMode then domain else 0,
                       keySlot := if t.arrayMode then keySlot else 0, kind := 1, levels := t.levelsFor size }).commit
        [tableRec 0 vol], stOk))

/-- A greater depth: new roots whose entry 0 points to the old one (R219). -/
def State.deepen : Nat → State → Nat → Nat → State × List DeltaRec
  | 0, s, _, _ => (s, [])
  | f + 1, s, v, levels =>
    let x := s.vol v
    if levels ≤ x.levels then (s, [])
    else if x.root = 0 then (s.setVol v { x with levels := levels }, [])
    else
      let r := s.newPage (s.homeGroup x.tenant)
        { level := x.levels + 1, owner := v, birth := x.epoch, ents := [(0, { a := x.root, b := x.rootOwner, c := x.rootBirth })] }
      let s1 := r.1.setVol v { x with root := r.2, rootOwner := v, rootBirth := x.epoch, levels := x.levels + 1 }
      let d := s1.deepen f v levels
      (d.1, { kind := 5, vol := v, aux := x.epoch, key := x.root, value := r.2 } :: d.2)

/-- Blocks of the current tree from `size` up are deallocated. -/
def State.truncate (s : State) (v size : Nat) : State × List DeltaRec :=
  let x := s.vol v
  State.foldRecs (fun t (e : Nat × MapEnt) => t.setCurrent v e.1 {} false) (s.entriesIn size x.size x.levels x.root 0) s []

/-- A smaller depth: the root's entry 0 becomes the root (R219). -/
def State.shallow : Nat → State → Nat → Nat → State × List DeltaRec
  | 0, s, _, _ => (s, [])
  | f + 1, s, v, levels =>
    let x := s.vol v
    if x.levels ≤ levels then (s, [])
    else if x.root = 0 then (s.setVol v { x with levels := levels }, [])
    else
      let e := (s.tpage x.root).ents.get {} 0
      let k := x.levels - 1
      let r := if e.lost then
          let p := s.newPage (s.homeGroup x.tenant) (lostPage k s.leafCap v x.epoch)
          p.1.setVol v { x with root := p.2, rootOwner := v, rootBirth := x.epoch, levels := k }
        else s.setVol v { x with root := e.a, rootOwner := e.b, rootBirth := e.c, levels := k }
      let d := r.shallow f v levels
      (d.1, { kind := 5, vol := v, aux := x.epoch, key := x.root, value := (r.vol v).root } :: d.2)

/-- The tree of a volume takes the depth of a smaller size; the pages that no tree reaches any more are freed.
[DEDUCED: log entry 99] -/
def State.shrink (s : State) (v levels : Nat) : State × List DeltaRec :=
  let x := s.vol v
  let r := s.shallow 5 v levels
  let kept := r.1.reached none none
  let old := (dedupNat (s.reach x.levels x.root)).filter (fun p => !(r.1.reach (r.1.vol v).levels (r.1.vol v).root).contains p)
  let d := State.foldRecs (fun t p => t.freePageOf v p) (old.filter (fun p => !kept.contains p)) r.1 r.2
  (d.1.modVol v (fun y => { y with replaced := y.replaced ++ (old.filter kept.contains).map (fun p => (p, (s.tpage p).birth, x.epoch)) }), d.2)

/-- The first page that a smaller SIZE has to read (R225). -/
def State.resizeNeed (s : State) (v size : Nat) : Option Nat :=
  let x := s.vol v
  (s.entriesIn size x.size x.levels x.root 0).findSome? (fun e => s.entNeed v x.epoch e.1 {})

/-- A volume takes a SIZE: the status. A tree page that cannot be stored is refused (R265). -/
def State.resize (s : State) (v size : Nat) : State × Nat :=
  let r := if size < (s.vol v).size then
      let c := s.truncate v size
      let d := c.1.shrink v (s.levelsFor size)
      (d.1, c.2 ++ d.2)
    else s.deepen 5 v (s.levelsFor size)
  match r.2.find? (fun d => d.kind = 5 && !s.mpaOk d.value) with
  | some d => (s.ftlError 0x04 d.value, lsLimit)
  | none => ((r.1.modVol v (fun y => { y with size := size })).commit (r.2 ++ [tableRec 0 v]), stOk)

/-- VOL_RESIZE (R219, R236, R238). It waits for the pages that it has to read.
[DEDUCED: log entry 99] -/
def execVolResize (h : CmdHdr) (vol size : Nat) (s : State) : Res :=
  .next (s.command h pgLMAP 0x0101 .work fun _ t =>
    let x := t.vol vol
    if size = 0 ∨ 2 ^ 36 < size ∨ 65536 ≤ vol ∨ x.kind = 0 ∨ x.deleting.isSome then (t, .done lsBadArg 0)
    else if t.volBad vol then (t.volBadNote vol, .done lsBadArg 0)
    else if (t.slip.reps.get {} vol).role ≠ 0 ∨ (t.lmap.resizes.find vol).isSome then (t, .done lsBusy 0)
    else if x.kind = 3 then (t, .done lsReadOnly 0)
    else match t.resizeNeed vol size with
      | some m => ({ t with lmap.resizes := t.lmap.resizes.ins vol (h.cseq, size) }.wantPage m, .running [vol])
      | none => let r := t.resize vol size; (r.1, .done r.2 0))

/-- VOL_RESIZE commands that wait go on with the pages that have come. -/
def State.resizePump (s : State) : State :=
  s.lmap.resizes.foldl (fun t e => match t.resizeNeed e.1 e.2.2 with
    | some m => t.wantPage m
    | none =>
      let r := { t with lmap.resizes := t.lmap.resizes.del e.1 }.resize e.1 e.2.2
      r.1.finishRunning e.2.1 0 r.2) s

/-! ### VOL_DELETE (R231) -/

/-- A command of the volume is admitted and has not finished. -/
def State.volInUse (s : State) (v : Nat) : Bool :=
  s.nvf.cmds.any (fun e => e.2.vol = v && (e.2.phase = .admitted || (e.2.phase = .ended && !e.2.committed)))

/-- The volume is freed: every page it owns, and the count of its source mould. -/
def State.freeVolume (s : State) (v : Nat) : State :=
  let x := s.vol v
  let r := State.foldRecs (fun t m => t.freePageOf v m) ((s.lmap.pages.filter (fun e => e.2.owner = v)).map Prod.fst) s []
  let s1 := if x.kind = 2 ∨ x.kind = 3 then r.1.setMould x.source { r.1.mould x.source with clones := (r.1.mould x.source).clones - 1 }
            else r.1
  let recs := r.2 ++ (if x.kind = 2 ∨ x.kind = 3 then [tableRec 2 x.source] else []) ++ [tableRec 0 v]
  (s1.setVol v {}).commit recs

/-- The pages that a volume owns. -/
def State.ownedPages (s : State) (v : Nat) : List Nat := (s.lmap.pages.filter (fun e => e.2.owner = v)).map Prod.fst

/-- The first page that freeing pages needs is asked for. -/
def State.wantFree (s : State) (ps : List Nat) : State :=
  match s.freeNeed ps with
  | some m => s.wantPage m
  | none => s

/-- A waiting VOL_DELETE goes on once the volume's admitted commands have finished, and the pages that it frees are here. -/
def State.volDeletePump (s : State) (v : Nat) : State :=
  match (s.vol v).deleting with
  | some q =>
    if s.volInUse v then s
    else match s.freeNeed (s.ownedPages v) with
      | some m => s.wantPage m
      | none => (s.freeVolume v).finishRunning q 0 stOk
  | none => s

/-- The commands of LMAP that wait for pages go on (R225). -/
def State.lmapPump (s : State) : State :=
  (s.lmap.vols.filter (fun v => v.2.deleting.isSome)).foldl (fun t v => t.volDeletePump v.1) s.resizePump

/-- VOL_DELETE (R231, R238).
[DEDUCED: log entry 99] -/
def execVolDelete (h : CmdHdr) (vol : Nat) (s : State) : Res :=
  .next (s.command h pgLMAP 0x0102 .work fun _ t =>
    let x := t.vol vol
    if 65536 ≤ vol ∨ x.kind = 0 ∨ x.deleting.isSome then (t, .done lsBadArg 0)
    else if t.volBad vol then (t.volBadNote vol, .done lsBadArg 0)
    else if (t.slip.reps.get {} vol).role ≠ 0 ∨ (t.lmap.resizes.find vol).isSome then (t, .done lsBusy 0)
    else if x.moulds ≠ 0 then (t, .done lsHasMoulds 0)
    else if t.volInUse vol ∨ (t.freeNeed (t.ownedPages vol)).isSome then
      ({ t with lmap.vols := t.lmap.vols.put {} vol { x with deleting := some h.cseq } }.wantFree (t.ownedPages vol), .running [vol])
    else (t.freeVolume vol, .done stOk 0))

/-- TENANT_SET (R236). -/
def execTenantSet (h : CmdHdr) (tenant cap : Nat) (s : State) : Res :=
  .next (s.simpleCmd h pgLMAP 0x0103 fun t =>
    if 16384 ≤ tenant then (t, lsBadArg)
    else ((t.modTen tenant (fun x => { x with capGrains := cap })).commit [tableRec 1 tenant], stOk))

/-! ### Moulds (R226-R232) -/

/-- A command of MOULD; in shelf mode none is used (R10). -/
def State.mouldCmd (s : State) (h : CmdHdr) (opcode : Nat) (body : State → State × CmdEnd) : State :=
  s.command h pgMOULD opcode .work fun _ t => if t.arrayMode then body t else (t, .done lsBadArg 0)

/-- What refuses a mould of a volume. -/
def State.mouldRefused (s : State) (v m : Nat) : Option Nat :=
  let x := s.vol v
  if 65536 ≤ v ∨ 1048576 ≤ m ∨ x.kind = 0 ∨ x.kind = 3 ∨ x.deleting.isSome then some lsBadArg
  else if (s.mould m).st ≠ 0 then some lsNotFree
  else if 4096 ≤ x.moulds ∨ 0xFFFFFFFF ≤ x.epoch then some lsLimit
  else none

/-- The epoch change (R226): the mould records the tree, and the volume moves on. -/
def State.takeMould (s : State) (v m : Nat) (waits : List Nat) : State :=
  let x := s.vol v
  (s.setMould m { vol := v, st := 1, levels := x.levels, epoch := x.epoch, root := x.root, time := s.now, size := x.size,
                  waits := waits }).setVol v { x with epoch := x.epoch + 1, moulds := x.moulds + 1 }

/-- MOULD_CREATE (R226): it completes when the mould is Sealed. -/
def execMouldCreate (h : CmdHdr) (vol mould : Nat) (s : State) : Res :=
  .next (s.mouldCmd h 0x0100 fun t =>
    match t.mouldRefused vol mould with
    | some st => (t, .done st 0)
    | none =>
      if t.volBad vol then (t.volBadNote vol, .done lsBadArg 0)
      else if t.mouldBad mould then (t.mouldBadNote mould, .done lsBadArg 0)
      else ((t.takeMould vol mould [h.cseq]).commit [tableRec 2 mould, tableRec 0 vol], .running [mould]))

/-- A write that was admitted before the epoch change of a mould has not ended (R227). -/
def State.sealWaits (s : State) (x : Mould) : Bool :=
  s.nvf.cmds.any (fun e => e.2.vol = x.vol && decide (e.2.epoch ≤ x.epoch) && e.2.writes
    && (e.2.phase = .admitted || (e.2.phase = .ended && !e.2.committed)))

/-- The MOULD_CG commands after one more mould of theirs is Sealed: those that end, and those that go on. -/
def State.cgSealed (s : State) (m : Nat) : State :=
  let l := s.lmap.cgs.map (fun c => (c.1, c.2.1.filter (· ≠ m), c.2.2))
  (l.filter (fun c => c.2.1.isEmpty)).foldl (fun t c => t.finishRunning c.1 0 stOk)
    { s with lmap.cgs := l.filter (fun c => !c.2.1.isEmpty) }

/-- MOULD_SEALED (R227).
[DESIGN CHOICE: log entry 33] -/
def execMouldSealed (mould : Nat) (s : State) : Res :=
  let x := s.mould mould
  .next (if x.st = 1 ∧ !s.sealWaits x then
      let s1 := (s.setMould mould { x with st := 2, waits := [] }).commit [tableRec 2 mould]
      (x.waits.foldl (fun t q => t.finishRunning q 0 stOk) s1).cgSealed mould
    else s)

/-- The list of a consistency group: (VOLUME, MOULD). -/
def State.cgList (s : State) (count list : Nat) : List (Nat × Nat) :=
  (List.range count).map (fun i => (s.hbmNat (list + 8 * i) 2, s.hbmNat (list + 8 * i + 4) 4))

/-- What refuses the whole list (R232). -/
def State.cgRefused (s : State) (l : List (Nat × Nat)) : Option Nat :=
  let vs := l.map Prod.fst
  if (dedupNat vs).length ≠ vs.length ∨ (dedupNat (l.map Prod.snd)).length ≠ vs.length then some lsBadArg
  else if vs.any (fun v => s.lmap.cgs.any (fun c => c.2.2.contains v)) then some lsBusy
  else l.findSome? (fun e => s.mouldRefused e.1 e.2)

/-- MOULD_CG (R232): the hold, the epoch changes of every member in one commit unit, and the end of the hold are one step, in which
no write is admitted. How long the hold lasted is a free value. -/
def execMouldCg (h : CmdHdr) (count list : Nat) (s : State) : Res :=
  .next (s.mouldCmd h 0x0101 fun t =>
    if count = 0 ∨ 1024 < count then (t, .done lsBadArg 0)
    else if t.hbmErr list (8 * count) then (t.noteErr list (8 * count), .done lsBadArg 0)
    else
      let l := t.cgList count list
      match l.find? (fun e => t.mouldBad e.2), l.find? (fun e => t.volBad e.1), t.cgRefused l with
      | some e, _, _ => (t.mouldBadNote e.2, .done lsBadArg 0)
      | none, some e, _ => (t.volBadNote e.1, .done lsBadArg 0)
      | none, none, some st => (t, .done st 0)
      | none, none, none =>
        let s1 := l.foldl (fun u e => u.takeMould e.1 e.2 []) t
        let s2 := s1.commit (l.flatMap (fun e => [tableRec 2 e.2, tableRec 0 e.1]))
        let f := s2.freeNat
        ({ f.2.setFld fMOULD_LAST_HOLD f.1 with lmap.cgs := s2.lmap.cgs ++ [(h.cseq, l.map Prod.snd, l.map Prod.fst)] },
          .running [count]))

/-- MOULD_DELETE (R231): it completes when the last page has been examined. The commands that wait for a mould that is Sealing end, as it
never will be Sealed.
[DEDUCED: log entry 130] -/
def execMouldDelete (h : CmdHdr) (mould : Nat) (s : State) : Res :=
  .next (s.mouldCmd h 0x0102 fun t =>
    let x := t.mould mould
    if 1048576 ≤ mould ∨ x.st = 0 then (t, .done lsBadArg 0)
    else if t.mouldBad mould then (t.mouldBadNote mould, .done lsBadArg 0)
    else if x.st = 3 then (t, .done lsBusy 0)
    else if x.clones ≠ 0 then (t, .done lsHasClones 0)
    else
      let t1 := (x.waits.foldl (fun u q => u.finishRunning q 0 lsNotSealed) t).cgSealed mould
      ((t1.setMould mould { x with st := 3, delCmd := some h.cseq, waits := [] }).commit [tableRec 2 mould], .running [mould]))

/-- MOULD_DELETE_DONE: of the pages that the deletion examines, those that no remaining tree reaches are freed, then the entry. -/
def execMouldDeleteDone (mould : Nat) (s : State) : Res :=
  let x := s.mould mould
  let rest := s.reached none (some mould)
  let gone := (s.toExamine mould).filter (fun p => !rest.contains p && (s.lmap.pages.find p).isSome)
  .next (if x.st = 3 ∧ (s.freeNeed gone).isSome then s.wantFree gone
    else if x.st = 3 then
      let r := State.foldRecs (fun t p => t.freePageOf x.vol p) gone s []
      let s1 := (r.1.modVol x.vol (fun y => { y with
        moulds := y.moulds - 1, replaced := y.replaced.filter (fun p => !gone.contains p.1) })).setMould mould {}
      let s2 := (s1.commit (r.2 ++ [tableRec 2 mould, tableRec 0 x.vol])).irqBit pgMOULD 0
      match x.delCmd with
      | some q => s2.finishRunning q 0 stOk
      | none => s2
    else s)

/-- MOULD_CLONE (R230). -/
def execMouldClone (h : CmdHdr) (mould vol view keySlot : Nat) (s : State) : Res :=
  .next (s.mouldCmd h 0x0103 fun t =>
    let x := t.mould mould
    let v := t.vol x.vol
    if 1048576 ≤ mould ∨ 65536 ≤ vol ∨ 1 < view then (t, .done lsBadArg 0)
    else if t.mouldBad mould then (t.mouldBadNote mould, .done lsBadArg 0)
    else if t.volBad x.vol then (t.volBadNote x.vol, .done lsBadArg 0)
    else if x.st ≠ 2 then (t, .done lsNotSealed 0)
    else if (t.vol vol).kind ≠ 0 then (t, .done lsNotFree 0)
    else if t.foreignDomain v.domain v.tenant ∨ t.foreignSlot keySlot v.tenant then (t, .done lsTenant 0)
    else if 0xFFFF ≤ x.clones then (t, .done lsLimit 0)
    else
      let p := t.tpage x.root
      let n := ((t.entriesFrom x.levels x.root 0).filter (fun e => e.2.mapped)).length
      (((t.setVol vol { root := x.root, rootOwner := if x.root = 0 then 0 else p.owner,
                        rootBirth := if x.root = 0 then 0 else p.birth, size := x.size, mapped := n, tenant := v.tenant,
                        domain := v.domain, keySlot := keySlot, kind := if view = 1 then 3 else 2, levels := x.levels,
                        source := mould, readOnly := view = 1 }).setMould mould { x with clones := x.clones + 1 }).commit
        [tableRec 2 mould, tableRec 0 vol], .done stOk 0))

end Sys2Proof.Machine
end

