-- ==== Sys2Proof/Machine/PeerOps.lean ====
section
/-! DEFINITION. The pair of heads: control messages, the mirror's state, durability points and path reporting (R348-R355). -/

namespace Sys2Proof.Machine

/-! ### Control messages (R349) -/

/-- The 64 bytes of a control message. -/
def State.ctrlMsg (s : State) (type seq : Nat) (args : List Byte) : List Byte :=
  le 2 0x5043 ++ le 1 type ++ le 1 s.plat.chip.headId ++ zeros 4 ++ le 8 seq ++ fitBytes 48 args

/-- A message goes out while the peer's MSG_CONS allows it; its mirror write's reference is answered. -/
def State.sendMsg (s : State) (type : Nat) (args : List Byte) : State × Option Nat :=
  let q := s.peer.msgSent + 1
  if q - s.peer.msgCons ≤ 1024 then
    let s1 := { s.bump fPEERCTL_MSG_SENT with peer.msgSent := q }
    (s1.mirrorWrite 0x11 3 (64 * (q % 1024)) q (s.ctrlMsg type q args) 0, some s.peer.nextRef)
  else ({ s with peer.waiting := s.peer.waiting ++ [(type, args)] }, none)

/-- Messages that waited go out once the peer has consumed enough. -/
def State.sendWaiting : Nat → State → State
  | 0, s => s
  | f + 1, s => match s.peer.waiting with
    | [] => s
    | m :: l =>
      if s.peer.msgSent + 1 - s.peer.msgCons ≤ 1024 then State.sendWaiting f ({ s with peer.waiting := l }.sendMsg m.1 m.2).1 else s

/-- CANCEL for a staging range (R352). -/
def State.sendCancel (s : State) (off bytes : Nat) : State :=
  (s.sendMsg 2 (le 8 off ++ le 4 bytes)).1.bump fPEERCTL_CANCEL_SENT

/-- Up to 256 index records travel in one batch (R346), while its sequence less INBOX_CONS is at most 16. -/
def State.sendBatch (s : State) : State :=
  let q := s.peer.batchSent + 1
  if s.peer.outbox.isEmpty ∨ 16 < q - s.peer.inboxCons ∨ !s.mirrorBoth then s
  else
    let recs := s.peer.outbox.take 256
    { s with peer.batchSent := q, peer.outbox := s.peer.outbox.drop 256 }.mirrorWrite 0x11 4 (16384 * (q % 16)) q (recs.flatMap id) 0

/-! ### The mirror's state (R353) -/

/-- The mirror changes state: MIRROR_STATE is posted, and the durability points follow. -/
def State.setMirror (s : State) (new reason : Nat) : State :=
  let old := s.mirror
  if old = new then s
  else
    let s1 := ((s.setFld fPEERCTL_STATE_MIRROR new).irqBit pgPEERCTL 1).event pgPEERCTL 3 (le 1 old ++ le 1 new ++ le 1 reason)
    (if new = msBroken then s1.bump fPEERCTL_MIRROR_BREAKS else s1).recomputeDp

/-- A running PEERCTL_RESYNC ends without the mirror becoming Healthy. -/
def State.resyncEnds (s : State) (st : Nat) : State :=
  match s.peer.resyncCmd with
  | some q => { s with peer.resyncCmd := none }.finishRunning q 0 st
  | none => s

/-- The mirror breaks: nothing more is multicast or mirrored, and every open peer copy is Not delivered.
[DESIGN CHOICE: log entry 129] -/
def State.breakMirror (s : State) (reason : Nat) : State :=
  if s.mirror = msHealthy ∨ s.mirror = msResync then
    let s0 := s.nvf.cmds.foldl (fun t e => t.copyFails e.1 1) s
    let s1 := { s.grog.fwd.foldl State.dropFwd s0 with peer.writes := [], peer.outbox := [], peer.resyncRef := none, grog.fwd := [] }
    ((s1.bump fPEERCTL_FWD_DROP s.peer.outbox.length).setMirror msBroken reason).resyncEnds 2
  else s

/-- The staging units that commands hold: (first unit, count) (R354). -/
def State.heldExts (s : State) : List (Nat × Nat) := s.nvf.cmds.flatMap (fun e => e.2.stageAt)

/-- Staging units with their tags go to the peer at the offsets that they have here (R348). -/
def State.mirrorUnits (s : State) (e : Nat × Nat) (data tags : List Byte) (key : Nat) : State :=
  (s.mirrorWrite 0x10 0 (4096 * e.1) 0 data key).mirrorWrite 0x10 0 (2 ^ 20 * s.back.dataMib + 16 * e.1) 0 tags key

/-- The staging units of an extent are copied. -/
def State.copyUnits (s : State) (e : Nat × Nat) : State :=
  s.mirrorUnits e (s.hbmRead (s.reg64 rSAG_BASE + 4096 * e.1) (4096 * e.2))
    (s.hbmRead (s.reg64 rSAG_BASE + 2 ^ 20 * s.back.dataMib + 16 * e.1) (16 * e.2)) 0

/-- The commit units that the ring holds: COMMIT_SEQ, and their bytes' place and number. -/
def ringUnits : Nat → List (Nat × Nat) → List (Nat × Nat × Nat)
  | _, [] => []
  | at_, (q, n) :: l => (q, at_, n) :: ringUnits (at_ + n) l

/-- The bytes of the ring at a position. -/
def State.ringBytes (s : State) (pos n : Nat) : List Byte :=
  let k := min n (s.ringSize - pos % max 1 s.ringSize)
  s.hbmRead (s.ringBase + pos % max 1 s.ringSize) k ++ s.hbmRead s.ringBase (n - k)

/-- A commit unit of the ring is copied. -/
def State.copyUnit (s : State) (u : Nat × Nat × Nat) : State :=
  s.mirrorWrite 0x11 1 (u.2.1 % max 1 s.ringSize) u.1 (s.ringBytes u.2.1 u.2.2) 0

/-- The 32 bytes of a Saggar log entry; state 0 free, 1 Issued, 2 Complete. -/
def logEntry (id st : Nat) (p : Program) : List Byte :=
  le 4 id ++ le 2 p.row ++ le 1 p.rows ++ le 1 st ++ le 4 p.issued ++ le 4 p.done ++ le 8 p.logSeq ++ le 8 p.lastCommit

/-- A log entry in use is copied. -/
def State.copyLog (s : State) (h : LogHeld) : State :=
  s.mirrorWrite 0x10 2 (32 * (h.prog.logSeq % 524288)) 0 (logEntry h.seg 1 h.prog) 0

/-- The entries of this head's Saggar log that are in use (R307). -/
def State.logInUse (s : State) : List LogHeld :=
  s.back.segs.flatMap (fun e => e.2.progs.map (fun p => ({ seg := e.1, prog := p } : LogHeld))) ++ s.back.logHeld

/-- Steps 2 and 3 of a resynchronisation (R354): the staging units, then the ring and the log.
[DESIGN CHOICE: log entry 140] -/
def State.resyncCopy (s : State) : State :=
  let s1 := s.heldExts.foldl State.copyUnits s
  let s2 := (ringUnits (s.back.ringPos - s.ringUsed) (s.back.ring.filter (fun e => decide (s.reg64 rFTL_CKPT_SEQ < e.1)))).foldl State.copyUnit s1
  s.logInUse.foldl State.copyLog s2

/-- Resynchronisation starts (R354): new writes are multicast again, and PEERCTL begins to copy.
[DESIGN CHOICE: log entry 140] -/
def State.startResync (s : State) : State :=
  let d := 4112 * s.heldExts.foldl (fun n e => n + e.2) 0 + s.ringUsed + 32 * s.logInUse.length
  ((s.setReg64 rPEERCTL_RESYNC_LEFT d).setMirror msResync 0).resyncCopy

/-- The mirror is Healthy: the configured points are restored. -/
def State.mirrorUp (s : State) : State :=
  (((s.setReg64 rPEERCTL_RESYNC_LEFT 0).setMirror msHealthy 3)).resyncEnds stOk

/-- One mirror write has ended. -/
def State.mirrorEnded (s : State) (w : Nat × Nat) : State :=
  match s.opEnded pgPEERCTL w.1 with
  | none => s
  | some e =>
    let s1 := { s.takeEnd pgPEERCTL w.1 with peer.writes := s.peer.writes.filter (· ≠ w) }
    if e.status ≠ 0 then
      (s1.copyFails w.2 1).breakMirror 1
    else if s1.peer.resyncRef = some w.1 then { s1 with peer.resyncRef := none }.mirrorUp
    else s1

/-- A peer copy that the switch reported as Not delivered breaks the mirror: the effective points fall to Medium until it is
resynchronised (R14, R353). -/
def State.pollPeerFail (s : State) : State :=
  if s.sw.peerFail then { s with sw.peerFail := false }.breakMirror 1 else s

/-- PEERCTL takes the reports of the switch and the ends of its mirror writes. -/
def State.pollMirror (s : State) : State := s.pollPeerFail.peer.writes.foldl (fun t w => t.mirrorEnded w) s.pollPeerFail

/-- Every mirror write of a command is acknowledged. -/
def State.mirrored (s : State) (key : Nat) : Bool := !s.peer.writes.any (fun w => w.2 = key)

/-! ### Peer state (R349) -/

def State.setPeerState (s : State) (new : Nat) : State := s.setFld fPEERCTL_STATE_PEER_STATE new

/-- The peer is lost: PEER_LOST, and the mirror breaks.
[DEDUCED: log entry 100] -/
def State.peerLostNow (s : State) (reason : Nat) : State :=
  if s.peerState = psPaired then
    (((s.setPeerState psLost).irqBit pgPEERCTL 0).event pgPEERCTL 2 (le 1 reason)).breakMirror 2
  else s

/-- The peer is Paired: an Absent or Broken mirror resynchronises when AUTO_RESYNC = 1.
[DEDUCED: log entry 100] -/
def State.peerPaired (s : State) : State :=
  let s1 := (s.setPeerState psPaired).irqBit pgPEERCTL 0
  if s1.fld fPEERCTL_CTRL_AUTO_RESYNC = 1 ∧ (s1.mirror = msAbsent ∨ s1.mirror = msBroken) then s1.startResync
  else if s1.mirror = msAbsent then s1.setMirror msBroken 0 else s1

/-! ### Path reporting (R350) -/

/-- The ANA state of a namespace of group `g`. -/
def State.anaOf (s : State) (g : Nat) : Nat :=
  if s.peer.fenced then 2
  else if s.peer.changing.contains g then 4
  else if s.owns g ∨ s.plat.chip.heads < 2 then 0 else 2

/-- PEERCTL writes the ANA state of every namespace entry. -/
def State.setAna (s : State) : State :=
  s.nvf.ns.foldl (fun t e =>
    let a := t.anaOf (t.homeGroup e.2.tenant)
    if e.2.ana = a then t else t.setNs e.1 { e.2 with ana := a }) s

/-- The owner of a group changes. -/
def State.setOwner (s : State) (g head : Nat) : State :=
  (s.setFld fPEERCTL_STATE_GROUP_OWNER (setBits (s.fld fPEERCTL_STATE_GROUP_OWNER) (2 * g + 1) (2 * g) head)).setAna

/-- The candidate arbiter: the lowest Online member of the lowest existing group that has one (R358). -/
def State.arbiterCandidate (s : State) : Nat :=
  match (List.range 4).findSome? (fun g => if (s.group g).exists_ then (s.onlineMembers g).head? else none) with
  | some m => m
  | none => 0xFF

/-- The arbiter that this head's HEARTBEATs name: a head that has lost its peer computes none again (R358). -/
def State.arbiterNamed (s : State) : Nat := if s.peerState = psLost then s.peer.candidate else s.arbiterCandidate

/-- The candidate is computed again, and agreed when the peer names it too. -/
def State.recomputeArbiter (s : State) : State :=
  if s.peerState = psLost then s
  else
    let c := s.arbiterCandidate
    let s1 := { s with peer.candidate := c }
    if c = 0xFF then s1.setFld fPEERCTL_ARBITER_VALID 0
    else if s.peer.peerArb = c then (s1.setFld fPEERCTL_ARBITER_VALID 1).setFld fPEERCTL_ARBITER_MODULE c
    else s1

/-! ### Delta pages (R355) -/

/-- The commit units that no delta page on flash holds yet go to flash as a delta page, in a row that is programmed without waiting.
[DESIGN CHOICE: log entry 126] -/
def State.deltaPage (s : State) : State :=
  match (List.range 4).find? s.groupTakes with
  | none => s
  | some g =>
    let n := (s.back.ring.filter (fun e => decide (s.back.deltaDone < e.1))).foldl (fun k e => k + e.2) 0
    let b := s.ringTake n
    let r := b.1.placeIn g 2 (({ kind := 4, row := 0, grain := 0, grains := 8, ref := 0xFFFFFFFFFFFD, app := s.plat.chip.headId
                                 seq := s.lmap.commitSeq } : Placed).withForm (fitBytes 4096 b.2))
    match r.2 with
    | some (id, _, _) => r.1.modSeg id (fun v => { v with medium := true })
    | none => r.1

end Sys2Proof.Machine
end

