-- ==== Sys2Proof/Machine/SlipOps.lean ====
section
/-! DEFINITION. Replicas: the table, ship records, the backlog and the states at the source (R237-R246). -/

namespace Sys2Proof.Machine

/-! ### The replica table (R237) -/

def State.rep (s : State) (v : Nat) : Replica := s.slip.reps.get {} v
def State.repAddr (s : State) (v : Nat) : Nat := s.reg64 rSLIP_REP_BASE + 64 * v

/-- The 64 bytes of a replica entry. -/
def Replica.bytes (r : Replica) : List Byte :=
  le 1 r.role ++ le 1 (b2n r.sync) ++ le 1 (b2n r.degrade) ++ le 1 r.st ++ le 2 r.assoc ++ le 2 r.tgtVol ++ le 4 r.land
    ++ le 1 r.slotsLog2 ++ zeros 3 ++ le 4 r.status ++ zeros 4 ++ le 8 r.nextSeq ++ le 8 r.applied ++ le 8 r.bitmap ++ le 8 r.cursor
    ++ le 4 r.nextMould ++ le 4 r.baseMould

/-- [DESIGN CHOICE: log entry 16] -/
def State.setRep (s : State) (v : Nat) (r : Replica) : State :=
  { s with slip.reps := s.slip.reps.put {} v r }.hbmWrite (s.repAddr v) r.bytes
def State.modRep (s : State) (v : Nat) (f : Replica → Replica) : State := s.setRep v (f (s.rep v))

/-- States of a source replica; Receiving is 0 and Promoted 7 at a target. -/
def rsIdle : Nat := 0
def rsInSync : Nat := 1
def rsShipping : Nat := 2
def rsDegraded : Nat := 3
def rsFenced : Nat := 4
def rsPaused : Nat := 5
def rsBroken : Nat := 6
def rsPromoted : Nat := 7
def rsResync : Nat := 8

/-- No mould. -/
def noMould : Nat := 0xFFFFFFFF

/-! ### Ship records (R239) -/

/-- The 64-byte header. -/
def shipHeader (kind : Nat) (mould : Bool) (tgt seq lba nlb src : Nat) : List Byte :=
  le 2 0x534C ++ le 1 kind ++ le 1 (b2n mould) ++ le 2 tgt ++ zeros 2 ++ le 8 seq ++ le 8 lba ++ le 4 nlb ++ le 4 src ++ zeros 32

/-- The reference of the WRITE_NOTIFY of a record, and of a status write. -/
def shipRef (v seq : Nat) : Nat := v * 2 ^ 40 + seq % 2 ^ 40
def statusRef (v : Nat) : Nat := 2 ^ 57 + v

/-- Insert a record in REP_SEQ order. -/
def insertRec (e : Nat × List Byte × Option Nat) : List (Nat × List Byte × Option Nat) → List (Nat × List Byte × Option Nat)
  | [] => [e]
  | b :: l => if e.1 < b.1 then e :: b :: l else b :: insertRec e l

/-- A record joins the queue of a replica.
[DEDUCED: log entry 42] -/
def State.queueRec (s : State) (v seq : Nat) (bytes : List Byte) (key : Option Nat) : State :=
  s.modRep v (fun r => { r with queue := insertRec (seq, bytes, key) r.queue })

/-- A record with the next REP_SEQ joins the queue. -/
def State.newRec (s : State) (v kind : Nat) (mould : Bool) (lba nlb src : Nat) (data : List Byte) : State :=
  let r := s.rep v
  (s.setRep v { r with nextSeq := r.nextSeq + 1 }).queueRec v r.nextSeq (shipHeader kind mould r.tgtVol r.nextSeq lba nlb src ++ data) none

/-! ### The backlog (R245) -/

/-- The regions of 256 blocks that block ranges touch. -/
def regionsOf (ranges : List (Nat × Nat)) : List Nat :=
  ranges.flatMap (fun g => if g.2 = 0 then [] else (List.range ((g.1 + g.2 - 1) / 256 - g.1 / 256 + 1)).map (fun i => g.1 / 256 + i))

/-- Set or clear a bit of the bitmap in HBM. -/
def State.bitWrite (s : State) (base r : Nat) (on : Bool) : State :=
  let a := base + r / 8
  let b := s.hbmNat a 1
  s.hbmWrite a (le 1 (if on then b ||| 2 ^ (r % 8) else clearBit b (r % 8)))

/-- Insert in rising order without repeats. -/
def insertNat (k : Nat) : List Nat → List Nat
  | [] => [k]
  | a :: l => if k < a then k :: a :: l else if k = a then a :: l else a :: insertNat k l

/-- Set backlog bits. -/
def State.setBacklog (s : State) (v : Nat) (ranges : List (Nat × Nat)) : State :=
  (regionsOf ranges).foldl (fun t k =>
    (t.bitWrite (t.rep v).bitmap k true).modRep v (fun r => { r with backlog := insertNat k r.backlog })) s

/-! ### Leaving a state (R243, R244) -/

/-- The key of the reads that a replica's next DATA record needs. -/
def shipKey (v : Nat) : Nat := 2 ^ 52 + v

/-- The blocks that were being read for a record are not waited for any more. -/
def State.dropShipReads (s : State) (v : Nat) : State := { s with ware.reads := s.ware.reads.filter (fun e => e.2.cmd ≠ shipKey v) }

/-- Every synchronous copy that is still open at a replica is Not delivered. -/
def State.slipLose (s : State) (v : Nat) : State :=
  (s.nvf.cmds.filter (fun e => e.2.vol = v)).foldl (fun t e => t.copyFails e.1 2) s

/-- The block ranges of the open synchronous copies. -/
def State.openRanges (s : State) (v : Nat) : List (Nat × Nat) :=
  (s.nvf.cmds.filter (fun e => e.2.vol = v && e.2.wantS && e.2.resS.isNone)).flatMap (fun e => e.2.ranges)

/-- The replica becomes Broken. -/
def State.slipBroken (s : State) (v reason : Nat) : State :=
  if (s.rep v).st = rsBroken then s
  else
    let s1 := ((s.slipLose v).dropShipReads v).modRep v (fun r => { r with st := rsBroken, hold := false, queue := [], sent := [], todo := [], reading := none, arrived := [], making := none, reason := reason })
    (s1.irqBit pgSLIP 1).event pgSLIP 5 (le 2 v ++ le 2 reason)

/-- SLIP reads a replica entry; an uncorrectable error breaks the replica (R249). -/
def State.slipRead (s : State) (v : Nat) : State :=
  if (s.rep v).role ≠ 0 ∧ s.hbmErr (s.repAddr v) 64 then
    ((s.noteErr (s.repAddr v) 64).capture pgSLIP 0x01 v 0).slipBroken v (if (s.rep v).role = 1 then 4 else 2)
  else s

/-- A replica leaves InSync: Degraded, or Fenced under POLICY = 0. -/
def State.leaveSync (s : State) (v seq : Nat) : State :=
  let r := s.rep v
  let s1 := (s.dropShipReads v).modRep v (fun x => { x with
    st := if r.degrade then rsDegraded else rsFenced, todo := [], reading := none, hold := false, wasInSync := false })
  (s1.irqBit pgSLIP 0).event pgSLIP (if r.degrade then 1 else 2) (le 2 v ++ le 8 seq)

/-- The synchronous copy of one write is Not delivered: its regions go to the backlog, and a replica that is InSync leaves that state. The
copies of other writes are still open (R243, R244). -/
def State.slipCopyLost (s : State) (v key : Nat) (ranges : List (Nat × Nat)) (seq : Nat) : State :=
  let r := s.rep v
  let s1 := (if r.bitmap ≠ 0 then s.setBacklog v ranges else s).copyFails key 2
  if r.st = rsInSync then s1.leaveSync v seq else s1

/-- Every open synchronous copy is Not delivered, as the association has failed: their regions go to the backlog, and an InSync replica is
Degraded, or Fenced under POLICY = 0. -/
def State.slipDegrade (s : State) (v seq : Nat) : State :=
  let s1 := if (s.rep v).bitmap ≠ 0 then s.setBacklog v (s.openRanges v) else s
  ((s1.slipLose v).modRep v (fun x => { x with queue := [], sent := [] })).leaveSync v seq

/-- SLIP takes the switch's reports of copies Not delivered: their regions go to the backlog, and the replica leaves InSync (R14, R243). -/
def State.pollSlipFail (s : State) : State :=
  s.sw.slipFail.foldl (fun t k =>
    match t.nvf.cmds.find k with
    | some c =>
      let r := t.rep c.vol
      if r.role = 1 ∧ r.st ≠ rsBroken then t.slipCopyLost c.vol k c.ranges (c.repSeq.getD r.nextSeq) else t
    | none => t) { s with sw.slipFail := [] }

/-- The association of a source replica fails. -/
def State.slipAssocLost (s : State) (v : Nat) : State :=
  let r := s.rep v
  if r.st = rsShipping then
    ((s.dropShipReads v).setRep v { r with st := rsPaused, queue := [], sent := [], reading := none }).event pgSLIP 4 (le 2 v ++ le 8 r.cursor)
  else if r.st = rsInSync then s.slipDegrade v (match r.sent, r.queue with
    | e :: _, _ => e.1
    | [], e :: _ => e.1
    | [], [] => r.nextSeq)
  else if r.st = rsResync then
    -- regions cleared by the pass and not yet applied there go back to the backlog
    let s1 := (s.dropShipReads v).setBacklog v
      (r.reading.toList ++ (r.queue ++ r.sent).map (fun e => (unLe (slice e.2.1 16 8), unLe (slice e.2.1 24 4))))
    (((s1.modRep v (fun x => { x with st := if r.degrade then rsDegraded else rsFenced, queue := [], sent := [], todo := [], reading := none, hold := false })).irqBit
      pgSLIP 0)).event pgSLIP 1 (le 2 v ++ le 8 r.nextSeq)
  else s

/-- SLIP takes the end of the WRITE_NOTIFY of record `q`. -/
def State.slipEnded (s : State) (v q : Nat) : State :=
  match s.opEnded pgSLIP (shipRef v q) with
  | none => s
  | some o =>
    let s1 := (s.takeEnd pgSLIP (shipRef v q)).modRep v (fun r => { r with out := r.out.filter (· ≠ q) })
    if o.status = 0 then s1
    else if o.status = 0x0010 then s1.slipBroken v 1
    else if (s.rep v).sent.any (fun e => e.1 = q) then s1.slipAssocLost v
    else s1

/-- A synchronous copy is open at a replica: its data has come. -/
def State.slipOpen (s : State) (v : Nat) : Bool :=
  s.nvf.cmds.any (fun e => e.2.vol = v && e.2.apply.isNone && e.2.wantS && e.2.resS.isNone && e.2.xfer = 3)

/-- The association of a source replica that ships is no longer open (R243, R244): in InSync, with a copy open. -/
def State.slipCut (s : State) (v : Nat) : Bool :=
  let r := s.rep v
  r.role = 1 && (s.assoc r.assoc).state ≠ .isOpen && (r.st = rsShipping || r.st = rsResync || (r.st = rsInSync && s.slipOpen v))

/-- The ends of a replica's records so far, and of its association. -/
def State.slipPoll (s : State) (v : Nat) : State :=
  let s1 := (s.rep v).out.foldl (fun t q => t.slipEnded v q) s
  if s1.slipCut v then s1.slipAssocLost v else s1

/-- Replicas of adopted volumes enter Degraded, or Paused when asynchronous (R356). -/
def State.slipAdopted (s : State) (gs : List Nat) : State :=
  s.slip.reps.foldl (fun t e =>
    if e.2.role = 1 ∧ gs.contains (t.homeGroup (t.vol e.1).tenant) then
      (t.dropShipReads e.1).setRep e.1 { e.2 with st := if e.2.sync then rsDegraded else rsPaused, queue := [], sent := [], reading := none }
    else t) s

/-! ### At admission (R243, R245) -/

/-- A source replica of a volume that ships its writes. -/
def State.slipSync (s : State) (v : Nat) : Bool := (s.rep v).role = 1 && (s.rep v).sync

/-- A write of the volume fails at admission: Fenced. -/
def State.slipFenced (s : State) (v : Nat) : Bool := s.slipSync v && (s.rep v).st = rsFenced

/-- The ranges of an admitted command are known: all but those of a Dataset Management command, whose data brings them. -/
def NvCmd.rangesKnown (c : NvCmd) : Bool := c.opc ≠ ocDsm || c.xfer = 3

/-- A write-type command of a synchronous volume is admitted: its REP_SEQs, or its backlog bits. A Dataset Management command takes a
REP_SEQ for every range that it announces; its bits are set once its data has brought the ranges.
[DEDUCED: log entry 42] -/
def State.slipAdmit (s0 : State) (c : NvCmd) : State × NvCmd :=
  let s := if c.apply.isNone then s0.slipRead c.vol else s0
  let r := s.rep c.vol
  if !s.slipSync c.vol ∨ c.apply.isSome then (s, c)
  else if r.st = rsInSync then
    let n := if c.opc = ocDsm then c.dsmRanges else 1
    (s.setRep c.vol { r with nextSeq := r.nextSeq + n },
      { c with wantS := true, resS := none, repSeq := some (r.nextSeq + n - 1), repCount := n })
  else if r.st = rsDegraded ∨ r.st = rsResync then (if c.rangesKnown then s.setBacklog c.vol c.ranges else s, c)
  else if r.st = rsBroken then
    (if c.rangesKnown ∧ r.degrade ∧ r.bitmap ≠ 0 then s.setBacklog c.vol c.ranges else s, { c with wantS := true, resS := some false })
  else (s, c)

/-- The ranges of a Dataset Management command are known: where it ships no record, its bits are set now. -/
def State.slipRanges (s0 : State) (key : Nat) : State :=
  let c := s0.nvCmd key
  let s := if c.apply.isNone then s0.slipRead c.vol else s0
  let r := s.rep c.vol
  if !s.slipSync c.vol ∨ c.apply.isSome ∨ (r.st = rsInSync ∧ c.wantS ∧ c.resS.isNone) then s
  else
    let s1 := if r.bitmap ≠ 0 then s.setBacklog c.vol c.ranges else s
    if c.wantS ∧ c.resS.isNone then s1.copyFails key 2 else s1

/-- The records of an admitted command join the queue: one DATA record, one ZERO or DEALLOC record, or one DEALLOC record for each
range. The REP_SEQs of ranges of length 0 are passed over by a MARK before them. -/
def State.slipRecords (s : State) (key : Nat) (data : List Byte) : State :=
  let c := s.nvCmd key
  match c.repSeq with
  | none => s
  | some last =>
    if !c.wantS ∨ c.resS.isSome then s
    else
      let tgt := (s.rep c.vol).tgtVol
      let first := last + 1 - c.ranges.length
      let s := if c.ranges.length < c.repCount then
          s.queueRec c.vol (first - 1) (shipHeader 6 false tgt (first - 1) 0 0 0) (if c.ranges.isEmpty then some key else none)
        else s
      let kind := if c.opc = ocWrite then 1 else if c.opc = ocWriteZeroes ∧ !c.deac then 2 else 3
      let one := fun (t : State) (e : (Nat × Nat) × Nat) =>
        t.queueRec c.vol (first + e.2) (shipHeader kind false tgt (first + e.2) e.1.1 e.1.2 0 ++ data) (if first + e.2 = last then some key else none)
      c.ranges.zipIdx.foldl one s

/-- A write that fails after it was given its REP_SEQs: a record already sent leaves its regions to the backlog, or breaks a replica
without a bitmap; REP_SEQs not yet sent are passed over by MARK records (R242, R245). -/
def State.slipFailed (s : State) (key : Nat) : State :=
  let c := s.nvCmd key
  match c.repSeq with
  | none => s
  | some last =>
    let r := s.rep c.vol
    if r.st = rsBroken then s
    else if c.shipped then (if r.bitmap = 0 then s.slipBroken c.vol 4 else s.setBacklog c.vol c.ranges)
    else if r.st ≠ rsInSync then s.setRep c.vol { r with queue := r.queue.filter (fun e => e.1 + c.repCount ≤ last ∨ last < e.1) }
    else
      let s1 := s.setRep c.vol { r with queue := r.queue.filter (fun e => e.1 + c.repCount ≤ last ∨ last < e.1) }
      (List.range c.repCount).foldl (fun t i =>
        let q := last + 1 - c.repCount + i
        if r.sent.any (fun e => e.1 = q) then t else t.queueRec c.vol q (shipHeader 6 false r.tgtVol q 0 0 0) none) s1

/-- Volumes with a replica are neither deleted nor resized (R238). -/
def State.paired (s : State) (v : Nat) : Bool := (s.rep v).role ≠ 0

end Sys2Proof.Machine
end

