-- ==== Sys2Proof/Machine/NvfOps.lean ====
section
/-! DEFINITION. What ends a write: staging, failure, settling on flash, and a handover's progress (R14, R118, R124, R352,
R360). -/

namespace Sys2Proof.Machine

/-! ### Staging (R118, R352) -/

/-- The parts of `[lo, hi)` outside extents that rise. -/
def outsideExts : List (Nat × Nat) → Nat → Nat → List (Nat × Nat)
  | [], lo, hi => if lo < hi then [(lo, hi - lo)] else []
  | (a, n) :: u, lo, hi =>
    if a + n ≤ lo then outsideExts u lo hi
    else if hi ≤ a then (if lo < hi then [(lo, hi - lo)] else [])
    else (if lo < a then [(lo, a - lo)] else []) ++ outsideExts u (a + n) hi

/-- Insert an extent by its start. -/
def insertExt (e : Nat × Nat) : List (Nat × Nat) → List (Nat × Nat)
  | [] => [e]
  | b :: l => if e.1 ≤ b.1 then e :: b :: l else b :: insertExt e l

/-- The first `n` units of extents.
[DEDUCED: log entry 45] -/
def takeUnits : Nat → List (Nat × Nat) → List (Nat × Nat)
  | _, [] => []
  | n, (a, k) :: l => if n = 0 then [] else if n ≤ k then [(a, n)] else (a, k) :: takeUnits (n - k) l

/-- Units taken, lowest first, from the runs that this head holds. -/
def grabUnits (s : State) (used : List (Nat × Nat)) : Nat → Nat → Nat → List (Nat × Nat)
  | 0, _, _ => []
  | f + 1, r, n =>
    if n = 0 then []
    else if s.peer.runsPeer.contains r then grabUnits s used f (r + 1) n
    else
      let got := takeUnits n (outsideExts used (512 * r) (512 * (r + 1)))
      got ++ grabUnits s used f (r + 1) (n - got.foldl (fun k e => k + e.2) 0)

/-- `n` free units of the pool.
[DEDUCED: log entry 45] -/
def State.takeStage (s : State) (n : Nat) : List (Nat × Nat) :=
  grabUnits s (s.nvf.cmds.foldl (fun l e => e.2.stageAt.foldl (fun l x => insertExt x l) l) []) (s.nvf.poolMib / 2) 0 n

/-- The staging units of a command in order, and the address of one in Saggar memory. -/
def NvCmd.stageList (c : NvCmd) : List Nat := c.stageAt.flatMap (fun e => (List.range e.2).map (fun i => e.1 + i))
def State.stageAddr (s : State) (u : Nat) : Nat := s.reg64 rSAG_BASE + 4096 * u

/-- A command's blocks and their tags lie in clear in Saggar memory: data and tag of each unit (R210). -/
def State.stageWrite (s : State) (c : NvCmd) (blocks : List (List Byte × List Byte)) : State :=
  (c.stageList.zip blocks).foldl (fun t e =>
    (t.hbmWrite (t.stageAddr e.1) e.2.1).hbmWrite (t.reg64 rSAG_BASE + 2 ^ 20 * t.back.dataMib + 16 * e.1) e.2.2) s

/-- A command's blocks, data and tags, go to the peer at the offsets that they have here (R348, R351). -/
def State.mirrorData (s : State) (key : Nat) (blocks : List (List Byte × List Byte)) : State :=
  ((s.nvCmd key).stageAt.foldl (fun (t : State × List (List Byte × List Byte)) e =>
    let here := t.2.take e.2
    if here.isEmpty then t
    else (t.1.mirrorUnits e (here.flatMap Prod.fst) (here.flatMap Prod.snd) key, t.2.drop e.2)) (s, blocks)).1

/-! ### Failure (R124) -/

/-- The hot way that a lookup holds pending is cleared, and the lookups that wait for it start again. -/
def State.dropPend (s : State) (u : Nat) : State :=
  match s.wareUnit u with
  | some w =>
    match w.way with
    | some k =>
      let s1 := s.setHot (k / 4) (k % 4) {}
      { s1 with ware.units := s1.ware.units.map (fun (e : Nat × WareUnit) =>
          (e.1, if e.1 = u then { e.2 with way := none } else if e.2.phase = .pend k then { e.2 with phase := .lookup false } else e.2)) }
    | none => s
  | none => s

/-- A unit of a failed command: one that other references name, or that lies in a row already, goes on without its command; any
other is dropped with what it holds. -/
def State.dropUnit (s : State) (u : Nat) : State :=
  match s.wareUnit u with
  | none => s
  | some w =>
    let c := s.cont w.cid
    if w.cid = 0 ∨ w.hit then (s.dropPend u).delWareUnit u
    else if w.phase = .placed ∨ c.refs ≠ 0 then s.setWareUnit u { w with cmd := 0 }
    else if s.arrayMode ∧ w.phase ≠ .done then ((s.dropPend u).setCont w.cid {}).delWareUnit u
    else s.delWareUnit u

/-- Undo what a write did that has not committed. -/
def State.undoWrite (s : State) (key : Nat) : State :=
  let c := s.nvCmd key
  let s1 := (c.made ++ c.hits).foldl (fun t cid => (t.decRef cid).1) s
  (s1.ware.units.filter (fun e => e.2.cmd = key)).foldl (fun t e => t.dropUnit e.1) s1

/-- A command fails before its durability point: nothing is committed, its counts are restored, and its space is released. A copy at
the peer is cancelled. -/
def State.failCmd (s : State) (key status : Nat) : State :=
  let c := s.nvCmd key
  let s1 := if c.wantP ∧ c.opc = ocWrite then c.stageAt.foldl (fun t e => t.sendCancel (4096 * e.1) (4096 * e.2)) s else s
  ((s1.slipFailed key).undoWrite key).endCmd key status

/-- Commands of the front end that `sel` selects end; nothing that has committed is undone. -/
def State.endCmds (s : State) (status : Nat) (sel : NvCmd → Bool) : State :=
  (s.nvf.cmds.filter (fun e => sel e.2 && !e.2.committed && e.2.phase ≠ .ended)).foldl (fun t e =>
    match t.nvf.cmds.find e.1 with
    | some c => if c.phase = .admitted then t.failCmd e.1 status else t.endCmd e.1 status
    | none => t) s

/-! ### The commit (R12, R124, R223) -/

/-- Every block of a write has its unit, and every unit has its stored length or is lost. -/
def State.resolved (s : State) (c : NvCmd) : Bool :=
  c.blocksLeft = 0 && (!s.arrayMode || (c.made ++ c.hits).all (fun cid => cid < 16 || (s.cont cid).len ≠ 0 || (s.cont cid).poisoned))

/-- Two sets of block ranges share a block. -/
def rangesMeet (a b : List (Nat × Nat)) : Bool :=
  a.any (fun x => b.any (fun y => decide (x.1 < y.1 + y.2) && decide (y.1 < x.1 + x.2)))

/-- An overlapping write-type command admitted earlier has not committed (R16). -/
def State.earlierOpen (s : State) (c : NvCmd) : Bool :=
  s.nvf.cmds.any (fun e => e.2.vol = c.vol && decide (e.2.order < c.order) && e.2.writes && !e.2.committed
    && (e.2.phase = .admitted || e.2.phase = .ended) && rangesMeet e.2.ranges c.ranges)

/-- The location of a shelf block whose row is parity-complete already. -/
def State.shelfLoc (s : State) (cid : Nat) : Option Nat :=
  s.back.segs.findSome? (fun e =>
    (e.2.units.find? (fun u => u.kind = 1 && u.cid = cid && !u.dead && (u.row < e.2.row || e.2.st ≠ 1)
        && !e.2.progs.any (fun p => decide (p.row ≤ u.row) && decide (u.row < p.row + p.rows)))).map
      (fun u => s.locAt e.1 u.row u.grain))

/-- The entries that a command sets: those of its blocks for a Write; the zero block or discarded for the others (R125); CID 2 for
a LOST record that SLIP applies, which its entry's byte 1 says (R241). A discard
changes only blocks that hold something. -/
def State.newEntries (s : State) (c : NvCmd) : List (Nat × MapEnt) :=
  if c.opc = ocWrite then
    c.changes.map (fun e =>
      if s.arrayMode then (e.1, { a := e.2.1, b := e.2.2 })
      else match s.shelfLoc e.2.1 with
        | some l => (e.1, { a := e.2.1, b := e.2.2, loc := l })
        | none => (e.1, { a := e.2.1, b := e.2.2, inFlight := true }))
  else if c.apply.isSome ∧ sqeField c.sqe 1 1 = 4 then
    c.ranges.flatMap (fun g => (List.range g.2).map (fun i => (g.1 + i, ({ a := 2 } : MapEnt))))
  else if c.opc = ocWriteZeroes ∧ !c.deac then
    c.ranges.flatMap (fun g => (List.range g.2).map (fun i => (g.1 + i, ({ a := 1, b := if c.format then c.lbat else 0 } : MapEnt))))
  else
    let x := s.vol c.vol
    c.ranges.flatMap (fun g => (s.entriesIn g.1 (g.1 + g.2) x.levels x.root 0).map (fun e => (e.1, {})))

/-- One entry of a commit; a shelf block that is on flash already counts in its segment. -/
def State.commitEntry (c : NvCmd) (s : State) (e : Nat × MapEnt) : State × List DeltaRec :=
  let r := s.setEntry c.vol c.epoch e.1 e.2 (decide (16 ≤ e.2.a))
  if !s.arrayMode ∧ e.2.mapped ∧ !e.2.inFlight then (r.1.addValid e.2.loc 8, r.2) else r

/-- The content entry of a new unit joins the commit with its first reference, and its grains count (R223, R233).
[DEDUCED: log entry 130] -/
def State.countUnit (s : State) (cid : Nat) : State × List DeltaRec :=
  let x := s.cont cid
  if x.counted ∨ x.len = 0 then (s, [])
  else
    let x1 := { x with counted := true }
    ((s.setCont cid x1).modTen (s.domTenant x.dom) (fun t => { t with physGrains := t.physGrains + grainsOf x.len }),
      [{ kind := 2, key := cid, extra := { x1 with refs := 1 }.bytes }])

/-- The first reference of a unit whose KIND 2 record is in the commit has no KIND 4 record of its own. -/
def dropFirstRef (recs : List DeltaRec) (r : DeltaRec) : List DeltaRec :=
  if r.kind = 2 then recs.eraseP (fun x => x.kind = 4 && x.key = r.key && x.value = 1) else recs

/-- Commit the changes of a command as one unit, when all its blocks are resolved, earlier overlapping writes have committed, the map
pages are here and the ring has room.
[DEDUCED: log entry 99, 130] -/
def State.tryCommit (s : State) (key : Nat) : State :=
  let c := s.nvCmd key
  if c.committed ∨ !s.resolved c ∨ s.earlierOpen c then s
  else
    let es := s.newEntries c
    match es.findSome? (fun e => s.entNeed c.vol c.epoch e.1 e.2) with
    | some m => s.wantPage m
    | none =>
      let u := State.foldRecs State.countUnit (if s.arrayMode then c.made ++ c.hits else []) s []
      let r0 := State.foldRecs (State.commitEntry c) es u.1 []
      let r := (r0.1, u.2 ++ u.2.foldl dropFirstRef r0.2)
      match r.2.find? (fun d => d.kind = 5 && !s.mpaOk d.value) with
      | some d =>
        -- a tree page that cannot be stored (R265)
        if c.phase = .admitted then (s.ftlError 0x04 d.value).failCmd key scCapacity else s
      | none =>
      if !r.1.deltaRoom (r.1.withTables r.2) then
        if c.ringWaits then s else s.deltaWait.modNvCmd key (fun x => { x with ringWaits := true })
      else
        let s1 := (if c.rsv = 0 then r.1 else r.1.modTen c.tenant (fun t => { t with rsvGrains := t.rsvGrains - c.rsv })).commit r.2 key
        let s2 := s1.modNvCmd key (fun x => { x with committed := true, commitSeq := s1.lmap.commitSeq, rsv := 0, ringWaits := false })
        if c.medium then s2.deltaPage else s2

/-! ### Settling (write step 10) -/

/-- The checkpoint, or a delta page, holds commit unit `seq`. -/
def State.onFlash (s : State) (seq : Nat) : Bool :=
  decide (seq ≤ s.back.deltaDone) || decide (seq ≤ s.reg64 rFTL_CKPT_SEQ)

/-- Every unit that a command made or refers to lies in a parity-complete row, or is lost. -/
def State.unitsOnFlash (s : State) (c : NvCmd) : Bool :=
  if s.arrayMode then (c.made ++ c.hits).all (fun cid => !(s.cont cid).inFlight || (s.cont cid).poisoned)
  else c.changes.all (fun e => let x := s.lookup c.vol e.1; !(x.a = e.2.1 && x.inFlight))

/-- Commands that have ended and whose changes are committed and units all on flash release their space. -/
def State.settle (s : State) : State :=
  (s.nvf.cmds.filter (fun e => e.2.phase = .ended && e.2.committed && s.unitsOnFlash e.2)).foldl (fun t e =>
    (t.forget e.1).volDeletePump e.2.vol) s

/-- Writes that have ended at their host before their lookups commit as soon as they can, in admission order. -/
def State.commitPump (s : State) : State :=
  ((s.nvf.cmds.filter (fun e => e.2.phase = .ended && !e.2.committed)).foldl (fun t e => t.tryCommit e.1) s).settle

/-- The key of a write that has ended at its host while it still holds its space: its identifier is free again. -/
def endedKey (order : Nat) : Nat := 2 ^ 44 + order

/-- A write ends at its host with success; its space, and a commit that waits for lookups, stay. -/
def State.endWrite (s : State) (key status : Nat) : State :=
  let c := s.nvCmd key
  let k := endedKey c.order
  let s1 := (s.complete c status 0 0).releaseCells key
  { s1 with
    nvf.cmds := (s1.nvf.cmds.del key).ins k { c with phase := .ended, ovl := 0, status := status }
    ware.units := s1.ware.units.map (fun (e : Nat × WareUnit) => (e.1, if e.2.cmd = key then { e.2 with cmd := k } else e.2))
    peer.writes := s1.peer.writes.map (fun (w : Nat × Nat) => (w.1, if w.2 = key then k else w.2)) }.queuePump c.ctx

/-! ### Handover (R360) -/

/-- A command of the group is admitted or handed over and has not ended. -/
def State.groupBusy (s : State) (g : Nat) : Bool :=
  s.nvf.cmds.any (fun e => !e.2.connect && !e.2.admin && s.homeGroup e.2.tenant = g && (e.2.phase = .admitted || e.2.phase = .software))

/-- The steps of a handover as far as they can go: the group's commands end, a full checkpoint is written, every member is released,
and HANDOVER is sent. -/
def State.handoverPump (s : State) : State :=
  match s.peer.handover with
  | none => s
  | some (_, g, halves) =>
    if s.peer.handoverStep = 0 ∧ !s.groupBusy g ∧ s.back.ckpt.isNone then
      { s with peer.handoverStep := 1, back.ckptCount := 0 }.startCkpt none
    else if s.peer.handoverStep = 1 ∧ s.back.ckpt.isNone then
      let s1 := (s.groupMembers g).foldl (fun t m => t.sendOp m { opcode := opRelease, addr := 0 } []) s
      { (s1.sendMsg 6 (le 1 g ++ le 1 halves ++ le 6 s1.back.ckptLoc ++ le 8 (s1.reg64 rFTL_CKPT_SEQ))).1 with peer.handoverStep := 2 }
    else s

/-- What may go on once a command has left: its volume's deletion and a handover. -/
def State.afterEnd (s : State) (v : Nat) : State := (s.volDeletePump v).handoverPump

/-- A command that is neither a write nor holds anything on the ware lanes ends. -/
def State.finishCmd (s : State) (key status : Nat) (dw0 : Nat := 0) : State :=
  (s.endCmd key status dw0).afterEnd (s.nvCmd key).vol

end Sys2Proof.Machine
end

