-- ==== Sys2Proof/Machine/ReadOps.lean ====
section
/-! DEFINITION. Reading stored units: from Saggar memory while they are in flight, and from flash by READ operations (read steps
4 and 5, R269, R286, R332). -/

namespace Sys2Proof.Machine

/-- The ADDR of a READ of codewords of a member position's page: at the retry level of its block's last good read (R269, R331), or at `more`
levels past it. -/
def State.readAddr (s : State) (id r p mask more : Nat) : Nat × Nat :=
  let v := s.seg id
  let b := v.posBlocks.getD p (0, 0)
  (b.1, nandAddr b.2 r mask 0 (b2n v.native) (((s.block (blockKey b.1 b.2)).retry + more) % 13))

/-- A member position is read: its member is Online (R297). -/
def State.posRead (s : State) (id p : Nat) : Bool := (s.member ((s.seg id).posBlocks.getD p (0, 0)).1).st = 1

/-- The READ operations of some codewords of a row, (position, codeword): one for each member that is read. -/
def State.wordReads (s : State) (id r : Nat) (ws : List (Nat × Nat)) : List (Nat × Nat) :=
  ((dedupNat (ws.map Prod.fst)).filter (s.posRead id)).map (fun p =>
    s.readAddr id r p (maskOf ((ws.filter (fun g => g.1 = p)).map Prod.snd)) 0)

/-- The codewords of `n` row grains from `i` on: (position, codeword). -/
def wordsOf (id w r i n : Nat) : List (Nat × Nat) :=
  ((List.range n).map (fun k => (grainPos id w r (i + k), (i + k) % 32 / 8))).eraseDups

/-- The READ operations that fetch `n` grains from a location: (module, ADDR). A location that addresses nothing takes none. -/
def State.readAddrs (s : State) (loc n : Nat) : List (Nat × Nat) :=
  match s.rowGrain loc with
  | none => []
  | some (id, r, i) => s.wordReads id r (wordsOf id (s.seg id).width r i n)

def State.sendReads (s : State) (ops : List (Nat × Nat)) : State :=
  ops.foldl (fun t a => t.sendOp a.1 { opcode := opRead, addr := a.2 } []) s
def State.endReads (s : State) (ops : List (Nat × Nat)) : State := ops.foldl (fun t a => t.endOp a.1 opRead a.2) s

/-- The ware unit that holds a unit in flight. -/
def State.inFlightUnit (s : State) (cid : Nat) : Option (Nat × WareUnit) :=
  s.ware.units.find? (fun e => e.2.cid = cid && !e.2.hit && cid ≠ 0)

/-- Where a read finds a unit, and its grains: from the content entry, or in shelf mode from the leaf entry. -/
def State.unitAt (s : State) (r : ReadUnit) : Nat × Nat :=
  if s.arrayMode then ((s.cont r.cid).loc, grainsOf (s.cont r.cid).len) else ((s.lookup (s.nvCmd r.cmd).vol r.lba).loc, 8)

/-- The Saggar address of a unit's block, while its Write holds it there. -/
def State.saggarAddr (s : State) (w : WareUnit) : Option Nat :=
  match s.nvf.cmds.find w.cmd with
  | some c => if c.opc = ocWrite then (c.stageList[w.lba - c.slba]?).map s.stageAddr else none
  | none => none

/-- A block in Saggar memory is lost (R306): its CID, or in shelf mode its block, is poisoned with CAUSE 1. -/
def State.saggarLost (s : State) (u : Nat) (w : WareUnit) : State :=
  let v := (s.nvCmd w.cmd).vol
  let s1 := if s.arrayMode then s.poisonCid w.cid 1
    else if (s.lookup v w.lba).a = w.cid then s.poisonBlock v w.lba 1
    else (s.modNvCmd w.cmd (fun c => { c with changes := c.changes.map (fun x => if x.2.1 = w.cid then (x.1, 2, x.2.2) else x) })).mediaLoss
      ⟨4, 1, v, w.lba⟩
  (s1.delWareUnit u).commitPump

/-- The address of the tag of a block of Saggar memory: the tag area lies above the data area, 16 bytes for each block (R304). -/
def State.saggarTag (s : State) (a : Nat) : Nat := s.reg64 rSAG_BASE + 2 ^ 20 * s.back.dataMib + 16 * ((a - s.reg64 rSAG_BASE) / 4096)

/-- A range of Saggar memory is written again as it was, in whole sectors. -/
def State.saggarAgain (s : State) (a n : Nat) : State :=
  let b := a / 64 * 64
  s.hbmWrite b (s.hbmRead b (64 * ceilDiv (a + n - b) 64))

/-- A unit's block and its tag are read from Saggar memory (R306): an uncorrectable error is repaired from the peer's copy while the mirror is
Healthy. The answer says whether the block is there.
[DESIGN CHOICE: log entry 126] -/
def State.saggarRead (s : State) (u : Nat) (w : WareUnit) : State × Bool :=
  match s.saggarAddr w with
  | none => (s, true)
  | some a =>
    let tag := s.saggarTag a
    if s.hbmErr a 4096 ∨ s.hbmErr tag 16 then
      let s1 := if s.hbmErr a 4096 then s.noteErr a 4096 else s.noteErr tag 16
      if s.mirror = msHealthy then (((s1.bump fSAG_PEER_REPAIR).hbmWrite a w.data).saggarAgain tag 16, true) else (s1.saggarLost u w, false)
    else (s, true)

/-- A read of a stored unit starts. -/
def State.startRead (s : State) (r : ReadUnit) : State :=
  let id := s.ware.nextRead
  let s1 := { s with ware.nextRead := id + 1 }
  match s.inFlightUnit r.cid with
  | some (u, w) =>
    let m := s1.saggarRead u w
    let r1 : ReadUnit := if m.2 then { r with phase := .done, data := w.data } else { r with phase := .failed scUnrecovered }
    { m.1 with ware.reads := m.1.ware.reads.ins id r1 }
  | none =>
    let a := s.unitAt r
    let ops := s.readAddrs a.1 a.2
    { s1 with ware.reads := s1.ware.reads.ins id { r with phase := .fetch, loc := a.1, grains := a.2, ops := ops } }.sendReads ops

def State.readUnit (s : State) (id : Nat) : Option ReadUnit := s.ware.reads.find id
def State.setReadUnit (s : State) (id : Nat) (r : ReadUnit) : State := { s with ware.reads := s.ware.reads.ins id r }

/-! ### Placing units (write step 9) -/

/-- The unit of a ware unit that is ready: a content unit, or in shelf mode a block. -/
def State.readyUnit (s : State) (w : WareUnit) : Placed :=
  if s.arrayMode then
    { kind := 0, row := 0, grain := 0, grains := grainsOf w.form.length, ref := w.cid, form := w.form
      tag := blockTag w.guard w.form.length (w.cid % 2 ^ 48) }
  else
    ({ kind := 1, row := 0, grain := 0, grains := 8, ref := w.lba, app := (s.nvCmd w.cmd).vol, cid := w.cid } : Placed).withForm w.data

/-- A unit that is ready takes its grains in an open row of its tenant's group, or waits for space. A row in which a Medium command
waits is programmed when its fill time ends. -/
def State.placeWare (s : State) (u : Nat) : State :=
  match s.wareUnit u with
  | some w =>
    let m := if w.phase = .place ∧ !s.arrayMode then s.saggarRead u w else (s, true)
    if !m.2 then m.1
    else if w.phase = .place then
      match m.1.placeHost (s.homeGroup w.tenant) (s.readyUnit w) with
      | (s1, some (id, _, _)) =>
        let s2 := s1.setWareUnit u { w with phase := .placed }
        if (s.nvCmd w.cmd).medium then s2.modSeg id (fun v => { v with medium := true }) else s2
      | (s1, none) => s1
    else s
  | none => s

/-- Units that wait for space try again, oldest first. -/
def State.placeAll (s : State) : State :=
  (s.ware.units.filter (fun e => e.2.phase = .place)).foldl (fun t e => t.placeWare e.1) s

/-! ### Wedge's engines (R194, R195) -/

def State.wedgeQuad (s : State) (q : Nat) : WedgeQuad := s.ware.wedge.get {} q
def State.setWedgeQuad (s : State) (q : Nat) (v : WedgeQuad) : State := { s with ware.wedge := s.ware.wedge.put {} q v }

/-- The compressors, and the decompressors, of a quadrant that hold a unit. -/
def State.compHeld (s : State) (q : Nat) : List Nat :=
  (s.ware.units.filter (fun e => e.2.quad = q && e.2.phase = .compress)).filterMap (fun e => e.2.eng)
def State.decHeld (s : State) (q : Nat) : List Nat :=
  (s.ware.units.filter (fun e => e.2.quad = q && e.2.phase = .check)).filterMap (fun e => e.2.eng)
    ++ (s.ware.reads.filter (fun e => e.2.quad = q && e.2.phase = .decode)).filterMap (fun e => e.2.eng)

/-- A free engine for the paths: the lowest that is not reserved for jobs and is not the one that failed the unit. The highest-numbered
engines are the reserved ones.
[DESIGN CHOICE: log entry 124] -/
def State.compFree (s : State) (q : Nat) (bad : Option Nat) : Option Nat :=
  (List.range (12 - s.fld (fWEDGE_CTRL_JOB_COMP q))).find? (fun k => !(s.compHeld q).contains k && bad ≠ some k)
/-- [DESIGN CHOICE: log entry 124] -/
def State.decFree (s : State) (q : Nat) (bad : Option Nat) : Option Nat :=
  (List.range (16 - s.fld (fWEDGE_CTRL_JOB_DECOMP q))).find? (fun k => !(s.decHeld q).contains k && bad ≠ some k)

/-- Units that wait for a compressor start, in order; a unit is compressed again on another one (R194). -/
def State.compStarts (s : State) (q : Nat) : State :=
  (s.ware.units.filter (fun e => e.2.quad = q && e.2.phase = .compress && e.2.eng.isNone)).foldl (fun t e =>
    match t.compFree q e.2.comp with
    | some k => t.setWareUnit e.1 { e.2 with eng := some k }
    | none => t) s

/-- The units and reads of a quadrant that wait for a decompressor, in order of arrival. -/
def State.decQueue (s : State) (q : Nat) : List (Bool × Nat) :=
  let want := (s.ware.units.filter (fun e => e.2.quad = q && e.2.phase = .check && e.2.eng.isNone)).map (fun e => (false, e.1))
    ++ (s.ware.reads.filter (fun e => e.2.quad = q && e.2.phase = .decode && e.2.eng.isNone)).map (fun e => (true, e.1))
  let old := (s.wedgeQuad q).queue.filter want.contains
  old ++ want.filter (fun e => !old.contains e)

/-- One of them starts; a read is decoded again on another decompressor (R195). -/
def State.decStart (q : Nat) (s : State) (e : Bool × Nat) : State :=
  if e.1 then
    match s.readUnit e.2 with
    | some r => match s.decFree q r.failed with
      | some k => s.setReadUnit e.2 { r with eng := some k }
      | none => s
    | none => s
  else
    match s.wareUnit e.2 with
    | some w => match s.decFree q none with
      | some k => s.setWareUnit e.2 { w with eng := some k }
      | none => s
    | none => s

/-- The engines of a quadrant go to the units that wait. -/
def State.wedgeEngines (s : State) (q : Nat) : State :=
  let s1 := s.compStarts q
  let s2 := (s1.decQueue q).foldl (State.decStart q) s1
  s2.setWedgeQuad q { s2.wedgeQuad q with queue := s2.decQueue q }

end Sys2Proof.Machine
end

