-- ==== Sys2Proof/Machine/Parity.lean ====
section
/-! DEFINITION. The payloads of a stripe row, its P and Q, and reading a unit with the erasures of its codewords repaired (R251, R254, R255,
R269, R270, R299-R302). -/

namespace Sys2Proof.Machine

/-! ### What a row holds (R251, R254, R299) -/

/-- The 512 bytes of row grain `g` of row `r`; a grain of no unit is padding. -/
def Segment.grainBytes (v : Segment) (r g : Nat) : List Byte :=
  match v.units.find? (fun u => u.row = r && decide (u.grain ≤ g) && decide (g < u.grain + u.grains)) with
  | some u => fitBytes 512 ((if v.aligned then u.form else u.tag ++ u.form).drop (512 * (g - u.grain)))
  | none => zeros 512

/-- The tag field of codeword `k` of data column `c`: an aligned unit's tag. -/
def Segment.tagField (v : Segment) (r c k : Nat) : List Byte :=
  match v.units.find? (fun u => v.aligned && u.row = r && u.grain = 32 * c + 8 * k) with
  | some u => fitBytes 16 u.tag
  | none => zeros 16

/-- The payload of codeword `k` of data column `c`: 4,096 data bytes and the tag field. -/
def Segment.dataWord (v : Segment) (r c k : Nat) : List Byte :=
  (List.range 8).flatMap (fun j => v.grainBytes r (32 * c + 8 * k + j)) ++ v.tagField r c k

/-- The payloads of the data columns at a codeword position. -/
def Segment.dataWords (v : Segment) (r k : Nat) : List (List Byte) := (List.range (v.width - 2)).map (fun c => v.dataWord r c k)

/-- P and Q of a row are computed (R300). -/
def Segment.withParity (v : Segment) (r : Nat) : Segment :=
  { v with parity := (List.range 4).foldl (fun t k =>
      (t.ins (8 * r + 2 * k) (parityP (v.dataWords r k))).ins (8 * r + 2 * k + 1) (parityQ (v.dataWords r k))) v.parity }

/-- The payload of codeword `k` at a member position of segment `id`, as it was programmed. -/
def Segment.word (v : Segment) (id r p k : Nat) : List Byte :=
  if p = pPos id v.width r then v.parity.get [] (8 * r + 2 * k)
  else if p = qPos id v.width r then v.parity.get [] (8 * r + 2 * k + 1)
  else v.dataWord r ((dataCols id v.width r).findIdx (· = p)) k

/-- The page of row `r` that a member position programs (R251, R254). -/
def Segment.page (v : Segment) (id r p : Nat) : List Byte := flashPage ((List.range 4).map (v.word id r p))

/-! ### Erasures (R301) -/

/-- The codewords that a unit touches: (position, codeword). -/
def State.unitWords (s : State) (id : Nat) (u : Placed) : List (Nat × Nat) := wordsOf id (s.seg id).width u.row u.grain u.grains

/-- Codeword `k` at position `p` of a row is an erasure: its member is not Online, it failed every read step, or its READ did not return
it (`more`). -/
def State.erased (s : State) (id row p k : Nat) (more : List (Nat × Nat)) : Bool :=
  let v := s.seg id
  (s.member (v.posBlocks.getD p (0, 0)).1).st ≠ 1 || v.lost.contains (row, p, k) || more.contains (p, k)

/-- The erasures of codeword position `k` of a row. -/
def State.erasures (s : State) (id row k : Nat) (more : List (Nat × Nat)) : Nat :=
  ((List.range (s.seg id).width).filter (fun p => s.erased id row p k more)).length

/-- The most erasures that meet at an erased codeword of a unit. -/
def State.unitErasures (s : State) (id : Nat) (u : Placed) (more : List (Nat × Nat)) : Nat :=
  ((s.unitWords id u).filter (fun x => s.erased id u.row x.1 x.2 more)).foldl (fun n x => max n (s.erasures id u.row x.2 more)) 0

/-! ### Reading a unit (R301, R302) -/

/-- Payloads that arrive altered: (position, codeword, payload). -/
abbrev Arrived := List (Nat × Nat × List Byte)

/-- The payload of a codeword as it arrives; none for an erasure. -/
def State.wordAs (s : State) (id r k : Nat) (arrived : Arrived) (more : List (Nat × Nat)) (p : Nat) : Option (List Byte) :=
  if s.erased id r p k more then none
  else some (match arrived.find? (fun a => a.1 = p && a.2.1 = k) with
    | some a => a.2.2
    | none => (s.seg id).word id r p k)

/-- The payload of a data column's codeword, repaired from the others where it is an erasure. -/
def State.wordRead (s : State) (id r p k : Nat) (arrived : Arrived) (more : List (Nat × Nat)) : List Byte :=
  let w := (s.seg id).width
  let got := s.wordAs id r k arrived more
  match got p with
  | some d => d
  | none =>
    let cols := dataCols id w r
    (repairColumn (cols.map got) (got (pPos id w r)) (got (qPos id w r)) (cols.findIdx (· = p))).getD (zeros 4112)

/-- The tag and the stored form of a unit as they are read. -/
def State.readForm (s : State) (id : Nat) (u : Placed) (arrived : Arrived) (more : List (Nat × Nat)) : List Byte × List Byte :=
  let v := s.seg id
  let word := fun (g : Nat) => s.wordRead id u.row (grainPos id v.width u.row g) (g % 32 / 8) arrived more
  if v.aligned then (slice (word u.grain) 4096 16, (word u.grain).take 4096)
  else
    let bs := (List.range u.grains).flatMap (fun j => slice (word (u.grain + j)) (512 * ((u.grain + j) % 8)) 512)
    (bs.take 16, slice bs 16 u.form.length)

/-- The tag read with a unit names it (R283). -/
def Placed.tagOk (u : Placed) (b : List Byte × List Byte) : Bool := b.1 = u.named b.2

/-! ### The ladder (R269-R271) -/

/-- How a codeword's ladder ended. -/
inductive Ladder where
  | hard (step : Nat)
  | soft
  | lost
  deriving DecidableEq, Repr

/-- One READ of a codeword, sent and answered. -/
def State.readOnce (s : State) (a : Nat × Nat) : State := (s.sendReads [a]).endReads [a]

/-- The ladder of a codeword after its first READ: each further step is a READ at the next retry level, the soft step three READs at the offset
levels 13-15. Each step after step 0 is counted, and the level that succeeds is kept. -/
def State.ladder (s : State) (id r p k : Nat) (t : DecodeTry) : State × Ladder :=
  let most := s.fld fFTL_READ_CFG_RETRY_MAX
  let b := (s.seg id).posBlocks.getD p (0, 0)
  let key := blockKey b.1 b.2
  let steps := fun (n : Nat) =>
    ((List.range n).foldl (fun t i => t.readOnce (s.readAddr id r p (2 ^ k) (i + 1))) s).bump fFTL_READ_RETRY n
  match (List.range (most + 1)).find? (fun i => t.hard.getD i false) with
  | some i =>
    let s1 := steps i
    (if i = 0 then s1 else s1.setBlock key { s1.block key with retry := ((s.block key).retry + i) % 13 }, .hard i)
  | none =>
    let s1 := steps most
    if s.fld fFTL_READ_CFG_SOFT_EN = 1 then
      let soft := (List.range 3).map (fun i => (b.1, nandAddr b.2 r (2 ^ k) 0 (b2n (s.seg id).native) (13 + i)))
      (((soft.foldl State.readOnce s1).bump fFTL_READ_RETRY).bump fFTL_SOFT_DECODE, if t.soft then .soft else .lost)
    else (s1, .lost)

/-- A codeword position is lost: (row, position, codeword); and found again, when it decodes. -/
def State.findCodeword (s : State) (id r p k : Nat) : State :=
  if (s.seg id).lost.contains (r, p, k) then s.modSeg id (fun v => { v with lost := v.lost.filter (· ≠ (r, p, k)) }) else s
def State.loseCodeword (s : State) (id r p k : Nat) : State :=
  s.modSeg id (fun v => if v.lost.contains (r, p, k) then v else { v with lost := v.lost ++ [(r, p, k)] })

/-- Reads mark a segment REFRESH; the block that brought it there is counted (R274). -/
def State.markRefresh (s : State) (id key : Nat) : State :=
  if (s.seg id).refresh then s
  else (s.modSeg id (fun v => { v with refresh := true })).setBlock key { s.block key with refreshes := (s.block key).refreshes + 1 }

/-- A codeword is uncorrectable (R270): it is counted, its segment is marked REFRESH, and it is an erasure from now on. -/
def State.uncorrectable (s : State) (id r p k : Nat) : State :=
  let b := (s.seg id).posBlocks.getD p (0, 0)
  (((s.bump fFTL_UNCORRECTABLE).ftlError 0x03 (⟨b.1, b.2, r, 8 * k⟩ : Loc).code).markRefresh id (blockKey b.1 b.2)).loseCodeword id r p k

/-- One codeword of a unit is read; a member that is not Online is not. -/
def State.readWord (id r : Nat) (s : State) (e : (Nat × Nat) × DecodeTry) : State :=
  if !s.posRead id e.1.1 then s
  else
    let l := s.ladder id r e.1.1 e.1.2 e.2
    match l.2 with
    | .lost => l.1.uncorrectable id r e.1.1 e.1.2
    | _ => l.1.findCodeword id r e.1.1 e.1.2

/-- A codeword that decodes at once. -/
def goodTry : DecodeTry := { hard := [true], soft := true }

/-- The codewords of a unit are read, each through its ladder. A unit whose codewords all decode and whose tag fails takes the path of an
uncorrectable one: its codewords are erasures (R270, R301). -/
def State.readUnitWords (s : State) (id : Nat) (u : Placed) (found : CodewordTry) : State :=
  let ws := s.unitWords id u
  let s1 := (ws.zip (found.tries ++ List.replicate ws.length goodTry)).foldl (State.readWord id u.row) s
  if ws.any (fun w => s1.erased id u.row w.1 w.2 []) ∨ u.tagOk (s1.readForm id u found.arrived []) then s1
  else ws.foldl (fun t w => t.uncorrectable id u.row w.1 w.2) s1

/-- The READs that a repair needs beside the unit's own: codeword `k` of every other position of the row, for each of its erased codewords (R302). -/
def State.repairReads (s : State) (id : Nat) (u : Placed) (more : List (Nat × Nat)) : List (Nat × Nat) :=
  let gone := (s.unitWords id u).filter (fun w => s.erased id u.row w.1 w.2 more)
  s.wordReads id u.row (gone.flatMap (fun w =>
    ((List.range (s.seg id).width).filter (fun p => !s.erased id u.row p w.2 more)).map (fun p => (p, w.2)))).eraseDups

end Sys2Proof.Machine
end

