-- ==== Sys2Proof/Machine/BackOps.lean ====
section
/-! DEFINITION. What the rows of FTL, PUG, PAR and RBLD share: programs of rows, units that lie on flash, units placed again, live
units, lost map pages, retirement, and the state of groups (R235, R258, R270-R276, R284-R286, R298, R307-R310, R316-R320). -/

namespace Sys2Proof.Machine

/-! ### Programs (R253, R307, R308, R310) -/

/-- The address of a Saggar log entry, here and in the peer's mirror. -/
def State.logAddr (s : State) (q : Nat) : Nat := s.ringBase + 2 ^ 21 * s.back.deltaMib + 32 * (q % 524288)

/-- SAG changes a log entry in both heads' logs. An entry that an uncorrectable error hits is repaired first (R306).
[DESIGN CHOICE: log entry 126] -/
def State.writeLog (s : State) (id st : Nat) (p : Program) : State :=
  let a := s.logAddr p.logSeq
  let s0 := if s.hbmErr a 32 then
      let t := s.noteErr a 32
      (if s.mirror = msHealthy then t.bump fSAG_PEER_REPAIR else t).saggarAgain a 32
    else s
  let s1 := s0.hbmWrite a (logEntry id st p)
  if s.mirroring then s1.mirrorWrite 0x10 2 (32 * (p.logSeq % 524288)) 0 (logEntry id st p) 0 else s1

/-- The PROGRAM operations of a program: (module, ADDR). -/
def State.progOps (s : State) (v : Segment) (p : Program) : List (Nat × Nat) :=
  (v.posBlocks.filter (fun b => (s.member b.1).st = 1)).map (fun b => (b.1, nandAddr b.2 p.row 0xF p.rows (b2n v.native) 0))

/-- The pages that a program writes at a module's position. -/
def Segment.progData (v : Segment) (id : Nat) (p : Program) (m : Nat) : List Byte :=
  let pos := v.posBlocks.findIdx (fun b => b.1 = m)
  (List.range p.rows).flatMap (fun j => v.page id (p.row + j) pos)

/-- JSTRIP_EN as it reads: 1 in shelf mode with one head (R310). -/
def State.jstripReads (s : State) : Bool := s.fld fSAG_CTRL_JSTRIP_EN = 1 || (s.plat.chip.shelf && decide (s.plat.chip.heads < 2))

/-- Journal strips are kept: also by a head of two whose mirror is not Healthy (R353). -/
def State.jstripOn (s : State) : Bool := s.jstripReads || (decide (s.plat.chip.heads = 2) && decide (s.mirror ≠ msHealthy))

/-- The journal members of a segment, by position; they move on in rotation (R310, R311). -/
def Segment.journalPos (v : Segment) (id turn : Nat) : List Nat :=
  let x := id % 2 ^ 21 + turn
  [x % v.width, (x + v.width / 2) % v.width]

/-- The next page of a member's journal block, pSLC: SAG takes a free block, Used and in no segment, when it has none with room.
[DEDUCED: log entry 136] -/
def State.journalPage (s : State) (m : Nat) : State × Option (Nat × Nat) :=
  let fresh : State × Option (Nat × Nat) := match s.pickBlock m with
    | some b => ({ s.setBlock (blockKey m b) { s.block (blockKey m b) with segment := 0xFFFFFFFF, st := 1 } with back.jblocks := s.back.jblocks.ins m (b, 1) }, some (b, 0))
    | none => (s, none)
  match s.back.jblocks.find m with
  | some (b, p) => if p < 576 then ({ s with back.jblocks := s.back.jblocks.ins m (b, p + 1) }, some (b, p)) else fresh
  | none => fresh

/-- The window record is programmed on a journal member.
[DEDUCED: log entry 136] -/
def State.journalCopy (r : State × List (Nat × Nat × Nat)) (m : Nat) : State × List (Nat × Nat × Nat) :=
  let n := r.1.journalPage m
  match n.2 with
  | some (b, p) =>
    let f := n.1.freeBytes 4096
    (f.2.sendOp m { opcode := opProgram, addr := nandAddr b p 0xF 1 0 0, bufs := 1 } (onePage f.1 (blockTag (guard64 f.1) 0 0xFFFFFFFFFFFE)),
      r.2 ++ [(m, b, p)])
  | none => (n.1, r.2)

/-- The window record of the rows from `first` on is programmed on both journal members (R310).
[DEDUCED: log entry 136] -/
def State.journalWindow (s : State) (id first turn : Nat) : State :=
  let v := s.seg id
  let ms := (dedupNat (v.journalPos id turn)).filterMap (fun p => (v.posBlocks[p]?).map Prod.fst)
  let r := ms.foldl State.journalCopy (s, [])
  r.1.modSeg id (fun w => { w with jwin := some { first := first, rows := s.fld fSAG_JCFG_WINDOW_ROWS, copies := r.2, turn := turn } })

/-- The last window of a segment covers a row. -/
def Segment.covered (v : Segment) (r : Nat) : Bool := match v.jwin with
  | some w => decide (w.first ≤ r) && decide (r < w.first + w.rows)
  | none => false

/-- The highest COMMIT_SEQ that placed one of these units in its row (R307): of the commands that made them.
[DEDUCED: log entry 137] -/
def State.lastCommit (s : State) (us : List Placed) : Nat :=
  us.foldl (fun n u =>
    if u.kind = 4 then max n u.seq
    else if u.kind = 0 ∨ u.kind = 1 then
      match s.ware.units.find? (fun e => e.2.cid = (if u.kind = 1 then u.cid else u.ref) && e.2.phase = .placed) with
      | some e => max n (s.nvCmd e.2.cmd).commitSeq
      | none => n
    else n) 0

/-- The rows, or the wordline, at a segment's current row get their P and Q, are logged, and are programmed on all its members. A window
record covers them first, when journal strips are kept. -/
def State.issueProgram (s0 : State) (id : Nat) : State :=
  let n := s0.progRows (s0.seg id)
  let first := (s0.seg id).row / n * n
  let s := if s0.jstripOn ∧ !(s0.seg id).covered first then
      s0.journalWindow id first (match (s0.seg id).jwin with | some w => w.turn | none => 0) else s0
  let v := s.seg id
  let q := s.back.logSeq + 1
  let us := v.units.filter (fun u => !u.dead && decide (first ≤ u.row) && decide (u.row < first + n))
  let p : Program := { row := first, rows := n, issued := 2 ^ v.width - 1, logSeq := q, lastCommit := s.lastCommit us }
  let v1 := (List.range n).foldl (fun (w : Segment) j => w.withParity (first + j)) v
  let s1 := ({ s with back.logSeq := q }.segRead id).setSeg id { v1 with
    row := first + n, used := 0, medium := false, lastWrite := s.now, progs := v.progs ++ [p] }
  (s.progOps v p).foldl (fun t a => t.sendOp a.1 { opcode := opProgram, addr := a.2, bufs := p.rows } (v1.progData id p a.1)) (s1.writeLog id 1 p)

/-- The units in the rows of a program. -/
def Segment.progUnits (v : Segment) (p : Program) : List Placed :=
  v.units.filter (fun u => !u.dead && decide (p.row ≤ u.row) && decide (u.row < p.row + p.rows))

/-- The current row or wordline is full: no more of it can be used. -/
def State.rowFull (s : State) (v : Segment) : Bool := decide (v.rowCap ≤ v.used) && (v.row + 1) % s.progRows v = 0

/-! ### A unit's location changes (R223, R258, R266, R286) -/

/-- A location-change record. -/
def locRec (vol key loc : Nat) : DeltaRec := { kind := 3, vol := vol, key := key, value := loc }

/-- Where the root arrays hold the entry of a directory page (R265). -/
def rootOff (m : Nat) : Nat :=
  let r := m / 2 ^ 44 % 4
  (if r = 0 then 0 else if r = 1 then 2 ^ 28 else 2 ^ 29) + 8 * (m % 2 ^ 44)

/-- The root array entry of a directory page (R265). -/
def State.writeRoot (s : State) (m loc : Nat) : State :=
  let off := rootOff m
  ((s.tableRead (s.reg64 rFTL_MPD_BASE + off) 8 m).tabPage 0 off).hbmWrite (s.reg64 rFTL_MPD_BASE + off) (le 8 (loc + 2 ^ 48))

/-- A map, content, directory or full-index page has a new location: its directory or root entry changes. -/
def State.movePage (s : State) (m loc : Nat) : State × List DeltaRec :=
  let s1 := match s.back.pageLoc.find m with
    | some l => s.dropValid l 8
    | none => s
  let s2 := { s1 with
    back.pageLoc := s1.back.pageLoc.ins m loc, lmap.lostPages := s1.lmap.lostPages.filter (· ≠ m) }.addValid loc 8
  let s3 := if mpaRange m = 3 then s2.writeRoot m loc else ((s2.fillFrame (dirMpa m)).frameWrite (dirMpa m) (8 * (m % 512)) (le 8 (s2.dirEntry m))).markDirty (dirMpa m)
  (s3, [locRec 0xFFFE m loc])

/-- A page on flash holds every change of its page again. -/
def State.pageClean (s : State) (m : Nat) : State :=
  let open_ := mpaRange m = 1 && (s.lmap.cids.any (fun e => contentMpa e.1 = m && e.2.inFlight))
  if s.lmap.dirty.contains m ∨ open_ then s else { s with lmap.since := s.lmap.since.del m }

/-- The map still has a use for a page. -/
def State.pageWanted (s : State) (m : Nat) : Bool := mpaRange m ≠ 0 || (s.lmap.pages.find m).isSome

/-- A unit at `(id, row, grain)` is dead. -/
def State.killUnit (s : State) (id : Nat) (u : Placed) : State :=
  s.modSeg id (fun v => { v with units := v.units.map (fun x => if x = u then { x with dead := true } else x) })
def State.setUnit (s : State) (id : Nat) (u new : Placed) : State :=
  s.modSeg id (fun v => { v with units := v.units.map (fun x => if x = u then new else x) })

/-- The ware units of a CID that lie in a row leave: the unit is on flash. -/
def State.wareDone (s : State) (cid : Nat) : State :=
  { s with ware.units := s.ware.units.filter (fun e => !(e.2.cid = cid && e.2.phase = .placed)) }

/-- A write that has not committed names this shelf CID. -/
def State.shelfOpen (s : State) (cid : Nat) : Bool :=
  s.nvf.cmds.any (fun e => !e.2.committed && e.2.changes.any (fun x => x.2.1 = cid))

/-- A unit of a row that is parity-complete: its location commits, or it is void. A move waits for its verification. -/
def State.settleUnit (id : Nat) (s : State) (u : Placed) : State × List DeltaRec :=
  let loc := s.locAt id u.row u.grain
  if u.src.isSome then (s, [])
  else if u.kind = 0 then
    let c := s.cont u.ref
    let s1 := s.wareDone u.ref
    if c.refs = 0 ∨ c.poisoned ∨ !c.inFlight then (s1.killUnit id u, [])
    else ((s1.setCont u.ref { c with loc := loc, inFlight := false }).addValid loc u.grains, [locRec 0xFFFF u.ref loc])
  else if u.kind = 1 then
    let e := s.lookup u.app u.ref
    let s1 := s.wareDone u.cid
    if e.a = u.cid ∧ e.inFlight then
      ((s1.setLeaf u.app u.ref (fun e => { e with loc := loc, inFlight := false })).addValid loc 8, [locRec u.app u.ref loc])
    else if s.shelfOpen u.cid then (s1, [])
    else (s1.killUnit id u, [])
  else if u.kind = 2 then
    if s.pageWanted u.ref then
      let r := s.movePage u.ref loc
      (r.1.pageClean u.ref, r.2)
    else (s.killUnit id u, [])
  else (s, [])

/-- What a header or a delta page on flash means. -/
def State.settleSystem (id : Nat) (s : State) (u : Placed) : State :=
  if u.dead then s
  else if u.kind = 5 then s.modCkpt (fun c => { c with header := some (s.locAt id u.row u.grain) })
  else if u.kind = 4 then { s with back.deltaDone := max s.back.deltaDone u.seq }
  else s

/-- Units that settle in one commit unit. -/
def State.settleUnits (s : State) (id : Nat) (us : List Placed) : State :=
  let r := State.foldRecs (State.settleUnit id) us s []
  let s1 := if r.2.isEmpty then r.1 else r.1.commit r.2
  us.foldl (State.settleSystem id) s1

/-! ### Units placed again (R272, R289) -/

/-- A PUG error is captured. -/
def State.pugError (s : State) (code a b : Nat) : State := (s.capture pgPUG code a b).irqBit pgPUG 2

/-- A unit that cannot stay where it was placed goes back: a host unit and a page are placed in a later row, a header and a delta page are
formed again; a move is read again from its source. -/
def State.rePlace (id : Nat) (s : State) (u : Placed) : State :=
  let s1 := s.killUnit id u
  if u.src.isSome then (s1.bump fPUG_DEST_FAIL).pugError 0x03 id u.row
  else if u.kind = 0 ∨ u.kind = 1 then
    let cid := if u.kind = 0 then u.ref else u.cid
    match s1.ware.units.find? (fun e => e.2.cid = cid && e.2.phase = .placed) with
    | some e => (s1.setWareUnit e.1 { e.2 with phase := .place }).placeWare e.1
    | none => s1
  else if u.kind = 2 then (s1.markDirty u.ref)
  else if u.kind = 3 ∨ u.kind = 5 then s1.ckptAgain
  else s1.deltaPage

/-! ### The unit tags at parity (R303) -/

/-- A unit that failed its tag check is formed again from its Saggar copy, and a page from the map; a move is void.
[DEDUCED: log entry 125] -/
def State.formAgain (s : State) (u : Placed) : State :=
  if u.src.isSome then s.bump fPUG_MOVES_VOID
  else if u.kind = 0 then
    match s.ware.units.find? (fun e => e.2.cid = u.ref && e.2.phase = .placed) with
    | some e => (s.setWareUnit e.1 { e.2 with phase := .compress, form := [], tries := 0, eng := none, comp := none }).wedgeEngines e.2.quad
    | none => s
  else if u.kind = 1 then
    match s.ware.units.find? (fun e => e.2.cid = u.cid && e.2.phase = .placed) with
    | some e => (s.setWareUnit e.1 { e.2 with phase := .place }).placeWare e.1
    | none => s
  else if u.kind = 2 then s.markDirty u.ref
  else if u.kind = 3 ∨ u.kind = 5 then s.ckptAgain
  else s.deltaPage

/-- TAG_AT_PARITY and TAG_ERROR.
[DEDUCED: log entry 39] -/
def State.tagAtParity (s : State) (u : Placed) : State :=
  let n := if u.kind = 1 then u.cid else u.ref
  ((((s.bump fPAR_TAG_ERR).capture pgPAR 0x01 n u.row).irqBit pgPAR 1).event pgPAR 2 (le 8 n)).formAgain u

/-- The units of the rows that a segment programs next whose tags fail: each as it was formed, or as `altered` says it arrives, tag and form,
by row and row grain.
[DEDUCED: log entry 125] -/
def State.badAtParity (s : State) (id : Nat) (altered : List (Nat × Nat × List Byte)) : List Placed :=
  let v := s.seg id
  let first := v.row / s.progRows v * s.progRows v
  v.units.filter (fun u => !u.dead && decide (first ≤ u.row) && !u.tagOk (match altered.find? (fun a => a.1 = u.row && a.2.1 = u.grain) with
    | some a => (a.2.2.take 16, a.2.2.drop 16)
    | none => (u.tag, u.form)))

/-- The next rows of a segment are programmed without the units that fail their check, and those are formed again.
[DEDUCED: log entry 125] -/
def State.programRow (s : State) (id : Nat) (altered : List (Nat × Nat × List Byte)) : State :=
  let bad := s.badAtParity id altered
  bad.foldl State.tagAtParity ((s.modSeg id (fun v => { v with units := v.units.filter (fun u => !bad.contains u) })).issueProgram id)

/-- An open segment closes early: what its current rows hold and what `lost` names is placed again. -/
def State.closeEarly (s : State) (id : Nat) (lost : Placed → Bool) : State :=
  let v := s.seg id
  let out := v.units.filter (fun u => !u.dead && ((v.st = 1 && decide (v.row ≤ u.row)) || lost u))
  let s1 := s.setSeg id { v with st := if v.st = 1 then 2 else v.st, earlyClose := true, used := 0, medium := false }
  out.foldl (State.rePlace id) s1

/-! ### Live units (R284) and release (R285) -/

/-- The unit that lies at a grain is live. -/
def State.unitLive (s : State) (id : Nat) (u : Placed) : Bool :=
  let loc := s.locAt id u.row u.grain
  !u.dead &&
  (if u.kind = 0 then let c := s.cont u.ref; c.loc = loc && !c.inFlight && c.refs ≠ 0 && !c.poisoned
   else if u.kind = 1 then let e := s.lookup u.app u.ref; e.mapped && e.loc = loc && !e.inFlight && !e.poisoned
   else if u.kind = 2 then s.back.pageLoc.find u.ref = some loc
   else false)

/-- Nothing of a victim is left to move, and no lost span waits for its scan. -/
def State.allMoved (s : State) (id : Nat) : Bool := (s.seg id).units.all (fun u => !s.unitLive id u) && (s.seg id).unparsed.isEmpty

/-- A segment's table record. -/
def segRec (id : Nat) : DeltaRec := tableRec 5 id

/-- Commit a move's records; the victim is Released in the same commit unit after its last unit. -/
def State.commitMove (s : State) (id : Nat) (recs : List DeltaRec) : State :=
  if (s.seg id).st = 3 ∧ s.allMoved id then
    let g := (s.seg id).group
    let s1 := s.modSeg id (fun v => { v with st := 4, releaseSeq := s.lmap.commitSeq + 1, releasedAt := s.now })
    let s2 := (s1.commit (recs ++ [segRec id])).modGroup g (fun x =>
      { x with victims := x.victims.filter (· ≠ id), rebuilding := if x.rebuilding = some id then none else x.rebuilding })
    let waiting := (s2.back.segs.filter (fun e => e.2.st = 4)).length
    let m := s2.fld fPUG_CKPT_CFG_RELEASED_MAX
    if m ≠ 0 ∧ m ≤ waiting then { s2 with back.ckptAsked := true }.askedCkpt else s2
  else if recs.isEmpty then s else s.commit recs

/-! ### Lost map pages (R235) -/

/-- MAPPED of the volumes whose trees reach a page is counted again (R217, R233). -/
def State.recountMapped (s : State) (m : Nat) : State :=
  (s.lmap.vols.filter (fun v => v.2.kind ≠ 0 && (s.reach v.2.levels v.2.root).contains m)).foldl (fun t v =>
    t.modVol v.1 (fun x => { x with mapped := ((t.entriesFrom x.levels x.root 0).filter (fun e => e.2.mapped)).length })) s

/-- A tree, content or full-index page is lost: it is built again as the kind of page says (R185, R235). -/
def State.pageLost (s : State) (m : Nat) : State :=
  let note := fun (t : State) (vol kind : Nat) =>
    ((t.capture pgLMAP 0x01 m (m / 2 ^ 32)).irqBit pgLMAP 0).event pgLMAP 1 (le 8 m ++ le 2 vol ++ le 1 kind)
  if mpaRange m = 0 then
    match s.lmap.pages.find m with
    | some p =>
      let t := ((s.setTpage m (lostPage p.level s.leafCap p.owner p.birth)).fillFrame m).markDirty m
      ((note t p.owner (if p.level = 1 then 0 else 1)).mediaLoss ⟨3, 4, 0xFFFF, m⟩).recountMapped m
    | none => s
  else if mpaRange m = 1 then
    let t := (List.range 64).foldl (fun t i =>
      let c := 64 * (m % 2 ^ 46) + i
      let x := t.cont c
      let t1 := t.setCont c { x with poisoned := true, refs := 0xFFFFFFFF, fp := zeros 32 }
      if x.poisoned ∨ x.indet then t1 else t1.mediaLoss ⟨1, 4, 0xFFFF, c⟩) ((s.fillFrame m).markDirty m)
    note t 0xFFFF 2
  else if mpaRange m = 2 then s.fidxLost 0 (m % 2 ^ 26)
  else s

/-- A page that the FTL cannot read is lost. With a directory page, every page that it alone leads to is lost.
[DEDUCED: log entry 123] -/
def State.mapPageLost (s : State) (m : Nat) : State :=
  (if mpaRange m ≠ 3 then s.pageLost m
    else if s.resident m then s.markDirty m
    else
      let gone := (s.back.pageLoc.filter (fun e => dirMpa e.1 = m && mpaRange e.1 ≠ 3 && !s.resident e.1)).map Prod.fst
      gone.foldl State.pageLost (({ s with lmap.lostPages := s.lmap.lostPages ++ gone }.fillFrame m).markDirty m)).commitTables

/-- A unit of flash is lost for good: its CID, its block, or its page. -/
def State.loseStored (s : State) (u : Placed) (cause : Nat) : State :=
  if u.kind = 0 then s.poisonCid u.ref cause
  else if u.kind = 1 then s.poisonBlock u.app u.ref cause
  else if u.kind = 2 then s.mapPageLost u.ref
  else s

/-! ### Retirement (R272-R274) -/

/-- Retired and Factory-bad blocks of a member beyond its limit: MEMBER_WORN once. -/
def State.wornCheck (s : State) (m : Nat) : State :=
  let bad := s.blocksIn m (fun x => x = 2 || x = 3) + (s.link m).absentBlocks
  let lim := s.fld fFTL_BAD_CFG_MEMBER_LIMIT
  if lim ≠ 0 ∧ lim * s.allBlocks m < 1000 * bad ∧ !(s.member m).worn then
    (s.setMember m { s.member m with worn := true }).event pgFTL 2 (le 1 m ++ le 4 bad)
  else s

/-- BLOCK_RETIRED. -/
def State.retiredEvent (s : State) (m cause b : Nat) : State := (s.irqBit pgFTL 1).event pgFTL 1 (le 1 m ++ le 1 cause ++ le 4 b)

/-- A block leaves its segment, Retired or Free. -/
def State.freeBlock (s : State) (m b : Nat) (retired : Bool) : State :=
  let x := s.block (blockKey m b)
  let s1 := s.setBlock (blockKey m b) { x with segment := 0xFFFFFFFF, st := if retired then 2 else 0, retire := 0 }
  if retired then s1.wornCheck m else s1

/-- A unit that was placed again has not committed in its new row yet. -/
def State.unitWaits (s : State) (u : Placed) : Bool :=
  match u.src with
  | some (g, r, i) => (s.seg g).units.any (fun x => x.row = r && x.grain = i && s.unitLive g x)
  | none =>
    if u.kind = 0 then s.ware.units.any (fun e => e.2.cid = u.ref && !e.2.hit)
    else if u.kind = 1 then s.ware.units.any (fun e => e.2.cid = u.cid && !e.2.hit)
    else if u.kind = 2 then s.lmap.dirty.contains u.ref || s.pageInRow u.ref
    else false

/-- Log entries of programs that failed are free once the units placed again have committed (R308). -/
def State.logPump (s : State) : State :=
  let out := s.back.logHeld.filter (fun h => !h.waits.any s.unitWaits)
  out.foldl (fun t h => t.writeLog h.seg 0 h.prog) { s with back.logHeld := s.back.logHeld.filter (fun h => h.waits.any s.unitWaits) }

/-! ### Group state (R298, R316, R317, R320) -/

/-- Members of a group that are Failed or Offline. -/
def State.grpDown (s : State) (g : Nat) : Nat :=
  ((s.groupMembers g).filter (fun m => (s.member m).st = 2 || (s.member m).st = 3)).length

/-- When no group can take a unit, every namespace of the head is write-protected. -/
def State.wprotAll (s : State) : State :=
  if (List.range 4).any (fun g => (s.group g).exists_ && s.owns g && (s.group g).st = 3) ∧ !(List.range 4).any s.groupTakes then
    s.nvf.ns.foldl (fun t e => if e.2.wprot then t else t.setNs e.1 { e.2 with wprot := true }) s
  else s

/-- The state of a group is computed again; a change posts GROUP_STATE. -/
def State.groupState (s : State) (g : Nat) : State :=
  let old := (s.group g).st
  let new := min 3 (s.grpDown g)
  if old = new then s
  else (((s.modGroup g (fun x => { x with st := new })).irqBit pgRBLD 1).event pgRBLD 3 (le 1 g ++ le 1 old ++ le 1 new)).wprotAll

/-- Segments that hold a block of a member. -/
def State.holding (s : State) (m : Nat) : List (Nat × Segment) :=
  s.back.segs.filter (fun e => e.2.st ≠ 0 && e.2.blocks.any (fun b => b.1 = m && b.2 ≠ noBlock))

/-- A Failed member whose blocks no segment holds is Vacated, and leaves its group. -/
def State.vacate (s : State) (g : Nat) : State :=
  ((s.groupMembers g).filter (fun m => (s.member m).st = 3 && (s.holding m).isEmpty)).foldl (fun t m =>
    let t1 := (t.setMember m { t.member m with st := 5 }).modGroup g (fun x => { x with members := clearBit x.members m })
    ((t1.irqBit pgRBLD 2).event pgRBLD 4 (le 1 m ++ le 1 g)).groupState g) s

/-- The PROGRAM operations of every open program on a member leave its link. -/
def State.dropProgOps (s : State) (m : Nat) : State :=
  (s.holding m).foldl (fun t e => e.2.progs.foldl (fun t p => (t.progOps e.2 p).foldl (fun t a => if a.1 = m then t.endOp m opProgram a.2 else t) t) t) s

/-- A member is declared Failed (R316): its open segments close, units of programs that are not complete are placed again, a dedicated
spare takes its place, and rebuild starts.
[DEDUCED: log entry 58] -/
def State.declareFailed (s : State) (m reason : Nat) : State :=
  let g := (s.member m).group
  let s0 := match (s.member m).offCmd with
    | some q => (s.dropProgOps m).finishRunning q 0 stEnded
    | none => s.dropProgOps m
  let s1 := s0.setMember m { s0.member m with st := 3, offCmd := none }
  let s2 := (s1.holding m).foldl (fun t e =>
    let v := t.seg e.1
    if v.st = 1 ∨ !v.progs.isEmpty then
      let held := v.progs.map (fun p => ({ seg := e.1, prog := p, waits := v.progUnits p } : LogHeld))
      let t1 := t.closeEarly e.1 (fun u => v.inProg u.row)
      ({ t1 with back.logHeld := t1.back.logHeld ++ held }).modSeg e.1 (fun w => { w with progs := [] })
    else t) s1
  let s3 := match (s2.group g).spares with
    | x :: rest =>
      if (s2.group g).dedicated then
        (s2.setMember x { st := 1, group := g }).modGroup g (fun y => { y with members := y.members ||| 2 ^ x, spares := rest })
      else s2
    | [] => s2
  let s4 := ((s3.irqBit pgRBLD 0).event pgRBLD 1 (le 1 m ++ le 1 g ++ le 1 reason)).groupState g
  ((((if (s4.group g).st = 3 then s4 else s4.event pgRBLD 2 (le 1 m ++ le 1 g)).vacate g).placeAll).ckptAnchor).logPump

/-- The RBLD_OFFLINE that waits for a member's issued programs goes on once none is left (R321).
[DEDUCED: log entry 58] -/
def State.offlinePump (s : State) : State :=
  (s.back.mems.filter (fun e => e.2.offCmd.isSome && !(s.holding e.1).any (fun h => !h.2.progs.isEmpty))).foldl (fun t e =>
    let g := e.2.group
    let t1 := t.setMember e.1 { e.2 with st := 2, offlineAt := t.now, offCmd := none }
    let t2 := (t1.holding e.1).foldl (fun u h => if h.2.st = 1 then u.closeEarly h.1 (fun _ => false) else u) t1
    let t3 := (t2.event pgRBLD 6 (le 1 e.1 ++ le 1 2)).groupState g
    match e.2.offCmd with
    | some q => t3.finishRunning q 0 stOk
    | none => t3) s

/-- The key under which a replay keeps the restored units of a volume.
[DESIGN CHOICE: log entry 57] -/
def replayKey (vol : Nat) : Nat := 2 ^ 46 + vol

/-- The replay ends once every restored unit is on flash (R315). -/
def State.replayPump (s : State) : State :=
  match s.back.replay with
  | some q =>
    if s.ware.units.any (fun e => decide (replayKey 0 ≤ e.2.cmd)) then s
    else { s with back.replay := none, back.ckptAsked := true }.askedCkpt.finishRunning q 0 stOk
  | none => s

/-- What a parity-complete row lets go on. -/
def State.afterRow (s : State) : State :=
  (((((s.askedCkpt.ckptPlace.ckptAnchor.commitPump).placeAll).handoverPump).offlinePump).replayPump).logPump

end Sys2Proof.Machine
end

