-- ==== Sys2Proof/Machine/Ftl.lean ====
section
/-! DEFINITION. The flash translation layer: rows, failures, reads, checkpoints, and the map cache's traffic with flash (R224, R235,
R250-R278, R308-R310). -/

namespace Sys2Proof.Machine

/-! ### Rows (R255, R308) -/

/-- ROW_PROGRAM: a full row, or a full wordline, of an Open segment.
[DESIGN CHOICE: log entry 6] -/
def execRowProgram (run : RowRun) (s : State) : Res :=
  let v := s.seg run.seg
  .next (if v.st = 1 ∧ s.rowFull v ∧ s.groupTakes v.group then s.programRow run.seg run.altered else s)

/-- The current row, or wordline, holds a grain of a command that waits for Medium: of a unit that it made, or that a dedup hit of it
refers to (R12, R255).
[DEDUCED: log entry 92] -/
def State.mediumRow (s : State) (v : Segment) : Bool :=
  v.medium || v.units.any (fun u => !u.dead && decide (v.row / s.progRows v * s.progRows v ≤ u.row) &&
    s.nvf.cmds.any (fun e => e.2.medium && e.2.phase = .admitted &&
      (if u.kind = 0 then (e.2.made ++ e.2.hits).contains u.ref else u.kind = 1 && e.2.changes.any (fun x => x.2.1 = u.cid))))

/-- ROW_FILL_TIMEOUT: a part-full row or wordline that holds a grain of a command waiting for Medium, a move or a page is padded and
programmed.
[DEDUCED: log entry 92] -/
def execRowFillTimeout (run : RowRun) (s : State) : Res :=
  let v := s.seg run.seg
  let part := v.used ≠ 0 || v.row % s.progRows v ≠ 0
  let moves := v.units.any (fun u => !u.dead && u.src.isSome && decide (v.row / s.progRows v * s.progRows v ≤ u.row))
  .next (if v.st = 1 ∧ part ∧ (s.mediumRow v ∨ 2 ≤ v.stream ∨ moves) ∧ s.groupTakes v.group then
      let rest := s.progRows v - 1 - v.row % s.progRows v
      (s.bump fFTL_PAD_GRAINS (v.rowCap - v.used + rest * v.rowCap)).programRow run.seg run.altered
    else s)

/-- A program ends: its operations go; the last row closes the segment. -/
def State.endProgram (s : State) (id : Nat) (p : Program) : State :=
  let v := s.seg id
  let s1 := (s.progOps v p).foldl (fun t a => t.endOp a.1 opProgram a.2) s
  let left := v.progs.filter (· ≠ p)
  s1.modSeg id (fun w => { w with progs := left, rows := max w.rows (p.row + p.rows),
                                  st := if w.st = 1 ∧ left.isEmpty ∧ s.segRows v ≤ w.row then 2 else w.st })

/-- The commit unit of a program's locations finds room in the delta ring (R305).
[DEDUCED: log entry 26] -/
def State.settleRoom (s : State) (id : Nat) (us : List Placed) : Bool :=
  let r := State.foldRecs (State.settleUnit id) us s []
  r.2.isEmpty || r.1.deltaRoom (r.1.withTables r.2)

/-- SAG_LOG_COMPLETE: DONE of the program that starts at `row` covers every position, so its entry becomes Complete. Its units commit or are
void, the entry is free, and commands all of whose units are settled release their space. With no room in the delta ring the commit waits. -/
def execSagLogComplete (seg row : Nat) (s : State) : Res :=
  let v := s.seg seg
  .next (match v.progs.find? (fun p => p.row = row && p.done = p.issued) with
    | some p =>
      let us := v.progUnits p
      let s1 := (s.writeLog seg 2 p).endProgram seg p
      if s1.settleRoom seg us then ((s1.settleUnits seg us).writeLog seg 0 p).afterRow
      else if p.ringWaits then s
      else s.deltaWait.modSeg seg (fun w => { w with progs := w.progs.map (fun x => if x = p then { x with ringWaits := true } else x) })
    | none => s)

/-! ### Failures (R272, R273) -/

/-- A program that failed on some members has ended on all: the units that lie wholly on members that succeeded keep their locations, and its
log entry stays in use until those placed again have committed (R272, R308). -/
def State.failedEnds (s : State) (seg : Nat) (p : Program) : State :=
  let v := s.seg seg
  let hit := fun (u : Placed) => (unitPos seg v.width u).any p.failed.testBit
  let gone := v.units.filter (fun u => u.dead && hit u && decide (p.row ≤ u.row) && decide (u.row < p.row + p.rows))
  let s1 := s.endProgram seg p
  (({ s1 with back.logHeld := s1.back.logHeld ++ [{ seg := seg, prog := p, waits := gone }] } : State).settleUnits seg (v.progUnits p)).afterRow

/-- A program changes: a member has reported. Once all have, one that failed anywhere ends. -/
def State.setProgram (s : State) (seg : Nat) (p q : Program) : State :=
  let s1 := (s.modSeg seg (fun v => { v with progs := v.progs.map (fun x => if x = p then q else x) })).writeLog seg 1 q
  if q.failed ≠ 0 ∧ q.done ||| q.failed = q.issued then s1.failedEnds seg q else s1

/-- The program that a row of a segment lies in. -/
def Segment.progAt (v : Segment) (row : Nat) : Option Program := v.progs.find? (fun p => decide (p.row ≤ row) && decide (row < p.row + p.rows))

/-- The program of a row fails on a member: units with a grain on it, and what the segment's later rows hold, are placed again, and the segment
closes. The member's block is retired at its next erase, but after a timeout (R335) it is not. -/
def State.programFails (s : State) (seg row member : Nat) (retire : Bool) : State :=
  let v := s.seg seg
  let pos := v.posBlocks.findIdx (fun b => b.1 = member)
  match v.progAt row, v.posBlocks[pos]? with
    | some p, some blk =>
      if (p.done ||| p.failed).testBit pos then s
      else
        let b := blk.2
        let s1 := (s.bump fFTL_PROG_FAIL).ftlError 0x01 (⟨member, b, row, 0⟩ : Loc).code
        let s2 := if retire then s1.setBlock (blockKey member b) { s1.block (blockKey member b) with retire := 1 } else s1
        let s3 := s2.modSeg seg (fun w => { w with badMember := w.badMember || retire, refresh := true })
        let hit := fun (u : Placed) => decide (p.row ≤ u.row) && decide (u.row < p.row + p.rows) && (unitPos seg v.width u).contains pos
        let s4 := (if retire then s3.retiredEvent member 1 b else s3).closeEarly seg hit
        s4.setProgram seg p { p with failed := p.failed ||| 2 ^ pos }
    | _, _ => s

/-- PROGRAM_FAILURE. -/
def execProgramFailure (seg row member : Nat) (s : State) : Res := .next (s.programFails seg row member true)

/-- The erase of a segment fails on a member: the block is retired at once. -/
def State.eraseFails (s : State) (seg member : Nat) : State :=
  let v := s.seg seg
  match v.posBlocks.find? (fun b => b.1 = member) with
    | some blk =>
      if v.st = 5 ∧ !v.eraseFailed.contains member then
        let s1 := (s.bump fFTL_ERASE_FAIL).ftlError 0x02 (blockKey member blk.2)
        ((s1.modSeg seg (fun w => { w with eraseFailed := w.eraseFailed ++ [member] })).freeBlock member blk.2 true).retiredEvent member 2 blk.2
      else s
    | none => s

/-- ERASE_FAILURE. -/
def execEraseFailure (seg member : Nat) (s : State) : Res := .next (s.eraseFails seg member)

/-! ### Reading (R269-R271) -/

/-- The units of a read are here: in stored form, or in shelf mode as the block. -/
def State.gotForm (s : State) (rd : Nat) (r : ReadUnit) (form : List Byte) : State :=
  if s.arrayMode then s.setReadUnit rd { r with phase := .decrypt, form := form } else s.setReadUnit rd { r with phase := .done, data := form }

/-- A read goes to PAR, which reads what the repair needs beside its own codewords (R302). -/
def State.toRepair (s : State) (rd : Nat) (r : ReadUnit) (id : Nat) (u : Placed) : State :=
  let ops := s.repairReads id u r.erased
  (s.sendReads ops).setReadUnit rd { r with phase := .repair, ops := ops }

/-- A read of a location that addresses nothing fails as UNCORRECTABLE, and touches no flash (R252). -/
def State.invalidLoc (s : State) (rd : Nat) (r : ReadUnit) : State :=
  ((s.bump fFTL_UNCORRECTABLE).ftlError 0x03 r.loc).setReadUnit rd { r with phase := .repair, ops := [] }

/-- CODEWORD_READ: the codewords of a unit that a read fetches, each through its ladder. A member that is not Online is not read; with an
erasure, or a tag that fails, the read goes to PAR. -/
def execCodewordRead (rd : Nat) (found : CodewordTry) (s : State) : Res :=
  .next (match s.readUnit rd with
    | some r =>
      if r.phase = .fetch ∧ s.working pgFTL then
        let s0 := s.endReads r.ops
        match s.rowGrain r.loc, s.placedAt r.loc with
        | some (id, _, _), some u =>
          let s1 := s0.readUnitWords id u found
          if (s1.unitWords id u).any (fun w => s1.erased id u.row w.1 w.2 []) then s1.toRepair rd r id u
          else s1.gotForm rd r (s1.readForm id u found.arrived []).2
        | _, _ => s0.invalidLoc rd r
      else s
    | none => s)

/-- The retry level that a codeword decoded at brings its segment to REFRESH; with REFRESH_LEVEL = 0 every retry does. -/
def State.refreshAt (s : State) (key step : Nat) : Bool :=
  let lim := s.fld fFTL_BAD_CFG_REFRESH_LEVEL
  if lim = 0 then step ≠ 0 else decide (lim ≤ ((s.block key).retry + step) % 13)

/-- PATROL_READ (R271): a codeword of a Closed segment; patrol corrects nothing. -/
def execPatrolRead (seg row member codeword : Nat) (tries : DecodeTry) (s : State) : Res :=
  let v := s.seg seg
  let pos := v.posBlocks.findIdx (fun b => b.1 = member)
  .next (match v.posBlocks[pos]? with
    | some b =>
      if v.st = 2 ∧ s.fld fFTL_CTRL_PATROL_EN = 1 ∧ s.runs pgFTL ∧ (s.member member).st = 1 ∧ row < v.rows ∧ codeword < 4 then
        let key := blockKey b.1 b.2
        let l := (s.readOnce (s.readAddr seg row pos (2 ^ codeword) 0)).ladder seg row pos codeword tries
        match l.2 with
        | .hard i => if s.refreshAt key i then l.1.markRefresh seg key else l.1
        | .soft => l.1.markRefresh seg key
        | .lost => l.1.uncorrectable seg row pos codeword
      else s
    | none => s)

/-! ### Checkpoints and retirement (R267, R277) -/

/-- FTL_CHECKPOINT: the interval has passed; a checkpoint that waits for room goes on. -/
def execFtlCheckpoint (s : State) : Res :=
  .next (if s.working pgFTL then (if s.back.ckpt.isNone then s.startCkpt none else s.ckptPlace.ckptAnchor) else s)

/-- FTL_CKPT. -/
def execFtlCkpt (h : CmdHdr) (s : State) : Res :=
  .next (s.command h pgFTL 0x0100 .work fun _ t =>
    if t.back.ckpt.isSome then (t, .done 2 0)
    else if ((List.range 4).any t.groupTakes) then
      -- the command runs from here on, so that a header that cannot be placed ends it
      let t1 := { t with plat.evt.running := t.plat.evt.running.ins h.cseq ⟨pgFTL, 0x0100, h.notify, h.cookie, []⟩ }
      (t1.startCkpt (some h.cseq), .running [])
    else (({ t with back.ckptAsked := false } : State).ftlError 0x06 0, .done stOk 0))

/-- FTL_RETIRE: a Used block is retired when its segment is erased; a Free one holds nothing and is retired at once.
[DEDUCED: log entry 40] -/
def execFtlRetire (h : CmdHdr) (module b : Nat) (s : State) : Res :=
  .next (s.simpleCmd h pgFTL 0x0101 fun t =>
    let x := t.block (blockKey module b)
    if 24 ≤ module ∨ !t.blockExists module b ∨ 1 < x.st then (t, 1)
    else if x.st = 1 then (t.setBlock (blockKey module b) { x with retire := 4 }, stOk)
    else ((t.freeBlock module b true).retiredEvent module 4 b, stOk))

/-! ### Map pages and flash (R224, R235) -/

/-- A page of the map is read from where its fetch found it: each codeword through its ladder, repaired from P and Q where it must be and can
be. The answer says whether the page is there (R270). -/
def State.fetchPage (s : State) (mpa : Nat) (found : CodewordTry) : State × Bool :=
  match s.lmap.fetchLoc.find mpa with
  | none => (s, true)
  | some loc =>
    let s0 := { s with lmap.fetchLoc := s.lmap.fetchLoc.del mpa }
    match s0.rowGrain loc, s0.placedAt loc with
    | some (id, _, _), some u =>
      let s1 := ((s0.readAddrs loc u.grains).foldl State.readOnce s0).readUnitWords id u found
      let e := s1.unitErasures id u []
      if e = 0 then (s1, true)
      else if 3 ≤ e then (s1, false)
      else
        let s2 := (s1.repairReads id u []).foldl State.readOnce (s1.bump (if e = 1 then fPAR_REPAIR_1 else fPAR_REPAIR_2))
        if u.tagOk (s2.readForm id u [] []) then (s2, true) else (s2.capture pgPAR 0x03 id u.row, false)
    | _, _ => ((s0.bump fFTL_UNCORRECTABLE).ftlError 0x03 loc, false)

/-- MAP_PAGE_FETCH_DONE: a page fills a frame, or is lost. -/
def execMapPageFetchDone (mpa : Nat) (found : CodewordTry) (s : State) : Res :=
  .next (if s.lmap.wanted.contains mpa ∧ !s.dirAbsent mpa then
      let r := s.fetchPage mpa found
      let s1 := { r.1.bump fFTL_MAP_READS with lmap.wanted := r.1.lmap.wanted.filter (· ≠ mpa) }
      (if r.2 then s1.fillFrame mpa else (s1.mapPageLost mpa).fillFrame mpa).commitPump.lmapPump
    else s)

/-- A dirty page is placed in stream 2. -/
def State.writeback (s : State) (mpa : Nat) : State :=
  match s.placePage mpa with
  | (s1, some _) => { s1.bump fLMAP_PAGE_WB with lmap.dirty := s1.lmap.dirty.filter (· ≠ mpa) }
  | (s1, none) => s1

/-- MAP_PAGE_WRITEBACK. -/
def execMapPageWriteback (mpa : Nat) (s : State) : Res :=
  .next (if s.lmap.dirty.contains mpa ∧ s.working pgLMAP then s.writeback mpa else s)

/-- While more than DIRTY_PCT of the cache's frames are dirty, LMAP writes pages back (R224). -/
def State.writebackRun (s : State) : State :=
  let p := s.fld fLMAP_CACHE_CFG_DIRTY_PCT
  let ds := s.lmap.dirty.filter s.resident
  match ds with
  | m :: _ => if p ≠ 0 ∧ p * cacheFrames < 100 * ds.length ∧ s.working pgLMAP then s.writeback m else s
  | [] => s

end Sys2Proof.Machine
end

