-- ==== Sys2Proof/Machine/Pug.lean ====
section
/-! DEFINITION. Pug: scores, victims, moves, releases and erases (R279-R295). -/

namespace Sys2Proof.Machine

/-! ### The score (R279, R280) -/

/-- The raw Q16.16 score of a segment: the exact quotient, rounded down once. -/
def State.pugScore (s : State) (v : Segment) : Nat :=
  let hour := 3600 * 10 ^ 9
  let c := v.rows * (v.width - 2) * 32
  let u := min v.valid c
  let f := s.fld fPUG_WEIGHT_CFG_U_FLOOR
  let k := s.fld fPUG_WEIGHT_CFG_K_W
  let ref := s.fld fPUG_AGE_CFG_A_REF_H
  let age := min (s.now - v.lastWrite) (s.fld fPUG_AGE_CFG_A_CAP_H * hour)
  let em := (s.group v.group).eMean
  let wn := if em = 0 then 1 else ((65536 * em + k * em : Nat) - (k * v.meanErase : Nat) : Int).toNat
  let wd := if em = 0 then 1 else 65536 * em
  let n := if c = 0 then 65536 else (c - u) * 65536
  let d := if c = 0 then f else 65536 * u + f * c
  min (2 ^ 32 - 1) (65536 * (n * (ref * hour + age) * wn) / max 1 (d * (ref * hour) * wd))

/-! ### PUG_VICTIM_SELECT (R282) -/

/-- Pug may take the segment. -/
def State.pugMay (s : State) (g : Nat) (e : Nat × Segment) : Bool :=
  e.2.st = 2 && e.2.group = g && !(e.2.stream = 2 && s.back.ckptSegs.contains e.1)

/-- The better of two victims: a higher score, and the lower segment on a tie. -/
def bestScore (s : State) (l : List (Nat × Segment)) : Option Nat :=
  (l.foldl (fun (r : Option (Nat × Nat)) e => match r with
    | some x => if x.2 < s.pugScore e.2 then some (e.1, s.pugScore e.2) else some x
    | none => some (e.1, s.pugScore e.2)) none).map Prod.fst

/-- The segment written longest ago. -/
def oldestWrite (l : List (Nat × Segment)) : Option Nat :=
  (l.foldl (fun (r : Option (Nat × Nat)) e => match r with
    | some x => if e.2.lastWrite < x.2 then some (e.1, e.2.lastWrite) else some x
    | none => some (e.1, e.2.lastWrite)) none).map Prod.fst

/-- The next victim of a group. -/
def State.pugVictim (s : State) (g : Nat) : Option Nat :=
  let ok := s.back.segs.filter (s.pugMay g)
  let x := s.group g
  match x.reclaim.find? (fun id => ok.any (fun e => e.1 = id)) with
  | some id => some id
  | none =>
    if s.fld fPUG_CTRL_AUTO = 0 then none
    else match oldestWrite (ok.filter (fun e => e.2.refresh)) with
      | some id => some id
      | none =>
        match (if s.pslcBudget g ≤ s.pslcUse g ∧ s.fld fPUG_CTRL_FOLD_EN = 1 then bestScore s (ok.filter (fun e => !e.2.native)) else none) with
        | some id => some id
        | none => if x.level = 0 then none else bestScore s ok

/-- A segment goes to Reclaiming, whoever asked for it; without a live unit it is Released at once. -/
def State.takeVictim (s : State) (id : Nat) : State :=
  (((s.segRead id).modSeg id (fun v => { v with st := 3 })).modGroup (s.seg id).group (fun x =>
    { x with reclaim := x.reclaim.filter (· ≠ id) })).commitMove id []

def execPugVictimSelect (group : Nat) (s : State) : Res :=
  let x := s.group group
  .next (if s.runs pgPUG ∧ s.groupMoves group ∧ !x.hold ∧ x.victims.length < s.fld fPUG_CTRL_ACTIVE_MAX then
      match s.pugVictim group with
      | some id =>
        let s1 := (s.setReg rPUG_VICTIM (BitVec.ofNat 32 id)).setReg rPUG_VICTIM_SCORE (BitVec.ofNat 32 (s.pugScore (s.seg id)))
        (s1.modGroup group (fun y => { y with victims := y.victims ++ [id] })).takeVictim id
      | none => s
    else s)

/-! ### PUG_UNIT_READ (R285, R289, R290) -/

/-- The unit at a grain of a segment. -/
def State.unitAtGrain (s : State) (id r i : Nat) : Option Placed :=
  (s.seg id).units.find? (fun u => u.row = r && u.grain = i && !u.dead)

/-- The copy of a unit that is on its way. -/
def State.moveOf (s : State) (id r i : Nat) : Option (Nat × Placed) :=
  s.back.segs.findSome? (fun e => (e.2.units.find? (fun u => u.src = some (id, r, i) && !u.dead)).map (fun u => (e.1, u)))

/-- The stream that a unit of a victim goes to. -/
def State.moveStream (s : State) (id : Nat) : Nat :=
  let v := s.seg id
  if v.stream = 2 then 2
  else if (s.group v.group).rebuilding = some id then 5
  else if v.refresh ∧ (v.stream = 0 ∨ v.stream = 1 ∨ v.stream = 5) then v.stream
  else if v.native then 4 else 3

/-- Pug's move state in HBM has an uncorrectable error (R295): the moves in flight are void, and the victims stay Reclaiming.
[DESIGN CHOICE: log entry 132] -/
def State.scratchRead (s : State) : State :=
  if s.mem.bad.any Config.pugScratch then
    let s1 : State := { s with mem.bad := s.mem.bad.filter (fun k => !Config.pugScratch k) }
    (s1.back.segs.foldl (fun t e => (e.2.units.filter (fun u => u.src.isSome && !u.dead)).foldl (fun t u =>
      (t.killUnit e.1 u).bump fPUG_MOVES_VOID) t) s1).pugError 0x04 0 0
  else s

/-- The unit is poisoned in place of its move (R290). -/
def State.moveLost (s : State) (id : Nat) (u : Placed) : State :=
  let s1 := (s.bump fPUG_POISONED).pugError 0x02 id u.ref
  let s2 := if (s1.group (s1.seg id).group).rebuilding = some id then s1.bump fRBLD_POISONED else s1
  ((s2.loseStored u 1).killUnit id u).commitMove id []

/-- Rebuild finds no block for stream 5: it pauses, once. -/
def State.rebuildPauses (s : State) (g : Nat) : State :=
  if (s.group g).noSpare then s
  else ((((s.modGroup g (fun x => { x with noSpare := true })).capture pgRBLD 0x01 g 0).irqBit pgRBLD 3).event pgRBLD 5 (le 1 g))

/-- A unit of a victim that is read, and if need be rebuilt from P and Q, is placed as it is stored. Rebuild without a block pauses. -/
def State.moveUnit (s : State) (id : Nat) (u : Placed) (f : List Byte × List Byte) : State :=
  let g := (s.seg id).group
  let dest := s.moveStream id
  let r := s.placeStream g dest { u with src := some (id, u.row, u.grain), verified := false, form := f.2, tag := f.1 }
  match r.2 with
  | some _ => r.1
  | none => if dest = 5 then r.1.rebuildPauses g else r.1

/-- A unit of a victim is lost: it is poisoned; where its tag is lost with it, its row is unparsed until the scan ends (R290). -/
def State.unitGone (s : State) (id : Nat) (u : Placed) : State :=
  let w := (s.seg id).width
  let first := (grainPos id w u.row u.grain, u.grain % 32 / 8)
  if u.kind = 2 ∨ !(s.erased id u.row first.1 first.2 [] && decide (3 ≤ s.erasures id u.row first.2 [])) then s.moveLost id u
  else
    ((s.modSeg id (fun v => { v with unparsed := v.unparsed ++ [(u.row, first.1, first.2)] })).irqBit pgPUG 1).event pgPUG 3
      (le 4 id ++ le 2 u.row ++ le 2 (u.grain / 8 * 8))

/-- PUG_UNIT_READ: a live unit of a victim is read through the ladder, repaired if need be, and placed. A unit that cannot be repaired is
poisoned, or its row unparsed; one whose repaired tag fails is lost too (R319).
[DEDUCED: log entry 38] -/
def execPugUnitRead (seg row grain : Nat) (found : CodewordTry) (s0 : State) : Res :=
  let s := s0.scratchRead
  let v := s.seg seg
  .next (match s.unitAtGrain seg row grain with
    | some u =>
      if v.st = 3 ∧ s.working pgPUG ∧ (s.group v.group).st ≠ 3 ∧ s.unitLive seg u ∧ (s.moveOf seg row grain).isNone
        ∧ !v.unparsed.contains (row, grainPos seg v.width row grain, grain % 32 / 8) then
        let s1 := ((s.wordReads seg row (s.unitWords seg u)).foldl State.readOnce s).readUnitWords seg u found
        let e := s1.unitErasures seg u []
        if e = 0 then s1.moveUnit seg u (s1.readForm seg u found.arrived [])
        else if 3 ≤ e then s1.unitGone seg u
        else
          let s2 := (s1.repairReads seg u []).foldl State.readOnce ((s1.bump fPUG_SRC_RECON).bump (if e = 1 then fPAR_REPAIR_1 else fPAR_REPAIR_2))
          let f := s2.readForm seg u [] []
          if u.tagOk f then s2.moveUnit seg u f
          else ((((s2.capture pgPAR 0x03 seg row).bump fPUG_POISONED).loseStored u 2).killUnit seg u).commitMove seg []
      else s
    | none => s)

/-- PUG_SCAN_DONE: every unit that the map names in a lost span is poisoned. -/
def execPugScanDone (seg : Nat) (s : State) : Res :=
  let v := s.seg seg
  .next (if v.st = 3 ∧ !v.unparsed.isEmpty then
      let found := v.units.filter (fun u => s.unitLive seg u
        && v.unparsed.contains (u.row, grainPos seg v.width u.row u.grain, u.grain % 32 / 8))
      let s1 := found.foldl (fun t u => (((t.loseStored u 1).killUnit seg u).bump fPUG_POISONED).pugError 0x02 seg u.ref) s
      let s2 := (s1.modSeg seg (fun w => { w with unparsed := [] })).event pgPUG 4 (le 4 seg ++ le 4 found.length)
      s2.commitMove seg []
    else s)

/-! ### Verification and commit (R285, R286, R289) -/

/-- A destination block fails its read-back: it is retired at its next erase. -/
def State.destFails (seg : Nat) (s : State) (m : Nat) : State :=
  match (s.seg seg).posBlocks.find? (fun b => b.1 = m) with
  | some b =>
    let k := blockKey b.1 b.2
    (s.setBlock k { s.block k with retire := 1 }).retiredEvent b.1 1 b.2
  | none => s

/-- PUG_MOVE_VERIFY: the moved units of a destination row are read back; `bad` are the members whose codewords fail. Units wholly on the others
are verified; the rest are read again from their sources, the failing blocks are retired and the destination is closed (R289).
[DEDUCED: log entry 38] -/
def execPugMoveVerify (seg row : Nat) (bad : List Nat) (s0 : State) : Res :=
  let s := s0.scratchRead
  let v := s.seg seg
  let us := v.units.filter (fun u => u.row = row && u.src.isSome && !u.dead && !u.verified)
  let hit := fun (u : Placed) => (unitPos seg v.width u).any (fun p => bad.contains (v.posBlocks.getD p (0, 0)).1)
  .next (if us.isEmpty ∨ !v.rowDone row then s
    else
      let s1 := (us.filter (fun u => !hit u)).foldl (fun t u => t.setUnit seg u { u with verified := true }) s
      if !us.any hit then s1
      else
        let s2 := ((us.filter hit).foldl (fun t u => (t.killUnit seg u).bump fPUG_DEST_FAIL) s1).pugError 0x03 seg row
        let ms := (v.posBlocks.map Prod.fst).filter (fun m => bad.contains m)
        ((ms.foldl (State.destFails seg) s2).modSeg seg (fun w => { w with badMember := true, refresh := true })).closeEarly seg (fun _ => false))

/-- A map entry takes the new location of a moved unit. -/
def State.relocate (s : State) (u : Placed) (src loc : Nat) : State × List DeltaRec :=
  let s1 := s.dropValid src u.grains
  if u.kind = 0 then ((s1.modCont u.ref (fun c => { c with loc := loc })).addValid loc u.grains, [locRec 0xFFFF u.ref loc])
  else if u.kind = 1 then ((s1.setLeaf u.app u.ref (fun e => { e with loc := loc })).addValid loc 8, [locRec u.app u.ref loc])
  else
    let r := s.movePage u.ref loc
    (r.1, r.2)

/-- A verified move commits: the map takes the new location, and both segments' entries change in the same commit unit. -/
def State.moveCommits (s : State) (seg : Nat) (u : Placed) (id : Nat) (d : Placed) : State :=
  let r := s.relocate u (s.locAt seg u.row u.grain) (s.locAt id d.row d.grain)
  let s1 := (r.1.setUnit id d { d with src := none, verified := false }).killUnit seg u
  let s2 := (s1.modSeg seg (fun v => { v with moved := v.moved + u.grains })).bump fPUG_GRAINS_MOVED u.grains
  let s3 := if (s2.group (s2.seg seg).group).rebuilding = some seg then
      let f := s2.freeNat
      (f.2.setReg64 rRBLD_BYTES_MOVED (s2.reg64 rRBLD_BYTES_MOVED + 512 * u.grains)).setReg rRBLD_RATE (BitVec.ofNat 32 f.1) else s2
  s3.commitMove seg (r.2 ++ (if id = seg then [segRec id] else [segRec id, segRec seg]))

/-- PUG_MOVE_COMMIT: the verified move of the unit at a source grain commits if the unit is still live there; else it is void. With no room in
the delta ring it waits (R305).
[DESIGN CHOICE: log entry 33] [DEDUCED: log entry 38] -/
def execPugMoveCommit (seg row grain : Nat) (s0 : State) : Res :=
  let s := s0.scratchRead
  .next (match s.moveOf seg row grain, s.unitAtGrain seg row grain with
    | some (id, d), some u =>
      if !d.verified ∨ !(s.seg id).rowDone d.row then s
      else if s.unitLive seg u then
        if s.deltaRoom (s.withTables [locRec 0 0 0, segRec id, segRec seg]) then s.moveCommits seg u id d else s.deltaWait
      else ((s.killUnit id d).bump fPUG_MOVES_VOID).commitMove seg []
    | some (id, d), none => if d.verified then ((s.killUnit id d).bump fPUG_MOVES_VOID).commitMove seg [] else s
    | none, _ => s)

/-! ### Erases (R287, R288) -/

/-- A read holds the segment, from its translation until its data arrives: a read of a unit, or of a page of the map (R286). -/
def State.readHolds (s : State) (id : Nat) : Bool :=
  s.ware.reads.any (fun e => (e.2.phase = .fetch || e.2.phase = .repair) && s.segOfLoc e.2.loc = some id)
    || s.lmap.fetchLoc.any (fun e => s.segOfLoc e.2 = some id)

/-- The members on which a segment's erase runs: those that are Online. -/
def State.eraseOps (s : State) (v : Segment) : List (Nat × Nat) :=
  (v.posBlocks.filter (fun b => (s.member b.1).st = 1)).map (fun b => (b.1, nandAddr b.2 0 0 0 0 0))

/-- One erase is counted, exactly; WEAR_WARN once. -/
def State.countErase (s : State) (m b : Nat) : State :=
  let x := s.block (blockKey m b)
  let n := x.erases + 1
  let w := s.fld fFTL_WEAR_CFG_WARN_ERASES
  let warn := w ≠ 0 && decide (w ≤ n) && !x.warned
  let s1 := s.setBlock (blockKey m b) { x with erases := n, warned := x.warned || warn }
  if warn then s1.event pgFTL 7 (le 1 m ++ le 4 b ++ le 4 n) else s1

/-- e_mean of a group, exactly (R260). -/
def State.trueMean (s : State) (g : Nat) : Nat :=
  let sum := s.back.blocks.foldl (fun n e => if (s.groupMembers g).contains (e.1 / 2 ^ 21) then n + e.2.erases else n) 0
  let n := (s.groupMembers g).foldl (fun n m => n + s.totalBlocks m) 0
  sum / max 1 n

/-- The fleet mean is computed again after every 4,096 erases. -/
def State.countMean (s : State) (g n : Nat) : State :=
  let k := (s.group g).eraseCnt + n
  if k < 4096 then s.modGroup g (fun x => { x with eraseCnt := k })
  else
    let e := s.trueMean g
    s.modGroup g (fun x => { x with eraseCnt := k % 4096, eMean := e })

/-- Pug commits Erasing and issues the erase. -/
def State.issueErase (s : State) (id : Nat) : State :=
  let v := s.seg id
  let on := v.posBlocks.filter (fun b => (s.member b.1).st = 1)
  let s0 := (on.foldl (fun t b => t.countErase b.1 b.2) (s.segRead id)).countMean v.group on.length
  let s1 := s0.modSeg id (fun w => { w with st := 5, eraseFailed := [], eraseSeq := s0.lmap.commitSeq + 1 })
  let s2 := s1.commit [segRec id]
  (s.eraseOps v).foldl (fun t a => t.sendOp a.1 { opcode := opErase, addr := a.2 } []) s2

/-- PUG_ERASE: refused unless the segment is Released, CKPT_SEQ covers its release and no read holds it. A segment of an Offline member, or
of a read-only-degraded group, is not erased. One that a start found in Erasing is being erased already. -/
def execPugErase (seg : Nat) (s : State) : Res :=
  let v := s.seg seg
  .next (if !s.working pgPUG ∨ (s.group v.group).st = 3 ∨ v.posBlocks.any (fun b => (s.member b.1).st = 2) then s
    else if v.st = 4 ∧ v.releaseSeq ≤ s.reg64 rFTL_CKPT_SEQ ∧ !s.readHolds seg then s.issueErase seg
    else (s.bump fPUG_ERASE_REFUSED).pugError 0x01 seg 0)

/-- Content entries whose count is 0 and whose grains lay in the segment are free. -/
def State.freeCids (s : State) (id : Nat) : State :=
  { s with lmap.cids := s.lmap.cids.filter (fun e => !(e.2.refs = 0 && !e.2.inFlight && e.1 ≥ 16 && s.segOfLoc e.2.loc = some id)) }

/-- A block of an erased segment is Free or Retired; a Failed member's block is neither. -/
def State.returnBlock (v : Segment) (s : State) (b : Nat × Nat) : State :=
  let x := s.block (blockKey b.1 b.2)
  let lim := s.fld fFTL_BAD_CFG_REFRESH_RETIRE
  if v.eraseFailed.contains b.1 then s
  else if (s.member b.1).st ≠ 1 then s.setBlock (blockKey b.1 b.2) { x with segment := 0xFFFFFFFF }
  else if x.retire = 1 then s.freeBlock b.1 b.2 true
  else if x.retire = 4 then (s.freeBlock b.1 b.2 true).retiredEvent b.1 4 b.2
  else if lim ≠ 0 ∧ lim ≤ x.refreshes then (s.freeBlock b.1 b.2 true).retiredEvent b.1 3 b.2
  else s.freeBlock b.1 b.2 false

/-- SEGMENT_ERASE_DONE: every member's erase has ended. -/
def execSegmentEraseDone (seg : Nat) (s : State) : Res :=
  let v := s.seg seg
  let g := v.group
  .next (if v.st = 5 then
      let s1 := ((s.eraseOps v).foldl (fun t a => t.endOp a.1 opErase a.2) s).freeCids seg
      let s2 := v.posBlocks.foldl (State.returnBlock v) s1
      let s3 := ((s2.commit [segRec seg]).setSeg seg {}).bump fPUG_SEGS_RECLAIMED
      let s4 := s3.modGroup g (fun x => { x with noSpare := false })
      let gain := nativePages (s.groupDie g) * (s.grpN g - 2) * 32 - v.moved
      let s5 := ((({ s4 with back.credit := s4.back.credit + gain } : State).relevel g).spaceBack g).vacate g
      let done := (s5.back.reclaimCmds.filter (fun e => e.2 = seg)).map Prod.fst
      let s6 := done.foldl (fun t q => ({ t with back.reclaimCmds := t.back.reclaimCmds.del q } : State).finishRunning q 0 stOk) s5
      s6.afterRow
    else s)

/-- Pug notices that nothing of a victim is left to move: a host's commit released its last live unit (R258). -/
def State.releaseRun (s : State) : State :=
  match s.back.segs.find? (fun e => e.2.st = 3 && s.allMoved e.1) with
  | some e => if s.working pgPUG then s.commitMove e.1 [] else s
  | none => s

/-- PUG_CKPT_WAIT_EXPIRY: the oldest Released segment has waited WAIT_MS. -/
def execPugCkptWaitExpiry (s : State) : Res :=
  .next (if s.back.segs.any (fun e => e.2.st = 4 && decide (s.reg64 rFTL_CKPT_SEQ < e.2.releaseSeq)) then
      ({ s with back.ckptAsked := true } : State).askedCkpt
    else s)

/-! ### Commands (R294) -/

/-- PUG_RECLAIM completes when the segment is Free. -/
def execPugReclaim (h : CmdHdr) (seg : Nat) (s : State) : Res :=
  .next (s.command h pgPUG 0x0100 .work fun _ t =>
    if 2 ^ 23 ≤ seg then (t, .done 1 0)
    else if (t.seg seg).st ≠ 2 then (t, .done 2 0)
    else
      (({ t with back.reclaimCmds := t.back.reclaimCmds.ins h.cseq seg } : State).modGroup (t.seg seg).group (fun x =>
        { x with reclaim := if x.reclaim.contains seg then x.reclaim else x.reclaim ++ [seg] }), .running [seg]))

/-- PUG_HOLD: refused with BUSY at Urgent. -/
def execPugHold (h : CmdHdr) (group hold : Nat) (s : State) : Res :=
  .next (s.command h pgPUG 0x0101 .release fun _ t =>
    if 4 ≤ group then (t, .done 1 0)
    else if hold ≠ 0 ∧ (t.group group).level = 2 then (t, .done 3 0)
    else (t.modGroup group (fun x => { x with hold := decide (hold ≠ 0) }), .done stOk 0))

end Sys2Proof.Machine
end

