-- ==== Sys2Proof/Machine/Par.lean ====
section
/-! DEFINITION. PAR, SAG and RBLD: repair from P and Q, stripe groups, the Saggar dump and its replay, and rebuild (R296-R322). -/

namespace Sys2Proof.Machine

/-! ### Repair (R301, R319, R320) -/

/-- A read ends with Unrecovered Read Error. -/
def State.readLost (s : State) (rd : Nat) (r : ReadUnit) : State := s.setReadUnit rd { r with phase := .failed scUnrecovered }

/-- Three or more erasures: the unit is poisoned, or in a read-only-degraded group only this read fails. -/
def State.strikeOut (s : State) (rd : Nat) (r : ReadUnit) (id : Nat) (u : Placed) : State :=
  let g := (s.seg id).group
  let s1 := s.capture pgPAR 0x02 id u.row
  (if (s.group g).st = 3 then
      ((s1.bump fRBLD_LOST_READS).irqBit pgPAR 0).event pgPAR 1 (le 1 g ++ le 2 u.row ++ le 4 id)
    else (s1.bump fPAR_LOST_UNITS).loseStored u 1).readLost rd r

/-- PAR_REPAIR: the erased columns of a unit that a read needs are rebuilt from P and Q, and its tag is checked. `arrived` are the payloads
that decode to other bytes than were written.
[DEDUCED: log entry 39] -/
def execParRepair (rd : Nat) (arrived : Arrived) (s : State) : Res :=
  .next (match s.readUnit rd with
    | some r =>
      if r.phase = .repair ∧ s.working pgPAR then
        let s0 := s.endReads r.ops
        match s.rowGrain r.loc, s.placedAt r.loc with
        | some (id, _, _), some u =>
          let e := s0.unitErasures id u r.erased
          if 3 ≤ e then s0.strikeOut rd r id u
          else
            let s1 := if e = 0 then s0 else s0.bump (if e = 1 then fPAR_REPAIR_1 else fPAR_REPAIR_2)
            let f := s0.readForm id u arrived r.erased
            if u.tagOk f then s1.gotForm rd r f.2 else ((s1.capture pgPAR 0x03 id u.row).loseStored u 2).readLost rd r
        | _, _ => (if 16 ≤ r.cid ∧ s.arrayMode then s0.poisonCid r.cid 1 else s0).readLost rd r
      else s
    | none => s)

/-! ### Groups (R296, R322, R438) -/

/-- A module's blocks are new: every block but a retired, factory-bad or anchor one is Free, and block 1 is the anchor. The blocks of die
positions that are absent count as factory bad (R334).
[DESIGN CHOICE: log entry 139] -/
def State.freshModule (s : State) (m : Nat) : State :=
  let bs := s.back.blocks.filter (fun e => e.1 / 2 ^ 21 = m && e.2.st = 1)
  let s1 := (bs.foldl (fun t e => t.setBlock e.1 { e.2 with segment := 0xFFFFFFFF, st := 0, retire := 0 }) s).setBlock (blockKey m 1) { st := 4 }
  ({ s1 with back.anchors := s1.back.anchors.put {} m {}, back.jblocks := s1.back.jblocks.del m } : State).wornCheck m

/-- Modules of a mask report one die type. -/
def State.oneDie (s : State) (l : List Nat) : Bool :=
  match l with
  | [] => true
  | m :: t => (s.link m).dieType ≠ 0 && t.all (fun k => (s.link k).dieType = (s.link m).dieType)

/-- The new group, and its members. -/
def State.makeGroup (s : State) (g mode spare : Nat) (ms sp : List Nat) : State :=
  let s1 := s.setGroup g { exists_ := true, members := maskOf ms, dedicated := mode = 1, spare := if mode = 1 then 0 else spare, spares := sp }
  let s2 := ms.foldl (fun t m => (t.setMember m { st := 1, group := g }).freshModule m) s1
  let s3 := sp.foldl (fun t m => (t.setMember m { st := 4, group := g }).freshModule m) s2
  ((s3.setOwner g s3.plat.chip.headId).relevel g).recomputeArbiter

/-- PAR_GROUP_CREATE.
[DEDUCED: log entry 51] -/
def execParGroupCreate (h : CmdHdr) (group spareMode spare members spares : Nat) (s : State) : Res :=
  .next (s.simpleCmd h pgPAR 0x0100 fun t =>
    let ms := bitList 32 members
    let sp := if spareMode = 1 then bitList 32 spares else []
    let used := fun (m : Nat) => 24 ≤ m || (t.member m).st ≠ 0
    if 4 ≤ group ∨ 1 < spareMode ∨ ms.length < 6 ∨ 24 < ms.length ∨ ms.any used ∨ sp.any used ∨ sp.any (fun m => ms.contains m)
      ∨ (spareMode = 0 ∧ spare ≠ 1 ∧ spare ≠ 2) ∨ 2 < sp.length then (t, 1)
    else if (t.group group).exists_ then (t, 2)
    else if !t.oneDie (ms ++ sp) then (t.ftlError 0x07 group, 1)
    else (t.makeGroup group spareMode spare ms sp, stOk))

/-- A segment of a deleted Foreign group goes, and its blocks are erased. -/
def State.dropSegment (s : State) (e : Nat × Segment) : State :=
  (e.2.posBlocks.foldl (fun t b =>
    if (t.block (blockKey b.1 b.2)).st = 1 then t.freeBlock b.1 b.2 false else t) s).setSeg e.1 {}

/-- PAR_GROUP_DELETE. -/
def execParGroupDelete (h : CmdHdr) (group : Nat) (s : State) : Res :=
  .next (s.simpleCmd h pgPAR 0x0101 fun t =>
    let x := t.group group
    let held := t.back.segs.filter (fun e => e.2.st ≠ 0 && e.2.group = group)
    if 4 ≤ group ∨ !x.exists_ then (t, 1)
    else if !held.isEmpty ∧ x.foreign.isNone then (t, 2)
    else
      let t1 := held.foldl State.dropSegment t
      let t2 := (t1.groupMembers group ++ x.spares).foldl (fun u m => u.setMember m {}) t1
      ((t2.setGroup group {}).recomputeArbiter, stOk))

/-! ### The Saggar dump (R312-R314) -/

/-- The newest dump that is not released.
[DEDUCED: log entry 67] -/
def State.newestDump (s : State) : Option Dump := (s.back.dumps.filter (fun d => !d.released)).getLast?

/-- The dump of a set changes. -/
def State.modDump (s : State) (set : Nat) (f : Dump → Dump) : State :=
  { s with back.dumps := s.back.dumps.map (fun d => if d.set = set then f d else d) }

/-- A unit in flash's way whose commit unit a dump writes, as the replay takes it up again. -/
def State.dumpUnit (s : State) (w : WareUnit) : Option WareUnit :=
  if w.hit then none
  else if s.arrayMode then
    let c := s.cont w.cid
    if c.counted ∧ c.refs ≠ 0 ∧ c.inFlight then some { w with cmd := replayKey 0, phase := .compress, form := [], tries := 0, way := none, cands := [], tried := [], eng := none, comp := none }
    else none
  else
    let v := (s.nvCmd w.cmd).vol
    let e := s.lookup v w.lba
    if e.a = w.cid ∧ e.inFlight then some { w with cmd := replayKey v, phase := .place } else none

/-- The units that a dump writes. -/
def State.dumpUnits (s : State) : Tab WareUnit := s.ware.units.filterMap (fun e => (s.dumpUnit e.2).map (fun w => (e.1, w)))

/-- What a dump holds of the peer's: the records of the mirror ring, where the peer link is down (R312). -/
def State.dumpMirror (s : State) : List Byte :=
  if decide (s.plat.chip.heads = 2) && decide (s.peerState ≠ psPaired) then s.peer.ring.flatMap (fun e => e.2) else []

/-- The bytes of a dump (R312): the control area and the log, the data units with their tags, the ring's records. -/
def State.dumpBytes (s : State) (n : Nat) : Nat := 2 ^ 20 + 2 ^ 24 + 4112 * n + s.ringUsed + s.dumpMirror.length

/-! ### Replay (R315, R438) -/

/-- The commands under which restored units wait for flash: one for each volume, ended and committed.
[DESIGN CHOICE: log entry 57] -/
def State.replayCmds (s : State) (us : Tab WareUnit) : Tab NvCmd :=
  (dedupNat (us.map (fun e => e.2.cmd))).foldl (fun t k =>
    t.ins k { phase := .ended, committed := true, vol := k - replayKey 0, tenant := (s.vol (k - replayKey 0)).tenant
              made := ((us.filter (fun e => e.2.cmd = k)).map (fun e => e.2.cid))
              changes := ((us.filter (fun e => e.2.cmd = k)).map (fun e => (e.2.lba, e.2.cid, e.2.app))) }) s.nvf.cmds

/-- A segment whose Released or Erasing record a replay applies is so again; an erase that its record counts is issued again, and counts again
(R288, R291).
[DESIGN CHOICE: log entry 138] -/
def State.restoreSeg (s : State) (e : Nat × Segment) : State :=
  let seq := s.lmap.commitSeq
  let v := s.seg e.1
  let s1 := if v.st = 3 ∧ 0 < v.releaseSeq ∧ v.releaseSeq ≤ seq then
      (s.modSeg e.1 (fun w => { w with st := 4 })).modGroup v.group (fun x => { x with victims := x.victims.filter (· ≠ e.1) })
    else s
  if (s1.seg e.1).st = 4 ∧ 0 < v.eraseSeq ∧ v.eraseSeq ≤ seq then
    (v.posBlocks.foldl (fun t b => t.setBlock (blockKey b.1 b.2) { t.block (blockKey b.1 b.2) with erases := (t.block (blockKey b.1 b.2)).erases + 1 }) s1).issueErase e.1
  else s1

/-- The previous wordline of a native program that was cut off is read back on the members that had not answered; a codeword that fails marks
the segment REFRESH (R311).
[DESIGN CHOICE: log entry 138] -/
def State.readBack (s : State) (h : LogHeld) : State :=
  let v := s.seg h.seg
  let ps := (List.range v.width).filter (fun p => h.prog.issued.testBit p && !h.prog.done.testBit p)
  if v.native ∧ h.prog.rows ≤ h.prog.row then
    let rows := (List.range h.prog.rows).map (fun j => h.prog.row - h.prog.rows + j)
    let ops := rows.flatMap (fun r => s.wordReads h.seg r (ps.flatMap (fun p => (List.range 4).map (fun k => (p, k)))))
    let t := s.sendReads ops
    ps.foldl (fun u p =>
      let f := u.freeNat
      let b := v.posBlocks.getD p (0, 0)
      if f.1 % 2 = 1 then f.2.markRefresh h.seg (blockKey b.1 b.2) else f.2) t
  else s

/-- The dump's commit units above the newest checkpoint are applied, and their units in flight re-enter the write path under numbers of
their own.
[DESIGN CHOICE: log entry 138] -/
def State.restore (s0 : State) (d : Dump) : State :=
  let s := d.log.foldl State.readBack s0
  match d.image with
  | some m =>
    if m.commitSeq ≤ s.lmap.commitSeq then s
    else
      let us : Tab WareUnit := d.units.map (fun e => (s.ware.nextUnit + e.1, e.2))
      let top := us.foldl (fun n e => max n (e.1 + 1)) s.ware.nextUnit
      let s1 := { s with lmap := m.stored, ware.units := s.ware.units ++ us, ware.nextUnit := top }
      let s2 : State := { s1 with nvf.cmds := s1.replayCmds us }
      (s2.back.segs.foldl State.restoreSeg s2).placeAll
  | none => s

/-- SAG_REPLAY. -/
def execSagReplay (h : CmdHdr) (s : State) : Res :=
  .next (let r := s.command h pgSAG 0x0100 .work fun _ t =>
      match t.newestDump with
      | none => (t, .done 3 0)
      | some d =>
        if d.shelf ≠ t.plat.chip.shelf then (t, .done 4 0)
        else if t.back.replay.isSome then (t, .done 2 0)
        else (({ t with back.replay := some h.cseq } : State).restore d, .running [])
    r.replayPump)

/-! ### Rebuild (R297, R298, R316-R321) -/

/-- MEMBER_DECLARED_FAILED: the link of an Online member has been lost for DOWN_MS. -/
def execMemberDeclaredFailed (module : Nat) (s : State) : Res :=
  .next (if (s.member module).st = 1 ∧ (s.link module).st ≠ lkUp ∧ (s.link module).owner = 1 ∧ s.working pgRBLD then s.declareFailed module 1 else s)

/-- OFFLINE_MAX_EXPIRY: an Offline member has been absent longer than OFFLINE_MAX_S. -/
def execOfflineMaxExpiry (module : Nat) (s : State) : Res :=
  .next (if (s.member module).st = 2 ∧ s.fld fRBLD_CFG_OFFLINE_MAX_S ≠ 0 ∧ s.working pgRBLD then s.declareFailed module 4 else s)

/-- Failed members with a block in a segment. -/
def State.failedIn (s : State) (v : Segment) : Nat := (v.posBlocks.filter (fun b => (s.member b.1).st = 3)).length

/-- The next segment that rebuild takes. -/
def State.rebuildNext (s : State) (g : Nat) : Option Nat :=
  let l := s.back.segs.filter (fun e => e.2.st = 2 && e.2.group = g && s.failedIn e.2 ≠ 0)
  match l.find? (fun e => decide (2 ≤ s.failedIn e.2)), l.find? (fun e => e.2.stream = 2), l with
  | some e, _, _ => some e.1
  | none, some e, _ => some e.1
  | none, none, e :: _ => some e.1
  | none, none, [] => none

/-- REBUILD_SEGMENT. -/
def execRebuildSegment (group : Nat) (s : State) : Res :=
  .next (if s.runs pgRBLD ∧ s.groupMoves group ∧ (s.group group).rebuilding.isNone then
      match s.rebuildNext group with
      | some id => (s.modGroup group (fun x => { x with rebuilding := some id })).takeVictim id
      | none => s
    else s)

/-- RBLD_FAIL. -/
def execRbldFail (h : CmdHdr) (module : Nat) (s : State) : Res :=
  .next (s.simpleCmd h pgRBLD 0x0100 fun t =>
    if (t.member module).st = 1 ∨ (t.member module).st = 2 then (t.declareFailed module 3, stOk) else (t, 1))

/-- RBLD_OFFLINE. -/
def execRbldOffline (h : CmdHdr) (module : Nat) (s : State) : Res :=
  .next ((s.command h pgRBLD 0x0101 .work fun _ t =>
    let x := t.member module
    if x.st ≠ 1 then (t, .done 1 0)
    else if (t.group x.group).st ≠ 0 ∨ (t.groupMembers x.group).any (fun m => (t.member m).offCmd.isSome) then (t, .done 2 0)
    else (t.setMember module { x with offCmd := some h.cseq }, .running [])).offlinePump)

/-- RBLD_ONLINE. -/
def execRbldOnline (h : CmdHdr) (module : Nat) (s : State) : Res :=
  .next (s.simpleCmd h pgRBLD 0x0102 fun t =>
    let x := t.member module
    if x.st ≠ 2 then (t, 1)
    else (((t.setMember module { x with st := 1 }).event pgRBLD 6 (le 1 module ++ le 1 1)).groupState x.group, stOk))

/-- RBLD_JOIN. -/
def execRbldJoin (h : CmdHdr) (module group asSpare : Nat) (s : State) : Res :=
  .next (s.simpleCmd h pgRBLD 0x0103 fun t =>
    let st := (t.member module).st
    if 24 ≤ module ∨ 4 ≤ group ∨ (st ≠ 0 ∧ st ≠ 5) ∨ !(t.group group).exists_ ∨ (t.link module).dieType = 0
      ∨ (t.link module).dieType ≠ t.groupDie group then (t, 1)
    else if asSpare ≠ 0 then
      (((t.setMember module { st := 4, group := group }).freshModule module).modGroup group (fun x => { x with spares := x.spares ++ [module] }), stOk)
    else
      let t1 := ((t.setMember module { st := 1, group := group }).freshModule module).modGroup group (fun x =>
        { x with members := x.members ||| 2 ^ module, noSpare := false })
      ((((t1.groupState group).relevel group).spaceBack group).placeAll.recomputeArbiter, stOk))

end Sys2Proof.Machine
end

