-- ==== Sys2Proof/Machine/Peer.lean ====
section
/-! DEFINITION. The commands and messages of PEERCTL: pairing, resynchronisation, takeover, handover, staging runs and the
mirror of the peer (R343-R365). -/

namespace Sys2Proof.Machine

/-! ### Statuses (R364) -/

def peBadArg : Nat := 1
def peState : Nat := 2
def peLostRace : Nat := 3
def peFenceFail : Nat := 4
def peMirror : Nat := 5
def peTimeout : Nat := 6
def peBusy : Nat := 7

/-- This head has a peer. -/
def State.twoHeads (s : State) : Bool := decide (2 ≤ s.plat.chip.heads)
def State.otherHead (s : State) : Nat := 1 - s.plat.chip.headId

/-- Pairing begins: both heads number messages and batches from 1, and the pool's runs are divided by their index (R349, R352). -/
def State.startPairing (s : State) (cseq assoc : Nat) (handles : List Nat) : State :=
  { s with
    peer.assoc := assoc, peer.handles := handles, peer.pairCmd := some cseq
    peer.msgSent := 0, peer.msgRecv := 0, peer.msgCons := 0, peer.batchSent := 0, peer.batchRecv := 0, peer.inboxCons := 0
    peer.waiting := [], peer.ringGap := false, peer.ringNext := 0, peer.runReq := false
    peer.runsPeer := (List.range (s.nvf.poolMib / 2)).filter (fun r => r % 2 ≠ s.plat.chip.headId) }

/-- PEERCTL_PAIR (R349, R352).
[DEDUCED: log entry 100] -/
def execPeerctlPair (h : CmdHdr) (assoc data ring log ctrl inbox : Nat) (s : State) : Res :=
  .next (s.command h pgPEERCTL 0x0100 .work fun _ t =>
    if !t.twoHeads ∨ t.peerState ≠ psUnpaired then (t, .done peState 0)
    else if (t.assoc assoc).state ≠ .isOpen ∨ (t.assoc assoc).port ≠ 0x20 then (t, .done peBadArg 0)
    else
      (((t.startPairing h.cseq assoc [data, ring, log, ctrl, inbox]).setPeerState psPairing).setAna, .running [assoc]))

/-- PEERCTL_UNPAIR. A fence ends only with a warm restart (R357). -/
def execPeerctlUnpair (h : CmdHdr) (s : State) : Res :=
  .next (s.simpleCmd h pgPEERCTL 0x0101 fun t =>
    if t.peerState = psPaired ∨ t.peerState = psPairing ∨ t.peerState = psFenced then (t, peState)
    else (({ t with peer.runsPeer := [] }.setPeerState psUnpaired).setMirror msAbsent 4, stOk))

/-- PEERCTL_RESYNC (R353): it completes when the mirror is Healthy. -/
def execPeerctlResync (h : CmdHdr) (s : State) : Res :=
  .next (s.command h pgPEERCTL 0x0102 .work fun _ t =>
    if t.mirror ≠ msBroken ∨ t.peerState ≠ psPaired then (t, .done peState 0)
    else ({ t with peer.resyncCmd := some h.cseq }.startResync, .running []))

/-- RESYNC_COPY_DONE: RESYNC_DONE goes to the peer (R354). -/
def execResyncCopyDone (s : State) : Res :=
  .next (if s.mirror = msResync ∧ s.peer.resyncRef.isNone then
      let r := (s.setReg64 rPEERCTL_RESYNC_LEFT 0).sendMsg 5 (le 8 s.lmap.commitSeq)
      { r.1 with peer.resyncRef := r.2 }
    else s)

/-! ### Applying the peer's records (R346, R359) -/

/-- A record of this head in a page of the peer's half, as this head reads that page (R346). -/
def State.copyRec (s : State) (r : ILogRec) : State :=
  let n := s.fidxOf r.fp
  let p := s.fidxPage n
  let es := if r.remove then p.ents.filter (fun e => !(e.dom = r.dom && e.cid = r.cid))
    else if p.ents.any (fun e => e.dom = r.dom && e.tag = fpT r.fp && (s.cont e.cid).fp = r.fp) then p.ents
    else p.ents ++ [⟨fpT r.fp, r.dom, r.cid⟩]
  { s with grog.fidx := s.grog.fidx.ins n { p with ents := es } }.unpin r.fp r.dom r.cid

/-- The peer has written a page of a base bucket again: the records of this head that it has by now are in it, and their hot entries may
be evicted (R172, R346).
[DESIGN CHOICE: log entry 122] -/
def State.peerMerged (s : State) (b : Nat) : State :=
  let seen := fun (r : ILogRec) => decide (fpB r.fp = b) && !s.peer.outbox.contains r.bytes
  let s1 := (s.grog.fwd.filter seen).foldl State.copyRec { s with grog.fwd := s.grog.fwd.filter (fun r => !seen r) }
  { s1 with grog.mergeSeq := s1.mergeSeqNow }

/-- A directory change of the peer: its page's new location. -/
def State.applyDir (s : State) (rec : List Byte) : State :=
  if unLe (slice rec 8 1) = 3 ∧ unLe (slice rec 10 2) = 0xFFFE then
    let m := unLe (slice rec 16 8)
    let s1 := { s with back.pageLoc := s.back.pageLoc.ins m (unLe (slice rec 24 8)) }
    if m / 2 ^ 46 = 2 ∧ !s1.ownsHalf (m % 2 ^ 26) then s1.peerMerged (m % 2 ^ 26) else s1
  else s

/-- The records of a unit, 32 bytes each, with 64 more after a KIND 2 record. -/
def splitRecords : Nat → List Byte → List (List Byte)
  | 0, _ => []
  | f + 1, bs =>
    if bs.length < 32 then []
    else
      let n := if unLe (slice bs 8 1) = 2 then 96 else 32
      bs.take n :: splitRecords f (bs.drop n)

/-- A content entry from its 64 bytes (R221). -/
def contentOf (bs : List Byte) : Content :=
  let df := unLe (slice bs 8 2)
  { loc := unLe (bs.take 6), len := unLe (slice bs 6 2), dom := df % 4096, inFlight := df.testBit 12, poisoned := df.testBit 13,
    indet := df.testBit 14, stored := df.testBit 15, keySlot := unLe (slice bs 10 2), refs := unLe (slice bs 12 4), counted := true,
    createSeq := unLe (slice bs 16 8), guard := unLe (slice bs 24 8), fp := slice bs 32 32 }

/-- Eight bytes of a table's entry change: the entry with them. -/
def Volume.patch (v : Volume) (off val : Nat) : Volume :=
  let bs := v.bytes.take off ++ le 8 val ++ v.bytes.drop (off + 8)
  { v with
    root := unLe (bs.take 6), rootOwner := unLe (slice bs 6 2), rootBirth := unLe (slice bs 8 4), epoch := unLe (slice bs 12 4)
    size := unLe (slice bs 16 8), mapped := unLe (slice bs 24 8), tenant := unLe (slice bs 32 2), domain := unLe (slice bs 34 2)
    keySlot := unLe (slice bs 36 2), kind := unLe (slice bs 38 1), levels := unLe (slice bs 39 1), source := unLe (slice bs 40 4)
    moulds := unLe (slice bs 44 2), readOnly := (unLe (slice bs 46 2)).testBit 0, cgHold := (unLe (slice bs 46 2)).testBit 1 }
def Mould.patch (m : Mould) (off val : Nat) : Mould :=
  let bs := m.bytes.take off ++ le 8 val ++ m.bytes.drop (off + 8)
  { m with
    vol := unLe (bs.take 2), st := unLe (slice bs 2 1), levels := unLe (slice bs 3 1), epoch := unLe (slice bs 4 4)
    root := unLe (slice bs 8 6), clones := unLe (slice bs 14 2), time := unLe (slice bs 16 8), size := unLe (slice bs 24 6) }
def Tenant.patch (t : Tenant) (off val : Nat) : Tenant :=
  if off = 0 then { t with capGrains := val } else if off = 8 then { t with physGrains := val }
  else if off = 16 then { t with rsvGrains := val } else t
def Segment.patch (g : Segment) (off val : Nat) : Segment :=
  let bs := g.bytes.take off ++ le 8 val ++ g.bytes.drop (off + 8)
  let f := unLe (slice bs 5 1)
  { g with
    st := unLe (bs.take 1), native := unLe (slice bs 1 1) = 1, aligned := unLe (slice bs 2 1) = 1, stream := unLe (slice bs 3 1)
    group := unLe (slice bs 4 1), refresh := f.testBit 0, badMember := f.testBit 1, earlyClose := f.testBit 2, rows := unLe (slice bs 6 2)
    valid := unLe (slice bs 8 4), meanErase := unLe (slice bs 12 4), lastWrite := unLe (slice bs 16 8), releaseSeq := unLe (slice bs 24 8) }

/-- A KIND 6 record: eight bytes of a table's entry.
[DESIGN CHOICE: log entry 25] -/
def State.applyTable (s : State) (table i off val : Nat) : State :=
  match table with
  | 0 => s.setVol i ((s.vol i).patch off val)
  | 1 => s.setTen i ((s.tenE i).patch off val)
  | 2 => s.setMould i ((s.mould i).patch off val)
  | 3 => { s with peer.cidRuns := s.peer.cidRuns.ins i (val % 256) }
  | 4 => { s with peer.treeRuns := s.peer.treeRuns.ins i (val % 256) }
  | 5 => s.setSeg i ((s.seg i).patch off val)
  | _ => { s with peer.home := s.peer.home.put 0xFF i (val % 256) }

/-- A KIND 1 record in a tree: the copies and new pages on the way are those of the KIND 5 records before it, from the root down. What it
answers: the page that takes the place of `mpa`, and the KIND 5 records that are left.
[DEDUCED: log entry 130] -/
def State.replayAt (s : State) (v epoch lba : Nat) (ent : MapEnt) : Nat → Nat → Bool → List (Nat × Nat) → State × Nat × List (Nat × Nat)
  | 0, mpa, _, cs => (s, mpa, cs)
  | k + 1, mpa, lost, cs =>
    let p := s.tpage mpa
    let own := mpa ≠ 0 && p.owner = v && p.birth = epoch
    match own, cs with
    | false, [] => (s, mpa, [])
    | _, _ =>
      let m := if own then mpa else (cs.head?.map Prod.snd).getD mpa
      let rest := if own then cs else cs.drop 1
      let page : MapPage := if mpa ≠ 0 then { p with owner := v, birth := epoch }
        else if lost then lostPage (k + 1) s.leafCap v epoch else { level := k + 1, owner := v, birth := epoch }
      let s1 := ((if own then s else (s.setTpage m page).fillFrame m)).markDirty m
      if k = 0 then (s1.setEnt m (lba % s1.leafCap) ent, m, rest)
      else
        let i := pathIdx (k + 1) (lba / s1.leafCap)
        let e := (s1.tpage m).ents.get {} i
        let d := s1.replayAt v epoch lba ent k e.a e.lost rest
        (d.1.setEnt m i { a := d.2.1, b := v, c := epoch }, m, d.2.2)

/-- One record of a commit unit, on the maps that this head holds; `cs` are the KIND 5 records that no KIND 1 record has used yet: (old MPA,
new MPA). -/
def State.applyRecord (s : State) (cs : List (Nat × Nat)) (rec : List Byte) : State × List (Nat × Nat) :=
  let kind := unLe (slice rec 8 1)
  let vol := unLe (slice rec 10 2)
  let aux := unLe (slice rec 12 4)
  let key := unLe (slice rec 16 8)
  let val := unLe (slice rec 24 8)
  let ent : MapEnt := { a := val % 2 ^ 48, b := val / 2 ^ 48, inFlight := !s.arrayMode && decide (16 ≤ val % 2 ^ 48) }
  if kind = 1 then
    let x := s.vol vol
    match if aux = x.epoch then none else s.mouldOf vol aux with
    | some m =>
      let r := s.replayAt vol aux key ent (s.mould m).levels (s.mould m).root false cs
      (r.1.setMould m { r.1.mould m with root := r.2.1 }, r.2.2)
    | none =>
      let r := s.replayAt vol aux key ent x.levels x.root false cs
      (r.1.modVol vol (fun y => { y with root := r.2.1, rootOwner := vol, rootBirth := aux }), r.2.2)
  else if kind = 2 then (s.setCont key (contentOf (rec.drop 32)), cs)
  else if kind = 3 then
    (if vol = 0xFFFE then s.applyDir rec
      else if vol = 0xFFFF then s.modCont key (fun c => { c with loc := val, inFlight := false })
      else s.setLeaf vol key (fun e => { e with loc := val, inFlight := false }), cs)
  else if kind = 4 then (s.modCont key (fun c => { c with refs := (c.refs + val) % 2 ^ 64 % 2 ^ 32 }), cs)
  else if kind = 5 then (s, cs ++ [(key, val)])
  else if kind = 6 then (s.applyTable (aux / 2 ^ 24) (aux % 2 ^ 24) key val, cs)
  else (s, cs)

/-- A page copy that no block's change goes with: a root above the old one (R219).
[DEDUCED: log entry 130] -/
def State.applyRoot (s : State) (c : Nat × Nat) : State :=
  let p := s.tpage c.1
  if c.1 = 0 ∨ (s.lmap.pages.find c.2).isSome then s
  else ((s.setTpage c.2 { level := p.level + 1, owner := p.owner, birth := p.birth, ents := [(0, { a := c.1, b := p.owner, c := p.birth })] }).fillFrame
    c.2).markDirty c.2

/-- A unit whose KIND 7 record is present is applied; any other is discarded whole. -/
def State.applyUnit (s : State) (bs : List Byte) : State :=
  let rs := splitRecords (bs.length / 32 + 1) bs
  if rs.any (fun r => unLe (slice r 8 1) = 7) then
    let r := rs.foldl (fun (t : State × List (Nat × Nat)) r => t.1.applyRecord t.2 r) (s, [])
    r.2.foldl State.applyRoot r.1
  else s

/-! ### Takeover (R356-R359) -/

/-- A head fences itself: every namespace Inaccessible, its admitted commands end with 3/02, and nothing more is programmed. -/
def State.fence (s : State) (cause : Nat) : State :=
  if s.peer.fenced then s
  else
    let s1 := ({ s with peer.fenced := true, links := s.links.map (fun (e : Nat × Link) => (e.1, { e.2 with stopped := true })) }.setPeerState
      psFenced).setAna
    let s2 := s1.nvf.cmds.foldl (fun t e => if e.2.phase = .admitted then t.failCmd e.1 scAnaInacc else t) s1
    (s2.irqBit pgPEERCTL 2).event pgPEERCTL 6 (le 1 cause)

/-- The groups of the other head. -/
def State.peerGroups (s : State) : List Nat := (List.range 4).filter (fun g => s.groupOwner g = s.otherHead)

/-- The reservations of modules that this head has pre-empted: it is their owner, one generation on (R336). -/
def State.preempted (s : State) (ms : List Nat) : State :=
  ms.foldl (fun t m => t.modLink m (fun l => { l with owner := 1, stopped := false, resvGen := (l.resvGen + 1) % 2 ^ 32 })) s

/-- The arbiter can be reached: agreed, not Failed, and its link up (R358). -/
def State.arbiterReach (s : State) : Bool :=
  let m := s.fld fPEERCTL_ARBITER_MODULE
  s.fld fPEERCTL_ARBITER_VALID ≠ 0 && (s.member m).st ≠ 3 && (s.link m).st = 4

/-- Step 2 of a takeover: the arbiter is pre-empted, but not with FORCE = 1. -/
def State.arbiterTaken (s : State) (force : Bool) : State := if force then s else s.preempted [s.fld fPEERCTL_ARBITER_MODULE]

/-- Adopt groups: their Released segments wait for this head's commits, and this head owns them.
[DEDUCED: log entry 32] -/
def State.adopt (s : State) (gs : List Nat) : State :=
  let s1 := s.back.segs.foldl (fun t e => if gs.contains e.2.group && e.2.st = 4 then
    t.modSeg e.1 (fun v => { v with releaseSeq := t.lmap.commitSeq }) else t) s
  gs.foldl (fun t g => t.setOwner g t.plat.chip.headId) s1

/-- PEERCTL_TAKEOVER: `arbiter` says how the pre-emption of the arbiter ends (0 won, 1 lost to the other head, 2 not reached), and
`membersOk` that every member of the peer's groups was pre-empted.
[DEDUCED: log entry 32] -/
def execPeerctlTakeover (h : CmdHdr) (force : Bool) (arbiter : Nat) (membersOk : Bool) (s : State) : Res :=
  .next (s.simpleCmd h pgPEERCTL 0x0103 fun t =>
    if !t.twoHeads ∨ t.peerState ≠ psLost then (t, peState)
    else if !force ∧ (!t.arbiterReach ∨ 2 ≤ arbiter) then (t, peFenceFail)
    else if !force ∧ arbiter = 1 then (t.fence 1, peLostRace)
    else if !membersOk then (t.arbiterTaken force, peFenceFail)
    else
      let gs := t.peerGroups
      let t0 := (t.arbiterTaken force).preempted (gs.flatMap t.groupMembers)
      let t1 := ({ t0 with peer.changing := gs }.setAna)
      let t2 := t1.peer.ring.foldl (fun u e => u.applyUnit e.2) t1
      let t3 := { t2 with peer.changing := [], peer.runsPeer := [], peer.ring := [], back.ckptAsked := true, back.ckptCount := 0 }
      let t4 := ((t3.setPeerState psTaken).adopt gs).setMirror msAbsent 4
      ((t4.slipAdopted gs).event pgPEERCTL 4 (le 1 (maskOf gs)), stOk))

/-! ### Handover (R360) -/

/-- PEERCTL_HANDOVER. -/
def execPeerctlHandover (h : CmdHdr) (group halves : Nat) (s : State) : Res :=
  .next (s.command h pgPEERCTL 0x0104 .work fun _ t =>
    if !t.twoHeads ∨ 4 ≤ group ∨ !t.owns group ∨ t.peer.handover.isSome then (t, .done peState 0)
    else if !t.mirrorBoth then (t, .done peMirror 0)
    else
      let t1 := { t with peer.handover := some (h.cseq, group, halves), peer.handoverStep := 0, peer.changing := t.peer.changing ++ [group] }
      (t1.setAna.handoverPump, .running [group]))

/-- HANDOVER_HOLD_TIMEOUT: steps 1-3 took longer than HOLD_MS. -/
def execHandoverHoldTimeout (s : State) : Res :=
  .next (match s.peer.handover with
    | some (q, g, _) =>
      if s.peer.handoverStep < 2 then
        (({ s with peer.handover := none, peer.changing := s.peer.changing.filter (· ≠ g) }).setAna).finishRunning q 0 peTimeout
      else s
    | none => s)

/-- PEERCTL_HOME (R344). -/
def execPeerctlHome (h : CmdHdr) (tenant group : Nat) (s : State) : Res :=
  .next (s.simpleCmd h pgPEERCTL 0x0105 fun t =>
    if 16384 ≤ tenant ∨ (4 ≤ group ∧ group ≠ 0xFF) then (t, peBadArg)
    else if t.lmap.vols.any (fun v => v.2.kind ≠ 0 && v.2.tenant = tenant) then (t, peBusy)
    else ((({ t with peer.home := t.peer.home.put 0xFF tenant group }.hbmWrite (t.reg64 rPEERCTL_HOME_BASE + tenant) (le 1 group)).commit
      [tableRec 6 tenant]).setAna, stOk))

/-! ### Messages (R349) -/

/-- The HBM address of a region of this head that the peer writes: index +3 CTRL, +4 INBOX. -/
def State.peerRegion (s : State) (k : Nat) : Nat := (s.region (s.fld fPEERCTL_CFG_RGN_INDEX + k)).base

/-- Message `seq` is the next one. The first that a head hears while Pairing sets the count, for the peer may have begun before (R349). -/
def State.msgTurn (s : State) (seq : Nat) : Bool :=
  seq = s.peer.msgRecv + 1 || (s.peerState = psPairing && s.peer.msgRecv = 0 && decide (0 < seq))

/-- Handle message `seq`: in SEQ order, while the heads are not Unpaired and PEERCTL works. A slot with an uncorrectable HBM error
drops its message (R365). -/
def State.onMsg (s : State) (seq : Nat) (f : State → State) : State :=
  if s.peerState = psUnpaired ∨ !s.msgTurn seq ∨ !s.working pgPEERCTL then s
  else
    let a := s.peerRegion 3 + 64 * (seq % 1024)
    let s1 := { s with peer.msgRecv := seq }
    if s.hbmErr a 64 then ((s1.noteErr a 64).capture pgPEERCTL 0x03 seq (seq / 2 ^ 32)).irqBit pgPEERCTL 3
    else f (s1.bump fPEERCTL_MSG_RECV)

/-- The HEARTBEAT of this head. -/
def State.sendHeartbeat (s : State) : State :=
  let gs := (List.range 4).filter (fun g => s.owns g)
  (s.sendMsg 1 (le 8 s.peer.msgRecv ++ le 8 s.peer.batchRecv ++ le 8 s.lmap.commitSeq ++ le 8 (s.reg64 rFTL_CKPT_SEQ)
    ++ le 1 s.mirror ++ le 1 (maskOf gs) ++ le 1 s.arbiterNamed ++ le 1 (b2n s.plat.chip.shelf))).1

/-- HEARTBEAT_INTERVAL. -/
def execHeartbeatInterval (s : State) : Res :=
  .next (if s.working pgPEERCTL ∧ (s.peerState = psPairing ∨ s.peerState = psPaired ∨ s.peerState = psLost) then
      (s.pollMirror.sendHeartbeat).sendBatch
    else s)

/-- The pairing command ends. -/
def State.pairEnds (s : State) (st : Nat) : State :=
  match s.peer.pairCmd with
  | some q => { s with peer.pairCmd := none }.finishRunning q 0 st
  | none => s

/-- What a HEARTBEAT brings up to date. After a gap in the ring a mirror that the peer calls Healthy counts as Broken until the peer has
resynchronised (R365). -/
def State.heard (s : State) (msgCons inboxCons ckptSeq mirror groups arbiter : Nat) : State :=
  let gap := s.peer.ringGap && decide (mirror = msHealthy)
  let pm := if gap then msBroken else mirror
  let s1 := { s with
    peer.msgCons := msgCons, peer.inboxCons := inboxCons, peer.peerArb := arbiter, peer.ringGap := gap
    peer.inboundHealthy := pm = msHealthy
    peer.ring := s.peer.ring.filter (fun e => decide (ckptSeq < e.1)) }
  let s2 := (bitList 4 groups).foldl (fun t g => if t.owns g ∨ t.groupOwner g = t.otherHead then t else t.setOwner g t.otherHead)
    (s1.setFld fPEERCTL_STATE_PEER_MIRROR pm)
  State.sendWaiting s2.peer.waiting.length s2.recomputeArbiter

/-- HEARTBEAT: the peer state's rows of R349.
[DEDUCED: log entry 100] -/
def execHeartbeat (seq msgCons inboxCons _commitSeq ckptSeq mirror groups arbiter mode : Nat) (s : State) : Res :=
  .next (s.onMsg seq fun t =>
    let t1 := if t.peerState = psPairing ∧ (arbiter ≠ t.arbiterCandidate ∨ mode ≠ b2n t.plat.chip.shelf) then t
      else t.heard msgCons inboxCons ckptSeq mirror groups arbiter
    if t.peerState = psPairing then
      if arbiter = t.arbiterCandidate ∧ mode = b2n t.plat.chip.shelf then
        ((t1.peerPaired.event pgPEERCTL 1 (le 1 t.otherHead)).pairEnds stOk)
      else (t1.setPeerState psUnpaired).pairEnds peBadArg
    else if t.peerState = psLost then t1.peerPaired.recomputeArbiter
    else t1)

/-- PEER_HEARTBEAT_TIMEOUT. -/
def execPeerHeartbeatTimeout (s : State) : Res :=
  .next (if s.peerState = psPaired then (s.bump fPEERCTL_HB_MISSED).peerLostNow 1 else s)

/-- CANCEL: the range is not live in the copy of the peer's data (R352). -/
def execCancel (seq offset bytes : Nat) (s : State) : Res :=
  .next (s.onMsg seq fun t => { t with peer.cancelled := t.peer.cancelled ++ [(offset, bytes)] })

/-- The runs that this head holds. -/
def State.runsHeld (s : State) : List Nat := (List.range (s.nvf.poolMib / 2)).filter (fun r => !s.peer.runsPeer.contains r)
/-- Those of them that no command uses, the highest first. -/
def State.freeRuns (s : State) : List Nat :=
  s.runsHeld.reverse.filter (fun r => s.heldExts.all (fun e => decide (e.1 + e.2 ≤ 512 * r) || decide (512 * (r + 1) ≤ e.1)))
def State.runsFree (s : State) : Nat := s.freeRuns.length

/-- RUN_REQ: the free runs beyond 2 are granted, at most 8. -/
def execRunReq (seq runs : Nat) (s : State) : Res :=
  .next (s.onMsg seq fun t =>
    let n := min (min runs 8) (t.runsFree - 2)
    let give := t.freeRuns.take n
    if n = 0 then t
    else { (t.sendMsg 4 (le 1 give.length ++ zeros 3 ++ give.flatMap (le 4))).1 with peer.runsPeer := t.peer.runsPeer ++ give })

/-- RUN_GRANT. -/
def execRunGrant (seq : Nat) (runs : List Nat) (s : State) : Res :=
  .next (s.onMsg seq fun t =>
    { t with peer.runsPeer := t.peer.runsPeer.filter (fun r => !runs.contains r), peer.runReq := false })

/-- RESYNC_DONE: the peer's copy here is whole, and the units after COMMIT_SEQ follow in order. -/
def execResyncDone (seq commitSeq : Nat) (s : State) : Res :=
  .next (s.onMsg seq fun t =>
    { t with peer.inboundHealthy := true, peer.ringGap := false, peer.ringNext := max t.peer.ringNext (commitSeq + 1) })

/-- HANDOVER: this head reserves the group's members and takes it. -/
def execHandover (seq group _halves _loc ckptSeq : Nat) (s : State) : Res :=
  .next (s.onMsg seq fun t =>
    if 4 ≤ group then t
    else
      let t1 := { t with peer.ring := t.peer.ring.filter (fun e => decide (ckptSeq < e.1)) }.adopt [group]
      let t2 := (t1.groupMembers group).foldl (fun u m => u.sendOp m { opcode := opReserve, addr := 0 } []) t1
      (t2.sendMsg 7 (le 1 group)).1.event pgPEERCTL 5 (le 1 group ++ le 1 t.plat.chip.headId))

/-- HANDOVER_ACK: the group is the peer's, and the commands held for it end with 3/03. -/
def execHandoverAck (seq group : Nat) (s : State) : Res :=
  .next (s.onMsg seq fun t =>
    match t.peer.handover with
    | some (q, g, _) =>
      if g = group ∧ t.peer.handoverStep = 2 then
        let t1 := { t with peer.handover := none, peer.changing := t.peer.changing.filter (· ≠ g) }.setOwner g t.otherHead
        let t2 := t1.nvf.cmds.foldl (fun u e =>
          if (e.2.phase = .waiting ∨ e.2.phase = .held) ∧ !e.2.connect ∧ u.homeGroup e.2.tenant = g ∧ !e.2.admin then u.endCmd e.1 scAnaTrans
          else u) t1
        (t2.event pgPEERCTL 5 (le 1 g ++ le 1 t.otherHead)).finishRunning q 0 stOk
      else t
    | none => t)

/-! ### The copies of the peer -/

/-- MIRROR_RING_RECEIVE: a commit unit of the peer. Once the copy is whole, one out of order is a gap; until then copied units and new ones
come as the peer sends them (R354). -/
def execMirrorRingReceive (commitSeq : Nat) (records : List Byte) (s : State) : Res :=
  .next (if s.peerState = psUnpaired ∨ !s.working pgPEERCTL then s
    else if !s.peer.inboundHealthy ∨ commitSeq = s.peer.ringNext then
      let s1 := (splitRecords (records.length / 32 + 1) records).foldl (fun t r => t.applyDir r) s
      { s1 with peer.ring := s1.peer.ring.ins commitSeq records, peer.ringNext := max s1.peer.ringNext (commitSeq + 1) }.setReg64
        rPEERCTL_PEER_COMMIT_SEQ commitSeq
    else (({ s with peer.ringGap := true }.capture pgPEERCTL 0x02 commitSeq (commitSeq / 2 ^ 32)).irqBit pgPEERCTL 3))

/-- An insert-log record from its 64 bytes. -/
def ilogOf (bs : List Byte) : ILogRec :=
  { fp := bs.take 32, cid := unLe (slice bs 32 6), dom := unLe (slice bs 38 2), createSeq := unLe (slice bs 40 8),
    remove := unLe (slice bs 48 1) = 2 }

/-- The records of a batch. -/
def batchRecs : Nat → List Byte → List ILogRec
  | 0, _ => []
  | f + 1, bs => if bs.length < 64 then [] else ilogOf (bs.take 64) :: batchRecs f (bs.drop 64)

/-- INBOX_BATCH_RECEIVE: the peer's index records are appended in arrival order. -/
def execInboxBatchReceive (seq : Nat) (records : List Byte) (s : State) : Res :=
  let a := s.peerRegion 4 + 16384 * (seq % 16)
  .next (if s.peerState = psUnpaired ∨ seq ≠ s.peer.batchRecv + 1 ∨ !s.working pgPEERCTL then s
    else
      let s1 := { s with peer.batchRecv := seq }
      if s.hbmErr a records.length then ((s1.noteErr a records.length).capture pgPEERCTL 0x03 seq (seq / 2 ^ 32)).irqBit pgPEERCTL 3
      else (batchRecs 256 records).foldl (fun t r => if t.ownsHalf (fpB r.fp) then t.ilogAppend r else t) s1)

/-- MIRROR_ACK_TIMEOUT: a mirror write was not acknowledged in time. -/
def execMirrorAckTimeout (ref : Nat) (s : State) : Res :=
  .next (match s.peer.writes.find? (fun w => w.1 = ref) with
    | some w =>
      let s1 := match s.nvf.cmds.find w.2 with
        | some c => if c.wantP && c.resP.isNone then s.setNvCmd w.2 { c with resP := some false } else s
        | none => s
      s1.breakMirror 1
    | none => s)

end Sys2Proof.Machine
end

