-- ==== Sys2Proof/Machine/LinkOps.lean ====
section
/-! DEFINITION. What the rows of the module links share: the states of a link, received flits and packets, the ends of operations,
IDENTIFY, and MLINK's firmware operations (R327-R341). -/

namespace Sys2Proof.Machine

/-- MLINK's statuses (R342). -/
def mlBadArg : Nat := 1
def mlNotOwner : Nat := 2
def mlFwState : Nat := 3
def mlLinkDown : Nat := 4
def mlNotOffline : Nat := 5

/-- The command under which UPD's handling of the bridges issues its operations. -/
def jobCmd : Nat := 2 ^ 62

/-! ### The states of a link (R328) -/

/-- A change of a link's state is flagged. -/
def State.linkMoves (s : State) (m st : Nat) : State := (s.modLink m (fun l => { l with st := st })).irqBit (pgMLINK m) 0

/-- A Down link starts training when LINK_EN = 1, its domain is Firing and its island's clock runs. -/
def State.linkStart (s : State) (m : Nat) : State :=
  let i := s.plat.islands.get {} (11 + m / 4)
  if (s.link m).st = lkDown ∧ s.fld (fMLINK_CTRL_LINK_EN m) = 1 ∧ s.domOn (21 + m / 4) ∧ i.clkRun ∧ !i.inReset ∧ !s.plat.chip.porstLow then
    s.linkMoves m lkDetect
  else s

/-- A link ends: Down. -/
def State.linkEnd (s : State) (m : Nat) : State :=
  if (s.link m).st = lkDown then s
  else (s.linkMoves m lkDown).modLink m (fun l => { l with width := 0 })

/-- An Up link retrains: its replay buffer and SEQ state stay. -/
def State.linkRetrain (s : State) (m : Nat) : State :=
  if (s.link m).st = lkUp then (s.linkMoves m lkDetect).bump (fMLINK_RETRAIN m) else s

/-- LINK_LOST.
[DEDUCED: log entry 60] -/
def State.linkLost (s : State) (m reason : Nat) : State := s.event (pgMLINK m) 2 (le 1 reason)

/-- The link level gives up: LINK_LOST with reason 1, and the link retrains (R327). -/
def State.linkGivesUp (s : State) (m : Nat) : State := if (s.link m).st = lkUp then (s.linkLost m 1).linkRetrain m else s

/-! ### Flits (R326, R327) -/

/-- The unacknowledged flits are sent again; at the 16th replay of one flit the link retrains. -/
def State.linkReplay (s : State) (m : Nat) : State :=
  let l := s.link m
  if l.unacked.isEmpty ∨ l.st ≠ lkUp then s
  else
    let s1 := (s.setLink m { l with replays := l.replays + 1 }).bump (fMLINK_REPLAY m)
    let s2 := l.unacked.foldl (fun t e => t.sendFlit m 1 e.1 false e.2) s1
    if 16 ≤ l.replays + 1 then (s2.modLink m (fun x => { x with replays := 0 })).linkGivesUp m else s2

/-- The flits up to the acknowledged SEQ leave the replay buffer. -/
def ackFlits (a : Nat) (q : List (Nat × List Byte)) : List (Nat × List Byte) :=
  if q.any (fun e => e.1 = a) then (q.dropWhile (fun e => e.1 ≠ a)).drop 1 else q

/-- A received ACK, with or without NAK. -/
def State.linkAck (s : State) (m ack : Nat) (nak : Bool) : State :=
  let l := s.link m
  let q := ackFlits ack l.unacked
  let s1 := s.setLink m { l with unacked := q, replays := if q.length < l.unacked.length then 0 else l.replays }
  let s2 := if nak then s1.linkReplay m else s1
  State.flitPump (s2.link m).txWait.length s2 m

/-- A PACKET flit that fails its CRC or its order is discarded, and answered with NAK.
[DESIGN CHOICE: log entry 19] -/
def State.flitBad (s : State) (m : Nat) : State :=
  (s.bump (fMLINK_CRC_ERR m)).ackFlit m true

/-! ### The ends of operations (R333, R335) -/

/-- Reads that wait for a READ take its codewords as erasures, and go to PAR (R335). -/
def State.readsErased (s : State) (m addr : Nat) : State :=
  s.ware.reads.foldl (fun t e =>
    if (e.2.phase = .fetch ∨ e.2.phase = .repair) ∧ e.2.ops.contains (m, addr) then
      match s.rowGrain e.2.loc, s.placedAt e.2.loc with
      | some (id, _, _), some u =>
        let p := (s.seg id).posBlocks.findIdx (fun b => b.1 = m)
        let r : ReadUnit := { e.2 with
          erased := e.2.erased ++ (bitList 4 (getBits addr 30 27)).map (fun k => (p, k)), ops := e.2.ops.filter (· ≠ (m, addr)) }
        if r.phase = .fetch then (t.endReads r.ops).toRepair e.1 r id u else t.setReadUnit e.1 r
      | _, _ => t
    else t) s

/-- A program of a module ends well: its DONE bit in the Saggar log, or the anchor is written. -/
def State.progDone (s : State) (m addr : Nat) : State :=
  if anchorAddr addr then s.anchorDone m addr
  else match s.segOfAddr m addr with
  | some id =>
    let v := s.seg id
    let pos := v.posBlocks.findIdx (fun b => b.1 = m)
    match v.progAt (getBits addr 42 31) with
    | some p => s.setProgram id p { p with done := p.done ||| 2 ^ pos }
    | none => s
  | none => s

/-- A window record failed on a journal member (JOURNAL_FAIL): the next position in rotation takes it.
[DEDUCED: log entry 136] -/
def State.journalFails (s : State) (m addr : Nat) : State :=
  let c := (m, addrBlock addr, getBits addr 42 31)
  match s.back.segs.findSome? (fun e => (e.2.jwin.filter (fun w => w.copies.contains c)).map (fun w => (e.1, e.2, w))) with
  | none => s
  | some (id, v, w) =>
    let s1 := (s.capture pgSAG 0x03 id w.first).irqBit pgSAG 2
    let rest := w.copies.filter (· ≠ c)
    let pos := v.posBlocks.findIdx (fun b => b.1 = m)
    let next := ((List.range v.width).map (fun i => (v.posBlocks.getD ((pos + 1 + i) % v.width) (0, 0)).1)).find? (fun k =>
      k ≠ m && !(rest.map Prod.fst).contains k)
    match next with
    | some k =>
      let r := State.journalCopy (s1, rest) k
      r.1.modSeg id (fun x => { x with jwin := some { w with copies := r.2, turn := w.turn + 1 } })
    | none => s1.modSeg id (fun x => { x with jwin := some { w with copies := rest } })

/-- A program of a module fails: with its block's retirement, or after a timeout without. -/
def State.progFails (s : State) (m addr : Nat) (retire : Bool) : State :=
  if anchorAddr addr then s.anchorFails m addr
  else match s.segOfAddr m addr with
  | some id => s.programFails id (getBits addr 42 31) m retire
  | none => s.journalFails m addr

/-- An erase of a module fails. -/
def State.eraseOpFails (s : State) (m addr : Nat) : State :=
  match s.segOfAddr m addr with
  | some id => s.eraseFails id m
  | none => s

/-- A command of MLINK, or a step of UPD's handling of a bridge, ends. -/
def State.endLinkCmd (s : State) (m : Nat) (cmd : Option Nat) (st : Nat) : State :=
  match cmd with
  | none => s
  | some q => if q = jobCmd then s.modLink m (fun l => { l with jobRes := some st }) else s.finishRunning q 0 st

/-- An operation ends without a CPL: TIMEOUT or LINK_RESET (R335). -/
def State.opFails (s : State) (m : Nat) (o : LinkOp) : State :=
  if o.opcode = opRead then s.readsErased m o.addr
  else if o.opcode = opProgram then s.progFails m o.addr false
  else if o.opcode = opErase then s.eraseOpFails m o.addr
  else s.endLinkCmd m o.cmd mlLinkDown

/-- A NAND operation reported its fail bit (R333). -/
def State.nandFail (s : State) (m tag addr : Nat) : State :=
  ((s.capture (pgMLINK m) 0x03 tag (addr / 2 ^ 32)).irqBit (pgMLINK m) 3)

/-- The other head holds the module (R336, R357). -/
def State.ownershipLost (s : State) (m : Nat) : State :=
  let gen := (s.link m).resvGen
  let s1 := (s.modLink m (fun l => { l with stopped := true })).irqBit (pgMLINK m) 2
  (s1.event (pgMLINK m) 6 (le 4 gen)).fence 2

/-- The MLINK status of a CPL's status (R333, R342). -/
def cplStatus (st : Nat) : Nat :=
  if st = 0 then stOk else if st = 4 ∨ st = 5 then mlNotOwner else if st = 8 then mlFwState else if st = 7 then mlLinkDown else mlBadArg

/-- The next FW_WRITE of up to 16,384 bytes. -/
def State.fwWriteOn (s : State) (m : Nat) (cmd : Option Nat) (off : Nat) (bs : List Byte) : State :=
  if bs.isEmpty then s.endLinkCmd m cmd stOk
  else s.sendOp m { opcode := opFwWrite, addr := off, bufs := 1, cmd := cmd, got := bs.drop 16384, arg := off + 16384 } (bs.take 16384)

/-- What a reservation operation that the bridge took changes (R336). -/
def reservedBy (op addr : Nat) (l : Link) : Link :=
  if op = opReserve then { l with owner := 1, stopped := false }
  else if op = opPreempt then { l with owner := 1, stopped := false, resvGen := (addr % 2 ^ 32 + 1) % 2 ^ 32 }
  else { l with owner := 0 }

/-- An operation whose CPL has come with status OK. -/
def State.opDone (s : State) (m : Nat) (o : LinkOp) (payload : List Byte) : State :=
  if o.opcode = opProgram then s.progDone m o.addr
  else if o.opcode = opReserve ∨ o.opcode = opPreempt ∨ o.opcode = opRelease then
    (s.modLink m (reservedBy o.opcode o.addr)).endLinkCmd m o.cmd stOk
  else if o.opcode = opFwWrite then s.fwWriteOn m o.cmd o.arg o.got
  else if o.opcode = opFwDigest then
    if o.cmd = some jobCmd then s.endLinkCmd m o.cmd (if slice payload 16 32 = o.got then stOk else mlBadArg)
    else (s.hbmWrite o.arg (slice payload 16 32)).endLinkCmd m o.cmd stOk
  else if o.opcode = opFwCommit ∨ o.opcode = opFwRevert then (s.modLink m (fun l => { l with trial := false })).endLinkCmd m o.cmd stOk
  else s

/-- An operation whose CPL names a failure. -/
def State.opBad (s : State) (m tag : Nat) (o : LinkOp) (st : Nat) : State :=
  if writeType o.opcode ∧ (st = 4 ∨ st = 5) then s.ownershipLost m
  else if o.opcode = opRead then s.readsErased m o.addr
  else if o.opcode = opProgram then
    if st = 1 then ((s.bump (fMLINK_PROG_FAIL m)).nandFail m tag o.addr).progFails m o.addr true else s.progFails m o.addr false
  else if o.opcode = opErase then
    let s1 := if st = 2 then (s.bump (fMLINK_ERASE_FAIL m)).nandFail m tag o.addr else s
    s1.eraseOpFails m o.addr
  else s.endLinkCmd m o.cmd (cplStatus st)

/-! ### IDENTIFY (R329, R334) -/

/-- What a controller keeps of an IDENTIFY payload. -/
def identified (p : List Byte) (l : Link) : Link :=
  let f := fun off n => unBe (slice p off n)
  let own := f 64 1
  { l with
    dieType := f 0 1, channels := f 1 1, diesPerCh := f 2 1, serial := f 8 8, dieMap := f 32 32
    owner := if own = 0 then 0 else if own - 1 = f 3 1 then 1 else 2
    trial := decide (f 65 1 = 1), resvGen := f 68 4, bootId := some (f 16 4) }

/-- The registers that IDENTIFY sets. -/
def State.identifyRegs (s : State) (m : Nat) (p : List Byte) : State :=
  let f := fun off n => unBe (slice p off n)
  let w := fun (t : State) (a v : Nat) => t.setReg a (BitVec.ofNat 32 v)
  let s1 := w s (rMLINK_GEOM m) (f 0 1 * 2 ^ 24 + f 1 1 * 2 ^ 16 + f 2 1 * 2 ^ 8)
  let s2 := w s1 (rMLINK_T_PROG m) (f 24 2 * 2 ^ 16 + f 22 2)
  let s3 := w s2 (rMLINK_T_OTHER m) (f 26 2 * 2 ^ 16 + f 20 2)
  (w s3 (rMLINK_FW_VER m) (f 4 2 * 2 ^ 16 + f 6 2)).setReg64 (rMLINK_SERIAL m) (f 8 8)

/-- An MLINK_FW_ACTIVATE that the bridge has taken. -/
def LinkOp.accepted (o : LinkOp) : Bool := o.opcode = opFwActivate && o.arg = 1

/-- The activation is complete: the new image runs in trial under a new BOOT_ID (R341). -/
def State.activated (s : State) (m : Nat) : State :=
  (s.link m).ops.foldl (fun t e =>
    if e.2.accepted then (t.modLink m (fun l => { l with ops := l.ops.del e.1 })).endLinkCmd m e.2.cmd stOk else t) s

/-- An operation ends with TIMEOUT: counted and captured (R335). -/
def State.timesOut (s : State) (m tag : Nat) (o : LinkOp) : State :=
  (((s.bump (fMLINK_OP_TIMEOUT m)).capture (pgMLINK m) 0x01 tag (o.addr / 2 ^ 32)).irqBit (pgMLINK m) 3).opFails m o

/-- An operation whose tag only waits for a late CPL has ended already. -/
def State.cutOff (s : State) (m : Nat) (e : Nat × LinkOp) : State := if e.2.opcode = 0 then s else s.timesOut m e.1 e.2

/-- Every operation outstanding ends with LINK_RESET, which is a TIMEOUT; an activation that the bridge has taken waits for its new image. -/
def State.linkReset (s : State) (m : Nat) : State :=
  let os := (s.link m).ops.filter (fun e => !e.2.accepted)
  os.foldl (fun t e => t.cutOff m e) (s.modLink m (fun l => { l with ops := l.ops.filter (fun e => e.2.accepted) }))

/-- The answer to IDENTIFY: the module is known, and a new BOOT_ID starts the link's operations again. -/
def State.identify (s : State) (m : Nat) (p : List Byte) : State :=
  let old := (s.link m).bootId
  let new := unBe (slice p 16 4)
  let s1 := (s.identifyRegs m p).modLink m (identified p)
  let s2 := if old = some new then s1
    else s1.modLink m (fun l => { l with opCredits := unBe (slice p 28 2), bufCredits := unBe (slice p 30 2) })
  let s3 := if old.isSome ∧ old ≠ some new then (s2.linkLost m 4).linkReset m else s2
  let s4 := (s3.event (pgMLINK m) 1 (le 1 (s3.link m).width ++ le 4 new)).irqBit (pgMLINK m) 0
  let s5 := if (s4.link m).arrived then
      ((s4.modLink m (fun l => { l with arrived := false })).irqBit (pgMLINK m) 1).event (pgMLINK m) 4
        (le 8 (s4.link m).serial ++ le 1 (s4.link m).dieType)
    else s4
  if (s5.link m).trial ∧ old ≠ some new then s5.activated m else s5

/-! ### Packets (R330, R333) -/

/-- A packet breaks the byte stream: it is counted, and the link retrains. -/
def State.linkBreak (s : State) (m tag addr : Nat) : State :=
  let s1 := (((s.bump (fMLINK_PKT_ERR m)).capture (pgMLINK m) 0x02 tag (addr / 2 ^ 32)).irqBit (pgMLINK m) 3)
  (s1.modLink m (fun l => { l with stream := [] })).linkRetrain m

/-- The payload lengths that a CPL may have. -/
def cplLenOk (op st n : Nat) : Bool :=
  if op = opIdentify then n = 96 || (n = 16 && st ≠ 0)
  else if op = opFwDigest then n = 48 || (n = 16 && st ≠ 0)
  else n = 16

/-- A CPL: the operation ends with its status, and its credits return.
[DEDUCED: log entry 60] -/
def State.takeCpl (s : State) (m tag st : Nat) (p : List Byte) : State :=
  match (s.link m).ops.find tag with
  | none => if p.length = 16 ∨ p.length = 48 ∨ p.length = 96 then s else s.linkBreak m tag 0
  | some o =>
    if o.accepted then s
    else if o.opcode ≠ 0 ∧ !cplLenOk o.opcode st p.length then s.linkBreak m tag o.addr
    else
      let act := o.opcode = opFwActivate && st = 0
      let id := o.opcode = opIdentify
      let s1 := s.modLink m (fun l => { l with
        ops := if act then l.ops.ins tag { o with arg := 1 } else l.ops.del tag
        opCredits := if id then l.opCredits else l.opCredits + unBe (slice p 6 2)
        bufCredits := if id then l.bufCredits else l.bufCredits + unBe (slice p 8 2) })
      let s2 := if st = 4 then s1.bump (fMLINK_NOT_OWNER m) else s1
      if o.opcode = 0 ∨ act then s2
      else if st ≠ 0 then s2.opBad m tag o st
      else if id then s2.identify m p
      else s2.opDone m o p

/-- DATA: codewords of a READ.
[DEDUCED: log entry 20] -/
def State.takeData (s : State) (m tag : Nat) (bs : List Byte) : State :=
  match (s.link m).ops.find tag with
  | some o => if o.opcode = opRead then s.modLink m (fun l => { l with ops := l.ops.ins tag { o with got := o.got ++ bs } }) else s
  | none => s

/-- ATTN: the trial image failed, and the bridge runs its fallback (R340).
[DEDUCED: log entry 60] -/
def State.takeAttn (s : State) (m : Nat) : State :=
  (s.modLink m (fun l => { l with trial := false })).event (pgMLINK m) 7 (le 2 (s.fld (fMLINK_FW_VER_RUNNING m)))

/-- Whole packets leave the stream, in order. A 0x00 byte where a header would begin is filler. -/
def State.parseLink : Nat → State → Nat → State
  | 0, s, _ => s
  | f + 1, s, m =>
    match (s.link m).stream with
    | [] => s
    | b :: rest =>
      let bs := b :: rest
      if b = 0 then State.parseLink f (s.modLink m (fun l => { l with stream := rest })) m
      else if bs.length < 16 then s
      else
        let tag := unBe (slice bs 2 2)
        let n := unBe (slice bs 4 2)
        let addr := unBe (slice bs 8 8)
        if 18432 < n ∨ (b ≠ 0x10 ∧ b ≠ 0x11 ∧ b ≠ 0x20 ∧ b ≠ 0x30) then s.linkBreak m tag addr
        else if bs.length < 16 + n then s
        else
          let p := slice bs 16 n
          let s1 := s.modLink m (fun l => { l with stream := bs.drop (16 + n) })
          let s2 := if b = 0x20 then s1.takeCpl m tag (unBe (slice bs 6 2)) p
            else if b = 0x11 then s1.takeData m tag p
            else if b = 0x30 then s1.takeAttn m else s1
          State.parseLink f s2 m

end Sys2Proof.Machine
end

