-- ==== Sys2Proof/Machine/Ldt.lean ====
section
/-! DEFINITION. The commands and events of the Luante Datagram Transport (R62, R67-R98, R469) but for the capsule's, which the
front end holds. -/

namespace Sys2Proof.Machine

/-! ### A frame at a host port (R62, R67, R82, R94) -/

/-- Whether an address is one of a logical port's local addresses (R67, R78). -/
def State.localAddr (s : State) (port : Nat) (ip : List Byte) : Bool :=
  if 0x20 ≤ port then (List.range 4).any (fun n => s.regBytes16 (rPLINK_IP_ADDR n) = ip && ip ≠ zeros 16)
  else (List.range 4).any (fun k => let a := s.regBytes16 (rHPORT_IP_ADDR (port / 4) (port % 4) k); a = ip && a ≠ zeros 16)

/-- A counter of a port. -/
def State.portBump (s : State) (port : Nat) (h p : Nat → Fld) : State :=
  s.bump (if port < 0x20 then h (port / 4) else p (port - 0x20))

/-- The packet-level tests of R94 on the decrypted part.
[DEDUCED: log entry 95] -/
def pktMalformed (maxPl : Nat) (ver : Nat) (plain : List Byte) : Bool :=
  let type := (plain.getD 0 0).toNat
  let pl := unBe (slice plain 2 2)
  let known := [0x01, 0x02, 0x03, 0x04, 0x10, 0x11, 0x12, 0x13, 0x14, 0x20].contains type
  let hl := if 0x10 ≤ type then 48 else 16
  let msgLen := unBe (slice plain 20 4)
  let off := unBe (slice plain 24 4)
  ver ≠ 1 || !known || pl + hl ≠ plain.length || decide (maxPl < pl) || (type = 0x01 && pl ≠ 32) || (type = 0x02 && pl ≠ 16)
    || (decide (0x10 ≤ type) && (decide (msgLen < off + pl) || (pl = 0 && msgLen ≠ 0 && type ≠ 0x13)))

/-- The switch endpoint of a port (R132). -/
def portEp (port : Nat) : Nat := if port < 0x20 then port / 4 else 8 + (port - 0x20)

/-- The command of NVF whose data a READ_RESP packet brings. -/
def State.respCmd (s : State) (a : Nat) (pt : List Byte) : Option Nat :=
  if pt.getD 0 0 ≠ 0x14 then none
  else match (s.ax a).initOps.find (unBe (slice pt 16 4)) with
    | some o => if o.user = pgNVF ∧ o.ref < noWait then some o.ref else none
    | none => none

/-- The association of a replica. -/
def State.slipAssoc (s : State) (a : Nat) : Bool := s.slip.reps.any (fun e => e.2.role ≠ 0 && e.2.assoc = a)

/-- The internal endpoint that an LDT packet goes to, and its class (R140): SLIP for a replica's association, and the front-end half of
a capsule's context or of the command whose data it brings; any other goes to the half of its association's parity.
[DESIGN CHOICE: log entry 121] -/
def State.ldtRoute (s : State) (a : Nat) (pt : List Byte) : Nat × Nat :=
  let target := unBe (slice pt 28 4)
  if s.slipAssoc a then (18, 6)
  else if pt.getD 0 0 = 0x20 then
    (if target.testBit 31 then (12, 7) else (12 + target % 2, (s.ctx.ctxs.get {} (target % 2 ^ 20)).cls))
  else match s.respCmd a pt with
    | some k => (12 + (s.nvCmd k).ctx % 2, (s.nvCmd k).cls)
    | none => (12 + a % 2, if a = s.peer.assoc ∧ 0x10 ≤ (pt.getD 0 0).toNat then 5 else 7)

/-- A verified LDT packet as it enters the switch (R132, R134): its headers in plaintext, and its payload. The cells that an admitted
command has been charged take its data.
[DESIGN CHOICE: log entry 121] -/
def State.ldtFrame (s : State) (port a : Nat) (frame u : List Byte) (ecn : Nat) (pt : List Byte) : SwFrame :=
  let r := s.ldtRoute a pt
  let n := if 0x10 ≤ (pt.getD 0 0).toNat then 48 else 16
  { src := portEp port, cls := r.2, mask := 2 ^ r.1, hdr := frame.take (l4Start frame + 8) ++ u.take 12 ++ pt.take n, payload := pt.drop n,
    flow := le 2 a, ect := ecn = 1 || ecn = 2, ce := ecn = 3,
    cmd := (s.respCmd a pt).filter (fun k => (s.sw.charged.find k).isSome), bad := 0, badBank := 0, badCell := 0, ldt := true }

/-- An LDT datagram's UDP payload at a port (R67, R77, R79, R81, R82, R83, R94, R469). A DST_ASSOC above 4,095 names no association
and so no key: its packet fails its tag. A malformed packet is counted as received (R75). A verified packet leaves the port through the
switch, whose endpoint hands it on to the block that takes it.
[DEDUCED: log entry 95] -/
def State.ldtDatagram (s : State) (port : Nat) (frame u : List Byte) (ecn : Nat) : State :=
  let dst := unBe (slice u 2 2)
  if !s.ldtOn then s.bump fLDT_QUIESCE_DROP
  else if dst = 0xFFFF then s.frameInput { coreFrame (portEp port) frame with mask := 2 ^ 12, ldt := true }
  else if 4096 ≤ dst then (s.portBump port fHPORT_TAG_FAIL fPLINK_TAG_FAIL).bump fLDT_TAG_FAIL
  else if !s.assocLive dst then s.bump fLDT_NO_ASSOC
  else
    let e := s.ax dst
    let phase := (u.getD 0 0).toNat / 8 % 2 = 1
    let isNext := phase ≠ e.curPhase
    let half := if isNext then (if (s.assoc dst).rxNextArmed then (s.akey dst).next else {}) else (s.akey dst).cur
    let body := u.drop 12
    let ct := body.take (body.length - 16)
    let tag := body.drop (body.length - 16)
    let plain := match half.rx with
      | some k => gcmOpen k.key (k.salt ++ slice u 4 8) (u.take 12) ct tag
      | none => none
    match plain with
    | none =>
      ((s.portBump port fHPORT_TAG_FAIL fPLINK_TAG_FAIL).bump fLDT_TAG_FAIL).modAx dst (fun x => { x with tagFail := satAdd 32 x.tagFail 1 })
    | some pt =>
      let s1 :=
        if isNext ∧ !e.rxSwitched then
          let t := s.modAx dst (fun x => { x with rxSwitched := true })
          if e.txSwitched then t
          else (t.modAx dst (fun x => { x with txSwitched := true, rekeyPosted := false })).modAssoc dst
            (fun x => { x with txPhase := !x.txPhase, txPktNum := 0 })
        else s
      if pktMalformed s.maxPayload ((u.getD 0 0).toNat / 16) pt then (s1.countPkt dst (ecn = 3)).malformed dst
      else s1.frameInput (s1.ldtFrame port dst frame u ecn pt)

/-- The ports check the tags of the datagrams that they hold, oldest first (R82).
[DESIGN CHOICE: log entry 77] -/
def State.checkHeld (s : State) : State :=
  s.ldt.holding.foldl (fun t h => t.ldtDatagram h.port h.frame h.body h.ecn) { s with ldt.holding := [] }

/-- The context that an NVMe/TCP frame's connection serves. -/
def State.frameCtx (s : State) (port : Nat) (l : L4) : Option Nat :=
  match s.conns.find? (fun e => e.2.isOpen && e.2.port = port && e.2.remoteIp = l.src && e.2.localIp = l.dst && e.2.remotePort = l.sport) with
  | some e => (s.ctx.ctxs.find? (fun x => x.2.valid && x.2.tcp && x.2.assoc = e.1)).map Prod.fst
  | none => none

/-- An NVMe/TCP frame as it enters the switch, toward the front-end half of its connection's context, in that context's class (R134,
R140).
[DESIGN CHOICE: log entry 121] -/
def State.tcpFrame (s : State) (port : Nat) (frame : List Byte) (l : L4) : SwFrame :=
  let f := coreFrame (portEp port) frame
  match s.frameCtx port l with
  | some c => { f with mask := 2 ^ (12 + c % 2), cls := (s.ctx.ctxs.get {} c).cls }
  | none => { f with mask := 2 ^ 12 }

/-- A frame at a host port: LDT, NVMe/TCP, IEEE 1588, or for the control cores' interface (R62, R67, R134). A port takes frames in Run and
Quiescing; an LDT datagram waits in its holding buffer for its tag, and one that finds the buffer full is dropped (R82). Ports
0x20-0x23 are the members of the peer link, which carry only LDT (R347).
[DESIGN CHOICE: log entry 77] -/
def execHportFrameReceive (port : Nat) (frame : List Byte) (s : State) : Res :=
  .next <|
  if 0x24 ≤ port ∨ !s.working (portPage port) then s
  else match l4Of frame with
    | some l =>
      if l.proto = 17 ∧ l.dport = s.fld fLDT_CTRL_UDP_PORT ∧ s.localAddr port l.dst then
        let u := (l.body.take (unBe (slice l.body 4 2))).drop 8
        if !udpGood l then s.portBump port fHPORT_CSUM_ERR fPLINK_CSUM_ERR
        else if 131072 < s.holdUse (portPage port) + u.length then s.portBump port fHPORT_HOLD_DROP fPLINK_HOLD_DROP
        else { s with ldt.holding := s.ldt.holding ++ [⟨port, frame, u, l.ecn⟩] }
      else if 0x20 ≤ port then s.bump (fPLINK_NOT_LDT (port - 0x20))
      else if l.proto = 6 ∧ l.dport = s.fld fNVTCP_CTRL_PORT ∧ s.localAddr port l.dst then s.frameInput (s.tcpFrame port frame l)
      else if l.proto = 17 ∧ l.dport = 319 then (s.emit (.value s.now)).emit (.frameTo port 2 frame)
      else s.frameInput (coreFrame (portEp port) frame)
    | none =>
      if 0x20 ≤ port then s.bump (fPLINK_NOT_LDT (port - 0x20))
      else if (etherOf frame).map Prod.fst = some 0x88F7 ∧ (((etherOf frame).map Prod.snd).getD []).getD 0 0 &&& 0x08 = 0 then
        (s.emit (.value s.now)).emit (.frameTo port 2 frame)
      else s.frameInput (coreFrame (portEp port) frame)

/-! ### Handshake packets (R77, R80) -/

/-- A received handshake packet is stored whole in the next free slot, or dropped and counted (R77). All 256 slots are used.
[DEDUCED: log entry 11] -/
def execHsRx (port : Nat) (srcIp : List Byte) (srcUdp : Nat) (payload : List Byte) (s : State) : Res :=
  let prod := s.fld fLDT_HS_PROD
  .next <|
  if !s.ldtOn then s.bump fLDT_QUIESCE_DROP
  else if 2048 < payload.length ∨ 256 ≤ s.ldt.hsCount then s.bump fLDT_HS_DROP
  else
    ((({ s with ldt.hsCount := s.ldt.hsCount + 1 } : State).hbmWrite (s.reg64 rLDT_HS_BASE + 2048 * prod) payload).setFld fLDT_HS_PROD ((prod + 1) % 256)).event pgLDT 3
      (le 2 prod ++ le 2 payload.length ++ le 1 port ++ zeros 3 ++ fitBytes 16 srcIp ++ le 2 srcUdp)

/-- HS_SEND: one unencrypted UDP payload from source port 0xC000 (R80).
[DEDUCED: log entry 95] [DESIGN CHOICE: log entry 107, 128] -/
def execHsSend (h : CmdHdr) (port len addr : Nat) (remoteIp : List Byte) (s : State) : Res :=
  .next <| s.simpleCmd h pgLDT 0x0104 (fun s1 =>
    if len < 12 ∨ 2048 < len ∨ 0x20 < port ∨ s1.hbmErr addr len then (s1, 3)
    else
      let own := if port = 0x20 then s1.regBytes16 (rPLINK_IP_ADDR 0) else s1.regBytes16 (rHPORT_IP_ADDR (port / 4) (port % 4) 0)
      (s1.sendDatagram (s1.udpDatagram port 0 [] own remoteIp 0xC000 (s1.hbmRead addr len)), stOk))

/-! ### Acknowledgement at the sender (R84, R87-R90) -/

/-- The acknowledgement of sent packets: those at or before CUM_ACK leave the list, those in SACK are marked, and every packet
still out counts the later ones of its path (R84, R88). -/
def ackSent (l : List Sent) (cum sack : Nat) : List Sent :=
  let acked := fun (e : Sent) => psnLe e.psn cum ||
    (psnSub e.psn (cum + 1) < 128 && sack.testBit (psnSub e.psn (cum + 1)))
  let fresh := l.filter (fun e => acked e && !e.sacked)
  (l.filter (fun e => !psnLe e.psn cum)).map (fun e =>
    if acked e then { e with sacked := true, lost := false }
    else { e with dups := e.dups + (fresh.filter (fun f => f.path = e.path && decide (e.order < f.order))).length })

/-- The strikes of every path that a newly acknowledged packet used are cleared (R90). -/
def ackStrikes (l : List Sent) (cum sack strikes : Nat) : Nat :=
  (l.filter (fun e => !e.sacked && (psnLe e.psn cum ||
    (psnSub e.psn (cum + 1) < 128 && sack.testBit (psnSub e.psn (cum + 1)))))).foldl (fun m e => setStrikes m e.path 0) strikes

/-- An RTT sample (R87).
[DEDUCED: log entry 12] -/
def rttSample (x : Assoc) (has : Bool) (m : Nat) : Assoc :=
  if has then { x with rttvar := min 0xFFFF ((3 * x.rttvar + (if x.srtt ≤ m then m - x.srtt else x.srtt - m)) / 4),
                       srtt := min 0xFFFF ((7 * x.srtt + m) / 8) }
  else { x with srtt := min 0xFFFF m, rttvar := min 0xFFFF (m / 2) }

/-- The local operations whose packets are all acknowledged complete (R99); a READ_REQ completes with its data. -/
def State.completeOps (s : State) (a : Nat) : State :=
  let e := s.ax a
  let open' := fun (id : Nat) => e.txq.any (fun p => p.msgId = id && p.type ≠ 0x14 && p.type ≠ 0x02)
    || e.sent.any (fun x => x.pkt.msgId = id && !x.sacked && x.pkt.type ≠ 0x14 && x.pkt.type ≠ 0x02)
  (e.initOps.filter (fun o => o.2.kind ≠ 0x13 && o.2.lastPsn.isSome && !open' o.1)).foldl
    (fun t o => (t.opEnd ⟨o.2.user, o.2.ref, 0, 0, []⟩).modAx a (fun x => { x with initOps := x.initOps.del o.1 })) s

/-- READ_REQs of the peer whose responses are all acknowledged release their region (R103). -/
def State.releaseReads (s : State) (a : Nat) : State :=
  let e := s.ax a
  let out := fun (id : Nat) => e.txq.any (fun p => p.msgId = id && p.type = 0x14)
    || e.sent.any (fun x => x.pkt.msgId = id && !x.sacked && x.pkt.type = 0x14)
  (e.tgtOps.filter (fun o => o.2.kind = 0x13 && o.2.respMsg && !out o.1)).foldl
    (fun t o => (t.releaseTgt o.2).modAx a (fun x => { x with tgtOps := x.tgtOps.del o.1 })) s

/-- Resend a packet of the retention list on a path, under a new PKT_NUM, with RETX = 1 (R84, R88, R89). -/
def State.resend (s : State) (a : Nat) (e : Sent) (path : Nat) : State :=
  let n := (s.ax a).sends
  let s1 := s.modAx a (fun x => { x with
    sends := n + 1, retx := satAdd 32 x.retx 1,
    sent := x.sent.map (fun f => if f.psn = e.psn then { f with path := path, order := n, lost := false, dups := 0 } else f) })
  s1.ldtSend a path e.psn true e.pkt (s1.payloadOf e.pkt)

/-- The packets declared lost are resent at once, each on the next path after its own (R88); none while PKT_NUM has run out (R81). -/
def State.resendLost (s : State) (a : Nat) : State :=
  ((s.ax a).sent.filter (fun f => f.lost)).foldl (fun t f =>
    if 2 ^ 48 ≤ (t.assoc a).txPktNum then t else t.resend a f (nextPathIn (t.assoc a).pathMask (f.path + 1))) s

/-- An ACK acknowledges PSN `c`, by CUM_ACK or by SACK. -/
def ackCovers (k : AckInfo) (c : Nat) : Bool :=
  psnLe c k.cumAck || (decide (psnSub c (k.cumAck + 1) < 128) && k.sack.testBit (psnSub c (k.cumAck + 1)))

/-- An ACK (R75, R87, R88): counted as received; malformed beyond TX_NEXT; it gives one RTT sample, its ECN counts, acknowledgements
and declared losses, which are resent, and may complete a CLOSE.
[DEDUCED: log entry 95] -/
def execLdtAckReceive (a : Nat) (k : AckInfo) (s0 : State) : Res :=
  let s := s0.countPkt a k.ce
  let x := s.assoc a
  let e := s.ax a
  .next <|
  if !s0.ldtOn then s0.bump fLDT_QUIESCE_DROP
  else if !s0.assocLive a then s0.bump fLDT_NO_ASSOC
  else if psnLe x.txNext k.cumAck then s.malformed a
  else
    let m := psnSub ((s.now / 64) % 2 ^ 32) k.echoTs
    let moves := psnLe x.txUna k.cumAck
    let sent1 := ackSent e.sent k.cumAck k.sack
    let thr := s.fld fLDT_LOSS_CFG_DUP_THRESH
    let lost := sent1.any (fun p => !p.sacked && !p.lost && decide (thr ≤ p.dups))
    let sent2 := sent1.map (fun p => if !p.sacked ∧ thr ≤ p.dups then { p with lost := true } else p)
    let x1 := rttSample { x with strikes := ackStrikes e.sent k.cumAck k.sack x.strikes } e.hasRtt m
    let x2 := if moves then { x1 with txUna := psnMod (k.cumAck + 1), rtoCount := 0 } else x1
    let s1 := (s.setAssoc a x2).setAx a { e with
      hasRtt := true, sent := sent2, sumCe := e.sumCe + k.ceCount, sumRx := e.sumRx + k.rxCount, ackSeen := true,
      rtoShift := if moves then 0 else e.rtoShift }
    let s2 := if lost then (s1.lossCutRate a).resendLost a else s1
    let s3 := (s2.completeOps a).releaseReads a
    match e.closeSent with
    | some c => if ackCovers k c then s3.assocClosed a 0 else s3
    | none => s3

/-- A NAK (R76): the operation completes at the initiator with its code, and its remaining packets are not sent. -/
def execLdtNakReceive (p : LdtPkt) (code info : Nat) (s : State) : Res :=
  .next <| s.sequenced p false (fun t =>
    match (t.ax p.assoc).initOps.find p.msgId with
    | some o =>
      ((t.opEnd ⟨o.user, o.ref, code, info, []⟩).modAx p.assoc (fun e => { e with
        initOps := e.initOps.del p.msgId,
        txq := e.txq.filter (fun q => q.msgId ≠ p.msgId || q.type = 0x14 || q.type = 0x02) }), true)
    | none => (t, true))

/-- A KEEPALIVE (R91): it is acknowledged at once. -/
def execLdtKeepaliveReceive (p : LdtPkt) (s : State) : Res :=
  .next <|
  if !s.ldtOn then s.bump fLDT_QUIESCE_DROP
  else if !s.assocLive p.assoc then s.bump fLDT_NO_ASSOC
  else (s.countRx p).sendAck p.assoc p.path p.txTs

/-- A CLOSE (R79): accepted and acknowledged like any sequenced packet, and taken when RX_CUM reaches it.
[DEDUCED: log entry 95] -/
def execLdtCloseReceive (p : LdtPkt) (s : State) : Res :=
  .next <| s.sequenced { p with ackReq := true } false (fun t =>
    (t.modAx p.assoc (fun e => { e with closeRcvd := some p.psn }), true))

/-- Whether a packet would begin an operation: none with its MSG_ID was accepted before (R469). -/
def State.beginsOp (s : State) (p : LdtPkt) : Bool := (s.tgtOp p).isNone

/-- A WRITE packet (R99, R102). -/
def execLdtWriteReceive (p : LdtPkt) (s : State) : Res :=
  .next <| s.sequenced p (s.beginsOp p) (regionConsumer 0x10 1 p)

/-- A WRITE_NOTIFY packet (R99, R102, R107). -/
def execLdtWriteNotifyReceive (p : LdtPkt) (s : State) : Res :=
  .next <| s.sequenced p (s.beginsOp p) (regionConsumer 0x11 5 p)

/-- The posted descriptors of a receive queue that are not consumed. -/
def State.rqPosted (s : State) (r : Nat) : Nat :=
  ((s.reg (rRGN_RQ_PROD r)).toNat + 2 ^ 32 - (s.reg (rRGN_RQ_CONS r)).toNat) % 2 ^ 32

/-- The consumer of SEND packets (R105): the next posted descriptor is consumed at admission.
[DESIGN CHOICE: log entry 112] -/
def sendConsumer (p : LdtPkt) (s : State) : State × Bool :=
  let r := p.target
  match s.tgtOp p with
  | some o =>
    if opMalformed o p then (s.malformed p.assoc, false)
    else if o.refused then (s.putTgt p { o with lastPsn := if p.last then some p.psn else o.lastPsn }, true)
    else (s.place p o, true)
  | none =>
    let lg := s.fld (fRGN_RQ_CFG_SIZE_LOG2 r)
    let own := s.fld (fRGN_RQ_CFG_ASSOC r)
    let nq := s.fld (fRGN_RQ_CFG_NQ r)
    let cons := (s.reg (rRGN_RQ_CONS r)).toNat
    let d := s.reg64 (rRGN_RQ_BASE r) + 16 * (cons % 2 ^ lg)
    let dlen := s.hbmNat (d + 8) 4
    if !s.runs pgRGN then (s.bump fRGN_NOT_RUN_DROP, false)
    else if 16777216 < p.msgLen then (s.refuseOp p 0x12 0x0030 0, true)
    else if 63 < r ∨ lg = 0 ∨ (own ≠ 0xFFFF ∧ own ≠ p.assoc) then (s.refuseOp p 0x12 0x0020 0, true)
    else if s.rqPosted r = 0 then (s.refuseOp p 0x12 0x0021 0, true)
    else if dlen < p.msgLen then (s.refuseOp p 0x12 0x0013 dlen, true)
    else if !s.nqFree nq then (s.bump fRGN_NQ_FULL_DROP, false)
    else
      let o : TgtOp := { kind := 0x12, target := r, msgLen := p.msgLen, addr := s.hbmNat d 8, imm := s.hbmNat (d + 12) 4,
                         base := s.hbmNat d 8, nq := some nq }
      (((s.setReg (rRGN_RQ_CONS r) (BitVec.ofNat 32 (cons + 1))).reserveNq (some nq)).place p o, true)

/-- A SEND packet (R105). -/
def execLdtSendReceive (p : LdtPkt) (s : State) : Res :=
  .next <| s.sequenced p (s.beginsOp p) (sendConsumer p)

/-- The consumer of READ_REQ packets (R102, R103, R107): admitted, it reads once RX_CUM reaches its predecessor. -/
def readConsumer (p : LdtPkt) (s : State) : State × Bool :=
  match s.tgtOp p with
  | some o => if opMalformed o p then (s.malformed p.assoc, false) else (s, true)
  | none =>
    if !s.runs pgRGN then (s.bump fRGN_NOT_RUN_DROP, false)
    else match s.regionCheck p.assoc p.target p.addr p.msgLen 2 with
      | .nak code info => (s.refuseOp p 0x13 code info, true)
      | .drop => (s.bump fRGN_NQ_FULL_DROP, false)
      | .lost => ((s.regionLost (p.target / 256)).refuseOp p 0x13 0x0011 0, true)
      | .ok base _ =>
        ((s.pinRegion (p.target / 256)).putTgt p
          { kind := 0x13, target := p.target, msgLen := p.msgLen, addr := p.addr, holds := some (p.target / 256),
            base := base, reqPsn := p.psn, lastPsn := some p.psn }, true)

/-- A READ_REQ packet (R107). -/
def execLdtReadReqReceive (p : LdtPkt) (s : State) : Res :=
  .next <| s.sequenced p (s.beginsOp p) (readConsumer p)

/-- A READ_RESP packet (R94, R99): placed in the initiator's buffer; the read completes when all its bytes have arrived. -/
def execLdtReadRespReceive (p : LdtPkt) (s : State) : Res :=
  .next <| s.sequenced p false (fun t =>
    match (t.ax p.assoc).initOps.find p.msgId with
    | some o =>
      if o.kind ≠ 0x13 ∨ o.msgLen ≠ p.msgLen ∨ overlapsGot o.got p.msgOffset p.payload.length p.psn then
        (t.malformed p.assoc, false)
      else
        let nvf := o.user = pgNVF
        let o1 := { o with got := o.got ++ [(p.msgOffset, p.payload.length, p.psn)],
                           data := if nvf then writeCells o.data p.msgOffset p.payload else o.data }
        let t1 := if nvf then t else t.hbmWrite (o.dst + p.msgOffset) p.payload
        if gotBytes o1.got = o1.msgLen then
          ((t1.opEnd ⟨o.user, o.ref, 0, 0, if nvf then tabBytes o1.data 0 o1.msgLen else []⟩).modAx p.assoc (fun e => { e with initOps := e.initOps.del p.msgId }), true)
        else (t1.modAx p.assoc (fun e => { e with initOps := e.initOps.put { kind := 0, msgLen := 0 } p.msgId o1 }), true)
    | none => (t.malformed p.assoc, false))

/-! ### Timers and transmission -/

/-- ACK_DELAY_NS has passed since the first unacknowledged acceptance (R86): the ACK goes on the path of the most recently accepted
packet. -/
def execAckDelayExpiry (a : Nat) (s : State) : Res :=
  .next <| if s.assocLive a ∧ (s.ax a).ackPend ≠ 0 ∧ s.ldtOn then s.sendAck a (s.ax a).lastPath (s.ax a).lastTs else s

/-- LDT sends on a live association, and its timers run (R469). -/
def State.ldtSends (s : State) (a : Nat) : Bool := s.assocLive a && s.ldtOn

/-- The frame of a data packet has left its port: the cells of a Read's command are free, and those of a Write's whose copy at the
peer it carries (R142). -/
def State.frameLeft (s : State) (a : Nat) (p : TxPkt) : State :=
  match (s.ax a).initOps.find p.msgId with
  | some o =>
    if p.type ≠ 0x10 then s
    else if o.user = pgNVF then s.drainCells o.ref (ceilDiv p.len 256)
    else if o.user = pgPEERCTL then
      (match s.peer.writes.find? (fun w => w.1 = o.ref) with
        | some w => if (s.sw.charged.find w.2).isSome then s.drainCells w.2 (ceilDiv p.len 256) else s
        | none => s)
    else s
  | none => s

/-- The next sequenced packet leaves (R84, R88, R92): a packet declared lost first, on the next path after its own; otherwise a new
packet, if the window of 128 has room. -/
def execLdtPacketTransmit (a : Nat) (s : State) : Res :=
  let x := s.assoc a
  let e := s.ax a
  .next <|
  if !s.ldtSends a ∨ 2 ^ 48 ≤ x.txPktNum then s
  else match e.sent.find? (fun f => f.lost) with
    | some f => s.resend a f (nextPathIn x.pathMask (f.path + 1))
    | none => match e.txq with
      | [] => s
      | p :: rest =>
        if psnSub x.txNext x.txUna < 128 then
          let path := nextPathIn x.pathMask e.nextPath
          let psn := x.txNext
          let s1 := (s.setAssoc a { x with txNext := psnMod (psn + 1) }).setAx a { e with
            txq := rest, nextPath := (path + 1) % 16, sends := e.sends + 1,
            sent := e.sent ++ [{ psn := psn, path := path, pkt := p, order := e.sends }],
            closeSent := if p.type = 0x04 then some psn else e.closeSent,
            initOps := if p.last ∧ p.type ≠ 0x14 ∧ p.type ≠ 0x02 ∧ p.type ≠ 0x04 then
                (match e.initOps.find p.msgId with
                  | some o => e.initOps.ins p.msgId { o with lastPsn := some psn }
                  | none => e.initOps)
              else e.initOps }
          (s1.ldtSend a path psn false p (s1.payloadOf p)).frameLeft a p
        else s

/-- A strike on a path (R90): with 3 strikes it leaves the mask for 100 ms, unless it is the last. -/
def State.strike (s : State) (a path : Nat) : State :=
  let x := s.assoc a
  let n := min 3 (strikesOf x.strikes path + 1)
  let s1 := s.setAssoc a { x with strikes := setStrikes x.strikes path n }
  if n = 3 ∧ x.pathMask.testBit path ∧ popCount 16 x.pathMask ≠ 1 then
    ((s1.modAssoc a (fun y => { y with pathMask := clearBit y.pathMask path })).modAx a
      (fun y => { y with removed := y.removed ||| 2 ^ path })).event pgLDT 5 (le 2 a ++ le 1 path)
  else s1

/-- The timer of TX_UNA expires (R89): a strike, the rate cut, and a resend with doubled RTO, or the association fails at
RETX_LIMIT.
[DESIGN CHOICE: log entry 5] -/
def execRtoExpiry (a : Nat) (s : State) : Res :=
  let x := s.assoc a
  let e := s.ax a
  .next <|
  match e.sent.find? (fun f => f.psn = x.txUna) with
  | none => s
  | some f =>
    if !s.ldtSends a then s
    else
      let s1 := ((s.modAssoc a (fun y => { y with rtoCount := y.rtoCount + 1 })).strike a f.path).rtoCutRate a
      if s.fld fLDT_LOSS_CFG_RETX_LIMIT ≤ x.rtoCount + 1 then s1.assocFail a 1
      else
        let s2 := s1.modAx a (fun y => { y with rtoShift := y.rtoShift + 1 })
        s2.resend a f (nextPathIn (s2.assoc a).pathMask (f.path + 1))

/-- 100 ms after its removal a path returns with 0 strikes (R90). -/
def execPathUp (a path : Nat) (s : State) : Res :=
  .next <|
  if s.ldtSends a ∧ (s.ax a).removed.testBit path ∧ path < 16 then
    ((s.modAssoc a (fun x => { x with pathMask := x.pathMask ||| 2 ^ path, strikes := setStrikes x.strikes path 0 })).modAx a
      (fun e => { e with removed := clearBit e.removed path })).event pgLDT 6 (le 2 a ++ le 1 path)
  else s

/-- Nothing has been sent for KA_INTERVAL_MS on an Open association: a KEEPALIVE with ACK_REQ on the next path of the rotation (R69,
R91). A value of 0 disables it. -/
def execKeepaliveIntervalExpiry (a : Nat) (s : State) : Res :=
  .next <|
  if (s.assoc a).state = .isOpen ∧ s.ldtSends a ∧ s.fld fLDT_KA_CFG_KA_INTERVAL_MS ≠ 0 then
    let path := nextPathIn (s.assoc a).pathMask (s.ax a).nextPath
    (s.modAx a (fun e => { e with nextPath := (path + 1) % 16 })).ldtSend a path 0 false { type := 0x03, ackReq := true } []
  else s

/-- No authenticated packet has arrived for KA_TIMEOUT_MS: the association fails (R79, R91). A value of 0 disables it.
[DESIGN CHOICE: log entry 5] -/
def execKaTimeoutExpiry (a : Nat) (s : State) : Res :=
  .next <| if s.ldtSends a ∧ s.fld fLDT_KA_CFG_KA_TIMEOUT_MS ≠ 0 then s.assocFail a 2 else s

/-- The end of a rate interval (R93). An interval without an ACK only starts the next one. -/
def execRcIntervalEnd (a : Nat) (s : State) : Res :=
  let x := s.assoc a
  let e := s.ax a
  let g := s.fld fLDT_RC_CFG_G_SHIFT
  let f := if e.sumRx = 0 ∨ s.fld fLDT_CTRL_ECN_EN = 0 then 0 else 65536 * e.sumCe / e.sumRx
  let endAt := ((s.now + max (x.srtt * 64) (s.fld fLDT_RC_INTERVAL_MIN_INTERVAL_NS)) / 64) % 2 ^ 16
  .next <|
  if !s.ldtSends a then s
  else if !e.ackSeen then s.setAssoc a { x with intervalEnd := endAt }
  else
    let alpha := min 0xFFFF (x.alpha - x.alpha / 2 ^ g + f / 2 ^ g)
    let x1 := { x with alpha := alpha, intervalEnd := endAt }
    let x2 :=
      if 0 < f ∨ x.lossCut then
        (if x.lossCut then { x1 with cleanCount := 0 }
         else { x1 with rateTarget := x.rate, rate := s.boundRate x.port (x.rate - (x.rate * alpha) / 2 ^ 17), cleanCount := 0 })
      else
        let cc := min 15 (x.cleanCount + 1)
        let rt := if s.fld fLDT_RC_CFG_FR_STEPS < cc
          then min (s.lineRate x.port) (x.rateTarget + s.fld fLDT_RC_CFG_R_AI_MBPS) else x.rateTarget
        { x1 with cleanCount := cc, rateTarget := rt, rate := s.boundRate x.port ((x.rate + rt) / 2) }
    (s.setAssoc a { x2 with lossCut := false }).setAx a { e with sumCe := 0, sumRx := 0, ackSeen := false }

/-- 1 ms after both directions have switched the old half is zeroized and the switch has finished (R83). -/
def execKeyPhaseRetire (a : Nat) (s : State) : Res :=
  let e := s.ax a
  .next <|
  if s.ldtSends a ∧ e.txSwitched ∧ e.rxSwitched then
    let k := s.akey a
    { (s.setAx a { e with curPhase := !e.curPhase, txSwitched := false, rxSwitched := false }).modAssoc a
        (fun x => { x with rxNextArmed := false }) with
      sec.assocKeys := s.sec.assocKeys.put {} a { cur := k.next, next := {} } }
  else s

/-! ### Commands (R80, R83) -/

/-- Both directions of a key half are loaded.
[DESIGN CHOICE: log entry 108] -/
def KeyHalf.full (k : KeyHalf) : Bool := k.tx.isSome && k.rx.isSome

/-- ASSOC_OPEN (R79, R80).
[DESIGN CHOICE: log entry 107, 110, 128] -/
def execAssocOpen (h : CmdHdr) (a peerAssoc tx0 rx0 port descr : Nat) (s : State) : Res :=
  .next <| s.simpleCmd h pgLDT 0x0100 (fun t =>
    let e := t.hbmRead descr 64
    if 4096 ≤ a ∨ 0x20 < port ∨ descr % 64 ≠ 0 then (t, 3)
    else if (t.assoc a).state ≠ .free then (t, 1)
    else if !(t.akey a).cur.full then (t, 2)
    else if t.hbmErr descr 64 ∨ !t.localAddr port (slice e 0x10 16) then (t, 3)
    else
      let init := t.fld fLDT_RC_INIT_R_INIT_MBPS
      let r := t.boundRate port (if init = 0 then t.lineRate port else init)
      ((t.setAssoc a {
          state := .isOpen, port := port, peerAssoc := peerAssoc, pathMask := 0xFFFF, txNext := tx0, txUna := tx0,
          rxCum := psnSub rx0 1, rate := r, rateTarget := r, alpha := 0xFFFF,
          intervalEnd := ((t.now + t.fld fLDT_RC_INTERVAL_MIN_INTERVAL_NS) / 64) % 2 ^ 16 }).setAx a { addrEntry := e }, stOk))

/-- ASSOC_CLOSE (R79, R80): Open goes to Closing; the command completes on entry to Free or Failed. -/
def execAssocClose (h : CmdHdr) (a : Nat) (s : State) : Res :=
  .next <| s.command h pgLDT 0x0101 .release (fun _ t =>
    if 4096 ≤ a then (t, .done 3 0)
    else match (t.assoc a).state with
      | .free => (t, .done 3 0)
      | .failed => (t, .done stOk 0)
      | _ => ((t.modAssoc a (fun x => { x with state := .closing })).modAx a
                (fun e => { e with closeCmds := e.closeCmds ++ [h.cseq] }), .running [a]))

/-- A Closing association sends its CLOSE once every operation it initiated has ended (R79): the CLOSE joins the send queue.
[DESIGN CHOICE: log entry 109] -/
def execAssocCloseSend (a : Nat) (s : State) : Res :=
  let e := s.ax a
  .next <|
  if (s.assoc a).state = .closing ∧ e.initOps = [] ∧ e.closeSent = none ∧ !e.txq.any (fun p => p.type = 0x04) then
    s.queueTx a [{ type := 0x04, first := true, last := true, ackReq := true }]
  else s

/-- ASSOC_REKEY (R83). -/
def execAssocRekey (h : CmdHdr) (a : Nat) (armRx txSwitch : Bool) (s : State) : Res :=
  .next <| s.simpleCmd h pgLDT 0x0102 (fun t =>
    let e := t.ax a
    let armed := (t.assoc a).rxNextArmed
    let switchTx := fun (u : State) =>
      (u.modAx a (fun x => { x with txSwitched := true, rekeyPosted := false })).modAssoc a
        (fun x => { x with txPhase := !x.txPhase, txPktNum := 0, rxNextArmed := true })
    if 4096 ≤ a ∨ !t.assocLive a ∨ (!armRx && !txSwitch) then (t, 3)
    else if !armed then
      (if !(t.akey a).next.full then (t, 2)
       else if txSwitch then (switchTx t, stOk)
       else (t.modAssoc a (fun x => { x with rxNextArmed := true }), stOk))
    else if e.txSwitched then (t, 5)
    else if txSwitch then (switchTx t, stOk)
    else (t, 5))

/-- ASSOC_FREE (R79, R80). -/
def execAssocFree (h : CmdHdr) (a : Nat) (s : State) : Res :=
  .next <| s.command h pgLDT 0x0103 .release (fun _ t =>
    if a < 4096 ∧ (t.assoc a).state = .failed then (t.assocToFree a, .done stOk 0) else (t, .done 4 0))

end Sys2Proof.Machine
end

