-- ==== Sys2Proof/Machine/NvfIn.lean ====
section
/-! DEFINITION. How commands reach NVF over LDT: capsules, the context-miss queue, and the hand-off queue (R96, R97, R112-R114,
R129, R130, R471). -/

namespace Sys2Proof.Machine

/-! ### The hand-off queue (R129, R130) -/

def State.swqSize (s : State) : Nat := 2 ^ s.fld fNVF_SWQ_CFG_SIZE_LOG2
def State.swqUsed (s : State) : Nat := psnSub (s.reg rNVF_SWQ_PROD).toNat (s.reg rNVF_SWQ_CONS).toNat

/-- A command goes to the controlling software without passing an admission queue: a Connect, an admin or a Fabrics command.
[DEDUCED: log entry 36] -/
def NvCmd.direct (c : NvCmd) : Bool := c.connect || c.admin || c.opc = 0x7F

/-- A command goes to the controlling software, at once or from its admission queue (R112). -/
def NvCmd.handed (c : NvCmd) : Bool := c.direct || ocSoftware.contains c.opc

/-- The command that a capsule carries. -/
def State.capsuleCmd (s : State) (ctx assoc : Nat) (tcp connect : Bool) (bs : List Byte) : NvCmd :=
  let q := s.qctx ctx
  { ctx := if connect then 0 else ctx, cid := sqeField bs 2 2, assoc := assoc, tcp := tcp, connect := connect,
    tenant := if connect then 0 else q.tenant, cls := if connect then 0 else q.cls, admin := !connect && q.admin,
    sqe := bs.take 64, host := bs.drop 64, arrive := s.now }

/-- Whole capsules in the context-miss queues that carry a command for the hand-off queue. -/
def State.handedWaiting (s : State) : Nat :=
  (s.ctx.missq.flatMap (fun e => e.2.filter (fun m => match m.capsule with
    | some bs => (s.capsuleCmd e.1 m.assoc false false bs).handed
    | none => false))).length

/-- The hand-off queue has no place left for one more command: its entries, and the commands here that will go to it. -/
def State.swqFull (s : State) : Bool :=
  decide (s.swqSize ≤ s.swqUsed + s.handedWaiting + (s.nvf.cmds.filter (fun e => e.2.handed &&
    (e.2.phase = .toSoftware || e.2.phase = .waiting || e.2.phase = .held))).length)

def NvCmd.key (c : NvCmd) : Nat := if c.connect then connectKey c.tcp c.assoc c.cid else cmdKey c.ctx c.cid

/-- The queue of a class, and a command that joins it. -/
def State.classQueue (s : State) (c : Nat) : List Nat := s.nvf.queues.get [] c
def State.setClassQueue (s : State) (c : Nat) (l : List Nat) : State := { s with nvf.queues := s.nvf.queues.put [] c l }

/-- A command has arrived: it takes a submission slot, and goes to the software, to its class's queue, or ends. A second command with
an identifier that is outstanding ends without touching the first. -/
def State.arrive (s : State) (c : NvCmd) : State :=
  let s1 := if c.connect then s else s.setQctx c.ctx { s.qctx c.ctx with inSlots := (s.qctx c.ctx).inSlots + 1 }
  if (s1.nvf.cmds.find c.key).isSome then s1.complete c scConflict 0 0
  else if c.direct then s1.setNvCmd c.key { c with phase := .toSoftware, reason := 1 }
  else if (ocHardware ++ ocSoftware).contains c.opc then
    (s1.setNvCmd c.key c).setClassQueue c.cls (s1.classQueue c.cls ++ [c.key])
  else s1.complete c scOpcode 0 0

/-- Whole capsules in the context-miss queue: they have arrived, and take their slots when the context is here. -/
def State.capsulesWaiting (s : State) (ctx : Nat) : Nat :=
  (((s.ctx.missq.find ctx).getD []).filter (fun m => m.capsule.isSome)).length

/-- The queue already holds as many commands as it has entries (R114).
[DEDUCED: log entry 93] -/
def State.sqOverflow (s : State) (ctx : Nat) : Bool :=
  decide ((s.qctx ctx).size + 1 ≤ (s.qctx ctx).inSlots + s.capsulesWaiting ctx)

/-- Why a whole capsule is dropped unacknowledged: NVF takes no new command (R471), its queue is full (R114), or the hand-off queue is
(R130).
[DEDUCED: log entry 93] -/
def State.capsuleDrop (s : State) (ctx : Nat) (c : NvCmd) : Option State :=
  if !s.runs pgNVF then some (s.bump fNVF_NOT_RUN_DROP)
  else if !c.connect ∧ s.sqOverflow ctx then some (s.bump fNVF_SQ_OVERFLOW)
  else if c.handed ∧ s.swqFull then some ((s.bump fNVF_SWQ_FULL_DROP).irqBit pgNVF 1)
  else none

/-! ### Capsules over LDT (R113) -/

/-- The capsule's bytes once all have come. -/
def TgtOp.whole (o : TgtOp) : Option (List Byte) := if gotBytes o.got = o.msgLen then some (tabBytes o.data 0 o.msgLen) else none

/-- One more packet of a capsule. -/
def TgtOp.capsulePkt (o : TgtOp) (p : LdtPkt) : TgtOp := { o.receive p with data := writeCells o.data p.msgOffset p.payload }

/-- The packet joins the context-miss queue, unless the context's 16 places or the pool's 4,096 are taken (R96, R97), or it completes
a capsule that is dropped.
[DESIGN CHOICE: log entry 128] -/
def State.missPacket (s : State) (p : LdtPkt) (o : TgtOp) (ctx : Nat) : State × Bool :=
  let q := (s.ctx.missq.find ctx).getD []
  let all := s.ctx.missq.foldl (fun n e => n + e.2.length) 0
  let o1 := o.capsulePkt p
  let dropped : Option State := match o1.whole with
    | some bs => if (s.qctx ctx).valid then s.capsuleDrop ctx (s.capsuleCmd ctx p.assoc false false bs) else none
    | none => none
  if 16 ≤ q.length ∨ 4096 ≤ all then (s.bump fCTX_MISS_DROP, false)
  else match dropped with
  | some t => (t, false)
  | none =>
    let s1 := if (s.ctx.missq.find ctx).isNone then s.bump fCTX_MISS_CNT else s
    ({ (s1.putTgt p o1).setFld fCTX_POOL_HIGH_WATER (max (s.fld fCTX_POOL_HIGH_WATER) (all + 1)) with
        ctx.missq := s.ctx.missq.ins ctx (q ++ [⟨p.assoc, p.msgId, p.psn, o1.whole, false⟩]) }, true)

/-- A packet of a capsule whose context is here, or of a Connect. The packet that completes a capsule is not accepted while the
submission queue, or the hand-off queue, is full.
[DEDUCED: log entry 14, 94] -/
def State.capsulePacket (s : State) (p : LdtPkt) (o : TgtOp) (ctx : Nat) (connect : Bool) : State × Bool :=
  let o1 := o.capsulePkt p
  match o1.whole with
  | none => (s.putTgt p o1, true)
  | some bs =>
    let c := s.capsuleCmd ctx p.assoc false connect bs
    if !connect ∧ !(s.qctx ctx).valid then (s.putTgt p o1, true)
    else match s.capsuleDrop ctx c with
      | some t => (t, false)
      | none => ((s.putTgt p o1).arrive c, true)

/-- A packet whose context has to be looked at: it waits for the context, is refused, or is taken.
[DESIGN CHOICE: log entry 128] -/
def State.ctxPacket (s : State) (p : LdtPkt) (o : TgtOp) (first : Bool) : State × Bool :=
  let ctx := p.target % 2 ^ 20
  if !s.ctxResident ctx ∨ (s.ctx.missq.find ctx).isSome then s.missPacket p o ctx
  else
    let q := s.qctx ctx
    if first ∧ (!q.valid ∨ q.assoc ≠ p.assoc ∨ q.tcp) then (s.refuseOp p 0x20 0x0020 0, true)
    else (s.makeResident ctx).capsulePacket p o ctx false

/-- The consumer of CAPSULE packets. A capsule that NVF does not take is counted at its first packet (R471).
[DEDUCED: log entry 14] -/
def capsuleConsumer (p : LdtPkt) (s : State) : State × Bool :=
  match s.tgtOp p with
  | some o =>
    if opMalformed o p then (s.malformed p.assoc, false)
    else if o.refused then (s.putTgt p { o with lastPsn := if p.last then some p.psn else o.lastPsn }, true)
    else if p.target.testBit 31 then s.capsulePacket p o 0 true
    else s.ctxPacket p o false
  | none =>
    let o : TgtOp := { kind := 0x20, target := p.target, msgLen := p.msgLen }
    let half := if p.target.testBit 31 then 0 else p.target % 2
    if 16777216 < p.msgLen then (s.refuseOp p 0x20 0x0030 0, true)
    else if p.msgLen < 64 then
      ((s.bump fNVF_SHORT_CAPSULE).putTgt p { o with refused := true, lastPsn := if p.last then some p.psn else none }, true)
    else if !s.runs pgNVF then (if p.first then s.bump fNVF_NOT_RUN_DROP else s, false)
    else if (s.dom (14 + half)).st = .draining then (s.refuseOp p 0x20 0x0040 (14 + half), true)
    else if p.target.testBit 31 then
      if p.target % 2 ^ 31 ≠ 0 then (s.refuseOp p 0x20 0x0020 0, true) else s.capsulePacket p o 0 true
    else s.ctxPacket p o true

/-- LDT_CAPSULE_RECEIVE: the packets of a CAPSULE from the host. -/
def execLdtCapsuleReceive (p : LdtPkt) (s : State) : Res := .next (s.sequenced p ((s.tgtOp p).isNone) (capsuleConsumer p))

/-! ### CTX_FETCH_DONE (R96, R97) -/

/-- A waiting packet whose operation the context does not belong to: its operation is refused once. -/
def State.refuseWaiting (s : State) (m : MissPkt) : State :=
  match (s.ax m.assoc).tgtOps.find m.msgId with
  | some o =>
    if o.refused then s
    else (s.sendNak m.assoc m.msgId 0x0020 0).modAx m.assoc (fun e => { e with tgtOps := e.tgtOps.ins m.msgId { o with refused := true } })
  | none => if m.capsule.isSome then s.sendNak m.assoc m.msgId 0x0020 0 else s

/-- A waiting packet is processed. A whole capsule had its slot from its arrival on. -/
def State.takeWaiting (ctx : Nat) (s : State) (m : MissPkt) : State :=
  let q := s.qctx ctx
  if m.tcp then s
  else if !q.valid ∨ q.assoc ≠ m.assoc ∨ q.tcp then s.refuseWaiting m
  else match m.capsule with
    | none => s
    | some bs => s.arrive (s.capsuleCmd ctx m.assoc false false bs)

/-- NVF fails the queue of a context that is lost: its commands that are not admitted are forgotten. -/
def State.failQueue (s : State) (ctx : Nat) : State :=
  (s.nvf.cmds.filter (fun e => e.2.ctx = ctx && !e.2.connect
      && (e.2.phase = .waiting || e.2.phase = .held || e.2.phase = .toSoftware || e.2.phase = .software))).foldl
    (fun t e => (t.countEnd e.2 false false).forget e.1) (s.setQctx ctx { deleting := (s.qctx ctx).deleting }) |>.queuePump ctx

/-- The operations of the waiting packets are dropped.
[DEDUCED: log entry 94] -/
def State.dropWaiting (s : State) (l : List MissPkt) : State :=
  l.foldl (fun t m => if m.tcp then t else match (t.ax m.assoc).tgtOps.find m.msgId with
    | some o => t.modAx m.assoc (fun e => { e with tgtOps := e.tgtOps.ins m.msgId { o with refused := true } })
    | none => t) s

def execCtxFetchDone (ctx : Nat) (uncorrectable : Bool) (s : State) : Res :=
  .next (match s.ctx.missq.find ctx with
    | none => s
    | some l =>
      let s1 := { s with ctx.missq := s.ctx.missq.del ctx }
      let a := s.reg64 rCTX_BACK_BASE + 384 * ctx
      if uncorrectable ∨ s.hbmErr a 384 then
        let s2 := if s.hbmErr a 384 then s1.noteErr a 384 else s1
        (((s2.dropWaiting l).bump fCTX_FETCH_ERR).capture pgCTX 0x01 ctx 0).failQueue ctx
      else l.foldl (State.takeWaiting ctx) (s1.makeResident ctx))

/-- The copies of in-capsule data whose commands the software has not completed (R130): address and length. -/
def State.copies (s : State) : List (Nat × Nat) :=
  s.nvf.cmds.filterMap (fun e => if e.2.phase = .software then e.2.copyAt.map (fun a => (a, e.2.host.length)) else none)

/-- A place for a copy of `n` bytes: the free one, or where it would meet another copy the first 64-byte boundary after a copy that
leaves room.
[DESIGN CHOICE: log entry 118] -/
def State.copyPlace (s : State) (n a : Nat) : Nat :=
  let used := s.copies
  let fits := fun (b : Nat) => decide (b + n ≤ hbmEnd) && used.all (fun u => decide (b + n ≤ u.1) || decide (u.1 + u.2 ≤ b))
  ((a :: used.map (fun u => 64 * ceilDiv (u.1 + u.2) 64)).find? fits).getD a

/-- NVME_SOFTWARE_HANDOFF: the command's entry is posted, or waits for a place, with a copy of its in-capsule data in HBM (R129, R130).
The spec does not say where the copy lies: its 64-byte aligned address is free.
[DEDUCED: log entry 36] [DESIGN CHOICE: log entry 118] -/
def execNvmeSoftwareHandoff (cmd : Nat) (s : State) : Res :=
  .next (match s.nvf.cmds.find cmd with
    | some c =>
      if c.phase ≠ .toSoftware then s
      else if s.swqSize ≤ s.swqUsed then s.irqBit pgNVF 1
      else
        let f := s.freeNat
        let at_ := s.copyPlace c.host.length (64 * (1 + f.1 % (hbmEnd / 64 - 512)))
        let r := if c.host.isEmpty then (0, s) else (at_, f.2.hbmWrite at_ c.host)
        let q := (s.reg rNVF_SWQ_PROD).toNat
        let entry := le 4 (if c.connect then 2 ^ 31 else c.ctx) ++ le 2 c.assoc ++ le 2 c.tenant ++ le 4 c.host.length ++ le 4 c.reason
          ++ le 8 r.1 ++ zeros 40 ++ fitBytes 64 c.sqe
        (((r.2.hbmWrite (s.reg64 rNVF_SWQ_BASE + 128 * (q % s.swqSize)) entry).setReg rNVF_SWQ_PROD (BitVec.ofNat 32 (q + 1))).irqBit
          pgNVF 0).setNvCmd cmd { c with phase := .software, copyAt := if c.host.isEmpty then none else some at_ }
    | none => s)

end Sys2Proof.Machine
end

