-- ==== Sys2Proof/Machine/Ten.lean ====
section
/-! DEFINITION. The commands of QOS and the minute tallies of TALLY (R383-R396). -/

namespace Sys2Proof.Machine

/-- QOS_SET (R386, R395): a new burst caps the level at once, and a bucket that was unlimited starts full.
[DEDUCED: log entry 101] -/
def execQosSet (h : CmdHdr) (tenant flags iopsRate iopsBurst bwRate bwBurst : Nat) (s : State) : Res :=
  .next (s.simpleCmd h pgQOS 0x0100 fun t =>
    if 16384 ≤ tenant ∨ (iopsRate ≠ 0 ∧ iopsBurst = 0) ∨ (bwRate ≠ 0 ∧ bwBurst = 0) then (t, 1)
    else
      let l := (t.lim tenant).refilled t.now
      let o : Int := (iopsBurst * 2 ^ 32 : Nat)
      let b : Int := (bwBurst * 1024 * 2 ^ 16 : Nat)
      (t.setLim tenant { l with
        iopsRate := iopsRate, iopsBurst := iopsBurst, bwRate := bwRate, bwBurst := bwBurst, meterNext := flags.testBit 0
        ops := if l.iopsRate = 0 then o else min l.ops o
        bw := if l.bwRate = 0 then b else min l.bw b }, stOk))

/-- QOS_HIST_SNAP (R394, R395): the five blocks are copied and zeroed in one step. -/
def execQosHistSnap (h : CmdHdr) (tenant dst : Nat) (s : State) : Res :=
  .next (s.simpleCmd h pgQOS 0x0101 fun t =>
    let a := t.histAddr tenant 0
    if 16384 ≤ tenant ∨ dst % 4096 ≠ 0 ∨ hbmEnd < dst + 20480 then (t, 1)
    else if t.hbmErr a 20480 then (t.noteErr a 20480, 2)
    else ((t.hbmWrite dst (t.hbmRead a 20480)).hbmWrite a (zeros 20480), stOk))

/-! ### Records (R388-R392) -/

/-- The entry of a tenant. -/
def State.tallyEntry (s : State) (t : Nat) : List Byte :=
  if s.metered t then
    let c := s.tally t
    le 4 c.readOps ++ le 4 c.writeOps ++ le 4 c.otherOps ++ le 4 c.heldOps ++ le 5 c.readBlocks ++ le 5 c.writeBlocks
      ++ le 6 (s.tenE t).physGrains
  else zeros 32

/-- The members of a set: bit i = 1 for a tenant that is counted. -/
def State.tallyMembers (s : State) (k : Nat) : Nat := maskOf ((List.range 64).filter (fun i => s.metered (64 * k + i)))

/-- A record with its sequence and its CRC put in. -/
def sealRecord (tseq : Nat) (bs : List Byte) : List Byte :=
  let r := overwrite (overwrite bs 0 (le 8 tseq)) 0x38 (zeros 4)
  overwrite r 0x38 (le 4 (crc32c 0xFFFFFFFF r))

/-- The record of set `k` for the open minute. -/
def State.tallyRecord (s : State) (k span flags : Nat) : List Byte :=
  let st := s.ten.sets.get {} k
  zeros 8 ++ le 8 s.ten.minute ++ le 8 s.now ++ le 8 s.plat.evt.epoch ++ le 8 s.lmap.commitSeq ++ le 8 (s.tallyMembers k)
    ++ le 2 k ++ le 2 span ++ le 1 (flags ||| 2 * b2n st.start) ++ le 1 s.plat.chip.headId ++ zeros 2 ++ zeros 8
    ++ (List.range 64).flatMap (fun i => s.tallyEntry (64 * k + i))

/-- The set table's entry of a set. -/
def State.setAddr (s : State) (k : Nat) : Nat := s.reg64 rTALLY_SET_BASE + 32 * k
def State.tallyOn (s : State) (k : Nat) : Bool := (s.reg (rTALLY_SET_EN (k / 32))).toNat.testBit (k % 32)

/-- Write one record to a set's ring: an overwrite of an unconsumed one sets LOST, and one OVERRUN is posted for each run. -/
def State.writeRecord (s : State) (k : Nat) (bs : List Byte) : State :=
  let st := s.ten.sets.get {} k
  let q := st.prod + 1
  let a := s.setAddr k
  let cons := s.hbmNat (a + 16) 8
  let overs := decide (10080 < q) && decide (cons < q - 10080)
  let st1 := { st with prod := q, start := false, overrun := overs, lost := if overs then q - 10080 else st.lost, retry := [] }
  if s.hbmErr a 32 then
    (({ s with ten.sets := s.ten.sets.put {} k { st with prod := q, start := false, retry := bs } }.noteErr a 32).capture pgTALLY 0x02 k 0).irqBit
      pgTALLY 2
  else
    let s1 := (s.hbmWrite (s.hbmNat a 8 + 2112 * (q % 10080)) (sealRecord q bs)).hbmWrite (a + 8) (le 8 q)
    let s2 := { s1 with ten.sets := s1.ten.sets.put {} k st1 }
    if overs then
      let s3 := ((s2.hbmWrite (a + 24) (le 8 (q - 10080))).bump fTALLY_OVERRUN).irqBit pgTALLY 1
      if st.overrun then s3 else s3.event pgTALLY 2 (le 2 k ++ le 8 (q - 10080))
    else s2

/-- One enabled set's record, after the one that could not be written before. -/
def State.closeSet (s : State) (span flags k : Nat) : State :=
  let bs := s.tallyRecord k span flags
  let again := (s.ten.sets.get {} k).retry
  let s1 := if again.isEmpty then s else s.writeRecord k again
  s1.writeRecord k bs

/-- The open minute closes into one record of each enabled set; a METER change takes effect. -/
def State.closeMinute (s : State) (span flags : Nat) : State :=
  let on := (List.range 256).filter s.tallyOn
  let s1 := on.foldl (fun t k => t.closeSet span flags k) s
  let lost := (s.ten.limits.filter (fun e => e.2.meter && !s.tallyOn (e.1 / 64))).length
  let s2 := { s1.bump fTALLY_DISCARDED lost with ten.counts := [], ten.minute := s.ten.minute + span }
  let s3 := (s.ten.limits.filter (fun e => e.2.meter ≠ e.2.meterNext)).foldl
    (fun t e => t.setLim e.1 { t.lim e.1 with meter := e.2.meterNext }) s2
  let f := s3.freeNat
  (((f.2.setReg64 rTALLY_LAST_CLOSE s.now).setFld fTALLY_CLOSE_US f.1).irqBit pgTALLY 0).event pgTALLY 1
    (le 8 s.ten.minute ++ le 2 span ++ le 2 on.length)

/-- The minute that holds the timebase. -/
def State.nowMinute (s : State) : Nat := s.now / (60 * 10 ^ 9)

/-- MINUTE_CLOSE (R390).
[DESIGN CHOICE: log entry 33] [DEDUCED: log entry 101] -/
def execMinuteClose (s : State) : Res :=
  .next (if s.runs pgTALLY ∧ s.ten.minute < s.nowMinute then s.closeMinute 1 0 else s)

/-- A positive step carries the timebase into a later minute: one record at once, STEPPED (R391). -/
def State.tallyStep (s : State) : State :=
  if s.runs pgTALLY ∧ s.ten.minute < s.nowMinute then s.closeMinute (s.nowMinute - s.ten.minute) 1 else s

/-- TALLY returns to Run and the open minute has ended: RESUMED (R391). -/
def State.tallyResume (s : State) : State :=
  if s.ten.minute < s.nowMinute then s.closeMinute (s.nowMinute - s.ten.minute) 4 else s

/-- TALLY enters Run: the first time since a power-on start its first minute opens (R390). -/
def State.tallyRun (s : State) : State :=
  if s.ten.opened then s.tallyResume else { s with ten.opened := true, ten.minute := s.nowMinute }

/-- Sets whose SET_EN bit turns to 1 count from now on (R391). -/
def State.tallyEnable (s : State) (w new : Nat) : State :=
  let old := (s.reg (rTALLY_SET_EN w)).toNat
  let on := (bitList 32 (andNot new old)).map (fun b => 32 * w + b)
  { (s.setReg (rTALLY_SET_EN w) (BitVec.ofNat 32 new)) with
    ten.counts := s.ten.counts.filter (fun e => !on.contains (e.1 / 64))
    ten.sets := on.foldl (fun t k => t.upd {} k (fun x => { x with start := true })) s.ten.sets }

end Sys2Proof.Machine
end

