-- ==== Sys2Proof/Machine/NvfAdmit.lean ====
section
/-! DEFINITION. Admission: the checks of a command, its credits, and which command is served next (R111, R118-R122, R126, R127,
R234, R293, R385, R386). -/

namespace Sys2Proof.Machine

/-! ### What a command moves -/

/-- D of R126: data commands and Verify by blocks, Dataset Management by its ranges.
[DEDUCED: log entry 93] -/
def NvCmd.declared (c : NvCmd) : Nat := if c.opc = ocDsm then 16 * c.dsmRanges else c.nlb * c.blk
/-- The command transfers data, and takes data from the host. -/
def NvCmd.moves (c : NvCmd) : Bool := c.isData || c.opc = ocDsm
/-- The bytes that count for the Urgent budget and the round-robin (R120). -/
def NvCmd.shareBytes (c : NvCmd) : Nat := if c.isData || c.opc = ocDsm then c.declared else 4096
/-- The bytes that QOS charges (R385). -/
def NvCmd.tokenBytes (c : NvCmd) : Nat := if c.isData || c.opc = ocVerify then c.declared else 0

/-- The data lies in the capsule: by an offset descriptor over LDT, and beside the Transport descriptor over NVMe/TCP (R111). -/
def NvCmd.inCapsule (c : NvCmd) : Bool := if c.tcp then c.sglType = 0x5A && !c.host.isEmpty else c.sglType = 0x01

/-- The blocks that a command names lie in the volume. -/
def NvCmd.inRange (c : NvCmd) (size : Nat) : Bool := c.opc = ocFlush || c.opc = ocDsm || decide (c.slba + c.nlb ≤ size)

/-! ### The checks before admission (R111, R126, R127) -/

/-- The namespace of a command: its status where it may not be used, and whether its entry could not be read. -/
def State.nsCheck (s : State) (c : NvCmd) : State × Option Nat :=
  let n := c.nsid
  if n = 0 ∨ 65536 < n then (s, some scNamespace)
  else if (s.ns n).bad then (s, some scInternal)
  else if s.hbmErr (s.nsAddr n) 16 then
    ({ (s.noteErr (s.nsAddr n) 16).capture pgNVF 0x01 n 0 with nvf.ns := s.nvf.ns.put {} n { s.ns n with bad := true } }, some scInternal)
  else
    let e := s.ns n
    let v := s.vol e.vol
    if !e.attached ∨ e.tenant ≠ c.tenant ∨ v.kind = 0 ∨ v.deleting.isSome then (s, some scNamespace)
    else if s.volBad e.vol then (s.volBadNote e.vol, some scInternal)
    else if e.ana = 2 then (s, some scAnaInacc)
    else if e.ana = 3 then (s, some scAnaLoss)
    else (s, none)

/-- The descriptor and lengths of a command that transfers data; the mismatches that LEN_MISMATCH counts are marked. Over NVMe/TCP the
data PDUs give the transfer length, not the descriptor (R126).
[DEDUCED: log entry 93] -/
def State.lengthCheck (s : State) (c : NvCmd) : Option (Nat × Bool) :=
  let d := c.declared
  let limit := if c.tcp then 8192 else s.fld fNVF_CFG_ICD_MAX
  if c.inCapsule then
    if c.tcp ∧ c.opc = ocRead then some (scField, false)
    else if !c.tcp ∧ (c.sglAddr ≠ 0 ∨ c.opc = ocRead) then some (scSglType, false)
    else if limit < c.host.length ∨ c.sglLen ≠ c.host.length then some (scSglLen, false)
    else if c.host.length ≠ d then some (scTransfer, true) else none
  else if c.sglType ≠ (if c.tcp then 0x5A else 0x40) then some (scSglType, false)
  else if !c.host.isEmpty then some (scField, false)
  else if !c.tcp ∧ c.sglLen ≠ d then some (scTransfer, true) else none

/-- The checks of a command at the head of its queue, in order: namespace, path, sizes, descriptor, lengths, range, write protection. A
command of a group that this head hands over waits. -/
inductive HeadCheck where
  | pass
  | waits
  | fails (status : Nat) (mismatch : Bool)
  deriving DecidableEq, Repr

/-- [DEDUCED: log entry 93, 113] -/
def State.headCheck (s : State) (c : NvCmd) : State × HeadCheck :=
  if ocSoftware.contains c.opc then (s, .pass)
  else match s.nsCheck c with
    | (s1, some st) => (s1, .fails st false)
    | (s1, none) =>
      let e := s1.ns c.nsid
      let v := s1.vol e.vol
      let c1 := { c with format := e.format }
      if e.ana = 4 then
        (s1, match s1.peer.handover with
          | some (_, g, _) => if s1.homeGroup c.tenant = g then .waits else .fails scAnaTrans false
          | none => .fails scAnaTrans false)
      else if s1.arrayMode ∧ s1.sec.tamp.zeroized ∧ c.opc ≠ ocFlush then (s1, .fails scInternal false)
      else if (c.isData ∨ c.opc = ocVerify) ∧ 2 ^ 21 < c1.declared then (s1, .fails scField false)
      else if !e.format ∧ c.prinfo ≠ 0 ∧ c.opc ≠ ocFlush ∧ c.opc ≠ ocDsm then (s1, .fails scField false)
      else if c.moves then
        match s1.lengthCheck c1 with
        | some (st, m) => (s1, .fails st m)
        | none =>
          if !c.inRange v.size then (s1, .fails scLba false)
          else if c.writes ∧ (e.wprot ∨ v.readOnly) then (s1, .fails scWrProt false) else (s1, .pass)
      else if !c.host.isEmpty then (s1, .fails scField false)
      else if !c.inRange v.size then (s1, .fails scLba false)
      else if c.writes ∧ (e.wprot ∨ v.readOnly) then (s1, .fails scWrProt false) else (s1, .pass)

/-! ### Credits (R118, R142, R234, R293) -/

/-- Staging units, overlap entries, switch cells and grains that a command needs. -/
def NvCmd.needStage (c : NvCmd) : Nat :=
  if c.opc = ocWrite ∨ c.opc = ocCompare then c.nlb else if c.opc = ocDsm then 1 else 0
def NvCmd.needOvl (c : NvCmd) : Nat :=
  if c.opc = ocWrite ∨ c.opc = ocWriteZeroes then 1 else if c.opc = ocDsm then c.dsmRanges else 0
def NvCmd.needCells (c : NvCmd) : Nat := if c.isData then ceilDiv c.declared 256 else if c.opc = ocDsm then 16 else 0
def State.needGrains (s : State) (c : NvCmd) : Nat := if c.opc = ocWrite then (if s.arrayMode then 9 else 8) * c.nlb else 0

/-- No space for the grains of a Write: the tenant's limit, or the array's free grains (R234).
[DEDUCED: log entry 99] -/
def State.noCapacity (s : State) (c : NvCmd) : Bool :=
  let n := s.needGrains c
  let t := s.tenE c.tenant
  n ≠ 0 && ((t.capGrains ≠ 0 && decide (t.capGrains < t.physGrains + t.rsvGrains + n))
    || decide (s.freeGrains < s.lmap.tens.foldl (fun k e => k + e.2.rsvGrains) 0 + n))

/-- A group is Urgent: writes need reclaim credit (R293). -/
def State.paced (s : State) (c : NvCmd) : Bool :=
  s.needGrains c ≠ 0 && s.back.groups.any (fun e => e.2.exists_ && e.2.level = 2) && decide (s.back.credit < s.needGrains c)

/-- Staging, overlap and switch credit are all there. -/
def State.hasCredit (s : State) (c : NvCmd) : Bool :=
  decide (c.needStage ≤ s.stageFree) && decide (s.ovlUsed + c.needOvl ≤ 131072) && s.switchCredit c.cls c.needCells

/-- A head whose free units fall below two runs asks its peer for as many as it lacks (R352).
[DESIGN CHOICE: log entry 140] -/
def State.askRuns (s : State) : State :=
  if 1024 ≤ s.stageFree then { s with peer.runReq := false }
  else if s.peerState = psPaired ∧ !s.peer.runReq then
    ({ s with peer.runReq := true }.sendMsg 3 (le 2 (ceilDiv (1024 - s.stageFree) 512))).1
  else s

/-- The command is counted once among those that waited for credit. -/
def State.countWait (s : State) (key : Nat) (c : NvCmd) : State :=
  if c.credWait then s else (s.bump fNVF_CREDIT_WAIT).setNvCmd key { c with credWait := true }

/-- The command leaves its admission queue. -/
def State.dequeue (s : State) (key : Nat) : State :=
  { s with
    nvf.queues := (s.nvf.queues.map (fun (q : Nat × List Nat) => (q.1, q.2.filter (· ≠ key)))).filter (fun q => !q.2.isEmpty)
    nvf.waitWrite := if s.nvf.waitWrite = some key then none else s.nvf.waitWrite }

/-- The bytes that R148 hashes for a command's lane. -/
def NvCmd.laneBytes (c : NvCmd) : List Byte := if c.tcp then le 2 c.assoc else le 2 c.assoc ++ le 4 c.ctx

/-- The command takes its credits and its ware lane, and is admitted. -/
def State.admitCmd (s : State) (key : Nat) (c : NvCmd) : State :=
  let own := c.apply.isSome
  let e := s.ns c.nsid
  let v := if own then c.vol else e.vol
  let x := s.vol v
  let g := s.needGrains c
  let c1 : NvCmd := { c with
    phase := .admitted, vol := v, format := if own then c.format else e.format, epoch := x.epoch, order := s.nvf.order + 1,
    lane := if s.arrayMode then s.wareLane c.laneBytes else some 0
    stage := c.needStage, stageAt := s.takeStage c.needStage, ovl := c.needOvl, rsv := g
    ranges := if own then c.ranges else if c.opc = ocDsm then [(0, x.size)] else if c.opc = ocFlush then [] else [(c.slba, c.nlb)]
    wantP := c.writes && s.mirroring
    medium := c.writes && (if own then s.dpReason.isSome || s.nvf.ns.any (fun n => n.2.attached && n.2.vol = v && n.2.dpEff ≠ 0) else e.dpEff ≠ 0 || (c.fua && e.fuaMedium && c.opc = ocWrite))
    blocksLeft := if c.opc = ocWrite then c.nlb else 0 }
  let s1 := (s.dequeue key).chargeCells key c.cls c.needCells
  let s2 := if g = 0 then s1 else (s1.modTen c.tenant (fun t => { t with rsvGrains := t.rsvGrains + g })).commitTables
  let r := if c1.writes then s2.slipAdmit c1 else (s2, c1)
  let window := if c.admin then r.1.nvf.window else (s.now, c.cls = 0, c.shareBytes) ::
    r.1.nvf.window.filter (fun w => decide (s.now < w.1 + 1000 * s.fld fNVF_URG_CFG_WINDOW_US))
  { (r.1.setNvCmd key r.2) with
      nvf.order := s.nvf.order + 1, nvf.window := window
      back.credit := if s.back.groups.any (fun b => b.2.exists_ && b.2.level = 2) then r.1.back.credit - g else r.1.back.credit }.askRuns

/-- What an attempt to take a head came to. -/
inductive Tried where
  /-- it left its queue without being admitted -/
  | gone
  | admitted
  | stays
  deriving DecidableEq, Repr

/-- The tokens of a command are taken once (R385); without them it goes to the hold list. -/
def State.takeTokens (s : State) (key : Nat) (c : NvCmd) : State × Bool :=
  if c.paid ∨ c.apply.isSome then (s, true)
  else
    let r := s.qosPass c.tenant c.tokenBytes
    if r.2 then (r.1.setNvCmd key { c with paid := true }, true)
    else
      let s1 := (r.1.dequeue key).setNvCmd key { c with phase := .held }
      let s2 := ({ s1 with nvf.held := s1.nvf.held ++ [key] }.bump fQOS_HELD).modTally c.tenant (fun t => { t with heldOps := t.heldOps + 1 })
      (s2.setLim c.tenant (s2.lim c.tenant), false)

/-- A Write, Compare or Dataset Management command that lacks credit becomes the waiting write (R121). -/
def State.becomeWaiting (s : State) (key : Nat) (c : NvCmd) : State :=
  let s1 := s.countWait key c
  if c.opc = ocWrite ∨ c.opc = ocCompare ∨ c.opc = ocDsm then { s1 with nvf.waitWrite := some key }.askRuns else s1

/-- The head of a queue, once its tokens are taken. -/
def State.tryCredits (s : State) (key : Nat) : State × Tried :=
  let c := s.nvCmd key
  let v := if c.apply.isSome then c.vol else (s.ns c.nsid).vol
  if ocSoftware.contains c.opc then ((s.dequeue key).setNvCmd key { c with phase := .toSoftware, reason := 2 }, .gone)
  else if c.writes ∧ c.apply.isNone ∧ s.slipFenced v then ((s.dequeue key).endCmd key scInternal, .gone)
  else if c.writes ∧ c.apply.isNone ∧ (s.rep v).hold then (s, .stays)
  else if c.needStage ≠ 0 ∧ s.nvf.waitWrite.isSome ∧ s.nvf.waitWrite ≠ some key then (s, .stays)
  else if s.paced c then
    ((if c.paced then s else s.bump fPUG_HOST_WAIT).becomeWaiting key { c with paced := true }, .stays)
  else if !s.hasCredit c then (s.becomeWaiting key c, .stays)
  else (s.admitCmd key c, .admitted)

/-- Try to take the head `key`.
[DEDUCED: log entry 37] -/
def State.tryAdmit (s : State) (key : Nat) : State × Tried :=
  let c := s.nvCmd key
  let r := if c.apply.isSome then (s, HeadCheck.pass) else s.headCheck c
  match r.2 with
  | .waits => (r.1, .stays)
  | .fails st m =>
    let s1 := if m then r.1.bump fNVF_LEN_MISMATCH else r.1
    ((s1.dequeue key).endCmd key st, .gone)
  | .pass =>
    let s1 := r.1
    let c1 := { c with format := if c.apply.isSome then c.format else (s1.ns c.nsid).format }
    if c.opc = ocWrite ∧ s1.noCapacity c1 then ((s1.dequeue key).endCmd key scCapacity, .gone)
    else
      let t := (s1.setNvCmd key c1).takeTokens key c1
      if t.2 then t.1.tryCredits key else (t.1, .gone)

/-! ### Which command is next (R120, R121) -/

/-- Urgent has reached its budget of the bytes admitted in the window.
[DEDUCED: log entry 37] -/
def State.urgentOver (s : State) : Bool :=
  let p := s.fld fNVF_URG_CFG_BUDGET_PCT
  let w := s.nvf.window.filter (fun e => decide (s.now < e.1 + 1000 * s.fld fNVF_URG_CFG_WINDOW_US))
  let u := w.foldl (fun n e => if e.2.1 then n + e.2.2 else n) 0
  let a := w.foldl (fun n e => n + e.2.2) 0
  p ≠ 0 && decide (0 < u) && decide (p * a ≤ 100 * u)

/-- The weight of class 1-4. -/
def State.classWeight (s : State) (c : Nat) : Nat := getBits (s.reg rNVF_WEIGHT).toNat (8 * c - 1) (8 * c - 8)

/-- The bytes that a queued command will count for: its namespace gives the block size. -/
def State.shareOf (s : State) (k : Nat) : Nat :=
  let c := s.nvCmd k
  ({ c with format := if c.apply.isSome then c.format else (s.ns c.nsid).format } : NvCmd).shareBytes

/-- Try a class's heads until one is admitted or stays. -/
def State.tryClass : Nat → State → Nat → State × Bool
  | 0, s, _ => (s, false)
  | f + 1, s, c =>
    match s.classQueue c with
    | [] => (s, false)
    | k :: _ =>
      let r := s.tryAdmit k
      match r.2 with
      | .admitted => (r.1, true)
      | .stays => (r.1, false)
      | .gone => State.tryClass f r.1 c

/-- Deficit round-robin over the weighted classes: the class whose turn it is serves its head when its deficit covers it; else its
quantum is added and the turn passes. `left` counts the classes still to be found without a command ready.
[DEDUCED: log entry 37] -/
def State.drrAdmit : Nat → State → Nat → State × Bool
  | 0, s, _ => (s, false)
  | f + 1, s, left =>
    if left = 0 then (s, false)
    else
      let c := s.nvf.turn
      let next := c % 4 + 1
      match s.classQueue c with
      | [] => State.drrAdmit f { s with nvf.deficit := s.nvf.deficit.put 0 c 0, nvf.turn := next } (left - 1)
      | k :: _ =>
        let d := s.nvf.deficit.get 0 c
        let n := s.shareOf k
        if d < n then
          State.drrAdmit f { s with nvf.deficit := s.nvf.deficit.put 0 c (d + 4096 * s.classWeight c), nvf.turn := next } 4
        else
          let r := s.tryAdmit k
          match r.2 with
          | .admitted => ({ r.1 with nvf.deficit := r.1.nvf.deficit.put 0 c (d - n) }, true)
          | .gone => State.drrAdmit f r.1 left
          | .stays => State.drrAdmit f { r.1 with nvf.turn := next } (left - 1)

/-- Commands waiting in the admission queues. -/
def State.queued (s : State) : Nat := s.nvf.queues.foldl (fun n q => n + q.2.length) 0

/-- Admitted bytes are charged to the deficit of their class. -/
def State.chargeDeficit (s : State) (c n : Nat) : State :=
  { s with nvf.deficit := s.nvf.deficit.put 0 c (s.nvf.deficit.get 0 c - n) }

/-- The waiting write first, then Urgent within its budget, then the weighted classes, then Urgent. A waiting write was its class's
choice, and counts in the round-robin when it is admitted. -/
def State.admitNext (s : State) : State :=
  let f := s.queued + 1
  let w := match s.nvf.waitWrite with
    | some k =>
      let r := s.tryAdmit k
      if r.2 = Tried.admitted then (r.1.chargeDeficit (s.nvCmd k).cls (s.shareOf k), true) else (r.1, false)
    | none => (s, false)
  if w.2 then w.1
  else
    let overs := w.1.urgentOver
    let u := if overs then (w.1, false) else w.1.tryClass f 0
    if u.2 then u.1
    else
      let d := State.drrAdmit (8192 * f) u.1 4
      if d.2 ∨ !overs then d.1 else (d.1.tryClass f 0).1

/-- NVME_ADMIT. NVF admits in Run only (R471), and not once a restart has begun (R439). -/
def execNvmeAdmit (s : State) : Res :=
  .next (if s.runs pgNVF ∧ !s.plat.chip.admissionStopped then s.admitNext else s)

/-- HELD_COMMAND_RELEASE (R386). -/
def execHeldCommandRelease (tenant : Nat) (s : State) : Res :=
  .next (if s.limBad tenant ∨ ((s.lim tenant).refilled s.now).open_ then
      let back := s.nvf.held.filter (fun k => (s.nvCmd k).tenant = tenant)
      let s1 := { s with nvf.held := s.nvf.held.filter (fun k => (s.nvCmd k).tenant ≠ tenant) }
      let s2 := back.reverse.foldl (fun t k =>
        let c := t.nvCmd k
        (t.setNvCmd k { c with phase := .waiting }).setClassQueue c.cls (k :: t.classQueue c.cls)) s1
      s2.setLim tenant ((s2.lim tenant).refilled s2.now)
    else s)

end Sys2Proof.Machine
end

