-- ==== Sys2Proof/Machine/Nvf.lean ====
section
/-! DEFINITION. The I/O commands that NVF executes, the durability point, and NVF's own commands (R12-R17, R112, R115, R123-R131). -/

namespace Sys2Proof.Machine

/-! ### Pulling data (R115, R116) -/

/-- A command that is admitted and has this opcode. -/
def State.admittedCmd (s : State) (key opc : Nat) : Option NvCmd :=
  match s.nvf.cmds.find key with
  | some c => if c.phase = .admitted ∧ c.opc = opc then some c else none
  | none => none

/-- The transfer of a command's data is asked for: one READ_REQ of the whole, or over NVMe/TCP one Ready-to-Transfer. -/
def State.pullData (s : State) (key : Nat) (c : NvCmd) : State :=
  let s1 := s.setNvCmd key { c with xfer := 1, host := [] }
  if c.tcp then
    let x := s1.conn c.assoc
    let tag := x.nextTag % 2 ^ 16
    (s1.setConn c.assoc { x with nextTag := tag + 1, xfers := x.xfers ++ [(c.cid, tag, c.declared, 0)] }).tcpSend c.assoc
      (x.pdu 9 0 (le 2 c.cid ++ le 2 tag ++ le 4 0 ++ le 4 c.declared ++ zeros 4) [])
  else s1.startOp c.assoc { type := 0x13, target := c.sglKey, addr := c.sglAddr, msgLen := c.declared, cls := c.cls } none [] pgNVF key 0

/-- The data of a command: asked for, on its way, here, or refused. -/
def State.fetchData (s : State) (key : Nat) (c : NvCmd) : State × Option (List Byte) :=
  if c.xfer = 0 then
    if c.inCapsule then (s.setNvCmd key { c with xfer := 2 }, some c.host) else (s.pullData key c, none)
  else if c.xfer = 1 then
    if c.tcp then (if c.host.length = c.declared then (s.setNvCmd key { c with xfer := 2 }, some c.host) else (s, none))
    else match s.opEnded pgNVF key with
      | none => (s, none)
      | some e =>
        let s1 := s.takeEnd pgNVF key
        if e.status = 0 then (s1.setNvCmd key { c with xfer := 2, host := e.data }, some e.data)
        else ((s1.bump fNVF_XFER_FAIL).failCmd key scTransfer, none)
  else (s, none)

/-! ### Block tags at ingest and egress (R17) -/

/-- Block `i` of host data: its 4,096 bytes and, at LBAF1, its 16 tag bytes. -/
def NvCmd.blockData (c : NvCmd) (host : List Byte) (i : Nat) : List Byte := slice host (c.blk * i) 4096
def NvCmd.blockPi (c : NvCmd) (host : List Byte) (i : Nat) : List Byte := slice host (c.blk * i + 4096) 16
/-- The application tag of a block: the host's at LBAF1. -/
def NvCmd.blockApp (c : NvCmd) (host : List Byte) (i : Nat) : Nat := if c.format then unBe (slice (c.blockPi host i) 8 2) else 0

/-- Two application tags differ under the command's mask. -/
def NvCmd.appDiffers (c : NvCmd) (app : Nat) : Bool := (app ^^^ c.lbat) &&& c.lbatm ≠ 0

/-- The checks that a command asks for on a host-supplied tag; an application tag of 0xFFFF switches them off.
[DEDUCED: log entry 28, 93] -/
def NvCmd.piFault (c : NvCmd) (host : List Byte) (i : Nat) : Option Nat :=
  let pi := c.blockPi host i
  let app := unBe (slice pi 8 2)
  if !c.format ∨ (app = 0xFFFF ∧ c.apply.isNone) then none
  else if c.cdw12.testBit 28 ∧ unBe (pi.take 8) ≠ guard64 (c.blockData host i) then some scGuard
  else if c.cdw12.testBit 27 ∧ c.appDiffers app then some scAppTag
  else if c.cdw12.testBit 26 ∧ unBe (slice pi 10 6) ≠ (c.slba + i) % 2 ^ 48 then some scRefTag
  else none

/-- The first block whose tag fails. -/
def NvCmd.ingestFault (c : NvCmd) (host : List Byte) : Option Nat := (List.range c.nlb).findSome? (c.piFault host)

/-! ### NVME_WRITE -/

/-- A block of a write starts on its lane, or in shelf mode on its way to a row. -/
def State.startUnit (key : Nat) (c : NvCmd) (host : List Byte) (quad : Nat) (s : State) (i : Nat) : State :=
  let v := s.vol c.vol
  let u := s.ware.nextUnit
  let app := c.blockApp host i
  let w : WareUnit := { cmd := key, lba := c.slba + i, quad := quad, data := c.blockData host i, app := app, dom := v.domain,
                        tenant := v.tenant, keySlot := v.keySlot }
  let s1 := { s with ware.nextUnit := u + 1 }
  if s.arrayMode then (s1.setWareUnit u w).fpStarts quad
  else
    let n := s.shelfNext s.shelfFuel s.lmap.shelfCids
    let cid := 16 + n % cidCount
    (({ s1 with lmap.shelfCids := n + 1 }.setWareUnit u { w with phase := .place, cid := cid }).modNvCmd key (fun x =>
      { x with changes := x.changes ++ [(c.slba + i, cid, app)], blocksLeft := x.blocksLeft - 1 })).placeWare u

/-- The ware lane of a command: the one chosen at admission, while its endpoint takes copies (R145, R148). -/
def State.openLane (s : State) (c : NvCmd) : Option Nat := c.lane.filter (fun q => !s.arrayMode || s.epTakes (14 + q))

/-- The blocks of a write with their tags. -/
def NvCmd.tagged (c : NvCmd) (host : List Byte) : List (List Byte × List Byte) :=
  (List.range c.nlb).map (fun i =>
    (c.blockData host i, blockTag (guard64 (c.blockData host i)) (c.blockApp host i) ((c.slba + i) % 2 ^ 48)))

/-- The local copy of a Write: to its ware lane and Saggar memory. Without its ware lane it is Not delivered (R145). -/
def State.localCopy (s : State) (key : Nat) (c : NvCmd) (host : List Byte) : State :=
  match s.openLane c with
  | none => s.notDelivered key 0
  | some q => (List.range c.nlb).foldl (State.startUnit key c host q) ((s.modNvCmd key (fun x => x.setResult 0 true)).stageWrite c (c.tagged host))

/-- The peer's copy: through a member of the peer link that is up, or Not delivered (R145). -/
def State.peerCopy (s : State) (key : Nat) (c : NvCmd) (blocks : List (List Byte × List Byte)) : State :=
  if !c.wantP ∨ c.resP.isSome then s
  else if (s.servingMember 0).isSome then s.mirrorData key blocks else s.notDelivered key 1

/-- The slipcast copy: SLIP takes it, or it is Not delivered (R145). -/
def State.slipCopy (s : State) (key : Nat) (c : NvCmd) (data : List Byte) : State :=
  if !c.wantS ∨ c.resS.isSome then s
  else if s.epTakes 18 then s.slipRecords key data else s.notDelivered key 2

/-- The data of a Write is multicast (write step 4): to its ware lane and Saggar memory here, to the peer, and to SLIP. Its cells are
released, but for those that the peer's copy still needs (R142).
[DEDUCED: log entry 93] -/
def State.distribute (s : State) (key : Nat) (c : NvCmd) (host : List Byte) : State :=
  let bs := c.tagged host
  let s1 := (s.setNvCmd key { c with host := host, xfer := 3 }).localCopy key c host
  let s2 := (s1.peerCopy key c bs).slipCopy key c (bs.flatMap (fun e => e.1 ++ e.2))
  if s2.mirrored key then s2.releaseCells key else s2

/-- [DESIGN CHOICE: log entry 6] -/
def execNvmeWrite (cmd : Nat) (s : State) : Res :=
  .next (match s.admittedCmd cmd ocWrite with
    | some c => match s.fetchData cmd c with
      | (s1, some host) => match c.ingestFault host with
        | some st => s1.failCmd cmd st
        | none => s1.distribute cmd (s1.nvCmd cmd) host
      | (s1, none) => s1
    | none => s)

/-! ### Reads of stored blocks (read steps 2-7) -/

/-- An overlapping write-type command admitted earlier has neither completed nor failed (R16, R122).
[DEDUCED: log entry 43] -/
def State.readWaits (s : State) (c : NvCmd) : Bool :=
  s.nvf.cmds.any (fun e => e.2.vol = c.vol && decide (e.2.order < c.order) && e.2.writes && e.2.phase = .admitted
    && rangesMeet e.2.ranges c.ranges)

/-- The data of a write that has completed and whose entries are not committed yet: the last one in admission order. -/
def State.endedData (s : State) (v lba : Nat) : Option WareUnit :=
  (s.nvf.cmds.filter (fun e => e.2.phase = .ended && !e.2.committed && e.2.vol = v && rangesMeet e.2.ranges [(lba, 1)])).foldl
    (fun r e => match (s.ware.units.find? (fun u => u.2.cmd = e.1 && u.2.lba = lba)) with
      | some u => some u.2
      | none => r) none

/-- A map or content page that a read of a block needs and that no frame holds.
[DEDUCED: log entry 48] -/
def State.readAbsent (s : State) (v lba : Nat) : Option Nat :=
  match s.absentPage v lba with
  | some m => some m
  | none =>
    let cid := (s.lookup v lba).a
    let m := contentMpa cid
    if s.arrayMode ∧ 16 ≤ cid ∧ !s.resident m ∧ (s.back.pageLoc.find m).isSome then some m else none

/-- The read of one block starts: from Saggar memory, by what its entry says, or from flash. -/
def State.readBlock (key : Nat) (c : NvCmd) (quad : Nat) (s : State) (i : Nat) : State :=
  let lba := c.slba + i
  let e := s.lookup c.vol lba
  let r : ReadUnit := { cmd := key, idx := i, lba := lba, cid := e.a, app := e.b, quad := quad }
  let put := fun (r : ReadUnit) => { s with ware.nextRead := s.ware.nextRead + 1, ware.reads := s.ware.reads.ins s.ware.nextRead r }
  match s.endedData c.vol lba with
  | some w => put { r with phase := .done, data := w.data, app := w.app }
  | none =>
    if e.a = 0 then put { r with phase := .done, data := zeros 4096, ffPi := true }
    else if e.a = 1 then put { r with phase := .done, data := zeros 4096 }
    else if e.a < 16 ∨ e.poisoned ∨ e.indet ∨ (s.arrayMode ∧ ((s.cont e.a).poisoned ∨ (s.cont e.a).indet)) then
      put { r with phase := .failed scUnrecovered }
    else s.startRead r

/-- The reads of a command's blocks start once no earlier write is open and every page is here. Without a ware lane the command ends
with Internal Error. -/
def State.startBlocks (s : State) (key : Nat) (c : NvCmd) : State :=
  if s.readWaits c then s
  else match (List.range c.nlb).findSome? (fun i => s.readAbsent c.vol (c.slba + i)) with
    | some m => s.wantPage m
    | none =>
      match s.openLane c with
      | none => s.finishCmd key scInternal
      | some q => (List.range c.nlb).foldl (State.readBlock key c q) (s.setNvCmd key { c with xfer := 3 })

/-- The blocks of a command in order, once every one has ended. -/
def insertRead (r : ReadUnit) : List ReadUnit → List ReadUnit
  | [] => [r]
  | a :: l => if r.idx ≤ a.idx then r :: a :: l else a :: insertRead r l
def State.readsOf (s : State) (key : Nat) : List ReadUnit :=
  (s.ware.reads.filter (fun e => e.2.cmd = key)).foldr (fun e l => insertRead e.2 l) []
def ReadUnit.ended (r : ReadUnit) : Bool := match r.phase with
  | .done => true
  | .failed _ => true
  | _ => false
def ReadUnit.fault (r : ReadUnit) : Option Nat := match r.phase with
  | .failed st => some st
  | _ => none

/-- A block of data with its logical-block tag, as it leaves the read path. -/
def ReadUnit.tagged (r : ReadUnit) : List Byte := r.data ++ blockTag (guard64 r.data) r.app (r.lba % 2 ^ 48)

/-- The checks at egress (R17): the logical-block tag against the block as it arrives there, and the application tag check that a command
asks for. `arrived` holds the blocks that arrive altered, data and tag, by their index.
[DEDUCED: log entry 28, 125] -/
def NvCmd.egressFault (arrived : List (Nat × List Byte)) (c : NvCmd) (r : ReadUnit) : Option Nat :=
  match r.fault with
  | some st => some st
  | none =>
    let b := ((arrived.find? (fun a => a.1 = r.idx)).map Prod.snd).getD r.tagged
    let n := b.length - 16
    if unBe (slice b n 8) ≠ guard64 (b.take n) then some scGuard
    else if unBe (slice b (n + 8) 2) ≠ r.app then some scAppTag
    else if unBe (slice b (n + 10) 6) ≠ r.lba % 2 ^ 48 then some scRefTag
    else if c.format ∧ c.cdw12.testBit 27 ∧ !r.ffPi ∧ r.app ≠ 0xFFFF ∧ c.appDiffers r.app then some scAppTag else none

/-- The bytes of a block as the host receives them (R220).
[DEDUCED: log entry 93] -/
def NvCmd.egress (c : NvCmd) (r : ReadUnit) : List Byte :=
  if !c.format then r.data else if r.ffPi then r.data ++ List.replicate 16 0xFF else r.tagged

/-- A command whose blocks are all read: the status of the first block that fails, or its blocks. -/
inductive ReadEnd where
  | open_
  | fails (status : Nat)
  | ok (blocks : List ReadUnit)
  deriving DecidableEq, Repr

def State.readEnd (s : State) (key : Nat) (c : NvCmd) (arrived : List (Nat × List Byte) := []) : ReadEnd :=
  let rs := s.readsOf key
  if rs.any (fun r => !r.ended) then .open_
  else match rs.findSome? (c.egressFault arrived) with
    | some st => .fails st
    | none => .ok rs

/-- A command has ended with success and its completion is omitted: its slot is free all the same (R116). -/
def State.finishOmitted (s : State) (key : Nat) (c : NvCmd) : State :=
  (((s.dropCqe c).countEnd c true true).forget key).afterEnd c.vol

/-- The cells of a Read whose data joins a connection's stream stay charged until it has left (R142). -/
def State.streamCells (s : State) (key conn n : Nat) : State :=
  match s.sw.charged.find key with
  | none => s
  | some e =>
    let k := 2 ^ 46 + s.nvf.order * 2 ^ 20 + conn
    let x := s.conn conn
    ((s.chargeCells k e.1 e.2).releaseCells key).modConn conn
      (fun y => { y with cells := y.cells ++ [(k, psnMod (x.sndUna + x.unacked.length + n))] })

/-- The data of a Read goes to its host. Over NVMe/TCP the completion follows in the stream, or is omitted with the SUCCESS flag of the
last data PDU when C2H_SUCCESS allows it and SQ flow control is disabled (R116). -/
def State.sendData (s : State) (key : Nat) (c : NvCmd) (data : List Byte) : State :=
  if c.tcp then
    let omit_ := s.fld fNVTCP_CTRL_C2H_SUCCESS = 1 && c.noFlow (s.qctx c.ctx)
    let pdu := (s.conn c.assoc).pdu 7 (4 + 8 * b2n omit_) (le 2 c.cid ++ zeros 2 ++ le 4 0 ++ le 4 data.length ++ zeros 4) data
    let s1 := (s.streamCells key c.assoc pdu.length).tcpSend c.assoc pdu
    if omit_ then s1.finishOmitted key c else s1.finishCmd key scOk
  else (s.setNvCmd key { c with xfer := 4 }).startOp c.assoc
    { type := 0x10, target := c.sglKey, addr := c.sglAddr, msgLen := data.length, cls := c.cls } none data pgNVF key 0

def execNvmeRead (run : ReadRun) (s : State) : Res :=
  .next (match s.admittedCmd run.cmd ocRead with
    | some c =>
      if c.xfer = 0 then s.startBlocks run.cmd c
      else if c.xfer = 3 then
        match s.readEnd run.cmd c run.arrived with
        | .open_ => s
        | .fails st => s.finishCmd run.cmd st
        | .ok rs => s.sendData run.cmd c (rs.flatMap c.egress)
      else match s.opEnded pgNVF run.cmd with
        | none => s
        | some e =>
          let s1 := s.takeEnd pgNVF run.cmd
          if e.status = 0 then s1.finishCmd run.cmd scOk else (s1.bump fNVF_XFER_FAIL).finishCmd run.cmd scTransfer
    | none => s)

/-- NVME_VERIFY: as a Read, without the transfer. -/
def execNvmeVerify (cmd : Nat) (s : State) : Res :=
  .next (match s.admittedCmd cmd ocVerify with
    | some c =>
      if c.xfer = 0 then s.startBlocks cmd c
      else match s.readEnd cmd c with
        | .open_ => s
        | .fails st => s.finishCmd cmd st
        | .ok _ => s.finishCmd cmd scOk
    | none => s)

/-- NVME_COMPARE: the host data, then the stored blocks, then the comparison. -/
def execNvmeCompare (cmd : Nat) (s : State) : Res :=
  .next (match s.admittedCmd cmd ocCompare with
    | some c =>
      if c.xfer < 2 then
        match s.fetchData cmd c with
        | (s1, some host) => match c.ingestFault host with
          | some st => s1.finishCmd cmd st
          | none => s1.startBlocks cmd { c with host := host, xfer := 2 }
        | (s1, none) => s1
      else if c.xfer = 2 then s.startBlocks cmd c
      else match s.readEnd cmd c with
        | .open_ => s
        | .fails st => s.finishCmd cmd st
        | .ok rs => s.finishCmd cmd (if rs.all (fun r => r.data = c.blockData c.host r.idx) then scOk else scCompare)
    | none => s)

/-! ### Commands without blocks of data -/

/-- NVME_FLUSH: nothing is cached. -/
def execNvmeFlush (cmd : Nat) (s : State) : Res :=
  .next (if (s.admittedCmd cmd ocFlush).isSome then s.finishCmd cmd scOk else s)

/-- A command whose changes are known waits for its durability point; its records go to SLIP. -/
def State.changesKnown (s : State) (key : Nat) (c : NvCmd) : State :=
  (s.setNvCmd key ({ c with xfer := 3 }.setResult 0 true)).slipCopy key c []

/-- NVME_WRITE_ZEROES (R125). -/
def execNvmeWriteZeroes (cmd : Nat) (s : State) : Res :=
  .next (match s.admittedCmd cmd ocWriteZeroes with
    | some c => if c.xfer = 0 then s.changesKnown cmd c else s
    | none => s)

/-- The ranges of a Dataset Management command; those of length 0 are skipped. -/
def dsmParse (n : Nat) (host : List Byte) : List (Nat × Nat) :=
  ((List.range n).map (fun i => (sqeField host (16 * i + 8) 8, sqeField host (16 * i + 4) 4))).filter (fun g => g.2 ≠ 0)

/-- NVME_DATASET_MANAGEMENT (R125). -/
def execNvmeDatasetManagement (cmd : Nat) (s : State) : Res :=
  .next (match s.admittedCmd cmd ocDsm with
    | some c =>
      if !c.dealloc then s.finishCmd cmd scOk
      else match s.fetchData cmd c with
        | (s1, some host) =>
          let rs := dsmParse c.dsmRanges host
          if rs.any (fun g => decide ((s1.vol c.vol).size < g.1 + g.2)) then s1.failCmd cmd scLba
          else
            let c1 := { c with host := host, ranges := rs, xfer := 3 }
            let s2 := (s1.setNvCmd cmd c1).slipRanges cmd
            (s2.changesKnown cmd (s2.nvCmd cmd)).releaseCells cmd
        | (s1, none) => s1
    | none => s)

/-! ### WRITE_DURABLE (R12-R14, R123, R124) -/

/-- The local copy failed: WRITE_LOCAL_FAIL, and the command fails with Internal Error. -/
def State.localFail (s : State) (key : Nat) (c : NvCmd) : State :=
  ((s.irqBit pgNVF 3).event pgNVF 2 (le 4 c.nsid ++ le 4 c.ctx ++ le 2 c.cid)).failCmd key scInternal

/-- The peer's copy was not delivered: the command completes at Medium. -/
def State.turnMedium (s : State) (key : Nat) : State :=
  let c := s.nvCmd key
  if c.wantP ∧ c.resP = some false ∧ !c.medium then
    let s1 := s.setNvCmd key { c with medium := true }
    if c.committed then s1.deltaPage else s1
  else s

/-- The durability point of a command is reached: its commit unit exists, and at Mirrored its data and its records are acknowledged at
the peer (R351), at Medium the commit and every unit are on flash (R12, R355).
[DEDUCED: log entry 29] -/
def State.durable (s : State) (key : Nat) (c : NvCmd) : Bool :=
  c.committed && (if c.medium then s.unitsOnFlash c && s.onFlash c.commitSeq else s.mirrored key)

/-- A write-type command goes as far as it can.
[DEDUCED: log entry 29] -/
def State.writeOn (s : State) (key : Nat) : State :=
  let c0 := s.nvCmd key
  let s1 := s.pollMirror.pollSlipFail
  let s2 := if c0.wantS then s1.slipPoll c0.vol else s1
  let c := s2.nvCmd key
  if c.resL = some false then s2.localFail key c
  else if c.resL.isNone ∨ (c.wantS ∧ c.resS.isNone) then s2
  else if c.wantS ∧ c.resS = some false ∧ !(s2.rep c.vol).degrade then (s2.bump fSLIP_SYNC_FAIL).failCmd key scInternal
  else
    let s3 := (s2.turnMedium key).tryCommit key
    let c3 := s3.nvCmd key
    if s3.durable key c3 then
      (if c3.opc = ocWrite then (s3.endWrite key scOk).settle.handoverPump else s3.finishCmd key scOk)
    else s3

/-- WRITE_DURABLE: after a power failure a command that has not committed never completes (R312). -/
def execWriteDurable (cmd : Nat) (s : State) : Res :=
  .next (match s.nvf.cmds.find cmd with
    | some c => if c.phase = .admitted ∧ c.writes ∧ c.xfer = 3 ∧ (c.committed ∨ !s.plat.pwr.powerFail) then s.writeOn cmd else s
    | none => s)

/-! ### Commands of NVF (R131) -/

def nvBadArg : Nat := 1
def nvInUse : Nat := 2
def nvNotPending : Nat := 3
def nvNotQueued : Nat := 4

/-- The Connect that a QUEUE_CREATE answers disabled SQ flow control: it is with the controlling software.
[PRESUMED: log entry 119] -/
def State.connectNoFlow (s : State) (assoc qid : Nat) (tcp : Bool) : Bool :=
  s.nvf.cmds.any (fun e => e.2.connect && e.2.tcp = tcp && e.2.assoc = assoc && sqeField e.2.sqe 42 2 = qid && e.2.catNoFlow)

/-- Two associations, or two connections, face one host: a host is its association, or the remote address of its connections.
[DEDUCED: log entry 35] -/
def State.sameHost (s : State) (tcp : Bool) (a b : Nat) : Bool :=
  a = b || (tcp && (s.conn a).isOpen && (s.conn b).isOpen && (s.conn a).remoteIp = (s.conn b).remoteIp)

/-- QUEUE_CREATE. Only I/O queues count.
[DEDUCED: log entry 35, 94] -/
def execQueueCreate (h : CmdHdr) (ctx assoc tenant qid cls flags cntlid size : Nat) (s : State) : Res :=
  .next (s.simpleCmd h pgNVF 0x0100 fun t =>
    let i := ctx % 2 ^ 20
    let admin := flags.testBit 0
    let tcp := flags.testBit 2
    let others := (t.ctx.ctxs.filter (fun e => e.2.valid && !e.2.admin && e.2.tcp = tcp && t.sameHost tcp e.2.assoc assoc)).length
    if size = 0 ∨ 4095 < size ∨ 4 < cls ∨ (!admin ∧ 256 ≤ others) then (t, nvBadArg)
    else if (t.qctx i).valid ∨ (t.qctx i).deleting.isSome then (t, nvInUse)
    else
      (t.setQctx i { valid := true, assoc := assoc, tenant := tenant, qid := qid, cls := cls, admin := admin, pinned := flags.testBit 1,
                     tcp := tcp, cntlid := cntlid, size := size, noFlow := t.connectNoFlow assoc qid tcp }, stOk))

/-- QUEUE_DELETE: commands that are not admitted end with Command Aborted due to SQ Deletion (R127), and it completes when no admitted
one is left.
[DEDUCED: log entry 94] -/
def execQueueDelete (h : CmdHdr) (ctx : Nat) (s : State) : Res :=
  .next (s.command h pgNVF 0x0101 .release fun _ t =>
    let i := ctx % 2 ^ 20
    let q := t.qctx i
    if !q.valid ∨ q.deleting.isSome then (t, .done nvBadArg 0)
    else
      let t1 := (t.nvf.cmds.filter (fun e => e.2.ctx = i && !e.2.connect && e.2.phase ≠ .admitted && e.2.phase ≠ .ended)).foldl
        (fun u e => u.endCmd e.1 scSqDeleted) t
      if t1.nvf.cmds.any (fun e => e.2.ctx = i && !e.2.connect && e.2.phase = .admitted) then
        (t1.setQctx i { t1.qctx i with deleting := some h.cseq }, .running [i])
      else
        ({ t1.setQctx i {} with ctx.resident := t1.ctx.resident.filter (· ≠ i), ctx.refbits := t1.ctx.refbits.filter (· ≠ i) }, .done stOk 0))

/-- The entry that NS_SET's 16 bytes state; the effective point and the path state are the hardware's. -/
def nsOf (bs : List Byte) : NsEnt :=
  let f := unLe (slice bs 6 1)
  let d := unLe (slice bs 7 1)
  { vol := unLe (slice bs 0 4), tenant := unLe (slice bs 4 2), attached := f.testBit 0, format := f.testBit 1, piEn := f.testBit 2,
    wprot := f.testBit 3, fuaMedium := f.testBit 4, dpCfg := d % 4, ana := getBits d 6 4, anaGrp := unLe (slice bs 8 4) }

/-- The controller lowers the point of an entry that NS_SET writes, and reports it (R13).
[DEDUCED: log entry 50] -/
def State.lowers (s : State) (old new : NsEnt) : Option Nat :=
  let before := if old.attached then old.dpEff else (if new.dpCfg = 0 then 0 else 1)
  if new.attached ∧ before ≠ new.dpEff ∧ new.dpCfg = 0 then s.dpReason.map (fun _ => before) else none

/-- NS_SET: the whole 64-byte sector of the entry is rewritten, which clears an uncorrectable one.
[DEDUCED: log entry 50, 94] -/
def execNsSet (h : CmdHdr) (nsid : Nat) (entry : List Byte) (s : State) : Res :=
  .next (s.simpleCmd h pgNVF 0x0102 fun t =>
    if nsid = 0 ∨ 65536 < nsid then (t, nvBadArg)
    else
      let e := nsOf entry
      let e1 := { e with dpEff := t.effective e }
      let t1 := { t with nvf.ns := t.nvf.ns.put {} nsid e1 }
      let first := (nsid - 1) / 4 * 4 + 1
      let t2 := t1.hbmWrite (t1.nsAddr first) ((List.range 4).flatMap (fun i => (t1.ns (first + i)).bytes))
      match t.lowers (t.ns nsid) e1 with
      | some old => ((t2.irqBit pgNVF 2).event pgNVF 1 (le 4 nsid ++ le 1 old ++ le 1 e1.dpEff ++ le 2 (t.dpReason.getD 3)), stOk)
      | none => (t2, stOk))

/-- The key of a handed-over command. -/
def State.handedKey (ctx cid assoc : Nat) (s : State) : Option Nat :=
  let keys := if ctx.testBit 31 then [connectKey false assoc cid, connectKey true assoc cid] else [cmdKey (ctx % 2 ^ 20) cid]
  keys.find? (fun k => match s.nvf.cmds.find k with
    | some c => c.phase = .software
    | none => false)

/-- COMPLETE: the completion of a handed-over command is sent.
[DEDUCED: log entry 94] -/
def execComplete (h : CmdHdr) (ctx cid status dw0 dw1 assoc : Nat) (s : State) : Res :=
  .next (s.command h pgNVF 0x0103 .release fun _ t =>
    match t.handedKey ctx cid assoc with
    | none => (t, .done nvNotPending 0)
    | some k =>
      let c := t.nvCmd k
      (((t.complete c (status % 2 ^ 15) dw0 dw1).forget k).afterEnd c.vol, .done stOk 0))

/-- ABORT: a command that waits in an admission queue or on the hold list ends. -/
def execAbort (h : CmdHdr) (ctx cid : Nat) (s : State) : Res :=
  .next (s.command h pgNVF 0x0104 .release fun _ t =>
    let k := cmdKey (ctx % 2 ^ 20) cid
    match t.nvf.cmds.find k with
    | some c =>
      if c.phase = .waiting ∨ c.phase = .held then (t.endCmd k scAborted, .done stOk 0) else (t, .done nvNotQueued 0)
    | none => (t, .done nvNotQueued 0))

end Sys2Proof.Machine
end

