-- ==== Sys2Proof/Machine/NvTcp.lean ====
section
/-! DEFINITION. NVMe/TCP: connections, segments and PDUs (R116, R117). -/

namespace Sys2Proof.Machine

/-! ### Closing (R117) -/

/-- The queues of a connection fail: transfers that are open end with Data Transfer Error, commands not admitted are forgotten, and the
connection's slot is free. -/
def State.closeConn (s : State) (c : Nat) : State :=
  let ctxs := (s.ctx.ctxs.filter (fun e => e.2.valid && e.2.tcp && e.2.assoc = c)).map Prod.fst
  let s1 := ctxs.foldl State.failQueue s
  let s2 := (s1.nvf.cmds.filter (fun e => e.2.tcp && e.2.assoc = c && e.2.connect)).foldl (fun t e => t.forget e.1) s1
  let s3 := (s.conn c).cells.foldl (fun t e => t.releaseCells e.1) { s2 with conns := s2.conns.del c }
  (s3.nvf.cmds.filter (fun e => e.2.tcp && e.2.assoc = c && e.2.phase = .admitted && e.2.xfer = 1)).foldl
    (fun t e => (t.bump fNVF_XFER_FAIL).failCmd e.1 scTransfer) s3

/-- A fatal transport error: C2HTermReq with its field status and the header in error, then the connection closes. -/
def State.fatalClose (s : State) (c fes fei : Nat) : State :=
  let x := s.conn c
  let s1 := (s.bump fNVTCP_FATAL_CLOSE).tcpSend c (x.pdu 3 0 (le 2 fes ++ le 4 fei ++ zeros 10) (x.stream.take (min 128 (unLe (slice x.stream 2 1)))))
  (s1.tcpEmit c (s1.conn c).sndNxt 34 []).closeConn c

/-- Error field values of the TCP transport specification. -/
def fesHeader : Nat := 1
def fesSequence : Nat := 2
def fesDigest : Nat := 3
def fesRange : Nat := 4
def fesLimit : Nat := 5
def fesUnsupported : Nat := 6

/-! ### PDUs -/

/-- The common header of the PDU at the front of a stream. -/
structure PduHead where
  type : Nat
  hlen : Nat
  pdo : Nat
  plen : Nat
  deriving DecidableEq, Repr

def pduHead (bs : List Byte) : PduHead := ⟨unLe (bs.take 1), unLe (slice bs 2 1), unLe (slice bs 3 1), unLe (slice bs 4 4)⟩

/-- Digests that a PDU of this type carries on the connection. -/
def Conn.hasHd (x : Conn) (type : Nat) : Bool := x.hdgst && (type = 4 || type = 6)
def Conn.dataOf (x : Conn) (h : PduHead) : List Byte :=
  if h.pdo = 0 then [] else slice x.stream h.pdo (h.plen - h.pdo - (if x.ddgst then 4 else 0))

/-- The PDU at the front is whole. -/
def Conn.whole (x : Conn) : Bool := decide (8 ≤ x.stream.length) && decide ((pduHead x.stream).plen ≤ x.stream.length)

/-- What is wrong with the header at the front, as far as it has come: an unexpected type, an inconsistent length, or a header digest.
With the field status goes the field error information: the offset of the field in error, or the digest that came.
[PRESUMED: log entry 120] -/
def Conn.headFault (x : Conn) : Option (Nat × Nat) :=
  if x.stream.length < 8 then none
  else
    let h := pduHead x.stream
    let head := h.hlen + (if x.hasHd h.type then 4 else 0)
    if !([0, 2, 4, 6].contains h.type) then some (fesHeader, 0)
    else if h.type ≠ 2 ∧ decide (h.type = 0) = x.icDone then some (fesSequence, 0)
    else if h.hlen ≠ (if h.type = 0 then 128 else if h.type = 4 then 72 else 24) then some (fesHeader, 2)
    else if h.type = 0 ∧ h.plen ≠ 128 then some (fesHeader, 4)
    else if h.type = 2 ∧ (h.plen < 24 ∨ 152 < h.plen) then some (fesHeader, 4)
    else if (h.type = 4 ∨ h.type = 6) ∧ (if h.pdo = 0 then h.type = 6 else h.pdo < head) then some (fesHeader, 3)
    else if (h.type = 4 ∨ h.type = 6) ∧
        (if h.pdo = 0 then h.plen ≠ head else h.plen ≤ h.pdo + (if x.ddgst then 4 else 0)) then some (fesHeader, 4)
    else if h.type = 4 ∧ 8192 < (h.plen - h.pdo - (if x.ddgst then 4 else 0)) ∧ h.pdo ≠ 0 then some (fesLimit, 0)
    else if h.type = 6 ∧ 131072 < (h.plen - h.pdo - (if x.ddgst then 4 else 0)) then some (fesLimit, 0)
    else if x.hasHd h.type ∧ h.hlen + 4 ≤ x.stream.length ∧ slice x.stream h.hlen 4 ≠ pduDigest (x.stream.take h.hlen) then some (fesDigest, unLe (slice x.stream h.hlen 4))
    else none

/-- The front of the stream is looked at; a fault is fatal. -/
def State.checkHead (s : State) (c : Nat) : State :=
  match (s.conn c).headFault with
  | some (f, i) => (if f = fesDigest then s.bump fNVTCP_HDGST_ERR else s).fatalClose c f i
  | none => s

/-- A data digest that does not match. -/
def Conn.badData (x : Conn) (h : PduHead) : Bool :=
  x.ddgst && h.pdo ≠ 0 && slice x.stream (h.plen - 4) 4 ≠ pduDigest (x.dataOf h)

/-- The PDU at the front has been taken. -/
def State.takePdu (s : State) (c : Nat) : State :=
  (s.modConn c (fun x => { x with stream := x.stream.drop (pduHead x.stream).plen, stopped := false })).checkHead c

/-- NVTCP stops reading the stream. -/
def State.stopStream (s : State) (c : Nat) : State := s.modConn c (fun x => { x with stopped := true })

/-- The front of an open connection is a whole PDU of this type, and NVTCP works. -/
def State.pduReady (s : State) (c type : Nat) : Bool :=
  s.working pgNVTCP && (s.conn c).isOpen && (s.conn c).whole && (pduHead (s.conn c).stream).type = type && (s.conn c).headFault.isNone

/-! ### Opening and segments (R116) -/

/-- The options of a SYN-ACK (R116): MSS, window scale 7 and SACK-permitted when the SYN brought them, and so timestamps; its window is not
scaled.
[PRESUMED: log entry 120] -/
def State.synOpts (s : State) (x : Conn) : TcpOpts :=
  { mss := some (s.fld fNVTCP_MSS), scale := x.scale.map (fun _ => 7), sackOk := x.sackOk, ts := s.tcpStamp x, win := 65535 }

/-- The flags of a SYN-ACK: with ECE when the SYN asked for ECN (RFC 3168). -/
def Conn.synFlags (x : Conn) : Nat := 3 + 8 * b2n x.ecn

/-- The connection that a SYN opens. -/
def State.synConn (s : State) (port : Nat) (remoteIp localIp : List Byte) (remotePort : Nat) (syn : SynFrom) (iss : Nat) : Conn :=
  { isOpen := true, port := port, remoteIp := remoteIp, localIp := localIp, remotePort := remotePort,
    rcvNxt := psnMod (syn.irs + 1), sndNxt := psnMod (iss + 1), sndUna := psnMod (iss + 1), cutNxt := psnMod (iss + 1),
    cwnd := 10 * s.fld fNVTCP_MSS, ts := syn.tsval, ecn := syn.ecn, sackOk := syn.sackOk, hostMss := syn.mss.getD 536,
    scale := syn.scale.map (min 14), sndWnd := syn.win }

/-- NVTCP_SYN: the first free slot of 4,096; without one, RST. A repeated SYN is answered again. -/
def execNvtcpSyn (port : Nat) (remoteIp localIp : List Byte) (remotePort : Nat) (syn : SynFrom) (iss : Nat) (s : State) : Res :=
  .next (if !s.runs pgNVTCP ∨ !s.localAddr port localIp then s
    else match s.conns.find? (fun e => e.2.isOpen && e.2.port = port && e.2.remoteIp = remoteIp && e.2.localIp = localIp
        && e.2.remotePort = remotePort) with
      | some e => s.emit (.tcpSegment e.1 (psnSub e.2.sndUna 1) e.2.rcvNxt e.2.synFlags (s.synOpts e.2) [])
      | none =>
        let c := Tab.firstGap 0 s.conns
        if 4096 ≤ c then s.emit (.tcpSegment 4096 0 (psnMod (syn.irs + 1)) 6 {} [])
        else
          let x := s.synConn port remoteIp localIp remotePort syn iss
          (s.setConn c x).emit (.tcpSegment c (psnMod iss) x.rcvNxt x.synFlags (s.synOpts x) []))

/-- The congestion window is halved, at most once per round trip. -/
def State.halve (s : State) (c : Nat) : State :=
  s.modConn c (fun x => if psnLe x.cutNxt x.sndUna then
      { x with cwnd := max (s.fld fNVTCP_MSS) (x.cwnd / 2), cutNxt := x.sndNxt, cwr := true } else x)

/-- The oldest bytes go again: up to one segment of them, and none that the host has announced by SACK.
[PRESUMED: log entry 120] -/
def State.tcpResend (s : State) (c : Nat) : State :=
  let x := s.conn c
  let hole := x.sacked.foldl (fun n e => let d := psnSub e.1 x.sndUna; if d = 0 ∨ 2 ^ 31 ≤ d then n else min n d) (psnSub x.sndNxt x.sndUna)
  s.tcpEmit c x.sndUna 2 (x.unacked.take (min (s.tcpMss x) (max 1 hole)))

/-- An acknowledgement: bytes leave, the window grows additively, and an ECN echo halves it. The third in a row that moves nothing while
bytes are out declares a loss, which halves it too and sends the oldest bytes again. The host's window and SACK ranges are noted.
[DESIGN CHOICE: log entry 34] [PRESUMED: log entry 120] -/
def State.tcpAck (s : State) (c ack : Nat) (ece : Bool) (body : SegBody) : State :=
  let x0 := s.conn c
  let x := { x0 with sndWnd := body.win * 2 ^ x0.scale.getD 0, sacked := if x0.sackOk then body.sack else [] }
  let n := psnSub ack x.sndUna
  let out := psnSub x.sndNxt x.sndUna
  let dup := n = 0 && out ≠ 0 && body.payload.isEmpty && x.sndWnd = x0.sndWnd
  let s1 := if n ≠ 0 ∧ n ≤ out then
      let m := s.tcpMss x
      s.setConn c { x with unacked := x.unacked.drop n, sndUna := psnMod ack, expiries := 0, dupAcks := 0,
                           cwnd := x.cwnd + max 1 (m * m / max 1 x.cwnd) }
    else s.setConn c { x with dupAcks := if dup then x.dupAcks + 1 else x.dupAcks }
  let s2 := if dup ∧ x.dupAcks + 1 = 3 then (s1.halve c).tcpResend c else s1
  if ece ∧ x.ecn then s2.halve c else s2

/-- Segments held out of order that are now next join the stream. -/
def drainOoo : Nat → Conn → Conn
  | 0, x => x
  | f + 1, x =>
    match x.ooo.find? (fun e => psnLe e.1 x.rcvNxt) with
    | none => x
    | some e =>
      let skip := psnSub x.rcvNxt e.1
      let new := e.2.drop skip
      drainOoo f { x with ooo := x.ooo.filter (· ≠ e), stream := x.stream ++ new, rcvNxt := psnMod (x.rcvNxt + new.length) }

/-- Insert a segment in sequence order. -/
def insertSeg (e : Nat × List Byte) : List (Nat × List Byte) → List (Nat × List Byte)
  | [] => [e]
  | b :: l => if psnLt e.1 b.1 then e :: b :: l else b :: insertSeg e l

/-- The payload of a segment: in order, held, or dropped. The receive window is 1 MiB.
[DESIGN CHOICE: log entry 34] -/
def State.tcpData (s : State) (c seq : Nat) (payload : List Byte) : State :=
  let x := s.conn c
  let stop := psnSub (psnMod (seq + payload.length)) x.rcvNxt
  if payload.isEmpty ∨ stop = 0 ∨ 2 ^ 20 < x.stream.length + stop then s
  else if psnLe seq x.rcvNxt then
    let new := payload.drop (psnSub x.rcvNxt seq)
    s.setConn c (drainOoo 16 { x with stream := x.stream ++ new, rcvNxt := psnMod (x.rcvNxt + new.length) })
  else if x.ooo.any (fun e => e.1 = seq % 2 ^ 32) then s
  else if 16 ≤ x.ooo.length then s.bump fNVTCP_OOO_DROP
  else s.setConn c { x with ooo := insertSeg (psnMod seq, payload) x.ooo }

/-- The timestamps of a segment: its TSval is echoed from now on, and its TSecr gives a round-trip sample when the segment acknowledges
new bytes. Only a connection whose SYN brought them has them.
[PRESUMED: log entry 120] -/
def State.tcpTimes (s : State) (c ack : Nat) (ts : Option (Nat × Nat)) : State :=
  let x := s.conn c
  match x.ts, ts with
  | some _, some (val, ecr) =>
    let x1 := { x with ts := some val }
    let n := psnSub ack x.sndUna
    s.setConn c (if n ≠ 0 ∧ n ≤ psnSub x.sndNxt x.sndUna then x1.rttSample (psnSub s.tcpClock ecr) else x1)
  | _, _ => s

/-- NVTCP_SEGMENT_RECEIVE. -/
def execNvtcpSegmentReceive (conn seq ack : Nat) (ce cwr ece : Bool) (body : SegBody) (s : State) : Res :=
  .next (if !s.working pgNVTCP ∨ !(s.conn conn).isOpen then s
    else
      let s1 := (s.tcpTimes conn ack body.ts).modConn conn (fun x => { x with ece := x.ecn && (ce || (x.ece && !cwr)) })
      let s2 := (s1.tcpAck conn ack ece body).tcpData conn seq body.payload
      let s3 := if body.payload.isEmpty then s2 else s2.tcpEmit conn (s2.conn conn).sndNxt 2 []
      (State.tcpPump ((s3.conn conn).unacked.length + 1) s3 conn).checkHead conn)

/-- NVTCP_RTO_EXPIRY: the oldest bytes go again; the twelfth expiry closes with RST. -/
def execNvtcpRtoExpiry (conn : Nat) (s : State) : Res :=
  let x := s.conn conn
  .next (if !x.isOpen ∨ x.unacked.isEmpty then s
    else if 12 ≤ x.expiries + 1 then (s.emit (.tcpSegment conn x.sndNxt x.rcvNxt 6 {} [])).closeConn conn
    else
      ((s.setConn conn { x with expiries := x.expiries + 1 }).halve conn).tcpResend conn)

/-! ### The PDUs of a host -/

/-- NVTCP_ICREQ. -/
def execNvtcpIcreq (conn : Nat) (s : State) : Res :=
  .next (if !s.pduReady conn 0 then s
    else
      let x := s.conn conn
      let b := x.stream
      if unLe (slice b 8 2) ≠ 0 then s.fatalClose conn fesUnsupported 8
      else if 31 < unLe (slice b 10 1) then s.fatalClose conn fesHeader 10
      else
        let hd := bitOf (unLe (slice b 11 1)) 0 && s.fld fNVTCP_CTRL_HDGST_EN = 1
        let dd := bitOf (unLe (slice b 11 1)) 1 && s.fld fNVTCP_CTRL_DDGST_EN = 1
        let x1 := { x with hdgst := hd, ddgst := dd, hpda := unLe (slice b 10 1),
                           maxR2t := min (unLe (slice b 12 4) + 1) (s.fld fNVTCP_MAX_XFER_REQ) }
        let s1 := (s.setConn conn x1).tcpSend conn
          (x1.pdu 1 0 (le 2 0 ++ le 1 0 ++ le 1 (b2n hd + 2 * b2n dd) ++ le 4 131072 ++ zeros 112) [])
        (s1.modConn conn (fun y => { y with icDone := true })).takePdu conn)

/-- A command of a connection whose PDU is taken, or a reason to stop reading: NVF does not run, its context is not here, its queue or
the hand-off queue is full. -/
def State.tcpCommand (s : State) (conn : Nat) (bs : List Byte) (bad : Bool) : State :=
  let cx := s.connCtx conn
  let ctx := cx.getD 0
  let c := s.capsuleCmd ctx conn true cx.isNone bs
  if !s.runs pgNVF then s.stopStream conn
  else if cx.isSome ∧ !s.ctxResident ctx then
    let q := (s.ctx.missq.find ctx).getD []
    if q.any (fun m => m.tcp) then s.stopStream conn
    else if 16 ≤ q.length ∨ 4096 ≤ s.ctx.missq.foldl (fun n e => n + e.2.length) 0 then s.stopStream conn
    else
      { (if q.isEmpty then s.bump fCTX_MISS_CNT else s).stopStream conn with
        ctx.missq := s.ctx.missq.ins ctx (q ++ [⟨conn, 0, 0, none, true⟩]) }
  else if cx.isSome ∧ s.sqOverflow ctx then s.stopStream conn
  else if c.handed ∧ s.swqFull then (s.stopStream conn).irqBit pgNVF 1
  else
    let s1 := s.takePdu conn
    let draining := (s.dom (14 + (if cx.isSome then ctx % 2 else 0))).st = .draining
    if bad ∨ draining then
      let s2 := if cx.isNone then s1 else s1.setQctx ctx { s1.qctx ctx with inSlots := (s1.qctx ctx).inSlots + 1 }
      (if bad then s2.bump fNVTCP_DDGST_ERR else s2).complete c (if bad then scTransient else scDraining) 0 0
    else s1.arrive c

/-- NVTCP_CAPSULE_CMD. -/
def execNvtcpCapsuleCmd (conn : Nat) (s : State) : Res :=
  .next (if !s.pduReady conn 4 then s
    else
      let x := s.conn conn
      let h := pduHead x.stream
      s.tcpCommand conn (slice x.stream 8 64 ++ x.dataOf h) (x.badData h))

/-- NVTCP_H2C_DATA: data for a transfer that was asked for, in order. A PDU marked as the last one that leaves the transfer short ends
the command with Data Transfer Error; so does one that goes beyond the declared length, whose excess is discarded up to the last PDU
(R126). -/
def execNvtcpH2cData (conn : Nat) (s : State) : Res :=
  .next (if !s.pduReady conn 6 then s
    else
      let x := s.conn conn
      let h := pduHead x.stream
      let b := x.stream
      let cid := unLe (slice b 8 2)
      let data := x.dataOf h
      match x.xfers.find? (fun t => t.1 = cid && t.2.1 = unLe (slice b 10 2)) with
      | none => s.fatalClose conn fesSequence 10
      | some t =>
        if unLe (slice b 12 4) ≠ t.2.2.2 then s.fatalClose conn fesRange 12
        else if unLe (slice b 16 4) ≠ data.length then s.fatalClose conn fesHeader 16
        else
          let got := t.2.2.2 + data.length
          let rest := x.xfers.filter (· ≠ t)
          let last := (unLe (slice b 1 1)).testBit 2
          let s1 := s.setConn conn { x with xfers := if got = t.2.2.1 ∨ last then rest else (cid, t.2.1, t.2.2.1, got) :: rest }
          let key := cmdKey ((s.connCtx conn).getD 0) cid
          let s2 := match s1.nvf.cmds.find key with
            | some c =>
              if c.tcp ∧ c.xfer = 1 ∧ t.2.2.2 ≤ t.2.2.1 then
                (if x.badData h then (s1.bump fNVTCP_DDGST_ERR).failCmd key scTransient
                 else if (last && decide (got < t.2.2.1)) || decide (t.2.2.1 < got) then (s1.bump fNVF_LEN_MISMATCH).failCmd key scTransfer
                 else s1.setNvCmd key { c with host := c.host ++ data })
              else s1
            | none => s1
          s2.takePdu conn)

/-- NVTCP_H2C_TERM_REQ: the connection ends and its queues fail. -/
def execNvtcpH2cTermReq (conn : Nat) (s : State) : Res :=
  .next (if s.pduReady conn 2 then s.closeConn conn else s)

end Sys2Proof.Machine
end

