-- ==== Sys2Proof/Machine/Slip.lean ====
section
/-! DEFINITION. SLIP: forming and sending ship records, applying them, resynchronising, and the commands (R237-R249). -/

namespace Sys2Proof.Machine

/-! ### The replica entry (R237, R249) -/

/-- The statuses of SLIP's commands. -/
def spBadArg : Nat := 1
def spNotPaired : Nat := 2
def spBusy : Nat := 3
def spState : Nat := 4
def spNotSealed : Nat := 5
def spBroken : Nat := 6

/-! ### The delta walk (R247) -/

/-- The entry of a block in a mould's tree. -/
def State.mouldEnt (s : State) (m lba : Nat) : MapEnt :=
  let x := s.mould m
  if x.size ≤ lba then {} else s.walk lba x.levels x.root

/-- The content of a unit cannot be read. -/
def State.unreadable (s : State) (cid : Nat) : Bool := (s.cont cid).poisoned || (s.cont cid).indet

/-- The KIND of record that a block of the delta gives. -/
def State.deltaKind (s : State) (r : Replica) (lba : Nat) : Option Nat :=
  let e := s.mouldEnt r.nextMould lba
  let same := if r.baseMould = noMould then decide (e.a = 0) else
    let o := s.mouldEnt r.baseMould lba
    decide (o.a = e.a ∧ o.b = e.b)
  if same then none
  else if e.a = 0 then some 3
  else if e.a = 1 then some 2
  else if e.a < 16 ∨ s.unreadable e.a then some 4
  else some 1

/-- The first page of two trees of one depth, on the way to a block, that no frame holds; the same page in both covers an unchanged subtree,
which is not read. -/
def State.pairNeed (s : State) (lba : Nat) : Nat → Nat → Nat → Option Nat
  | 0, _, _ => none
  | k + 1, a, b =>
    if a = b then none
    else if a ≠ 0 ∧ !s.resident a then some a
    else if b ≠ 0 ∧ !s.resident b then some b
    else if k = 0 then none
    else
      let down := fun (m : Nat) => if m = 0 then 0 else ((s.tpage m).ents.get {} (pathIdx (k + 1) (lba / s.leafCap))).a
      s.pairNeed lba k (down a) (down b)

/-- The first page that the walk has to read for `n` blocks from `lba` up (R240). -/
def State.walkNeed (s : State) (r : Replica) (lba n : Nat) : Option Nat :=
  let x := s.mould r.nextMould
  let y := s.mould r.baseMould
  (List.range n).findSome? (fun i =>
    let b := lba + i
    (if r.baseMould = noMould then s.pairNeed b x.levels x.root 0
      else if x.levels = y.levels then s.pairNeed b x.levels x.root y.root
      else s.pairNeed b x.levels x.root 0 <|> s.pairNeed b y.levels y.root 0) <|>
    (if s.deltaKind r b = none then none else s.contNeed (s.mouldEnt r.nextMould b).a))

/-- The first of `n` blocks from `lba` up that the delta holds. -/
def State.deltaFrom (s : State) (r : Replica) : Nat → Nat → Option (Nat × Nat)
  | 0, _ => none
  | n + 1, lba => match s.deltaKind r lba with
    | some k => some (lba, k)
    | none => State.deltaFrom s r n (lba + 1)

/-- How many of the next `n` blocks give records of KIND `k`. -/
def State.runLength (s : State) (r : Replica) (k : Nat) : Nat → Nat → Nat
  | 0, _ => 0
  | n + 1, lba => if s.deltaKind r lba = some k then State.runLength s r k n (lba + 1) + 1 else 0

/-- KIND, first block and blocks of a record. -/
def recKind (bs : List Byte) : Nat := unLe (slice bs 2 1)
def recMould (bs : List Byte) : Bool := (unLe (slice bs 3 1)).testBit 0
def recLba (bs : List Byte) : Nat := unLe (slice bs 16 8)
def recNlb (bs : List Byte) : Nat := unLe (slice bs 24 4)

/-- The first block that no record formed since CURSOR covers. -/
def Replica.walkPos (r : Replica) : Nat :=
  (r.queue ++ r.sent).foldl (fun n e => if recKind e.2.1 < 5 then max n (recLba e.2.1 + recNlb e.2.1) else n)
    (match r.reading with
      | some g => max r.cursor (g.1 + g.2)
      | none => r.cursor)

/-! ### Forming records (R240, R246, R247) -/

/-- A block that a record cannot carry: BLOCK_LOST. -/
def State.blockLost (v : Nat) (s : State) (lba : Nat) : State := (s.irqBit pgSLIP 2).event pgSLIP 8 (le 2 v ++ le 8 lba)

/-- Reads in runs that can and cannot be shipped. -/
def shipRuns : List ReadUnit → List (Bool × List ReadUnit)
  | [] => []
  | r :: l => match shipRuns l with
    | (f, rs) :: t => if f = r.fault.isSome then (f, r :: rs) :: t else (r.fault.isSome, [r]) :: (f, rs) :: t
    | [] => [(r.fault.isSome, [r])]

/-- The 4,112 bytes of a block in a DATA record (R239). -/
def shipBlock (r : ReadUnit) : List Byte := r.data ++ blockTag (guard64 r.data) r.app (r.lba % 2 ^ 48)

/-- The record of one run. -/
def State.shipRun (v : Nat) (s : State) (x : Bool × List ReadUnit) : State :=
  let lba := match x.2 with
    | r :: _ => r.lba
    | [] => 0
  if x.1 then (x.2.foldl (fun t r => State.blockLost v t r.lba) s).newRec v 4 false lba x.2.length 0 []
  else s.newRec v 1 false lba x.2.length 0 (x.2.flatMap shipBlock)

/-- The blocks that were being read are all here: their records are formed. -/
def State.formRead (s : State) (v : Nat) : State :=
  let rs := s.readsOf (shipKey v)
  if rs.any (fun r => !r.ended) then s
  else
    let s1 := { s with ware.reads := s.ware.reads.filter (fun e => e.2.cmd ≠ shipKey v) }
    (shipRuns rs).foldl (State.shipRun v) (s1.modRep v (fun r => { r with reading := none }))

/-- The lane that reads for a replica. -/
def State.shipLane (s : State) (r : Replica) : Option Nat := s.wareLane (le 2 r.assoc)

/-- A block of the delta is read through its entry in the new mould. -/
def State.readDelta (v quad : Nat) (r : Replica) (lba : Nat) (s : State) (i : Nat) : State :=
  let e := s.mouldEnt r.nextMould (lba + i)
  s.startRead { cmd := shipKey v, idx := i, lba := lba + i, cid := e.a, app := e.b, quad := quad }

/-- The next record of the walk: a run of one KIND, or DELTA_END. -/
def State.formDelta (s : State) (v : Nat) : State :=
  let r := s.rep v
  let pos := r.walkPos
  let size := (s.mould r.nextMould).size
  let found := s.deltaFrom r (size - pos) pos
  let upTo := match found with
    | some (lba, k) => lba + s.runLength r k (if k = 1 then 512 else 2 ^ 32 - 1) lba + 1
    | none => size
  match s.walkNeed r pos (min size upTo - pos), found with
  | some m, _ => s.wantPage m
  | none, none => (s.newRec v 5 true 0 0 r.nextMould []).modRep v (fun x => { x with finalSeq := some r.nextSeq })
  | none, some (lba, k) =>
    let n := s.runLength r k (if k = 1 then 512 else 2 ^ 32 - 1) lba
    if k = 1 then
      match s.shipLane r with
      | some q => (List.range n).foldl (State.readDelta v q r lba) (s.setRep v { r with reading := some (lba, n) })
      | none => s
    else
      let bad := ((List.range n).map (lba + ·)).filter (fun a => decide (16 ≤ (s.mouldEnt r.nextMould a).a))
      ((if k = 4 then bad.foldl (State.blockLost v) s else s).newRec v k false lba n 0 [])

/-- The next region of a pass: its bit is cleared and it is read, as a Read of the volume would read it (R16). -/
def State.formRegion (s : State) (v : Nat) : State :=
  let r := s.rep v
  match r.todo with
  | [] => s
  | (lba, n) :: rest =>
    let c : NvCmd := { vol := v, order := s.nvf.order + 1, ranges := [(lba, n)], sqe := zeros 40 ++ le 8 lba ++ zeros 16 }
    if s.readWaits c then s
    else match (List.range n).findSome? (fun i => s.readAbsent v (lba + i)), s.shipLane r with
      | some m, _ => s.wantPage m
      | none, some q =>
        let s1 := (s.bitWrite r.bitmap (lba / 256) false).setRep v { r with
          todo := rest, reading := some (lba, n), backlog := r.backlog.filter (· ≠ lba / 256) }
        (List.range n).foldl (State.readBlock (shipKey v) c q) s1
      | none, none => s

/-- A replica that ships forms what comes next, once all it has formed is sent. -/
def State.formNext (s : State) (v : Nat) : State :=
  let r := s.rep v
  if r.reading.isSome then
    let s1 := s.formRead v
    let r1 := s1.rep v
    -- the last region of the final pass
    if r1.reading.isNone ∧ r1.hold ∧ r1.todo.isEmpty then s1.setRep v { r1 with finalSeq := some (r1.nextSeq - 1) } else s1
  else if r.st = rsShipping ∧ r.finalSeq.isNone then s.formDelta v
  else if r.st = rsResync then s.formRegion v
  else s

/-! ### Sending (R240) -/

/-- A REP_SEQ below `q` is assigned to a command whose record is not formed yet.
[DEDUCED: log entry 42] -/
def State.earlierUnsent (s : State) (v q : Nat) : Bool :=
  let r := s.rep v
  s.nvf.cmds.any (fun e => e.2.vol = v && e.2.apply.isNone && e.2.wantS && e.2.resS.isNone && match e.2.repSeq with
    | some last => (List.range e.2.repCount).any (fun i =>
        let k := last + 1 - e.2.repCount + i
        decide (k < q) && decide (r.applied < k) && !r.sent.any (fun x => x.1 = k))
    | none => false)

/-- The bytes of a landing slot. -/
def slotBytes : Nat := 2162688

/-- The record at the head of the queue goes out, within the target's window. -/
def State.sendHead (s : State) (v : Nat) : State :=
  let r := s.rep v
  match r.queue with
  | [] => s
  | (q, bytes, key) :: rest =>
    if q - r.applied ≤ 2 ^ r.slotsLog2 ∧ !s.earlierUnsent v q then
      let mine := fun (c : NvCmd) => c.vol = v && c.apply.isNone && match c.repSeq with
        | some last => decide (q ≤ last) && decide (last < q + c.repCount)
        | none => false
      let s0 := { s with nvf.cmds := s.nvf.cmds.map (fun (e : Nat × NvCmd) => (e.1, if mine e.2 then { e.2 with shipped := true } else e.2)) }
      let s1 := (s0.setRep v { r with queue := rest, sent := r.sent ++ [(q, bytes, key)], out := r.out ++ [q] }).bump fSLIP_RECORDS_SENT
      (s1.startOp r.assoc { type := 0x11, target := r.land, addr := q % 2 ^ r.slotsLog2 * slotBytes, imm := q, msgLen := bytes.length, cls := 6 }
        none bytes pgSLIP (shipRef v q) 0).slipPoll v
    else s

/-- The replica ships records in its state. -/
def Replica.ships (r : Replica) : Bool := r.role = 1 && (r.st = rsInSync || r.st = rsShipping || r.st = rsResync)

/-- SLIP_RECORD_SEND: the next record of a replica is sent, or formed. -/
def execSlipRecordSend (vol : Nat) (s : State) : Res :=
  let s1 := (s.slipRead vol).slipPoll vol
  .next (if s.working pgSLIP ∧ (s.rep vol).ships then
      if !(s1.rep vol).ships then s1
      else if (s1.rep vol).queue.isEmpty then (s1.formNext vol).sendHead vol else s1.sendHead vol
    else s)

/-! ### The target (R239, R241, R242) -/

/-- What a status write says: APPLIED_SEQ, STATE. -/
def Replica.says (r : Replica) : Nat × Nat := (r.applied, r.st)

/-- The target's status write: one at a time, when what it says has changed.
[DEDUCED: log entry 59] -/
def State.statusPump (s : State) (v : Nat) : State :=
  let s1 := match (s.rep v).statusOut, s.opEnded pgSLIP (statusRef v) with
    | some x, some _ => (s.takeEnd pgSLIP (statusRef v)).modRep v (fun r => { r with statusOut := none, told := x })
    | _, _ => s
  let r := s1.rep v
  if r.role ≠ 2 ∨ r.statusOut.isSome ∨ r.told = r.says then s1
  else
    (s1.setRep v { r with statusOut := some r.says }).startOp r.assoc
      { type := 0x11, target := r.status, addr := 0, imm := r.applied, msgLen := 16, cls := 6 } none
      (le 8 r.applied ++ le 1 r.st ++ le 1 (if r.st = rsBroken then r.reason else 0) ++ zeros 6) pgSLIP (statusRef v) 0

/-- A key for the command that applies a record, and a queue context that no queue has. -/
def applyKey (v seq : Nat) : Nat := 2 ^ 40 + v * 2 ^ 20 + seq % 2 ^ 20
def noCtx : Nat := 2 ^ 40

/-- The command that applies a record (R241): a Write that checks each block's guard and reference tag, Write Zeroes, a deallocation, or
the setting of each entry to CID 2. -/
def State.applyCmd (s : State) (v seq : Nat) (bs : List Byte) : NvCmd :=
  let kind := recKind bs
  let nlb := recNlb bs
  let data := if kind = 1 then slice bs 64 (4112 * nlb) else []
  let dw12 := if kind = 1 then nlb - 1 + 2 ^ 28 + 2 ^ 26 else if kind = 3 then 2 ^ 25 else 0
  { ctx := noCtx, cid := 0, assoc := (s.rep v).assoc, tenant := (s.vol v).tenant, cls := s.fld fSLIP_TGT_CFG_CLASS
    sqe := le 1 (if kind = 1 then ocWrite else ocWriteZeroes) ++ le 1 kind ++ zeros 30 ++ le 4 data.length ++ zeros 3 ++ le 1 1
      ++ le 8 (recLba bs) ++ le 4 dw12 ++ zeros 12
    host := data, arrive := s.now, vol := v, format := kind = 1, ranges := [(recLba bs, nlb)], repSeq := some seq, apply := some v }

/-- A record that no write can be made of. -/
def State.badRecord (s : State) (v : Nat) (bs : List Byte) : Bool :=
  let k := recKind bs
  let n := recNlb bs
  k = 0 || decide (4 < k) || n = 0 || (k = 1 && decide (512 < n)) || decide ((s.vol v).size < recLba bs + n)

/-- The target becomes Broken: what waits for admission goes. -/
def State.targetBroken (s : State) (v reason : Nat) : State :=
  let ks := (s.nvf.cmds.filter (fun e => e.2.apply = some v && e.2.phase = .waiting)).map Prod.fst
  let out := ks.map (fun k => ((s.nvCmd k).repSeq.getD 0))
  let s1 := ks.foldl (fun t k => (t.dequeue k).forget k) s
  (s1.slipBroken v reason).modRep v (fun r => { r with inAir := r.inAir.filter (fun q => !out.contains q) })

/-- Only a source that is InSync sends such a record: a pass ships DATA and LOST records that lie in one region (R246, R248). -/
def onlyInSync (bs : List Byte) : Bool :=
  recKind bs = 2 || recKind bs = 3 || decide (recLba bs / 256 ≠ (recLba bs + recNlb bs - 1) / 256)

/-- A record is admitted: its command joins the queue of SLIP's class. -/
def State.admitRecord (s : State) (v seq : Nat) (bs : List Byte) : State :=
  let c := s.applyCmd v seq bs
  (((s.modRep v (fun r => { r with inAir := r.inAir ++ [seq], kinds := r.kinds ++ [(seq, recKind bs, onlyInSync bs)] })).setNvCmd (applyKey v seq) c)).setClassQueue c.cls
    (s.classQueue c.cls ++ [applyKey v seq])

/-- The target's volume takes records at Medium: its effective durability point (R123, R241). -/
def State.applyMedium (s : State) (v : Nat) : Bool := s.dpReason.isSome || s.nvf.ns.any (fun n => n.2.attached && n.2.vol = v && n.2.dpEff ≠ 0)

/-- The moulding record of a target is applied once its mould is Sealed and its commit unit is at the volume's durability point: APPLIED_SEQ
and DELTA_APPLIED. -/
def State.markDone (s : State) (v : Nat) : State :=
  let r := s.rep v
  match r.making with
  | some (q, kind, m, c) =>
    if (s.mould m).st ≠ 1 ∧ (if s.applyMedium v then s.onFlash c else s.mirrored (applyKey v q)) then
      ((s.setRep v { r with making := none, applied := q, lastKind := kind, wasInSync := false, baseMould := m }).bump
        fSLIP_RECORDS_APPLIED).event pgSLIP 7 (le 2 v ++ le 4 m)
    else s
  | none => s

/-- DELTA_END or MARK, every earlier record being applied: the target moulds, or holds the record until a mould is named. -/
def State.applyMark (s : State) (v seq : Nat) (bs : List Byte) : State × Bool :=
  let r := s.rep v
  let kind := recKind bs
  let rest := r.arrived.filter (fun e => e.1 ≠ seq)
  let done := { r with arrived := rest, applied := seq, lastKind := kind, needed := none, wasInSync := r.wasInSync && !recMould bs }
  if kind = 5 ∧ seq ≠ r.applied + 1 then (s.targetBroken v 3, false)
  else if !recMould bs then ((s.setRep v done).bump fSLIP_RECORDS_APPLIED, true)
  else if r.nextMould = noMould then
    if r.needed = some seq then (s, false)
    else (((s.setRep v { r with needed := some seq }).irqBit pgSLIP 3).event pgSLIP 9 (le 2 v ++ le 8 seq), false)
  else match s.mouldRefused v r.nextMould with
    | some _ => (s.targetBroken v 2, false)
    | none =>
      let s1 := (s.takeMould v r.nextMould []).commit [tableRec 2 r.nextMould, tableRec 0 v] (applyKey v seq)
      let s2 := s1.setRep v { r with
        arrived := rest, needed := none, nextMould := noMould, making := some (seq, kind, r.nextMould, s1.lmap.commitSeq) }
      (((if s2.applyMedium v then s2.deltaPage else s2).markDone v), true)

/-- Records that have arrived go on in REP_SEQ order. -/
def State.applyPump : Nat → State → Nat → State
  | 0, s, _ => s
  | f + 1, s, v =>
    let r := s.rep v
    match r.arrived with
    | [] => s
    | (q, bs) :: rest =>
      if r.st ≠ rsIdle ∨ r.making.isSome then s
      else if q ≤ r.applied then State.applyPump f ((s.setRep v { r with arrived := rest }).bump fSLIP_DUP_DROP) v
      else if 5 ≤ recKind bs then
        if !r.inAir.isEmpty then s
        else
          let m := s.applyMark v q bs
          if m.2 then State.applyPump f m.1 v else m.1
      else if q = (r.inAir.getLast?.getD r.applied) + 1 then
        if s.badRecord v bs then s.targetBroken v 2
        else State.applyPump f ((s.setRep v { r with arrived := rest }).admitRecord v q bs) v
      else if r.inAir.isEmpty then s.targetBroken v 3
      else s

def State.applyAll (s : State) (v : Nat) : State := State.applyPump ((s.rep v).arrived.length + 1) s v

/-- Whether the target volume is consistent (R248). After a MARK, a record that only an InSync source sends tells the target that the source
is InSync again; while none has come, a DATA or LOST record of one region leaves it open.
[DESIGN CHOICE: log entry 33] -/
def State.consistent (s : State) (v : Nat) : State × Nat :=
  let r := s.rep v
  if r.lastKind = 5 then (s, 1)
  else if r.sync ∧ r.lastKind ≠ 0 ∧ r.lastKind < 5 then
    (if r.wasInSync then (s, 1) else (s.freeNat.2, s.freeNat.1 % 2))
  else (s, 0)

/-- SLIP_PROMOTE goes on once every admitted record is applied.
[DEDUCED: log entry 59] -/
def State.promotePump (s : State) (v : Nat) : State :=
  let r := s.rep v
  match r.promote with
  | some q =>
    if !r.inAir.isEmpty ∨ r.making.isSome then s
    else
      let c := s.consistent v
      (c.1.setRep v { r with st := rsPromoted, promote := none, arrived := [] }).finishRunning q c.2 stOk
  | none => s

/-- What a target replica does after a change. -/
def State.targetOn (s : State) (v : Nat) : State := (((s.markDone v).applyAll v).promotePump v).statusPump v

/-- Where the record with a REP_SEQ lands: its address, when the landing region holds it whole. -/
def State.landed (s : State) (v seq : Nat) : Nat := (s.region (s.rep v).land).base + seq % 2 ^ (s.rep v).slotsLog2 * slotBytes

/-- SLIP_RECORD_ARRIVE: a record is discarded as a duplicate, or waits for its turn. -/
def execSlipRecordArrive (vol repSeq : Nat) (s : State) : Res :=
  let r := s.rep vol
  .next (if r.role = 2 ∧ r.st = rsIdle ∧ r.promote.isNone ∧ s.working pgSLIP then
      let s1 := s.slipRead vol
      if (s1.rep vol).st ≠ rsIdle then s1.statusPump vol
      else if repSeq ≤ r.applied then (s1.bump fSLIP_DUP_DROP)
      else
        let a := s.landed vol repSeq
        if s1.hbmErr a 64 then ((s1.noteErr a 64).targetBroken vol 2).statusPump vol
        else
          let hdr := s1.hbmRead a 64
          let n := if recKind hdr = 1 then 4112 * recNlb hdr else 0
          if unLe (hdr.take 2) ≠ 0x534C ∨ unLe (slice hdr 8 8) ≠ repSeq ∨ unLe (slice hdr 4 2) ≠ vol ∨ slotBytes < 64 + n then s1
          else if s1.hbmErr (a + 64) n then ((s1.noteErr (a + 64) n).targetBroken vol 2).statusPump vol
          else (s1.modRep vol (fun x => { x with arrived := x.arrived ++ [(repSeq, s1.hbmRead a (64 + n))] })).targetOn vol
    else s)

/-- APPLIED_SEQ over the records that have completed. -/
def appliedTo : Nat → Nat → List Nat → List (Nat × Bool) → Nat
  | 0, a, _, _ => a
  | f + 1, a, air, overs =>
    if overs.contains (a + 1, true) ∧ !air.contains (a + 1) then appliedTo f (a + 1) air overs else a

/-- SLIP_RECORD_APPLIED: a record's command has ended. -/
def execSlipRecordApplied (vol repSeq : Nat) (s0 : State) : Res :=
  let s := s0.slipRead vol
  let r := s.rep vol
  .next (match r.overs.find? (fun e => e.1 = repSeq) with
    | some e =>
      if r.role = 2 ∧ r.inAir.contains repSeq then
        let air := r.inAir.filter (· ≠ repSeq)
        if r.st = rsBroken then (s.setRep vol { r with inAir := air }).promotePump vol
        else if !e.2 then ((s.setRep vol { r with inAir := air }).targetBroken vol 2).targetOn vol
        else
          let a := appliedTo r.overs.length r.applied air r.overs
          let new := r.kinds.filter (fun x => decide (x.1 ≤ a))
          ((s.setRep vol { r with
              inAir := air, applied := a, overs := r.overs.filter (fun x => decide (a < x.1))
              kinds := r.kinds.filter (fun x => decide (a < x.1))
              lastKind := ((new.find? (fun x => x.1 = a)).map (fun x => x.2.1)).getD r.lastKind
              wasInSync := r.wasInSync || new.any (fun x => x.2.2) }).bump fSLIP_RECORDS_APPLIED).targetOn vol
      else s
    | none => s)

/-! ### The source hears from the target (R243, R244, R246) -/

/-- CLONES of a mould rises or falls by 1; 0xFFFF_FFFF names none. -/
def State.cloneBy (s : State) (m : Nat) (up : Bool) : State :=
  if m = noMould then s
  else
    let x := s.mould m
    (s.setMould m { x with clones := if up then x.clones + 1 else x.clones - 1 }).commit [tableRec 2 m]

/-- SLIP_SHIP ends: its moulds' counts fall, and it completes. -/
def State.shipEnds (s : State) (v status : Nat) : State :=
  let r := s.rep v
  match r.shipCmd with
  | some q => (((s.cloneBy r.baseMould false).cloneBy r.nextMould false).modRep v (fun x => { x with shipCmd := none })).finishRunning q 0 status
  | none => s

/-- The record that ends a delta or a final pass is applied. -/
def State.finalApplied (s : State) (v : Nat) : State :=
  let r := s.rep v
  match r.finalSeq with
  | some f =>
    if r.applied < f then s
    else if r.st = rsShipping then
      let s1 := (s.shipEnds v stOk).modRep v (fun x => { x with st := rsIdle, baseMould := r.nextMould, finalSeq := none })
      s1.event pgSLIP 6 (le 2 v ++ le 4 r.nextMould)
    else if r.st = rsResync ∧ r.hold then
      (s.setRep v { r with st := rsInSync, hold := false, finalSeq := none, wasInSync := true }).event pgSLIP 3 (le 2 v ++ le 8 r.applied)
    else s
  | none => s

/-- Synchronous copies that the target has applied are Delivered. -/
def State.slipDelivered (s : State) (v applied : Nat) : State :=
  { s with nvf.cmds := s.nvf.cmds.map (fun (e : Nat × NvCmd) =>
      (e.1, if e.2.vol = v && e.2.apply.isNone && e.2.wantS && e.2.resS.isNone && (match e.2.repSeq with
        | some q => decide (q ≤ applied)
        | none => false) then { e.2 with resS := some true } else e.2)) }

/-- SLIP_STATUS_RECEIVE. -/
def execSlipStatusReceive (vol applied st reason : Nat) (s : State) : Res :=
  let r := s.rep vol
  .next (if r.role ≠ 1 ∨ !s.working pgSLIP ∨ r.st = rsBroken then s
    else
      let s1 := (s.slipRead vol).slipPoll vol
      if (s1.rep vol).st = rsBroken then s1
      else if st = rsBroken then s1.slipBroken vol reason
      else
        let x := s1.rep vol
        let a := max x.applied applied
        let gone := x.sent.filter (fun e => decide (e.1 ≤ a))
        let cur := if x.st = rsShipping then
            gone.foldl (fun n e => if recKind e.2.1 < 5 then max n (recLba e.2.1 + recNlb e.2.1) else n) x.cursor else x.cursor
        (((s1.setRep vol { x with applied := a, cursor := cur, sent := x.sent.filter (fun e => decide (a < e.1)) }).slipDelivered vol a).finalApplied
          vol))

/-- A synchronous copy of the volume waits for the record `repSeq`. -/
def State.ackAwaited (s : State) (vol repSeq : Nat) : Option (Nat × NvCmd) :=
  if (s.rep vol).role = 1 then s.nvf.cmds.find? (fun e => e.2.vol = vol && e.2.apply.isNone && e.2.wantS && e.2.resS.isNone
    && e.2.xfer = 3 && e.2.repSeq = some repSeq)
  else none

/-- SLIP_ACK_TIMEOUT: the synchronous copy of one write was not applied in time. A record that its target refused first is noticed first
(R109). -/
def execSlipAckTimeout (vol repSeq : Nat) (s : State) : Res :=
  .next (if (s.ackAwaited vol repSeq).isSome then
      let s1 := (s.slipRead vol).slipPoll vol
      match s1.ackAwaited vol repSeq with
      | some (key, c) => s1.slipCopyLost vol key c.ranges repSeq
      | none => s1
    else s)

/-- A Dataset Management command of the volume is admitted and its ranges are not known yet. -/
def State.dsmOpen (s : State) (v : Nat) : Bool :=
  s.nvf.cmds.any (fun e => e.2.vol = v && e.2.phase = .admitted && e.2.apply.isNone && e.2.writes && !e.2.rangesKnown)

/-- SLIP_RESYNC_PASS: a pass over the backlog, or the final one with the admission of writes held. The final one waits until the ranges of
every admitted command are known.
[DEDUCED: log entry 42] -/
def execSlipResyncPass (vol : Nat) (s0 : State) : Res :=
  let s := s0.slipRead vol
  let r := s.rep vol
  .next (if r.role = 1 ∧ r.st = rsResync ∧ r.todo.isEmpty ∧ r.reading.isNone ∧ !r.hold ∧ s.working pgSLIP then
      let final := decide (r.backlog.length ≤ s.fld fSLIP_SYNC_CFG_FINAL_REGIONS) && !s.dsmOpen vol
      let size := (s.vol vol).size
      let todo := (r.backlog.map (fun k => (256 * k, min 256 (size - 256 * k)))).filter (fun g => g.2 ≠ 0)
      (s.setRep vol { r with todo := todo, hold := final,
                             finalSeq := if final ∧ todo.isEmpty then some (r.nextSeq - 1) else none }).finalApplied vol
    else s)

/-! ### Commands (R243, R248, R249) -/

/-- SLIP_PAIR.
[DEDUCED: log entry 59] -/
def execSlipPair (h : CmdHdr) (vol role mode policy slotsLog2 assoc tgtVol land status bitmap : Nat) (s : State) : Res :=
  .next (s.simpleCmd h pgSLIP 0x0100 fun t =>
    if 65536 ≤ vol ∨ (t.vol vol).kind = 0 ∨ (role ≠ 1 ∧ role ≠ 2) ∨ 1 < mode ∨ 1 < policy ∨ slotsLog2 = 0 ∨ 8 < slotsLog2
      ∨ (mode = 1 ∧ policy = 1 ∧ bitmap = 0) then (t, spBadArg)
    else if (t.rep vol).role ≠ 0 then (t, spBusy)
    else
      (t.setRep vol { role := role, sync := mode = 1, degrade := policy = 1, st := if role = 1 ∧ mode = 1 then rsInSync else rsIdle,
                      assoc := assoc, tgtVol := tgtVol, land := land, slotsLog2 := slotsLog2, status := status, nextSeq := 1,
                      bitmap := bitmap, wasInSync := mode = 1 }, stOk))

/-- A mould of a volume that is Sealed. -/
def State.sealedOf (s : State) (v m : Nat) : Bool := (s.mould m).st = 2 && (s.mould m).vol = v

/-- SLIP_SHIP: it completes when DELTA_END is applied. -/
def execSlipShip (h : CmdHdr) (vol base new : Nat) (s : State) : Res :=
  .next (s.command h pgSLIP 0x0101 .work fun _ t0 =>
    let t := t0.slipRead vol
    let r := t.rep vol
    if r.role = 0 then (t, .done spNotPaired 0)
    else if r.role ≠ 1 ∨ r.sync ∨ r.st ≠ rsIdle then (t, .done spState 0)
    else if (base ≠ noMould ∧ !t.sealedOf vol base) ∨ !t.sealedOf vol new then (t, .done spNotSealed 0)
    else
      (((t.cloneBy base true).cloneBy new true).setRep vol { r with
        st := rsShipping, cursor := 0, baseMould := base, nextMould := new, shipCmd := some h.cseq, finalSeq := none }, .running []))

/-- SLIP_RESUME. -/
def execSlipResume (h : CmdHdr) (vol assoc : Nat) (s : State) : Res :=
  .next (s.simpleCmd h pgSLIP 0x0102 fun t0 =>
    let t := (t0.slipRead vol).dropShipReads vol
    let r : Replica := { t.rep vol with assoc := assoc, finalSeq := none, queue := [], sent := [], todo := [], reading := none }
    if r.role = 0 then (t, spNotPaired)
    else if r.role = 1 ∧ r.st = rsPaused then ((t.setRep vol { r with st := rsShipping }).newRec vol 6 false 0 0 0 [], stOk)
    else if r.role = 1 ∧ (r.st = rsDegraded ∨ r.st = rsFenced) then
      ((t.setRep vol { r with st := rsResync }).newRec vol 6 true 0 0 0 [], stOk)
    else (t, spState))

/-- SLIP_SET_MOULD: a record held for want of a mould goes on. -/
def execSlipSetMould (h : CmdHdr) (vol mould : Nat) (s : State) : Res :=
  .next (s.simpleCmd h pgSLIP 0x0103 fun t0 =>
    let t := t0.slipRead vol
    let r := t.rep vol
    if r.role = 0 then (t, spNotPaired)
    else if r.role ≠ 2 then (t, spState)
    else if 1048576 ≤ mould ∧ mould ≠ noMould then (t, spBadArg)
    else ((t.setRep vol { r with nextMould := mould }).targetOn vol, stOk))

/-- The landing region is revoked (R101). -/
def State.revokeLanding (s : State) (v : Nat) : State :=
  let i := (s.rep v).land
  let x := s.region i
  if x.state = .valid then { s.setRegion i { x with state := .revoking } with rgn.revokes := s.rgn.revokes.ins i (0, x.gen) } else s

/-- SLIP_PROMOTE. -/
def execSlipPromote (h : CmdHdr) (vol : Nat) (s : State) : Res :=
  .next ((s.command h pgSLIP 0x0104 .work fun _ t0 =>
    let t := t0.slipRead vol
    let r := t.rep vol
    if r.role = 0 then (t, .done spNotPaired 0)
    else if r.role ≠ 2 ∨ r.st = rsPromoted ∨ r.promote.isSome then (t, .done spState 0)
    else ((t.revokeLanding vol).modRep vol (fun x => { x with promote := some h.cseq, arrived := [] }), .running [])).promotePump vol
      |> fun t => t.statusPump vol)

/-- SLIP_UNPAIR.
[DEDUCED: log entry 59] -/
def execSlipUnpair (h : CmdHdr) (vol : Nat) (s : State) : Res :=
  .next (s.simpleCmd h pgSLIP 0x0105 fun t0 =>
    let t := t0.slipRead vol
    let r := t.rep vol
    if r.role = 0 then (t, spNotPaired)
    else if (r.role = 1 ∧ (r.st = rsIdle ∨ r.st = rsBroken)) ∨ (r.role = 2 ∧ (r.st = rsPromoted ∨ r.st = rsBroken)) then
      ((t.shipEnds vol spBroken).setRep vol {}, stOk)
    else (t, spState))

end Sys2Proof.Machine
end

