-- ==== Sys2Proof/Machine/Sysc.lean ====
section
/-! DEFINITION. In-package memory and the system cache: the commands and events of HBM and SYSC (R366-R382). -/

namespace Sys2Proof.Machine

/-! ### Lines and ways -/

def State.setLine (s : State) (k : Nat) (l : Line) : State := { s with mem.lines := s.mem.lines.put {} k l }
def State.setWay (s : State) (w : Nat) (v : WayState) : State := { s with mem.ways := s.mem.ways.put .powered w v }

/-- The address of byte 0 of the line with key `k` and tag `t` (R366). -/
def lineAddr (k t : Nat) : Nat :=
  let slice := k % 24576 / 8192
  let set := k % 8192
  256 * (3 * (8192 * t + set) + slice)

/-- The way of a line key. -/
def wayOf (k : Nat) : Nat := k / 24576

/-- A way is locked (R377). -/
def State.locked (s : State) (w : Nat) : Bool := (s.reg rSYSC_LOCK).toNat.testBit w

/-- A stack refuses accesses (R372). -/
def State.asleep (s : State) (a : Nat) : Bool := (s.stack (stackOf a)).sr = .entering || (s.stack (stackOf a)).sr = .selfRefresh

/-- The ways of a set, least recently used first.
[DEDUCED: log entry 54] -/
def State.lruOf (s : State) (a : Nat) : List Nat := s.mem.lru.get (List.range 16) (8192 * stackOf a + setOf a)

/-- A way of the set of `a` becomes the most recently used. -/
def State.touch (s : State) (a w : Nat) : State :=
  { s with mem.lru := s.mem.lru.put (List.range 16) (8192 * stackOf a + setOf a) ((s.lruOf a).filter (· ≠ w) ++ [w]) }

/-- The victim of an ordinary allocation (R373), not way `excl`.
[DEDUCED: log entry 54] -/
def State.victim (s : State) (a : Nat) (excl : Option Nat) : Option Nat :=
  (s.lruOf a).find? (fun w =>
    let ph := (s.line (lineKey w a)).phase
    s.way w = .powered && !s.locked w && ph ≠ .filling && ph ≠ .departing && some w ≠ excl)

/-- The way whose line holds, or will hold, the tag of `a`. -/
def State.tagWay (s : State) (a : Nat) : Option Nat :=
  (List.range 16).find? (fun w =>
    let l := s.line (lineKey w a)
    l.phase ≠ .invalid && l.tag = tagOf a && (s.way w = .powered || s.way w = .draining))

/-- The way in which the tag of `a` is departing. -/
def State.departingWay (s : State) (a : Nat) : Option Nat :=
  (List.range 16).find? (fun w =>
    let l := s.line (lineKey w a)
    l.phase = .departing && l.oldTag = tagOf a && (s.way w = .powered || s.way w = .draining))

/-- The sectors that a read of `len` bytes at `a` needs within the line. -/
def sectorsOf (a len : Nat) : Nat :=
  maskOf ((List.range 4).filter (fun k => decide (sectorOf a ≤ k) && decide (64 * k < a % 256 + len)))

/-- The sectors a miss fetches: the requested ones and the PREFETCH_SECTORS that follow (R373). -/
def State.fillMask (s : State) (a len : Nat) : Nat :=
  sectorsOf a (len + 64 * s.fld fSYSC_CTRL_PREFETCH_SECTORS)

/-- The bytes of a sector as HBM and the merging buffer hold them. -/
def State.freshSector (s : State) (a : Nat) : List Byte :=
  (List.range 64).map (fun i =>
    match mbByte s.mem.mb (a / 64 * 64 + i) with
    | some b => b
    | none => s.rawByte (a / 64 * 64 + i))

/-- A read that met an uncorrectable error: a core takes a bus-error exception (R368). -/
def State.uncorrAnswer (s : State) (a : Nat) (core : Bool) : State := s.emit (if core then .busError else .hbmError a false)

/-- Answer a read from HBM and the merging buffer without the cache (R368, R373). -/
def State.answerRaw (s : State) (a len : Nat) (core : Bool) : State :=
  match (List.range ((a % 64 + len + 63) / 64)).find? (fun j => s.mem.bad.contains (a / 64 + j)) with
  | some j => (s.hbmUncorr (64 * (a / 64 + j))).uncorrAnswer (64 * (a / 64 + j)) core
  | none =>
    let soft := (List.range ((a % 64 + len + 63) / 64)).filter (fun j => s.mem.soft.contains (a / 64 + j))
    let s1 := soft.foldl (fun t j => t.hbmCorr (64 * (a / 64 + j))) s
    s1.emit (.bytes ((List.range len).map (fun i =>
      match mbByte s.mem.mb (a + i) with
      | some b => b
      | none => s.rawByte (a + i))))

/-- A refused access: a core takes a bus-error exception, an engine an uncorrectable HBM error with HBM_ASLEEP (R372). -/
def State.refuseAccess (s : State) (a : Nat) (core : Bool) : State :=
  (s.srRefused a).emit (if core then .busError else .hbmError a true)

/-! ### Reads -/

/-- Allocate a line for a read, or go through to HBM (R373, R374). -/
def State.allocRead (s : State) (a len : Nat) (core : Bool) (excl : Option Nat) : State :=
  match s.victim a excl with
  | none => (s.bump fSYSC_NO_ALLOC).answerRaw a len core
  | some w =>
    let k := lineKey w a
    let l := s.line k
    let nl : Line := { phase := if l.phase = .valid then .departing else .filling, tag := tagOf a, oldTag := l.tag,
                       valid := 0, fill := s.fillMask a len, waits := [⟨a, len, core, false⟩] }
    (s.setLine k nl).touch a w

/-- A read within one line (R372-R374, R376). `ecc` says what the cache's own check finds: 1 a corrected single-bit error, 2 an
uncorrectable error, which refetches the sector. -/
def State.readLine (s : State) (a len : Nat) (core : Bool) (ecc : Nat) : State :=
  let need := sectorsOf a len
  match s.tagWay a with
  | some w =>
    let k := lineKey w a
    let l := s.line k
    let have_ := l.valid &&& need = need
    if have_ ∧ ecc ≠ 2 then
      let s1 := if ecc = 1 then ((s.bump fSYSC_HIT).bump fSYSC_ECC_CORR).sramCorr 0 1 else s.bump fSYSC_HIT
      (s1.touch a w).emit (.bytes ((List.range len).map (fun i =>
        match mbByte s.mem.mb (a + i) with
        | some b => b
        | none => l.data.get 0 ((a + i) % 256))))
    else if s.asleep a then s.refuseAccess a core
    else
      let s1 := if have_ then (s.bump fSYSC_ECC_REFETCH).sramUncorr 0 (32 * k + 8 * sectorOf a) else if l.phase = .valid then s.bump fSYSC_MISS else s
      let miss := if have_ then need else (s.fillMask a len) &&& (15 - l.valid)
      let nl := { l with
        phase := if l.phase = .valid then .filling else l.phase
        valid := andNot l.valid (if have_ then need else 0)
        fill := l.fill ||| miss
        waits := l.waits ++ [⟨a, len, core, false⟩] }
      (s1.setLine k nl).touch a w
  | none =>
    if s.asleep a then s.refuseAccess a core
    else match s.departingWay a with
      | some w =>
        let k := lineKey w a
        let l := s.line k
        (((s.bump fSYSC_MISS).bump fSYSC_DEPARTING_WAIT).setLine k { l with waits := l.waits ++ [⟨a, len, core, true⟩] })
      | none => (s.bump fSYSC_MISS).allocRead a len core none

/-- A read of any length, line by line. A stack that leaves self-refresh keeps its accesses waiting (R371). -/
def State.readFuel : Nat → State → Nat → Nat → Bool → Nat → State
  | 0, s, _, _, _, _ => s
  | f + 1, s, a, len, core, ecc =>
    if len = 0 then s
    else
      let n := min len (256 - a % 256)
      let s1 :=
        if hbmEnd ≤ a then s.emit (if core then .busError else .hbmError a false)
        else if (s.stack (stackOf a)).sr = .exiting then
          { s with mem.held := s.mem.held ++ [⟨a, n, none, core⟩] }
        else s.readLine a n core ecc
      State.readFuel f s1 (a + n) (len - n) core ecc

/-! ### Writes and the merging buffer -/

/-- The byte mask of `n` bytes at offset `o` of a sector. -/
def byteMask (o n : Nat) : Nat := maskOf ((List.range n).map (· + o))

/-- A write within one sector (R372, R373, R375). A write that waits is counted once. -/
def State.writeOne (s : State) (a : Nat) (bs : List Byte) (core : Bool) (again : Bool := false) : State :=
  let wait := { s with mem.held := s.mem.held ++ [⟨a, bs.length, some bs, core⟩] }
  if hbmEnd ≤ a then s.emit (if core then .busError else .hbmError a false)
  else if s.asleep a then s.refuseAccess a core
  else if (s.stack (stackOf a)).sr = .exiting then wait
  else
    let sec := a / 64
    let merge := s.mem.mb.find? (fun e => e.sector = sec)
    if s.mem.held.any (fun h => h.data.isSome && h.addr / 64 = sec) then wait
    else if merge.isNone ∧ 512 ≤ s.mem.mb.length then (if again then wait else wait.bump fSYSC_MB_FULL_WAIT)
    else
      let w := s.cached a
      let s1 := patchLine s a bs
      let mk := byteMask (a % 64) bs.length
      match merge with
      | some _ =>
        { s1 with mem.mb := s1.mem.mb.map (fun e => if e.sector = sec then
            { e with mask := e.mask ||| mk, data := writeCells e.data (a % 64) bs, way := w.orElse (fun _ => e.way) } else e) }
      | none => { s1 with mem.mb := s1.mem.mb ++ [⟨sec, mk, writeCells [] (a % 64) bs, w⟩] }

/-- A write of any length, sector by sector. -/
def State.writeAll : Nat → State → Nat → List Byte → Bool → State
  | 0, s, _, _, _ => s
  | f + 1, s, a, bs, core =>
    if bs.isEmpty then s
    else
      let n := 64 - a % 64
      State.writeAll f (s.writeOne a (bs.take n) core) (a + n) (bs.drop n) core

/-- The waiting accesses are tried again, in order. -/
def State.retryHeld (s : State) : State :=
  let h := s.mem.held
  h.foldl (fun t x => match x.data with
    | some bs => t.writeOne x.addr bs x.core true
    | none => if (t.stack (stackOf x.addr)).sr = .exiting then { t with mem.held := t.mem.held ++ [x] }
              else t.readLine x.addr x.len x.core 0) { s with mem.held := [] }

/-! ### SYSC's commands (R377-R379, R381) -/

/-- SYSC_INVAL of the bytes `[a, a + n)` (R378): the lines counted, locked lines counted. A line whose fill runs is left Invalid
when the fill completes (R374). -/
def State.invalLines (s : State) (a n : Nat) : State × Nat × Nat :=
  let hit := fun (k : Nat) (l : Line) => decide (a ≤ lineAddr k l.tag) && decide (lineAddr k l.tag < a + n)
  let whole := s.mem.lines.filter (fun e => e.2.phase = .valid && hit e.1 e.2)
  let lk := whole.filter (fun e => s.locked (wayOf e.1))
  let lines := s.mem.lines.foldl (fun t e =>
    if hit e.1 e.2 then
      (match e.2.phase with
        | .valid => Tab.put {} t e.1 {}
        | .invalid => t
        | _ => Tab.put {} t e.1 { e.2 with inval := true })
    else t) s.mem.lines
  ({ s with mem.lines := lines }, whole.length, lk.length)

/-- Zero one line (R379): none while its tag is departing or being filled, or while the merging buffer has no room for its four entries. -/
def State.zeroLine (s : State) (a : Nat) : Option State :=
  let filling : Bool := match s.tagWay a with
    | some w => decide ((s.line (lineKey w a)).phase ≠ .valid)
    | none => false
  if (s.departingWay a).isSome ∨ filling ∨ 508 < s.mem.mb.length then none
  else
    let z : Line := { phase := .valid, tag := tagOf a, valid := 15 }
    let s1 : State := match s.tagWay a with
      | some w =>
        (s.setLine (lineKey w a) { s.line (lineKey w a) with valid := 15, data := [] }).touch a w
      | none => match s.victim a none with
        | some w => (s.setLine (lineKey w a) z).touch a w
        | none => s.bump fSYSC_NO_ALLOC
    let w := s1.cached a
    let secs := (List.range 4).map (fun j => a / 64 + j)
    let mb : List MbEntry := s1.mem.mb.filter (fun e => !secs.contains e.sector) ++ secs.map (fun k => ⟨k, 2 ^ 64 - 1, [], w⟩)
    some { s1 with mem.mb := mb }

/-- Continue SYSC_ZERO, line by line, until something must drain first. -/
def State.zeroLines : Nat → State → Nat → Nat → List Nat → State × Nat × List Nat
  | 0, s, a, _, left => (s, a, left)
  | f + 1, s, a, stop, left =>
    if stop ≤ a then (s, a, left)
    else match s.zeroLine a with
      | some s1 => State.zeroLines f s1 (a + 256) stop (left ++ (List.range 4).map (fun j => a / 64 + j))
      | none => (s, a, left)

/-- Load one line into a locked way (R377); another copy of the line is left Invalid. -/
def State.lockedLine (s : State) (w a : Nat) : State :=
  let s0 := (List.range 16).foldl (fun t v =>
    let l := t.line (lineKey v a)
    if v ≠ w ∧ l.phase = .valid ∧ l.tag = tagOf a then t.setLine (lineKey v a) {} else t) s
  let good := (List.range 4).filter (fun j => !s0.mem.bad.contains (a / 64 + j))
  let s1 := ((List.range 4).filter (fun j => s0.mem.bad.contains (a / 64 + j))).foldl (fun t j => t.hbmUncorr (a + 64 * j)) s0
  let data := good.foldl (fun t j => writeCells t (64 * j) (s1.freshSector (a + 64 * j))) []
  let old := s1.line (lineKey w a)
  let s2 := s1.setLine (lineKey w a) { phase := .valid, tag := tagOf a, valid := maskOf good, data := data }
  (old.waits.foldl (fun t x => t.answerRaw x.addr x.len x.core) s2).touch a w

def State.lockedLines : Nat → State → Nat → Nat → State
  | 0, s, _, _ => s
  | f + 1, s, w, a => State.lockedLines f (s.lockedLine w a) w (a + 256)

/-- The bytes of a range before the first line whose stack is not Active (R381). -/
def State.activeLen (s : State) (a n : Nat) : Nat :=
  match (List.range 3).find? (fun j => (s.stack (stackOf (a + 256 * j))).sr ≠ .active) with
  | some j => min n (256 * j)
  | none => n

/-- Run SYSC's commands until one must wait. -/
def State.syscPump : Nat → State → State
  | 0, s => s
  | f + 1, s =>
    match s.mem.jobs with
    | [] => s
    | j :: js =>
      let pop := fun (t : State) (st : Nat) => State.syscPump f (({ t with mem.jobs := js }).finishRunning j.cseq 0 st)
      let n := if j.started then j.length else s.activeLen j.addr j.length
      let st := if n < j.length then 2 else stOk
      if j.opcode = 0x0100 then
        let r := s.invalLines j.addr n
        let s1 := r.1.setReg rSYSC_LAST_INVAL_LOCKED (BitVec.ofNat 32 r.2.2)
        pop (if st = stOk then s1.hbmWrite j.result (le 8 r.2.1 ++ le 8 r.2.2) else s1) st
      else if j.opcode = 0x0102 then
        pop (State.lockedLines (n / 256) s j.way j.addr) st
      else
        let r := State.zeroLines (n / 256 + 1) s j.addr (j.addr + n) j.left
        let left := r.2.2.filter (fun k => r.1.mem.mb.any (fun e => e.sector = k))
        if j.addr + n ≤ r.2.1 ∧ left.isEmpty then pop r.1 st
        else { r.1 with mem.jobs := { j with addr := r.2.1, length := j.length - (r.2.1 - j.addr), left := left } :: js }

/-- SYSC runs what it can. -/
def State.syscRun (s : State) : State := State.syscPump (s.mem.jobs.length + 1) s

/-- Misaligned, or not within HBM (R381). -/
def syscBad (addr length : Nat) : Bool := addr % 256 ≠ 0 || length % 256 ≠ 0 || decide (hbmEnd < addr + length)

/-- A SYSC command takes its turn. -/
def State.syscCommand (s : State) (h : CmdHdr) (opcode : Nat) (bad : State → Bool) (j : SyscJob) : State :=
  let s1 := s.command h pgSYSC opcode .work (fun _ t =>
    if bad t then (t, .done 1 0)
    else if j.length = 0 ∧ opcode ≠ 0x0100 ∧ t.mem.jobs.isEmpty then (t, .done stOk 0)
    else ({ t with mem.jobs := t.mem.jobs ++ [j] }, .running []))
  s1.syscRun

/-- SYSC_INVAL. -/
def execSyscInval (h : CmdHdr) (addr length result : Nat) (s : State) : Res :=
  .next <| s.syscCommand h 0x0100 (fun _ => syscBad addr length || result % 16 ≠ 0 || decide (hbmEnd < result + 16))
    { cseq := h.cseq, opcode := 0x0100, addr := addr, length := length, result := result }

/-- SYSC_ZERO. -/
def execSyscZero (h : CmdHdr) (addr length : Nat) (s : State) : Res :=
  .next <| s.syscCommand h 0x0101 (fun _ => syscBad addr length)
    { cseq := h.cseq, opcode := 0x0101, addr := addr, length := length }

/-- SYSC_LOCKED_FILL. -/
def execSyscLockedFill (h : CmdHdr) (way addr length : Nat) (s : State) : Res :=
  .next <| s.syscCommand h 0x0102
    (fun t => syscBad addr length || decide (6 * 2 ^ 20 < length) || decide (16 ≤ way) || !t.locked way || t.way way ≠ .powered)
    { cseq := h.cseq, opcode := 0x0102, way := way, addr := addr, length := length }

/-! ### Events of the cache -/

/-- SYSC_FILL_DONE: the fill of the way's line in the set of `addr` completes (R374). Bytes written meanwhile are merged over the
arriving data (R373). -/
def State.fillDone (s : State) (way addr : Nat) : State :=
  let k := lineKey way addr
  let l := s.line k
  if l.phase = .filling ∨ l.phase = .departing then
    let base := lineAddr k l.tag
    let secs := bitList 4 l.fill
    let good := secs.filter (fun j => !s.mem.bad.contains (base / 64 + j))
    let s0 := (secs.filter (fun j => s.mem.bad.contains (base / 64 + j))).foldl (fun t j => t.hbmUncorr (base + 64 * j)) s
    let s1 := (good.filter (fun j => s.mem.soft.contains (base / 64 + j))).foldl (fun t j => t.hbmCorr (base + 64 * j)) s0
    let data := good.foldl (fun t j => writeCells t (64 * j) (s.freshSector (base + 64 * j))) l.data
    let nl : Line := { phase := .valid, tag := l.tag, valid := l.valid ||| maskOf good, data := data }
    let s2 := s1.setLine k (if l.inval then {} else nl)
    let s3 := (l.waits.filter (fun x => !x.old)).foldl (fun t x =>
      if (sectorsOf x.addr x.len) &&& nl.valid = sectorsOf x.addr x.len then
        t.emit (.bytes ((List.range x.len).map (fun i => match mbByte s.mem.mb (x.addr + i) with
          | some b => b
          | none => nl.data.get 0 ((x.addr + i) % 256))))
      else t.uncorrAnswer x.addr x.core) s2
    let s4 := (l.waits.filter (fun x => x.old)).foldl (fun t x =>
      match t.tagWay x.addr with
      | some _ => t.readLine x.addr x.len x.core 0
      | none => t.allocRead x.addr x.len x.core (some way)) s3
    s4.syscRun
  else s

def execSyscFillDone (way addr : Nat) (s : State) : Res := .next (s.fillDone way addr)

/-- MB_DRAIN: the oldest entry is written to HBM (R375). With `ecc` its bytes are lost and the sector is written with the poison
marker (R376). A partial entry cannot be merged into an uncorrectable sector (R368). -/
def State.mbDrain (s : State) (ecc : Bool) : State :=
  match s.mem.mb with
  | [] => s
  | e :: es =>
    let a := 64 * e.sector
    let s0 := { s with mem.mb := es }
    let s1 :=
      if ecc then
        ({ s0 with mem.bad := insertSeq e.sector s0.mem.bad }.capture pgSYSC 0x01 a (a / 2 ^ 32)).irqBit pgSYSC 0
      else if s0.mem.bad.contains e.sector ∧ e.mask ≠ 2 ^ 64 - 1 then s0.bump (fHBM_POISON_WRITE (stackOf a))
      else
        { s0 with
          mem.cells := (bitList 64 e.mask).foldl (fun t i => Tab.put 0 t (a + i) (e.data.get 0 i)) s0.mem.cells
          mem.bad := s0.mem.bad.filter (· ≠ e.sector)
          mem.soft := if e.mask = 2 ^ 64 - 1 then s0.mem.soft.filter (· ≠ e.sector) else s0.mem.soft }
    (s1.retryHeld).syscRun

def execMbDrain (ecc : Bool) (s : State) : Res := .next (s.mbDrain ecc)

/-! ### Ways (R380) -/

/-- A WAY_EN bit is written 0. -/
def State.wayDisable (s : State) (w : Nat) : State :=
  if s.mem.ways.get .powered w = .powered then
    if s.locked w then (s.capture pgSYSC 0x02 w 0).irqBit pgSYSC 0
    else (s.setWay w .draining).setReg rSYSC_WAY_EN (BitVec.ofNat 32 (clearBit (s.reg rSYSC_WAY_EN).toNat w))
  else s

/-- A WAY_EN bit is written 1. -/
def State.wayEnable (s : State) (w : Nat) : State :=
  match s.mem.ways.get .powered w with
  | .draining | .off => (s.setWay w .poweringUp).setReg rSYSC_WAY_EN ((s.reg rSYSC_WAY_EN) ||| BitVec.ofNat 32 (2 ^ w))
  | _ => s

/-- The lines of a way are invalidated; requests that wait on them go through to HBM. -/
def State.dropWay (s : State) (w : Nat) : State :=
  let waits := (s.mem.lines.filter (fun e => wayOf e.1 = w)).flatMap (fun e => e.2.waits)
  waits.foldl (fun t x => t.answerRaw x.addr x.len x.core) { s with mem.lines := s.mem.lines.filter (fun e => wayOf e.1 ≠ w) }

/-- No fill is outstanding in the way and no buffer entry records it. -/
def State.wayIdle (s : State) (w : Nat) : Bool :=
  s.mem.lines.all (fun e => wayOf e.1 ≠ w || e.2.phase = .valid) && s.mem.mb.all (fun e => e.way ≠ some w)

def execSyscWayDisable (way : Nat) (s : State) : Res :=
  .next (if way < 16 then s.gated pgSYSC (fun t => t.wayDisable way) else s)
def execSyscWayEnable (way : Nat) (s : State) : Res :=
  .next (if way < 16 then s.gated pgSYSC (fun t => t.wayEnable way) else s)

/-- SYSC_WAY_OFF. -/
def execSyscWayOff (way : Nat) (s : State) : Res :=
  .next (if s.mem.ways.get .powered way = .draining ∧ s.wayIdle way then (s.dropWay way).setWay way .off else s)

/-- SYSC_WAY_POWERED. -/
def execSyscWayPowered (way : Nat) (s : State) : Res :=
  .next (if s.mem.ways.get .powered way = .poweringUp then (s.dropWay way).setWay way .powered else s)

/-- A write of SYSC.WAY_EN, bit by bit. -/
def State.wayEnWrite (s : State) (v : Nat) : State :=
  (List.range 16).foldl (fun t w => if v.testBit w then t.wayEnable w else t.wayDisable w) s

/-- A write of SYSC.LOCK: a bit cannot be set for a way that is not Powered (R377). -/
def State.lockWrite (s : State) (v : Nat) : State :=
  let old := (s.reg rSYSC_LOCK).toNat
  s.setReg rSYSC_LOCK (BitVec.ofNat 32 (maskOf ((List.range 16).filter (fun w =>
    v.testBit w && (s.way w = .powered || old.testBit w)))))

/-! ### Self-refresh and scrub (R369, R371) -/

def State.setStack (s : State) (k : Nat) (v : Stack) : State := { s with mem.hbmStacks := s.mem.hbmStacks.put {} k v }

/-- HBM.CTRL.SELF_REFRESH is written 1. -/
def State.srEnter (s : State) (k : Nat) : State :=
  let s1 := s.setFld (fHBM_CTRL_SELF_REFRESH k) 1
  if (s.stack k).sr = .active then s1.setStack k { s.stack k with sr := .entering, exitNext := false } else s1

/-- HBM.CTRL.SELF_REFRESH is written 0. The PHY island's clock is started again. -/
def State.srExit (s : State) (k : Nat) : State :=
  let s1 := s.setFld (fHBM_CTRL_SELF_REFRESH k) 0
  match (s.stack k).sr with
  | .entering => s1.setStack k { s.stack k with exitNext := true }
  | .selfRefresh =>
    { s1.setStack k { s.stack k with sr := .exiting } with
      plat.islands := s1.plat.islands.upd {} (17 + k) (fun i => { i with clkRun := i.refOn }) }
  | _ => s1

def execHbmSelfRefreshEnter (stack : Nat) (s : State) : Res := .next (if stack < 3 then s.gated (pgHBM stack) (fun t => t.srEnter stack) else s)
def execHbmSelfRefreshExit (stack : Nat) (s : State) : Res := .next (if stack < 3 then s.gated (pgHBM stack) (fun t => t.srExit stack) else s)

/-- No access and no buffer entry of the stack is outstanding. -/
def State.stackQuiet (s : State) (k : Nat) : Bool :=
  s.mem.mb.all (fun e => stackOf (64 * e.sector) ≠ k)
    && s.mem.lines.all (fun e => e.1 % 24576 / 8192 ≠ k || e.2.phase = .valid)

/-- HBM_SR_ENTERED. -/
def execHbmSrEntered (stack : Nat) (s : State) : Res :=
  .next (
    let v := s.stack stack
    if v.sr = .entering ∧ s.stackQuiet stack then
      s.setStack stack (if v.exitNext then { v with sr := .exiting, exitNext := false } else { v with sr := .selfRefresh })
    else s)

/-- HBM_SR_EXITED: the waiting accesses are taken, in order. -/
def execHbmSrExited (stack : Nat) (s : State) : Res :=
  .next (if (s.stack stack).sr = .exiting then ((s.setStack stack { s.stack stack with sr := .active }).retryHeld).syscRun else s)

/-- HBM_SCRUB: every sector of the stack is read; those that needed correction are counted and written back, and an
uncorrectable one is reported (R368, R369). -/
def execHbmScrub (stack : Nat) (s : State) : Res :=
  .next (
    if stack < 3 ∧ s.fld (fHBM_SCRUB_CFG_PERIOD_H stack) ≠ 0 ∧ (s.stack stack).sr = .active ∧ !s.plat.pwr.cold then
      let s1 := (s.mem.soft.filter (fun k => stackOf (64 * k) = stack)).foldl (fun t k => t.hbmCorr (64 * k)) s
      let s2 := (s.mem.bad.filter (fun k => stackOf (64 * k) = stack)).foldl (fun t k => t.hbmUncorr (64 * k)) s1
      { s2 with mem.soft := s2.mem.soft.filter (fun k => stackOf (64 * k) ≠ stack) }
    else s)

end Sys2Proof.Machine
end

