-- ==== Sys2Proof/Machine/Grog.lean ====
section
/-! DEFINITION. Grog: the lookup of a block in its three tiers, confirmation, merging, and the commands of GROG (R166-R187). -/

namespace Sys2Proof.Machine

/-! ### The full index (R176, R177) -/

/-- The deepest bucket. -/
def maxDepth : Nat := 10

/-- The FTL has pages of the full index to write. -/
def State.dirtyFidx (s : State) (ns : List Nat) : State :=
  { s with lmap.dirty := ns.foldl (fun l n => if l.contains (fidxMpa n) then l else l ++ [fidxMpa n]) s.lmap.dirty }

/-- A full-index page changes; the owner of its half writes it (R345). While its bucket is being split, the new pages follow. -/
def State.setFidx (s : State) (n : Nat) (p : FidxPage) : State :=
  let b := n % 2 ^ 26
  let s0 := { s with grog.fidx := s.grog.fidx.ins n p }
  if !s0.ownsHalf b then s0 else
  let s1 := s0.dirtyFidx [n]
  if s1.grog.splitting.contains b then s1.dirtyFidx ((s1.splitPages b).map Prod.fst) else s1

/-- The directory entry of a bucket whose new pages are on flash changes: the bucket is at depth d + 1 (R177). -/
def State.splitDone (s : State) (b : Nat) : State :=
  { s with
    grog.fidx := (s.splitPages b).foldl (fun t e => t.ins e.1 e.2) s.grog.fidx
    grog.dir := s.grog.dir.put 0 b (s.fidxDir b + 1)
    grog.splitting := s.grog.splitting.filter (· ≠ b) }

/-- A split of a bucket begins: its new pages go to flash. With `now`, in a bucket that nothing reads, it ends at once (R185).
[DEDUCED: log entry 102] -/
def State.splitBucket (s : State) (b : Nat) (now : Bool) : State :=
  let s1 := { s with grog.splitting := s.grog.splitting ++ [b] }.dirtyFidx ((s.splitPages b).map Prod.fst)
  if now then s1.splitDone b else s1

/-- A page of the full index is on flash as the FTL last had it to write. -/
def State.fidxOnFlash (s : State) (n : Nat) : Bool :=
  let m := fidxMpa n
  !s.lmap.dirty.contains m && (s.back.pageLoc.find m).isSome && !s.pageInRow m

/-- What merging a record comes to. -/
inductive MergeRes where
  | merged | full
  /-- it waits for a page of its bucket to be split -/
  | splits
  deriving DecidableEq, Repr

/-- Split until the page of a fingerprint has room. A bucket at depth 10 has none. -/
def State.makeRoom (now : Bool) : Nat → State → List Byte → State × MergeRes
  | 0, s, _ => (s, .full)
  | f + 1, s, fp =>
    let b := fpB fp
    if s.grog.splitting.contains b then
      if (s.splitPages b).all (fun e => s.fidxOnFlash e.1) then State.makeRoom now f (s.splitDone b) fp else (s, .splits)
    else if (s.fidxPage (s.fidxOf fp)).ents.length < 255 then (s, .merged)
    else if maxDepth ≤ s.fidxDir b then (s, .full)
    else if now then State.makeRoom now f (s.splitBucket b true) fp
    else (s.splitBucket b false, .splits)

/-- Merge one record (R177). -/
def State.mergeRec (s : State) (r : ILogRec) (now : Bool := false) : State × MergeRes :=
  let b := fpB r.fp
  if s.fidxDir b = dirRebuilding then (s.unpin r.fp r.dom r.cid, .merged)
  else
    let n := s.fidxOf r.fp
    let p := s.fidxPage n
    if r.remove then
      let kept := p.ents.filter (fun e => !(e.dom = r.dom && e.cid = r.cid))
      (if kept.length = p.ents.length then s else s.setFidx n { p with ents := kept }, .merged)
    else if p.ents.any (fun e => e.dom = r.dom && e.tag = fpT r.fp && (s.cont e.cid).fp = r.fp) then (s.unpin r.fp r.dom r.cid, .merged)
    else
      let m := State.makeRoom now 24 s r.fp
      match m.2 with
      | .merged =>
        let k := m.1.fidxOf r.fp
        let p1 := m.1.fidxPage k
        let d := m.1.fidxDir b
        ((m.1.setFidx k { p1 with depth := d, base := b, suffix := fpSuffix r.fp d, ents := p1.ents ++ [⟨fpT r.fp, r.dom, r.cid⟩] }).unpin r.fp r.dom
          r.cid, .merged)
      | x => (m.1, x)

/-! ### The insert log (R177, R178) -/

/-- Leading merged records leave the log; every 65,536 a checkpoint is asked for. -/
def State.ilogTrim : Nat → State → State
  | 0, s => s
  | f + 1, s => match s.grog.ilog with
    | r :: l =>
      if r.merged then
        let n := s.grog.merged + 1
        State.ilogTrim f { s with grog.ilog := l, grog.merged := n, back.ckptAsked := s.back.ckptAsked || decide (n % 65536 = 0) }
      else s
    | [] => s

/-- The record at a position of the log is merged. -/
def State.markMerged (s : State) (i : Nat) : State :=
  let l := s.grog.ilog
  let s1 := { s with grog.ilog := l.modify i (fun r => { r with merged := true }) }
  let s2 := State.ilogPump (s.grog.logWait.length) (State.ilogTrim (l.length + 1) s1)
  { s2 with grog.mergeSeq := s2.mergeSeqNow }

/-- The address of the record at a position of the log. -/
def State.ilogAddr (s : State) (i : Nat) : Nat := s.reg64 (rGROG_ILOG_BASE 0) + 64 * ((s.grog.merged + i) % 2 ^ 26)

/-- Merge the record at a position: INDEX_FULL is posted once for a bucket that keeps it pending, and a record whose page is being split
waits. -/
def State.mergeAt (s : State) (i : Nat) (unreadable : Bool) : State :=
  match s.grog.ilog[i]? with
  | none => s
  | some r =>
    if s.hbmErr (s.ilogAddr i) 64 then
      (((s.noteErr (s.ilogAddr i) 64).grogError 0 0x04 ((s.grog.merged + i) % 2 ^ 26)).loseInsert r).markMerged i
    else if unreadable then ((s.fidxLost 0 (fpB r.fp)).unpin r.fp r.dom r.cid).markMerged i
    else
      let m := s.mergeRec r
      if m.2 = .merged then { m.1 with grog.indexFull := m.1.grog.indexFull.filter (· ≠ fpB r.fp) }.markMerged i
      else if m.2 = .splits ∨ m.1.grog.indexFull.contains (fpB r.fp) then m.1
      else (({ m.1 with grog.indexFull := m.1.grog.indexFull ++ [fpB r.fp] }.irqBit (pgGrogQ 0) 2).event (pgGrogQ 0) 3 (le 4 (fpB r.fp)))

/-- GROG_MERGE: the first record in log order that is not merged and not kept pending. `unreadable` says that its page cannot be
read.
[DEDUCED: log entry 44] -/
def execGrogMerge (unreadable : Bool) (s : State) : Res :=
  .next (if s.working (pgGrogQ 0) then
      match s.grog.ilog.findIdx? (fun r => !r.merged && (r.remove || !s.grog.indexFull.contains (fpB r.fp))) with
      | some i => s.mergeAt i unreadable
      | none => match s.grog.ilog.findIdx? (fun r => !r.merged) with
        | some i => s.mergeAt i unreadable
        | none => s
    else s)

/-! ### Insertion into the hot tier (R175) -/

/-- The clock of a bucket from step `8 - f`: the way taken. -/
def State.hotClock (s : State) (h hand : Nat) : Nat → State × Option Nat
  | 0 => (s, none)
  | f + 1 =>
    let w := (hand + (7 - f)) % 4
    let e := s.hotWay h w
    if !e.valid then (s, some w)
    else if e.pend ∨ e.pin then s.hotClock h hand f
    else if e.ref then (s.setHot h w { e with ref := false }).hotClock h hand f
    else (s, some w)

/-- The position in the log of the insert record of the oldest pinned way of a bucket. -/
def State.oldestPin (s : State) (h : Nat) : Option Nat :=
  let ws := (List.range 4).map (s.hotWay h)
  s.grog.ilog.findIdx? (fun r => !r.merged && !r.remove && fpH r.fp = h && ws.any (fun e => e.valid && e.pin && e.cid = r.cid && e.dom = r.dom))

/-- Take a way of the bucket for a pending entry. When every way is pending or pinned, the oldest pinned one's record is merged at once,
and the insertion tries again. A wait is counted once. -/
def State.hotInsert (s : State) (q dom : Nat) (fp : List Byte) (waited : Bool) : State × Option Nat :=
  let h := fpH fp
  let entry : HotWay := { tag := fpT fp / 4, dom := dom, pend := true, ref := true, valid := true }
  let take := fun (t : State) (w : Nat) => ((t.setHot h w entry).setHand h (w + 1), some (4 * h + w))
  match s.hotClock h (s.hotHand h) 8 with
  | (t, some w) => take t w
  | (t, none) =>
    let t1 := if waited then t else t.bump (fGROG_PIN_WAIT q)
    match t1.oldestPin h with
    | none => (t1, none)
    | some i =>
      let t2 := t1.mergeAt i false
      match t2.hotClock h (t2.hotHand h) 8 with
      | (t3, some w) => take t3 w
      | (t3, none) => (t3, none)

/-! ### How a lookup ends (R171, R172) -/

/-- The pending entry that a lookup holds takes its result. -/
def State.resolvePend (s : State) (w : WareUnit) (cid : Nat) (pin : Bool) : State :=
  match w.way with
  | some k =>
    let e := s.hotWay (k / 4) (k % 4)
    s.setHot (k / 4) (k % 4) { e with cid := cid, pend := false, pin := pin, ref := true }
  | none => s

/-- The block of a command has its CID. -/
def State.gotCid (s : State) (w : WareUnit) (cid : Nat) (hit : Bool) : State :=
  match s.nvf.cmds.find w.cmd with
  | some c => s.setNvCmd w.cmd { c with
      changes := c.changes ++ [(w.lba, cid, w.app)], blocksLeft := c.blocksLeft - 1
      hits := if hit then c.hits ++ [cid] else c.hits, made := if hit then c.made else c.made ++ [cid] }
  | none => s

/-- A hit: the count rises, and the block is done. -/
def State.grogHit (s : State) (u : Nat) (w : WareUnit) (cid : Nat) (way : Option Nat) (fromIdx : Bool) : State :=
  let s1 := (s.bump fLMAP_REF_OPS).modCont cid (fun c => { c with refs := c.refs + 1 })
  let s2 := match way with
    | some k => let e := s1.hotWay (k / 4) (k % 4); s1.setHot (k / 4) (k % 4) { e with ref := true }
    | none => s1
  let s3 := (s2.resolvePend w cid false).bump (if fromIdx then fGROG_FIDX_HIT w.quad else fGROG_HOT_HIT w.quad)
  ((s3.gotCid w cid true).setWareUnit u { w with phase := .done, hit := true, cid := cid, way := none, cands := [] }).commitPump

/-- A new unit: LMAP allocates a CID. An indexed unit's pending entry takes it, and its insert record is appended. Without room in the
content map the command fails with Capacity Exceeded (R265). -/
def State.newUnit (s : State) (u : Nat) (w : WareUnit) (indexed : Bool) : State × Nat :=
  match s.allocCid w.tenant with
  | (s1, none) =>
    let s2 := s1.ftlError 0x04 (2 ^ 46)
    if (s2.nvCmd w.cmd).phase = .ended then
      -- the write has completed already: its block is lost
      ((((s2.dropPend u).gotCid w 2 true).delWareUnit u).commitPump, 0)
    else (s2.failCmd w.cmd scCapacity, 0)
  | (s1, some cid) =>
    let q := s1.lmap.createSeq
    let s2 := s1.setCont cid { dom := w.dom, inFlight := true, keySlot := w.keySlot, refs := 1, createSeq := q, fp := fitBytes 32 w.fp }
    let s3 := if indexed then
        (s2.resolvePend w cid true).ilogAppend { fp := w.fp, cid := cid, dom := w.dom, createSeq := q }
      else s2.dropPend u
    (((s3.gotCid w cid false).setWareUnit u { w with
      phase := .compress, cid := cid, createSeq := q, indexed := indexed, way := none, cands := [] }).wedgeEngines w.quad, cid)

/-- A block that is stored without being indexed (R170 order 1). -/
def State.notIndexed (s : State) (u : Nat) (w : WareUnit) : State := ((s.bump (fGROG_NOT_INDEXED w.quad)).newUnit u w false).1

/-- The domain of a block is indexed, for the block's tenant (R167, R168). -/
def State.indexes (s : State) (w : WareUnit) : Bool := (s.domEnt w.dom).st = 1 && (s.domEnt w.dom).tenant = w.tenant

/-- A miss. A domain that a purge has stopped is not indexed (R168). While the insert log is full, the block waits for a merge (R178). -/
def State.grogMiss (s : State) (u : Nat) (w : WareUnit) : State :=
  if !s.indexes w then s.notIndexed u w
  else if s.ilogFull ∧ s.ownsHalf (fpB w.fp) then s.setWareUnit u { w with phase := .confirm, cands := [] }
  else ((s.bump (fGROG_MISS w.quad)).newUnit u w true).1

/-- The ways of a unit's bucket that match and that the lookup has not found to be aliases. -/
def State.untried (s : State) (w : WareUnit) : List Nat :=
  (s.hotMatches w.dom w.fp).filter (fun i =>
    let e := s.hotWay (fpH w.fp) i
    e.pend || !w.tried.contains (e.cid, (s.cont e.cid).createSeq))

/-- Orders 2 and 3 of R170: a lookup waits for a pending match, and takes the others to confirmation. -/
def State.takeMatches (s : State) (u : Nat) (w : WareUnit) (ms : List Nat) : State :=
  let h := fpH w.fp
  let others := (ms.filter (fun i => !(s.hotWay h i).pend)).map (fun i => ((s.hotWay h i).cid, some (4 * h + i), false))
  match ms.find? (fun i => (s.hotWay h i).pend) with
  | some i => s.setWareUnit u { w with phase := .pend (4 * h + i), cands := others }
  | none => s.setWareUnit u { w with phase := .confirm, cands := others }

/-- Order 4 of R170: a pending entry, then a probe in Full mode. Lookups on one bucket run one at a time (R172), so a match that came into
the bucket meanwhile is taken first. A bucket of the peer's half is probed while both directions of the mirror are Healthy (R346).
[DEDUCED: log entry 102] -/
def State.orderFour (s : State) (u : Nat) (w : WareUnit) : State :=
  match w.way with
  | some _ => s.grogMiss u w
  | none =>
    if !s.indexes w then s.notIndexed u w
    else if !(s.untried w).isEmpty then s.takeMatches u w (s.untried w)
    else match s.hotInsert w.quad w.dom w.fp (w.phase = .pinned) with
    | (s1, none) => s1.setWareUnit u { w with phase := .pinned }
    | (s1, some k) =>
      let w1 := { w with way := some k, probed := true }
      let b := fpB w.fp
      if w.hotOnly ∨ s1.fidxDir b = dirRebuilding ∨ (!s1.ownsHalf b ∧ !s1.mirrorBoth) then
        (s1.setWareUnit u { w1 with phase := .confirm, cands := [] }).grogMiss u w1
      else (s1.bump (fGROG_PROBE w.quad)).setWareUnit u { w1 with phase := .probe, cands := [] }

/-- The matches that remain are confirmed next; with none left the lookup goes on as in order 4. -/
def State.lookupOn (s : State) (u : Nat) (w : WareUnit) (cands : List (Nat × Option Nat × Bool)) : State :=
  if cands.isEmpty then s.orderFour u { w with cands := [] }
  else s.setWareUnit u { w with phase := .confirm, cands := cands }

/-! ### GROG_LOOKUP (R170) -/

/-- A hot bucket with an uncorrectable HBM error is cleared. -/
def State.hotCheck (s : State) (q h : Nat) : State :=
  let a := s.reg64 (rGROG_HOT_BASE 0) + 64 * h
  if s.hbmErr a 64 then
    let s1 := (s.noteErr a 64).grogError q 0x01 h
    { s1 with grog.hot := s1.grog.hot.keepKeys (fun k => k / 4 ≠ h), grog.hand := s1.grog.hand.del h }.hbmWrite a (zeros 64)
  else s

/-- The first lookup of a block, which takes the domain's MODE and VERIFY, or one that waited for a way. Every block of an Active domain is
checked against the domain's tenant (R167). -/
def State.grogLookup (s : State) (u : Nat) (w0 : WareUnit) (noKey : Bool) : State :=
  let a := s.reg64 (rGROG_DOM_BASE 0) + 16 * w0.dom
  let d := s.domEnt w0.dom
  let w := match w0.phase with
    | .lookup _ => { w0 with hotOnly := d.hotOnly, verify := d.verify }
    | _ => w0
  if s.hbmErr a 16 then ((s.noteErr a 16).grogError w.quad 0x05 w.dom).notIndexed u w
  else if d.st = 1 ∧ d.tenant ≠ w.tenant then (s.grogError w.quad 0x03 w.dom).notIndexed u w
  else if d.st ≠ 1 ∨ noKey then s.notIndexed u w
  else
    let h := fpH w.fp
    let s1 := s.hotCheck w.quad h
    if (s1.untried w).isEmpty then s1.orderFour u { w with cands := [] } else s1.takeMatches u w (s1.untried w)

/-- The unit, when the quadrant works. -/
def State.grogUnit (s : State) (u : Nat) : Option WareUnit :=
  match s.wareUnit u with
  | some w => if s.working (pgGrogQ w.quad) then some w else none
  | none => none

/-- [DESIGN CHOICE: log entry 6] -/
def execGrogLookup (unit : Nat) (s : State) : Res :=
  .next (match s.grogUnit unit with
    | some w => match w.phase with
      | .lookup noKey => s.grogLookup unit w noKey
      | .pinned => s.grogLookup unit w false
      | _ => s
    | none => s)

/-- GROG_PENDING_RESOLVE: the lookup that held the entry has ended. -/
def execGrogPendingResolve (unit : Nat) (s : State) : Res :=
  .next (match s.grogUnit unit with
    | some w => match w.phase with
      | .pend k =>
        let e := s.hotWay (k / 4) (k % 4)
        if e.valid ∧ e.pend ∧ e.dom = w.dom ∧ e.tag = fpT w.fp / 4 then s
        else if e.valid ∧ e.dom = w.dom ∧ e.tag = fpT w.fp / 4 then s.lookupOn unit w ((e.cid, some k, false) :: w.cands)
        else s.grogLookup unit w false
      | _ => s
    | none => s)

/-- GROG_PROBE_DONE: the page's matching entries go to confirmation; a lost page counts as a miss (R185). -/
def execGrogProbeDone (unit : Nat) (unreadable : Bool) (s : State) : Res :=
  .next (match s.grogUnit unit with
    | some w =>
      if w.phase = .probe then
        let b := fpB w.fp
        let s1 := if unreadable then s.fidxLost w.quad b else s
        if s1.fidxDir b = dirRebuilding then s1.grogMiss unit w
        else
          let es := (s1.fidxPage (s1.fidxOf w.fp)).ents.filter (fun e => e.tag = fpT w.fp && e.dom = w.dom)
          s1.lookupOn unit w (es.map (fun e => (e.cid, none, true)))
      else s
    | none => s)

/-! ### GROG_CONFIRM (R171) -/

/-- A stale entry is removed from the tier it was found in. -/
def State.dropStale (s : State) (w : WareUnit) (cid : Nat) (way : Option Nat) : State :=
  match way with
  | some k => if (s.hotWay (k / 4) (k % 4)).cid = cid then s.setHot (k / 4) (k % 4) {} else s
  | none =>
    let n := s.fidxOf w.fp
    let p := s.fidxPage n
    let s1 := s.setFidx n { p with ents := p.ents.filter (fun e => !(e.cid = cid && e.dom = w.dom)) }
    -- the peer removes it from a page of its half (R345, R346)
    if s.ownsHalf (fpB w.fp) then s1
    else s1.ilogAppend { fp := w.fp, cid := cid, dom := w.dom, createSeq := (s.cont cid).createSeq, remove := true }

/-- A hot way holds a CID, and no lookup. -/
def State.wayHolds (s : State) (k cid : Nat) : Bool :=
  let e := s.hotWay (k / 4) (k % 4)
  e.valid && !e.pend && e.cid = cid

/-- A unit whose count is full is a miss: the new unit replaces it in both tiers, taking its hot entry where the match lay there. Where
another lookup has replaced that entry, this one finds what came into the bucket, as lookups on a bucket run one at a time (R172).
[DEDUCED: log entry 102] -/
def State.replaceFull (s : State) (u : Nat) (w : WareUnit) (cid : Nat) (way : Option Nat) (e : Content) : State :=
  if w.way.isNone ∧ (way.map (fun k => s.wayHolds k cid)) ≠ some true then s.orderFour u { w with cands := [] } else
  let s1 := (s.hotRemove w.fp w.dom cid).ilogAppend { fp := w.fp, cid := cid, dom := w.dom, createSeq := e.createSeq, remove := true }
  let w1 := { w with way := w.way <|> way, cands := [], phase := .confirm }
  let s2 := match w.way, way with
    | none, some k => s1.setHot (k / 4) (k % 4) { tag := fpT w.fp / 4, dom := w.dom, pend := true, ref := true, valid := true }
    | _, _ => s1
  (s2.setWareUnit u w1).grogMiss u w1

/-- The content entry of the next match decides.
[DEDUCED: log entry 102] -/
def State.confirmNext (s : State) (u : Nat) (w : WareUnit) (cid : Nat) (way : Option Nat) (fromIdx : Bool)
    (rest : List (Nat × Option Nat × Bool)) : State :=
  let m := contentMpa cid
  if !s.resident m ∧ (s.back.pageLoc.find m).isSome then s.wantPage m
  else
    let e := s.cont cid
    if cid < 16 ∨ e.refs = 0 ∨ e.dom ≠ w.dom then ((s.dropStale w cid way).bump (fGROG_STALE w.quad)).lookupOn u w rest
    else if e.fp ≠ w.fp then s.lookupOn u { w with tried := w.tried ++ [(cid, e.createSeq)] } rest
    else if e.refs = 0xFFFFFFFF then s.replaceFull u w cid way e
    else if w.verify then
      -- a unit that is never read (R222) cannot be read back (R183)
      if e.poisoned ∨ e.indet then ((s.bump (fGROG_MISS w.quad)).newUnit u { w with cands := rest } false).1
      else (s.setWareUnit u { w with phase := .verify, cands := (cid, way, fromIdx) :: rest }).startRead
        { cmd := 2 ^ 50 + u, idx := 0, lba := w.lba, cid := cid, app := w.app, quad := w.quad }
    else s.grogHit u w cid way fromIdx

def execGrogConfirm (unit : Nat) (s : State) : Res :=
  .next (match s.grogUnit unit with
    | some w =>
      if w.phase = .confirm then
        match w.cands with
        | (cid, way, fromIdx) :: rest => s.confirmNext unit w cid way fromIdx rest
        | [] => s.orderFour unit w
      else s
    | none => s)

/-! ### GROG_VERIFY_DONE (R183) -/

/-- The read-back of a unit under byte-verify. -/
def State.verifyRead (s : State) (u : Nat) : Option (Nat × ReadUnit) := s.ware.reads.find? (fun e => e.2.cmd = 2 ^ 50 + u)

/-- A collision: the block is stored as a new unit that is not indexed. -/
def State.collision (s : State) (u : Nat) (w : WareUnit) (cid : Nat) : State :=
  let r := (s.bump (fGROG_COLLISION w.quad)).newUnit u w false
  (r.1.irqBit (pgGrogQ w.quad) 0).event (pgGrogQ w.quad) 1 (le 2 w.dom ++ zeros 2 ++ le 8 cid ++ le 8 r.2)

/-- [DEDUCED: log entry 102] -/
def execGrogVerifyDone (unit : Nat) (s : State) : Res :=
  .next (match s.grogUnit unit with
    | some w =>
      match w.phase, w.cands, s.verifyRead unit with
      | .verify, (cid, way, fromIdx) :: rest, some (id, r) =>
        let s1 := { s with ware.reads := s.ware.reads.del id }
        match r.phase with
        | .done =>
          let e := s1.cont cid
          if e.refs = 0 ∨ e.dom ≠ w.dom ∨ e.fp ≠ w.fp then s1.setWareUnit unit { w with phase := .confirm }
          else if e.refs = 0xFFFFFFFF then s1.replaceFull unit w cid way e
          else if r.data = w.data then s1.grogHit unit w cid way fromIdx
          else s1.collision unit w cid
        | .failed _ => ((s1.bump (fGROG_MISS w.quad)).newUnit unit { w with cands := rest } false).1
        | _ => s
      | _, _, _ => s
    | none => s)

/-! ### Commands (R168, R184-R186) -/

def gsBadArg : Nat := 1
def gsTenant : Nat := 2
def gsBusy : Nat := 3
def gsNotActive : Nat := 4

/-- A GROG command is taken at instance 0xFF alone (R186); at another it completes as one of no such instance.
[DEDUCED: log entry 102] -/
def onAll (h : CmdHdr) (t : State) (r : State × CmdEnd) : State × CmdEnd := if h.inst = 0xFF then r else (t, .done stNoBlock 0)

/-- GROG_DOMAIN_SET. It writes the whole 64-byte sector of its entry, so that it also mends one that cannot be read (R187).
[DEDUCED: log entry 102] -/
def execGrogDomainSet (h : CmdHdr) (dom tenant mode verify : Nat) (s : State) : Res :=
  .next (s.command h pgGROG 0x0100 .work fun _ t => onAll h t <|
    let d := t.domEnt dom
    if 4096 ≤ dom ∨ 16384 ≤ tenant ∨ 1 < mode ∨ 1 < verify then (t, .done gsBadArg 0)
    else if d.st = 2 then (t, .done gsBusy 0)
    else if d.st = 1 ∧ d.tenant ≠ tenant then (t, .done gsTenant 0)
    else
      let t1 := { t with grog.doms := t.grog.doms.put {} dom { tenant := tenant, hotOnly := mode = 1, verify := verify = 1, st := 1 } }
      let base := dom / 4 * 4
      (t1.hbmWrite (t1.reg64 (rGROG_DOM_BASE 0) + 16 * base) ((List.range 4).flatMap (fun i => (t1.domEnt (base + i)).bytes)), .done stOk 0))

/-- GROG_DOMAIN_PURGE: indexing of the domain stops. -/
def execGrogDomainPurge (h : CmdHdr) (dom : Nat) (s : State) : Res :=
  .next (s.command h pgGROG 0x0101 .work fun _ t => onAll h t <|
    let d := t.domEnt dom
    if 4096 ≤ dom then (t, .done gsBadArg 0)
    else if d.st = 2 then (t, .done gsBusy 0)
    else if d.st ≠ 1 then (t, .done gsNotActive 0)
    else (t.setDomEnt dom { d with st := 2, purge := some h.cseq }, .running [dom]))

/-- Every entry of a domain leaves the hot tier, the full index and the log. -/
def State.sweepDomain (s : State) (dom : Nat) : State :=
  let s1 := (s.grog.hot.filter (fun e => e.2.dom = dom && e.2.valid)).foldl (fun t e => t.setHot (e.1 / 4) (e.1 % 4) {}) s
  let s2 := (s1.grog.fidx.filter (fun e => e.2.ents.any (fun x => x.dom = dom))).foldl (fun t e =>
    t.setFidx e.1 { e.2 with ents := e.2.ents.filter (fun x => x.dom ≠ dom) }) s1
  let s3 := State.ilogTrim (s2.grog.ilog.length + 1)
    { s2 with grog.ilog := s2.grog.ilog.map (fun r => if r.dom = dom then { r with merged := true } else r)
              grog.logWait := s2.grog.logWait.filter (fun r => r.dom ≠ dom)
              grog.fwd := s2.grog.fwd.filter (fun r => r.dom ≠ dom)
              ware.reads := s2.ware.reads.filter (fun e => !(s2.ware.units.any (fun x =>
                x.2.dom = dom && x.2.phase = UnitPhase.verify && e.2.cmd = 2 ^ 50 + x.1))) }
  let s3 := State.ilogPump s3.grog.logWait.length s3
  { s3 with
    grog.mergeSeq := s3.mergeSeqNow
    ware.units := s3.ware.units.map (fun (e : Nat × WareUnit) =>
      if e.2.dom = dom ∧ e.2.cid = 0 then match e.2.phase with
        | .pend _ => (e.1, { e.2 with way := none, phase := .lookup false, cands := [] })
        | .pinned => (e.1, { e.2 with way := none, phase := .lookup false, cands := [] })
        | .probe => (e.1, { e.2 with way := none, phase := .lookup false, cands := [] })
        | .confirm => (e.1, { e.2 with way := none, phase := .lookup false, cands := [] })
        | .verify => (e.1, { e.2 with way := none, phase := .lookup false, cands := [] })
        | _ => (e.1, { e.2 with way := none })
      else e) }

/-- GROG_PURGE_DONE: the last index entry has been removed. -/
def execGrogPurgeDone (dom : Nat) (s : State) : Res :=
  .next (let d := s.domEnt dom
    if d.st = 2 then
      let s1 := (s.sweepDomain dom).setDomEnt dom {}
      match d.purge with
      | some q => s1.finishRunning q 0 stOk
      | none => s1
    else s)

/-- GROG_RECONCILE (R184). -/
def execGrogReconcile (h : CmdHdr) (s : State) : Res :=
  .next (s.command h pgGROG 0x0102 .work fun _ t => onAll h t <|
    if t.grog.reconcile.isSome then (t, .done gsBusy 0)
    else ({ t with grog.reconcile := some h.cseq, grog.reconSeq := t.grog.ckptMerge, grog.capNext := none }, .running []))

/-- Units in order of their CREATE_SEQ. -/
def insertCreate (e : Nat × Content) : List (Nat × Content) → List (Nat × Content)
  | [] => [e]
  | b :: l => if e.2.createSeq ≤ b.2.createSeq then e :: b :: l else b :: insertCreate e l

/-- A unit that belongs in the index: its count is not 0, it has a fingerprint, and its domain is not Purging.
[DEDUCED: log entry 102] -/
def State.indexable (s : State) (c : Content) : Bool :=
  c.refs ≠ 0 && c.fp.any (· ≠ 0) && (s.domEnt c.dom).st ≠ 2

/-- Units in order of CREATE_SEQ go into the log again, while it has room.
[DEDUCED: log entry 102] -/
def State.reinsert (s : State) : List (Nat × Content) → State × Bool
  | [] => (s, true)
  | (c, e) :: l =>
    if s.ilogFull ∧ s.ownsHalf (fpB e.fp) then (s, false)
    else
      let s1 := if (s.grog.ilog ++ s.grog.logWait ++ s.grog.fwd).any (fun r => r.cid = c && !r.remove) then s
        else s.ilogAppend { fp := e.fp, cid := c, dom := e.dom, createSeq := e.createSeq }
      State.reinsert { s1 with grog.reconSeq := e.createSeq } l

/-- GROG_RECONCILE_DONE: every unit above the checkpoint's MERGE_SEQ is in the log again. While the log is full, an insertion waits
(R178), and the command with it. -/
def execGrogReconcileDone (s : State) : Res :=
  .next (match s.grog.reconcile with
    | some q =>
      let us := (s.lmap.cids.filter (fun e => decide (s.grog.reconSeq < e.2.createSeq) && s.indexable e.2)).foldl
        (fun l e => insertCreate e l) []
      let r := s.reinsert us
      if r.2 then
        let s1 := { r.1 with grog.reconcile := none, grog.mergeCap := r.1.grog.capNext }
        { s1 with grog.mergeSeq := s1.mergeSeqNow }.finishRunning q 0 stOk
      else { r.1 with grog.mergeSeq := r.1.mergeSeqNow }
    | none => s)

/-- GROG_INDEX_REBUILD (R185). -/
def execGrogIndexRebuild (h : CmdHdr) (base : Nat) (s : State) : Res :=
  .next (s.command h pgGROG 0x0103 .work fun _ t => onAll h t <|
    if 2 ^ 26 ≤ base then (t, .done gsBadArg 0)
    else if t.fidxDir base ≠ dirRebuilding ∨ (t.grog.rebuild.find base).isSome then (t, .done gsNotActive 0)
    else ({ t with grog.rebuild := t.grog.rebuild.ins base h.cseq }, .running [base]))

/-- GROG_INDEX_REBUILD_DONE: the bucket has been written again from the content map, at depth 0 with splits as needed. -/
def execGrogIndexRebuildDone (base : Nat) (s : State) : Res :=
  .next (match s.grog.rebuild.find base with
    | some q =>
      let us := (s.lmap.cids.filter (fun e => fpB e.2.fp = base && s.indexable e.2)).foldl (fun l e => insertCreate e l) []
      let s1 := { s with
        grog.rebuild := s.grog.rebuild.del base, grog.dir := s.grog.dir.put 0 base 0
        grog.splitting := s.grog.splitting.filter (· ≠ base)
        grog.fidx := s.grog.fidx.keepKeys (fun n => n % 2 ^ 26 ≠ base) }.setFidx base { base := base }
      let s2 := us.foldl (fun t e =>
        (t.mergeRec { fp := e.2.fp, cid := e.1, dom := e.2.dom, createSeq := e.2.createSeq } true).1) s1
      s2.finishRunning q 0 stOk
    | none => s)

end Sys2Proof.Machine
end

