-- ==== Sys2Proof/Machine/Wedge.lean ====
section
/-! DEFINITION. Wedge: compression, the verify of the write path, decoding on the read path, and jobs (R188-R202). -/

namespace Sys2Proof.Machine

def pgWedgeQ (q : Nat) : Nat := quadPage pgWEDGE q

/-! ### Errors (R201) -/

def weIllegal : Nat := 0x01
def weDist : Nat := 0x02
def weLength : Nat := 0x03
def weOverrun : Nat := 0x04
def weTruncated : Nat := 0x05
def weTag : Nat := 0x06
def weShort : Nat := 0x07
def weSrc : Nat := 0x08

def InflKind.code : InflKind → Nat
  | .truncated => weTruncated
  | .illegal => weIllegal
  | .badDist => weDist
  | .tooLong => weOverrun

/-- What a decompressor answers: the output, or an error code with the input byte offset and the bytes output before it. At most 15 zero
bytes may follow the final block (R189). -/
def decompress (max : Nat) (bs : List Byte) : Except (Nat × Nat × Nat) (List Byte) :=
  match inflate max bs with
  | .error e => .error (e.kind.code, (8 * bs.length - e.left) / 8, e.out)
  | .ok (o, left) =>
    let tail := bs.drop (bs.length - left)
    if 15 < left ∨ tail.any (· ≠ 0) then .error (weLength, bs.length - left, o.length) else .ok o

/-- The stored form of up to 65,535 bytes: one stored block with BFINAL = 1. -/
def storedForm (bs : List Byte) : List Byte := le 1 1 ++ le 2 bs.length ++ le 2 (0xFFFF - bs.length) ++ bs

/-- A decode of a path: exactly 4,096 bytes with the guard that is expected (R194, R195). -/
def pathDecode (form : List Byte) (guard : Nat) : Except Nat (List Byte) :=
  match decompress 4096 form with
  | .error e => .error e.1
  | .ok o => if o.length < 4096 then .error weShort else if guard64 o ≠ guard then .error weTag else .ok o

/-- A path error is captured with its CID.
[DEDUCED: log entry 18] -/
def State.wedgeError (s : State) (q code cid : Nat) : State :=
  (s.capture (pgWedgeQ q) code cid (cid / 2 ^ 32)).irqBit (pgWedgeQ q) 2

/-! ### Jobs (R196-R200) -/

def wsBadArg : Nat := 1
def wsOutputFull : Nat := 2
def wsHbm : Nat := 3
def wsDecode : Nat := 4
def wsAborted : Nat := 5

/-- The job descriptor. -/
structure WedgeDesc where
  op : Nat
  flags : Nat
  srcLen : Nat
  src : Nat
  dst : Nat
  dstLen : Nat
  expect : Nat
  table : Nat
  /-- the reserved bytes -/
  rsv : Nat
  deriving DecidableEq, Repr

def State.wedgeDesc (s : State) (a : Nat) : WedgeDesc :=
  ⟨s.hbmNat a 1, s.hbmNat (a + 1) 1, s.hbmNat (a + 4) 4, s.hbmNat (a + 8) 8, s.hbmNat (a + 0x10) 8, s.hbmNat (a + 0x18) 4,
    s.hbmNat (a + 0x1C) 4, s.hbmNat (a + 0x20) 8, s.hbmNat (a + 2) 2 + s.hbmNat (a + 0x39) 7⟩

/-- The arguments that a job refuses (R202). A field of the other operation is not used. -/
def WedgeDesc.bad (d : WedgeDesc) : Bool :=
  (d.op ≠ 1 && d.op ≠ 2) || decide (16777216 < d.srcLen) || decide (16777216 < d.dstLen) || decide (8 ≤ d.flags) || d.rsv ≠ 0
    || (d.op = 1 && d.table % 4 ≠ 0)

/-- The result fields. -/
def State.wedgeResult (s : State) (a outLen units errOff errCode : Nat) : State :=
  (s.hbmWrite (a + 0x28) (le 4 outLen ++ le 4 units ++ le 8 errOff)).hbmWrite (a + 0x38) (le 1 errCode)

/-- Cut bytes into units of `n`. -/
def cutUnits (n : Nat) : Nat → List Byte → List (List Byte)
  | 0, _ => []
  | f + 1, bs => if bs.isEmpty then [] else bs.take n :: cutUnits n f (bs.drop n)

/-- A unit of a compression job: the compressor's encoding (R188), or the stored block under STORE_FALLBACK when that is no longer. For
an operand that no compressor emits, the unit stands in the fixed code without matches.
[DEDUCED: log entry 17] -/
def jobUnit (fallback : Bool) (unit stream : List Byte) : List Byte × Bool :=
  let out := if decodesTo unit stream ∧ oneBlock stream then stream else literalForm unit
  if fallback ∧ unit.length + 5 ≤ out.length then (storedForm unit, true) else (out, false)

/-- The units that a compression job emits. An empty input is one unit, the 2-byte empty stream. -/
def jobUnits (d : WedgeDesc) (input : List Byte) (streams : List (List Byte)) : List (List Byte × Bool) :=
  if d.srcLen = 0 then [([0x03, 0x00], false)]
  else
    (cutUnits (if d.flags.testBit 0 then 32768 else 4096) (d.srcLen / 4096 + 1) input).zipIdx.map (fun e =>
      jobUnit (d.flags.testBit 1) e.1 (streams.getD e.2 []))

/-- Free bytes where a failed job leaves DST undefined. -/
def State.scramble (s : State) (a n : Nat) : State :=
  let r := s.freeBytes n
  r.2.hbmWrite a r.1

/-- A compression job.
[DEDUCED: log entry 17] -/
def State.compressJob (s : State) (a : Nat) (d : WedgeDesc) (streams : List (List Byte)) : State × Nat :=
  let us := jobUnits d (s.hbmRead d.src d.srcLen) streams
  let out := us.flatMap Prod.fst
  if d.dstLen < out.length then ((s.scramble d.dst d.dstLen).wedgeResult a 0 us.length 0 0, wsOutputFull)
  else
    let s1 := (s.hbmWrite d.dst out).hbmWrite d.table (us.flatMap (fun u => le 4 (u.1.length + 2 ^ 31 * b2n u.2)))
    (s1.wedgeResult a out.length us.length 0 0, stOk)

/-- A decompression job. -/
def State.decompressJob (s : State) (a : Nat) (d : WedgeDesc) : State × Nat :=
  let exact := d.flags.testBit 2
  match decompress (if exact then min d.dstLen d.expect else d.dstLen) (s.hbmRead d.src d.srcLen) with
  | .error e => ((s.scramble d.dst e.2.2).wedgeResult a e.2.2 1 e.2.1 e.1, wsDecode)
  | .ok o =>
    if exact ∧ o.length < d.expect then ((s.scramble d.dst o.length).wedgeResult a o.length 1 d.srcLen weShort, wsDecode)
    else ((s.hbmWrite d.dst o).wedgeResult a o.length 1 0 0, stOk)

/-- A job whose descriptor is aligned runs on its engine: the status. -/
def State.jobRun (s : State) (desc : Nat) (streams : List (List Byte)) : State × Nat :=
  if s.hbmErr desc 64 then ((s.noteErr desc 64).wedgeResult desc 0 0 0 weSrc, wsHbm)
  else
    let d := s.wedgeDesc desc
    let n := if d.op = 2 then 1 else 0
    if d.bad then (s.wedgeResult desc 0 n 0 0, wsBadArg)
    else if d.srcLen ≠ 0 ∧ s.hbmErr d.src d.srcLen then ((s.noteErr d.src d.srcLen).wedgeResult desc 0 n 0 weSrc, wsHbm)
    else if d.op = 1 then s.compressJob desc d streams else s.decompressJob desc d

/-- An engine is there for a job: a reserved one, or one that the paths leave idle (R195).
[DESIGN CHOICE: log entry 124] -/
def State.jobEngine (s : State) (q desc : Nat) : Bool :=
  let op := s.hbmNat desc 1
  if s.hbmErr desc 64 then true
  else if op = 1 then s.fld (fWEDGE_CTRL_JOB_COMP q) ≠ 0 || (s.compFree q none).isSome
  else if op = 2 then s.fld (fWEDGE_CTRL_JOB_DECOMP q) ≠ 0 || (s.decFree q none).isSome
  else true

/-- Jobs that wait start in CSEQ order, while an engine is there for each. -/
def State.jobPump : Nat → State → Nat → State
  | 0, s, _ => s
  | f + 1, s, q =>
    match (s.wedgeQuad q).jobs with
    | j :: l =>
      if s.jobEngine q j.desc then
        let r := ((s.setWedgeQuad q { s.wedgeQuad q with jobs := l }).bump (fWEDGE_JOBS q)).jobRun j.desc j.streams
        State.jobPump f (r.1.finishRunning j.cseq 0 r.2) q
      else s
    | [] => s
def State.wedgeJobs (s : State) (q : Nat) : State := State.jobPump (s.wedgeQuad q).jobs.length s q

/-- The engines of a quadrant go to the units and jobs that wait. -/
def State.wedgeRun (s : State) (q : Nat) : State := (s.wedgeEngines q).wedgeJobs q

/-- The result of a job that has read and written nothing (R196). -/
def State.jobNone (s : State) (a : Nat) : State :=
  if s.hbmErr a 64 then s else s.wedgeResult a 0 (if s.hbmNat a 1 = 2 then 1 else 0) 0 0

/-- The jobs in progress of a quadrant end with ABORTED (R202). -/
def State.jobsAbort (s : State) (q : Nat) : State :=
  (s.wedgeQuad q).jobs.foldl (fun t j => ((t.jobNone j.desc).bump (fWEDGE_JOBS q)).finishRunning j.cseq 0 wsAborted) (s.setWedgeQuad q {})

/-- WEDGE_JOB. `streams` are the compressor's encodings of the units, in order. A job that finds no engine, or an earlier job that waits,
waits.
[DESIGN CHOICE: log entry 124] -/
def execWedgeJob (h : CmdHdr) (desc : Nat) (streams : List (List Byte)) (s : State) : Res :=
  .next (s.command { h with inst := if 4 ≤ h.inst then 0xFF else h.inst } pgWEDGE 0x0100 .work fun p t =>
    let q := p - pgWedgeQ 0
    if 4 ≤ h.inst then (t, .done wsBadArg 0)
    else if desc % 64 ≠ 0 then (t.bump (fWEDGE_JOBS q), .done wsBadArg 0)
    else if (t.wedgeQuad q).jobs.isEmpty ∧ t.jobEngine q desc then
      let r := (t.bump (fWEDGE_JOBS q)).jobRun desc streams
      (r.1, .done r.2 0)
    else (t.setWedgeQuad q { t.wedgeQuad q with jobs := (t.wedgeQuad q).jobs ++ [⟨h.cseq, desc, streams⟩] }, .running [desc]))

/-! ### The write path (R192-R194) -/

/-- What a compressor puts out for a block: its encoding, which is one block as R188 states, or a faulty stream, which does not give the
block back (R194).
[DEDUCED: log entry 17] -/
def pathStream (data stream : List Byte) : List Byte :=
  match decompress data.length stream with
  | .ok o => if o = data ∧ !(decodesTo data stream && oneBlock stream) then literalForm data else stream
  | .error _ => stream

/-- The block of a unit is read from Saggar memory for its compressor (R306); without it there is nothing to compress. -/
def State.wedgeRead (s : State) (u : Nat) (w : WareUnit) : State × Bool :=
  let r := s.saggarRead u w
  if r.2 then r else (r.1.wedgeRun w.quad, false)

/-- WEDGE_COMPRESS: the compressor's encoding of the block, or the stored form when it exceeds 4,080 bytes. The unit goes on to a
decompressor.
[DEDUCED: log entry 17] -/
def execWedgeCompress (unit : Nat) (stream : List Byte) (s : State) : Res :=
  .next (match s.wareUnit unit with
    | some w =>
      if w.phase = .compress ∧ w.eng.isSome ∧ s.working (pgWedgeQ w.quad) then
        let r := s.wedgeRead unit w
        if !r.2 then r.1
        else
          let out := pathStream w.data stream
          let stored := decide (4080 < out.length)
          let form := if stored then storedForm w.data else if out.length < 16 then fitBytes 16 out else out
          let s1 := (r.1.bump (fWEDGE_UNITS w.quad)).setReg64 (rWEDGE_IN_BYTES w.quad) ((r.1.reg64 (rWEDGE_IN_BYTES w.quad) + 4096) % 2 ^ 64)
          let s2 := s1.setReg64 (rWEDGE_OUT_BYTES w.quad) ((s1.reg64 (rWEDGE_OUT_BYTES w.quad) + form.length) % 2 ^ 64)
          ((if stored then s2.bump (fWEDGE_STORED w.quad) else s2).setWareUnit unit
            { w with phase := .check, form := form, stored := stored, eng := none, comp := w.eng }).wedgeRun w.quad
      else s
    | none => s)

/-- A unit is lost before it is stored: every command that made or refers to it and has not committed fails, and a unit that is still
referenced is poisoned. -/
def State.loseUnit (s : State) (u cid status : Nat) : State :=
  let s1 := (s.nvf.cmds.filter (fun e => !e.2.committed && e.2.phase = .admitted && (e.2.made ++ e.2.hits).contains cid)).foldl (fun t e =>
    t.failCmd e.1 status) s
  let s2 := s1.delWareUnit u
  if (s2.cont cid).refs = 0 then s2 else (s2.poisonCid cid 2).commitPump

/-- The compressed length of a unit that already counts changes when it is compressed again after a replay (R233, R315). -/
def State.recount (s : State) (cid len : Nat) : State :=
  let c := s.cont cid
  if c.counted then s.modTen (s.domTenant c.dom) (fun t => { t with physGrains := t.physGrains + grainsOf len - grainsOf c.len })
  else s

/-- WEDGE_VERIFY: the unit goes to DCIPH, is compressed again once, or fails its command. -/
def execWedgeVerify (unit : Nat) (s : State) : Res :=
  .next (match s.wareUnit unit with
    | some w =>
      if w.phase = .check ∧ w.eng.isSome ∧ s.working (pgWedgeQ w.quad) then
        match pathDecode w.form (guard64 w.data) with
        | .ok _ =>
          ((((s.recount w.cid w.form.length).modCont w.cid (fun c => { c with len := w.form.length, guard := guard64 w.data, stored := w.stored })).setWareUnit
            unit { w with phase := .encrypt, eng := none, guard := guard64 w.form }).wedgeRun w.quad).commitPump
        | .error code =>
          if w.tries = 0 then
            ((s.bump (fWEDGE_VERIFY_FAIL w.quad)).setWareUnit unit { w with phase := .compress, form := [], tries := 1, eng := none }).wedgeRun w.quad
          else
            let c := s.nvCmd w.cmd
            let s1 := ((s.wedgeError w.quad code w.cid).irqBit (pgWedgeQ w.quad) 0).event (pgWedgeQ w.quad) 1
              (le 8 w.cid ++ le 4 c.nsid ++ zeros 4 ++ le 8 w.lba)
            (s1.loseUnit unit w.cid scInternal).wedgeRun w.quad
      else s
    | none => s)

/-! ### The read path (R195) -/

/-- WEDGE_DECODE: the block, a second try, or a poisoned CID. -/
def execWedgeDecode (rd : Nat) (s : State) : Res :=
  .next (match s.readUnit rd with
    | some r =>
      if r.phase = .decode ∧ r.eng.isSome ∧ s.working (pgWedgeQ r.quad) then
        match pathDecode r.form (s.cont r.cid).guard with
        | .ok o => ((s.bump (fWEDGE_DECODED r.quad)).setReadUnit rd { r with phase := .done, data := o, eng := none }).wedgeRun r.quad
        | .error code =>
          let s1 := s.bump (fWEDGE_DECODE_ERR r.quad)
          if r.tries = 0 then (s1.setReadUnit rd { r with tries := 1, eng := none, failed := r.eng }).wedgeRun r.quad
          else
            let s2 := (((s1.poisonCid r.cid 2).wedgeError r.quad code r.cid).irqBit (pgWedgeQ r.quad) 1).event (pgWedgeQ r.quad) 2
              (le 8 r.cid ++ le 1 code)
            (s2.setReadUnit rd { r with phase := .failed scUnrecovered, eng := none }).wedgeRun r.quad
      else s
    | none => s)

end Sys2Proof.Machine
end

