-- ==== Sys2Proof/Machine/Dciph.lean ====
section
/-! DEFINITION. DCIPH and the bring-in of data slots (R205, R207-R210). -/

namespace Sys2Proof.Machine

def pgDciphQ (q : Nat) : Nat := quadPage pgDCIPH q

/-- DCIPH errors (R210). -/
def deAbsent : Nat := 0x01
def deTenant : Nat := 0x02
def deGuard : Nat := 0x03
def deLocked : Nat := 0x04
def deIntegrity : Nat := 0x05

/-- The tweak of a unit (R208). -/
def xtsTweak (cid createSeq : Nat) : Nat := cid % 2 ^ 48 + createSeq % 2 ^ 64 * 2 ^ 64

/-- A unit of the write path fails: its command ends with Internal Error.
[DEDUCED: log entry 98] -/
def State.encryptFail (s : State) (u : Nat) (w : WareUnit) (code : Nat) : State :=
  (s.capture (pgDciphQ w.quad) code w.cid w.keySlot).loseUnit u w.cid scInternal

/-- A block of the read path fails. -/
def State.decryptFail (s : State) (rd : Nat) (r : ReadUnit) (code : Nat) : State :=
  (s.capture (pgDciphQ r.quad) code r.cid (s.cont r.cid).keySlot).setReadUnit rd
    { r with phase := .failed (if code = deLocked then scInternal else scUnrecovered) }

/-- DCIPH_ENCRYPT: the guard from Wedge is checked over the compressed form, the unit is encrypted, its guard is written again over the
ciphertext (R209), and it goes to the FTL. `arrived` is the compressed form, where it arrives altered.
[DEDUCED: log entry 98] -/
def State.encrypt (s : State) (u : Nat) (w : WareUnit) (arrived : Option (List Byte)) : State :=
  let r := s.keyRec w.keySlot
  if s.zeroized then s.encryptFail u w deLocked
  else if guard64 (arrived.getD w.form) ≠ w.guard then (s.bump (fDCIPH_GUARD_ERR w.quad)).encryptFail u w deGuard
  else if r.type ≠ 1 ∨ (s.sec.clearing.find w.keySlot).isSome then s.encryptFail u w deAbsent
  else if r.tenant ≠ w.tenant then s.encryptFail u w deTenant
  else match s.activeKey w.keySlot with
    | none => ((s.bump (fDCIPH_KEY_WAIT w.quad)).wantKey w.keySlot).setWareUnit u { w with phase := .keyWait }
    | some key =>
      let form := xtsEnc (key.take 32) (key.drop 32) (xtsTweak w.cid w.createSeq) (arrived.getD w.form)
      (((s.useKey w.keySlot).bump (fDCIPH_ENC_UNITS w.quad)).setWareUnit u { w with phase := .place, form := form, guard := guard64 form }).placeWare u

def execDciphEncrypt (unit : Nat) (arrived : Option (List Byte)) (s : State) : Res :=
  .next (match s.wareUnit unit with
    | some w => if w.phase = .encrypt ∧ s.working (pgDciphQ w.quad) then s.encrypt unit w arrived else s
    | none => s)

/-- DCIPH_DECRYPT. -/
def State.decrypt (s : State) (rd : Nat) (r : ReadUnit) : State :=
  let c := s.cont r.cid
  if s.zeroized then s.decryptFail rd r deLocked
  else if (s.keyRec c.keySlot).type ≠ 1 ∨ (s.sec.clearing.find c.keySlot).isSome then s.decryptFail rd r deAbsent
  else match s.activeKey c.keySlot with
    | none => ((s.bump (fDCIPH_KEY_WAIT r.quad)).wantKey c.keySlot).setReadUnit rd { r with phase := .keyWait }
    | some key =>
      let form := xtsDec (key.take 32) (key.drop 32) (xtsTweak r.cid c.createSeq) r.form
      (((s.useKey c.keySlot).bump (fDCIPH_DEC_UNITS r.quad)).setReadUnit rd { r with phase := .decode, form := form }).wedgeEngines r.quad

def execDciphDecrypt (rd : Nat) (s : State) : Res :=
  .next (match s.readUnit rd with
    | some r => if r.phase = .decrypt ∧ s.working (pgDciphQ r.quad) then s.decrypt rd r else s
    | none => s)

/-- What the units that wait for a slot do once it has been brought in, or has not. -/
def State.slotWaiters (s : State) (slot : Nat) (res : BringRes) : State :=
  let us := s.ware.units.filter (fun e => e.2.phase = .keyWait && e.2.keySlot = slot)
  let rs := s.ware.reads.filter (fun e => e.2.phase = .keyWait && (s.cont e.2.cid).keySlot = slot)
  match res with
  | .active =>
    rs.foldl (fun t e => t.setReadUnit e.1 { e.2 with phase := .decrypt })
      (us.foldl (fun t e => t.setWareUnit e.1 { e.2 with phase := .encrypt }) s)
  | .absent =>
    rs.foldl (fun t e => t.decryptFail e.1 e.2 deAbsent) (us.foldl (fun t e => t.encryptFail e.1 e.2 deAbsent) s)
  | .integrity =>
    rs.foldl (fun t e => t.decryptFail e.1 e.2 deIntegrity) (us.foldl (fun t e => t.encryptFail e.1 e.2 deIntegrity) s)

/-- KEY_SLOT_BRING_IN: a slot that a unit or a message waits for. While 4,096 slots are active and each is pinned or held, it waits (R205). -/
def execKeySlotBringIn (slot : Nat) (s : State) : Res :=
  .next (if s.sec.bringIn.contains slot ∧ s.working pgKEYS ∧ s.keyRoom then
      let b := s.bringInKey slot
      let s1 := b.1.slotWaiters slot b.2
      match s1.sec.gciph.seg with
      | some g => if g.slot = slot then s1.gcResume b.2 else s1
      | none => s1
    else s)

end Sys2Proof.Machine
end

