-- ==== Sys2Proof/Machine/Tamp.lean ====
section
/-! DEFINITION. Tamper response (R215, R216). -/

namespace Sys2Proof.Machine

/-- A reading that warns (R215): in mV, in units of 10 kHz, or in 0.1 °C with a sign. The mesh has no warning. -/
def tampWarns (sensor reading : Nat) : Bool :=
  match sensor with
  | 0 => decide (reading < 670) || decide (890 < reading)
  | 1 => decide (reading < 760) || decide (840 < reading)
  | 2 => decide (reading < 710) || decide (790 < reading)
  | 3 => decide (reading < 9900) || decide (10100 < reading)
  | 4 => decide (1100 < toSigned 16 reading)
  | _ => false

/-- A reading that alarms (R215). -/
def tampAlarms (sensor reading : Nat) : Bool :=
  match sensor with
  | 0 => decide (reading < 620) || decide (940 < reading)
  | 1 => decide (reading < 700) || decide (900 < reading)
  | 2 => decide (reading < 660) || decide (840 < reading)
  | 3 => decide (reading < 8000) || decide (12000 < reading)
  | 4 => decide (toSigned 16 reading < -400) || decide (1250 < toSigned 16 reading)
  | 5 => !reading.testBit 0
  | _ => false

/-- TAMPER_WARN: a sensor's warning, or the alarm of a class-W sensor, with its reading; a reading inside the sensor's window does neither.
[DEDUCED: log entry 98, 113] -/
def execTamperWarn (sensor reading : Nat) (alarm : Bool) (s : State) : Res :=
  .next (if 6 ≤ sensor ∨ (alarm ∧ (s.fld fTAMP_CLASS).testBit sensor) ∨ !(if alarm then tampAlarms sensor reading else tampWarns sensor reading) then s
    else
      let s1 := (s.setFld (fTAMP_READING sensor) reading).setFld fTAMP_WARN (s.fld fTAMP_WARN ||| 2 ^ sensor)
      let s2 := if alarm then { s1 with sec.tamp.latch := s1.sec.tamp.latch ||| 2 ^ sensor } else s1
      (s2.irqBit pgTAMP 0).event pgTAMP 1
        (le 1 sensor ++ le 1 (b2n alarm) ++ le 2 reading ++ le 1 (s2.fld fTAMP_WARN)))

/-- What zeroization destroys, and the state it leaves (R216). In array mode every data command fails.
[DEDUCED: log entry 113] -/
def State.zeroize (s : State) : State :=
  let s1 := { s with
    sec.keks := [], sec.active := [], sec.clock := [], sec.clockRef := [], sec.assocKeys := [], sec.bodyKey := []
    sec.tamp.zeroized := true, ldt.holding := [] }
  let s2 := (s1.markZeroize).gcEnd 6
  let s3 := { s2 with sec.gciph := { s2.sec.gciph with lock := .locked, owner := 0, busy := false } }
  let s4 := (s3.ware.units.filter (fun e => e.2.phase = .keyWait)).foldl (fun t e => t.encryptFail e.1 e.2 deLocked) s3
  let s5 := (s4.ware.reads.filter (fun e => e.2.phase = .keyWait)).foldl (fun t e => t.decryptFail e.1 e.2 deLocked) s4
  let s6 := { s5 with sec.bringIn := [] }
  let s6 := if s6.arrayMode then s6.endCmds scInternal (fun c => c.phase = .admitted && !ocSoftware.contains c.opc && c.opc ≠ ocFlush) else s6
  (s6.ldt.assoc.filter (fun e => e.2.state = .isOpen || e.2.state = .closing)).foldl (fun t e => t.assocFail e.1 3) s6

/-- TAMPER_ALARM: an alarm of a class-Z sensor. `zeroTime` is the ns that the zeroization takes, at most 2,000. An alarm that arrives while a
zeroization runs is recorded in TAMP.LATCH only.
[DEDUCED: log entry 113] -/
def execTamperAlarm (sensor reading zeroTime : Nat) (s : State) : Res :=
  .next (if 6 ≤ sensor ∨ !(s.fld fTAMP_CLASS).testBit sensor ∨ !tampAlarms sensor reading then s
    else
      let s1 := { s.setFld (fTAMP_READING sensor) reading with sec.tamp.latch := s.sec.tamp.latch ||| 2 ^ sensor }
      if s.now < s.sec.tamp.zeroEnd then s1
      else
        let z := min 2000 zeroTime
        let s2 := ({ s1 with sec.tamp.zeroTime := z, sec.tamp.zeroEnd := s.now + z }.zeroize).irqBit pgTAMP 1
        s2.event pgTAMP 2 (le 1 sensor ++ zeros 1 ++ le 2 reading ++ le 1 s2.sec.tamp.latch ++ zeros 1 ++ le 2 z))

end Sys2Proof.Machine
end

