-- ==== Sys2Proof/Machine/BlockOps.lean ====
section
/-! DEFINITION. How the work of a block ends when the block is reset, faults or loses its domain; crossing errors and paired resets; and
errors that are fatal to the chip (R35-R37, R45, R159, R202, R444, R445, R467, R469, R470). -/

namespace Sys2Proof.Machine

/-! ### Crossing errors (R37) -/

/-- An island. -/
def State.island (s : State) (i : Nat) : Island := s.plat.islands.get {} i
def State.setIsland (s : State) (i : Nat) (v : Island) : State := { s with plat.islands := s.plat.islands.put {} i v }

/-- A crossing of an island, and its key. -/
def crossKey (i k : Nat) : Nat := 32 * i + k
def State.crossing (s : State) (i k : Nat) : Crossing := s.plat.crossings.get {} (crossKey i k)
def State.setCrossing (s : State) (i k : Nat) (v : Crossing) : State := { s with plat.crossings := s.plat.crossings.put {} (crossKey i k) v }

/-- A chip-fatal error: the first since the start is recorded, and admission stops (R445). With FATAL_RESTART = 1 a warm restart of
cause 5 is asked for. -/
def State.chipFatal (s : State) (code : Nat) : State :=
  let s1 := s.irqBit pgCHIP 1
  if s.plat.chip.fatal ≠ 0 then s1
  else
    let s2 := { s1 with plat.chip.fatal := code, plat.chip.admissionStopped := true, plat.chip.fatalHold := true }
    if s.fld fCHIP_FATAL_FATAL_RESTART = 1 ∧ s.plat.chip.restartReq.isNone then { s2 with plat.chip.restartReq := some 5 } else s2

/-- A crossing error: it is recorded, counted and flagged, and goes to the requester.
[DEDUCED: log entry 62] -/
def State.xeError (s : State) (i k code : Nat) : State :=
  let s1 := s.setReg rXING_LAST_FAULT (BitVec.ofNat 32 (code * 2 ^ 16 + k * 2 ^ 8 + i))
  let s2 := (s1.bump fXING_FAULT_CNT_COUNT).bump (fXING_ISL_ERR_CNT_COUNT i)
  let s3 := ((s2.capture pgXING code (k * 2 ^ 8 + i) 0).irqBit pgXING (code - 1)).emit (.crossErr i k code)
  if (code = 1 ∨ code = 2) ∧ (i = 21 ∨ i = 24) then s3.chipFatal 2 else s3

/-- A handshake ends with a crossing error: a core's access takes a bus-error exception, an engine's block captures it (R37).
[DESIGN CHOICE: log entry 127] -/
def State.xeFails (s : State) (i k code : Nat) (engine : Option Nat) : State :=
  match engine with
  | none => (s.xeError i k code).emit .busError
  | some p => ((s.xeError i k code).capture p code (k * 2 ^ 8 + i) 0).emit (.engineErr p code)

/-- The handshake that a crossing holds ends with a crossing error. -/
def State.heldFails (s : State) (i code k : Nat) : State :=
  match (s.crossing i k).waiting with
  | some w => (s.setCrossing i k { s.crossing i k with waiting := none }).xeFails i k code w.engine
  | none => s

/-! ### Units on the ware lanes (R202, R467) -/

/-- A write-path unit ends as a failed local copy. -/
def State.unitStops (s : State) (u : Nat) : State :=
  match s.wareUnit u with
  | none => s
  | some w =>
    let s1 := match s.nvf.cmds.find w.cmd with
      | some c => if c.phase = CmdPhase.admitted ∧ !c.committed then s.localFail w.cmd c else s
      | none => s
    match s1.wareUnit u with
    | some x => if x.cid ≠ 0 then s1.loseUnit u x.cid scInternal else (s1.dropPend u).delWareUnit u
    | none => s1

/-- The block of the ware lanes that a unit lies in, by its broadcast page. -/
def UnitPhase.block : UnitPhase → Nat
  | .mark => pgMARK
  | .lookup _ | .pend _ | .pinned | .probe | .confirm | .verify => pgGROG
  | .compress | .check => pgWEDGE
  | .encrypt | .keyWait => pgDCIPH
  | .place | .placed | .done => 0

def ReadPhase.block : ReadPhase → Nat
  | .decrypt | .keyWait => pgDCIPH
  | .decode => pgWEDGE
  | .fetch | .repair | .done | .failed _ => 0

/-- The units that lie in a block of quadrant `q` end. -/
def State.laneStops (s : State) (blk q : Nat) : State :=
  let us := (s.ware.units.filter (fun e => e.2.quad = q && e.2.phase.block = blk)).map Prod.fst
  let s1 := us.foldl State.unitStops s
  let rs := s1.ware.reads.filter (fun e => e.2.quad = q && e.2.phase.block = blk)
  rs.foldl (fun t e => t.setReadUnit e.1 { e.2 with phase := .failed scPowered }) s1

/-! ### The work of each block (R467) -/

/-- Why work ends. -/
inductive StopCause where
  | reset | fault | powered
  deriving DecidableEq, Repr

/-- The status of an NVMe command that ends so. -/
def StopCause.nvme : StopCause → Nat
  | .powered => scPowered
  | .reset | .fault => scInternal

/-- RGN releases what it admitted (R470).
[DESIGN CHOICE: log entry 111] -/
def State.rgnStops (s : State) : State :=
  let s1 := s.ldt.ext.foldl (fun t e =>
    let mine := e.2.tgtOps.filter (fun o => o.2.holds.isSome || o.2.nq.isSome)
    let t1 := mine.foldl (fun u o => u.releaseTgt o.2) t
    t1.modAx e.1 (fun x => { x with tgtOps := x.tgtOps.filter (fun o => o.2.holds.isNone && o.2.nq.isNone) })) s
  let s2 := { s1 with rgn.held := [], rgn.reserved := [] }
  s2.rgn.regions.foldl (fun t e => t.revokeDone e.1) s2

/-- Every queued frame of the switch ends, every cell is free, and each multicast write in flight is Not delivered anywhere (R152). -/
def State.swStops (s : State) : State :=
  let s1 := s.nvf.cmds.foldl (fun t e => if e.2.phase = .admitted ∧ e.2.writes then
    ((t.notDelivered e.1 0).notDelivered e.1 1).notDelivered e.1 2 else t) s
  { s1 with sw.frames := [], sw.queues := [], sw.deficit := [], sw.turn := [], sw.charged := [], sw.ovfPosted := false, sw.cfg.lowered := [] }

/-- The merging buffer empties into HBM. -/
def State.mbFlush : Nat → State → State
  | 0, s => s
  | f + 1, s => if s.mem.mb.isEmpty then s else State.mbFlush f (s.mbDrain false)

/-- The cores of a cluster stop and lose their state; its scratch goes with its memory. -/
def State.cluStops (s : State) (c : Nat) : State := { s with plat.clus := s.plat.clus.put {} c {} }

/-- The operations of a module link end, those that wait among them. -/
def State.linkStops (s : State) (m : Nat) : State :=
  let waits := (s.link m).waitOps
  let s1 := (s.modLink m (fun l => { l with waitOps := [] })).linkReset m
  waits.foldl (fun t w => t.opFails m w.1) s1

/-- The stream engine that serves a context: its half is the context's parity.
[DEDUCED: log entry 73] -/
def segOf (ctx : Nat) : Nat := 8 * (ctx % 2) + ctx / 2 % 8

/-- An admitted command has a unit or a block in the FTL or at PAR. -/
def State.inBackEnd (s : State) (key : Nat) : Bool :=
  s.ware.units.any (fun e => e.2.cmd = key && (e.2.phase = .place || e.2.phase = .placed))
    || s.ware.reads.any (fun e => e.2.cmd = key && (e.2.phase = .fetch || e.2.phase = .repair))

/-- NVMe commands whose processing lies in the block of page `p`, where no chapter says how they end (R467).
[DEDUCED: log entry 61] -/
def State.nvmeIn (s : State) (p key : Nat) (c : NvCmd) : Bool :=
  if blkTypeOf p = pgSEG 0 then c.phase = .admitted && !c.connect && segOf c.ctx = blkInstOf p
  else if p = pgLMAP then c.phase = .admitted && !c.connect
  else if p = pgSAG then c.phase = .admitted && c.writes
  else if p = pgFTL ∨ p = pgPAR then c.phase = .admitted && s.inBackEnd key
  else if p = pgQOS then c.phase = .held
  else false

/-- Those commands end. -/
def State.nvmeStops (s : State) (c : StopCause) (p : Nat) : State :=
  (s.nvf.cmds.filter (fun e => s.nvmeIn p e.1 e.2 && !e.2.committed)).foldl (fun t e =>
    match t.nvf.cmds.find e.1 with
    | some x => if x.phase = .admitted then t.failCmd e.1 c.nvme else t.endCmd e.1 c.nvme
    | none => t) s

/-- KEYS stops (R467): the units that wait for a slot fail as for an internal error, and so does a message of GCIPH that waits for one.
[DEDUCED: log entry 61] -/
def State.keysStops (s : State) : State :=
  let us := (s.ware.units.filter (fun e => e.2.phase = .keyWait)).map Prod.fst
  let s1 := us.foldl State.unitStops s
  let rs := s1.ware.reads.filter (fun e => e.2.phase = .keyWait)
  let s2 := rs.foldl (fun t e => t.setReadUnit e.1 { e.2 with phase := .failed scInternal }) s1
  let s3 := if s2.sec.gciph.seg.isSome then s2.gcEnd 5 else s2
  { s3 with sec.clearing := [], sec.bringIn := [] }

/-- SYSC stops (R467): the merging buffer empties into HBM, and every access that still waits is answered with its requester's error.
[DEDUCED: log entry 61] -/
def State.syscStops (s : State) : State :=
  let s1 := State.mbFlush (s.mem.mb.length + s.mem.held.length + 1) s
  let waits := (s1.mem.lines.flatMap (fun e => e.2.waits.map (fun w => (w.addr, w.core)))) ++ s1.mem.held.map (fun h => (h.addr, h.core))
  waits.foldl (fun t w => t.emit (if w.2 then .busError else .hbmError w.1 false))
    { s1 with mem.lines := [], mem.lru := [], mem.jobs := [], mem.held := [] }

/-- The work of the block of page `p` ends, but for its commands. -/
def State.ownWorkStops (s : State) (c : StopCause) (p : Nat) : State :=
  let q := blkInstOf p
  if isQuadrant p then
    let s1 := s.laneStops (blkTypeOf p) q
    if blkTypeOf p = pgMARK then (s1.markLose q).markWaiters
    else if blkTypeOf p = pgWEDGE then (if c = .fault then s1.setWedgeQuad q {} else s1.jobsAbort q)
    else s1
  else if p = pgLDT then s.ldt.assoc.foldl (fun t e => if t.assocLive e.1 then t.assocFail e.1 4 else t) s
  else if p = pgCTX then { s.ctx.resident.foldl State.writeHome s with ctx.resident := [], ctx.refbits := [], ctx.missq := [] }
  else if p = pgRGN then s.rgnStops
  else if p = pgNVTCP then s.conns.foldl (fun t e => t.closeConn e.1) s
  else if p = pgNVF then s.endCmds c.nvme (fun _ => true)
  else if p = pgSW then s.swStops
  else if p = pgSYSC then s.syscStops
  else if p = pgGCIPH then
    let t := s.gcStops
    { t with sec.gciph.busy := false, sec.gciph.arm := false }
  else if p = pgKEYS then s.keysStops
  else if p = pgSLIP then s.slip.reps.foldl (fun t e => if e.2.role = 1 then t.slipAssocLost e.1 else t) s
  else if p = pgSVC then { s with svc := {} }
  else if p = pgUPD then { s with upd.job := none, upd.stageWait := none, upd.st := if s.upd.stageWait.isSome then .verified else s.upd.st }
  else if blkTypeOf p = pgCLU 0 then s.cluStops q
  else if blkTypeOf p = pgHPORT 0 then s.clearHold (· = p)
  else if blkTypeOf p = pgPLINK 0 then (s.clearHold (· = p)).memberDown q
  else if blkTypeOf p = pgMLINK 0 then s.linkStops q
  else s.nvmeStops c p

/-- The commands that run for page `p` end with 0xFF04. -/
def State.commandsStop (s : State) (p : Nat) : State :=
  (s.plat.evt.running.filter (fun e => e.2.page = p)).foldl (fun t e => t.finishRunning e.1 0 stEnded) s

/-- The work of the block of page `p` ends. -/
def State.workStops (s : State) (c : StopCause) (p : Nat) : State := (s.ownWorkStops c p).commandsStop p

/-- A configuration in force returns to its reset values with its block's registers.
[DEDUCED: log entry 96] -/
def State.configResets (s : State) (p : Nat) : State :=
  if p = pgBUF then { s with sw.cfg := {} }
  else if p = pgLDT then { s with ldt.hsCount := 0 }
  else if p = pgNVF then { s with nvf.poolMib := ({} : NvfSt).poolMib, nvf.window := [] }
  else if p = pgFTL then
    let d : BackSt := {}
    { s with back.openMax := d.openMax, back.pMin := d.pMin, back.pMax := d.pMax, back.mpdLimit := d.mpdLimit }
  else if p = pgSAG then
    let d : BackSt := {}
    { s with back.sizeMib := d.sizeMib, back.dataMib := d.dataMib, back.deltaMib := d.deltaMib }
  else s

/-- The registers of page `p` take their reset values.
[DEDUCED: log entry 61] -/
def State.regsReset (s : State) (p : Nat) : State :=
  { s with regs := s.regs.filter (fun e => e.1 / 0x10000 ≠ p) }.configResets p

/-! ### Paired resets (R35, R36) -/

/-- The island that a block owns.
[DESIGN CHOICE: log entry 105] -/
def islandOfPage (p : Nat) : Option Nat :=
  let q := blkInstOf p
  if blkTypeOf p = pgHPORT 0 then some (q + 1)
  else if blkTypeOf p = pgPLINK 0 then some (9 + q / 2)
  else if blkTypeOf p = pgMLINK 0 then some (11 + q / 4)
  else none

/-- Pairs that only PORST_N resets. -/
def fixedPair (i : Nat) : Bool := i = 21 || i = 23 || i = 24 || i = 25

/-- The module links of an island. -/
def linksOf (i : Nat) : List Nat := if 11 ≤ i ∧ i ≤ 16 then (List.range 4).map (fun k => 4 * (i - 11) + k) else []

/-- A pair reset begins: outstanding handshakes end with XE_IN_RESET, and the links of the island end.
[DESIGN CHOICE: log entry 105, 127] -/
def State.pairStart (s : State) (i : Nat) : State :=
  if fixedPair i then s.bump (fXING_ISL_ERR_CNT_COUNT i)
  else
    let s1 := (List.range 32).foldl (fun t k => t.heldFails i 4 k) s
    let s2 := s1.setIsland i { s1.island i with inReset := true }
    let s3 := (linksOf i).foldl (fun t m =>
      (t.linkEnd m).modLink m (fun l => { l with unacked := [], replays := 0, txSeq := 0, rxSeq := 0, stream := [], txWait := [] })) s2
    if i = 9 ∨ i = 10 then (s3.memberDown (2 * (i - 9))).memberDown (2 * (i - 9) + 1) else s3

/-- Both sides release together, with every toggle at 0 and every count at 0; the links of the island train.
[DESIGN CHOICE: log entry 127] -/
def State.pairRelease (s : State) (i : Nat) : State :=
  if (s.island i).inReset then
    let s1 := { s.setIsland i { s.island i with inReset := false } with
      plat.crossings := s.plat.crossings.filter (fun e => e.1 / 32 ≠ i) }
    (linksOf i).foldl State.linkStart s1
  else s

/-! ### Block reset (R45, R46, R339, R442) -/

/-- The pages whose reset is refused. -/
def resetRefused : List Nat :=
  [pgCHIP, pgPWR, pgAON, pgSTORE, pgTIME, pgXING, pgTSENS, pgEVT, pgIRQR, pgTAMP]

/-- The blocks whose reset is refused in every state but Idle, and whose Fault is fatal to the chip. -/
def resetIdleOnly : List Nat := [pgLMAP, pgMOULD, pgFTL, pgPUG, pgPAR, pgSAG, pgRBLD, pgPEERCTL]

/-- The other module links of the group let the group be reset. -/
def State.groupStill (s : State) (m : Nat) : Bool :=
  (List.range 4).all (fun k =>
    let n := 4 * (m / 4) + k
    n = m || s.blk (pgMLINK n) = .idle || s.blk (pgMLINK n) = .quiesced || s.blk (pgMLINK n) = .off)

def State.mayReset (s : State) (p : Nat) : Bool :=
  !resetRefused.contains p && (!resetIdleOnly.contains p || s.blk p = .idle)
    && (blkTypeOf p ≠ pgMLINK 0 || s.groupStill (blkInstOf p))

/-- A block is reset: its work ends, its registers and its header take their reset values, and it is Idle.
[DEDUCED: log entry 61] -/
def State.resetBlock (s : State) (c : StopCause) (p : Nat) : State :=
  ((s.workStops c p).regsReset p).setPage p { resetting := true }

/-- RESET = 1 is written. -/
def State.writeReset (s : State) (p : Nat) : State :=
  if s.mayReset p then
    match islandOfPage p with
    | some i => (s.pairStart i).resetBlock .reset p
    | none => s.resetBlock .reset p
  else s.capture p 0xF0 0 0

/-- The reset has finished: RESET reads 0.
[DEDUCED: log entry 61] -/
def State.resetEnds (s : State) (p : Nat) : State :=
  let s1 := s.modPage p (fun g => { g with resetting := false })
  let s2 := match islandOfPage p with
    | some i => s1.pairRelease i
    | none => s1
  if blkTypeOf p = pgMARK ∧ isQuadrant p then (s2.markReturn (blkInstOf p)).markWaiters else s2

/-! ### Fault (R444, R445) -/

/-- An uncontained internal error. -/
def State.blockFaults (s : State) (p a b : Nat) : State :=
  let s1 := ((s.workStops .fault p).capture p 0xF4 a b).stateChange p .fault
  let s2 := s1.irqBit pgCHIP 0
  if resetIdleOnly.contains p then s2.chipFatal 1 else s2

end Sys2Proof.Machine
end

