-- ==== Sys2Proof/Machine/Restart.lean ====
section
/-! DEFINITION. The three starts: what a power-on reset, a Cold wake and a warm restart reset and keep, the hardware settings, and
the boot ROM (R407, R428, R431-R441, R446). -/

namespace Sys2Proof.Machine

/-- The three starts (R441). -/
inductive StartKind where
  | power | cold | warm
  deriving DecidableEq, Repr

/-! ### What is kept (R407, R440, R441) -/

/-- The pages that a start does not reset. -/
def StartKind.keptPages : StartKind → List Nat
  | .warm => [pgTIME, pgTSENS, pgSVC, pgBOARD, pgDBG, pgSTORE, pgKEYS, pgGCIPH, pgTAMP]
  | .cold => [pgTIME, pgPWR, pgKEYS, pgGCIPH, pgTAMP]
  | .power => []

/-- Registers that a warm restart reloads from always-on memory although it resets their block. -/
def warmRegs : List Nat := [rUPD_CFG, rUPD_SETTINGS_POLICY, rCHIP_FATAL]

/-- The islands whose crossings a start leaves as they are. -/
def StartKind.keepsIsland : StartKind → Nat → Bool
  | .warm, i => decide (20 ≤ i)
  | .cold, i => fixedPair i
  | .power, _ => false

/-- EVT: the sequences and the epoch. -/
def EvtSt.restarted (k : StartKind) (e : EvtSt) : EvtSt :=
  match k with
  | .warm => { e with running := [], seqStop := false, started := false, startReason := 1 }
  | _ => { epoch := e.epoch + 1 }

/-- STORE: the banks and the control area. -/
def StoreSt.restarted (k : StartKind) (e : StoreSt) : StoreSt :=
  match k with
  | .warm => e
  | _ => { rows := e.rows, torn := e.torn, bootBank := e.bootBank }

/-- CHIP. Always-on memory holds what R440 names; the mode in force stays until the settings are read again. -/
def ChipSt.restarted (k : StartKind) (cause : Nat) (c : ChipSt) : ChipSt :=
  let base : ChipSt := { resetCause := cause, shelf := c.shelf, heads := c.heads, headId := c.headId, porstLow := false, env := c.env }
  match k with
  | .warm => { base with warmCount := min 65535 (c.warmCount + 1), runEn := c.runEn, timeoutS := c.timeoutS }
  | _ => base

/-- GCIPH in PD1: a Held lock returns to Free at a warm restart. -/
def GciphSt.restarted (g : GciphSt) : GciphSt :=
  match g.lock with
  | .locked => { lock := .locked }
  | _ => {}

/-- KEYS, GCIPH and TAMP. The wrapped records lie in HBM.
[DEDUCED: log entry 63] -/
def SecSt.restarted (k : StartKind) (e : SecSt) : SecSt :=
  match k with
  | .power => {}
  | .cold => { e with recs := [], clearing := [], bringIn := [] }
  | .warm => { keks := e.keks, bodyKey := e.bodyKey, tamp := e.tamp, gciph := e.gciph.restarted }

/-- Tallies: the sequences and the open-minute counts. -/
def TenSt.restarted (k : StartKind) (e : TenSt) : TenSt :=
  match k with
  | .warm =>
    let sets := e.sets.map (fun x => (x.1, { x.2 with start := false, overrun := false, retry := [] }))
    { counts := e.counts, minute := e.minute, opened := e.opened, sets := sets }
  | _ => {}

/-- UPD: the boot flash, the control area of the settings store, and the revoked keys in their fuses. -/
def UpdSt.restarted (u : UpdSt) : UpdSt :=
  { slotA := u.slotA, slotB := u.slotB, activeB := u.activeB, trial := u.trial, tries := u.tries, boots := u.boots, policy0 := u.policy0
    st := match u.st with
      | .activating => .activating
      | _ => .idle
    floor := u.floor, revoked := u.revoked, fellCause := u.fellCause, bridges := u.bridges }

/-- A replica entry (R237): what it did is cut short, as by the loss of its association. -/
def Replica.restarted (r : Replica) : Replica :=
  let x := { r with queue := [], sent := [], out := [], kinds := [], making := none, finalSeq := none, todo := [], reading := none, hold := false, arrived := [], inAir := []
                    overs := [], needed := none, promote := none, statusOut := none, shipCmd := none }
  if r.role = 1 ∧ r.st = rsShipping then { x with st := rsPaused }
  else if r.role = 1 ∧ (r.st = rsInSync ∨ r.st = rsResync) then { x with st := if r.degrade then rsDegraded else rsFenced }
  else x

/-- GROG: the hot tier and the unmerged records do not outlive a restart.
[DEDUCED: log entry 63] -/
def GrogSt.restarted (g : GrogSt) : GrogSt :=
  { doms := g.doms.map (fun e => (e.1, { e.2 with purge := none })), fidx := g.fidx, dir := g.dir, mergeSeq := g.ckptMerge, ckptMerge := g.ckptMerge
    mergeCap := some g.ckptMerge }

/-! ### The back end: what flash holds (R268, R355, R438) -/

/-- A segment after a restart: what its complete rows hold. An open segment is closed early; a move, a release or an erase whose commit unit
flash does not know has not happened (R291). A segment keeps its journal checkpoint when it was being written and the Saggar log is `lost`
with this head (R311). -/
def Segment.restarted (v : Segment) (seq : Nat) (lost : Bool) : Segment :=
  let us := (v.units.filter (fun u => v.rowDone u.row && u.src.isNone)).map (fun u => { u with dead := u.dead && decide (3 ≤ u.kind), verified := false })
  { v with
    st := if v.st = 1 then 2 else if (v.st = 4 ∨ v.st = 5) ∧ seq < v.releaseSeq then 3 else if v.st = 5 ∧ seq < v.eraseSeq then 4 else v.st
    earlyClose := v.earlyClose || decide (v.st = 1)
    jwin := if lost && (v.st = 1 || !v.progs.isEmpty) then v.jwin else none
    units := us, used := 0, medium := false, progs := [], unparsed := [] }

/-- The blocks of a segment whose Erasing record flash does not know: their erases are not counted (R288). -/
def Segment.uncounted (v : Segment) (seq : Nat) : List Nat :=
  if v.st = 5 ∧ seq < v.eraseSeq then v.posBlocks.map (fun b => blockKey b.1 b.2) else []

/-- A stripe group after a restart. -/
def Group.restarted (x : Group) : Group :=
  { x with level := 0, hold := false, reclaim := [], victims := [], rebuilding := none, noSpare := false, lowPosted := false, pslcOver := false }

/-- The back end after a restart, with the maps of the mode in force. A segment that is Reclaiming is a victim again (R291).
[DESIGN CHOICE: log entry 30] -/
def BackSt.restarted (b : BackSt) (f : FlashMaps) (lost : Bool) : BackSt :=
  let segs := b.segs.map (fun e => (e.1, e.2.restarted f.image.commitSeq lost))
  let less := b.segs.flatMap (fun e => e.2.uncounted f.image.commitSeq)
  let again := match b.ckpt with
    | some c => c.todo ++ c.pages.map Prod.fst
    | none => []
  { segs := segs
    blocks := b.blocks.map (fun e => (e.1, if less.contains e.1 then { e.2 with erases := e.2.erases - 1 } else e.2))
    groups := b.groups.map (fun e => (e.1, { e.2.restarted with
      victims := (segs.filter (fun x => x.2.st = 3 && x.2.group = e.1)).map Prod.fst }))
    ckptPages := again.foldl (fun t k => t.ins k true) b.ckptPages
    anchors := b.anchors, anchorLast := b.anchorLast, jblocks := b.jblocks
    mlog := f.mlog, mlogTop := b.mlogTop, mlogCons := f.mlogCons
    mems := b.mems.map (fun e => (e.1, { e.2 with offCmd := none }))
    pageLoc := f.pageLoc, ckptLoc := f.ckptLoc, ckptCount := f.ckptCount, ckptSegs := f.ckptSegs, ckptSeq := f.ckptSeq
    deltaDone := f.deltaDone, dumps := b.dumps, stash := b.stash
    hist := if f.image.commitSeq = 0 then [] else [(f.image.commitSeq, f.image)] }

/-- The live grains of every segment are counted again. -/
def State.revalue (s : State) : State :=
  { s with back.segs := s.back.segs.map (fun e =>
      (e.1, { e.2 with valid := (e.2.units.filter (s.unitLive e.1)).foldl (fun n u => n + u.grains) 0 })) }

/-- FTL reads what flash holds. `lost` tells that the Saggar log of the time before is lost. -/
def State.flashLoad (s : State) (f : FlashMaps) (lost : Bool) : State :=
  ({ s with lmap := f.image, back := s.back.restarted f lost } : State).revalue

/-- Power went while a dump was being written (R291, R312, R314): it ends at some commit unit, with what the units up to that one had in
flight.
[DESIGN CHOICE: log entry 138] -/
def State.dumpCut (s : State) : State :=
  match s.back.dumping with
  | none => s
  | some set =>
    let f := s.freeNat
    let ck := s.reg64 rFTL_CKPT_SEQ
    let last := if s.lmap.commitSeq ≤ ck then ck else ck + f.1 % (s.lmap.commitSeq + 1 - ck)
    let img := ((s.back.hist.filter (fun e => decide (ck < e.1) && decide (e.1 ≤ last))).getLast?).map Prod.snd
    let us := match img with
      | some m => ({ s with lmap := m } : State).dumpUnits
      | none => []
    { f.2 with back.dumps := f.2.back.dumps.map (fun d => if d.set = set then
        { d with lastComplete := last, image := img, units := us, bytes := s.dumpBytes us.length, log := s.logInUse, mirror := s.dumpMirror } else d) }

/-- The Saggar log of before a start is lost: no unreleased dump holds it, and the mirror is not Healthy (R311). -/
def State.logLost (s : State) : Bool := s.newestDump.isNone && decide (s.mirror ≠ msHealthy)

/-! ### The reset (R439 step 5, R441) -/

/-- The commands that run have no completion of their own any more.
[DEDUCED: log entry 63] -/
def State.allCommandsStop (s : State) : State := s.plat.evt.running.foldl (fun t e => t.finishRunning e.1 0 stEnded) s

/-- A running store operation is cut off by PORST_N (R65, R457): each row that it writes holds the old content or the new, or is torn;
the boot bank is the old or the new.
[DEDUCED: log entry 66] -/
def State.storeCut (s : State) (writes : List (Nat × Nat)) (bank : Option Nat) : State :=
  let s1 := writes.foldl (fun t w =>
    let f := t.freeNat
    match f.1 % 3 with
    | 0 => f.2
    | 1 => { f.2 with plat.store.rows := f.2.plat.store.rows.put 0 w.1 w.2, plat.store.torn := f.2.plat.store.torn.filter (· ≠ w.1) }
    | _ => { f.2 with plat.store.torn := if f.2.plat.store.torn.contains w.1 then f.2.plat.store.torn else f.2.plat.store.torn ++ [w.1] }) s
  match bank with
  | some b =>
    let f := s1.freeNat
    if f.1 % 2 = 1 then { f.2 with plat.store.bootBank := b } else f.2
  | none => s1

/-- What a start resets, and what it keeps.
[DESIGN CHOICE: log entry 3] [DEDUCED: log entry 63] -/
def State.startReset (s0 : State) (k : StartKind) (cause coldCause : Nat) : State :=
  let s := if k = .warm then s0.gcStops else s0.dumpCut
  let kept := fun (p : Nat) => k.keptPages.contains p
  let f := s.flashMaps
  let new : State :=
    { pending := s.pending, free := s.free, out := s.out
      pages := s.pages.filter (fun e => kept e.1)
      regs := s.regs.filter (fun e => kept (e.1 / 0x10000) || (k = .warm && warmRegs.contains e.1))
      plat :=
        { evt := s.plat.evt.restarted k
          time := if k = .power then { refOn := s.plat.time.refOn } else s.plat.time
          store := s.plat.store.restarted k
          islands := s.plat.islands.filterMap (fun e =>
            let v : Island := { clkRun := e.2.refOn, refOn := e.2.refOn, inReset := k.keepsIsland e.1 && e.2.inReset }
            if v = {} then none else some (e.1, v))
          crossings := s.plat.crossings.filter (fun e => k.keepsIsland (e.1 / 32))
          pwr := { coldCause := if k = .cold then coldCause else 0, powerFail := k ≠ .power && s.plat.pwr.powerFail }
          aon := if k = .power then {} else s.plat.aon
          chip := s.plat.chip.restarted k cause
          pins := if k = .warm then s.plat.pins else { s.plat.pins with dbgCount := 0 } }
      mem := if k = .warm then { cells := s.mem.cells, bad := s.mem.bad, soft := s.mem.soft } else {}
      sec := s.sec.restarted k
      grog := s.grog.restarted
      slip := { reps := s.slip.reps.map (fun e => (e.1, e.2.restarted)) }
      ten := s.ten.restarted k
      peer := { home := s.peer.home, cidRuns := s.peer.cidRuns, treeRuns := s.peer.treeRuns }
      back := s.back
      svc := if k = .warm then s.svc else {}
      upd := s.upd.restarted }
  let s1 := new.flashLoad f s.logLost
  if k = .warm ∧ cause = 4 then s1.irqBit pgCHIP 2 else s1

/-! ### The hardware settings (R432, R433) -/

/-- The bytes of a row of the boot bank. -/
def State.bootRow (s : State) (r : Nat) : List Byte := le 64 (s.plat.store.rows.get 0 (65536 * s.plat.store.bootBank + r))

/-- What START_ERR a check of rows 0 and 1 gives; 0 for none. -/
def State.settingsErr (s : State) : Nat :=
  let a := s.bootRow 0
  let b := s.bootRow 1
  let mode := unLe (slice a 6 1)
  let heads := unLe (slice a 7 1)
  let id := unLe (slice a 8 1)
  if s.plat.store.torn.contains (65536 * s.plat.store.bootBank) ∨ s.plat.store.torn.contains (65536 * s.plat.store.bootBank + 1) then 1
  else if a.take 4 ≠ [0x48, 0x57, 0x53, 0x31] ∨ unLe (slice a 4 2) ≠ 1 ∨ 1 < mode ∨ heads = 0 ∨ 2 < heads ∨ 1 < id ∨ (id = 1 ∧ heads = 1)
    ∨ 1 < unLe (slice a 9 1) ∨ unLe (a.drop 10) ≠ 0 ∨ unLe (b.drop 0x28) ≠ 0 then 2
  else if mode = 0 ∧ heads = 1 then 3
  else 0

/-- The mode changes (R438): what flash holds of the other mode is set aside, and groups of the other mode are Foreign. -/
def State.switchMode (s : State) (shelf : Bool) : State :=
  if s.plat.chip.shelf = shelf then s
  else
    let old := b2n s.plat.chip.shelf
    let new := b2n shelf
    let groups := s.back.groups.map (fun e =>
      let own := e.2.foreign.getD old
      (e.1, { e.2 with foreign := if own = new then none else some own }))
    let f := s.back.stash.get {} new
    ({ s with
        plat.chip.shelf := shelf
        back := { s.back with groups := groups, stash := (s.back.stash.put {} old s.flashMaps).del new } } : State).flashLoad f false

/-- The settings take effect. In shelf mode MOULD and SLIP are Off (R10). -/
def State.loadSettings (s : State) : State :=
  let a := s.bootRow 0
  let b := s.bootRow 1
  let mac := unBe (b.take 6)
  let s1 := s.switchMode (decide (unLe (slice a 6 1) = 1))
  let s2 := { s1 with
    plat.chip.heads := unLe (slice a 7 1)
    plat.chip.headId := unLe (slice a 8 1)
    plat.chip.hbmTest := decide (unLe (slice a 9 1) = 1) }
  let s3 := (List.range 4).foldl (fun t n =>
    (List.range 4).foldl (fun u w => u.setReg (rPLINK_IP_ADDR n + 4 * w) (BitVec.ofNat 32 (unLe (slice b (8 + 4 * w) 4))))
      (t.setReg64 (rPLINK_MAC n) (mac + n))) s2
  let s4 := s3.setReg rPEERCTL_CFG (BitVec.ofNat 32 (unLe (slice b 6 2) * 2 ^ 16 + s3.plat.chip.heads * 2 ^ 8 + s3.plat.chip.headId))
  if s4.plat.chip.shelf then (s4.modPage pgMOULD (fun g => { g with st := .off })).modPage pgSLIP (fun g => { g with st := .off }) else s4

/-! ### The boot flash (R422) -/

/-- The active slot, and the staging slot. -/
def State.activeSlot (s : State) : Slot := if s.upd.activeB then s.upd.slotB else s.upd.slotA
def State.stagingSlot (s : State) : Slot := if s.upd.activeB then s.upd.slotA else s.upd.slotB

/-- A part entry of a directory. -/
structure PartEnt where
  part : Nat
  version : Nat
  off : Nat
  len : Nat
  iv : List Byte
  tag : List Byte
  digest : List Byte
  deriving DecidableEq, Repr

/-- Part entry `p - 1` of a directory. -/
def slotPart (x : Slot) (p : Nat) : PartEnt :=
  let e := slice x.dir (0x80 + 96 * (p - 1)) 96
  ⟨unLe (slice e 0 1), unLe (slice e 4 4), unLe (slice e 8 4), unLe (slice e 12 4), slice e 16 12, slice e 32 16, slice e 48 32⟩

/-- The additional authenticated data of a part's image. -/
def slotAad (x : Slot) (e : PartEnt) : List Byte := x.dir.take 0x80 ++ le 1 e.part ++ le 4 e.version

/-- The ciphertext of a part's image, as the flash holds it. -/
def slotImage (x : Slot) (e : PartEnt) : List Byte := (Tab.get [] x.images e.off).take e.len

/-- DIR_DIGEST holds. -/
def slotDirOk (x : Slot) : Bool := decide (x.dir.length = 4096) && sha256 (x.dir.take 0xFE0) = slice x.dir 0xFE0 32

/-- The body key in a slot's envelope (R419). No engine can use KEK 0 after zeroization (R216). -/
def State.slotKey (s : State) (x : Slot) : Option (List Byte) :=
  if s.zeroized then none else keyUnwrap Config.rootKey (slice x.dir 0x48 40)

/-- An image read from a slot: its plaintext, or the START_ERR of its rejection. -/
def loadImage (x : Slot) (key : List Byte) (bad : List (Nat × Bool)) (p : Nat) : Except Nat (List Byte) :=
  let e := slotPart x p
  if bad.contains (p, true) then .error 8
  else match gcmOpen key e.iv (slotAad x e) (slotImage x e) e.tag with
    | none => .error 8
    | some pt => if bad.contains (p, false) ∨ sha256 pt ≠ e.digest then .error 7 else .ok pt

/-- The parts that the boot ROM loads, in order. -/
def bootParts : List Nat := [1, 4, 6, 3, 2]

/-- The check of a slot's directory, envelope and images: 0, or the START_ERR. -/
def State.checkSlot (s : State) (x : Slot) (bad : List (Nat × Bool)) : Nat :=
  if !slotDirOk x then 6
  else match s.slotKey x with
    | none => 9
    | some key => (bootParts.findSome? (fun p => match loadImage x key bad p with
        | .error e => some e
        | .ok _ => none)).getD 0

/-- The fall-back of the boot ROM (R428): the old slot is active, not in trial, and with SETTINGS_POLICY = 0 the old bank is selected.
[DEDUCED: log entry 65] -/
def State.fallBack (s : State) (cause : Nat) : State :=
  { s with
    upd.activeB := !s.upd.activeB, upd.trial := false, upd.tries := 0, upd.fellCause := some cause
    plat.store.bootBank := if s.upd.policy0 then 1 - s.plat.store.bootBank else s.plat.store.bootBank }

/-! ### The start (R434-R436) -/

/-- The start stops. -/
def State.startStops (s : State) (stage err : Nat) : State := { s with plat.chip.stage := stage, plat.chip.startErr := err }

/-- Hart 0 is released at the boot ROM, and the start-up watchdog counts (R446). -/
def State.releaseHart (s : State) : State :=
  { s with plat.chip.hartHeld := false, plat.chip.stage := 2, plat.chip.wdogCounting := true, plat.chip.wdogFrom := s.now }

/-- UPD's state after a start. -/
def State.updState (s : State) : UpdState :=
  if s.upd.trial then .trial else if unLe (slice s.stagingSlot.dir 4 1) = 1 then .staged else .idle

/-- UPD finds its state: the start that an activation asked for enters Trial, and a fall-back leaves Idle (R423). -/
def State.updFinds (s : State) : State :=
  if s.upd.st = .activating ∧ s.updState = .trial then
    (({ s with upd.st := .trial } : State).irqBit pgUPD 0).event pgUPD 1 [4, 5, 0, 0]
  else { s with upd.st := if s.upd.fellCause.isSome then .idle else s.updState }

/-- The end of a start that reaches the firmware: UPD's state, and FELL_BACK. -/
def State.bootEnds (s : State) : State :=
  let s1 := ({ s with plat.chip.stage := 4, sec.bodyKey := [] } : State).updFinds
  let s2 : State := { s1 with upd.fellBack := s.upd.fellCause.isSome, upd.fellCause := none }
  match s.upd.fellCause with
  | some c => ((s2.bump fUPD_FALLBACKS).irqBit pgUPD 1).event pgUPD 3 (le 1 c)
  | none => s2

/-- HBM_TEST leaves each failing sector uncorrectable, and nothing of the old content (R434).
[DEDUCED: log entry 87] -/
def State.hbmTested (s : State) (bad : List Nat) : State :=
  if s.plat.chip.hbmTest then
    { s with mem.cells := [], mem.soft := [], mem.bad := (List.range (bad.foldl max 0 + 1)).filter (fun k => bad.contains k) }
  else s

/-- The images of the active slot are loaded; a trial slot that rejects one falls back, and the old slot is loaded. -/
def State.loadSlot (s : State) (bad : List (Nat × Bool)) : State :=
  let e := s.checkSlot s.activeSlot bad
  if e = 0 then s.bootEnds
  else if s.upd.trial then
    let s1 := s.fallBack 1
    let e1 := s1.checkSlot s1.activeSlot bad
    if e1 = 0 then s1.bootEnds else s1.startStops 15 e1
  else s.startStops 15 e

/-- The boot ROM from HBM training on (R434 steps 4-8, R436). -/
def State.bootRom (s : State) (env : BootEnv) : State :=
  if (List.range 3).any (fun n => !env.trains.getD n true) then s.startStops 15 10
  else
    let s1 := (List.range 3).foldl (fun t n =>
      ({ t with mem.hbmStacks := t.mem.hbmStacks.put {} n { t.stack n with trained := true } } : State)) (s.hbmTested env.testBad)
    if !env.sfdpOk then s1.startStops 15 5
    else if s1.upd.trial then
      (if s1.upd.boots ≤ s1.upd.tries then s1.fallBack 2 else { s1 with upd.tries := s1.upd.tries + 1 }).loadSlot env.badReads
    else s1.loadSlot env.badReads

/-- The boot flash as the start finds it.
[DESIGN CHOICE: log entry 64] -/
def State.findFlash (s : State) (env : BootEnv) : State :=
  match env.flash with
  | some (a, b) => { s with upd.slotA := a, upd.slotB := b }
  | none => s

/-- The links train as their domains, clocks and enables let them. -/
def State.linksStart (s : State) : State := (List.range 24).foldl State.linkStart s

/-- A fall-back that UPD asked for takes effect before the settings are read, so that the old slot finds its own (R428).
[DEDUCED: log entry 65] -/
def State.askedFallBack (s : State) : State :=
  match s.upd.trial, s.upd.fellCause with
  | true, some c => s.fallBack c
  | _, _ => s

/-- Steps 2-8 of R434. A stop at SETTINGS_ERROR still releases hart 0, and in a trial start counts as one (R433). The result says
whether the boot ROM asks for a warm restart.
[DEDUCED: log entry 65] -/
def State.boot (s : State) : State × Bool :=
  let env := s.plat.chip.env
  let s1 := (({ s with plat.chip.stage := 1 } : State).findFlash env).askedFallBack
  let e := s1.settingsErr
  if e ≠ 0 then
    let s2 := s1.linksStart.releaseHart.startStops 14 e
    if s2.upd.trial then
      if s2.upd.boots ≤ s2.upd.tries then (s2.fallBack 2, true) else ({ s2 with upd.tries := s2.upd.tries + 1 }, false)
    else (s2, false)
  else (s1.loadSettings.linksStart.releaseHart.bootRom env, false)

/-- A start of a kind, from its reset to where the boot ROM leaves it. A warm restart that the boot ROM asks for follows at once: its slot
is not in trial any more. -/
def State.start (s : State) (k : StartKind) (cause coldCause : Nat) : State :=
  match (s.startReset k cause coldCause).boot with
  | (s1, false) => s1
  | (s1, true) => (s1.startReset .warm 6 0).boot.1

/-! ### Warm restart (R439, R445) -/

/-- SAG is to write a dump before the restart. -/
def State.dumpWanted (s : State) : Bool := s.working pgSAG && !s.plat.chip.dumpDone

/-- Nothing that the restart waits for is left: the dump is complete and no store operation runs. A chip-fatal sequence without
FATAL_RESTART holds until a restart is requested. -/
def State.restartReady (s : State) : Bool :=
  s.plat.chip.restartReq.isSome && !s.dumpWanted && s.back.dumping.isNone && s.plat.store.busy.isNone

/-- The warm restart is carried out once it waits for nothing.
[DEDUCED: log entry 89] -/
def State.restartPump (s : State) : State :=
  match s.plat.chip.restartReq with
  | some c => if s.restartReady then (State.mbFlush (s.mem.mb.length + s.mem.held.length + 1) s.allCommandsStop).start .warm c 0 else s
  | none => s

/-- A warm restart is requested. The restart that ends a chip-fatal sequence has cause 5, whichever request starts it. -/
def State.requestRestart (s : State) (cause : Nat) : State :=
  let s1 := if s.plat.chip.restartReq.isSome then s
    else { s with plat.chip.restartReq := some (if s.plat.chip.fatal ≠ 0 then 5 else cause), plat.chip.admissionStopped := true }
  s1.restartPump

end Sys2Proof.Machine
end

