-- ==== Sys2Proof/Machine/Bridge.lean ====
section
/-! DEFINITION. UPD's rolling handling of the Brizan bridges: activation under parity, and its reversal (R341, R425, R428). -/

namespace Sys2Proof.Machine

/-- The P-BRIDGE entry of the staged package, its image, and whether the package names it; after a restart, whether it differs from the
active slot's. -/
def State.bridgePart (s : State) : PartEnt := slotPart s.stagingSlot 5
def State.bridgeImage (s : State) : Option (List Byte) :=
  match loadImage s.stagingSlot s.sec.bodyKey [] 5 with
  | .ok pt => some pt
  | .error _ => match s.slotKey s.stagingSlot with
    | some k => (match loadImage s.stagingSlot k [] 5 with
      | .ok pt => some pt
      | .error _ => none)
    | none => none
def State.bridgeNamed (s : State) : Bool :=
  if s.upd.header.isEmpty then decide (s.bridgePart.digest ≠ (slotPart s.activeSlot 5).digest)
  else (List.range (unLe (slice s.upd.header 6 2))).any (fun i => unLe (slice s.upd.header (0x60 + 128 * i) 1) = 5)

/-- A state change of UPD is posted. -/
def State.updMoves (s : State) (new : UpdState) (old : Nat) (newCode status : Nat) : State :=
  (({ s with upd.st := new } : State).irqBit pgUPD 0).event pgUPD 1 (le 1 old ++ le 1 newCode ++ le 2 status)

/-- The codes of UPD.STATE (R423). -/
def UpdState.code : UpdState → Nat
  | .idle => 0
  | .verified => 1
  | .staging => 2
  | .staged => 3
  | .activating => 4
  | .trial => 5
  | .failed => 6

/-- UPD's state becomes `new`. -/
def State.updGoes (s : State) (new : UpdState) (status : Nat) : State := s.updMoves new s.upd.st.code new.code status

/-- A failure of UPD: Failed, with the status as the error code and the part in INFO_A (R430). -/
def State.updFails (s : State) (status part : Nat) : State :=
  ((s.capture pgUPD status part 0).irqBit pgUPD 2).updGoes .failed status

/-- The steps of a module are over; the next module follows. -/
def BridgeJob.nextModule (j : BridgeJob) : BridgeJob := { j with todo := j.todo.drop 1, step := .offline, sent := false }

/-- A step of the handling goes on to the next one. -/
def State.jobTo (s : State) (j : BridgeJob) (st : BridgeStep) : State := { s with upd.job := some { j with step := st, sent := false } }

/-- A step of the handling failed: what the command activated is reverted; in a reversal the module is passed over. -/
def State.jobFails (s : State) (j : BridgeJob) : State :=
  if j.reverting then s.jobTo j .online
  else { s with upd.job := some { j with reverting := true, todo := j.activated, step := .offline, sent := false } }

/-- A firmware operation of UPD is sent to a link that can take it. -/
def State.jobSends (s : State) (j : BridgeJob) (m : Nat) (f : State → State) : State :=
  if (s.link m).st = lkUp ∧ s.runs (pgMLINK m) then
    f (({ s with upd.job := some { j with sent := true } } : State).modLink m (fun l => { l with jobRes := none }))
  else s.jobFails j

/-- The operation of a step has ended: on success `next`. -/
def State.jobAnswer (s : State) (j : BridgeJob) (m : Nat) (next : State → State) : Option State :=
  (s.link m).jobRes.map (fun st =>
    let s1 := s.modLink m (fun l => { l with jobRes := none })
    if st = stOk then next s1 else s1.jobFails j)

/-- The handling of all modules is over. -/
def State.jobEnds (s : State) (j : BridgeJob) : State :=
  let s1 : State := { s with upd.job := none }
  match j.fallBack with
  | some c => ({ s1 with upd.fellCause := some c, upd.bridges := [] } : State).requestRestart 6
  | none =>
    let s2 := if j.reverting then
        ({ s1 with upd.bridges := s1.upd.bridges.filter (fun m => !j.activated.contains m) } : State).updFails 0x0D 5
      else s1
    match j.cseq with
    | some q => s2.finishRunning q 0 (if j.reverting then 0x0D else stOk)
    | none => s2

/-- One step of the handling; none while it waits. -/
def State.bridgeStep (s : State) : Option State :=
  match s.upd.job with
  | none => none
  | some j =>
    match j.todo with
    | [] => some (s.jobEnds j)
    | m :: _ =>
      let x := s.member m
      match j.step with
      | .offline =>
        if !j.sent then
          if !j.reverting ∧ s.fld (fMLINK_FW_VER_RUNNING m) = s.bridgePart.version then some { s with upd.job := some j.nextModule }
          else if x.st = 0 ∨ x.st = 4 ∨ x.st = 5 then some (s.jobTo j (if j.reverting then .revert else .write))
          else if x.st = 1 then
            if (s.group x.group).st ≠ 0 ∨ (s.groupMembers x.group).any (fun k => (s.member k).offCmd.isSome) then none
            else some (({ s with upd.job := some { j with sent := true } } : State).setMember m { x with offCmd := some jobCmd }).offlinePump
          else some (if j.reverting then s.jobTo j .revert else s.jobFails j)
        else if x.offCmd.isSome then none
        else if x.st = 2 then some (s.jobTo j (if j.reverting then .revert else .write))
        else some (if j.reverting then s.jobTo j .revert else s.jobFails j)
      | .write =>
        if j.sent then s.jobAnswer j m (fun t => t.jobTo j .digest)
        else match s.bridgeImage with
          | some bs => some (s.jobSends j m (fun t => t.fwWriteOn m (some jobCmd) 0 bs))
          | none => some (s.jobFails j)
      | .digest =>
        if j.sent then s.jobAnswer j m (fun t => t.jobTo j .activate)
        else some (s.jobSends j m (fun t =>
          t.sendOp m { opcode := opFwDigest, addr := 0, cmd := some jobCmd, got := s.bridgePart.digest } []))
      | .activate =>
        if j.sent then s.jobAnswer j m (fun t =>
          let t1 := ({ t with upd.bridges := t.upd.bridges ++ [m] } : State).jobTo { j with activated := j.activated ++ [m] } .online
          t1.event pgUPD 2 (le 1 m ++ le 4 s.bridgePart.version))
        else some (s.jobSends j m (fun t => t.sendOp m { opcode := opFwActivate, addr := 0, cmd := some jobCmd } []))
      | .revert =>
        if j.sent then s.jobAnswer j m (fun t => t.jobTo j .online)
        else some (s.jobSends j m (fun t => t.sendOp m { opcode := opFwRevert, addr := 0, cmd := some jobCmd } []))
      | .online =>
        let s1 : State := { s with upd.job := some j.nextModule }
        some (if x.st = 2 then
            ((s1.setMember m { x with st := 1 }).event pgRBLD 6 (le 1 m ++ le 1 1)).groupState x.group
          else s1)

/-- The handling goes on as far as it can. -/
def State.bridgePump : Nat → State → State
  | 0, s => s
  | f + 1, s => match s.bridgeStep with
    | some t => State.bridgePump f t
    | none => s

/-- Enough steps for all the modules. -/
def State.bridgeRun (s : State) : State := State.bridgePump 512 s

end Sys2Proof.Machine
end

