-- ==== Sys2Proof/Machine/Mlink.lean ====
section
/-! DEFINITION. MLINK: training, flits and packets, the ends of operations, removal and arrival, and MLINK's commands (R326-R342). -/

namespace Sys2Proof.Machine

/-- What an event of a link lets go on. -/
def State.linkOn (s : State) (m : Nat) : State := (s.linkPump m).bridgeRun

/-- A module slot, and its page. -/
def isSlot (m : Nat) : Bool := decide (m < 24)

/-! ### Training (R328) -/

/-- MLINK_LINK_EN: a write of MLINK.CTRL.LINK_EN. -/
def State.writeLinkEn (s : State) (m : Nat) (on : Bool) : State :=
  let s1 := s.setFld (fMLINK_CTRL_LINK_EN m) (b2n on)
  if on then s1.linkStart m else s1.linkEnd m
def execMlinkLinkEn (module : Nat) (on : Bool) (s : State) : Res :=
  .next (if isSlot module then (s.gated (pgMLINK module) (fun t => t.writeLinkEn module on)).linkOn module else s)

/-- MLINK_RETRAIN: a write of MLINK.CTRL.RETRAIN. -/
def execMlinkRetrain (module : Nat) (s : State) : Res :=
  .next (if isSlot module then s.gated (pgMLINK module) (fun t => t.linkRetrain module) else s)

/-- MLINK_SIGNAL_LOCK. -/
def execMlinkSignalLock (module lanes : Nat) (s : State) : Res :=
  .next (if (s.link module).st = lkDetect ∧ 2 ≤ lanes ∧ lanes ≤ 4 then s.linkMoves module lkAlign else s)

/-- MLINK_ALIGN_DONE: at width 2 the link is degraded. -/
def execMlinkAlignDone (module width : Nat) (s : State) : Res :=
  .next (if (s.link module).st = lkAlign ∧ (width = 2 ∨ width = 4) then
      let s1 := ((s.linkMoves module lkConfig).modLink module (fun l => { l with width := width })).emit
        (.config module s.plat.chip.headId 1)
      if width = 2 then s1.event (pgMLINK module) 3 (le 1 width) else s1
    else s)

/-- The link is Up: unacknowledged flits are sent again, and IDENTIFY is sent. It needs no credit, for its answer brings the first.
[DEDUCED: log entry 20] -/
def State.linkUp (s : State) (m : Nat) : State :=
  let s1 := s.linkMoves m lkUp
  let s2 := (s1.link m).unacked.foldl (fun t e => t.sendFlit m 1 e.1 false e.2) s1
  let l := s2.link m
  let tag := freeTag l.ops 4096 l.nextTag
  let s3 := s2.setLink m { l with ops := l.ops.ins tag { opcode := opIdentify, addr := 0 }, nextTag := (tag + 1) % 4096 }
  let s4 := s3.linkSend m (linkPacket 0x10 0 tag opIdentify 0 [])
  State.flitPump (s4.link m).txWait.length s4 m

/-- MLINK_CONFIG_RECEIVE: a bridge of another protocol version is held in Config. -/
def execMlinkConfigReceive (module version : Nat) (s : State) : Res :=
  .next (if (s.link module).st = lkConfig then
      (if version = 1 then (s.linkUp module).linkOn module else s.linkLost module 3)
    else s)

/-! ### Flits and packets (R326, R327, R330-R335) -/

/-- MLINK_FLIT_RECEIVE: a flit as its forward error correction leaves it.
[DESIGN CHOICE: log entry 19] -/
def execMlinkFlitReceive (module : Nat) (flit : List Byte) (s : State) : Res :=
  .next (if (s.link module).st ≠ lkUp ∨ flit.length ≠ 256 then s
    else
      let type := unBe (slice flit 0 1)
      let seq := unBe (slice flit 1 1)
      if 3 < type ∨ unBe (slice flit 240 4) ≠ crc32c 0xFFFFFFFF (flit.take 240) then s.flitBad module
      else
        let s1 := s.linkAck module (unBe (slice flit 2 1)) ((slice flit 3 1).any (fun b => b.toNat.testBit 7))
        let l := s1.link module
        if type ≠ 1 then s1.linkOn module
        else if seq ≠ l.rxSeq % 256 then s1.flitBad module
        else
          let bs := l.stream ++ slice flit 4 236
          let s2 := (s1.setLink module { l with rxSeq := (l.rxSeq + 1) % 256, stream := bs }).ackFlit module false
          (State.parseLink (bs.length + 1) s2 module).linkOn module)

/-- MLINK_REPLAY_TIMEOUT: no ACK has advanced for 20 µs. -/
def execMlinkReplayTimeout (module : Nat) (s : State) : Res := .next (s.linkReplay module)

/-- MLINK_CRC_SILENCE: no flit has passed its CRC for 100 µs. -/
def execMlinkCrcSilence (module : Nat) (s : State) : Res := .next (s.linkGivesUp module)

/-- MLINK_DATA_RECEIVE: the codewords of a READ.
[DEDUCED: log entry 20] -/
def execMlinkDataReceive (module tag _page : Nat) (data : List Byte) (s : State) : Res :=
  .next (if (s.link module).st = lkUp then s.takeData module tag data else s)

/-- MLINK_CPL_RECEIVE. -/
def execMlinkCplReceive (module tag status : Nat) (payload : List Byte) (s : State) : Res :=
  .next (if (s.link module).st = lkUp then (s.takeCpl module tag status payload).linkOn module else s)

/-- MLINK_ATTN_RECEIVE: the one attention that the spec gives, TRIAL_FAILED. -/
def execMlinkAttnReceive (module _reason : Nat) (s : State) : Res :=
  .next (if (s.link module).st = lkUp then s.takeAttn module else s)

/-- MLINK_OP_TIMEOUT: no CPL has come. The tag stays in use until its CPL returns the credits; a bridge that has taken an activation and
does not come back ends the command. -/
def State.opTimesOut (s : State) (m tag : Nat) (o : LinkOp) : State :=
  if o.accepted then (s.modLink m (fun l => { l with ops := l.ops.del tag })).endLinkCmd m o.cmd mlLinkDown
  else
    (s.modLink m (fun l => { l with ops := l.ops.ins tag { o with opcode := 0, cmd := none, got := [] } })).timesOut m tag o
def execMlinkOpTimeout (module tag : Nat) (s : State) : Res :=
  .next (match (s.link module).ops.find tag with
    | some o => if o.opcode = 0 then s else (s.opTimesOut module tag o).linkOn module
    | none => s)

/-! ### Removal and arrival (R338, R449) -/

/-- The BOARD input that senses a slot. -/
def State.presenceInput (s : State) (m : Nat) : Option Nat :=
  let i := s.fld (fMLINK_PRESENCE_INPUT m)
  if i < 32 then some i else none
def State.gpio (s : State) (i : Nat) : Bool := s.plat.pins.gpio.toNat.testBit i
def State.setGpio (s : State) (i : Nat) (high : Bool) : State :=
  let g := s.plat.pins.gpio.toNat
  { s with plat.pins.gpio := BitVec.ofNat 32 (if high then g ||| 2 ^ i else clearBit g i) }

/-- MODULE_REMOVED: the input reports absent. Every outstanding operation ends, those that wait among them. -/
def State.moduleGone (s : State) (m : Nat) : State :=
  let serial := (s.link m).serial
  let s1 := (s.linkStops m).linkEnd m
  let gone := (s1.link m).ops
  let s2 := gone.foldl (fun t e => if e.2.accepted then t.opFails m e.2 else t.cutOff m e) (s1.modLink m (fun l => { l with ops := [] }))
  let s3 := (s2.modLink m (fun l => { l with bootId := none, arrived := false, owner := 0, trial := false, stopped := false, unacked := [], stream := []
                                             txWait := [], replays := 0, txSeq := 0, rxSeq := 0 })).irqBit (pgMLINK m) 1
  let s4 := s3.event (pgMLINK m) 5 (le 8 serial)
  if (s4.member m).st = 1 then s4.declareFailed m 2
  else if (s4.member m).st = 5 then s4.setMember m {}
  else s4
def execModuleRemoved (module : Nat) (s : State) : Res :=
  .next (match s.presenceInput module with
    | some i => if isSlot module ∧ !s.gpio i then ((s.setGpio i true).moduleGone module).bridgeRun else s
    | none => s)

/-- MODULE_ARRIVED: the input reports present. The link trains, and the event follows IDENTIFY. -/
def execModuleArrived (module : Nat) (s : State) : Res :=
  .next (match s.presenceInput module with
    | some i =>
      if isSlot module ∧ s.gpio i then ((s.setGpio i false).modLink module (fun l => { l with arrived := true })).linkStart module else s
    | none => s)

/-! ### Commands (R342) -/

/-- A command of MLINK that becomes an operation of the link: it needs an Up link. -/
def State.linkCmd (s : State) (h : CmdHdr) (opcode : Nat) (bad : State → Nat → Option Nat) (send : State → Nat → State) : State :=
  (s.command h (pgMLINK 0) opcode .work fun p t =>
    let m := p - pgMLINK 0
    match bad t m with
    | some st => (t, .done st 0)
    | none =>
      if (t.link m).st ≠ lkUp then (t, .done mlLinkDown 0) else (send t m, .running [])).bridgeRun

/-- MLINK_RESERVE: reserve, pre-empt or release. -/
def execMlinkReserve (h : CmdHdr) (kind gen : Nat) (s : State) : Res :=
  .next (s.linkCmd h 0x0100 (fun _ _ => if 2 < kind then some mlBadArg else none) (fun t m =>
    t.sendOp m { opcode := opReserve + kind, addr := if kind = 1 then gen % 2 ^ 32 else 0, cmd := some h.cseq } []))

/-- MLINK_FW_WRITE: LENGTH 0 succeeds and writes nothing. -/
def execMlinkFwWrite (h : CmdHdr) (offset length src : Nat) (s : State) : Res :=
  .next (s.linkCmd h 0x0101
    (fun t _ => if 16777216 < length ∨ t.hbmErr src length then some mlBadArg else if length = 0 then some stOk else none)
    (fun t m => t.fwWriteOn m (some h.cseq) offset (t.hbmRead src length)))

/-- MLINK_FW_DIGEST: the digest goes to HBM. -/
def execMlinkFwDigest (h : CmdHdr) (result : Nat) (s : State) : Res :=
  .next (s.linkCmd h 0x0102 (fun _ _ => if hbmEnd < result + 32 then some mlBadArg else none) (fun t m =>
    t.sendOp m { opcode := opFwDigest, addr := 0, cmd := some h.cseq, arg := result } []))

/-- MLINK_FW_ACTIVATE: refused unless the member is Offline, Spare, Vacated or Unassigned. -/
def execMlinkFwActivate (h : CmdHdr) (s : State) : Res :=
  .next (s.linkCmd h 0x0103
    (fun t m => let st := (t.member m).st
      if st = 0 ∨ st = 2 ∨ st = 4 ∨ st = 5 then none else some mlNotOffline)
    (fun t m => t.sendOp m { opcode := opFwActivate, addr := 0, cmd := some h.cseq } []))

/-- MLINK_FW_COMMIT. -/
def execMlinkFwCommit (h : CmdHdr) (s : State) : Res :=
  .next (s.linkCmd h 0x0104 (fun _ _ => none) (fun t m => t.sendOp m { opcode := opFwCommit, addr := 0, cmd := some h.cseq } []))

/-- MLINK_FW_REVERT. -/
def execMlinkFwRevert (h : CmdHdr) (s : State) : Res :=
  .next (s.linkCmd h 0x0105 (fun _ _ => none) (fun t m => t.sendOp m { opcode := opFwRevert, addr := 0, cmd := some h.cseq } []))

end Sys2Proof.Machine
end

