-- ==== Sys2Proof/Machine/Xing.lean ====
section
/-! DEFINITION. The fabric: pace meters, crossings, islands and paired resets; core clusters; the timebase (R26-R37, R52, R53, R61, R62). -/

namespace Sys2Proof.Machine

/-! ### Pace meters (R24, R27, R28) -/

/-- The core-beat floor of a cone. -/
def coneFloor : Nat → Nat
  | 1 => 1400
  | 2 => 1600
  | 3 => 1800
  | 4 => 2000
  | 5 => 2150
  | 6 => 2300
  | _ => 2000

/-- The domain of a pace region; none in the fabric core.
[DESIGN CHOICE: log entry 104] -/
def paceDom (r : Nat) : Option Nat :=
  if r < 12 then some (2 + r) else if r < 14 then some (r + 2) else if r < 18 then some (r + 13) else none

/-- The threshold of a region, scaled to the recorded cone. -/
def State.paceScaled (s : State) (r : Nat) : Nat :=
  s.fld (fPACE_LOW_THRESH_THRESH r) * coneFloor (s.fld fPACE_CTRL_CONE) / coneFloor 4

/-- LOW_PACE of a region that reads below its scaled threshold, unless its bit is still set.
[DESIGN CHOICE: log entry 104] -/
def State.paceCheck (s : State) (r beats : Nat) : State :=
  let th := s.fld (fPACE_LOW_THRESH_THRESH r)
  let low := s.fld fPACE_LOW_STAT_LOW
  if s.runs pgPACE ∧ th ≠ 0 ∧ beats * coneFloor 4 < th * coneFloor (s.fld fPACE_CTRL_CONE) ∧ !low.testBit r then
    (s.setFld fPACE_LOW_STAT_LOW (low ||| 2 ^ r)).event pgPACE 1
      (le 1 r ++ zeros 1 ++ le 2 beats ++ le 2 (s.paceScaled r) ++ le 1 (s.fld fPACE_CTRL_CONE))
  else s

/-- The window of a region ends. -/
def State.paceRegion (s : State) (us : Nat) (beats : List Nat) (r : Nat) : State :=
  match paceDom r with
  | some d => if s.domOn d then
      let v := min 0xFFFF (beats.getD r 0 / us)
      (s.setFld (fPACE_RATE_BEATS r) v).paceCheck r v
    else s.setFld (fPACE_RATE_BEATS r) 0
  | none =>
    let v := min 0xFFFF (beats.getD r 0 / us)
    (s.setFld (fPACE_RATE_BEATS r) v).paceCheck r v

/-- PACE_WINDOW_END: the window's length in µs, and the beats that each region counted in it. The window that ends has the length it began
with; the next has that of PACE.CTRL.WINDOW_US.
[DESIGN CHOICE: log entry 71] -/
def execPaceWindowEnd (windowUs : Nat) (beats : List Nat) (s : State) : Res :=
  .next (if windowUs ≠ 0 ∧ windowUs = s.plat.paceWindow then
      let s1 := if s.pageOn pgPACE ∧ s.blk pgPACE ≠ .fault then (List.range 24).foldl (fun t r => t.paceRegion windowUs beats r) s else s
      { s1 with plat.paceWindow := s1.fld fPACE_CTRL_WINDOW_US }
    else s)

/-! ### Crossings (R30-R34, R37) -/

/-- An island, and a crossing of it. -/
def isIsland (i : Nat) : Bool := decide (1 ≤ i ∧ i ≤ 25)
def isCrossing (i k : Nat) : Bool := isIsland i && decide (k < 32)

/-- The value that two successive samples agree on, within seven resamples. -/
def sampleAgree : Nat → Nat → List Nat → Option Nat
  | 0, _, _ => none
  | _ + 1, _, [] => none
  | f + 1, x, y :: ys => if x = y then some x else sampleAgree f y ys

/-- The value that is accepted; a sample that is not given repeats the value. -/
def acceptSample (value : Nat) (samples : List Nat) : Option Nat :=
  match samples ++ List.replicate 9 value with
  | x :: xs => sampleAgree 8 x xs
  | [] => none

/-- The receiving side samples a value: it is delivered, or its transfer ends with XE_RESAMPLE. -/
def State.sampled (s : State) (i k : Nat) (w : Handshake) : State :=
  match acceptSample w.value w.samples with
  | some v => s.emit (.crossed i k v)
  | none => (s.xeFails i k 1 w.engine).restartPump

/-- CROSSING_VALUE_TRANSFER: refused at once, delivered, ended with XE_RESAMPLE, or held until the island's clock captures it.
[DESIGN CHOICE: log entry 103] -/
def execCrossingValueTransfer (island crossing : Nat) (value : SentValue) (samples : List Nat) (s : State) : Res :=
  .next (if !isCrossing island crossing then s
    else if !s.islandOn island then s.xeFails island crossing 3 value.engine
    else if (s.island island).inReset then s.xeFails island crossing 4 value.engine
    else if (s.island island).clkRun then s.sampled island crossing ⟨value.value, samples, value.engine⟩
    else if (s.crossing island crossing).waiting.isSome then s
    else (s.setIsland island { s.island island with clkStop := false }).setCrossing island crossing
      { s.crossing island crossing with waiting := some ⟨value.value, samples, value.engine⟩ })

/-- CROSSING_EVENT_TOGGLE: toward a pair in reset the event is discarded (R36).
[DEDUCED: log entry 70] [DESIGN CHOICE: log entry 103, 127] -/
def execCrossingEventToggle (island crossing : Nat) (s : State) : Res :=
  let i := s.island island
  let c := s.crossing island crossing
  .next (if !isCrossing island crossing then s
    else if !s.islandOn island then s.xeError island crossing 3
    else if i.inReset then s.setIsland island { i with pulseLost := true }
    else if !c.toggle then
      (s.setIsland island { i with clkStop := i.clkStop && i.clkRun }).setCrossing island crossing { c with toggle := true, carried := 1 }
    else if c.count < 15 then s.setCrossing island crossing { c with count := c.count + 1 }
    else (s.setIsland island { i with pulseOvf := BitVec.ofNat 32 (i.pulseOvf.toNat ||| 2 ^ crossing) }).xeError island crossing 5)

/-- CROSSING_EVENT_ACK: the receiver has delivered what the toggle carried; the next toggle carries the count. -/
def execCrossingEventAck (island crossing : Nat) (s : State) : Res :=
  let c := s.crossing island crossing
  .next (if isCrossing island crossing ∧ c.toggle ∧ (s.island island).clkRun ∧ !(s.island island).inReset then
      (s.setCrossing island crossing { c with toggle := decide (c.count ≠ 0), carried := c.count, count := 0 }).emit
        (.pulses island crossing c.carried)
    else s)

/-- The clock of an island starts; its module links train. -/
def State.islandClockOn (s : State) (i : Nat) : State :=
  (linksOf i).foldl State.linkStart (s.setIsland i { s.island i with clkRun := true, clkStop := false })

/-- ISLAND_CLOCK_CAPTURE: the clock runs, and a held handshake completes.
[DEDUCED: log entry 70] [DESIGN CHOICE: log entry 127] -/
def execIslandClockCapture (island crossing : Nat) (s : State) : Res :=
  let c := s.crossing island crossing
  .next (if isCrossing island crossing ∧ s.islandOn island ∧ (s.island island).refOn ∧ (c.waiting.isSome ∨ (c.toggle ∧ !(s.island island).clkRun)) then
      let s1 := s.islandClockOn island
      match c.waiting with
      | some w => (s1.setCrossing island crossing { c with waiting := none }).sampled island crossing w
      | none => s1
    else s)

/-- XE_TIMEOUT: the request is withdrawn.
[DESIGN CHOICE: log entry 5] -/
def execXeTimeout (island crossing : Nat) (s : State) : Res :=
  let c := s.crossing island crossing
  .next (if isCrossing island crossing ∧ c.waiting.isSome then
      (s.heldFails island 2 crossing).restartPump
    else if isCrossing island crossing ∧ c.toggle ∧ !(s.island island).clkRun then
      ((s.setCrossing island crossing {}).xeError island crossing 2).restartPump
    else s)

/-! ### Island clocks and paired resets (R29, R34-R36) -/

/-- No crossing of the island has a handshake or a toggle outstanding. -/
def State.crossIdle (s : State) (i : Nat) : Bool :=
  (List.range 32).all (fun k => (s.crossing i k).waiting.isNone && !(s.crossing i k).toggle)

/-- XING.ISL_CTRL.CLK_STOP is written. A wake request that is pending wins. -/
def State.writeClkStop (s : State) (i : Nat) (on : Bool) : State :=
  let x := s.island i
  if on then
    if !x.clkRun ∧ !s.crossIdle i then s else s.setIsland i { x with clkStop := true }
  else if x.refOn ∧ !x.clkRun ∧ s.islandOn i then s.islandClockOn i
  else s.setIsland i { x with clkStop := false }

/-- CLK_STOP_WRITE: CLK_STOP = 1. -/
def execClkStopWrite (island : Nat) (s : State) : Res :=
  .next (if isIsland island then s.gated pgXING (fun t => t.writeClkStop island true) else s)

/-- ISLAND_CLOCK_STOP. -/
def execIslandClockStop (island : Nat) (s : State) : Res :=
  .next (if isIsland island ∧ (s.island island).clkStop ∧ (s.island island).clkRun ∧ s.crossIdle island then
      s.setIsland island { s.island island with clkRun := false }
    else s)

/-- Islands on one reference clock: CI21, CI22 and CI24 share the 100 MHz timebase reference (R29). -/
def sameRef (i : Nat) : List Nat := if i = 21 ∨ i = 22 ∨ i = 24 then [21, 22, 24] else [i]

/-- The reference clock of an island is lost. That of CI21 is the timebase's (R61). -/
def State.refLoss (s : State) (i : Nat) : State :=
  let s1 := (sameRef i).foldl (fun t j => t.setIsland j { t.island j with clkRun := false, refOn := false }) s
  if i ∈ sameRef 21 then { s1 with plat.time.refOn := false, plat.time.refLost := true } else s1

/-- ISLAND_REF_CLOCK_LOSS. -/
def execIslandRefClockLoss (island : Nat) (s : State) : Res := .next (if isIsland island then s.refLoss island else s)

/-- PAIR_RESET: XING.ISL_CTRL.PAIR_RESET = 1. -/
def execPairReset (island : Nat) (s : State) : Res :=
  .next (if isIsland island then s.gated pgXING (fun t => (t.pairStart island).restartPump) else s)

/-- PAIR_RESET_RELEASE. A block whose own reset holds the pair ends it with BLOCK_RESET_DONE. -/
def execPairResetRelease (island : Nat) (s : State) : Res := .next (if isIsland island then s.pairRelease island else s)

/-! ### Core clusters (R52, R53) -/

/-- CLU.CORE_RUN is written. -/
def State.writeCoreRun (s : State) (c v : Nat) : State := s.setReg (rCLU_CORE_RUN c) (BitVec.ofNat 32 (v % 256))
def execCoreRunWrite (cluster value : Nat) (s : State) : Res :=
  .next (if cluster < 12 then s.gated (pgCLU cluster) (fun t => t.writeCoreRun cluster value) else s)

/-- A cluster, and its cores that execute (CLU.STAT.RUNNING): hart 0 only once start-up has released it. -/
def State.cluster (s : State) (c : Nat) : Cluster := s.plat.clus.get {} c
def State.setCluster (s : State) (c : Nat) (v : Cluster) : State := { s with plat.clus := s.plat.clus.put {} c v }
def State.running (s : State) (c : Nat) : Nat :=
  if !s.domOn (2 + c) ∨ s.blk (pgCLU c) = .fault ∨ s.plat.chip.porstLow then 0
  else
    let v := s.fld (fCLU_CORE_RUN_RUN c)
    if c = 0 ∧ s.plat.chip.hartHeld then clearBit v 0 else v

/-- CLU.MEM_CFG is written: the conversion starts. -/
def State.writeMemCfg (s : State) (c ways : Nat) : State :=
  let x := s.cluster c
  if 16 < ways ∨ x.memTarget.isSome then s
  else
    let s1 := s.setReg (rCLU_MEM_CFG c) (BitVec.ofNat 32 ways)
    if ways = x.scratchWays then s1 else s1.setCluster c { x with memTarget := some ways }
def execMemCfgWrite (cluster ways : Nat) (s : State) : Res :=
  .next (if cluster < 12 then s.gated (pgCLU cluster) (fun t => t.writeMemCfg cluster ways) else s)

/-- MEM_CFG_DONE: ways that became cache lose their scratch content. -/
def execMemCfgDone (cluster : Nat) (s : State) : Res :=
  .next (match (s.cluster cluster).memTarget with
    | some w => s.setCluster cluster { s.cluster cluster with
        scratchWays := w, memTarget := none, scratch := (s.cluster cluster).scratch.keepKeys (fun o => decide (o < w * 131072)) }
    | none => s)

/-! ### The timebase (R61, R62) -/

/-- TIME.SET is written. -/
def State.writeTimeSet (s : State) (v : Nat) : State :=
  if s.blk pgTALLY ≠ .off ∧ s.blk pgTALLY ≠ .idle then s.capture pgTIME 0x01 0 0
  else if v < s.now then s.capture pgTIME 0x02 0 0
  else { s with plat.time.now := v, plat.time.slewRemain := 0, plat.time.slewing := false }
def execTimeSet (value : Nat) (s : State) : Res := .next (s.gated pgTIME (fun t => t.writeTimeSet (value % 2 ^ 64)))

/-- TIME.STEP is written.
[DESIGN CHOICE: log entry 106] -/
def State.writeTimeStep (s : State) (d : Int) : State :=
  if d = 0 then s
  else if 0 < d then
    ({ s with plat.time.now := min (2 ^ 64 - 1) (s.now + d.toNat), plat.time.slewRemain := 0, plat.time.slewing := false } : State).tallyStep
  else { s with plat.time.slewRemain := d.natAbs, plat.time.slewing := true }
def execTimeStep (step : Int) (s : State) : Res :=
  .next (s.gated pgTIME (fun t => t.writeTimeStep (toSigned 64 (step % 2 ^ 64).toNat)))

/-- SLEW_DONE. -/
def execSlewDone (s : State) : Res :=
  .next (if s.plat.time.slewing then { s with plat.time.slewRemain := 0, plat.time.slewing := false } else s)

/-- TIMEBASE_REF_LOST. -/
def execTimebaseRefLost (s : State) : Res := .next (s.refLoss 21)

/-- A read of TIME.TXTS_VALUE removes the head of the queue. -/
def State.txtsPop (s : State) : Nat × State :=
  match s.plat.time.txts with
  | e :: es => (e.value, { s with plat.time.txts := es })
  | [] => (0, s)

/-- TXTS_VALUE_READ. -/
def execTxtsValueRead (s : State) : Res := let r := s.txtsPop; .next (r.2.emit (.value r.1))

end Sys2Proof.Machine
end

