-- ==== Sys2Proof/Machine/Block.lean ====
section
/-! DEFINITION. The common page header: enabling, quiescing, resetting and faults of blocks, their interrupt words; the rings' doorbells; NOP and
CONFIG_COMMIT (R43-R50, R56, R59, R60, R141, R144, R304, R313, R444, R465). -/

namespace Sys2Proof.Machine

/-- The pages that a write to page `p` reaches (R43). -/
def writePages (p : Nat) : List Nat := if isBroadcast p then (List.range 4).map (quadPage p) else [p]

/-- A write to the header of a page: dropped and counted while the page's power is off (R48). An offset in no block page is a bus error (R39). -/
def State.headerWrite (s : State) (p : Nat) (f : State → Nat → State) : State :=
  if pageExists p then
    (writePages p).foldl (fun t q => if !t.pageOn q then t.bump fCHIP_OFF_ACCESS else if t.blk q = .off then t else f t q) s
  else s.emit .busError

/-! ### Interrupt words (R44, R47, R50) -/

/-- The number of interrupt sources of a block, bits 0 up. -/
def irqSources (p : Nat) : Nat :=
  let b := blkTypeOf p
  if b = pgRGN then 17
  else if b = pgEVT then 6
  else if b = pgXING ∨ b = pgFTL then 5
  else if b = pgNVF ∨ b = pgSW ∨ b = pgGROG ∨ b = pgSLIP ∨ b = pgRBLD ∨ b = pgMLINK 0 ∨ b = pgPEERCTL then 4
  else if b = pgCHIP ∨ b = pgPWR ∨ b = pgBUF ∨ b = pgMARK ∨ b = pgWEDGE ∨ b = pgPUG ∨ b = pgSAG ∨ b = pgTALLY ∨ b = pgUPD then 3
  else if b = pgGCIPH ∨ b = pgTAMP ∨ b = pgPAR ∨ b = pgHBM 0 then 2
  else if b = pgAON ∨ b = pgLMAP ∨ b = pgMOULD ∨ b = pgSYSC ∨ b = pgQOS then 1
  else 0

/-- A write to BLK_IRQ_STAT: written bits clear, the capture is armed when none is left, and a line left high sends its message. -/
def State.writeIrqStat (s : State) (p : Nat) (v : Word) : State :=
  (s.modPage p (fun g => { g with irqStat := g.irqStat &&& ~~~v, armed := g.armed || decide (g.irqStat &&& ~~~v = 0) })).irqMessage p
def execBlkIrqStatWrite (page : Nat) (value : Word) (s : State) : Res :=
  .next (s.headerWrite page (fun t p => t.writeIrqStat p value))

/-- A write to BLK_IRQ_EN. -/
def State.writeIrqEn (s : State) (p : Nat) (v : Word) : State := (s.modPage p (fun g => { g with irqEn := v })).irqMessage p

/-- A write to BLK_IRQ_FORCE: reserved bits are ignored. -/
def State.writeIrqForce (s : State) (p : Nat) (v : Word) : State := s.irqSet p (v &&& BitVec.ofNat 32 (2 ^ irqSources p - 1))
def execBlkIrqForce (page : Nat) (value : Word) (s : State) : Res :=
  .next (s.headerWrite page (fun t p => t.writeIrqForce p value))

/-! ### Work in flight (R45) -/

/-- Units of quadrant `q` lie in a ware-lane block. -/
def State.laneBusy (s : State) (b q : Nat) : Bool :=
  s.ware.units.any (fun e => e.2.quad = q && e.2.phase.block = b) || s.ware.reads.any (fun e => e.2.quad = q && e.2.phase.block = b)

/-- An operation of a module link that has not ended. -/
def LinkOp.busy (o : LinkOp) : Bool := o.opcode ≠ 0 && !o.accepted

/-- The block of page `p` has work in flight, beside the commands that run for it.
[DEDUCED: log entry 73] -/
def State.ownBusy (s : State) (p : Nat) : Bool :=
  let q := blkInstOf p
  if isQuadrant p then
    s.laneBusy (blkTypeOf p) q || (blkTypeOf p = pgMARK && ((s.markQuad q).pio.isSome || !(s.markQuad q).jobs.isEmpty || (s.markQuad q).refill))
  else if p = pgEVT then !s.plat.evt.running.isEmpty
  else if p = pgLDT then s.ldt.ext.any (fun e => !e.2.initOps.isEmpty || e.2.tgtOps.any (fun o => !o.2.refused) || !e.2.txq.isEmpty)
  else if p = pgCTX then !s.ctx.missq.isEmpty
  else if p = pgRGN then
    s.rgn.held.any (fun e => e.2 ≠ 0) || s.rgn.reserved.any (fun e => e.2 ≠ 0)
      || s.ldt.ext.any (fun e => e.2.tgtOps.any (fun o => o.2.holds.isSome || o.2.nq.isSome))
  else if p = pgNVTCP then s.conns.any (fun e => !e.2.xfers.isEmpty)
  else if p = pgNVF then s.nvf.cmds.any (fun e => e.2.phase = .admitted || e.2.phase = .toSoftware || e.2.phase = .software)
  else if p = pgSW then !s.sw.frames.isEmpty
  else if p = pgSYSC then
    !s.mem.mb.isEmpty || !s.mem.held.isEmpty || !s.mem.jobs.isEmpty || s.mem.lines.any (fun e => e.2.phase = .filling || e.2.phase = .departing)
  else if p = pgGCIPH then s.sec.gciph.seg.isSome || s.sec.gciph.msg.isSome
  else if p = pgKEYS then !s.sec.clearing.isEmpty
  else if p = pgLMAP then !s.lmap.wanted.isEmpty
  else if p = pgSLIP then s.slip.reps.any (fun e => !e.2.queue.isEmpty || !e.2.sent.isEmpty || !e.2.arrived.isEmpty || !e.2.inAir.isEmpty)
  else if p = pgFTL then s.back.ckpt.isSome || s.back.segs.any (fun e => !e.2.progs.isEmpty)
  else if p = pgPUG then s.back.segs.any (fun e => e.2.units.any (fun u => u.src.isSome && !u.dead))
  else if p = pgPAR then s.ware.reads.any (fun e => e.2.phase = .repair)
  else if p = pgSAG then s.back.dumping.isSome || s.back.replay.isSome
  else if p = pgRBLD then s.back.groups.any (fun e => e.2.rebuilding.isSome) || s.back.mems.any (fun e => e.2.offCmd.isSome)
  else if p = pgUPD then s.upd.job.isSome || s.upd.stageWait.isSome
  else if p = pgSTORE then s.plat.store.busy.isSome
  else if blkTypeOf p = pgCLU 0 then (s.cluster q).memTarget.isSome
  else if blkTypeOf p = pgSEG 0 then s.nvf.cmds.any (fun e => e.2.phase = .admitted && !e.2.connect && segOf e.2.ctx = q)
  else if blkTypeOf p = pgHPORT 0 ∨ blkTypeOf p = pgPLINK 0 then s.ldt.holding.any (fun h => portPage h.port = p)
  else if blkTypeOf p = pgMLINK 0 then (s.link q).ops.any (fun e => e.2.busy) || !(s.link q).waitOps.isEmpty
  else false

/-- The block of page `p` has work in flight.
[DEDUCED: log entry 73] -/
def State.blockBusy (s : State) (p : Nat) : Bool := s.ownBusy p || s.plat.evt.running.any (fun e => e.2.page = p)

/-! ### Entering Run (R45, R56) -/

/-- EVT starts posting: RING_START is its first event. -/
def State.ringStart (s : State) : State :=
  if s.plat.evt.started then s
  else ({ s with plat.evt.started := true, plat.evt.startReason := 2 } : State).event pgEVT evRingStart
    (le 8 s.plat.evt.epoch ++ le 4 s.plat.evt.startReason)

/-- The tables that a start reads from flash stand in HBM, where the registers place them: entries that nothing has set are not written, and
the media-loss log is as the newest checkpoint carries it (R257, R265, R268, R276).
[DESIGN CHOICE: log entry 139] -/
def State.tablesLoad (s : State) : State :=
  let s1 := s.back.blocks.foldl (fun t e => t.hbmWrite (s.reg64 rFTL_BLOCK_BASE + 8 * e.1) e.2.bytes) s
  let s2 := s.back.segs.foldl (fun t e => t.hbmWrite (s.reg64 rFTL_SEG_BASE + 128 * e.1) e.2.bytes) s1
  let s3 := (s.back.pageLoc.filter (fun e => mpaRange e.1 = 3)).foldl (fun t e =>
    t.hbmWrite (s.reg64 rFTL_MPD_BASE + rootOff e.1) (le 8 (e.2 + 2 ^ 48))) s2
  let size := 2 ^ s.fld fFTL_MLOG_CFG_MLOG_LOG2
  let s4 := s.back.mlog.foldl (fun t e => t.hbmWrite (s.reg64 rFTL_MLOG_BASE + 32 * (e.1 % size)) e.2) s3
  (s4.setReg64 rFTL_MLOG_PROD s.back.mlogTop).setReg64 rFTL_MLOG_CONS (max s.back.mlogCons (s.back.mlogTop - size))

/-- FTL starts: CKPT_SEQ is what flash holds; after a start its tables are loaded, each group of the other mode is reported, and a segment
that is found in Erasing is erased again (R268, R288, R438). -/
def State.ftlRun (s : State) : State :=
  let s1 := s.setReg64 rFTL_CKPT_SEQ s.back.ckptSeq
  let s2 := if s1.back.ftlFresh then
      let t := s1.back.groups.foldl (fun t e => match e.2.foreign with
        | some m => t.event pgFTL 9 (le 1 e.1 ++ le 1 m)
        | none => t) ({ s1 with back.ftlFresh := false } : State).tablesLoad
      (t.back.segs.filter (fun e => e.2.st = 5)).foldl (fun u e => u.issueErase e.1) t
    else s1
  s2.placeAll.askedCkpt

/-- A unit of a row that nothing can check is indeterminate, when a map entry names it (R311). -/
def State.indetUnit (id : Nat) (r : State × Nat) (u : Placed) : State × Nat :=
  if r.1.unitLive id u ∧ u.kind < 2 then
    ((if u.kind = 0 then r.1.poisonCid u.ref 3 true else r.1.poisonBlock u.app u.ref 3 true).bump fSAG_INDETERMINATE, r.2 + 1)
  else r

/-- The rows of a segment's last window are resynchronised (R311): with two members or more missing nothing can be checked; else the rows that
are complete stand.
[DEDUCED: log entry 136] -/
def State.resyncRows (s : State) (id : Nat) (w : JWin) : State :=
  let v := s.seg id
  let rows := (List.range w.rows).filter (fun j => v.rowDone (w.first + j) && decide (w.first + j < v.row))
  let gone := (v.posBlocks.filter (fun b => (s.member b.1).st ≠ 1)).length
  let us := v.units.filter (fun u => decide (w.first ≤ u.row) && decide (u.row < w.first + w.rows))
  let r := if 2 ≤ gone then us.foldl (State.indetUnit id) (s, 0) else (s, 0)
  (((r.1.bump fSAG_RESYNC_ROWS rows.length).irqBit pgSAG 1).event pgSAG 4 (le 4 id ++ le 2 rows.length ++ le 4 r.2))

/-- After a restart that lost the Saggar log, a segment's journal serves (R311): one copy that can be read is enough.
[DEDUCED: log entry 136] -/
def State.journalRun (s : State) (e : Nat × Segment) : State :=
  match e.2.jwin with
  | none => s
  | some w =>
    let gone := w.copies.filter (fun c => (s.member c.1).st ≠ 1)
    let s1 := if w.copies.length ≤ gone.length then s.resyncRows e.1 w
      else gone.foldl (fun t c => t.event pgSAG 3 (le 4 e.1 ++ le 1 c.1)) s
    s1.modSeg e.1 (fun v => { v with jwin := none })

/-- SAG starts: after a start it reads the journals whose log is lost, and reports the newest unreleased dump. -/
def State.sagRun (s : State) : State :=
  if s.back.sagFresh then
    let s1 : State := s.back.segs.foldl State.journalRun { s with back.sagFresh := false }
    match s1.newestDump with
    | some d => s1.event pgSAG 1 (le 8 d.id ++ le 8 d.lastComplete ++ le 1 (b2n d.final))
    | none => s1
  else s

/-- What a block does when it enters Run. -/
def State.runHook (s : State) (p : Nat) : State :=
  if p = pgEVT then s.ringStart
  else if p = pgLDT then s.startHeld
  else if p = pgSW then s.inputHeld
  else if p = pgFTL then s.ftlRun
  else if p = pgSAG then s.sagRun
  else if p = pgTALLY then s.tallyRun
  else if blkTypeOf p = pgMLINK 0 then s.linkOn (blkInstOf p)
  else s

/-- The block enters Run. -/
def State.enterRun (s : State) (p : Nat) : State :=
  (s.modPage p (fun g => { g with st := .run })).runHook p

/-! ### BLK_CTRL (R45) -/

/-- QUIESCING ends when nothing is in flight. -/
def State.tryQuiesced (s : State) (p : Nat) : State :=
  if (s.page p).st = .quiescing ∧ !s.blockBusy p then s.stateChange p .quiesced else s

/-- The ENABLE and QUIESCE bits of a write, by the state that it finds. A quadrant of MARK that copies its key states stores ENABLE
and reads Idle until the copy ends (R159). -/
def State.writeEnable (s : State) (p : Nat) (en qu : Bool) : State :=
  let g := s.page p
  let s1 := s.modPage p (fun x => { x with quiesce := qu })
  match g.st with
  | .off => s
  | .fault => s
  | .idle =>
    let s2 := s1.modPage p (fun x => { x with enable := en })
    if !en ∨ (blkTypeOf p = pgMARK ∧ ((s.markQuad (blkInstOf p)).refill ∨ g.resetting)) then s2
    else if qu then s2.stateChange p .quiesced
    else s2.enterRun p
  | .run => if qu then (s1.modPage p (fun x => { x with st := .quiescing })).tryQuiesced p else s1
  | .quiescing => if qu then s1 else s1.enterRun p
  | .quiesced =>
    if !en then
      let s2 := s1.modPage p (fun x => { x with st := .idle, enable := false })
      if p = pgEVT then { s2 with plat.evt.started := false } else s2
    else if qu then s1
    else s1.enterRun p

/-- A write to BLK_CTRL. A refused RESET leaves the other bits in force; in Fault only RESET acts.
[DEDUCED: log entry 72] -/
def State.writeCtrl (s : State) (p : Nat) (v : Nat) : State :=
  if v.testBit 2 then
    if s.mayReset p then s.writeReset p
    else (s.writeReset p).writeEnable p (v.testBit 0) (v.testBit 1)
  else s.writeEnable p (v.testBit 0) (v.testBit 1)

/-- BLK_CTRL as it stands: ENABLE, QUIESCE. -/
def State.ctrlBits (s : State) (p : Nat) : Nat := b2n (s.page p).enable + 2 * b2n (s.page p).quiesce

/-- BLOCK_ENABLE: ENABLE = 1.
[DEDUCED: log entry 96] -/
def execBlockEnable (page : Nat) (s : State) : Res :=
  .next (s.headerWrite page (fun t p => t.writeCtrl p (1 + 2 * b2n (t.page p).quiesce)))

/-- BLOCK_DISABLE: ENABLE = 0. -/
def execBlockDisable (page : Nat) (s : State) : Res :=
  .next (s.headerWrite page (fun t p => t.writeCtrl p (2 * b2n (t.page p).quiesce)))

/-- BLOCK_QUIESCE: QUIESCE = 1. -/
def execBlockQuiesce (page : Nat) (s : State) : Res :=
  .next (s.headerWrite page (fun t p => t.writeCtrl p (b2n (t.page p).enable + 2)))

/-- BLOCK_RESUME: QUIESCE = 0. -/
def execBlockResume (page : Nat) (s : State) : Res :=
  .next (s.headerWrite page (fun t p => t.writeCtrl p (b2n (t.page p).enable)))

/-- QUIESCE_COMPLETE: the last item in flight has ended. -/
def execQuiesceComplete (page : Nat) (s : State) : Res := .next (s.tryQuiesced page)

/-- BLOCK_RESET: RESET = 1.
[DEDUCED: log entry 96] -/
def execBlockReset (page : Nat) (s : State) : Res :=
  .next (s.headerWrite page (fun t p => t.writeCtrl p (4 + t.ctrlBits p)))

/-- BLOCK_RESET_DONE. -/
def execBlockResetDone (page : Nat) (s : State) : Res := .next (if (s.page page).resetting then s.resetEnds page else s)

/-- BLOCK_FAULT: an uncontained internal error of a block that is not Off or in Fault. -/
def execBlockFault (page : Nat) (infoA infoB : Word) (s : State) : Res :=
  .next (if pageExists page ∧ !isBroadcast page ∧ s.pageOn page ∧ (s.page page).st ≠ .off ∧ (s.page page).st ≠ .fault then
      (s.blockFaults page infoA.toNat infoB.toNat).restartPump
    else s)

/-! ### The rings' doorbells (R56, R60) -/

/-- ESEQ_CONS is written. -/
def State.writeEseqCons (s : State) (v : Nat) : State :=
  if s.plat.evt.eseqCons ≤ v ∧ v ≤ s.plat.evt.eseqProd then { s with plat.evt.eseqCons := v } else s
def execEseqConsWrite (value : Nat) (s : State) : Res := .next (s.gated pgEVT (fun t => t.writeEseqCons value))

/-- CSEQ_PROD is written: commands are published, and taking resumes. -/
def State.writeCseqProd (s : State) (v : Nat) : State :=
  if s.plat.evt.cseqProd ≤ v ∧ v ≤ s.plat.evt.cseqDone + s.cmdSize then { s with plat.evt.cseqProd := v, plat.evt.seqStop := false }
  else s.irqBit pgEVT 4
def execCseqProdWrite (value : Nat) (s : State) : Res := .next (s.gated pgEVT (fun t => t.writeCseqProd value))

/-! ### NOP and CONFIG_COMMIT (R49, R465) -/

/-- NOP, and an entry whose OPCODE its block does not know, which ends with 0xFF02 (R55). An OPCODE that the block knows is another command's.
[DESIGN CHOICE: log entry 115] -/
def execNop (h : CmdHdr) (entry : EntryOp) (s : State) : Res :=
  .next (if entry.opcode = 0 then s.command h entry.blkType 0 .nop (fun _ t => (t, .done stOk 0))
    else if opcodeKnown entry.blkType entry.opcode then s
    else s.command h entry.blkType entry.opcode (if entry.opcode < 0x0100 then .nop else .work) (fun _ t => (t, .done stUnknown 0)))

/-- The first condition of R141 and R144 that the staged configuration of BUF breaks: a class, 8 the sum, 9 the banks. -/
def State.bufBreaks (s : State) : Option Nat :=
  let res := (List.range 8).map (fun c => (s.reg (rBUF_RES c)).toNat)
  let en := s.fld fBUF_BANK_EN
  match (List.range 8).find? (fun c => decide (res.getD c 0 < (if c = 7 then 1024 else 16448))) with
  | some c => some c
  | none =>
    if 32768 * popCount 8 en < res.foldl (· + ·) 0 then some 8
    else if en ≠ s.sw.cfg.bankEn ∧ s.blk pgSW ≠ .idle ∧ s.blk pgSW ≠ .quiesced then some 9
    else if en &&& s.fld fPWR_BANK_GATE ≠ 0 then some 9
    else none

/-- The staged configuration of BUF takes effect. -/
def State.bufCommit (s : State) : State :=
  let res := (List.range 8).map (fun c => (s.reg (rBUF_RES c)).toNat)
  { s with sw.cfg := { res := res, spill := s.fld fBUF_OVF_CFG_SPILL_CELLS, ovfEn := s.fld fBUF_OVF_CFG_OVF_EN, bankEn := s.fld fBUF_BANK_EN
                       lowered := (List.range 8).filter (fun c =>
                         (decide (res.getD c 0 < s.bufRes c) && decide (res.getD c 0 < s.committed c))
                           || (s.sw.cfg.lowered.contains c && decide (res.getD c 0 - 64 ≤ s.committed c))) } }

/-- The dump sets' need of blocks, where a stripe group exists to hold them (R313).
[DEDUCED: log entry 31] -/
def State.dumpRoom (s : State) (sizeMib : Nat) : Bool :=
  let gs := (s.back.groups.filter (fun e => e.2.exists_ && e.2.foreign.isNone)).map Prod.fst
  gs.isEmpty || decide (2 * sizeMib * 256 ≤ gs.foldl (fun n g => n + s.grpF g * 18432 * (s.grpN g - 2)) 0)

/-- The staged configuration of a block takes effect, or is rejected with what INFO_A then holds. A block without one accepts. -/
def State.configCommit (s : State) (p : Nat) : State × Option Nat :=
  if p = pgBUF then
    match s.bufBreaks with
    | some a => (s, some a)
    | none => (s.bufCommit, none)
  else if p = pgNVF then
    let m := s.fld fNVF_STAGE_CFG_POOL_MIB
    if m < 8 ∨ s.back.dataMib < m then (s, some 0) else ({ s with nvf.poolMib := m }, none)
  else if p = pgFTL then
    let l0 := s.fld (fFTL_MPD_LIMIT 0)
    let l1 := s.fld (fFTL_MPD_LIMIT 1)
    let mx := s.fld fFTL_PSLC_CFG_P_MAX
    let mn := s.fld fFTL_PSLC_CFG_P_MIN
    if l0 = 0 ∨ l1 = 0 ∨ mx = 0 ∨ 2500 < mx ∨ mx < mn then (s, some 0)
    else
      let s1 : State := { s with
        back.mpdLimit := [l0, l1], back.pMax := mx, back.pMin := mn
        back.openMax := (List.range 6).map (fun i => s.fld (fFTL_STREAM_CFG_OPEN_MAX i)) }
      ((List.range 4).foldl (fun t g => if (t.group g).exists_ then t.spaceBack g else t) s1, none)
  else if p = pgSAG then
    let size := s.fld fSAG_SIZE_SIZE_MIB
    let data := s.fld fSAG_AREA_CFG_DATA_MIB
    let delta := s.fld fSAG_AREA_CFG_DELTA_MIB
    if size < 64 ∨ data < 8 ∨ delta < 8 ∨ 4096 < delta ∨ 16384 < size ∨ 256 * size < 256 * data + data + 512 * delta + 256 * 33 ∨ data < s.nvf.poolMib
        ∨ !s.dumpRoom size then (s, some 0)
    else ({ s with back.sizeMib := size, back.dataMib := data, back.deltaMib := delta }, none)
  else (s, none)

/-- CONFIG_COMMIT. -/
def execConfigCommit (h : CmdHdr) (blkType : Nat) (s : State) : Res :=
  .next (s.command h blkType 1 .commit (fun p t =>
    match t.configCommit p with
    | (t1, none) => (t1, .done stOk 0)
    | (t1, some a) => (t1.capture p 0xF2 a 0, .done stConfig 0)))

end Sys2Proof.Machine
end

