-- ==== Sys2Proof/Machine/Pwr.lean ====
section
/-! DEFINITION. Power domains, their commands and timers, Cold and its wake sources, the bank gates and the software area of always-on memory
(R397-R410, R441). -/

namespace Sys2Proof.Machine

def pwBadArg : Nat := 1
def pwRefused : Nat := 2
def pwBusy : Nat := 3
def pwTimeout : Nat := 4
def pwForceRefused : Nat := 5
def pwCancelled : Nat := 6
def pwPowerFail : Nat := 7

/-- PWR.DOMAIN.STATE. -/
def DomState.code : DomState → Nat
  | .firing => 0
  | .draining => 1
  | .entering => 2
  | .soak => 3
  | .banked => 4
  | .waking => 5

/-- A change of a domain's state is posted (R398). -/
def State.domGoes (s : State) (d : Nat) (new : DomState) : State :=
  let x := s.dom d
  ((s.setDom d { x with st := new }).irqBit pgPWR 0).event pgPWR 1 (le 1 d ++ le 1 x.st.code ++ le 1 new.code)

/-! ### What is refused (R398, R401) -/

/-- No domain of `ds` other than `d` is in state Firing. -/
def State.lastFiring (s : State) (ds : List Nat) (d : Nat) : Bool := ds.all (fun e => e = d || (s.dom e).st ≠ .firing)

/-- The transitions that PWR refuses; target 1 is Soak and 2 Banked. -/
def State.pwrRefused (s : State) (d target : Nat) : Bool :=
  target ≠ 0 &&
  (decide (d ≤ 1)
  || (decide (2 ≤ d ∧ d ≤ 13) && s.lastFiring ((List.range 12).map (· + 2)) d)
  || (decide (21 ≤ d ∧ d ≤ 26) && (List.range 4).any (fun k => (s.member (4 * (d - 21) + k)).st = 1))
  || (d = 27 && (s.upd.st = .staging || s.upd.st = .staged || s.upd.st = .activating))
  || (decide (27 ≤ d ∧ d ≤ 30) && s.arrayMode && s.lastFiring [27, 28, 29, 30] d && decide (s.reg64 rFTL_CKPT_SEQ < s.lmap.commitSeq))
  || (d = 32 && s.blk pgSW ≠ .idle && s.blk pgSW ≠ .quiesced)
  || ((s.dom d).st = .banked && target = 1))

/-- A front-end half holds an admitted command of R128. -/
def State.halfWrites (s : State) (half : Nat) : Bool :=
  s.nvf.cmds.any (fun e => e.2.phase = .admitted && !e.2.connect && !e.2.admin && e.2.ctx % 2 = half && (e.2.writes || e.2.opc = ocDsm))

/-- Forced mode is accepted (R401). -/
def State.forceOk (s : State) (d : Nat) : Bool :=
  !(d = 20 || decide (21 ≤ d ∧ d ≤ 26) || d = 32 || (d = 14 && s.halfWrites 0) || (d = 15 && s.halfWrites 1))

/-- A restart has been asked for, or a chip-fatal sequence holds: no new transition starts (R439). -/
def State.restarting (s : State) : Bool := s.plat.chip.restartReq.isSome || s.plat.chip.fatalHold

/-! ### Draining (R400) -/

/-- A block has drained. -/
def BlkState.drained : BlkState → Bool
  | .quiesced => true
  | .idle => true
  | .off => true
  | _ => false

/-- QUIESCE = 1 is written to a page that has QUIESCE = 0; the result lists the pages that took it. -/
def quiescePage (a : State × List Nat) (p : Nat) : State × List Nat :=
  if (a.1.page p).quiesce then a
  else
    let s1 := a.1.writeEnable p (a.1.page p).enable true
    (s1, if (s1.page p).quiesce then a.2 ++ [p] else a.2)

/-- The QUIESCE bit that PWR set is cleared. -/
def State.unquiesce (s : State) (p : Nat) : State := if (s.page p).quiesce then s.writeEnable p (s.page p).enable false else s

/-- A drain starts. -/
def State.drainStart (s : State) (d : Nat) (c : DomCmd) : State :=
  let r := (pagesOfDom d).foldl quiescePage (s, [])
  (r.1.setDom d { r.1.dom d with cmd := some c, wake := none, quiesced := r.2 }).domGoes d .draining

/-- A drain ends without entry: the domain is Firing again. -/
def State.drainEnd (s : State) (d : Nat) : State :=
  let x := s.dom d
  let s1 := x.quiesced.foldl State.unquiesce s
  (s1.setDom d { s1.dom d with cmd := none, quiesced := [] }).domGoes d .firing

/-- The islands of a domain. -/
def islandsOfDom (d : Nat) : List Nat := ((List.range 25).map (· + 1)).filter (fun i => domOfIsland i = some d)

/-- Handshakes that wait for a clock of an island whose domain leaves Firing end at once (R34).
[DESIGN CHOICE: log entry 127] -/
def State.crossOff (s : State) (i : Nat) : State :=
  (List.range 32).foldl (fun t k => t.heldFails i 3 k) s

/-- An island loses its power: its clock stops, and its pair is reset with it (R29).
[DESIGN CHOICE: log entry 127] -/
def State.islandLoses (s : State) (i : Nat) : State :=
  { s.setIsland i { s.island i with clkRun := false, clkStop := false, inReset := false } with
    plat.crossings := s.plat.crossings.filter (fun e => e.1 / 32 ≠ i) }

/-- The clock of an island starts with its domain when its reference runs. -/
def State.islandFires (s : State) (i : Nat) : State :=
  if (s.island i).refOn then s.setIsland i { s.island i with clkRun := true } else s

/-- A domain goes down: frames queued toward its endpoints are dropped (R153); those on a peer link member move or are dropped. -/
def State.queuesLose (s : State) (d : Nat) : State :=
  if d = 20 then (List.range 4).foldl State.memberDown s
  else if d = 0 then s
  else ((List.range 21).filter (fun ep => epDom ep = some d)).foldl State.dropQueues s

/-- Entry starts: the isolation clamps apply, and the blocks are Off. -/
def State.entryStart (s : State) (d : Nat) : State :=
  let s1 := (s.domGoes d .entering).queuesLose d
  let s2 := (pagesOfDom d).foldl (fun t p => t.modPage p (fun g => { g with st := .off })) s1
  let s3 := (islandsOfDom d).foldl State.crossOff s2
  if 27 ≤ d ∧ d ≤ 30 then (s3.markLose (d - 27)).markWaiters else s3

/-- A drain is aborted: by its timer, or by a power failure (R408).
[DEDUCED: log entry 68] -/
def State.drainAbort (s : State) (d : Nat) (forced : Bool) : State :=
  match (s.dom d).cmd with
  | none => s
  | some c =>
    let left := ((pagesOfDom d).filter (fun p => !(s.page p).st.drained)).length
    let s1 := (((s.drainEnd d).capture pgPWR (if forced then 2 else 1) d 0).irqBit pgPWR 1).irqBit pgPWR 2
    (s1.event pgPWR 2 (le 1 d ++ le 4 left)).finishRunning c.cseq 0 (if c.chipReset then 3 else if forced then pwForceRefused else pwTimeout)

/-- The work that is left ends with Domain Powered Down (R127, R400, R467). -/
def State.forceDown (s : State) (d : Nat) : State :=
  let s1 := (pagesOfDom d).foldl (fun t p => t.workStops .powered p) s
  let s2 := if d = 14 ∨ d = 15 then s1.endCmds scPowered (fun c => c.ctx % 2 = d - 14 && !c.connect && c.phase = .admitted) else s1
  (s2.event pgPWR 3 (le 1 d)).entryStart d

/-! ### Entry and wake (R399, R402, R404) -/

/-- The RW and RWL bits of the word at a window offset.
[DEDUCED: log entry 74] -/
def savedMask (a : Nat) : Nat :=
  match findRow (pageRows (a / 0x10000)) (a % 0x10000) with
  | some (r, d) => ((r.rw ||| r.rwl) / 2 ^ (8 * d)) % 2 ^ 32
  | none => 0

/-- A word with its saved bits, the others at their reset value. -/
def savedWord (a : Nat) (v : Word) : Word :=
  let m := BitVec.ofNat 32 (savedMask a)
  (v &&& m) ||| (resetWord a &&& ~~~m)

/-- The domain's slot of always-on memory is written. -/
def State.saveDom (s : State) (d : Nat) : State :=
  let mine := s.regs.filter (fun e => domOfPage (e.1 / 0x10000) = some d)
  let words := mine.foldl (fun t e => Tab.putF resetWord t e.1 (savedWord e.1 e.2)) ([] : Tab Word)
  let hdr := (pagesOfDom d).map (fun p => let g := s.page p; (p, g.enable, g.irqEn, g.scratch))
  s.setDom d { s.dom d with saved := words, savedHdr := hdr, saveValid := true }

/-- A module link loses its state. -/
def State.linkLoses (s : State) (m : Nat) : State :=
  ((s.linkStops m).linkEnd m).modLink m (fun l => { l with unacked := [], replays := 0, txSeq := 0, rxSeq := 0, stream := [], txWait := [] })

/-- What a domain loses in Banked. -/
def State.domLoses (s : State) (d : Nat) : State :=
  let s1 := if 2 ≤ d ∧ d ≤ 13 then s.cluStops (d - 2)
    else if 16 ≤ d ∧ d ≤ 19 then s.clearHold (fun p => p = pgHPORT (2 * (d - 16)) || p = pgHPORT (2 * (d - 16) + 1))
    else if d = 20 then s.clearHold (fun p => (List.range 4).any (fun m => p = pgPLINK m))
    else if 21 ≤ d ∧ d ≤ 26 then (linksOf (d - 10)).foldl State.linkLoses s
    else if d = 31 then { (List.range 16).foldl State.dropWay s with mem.lru := [] }
    else if d = 32 ∧ !s.sw.frames.isEmpty then s.swStops
    else s
  let s1 := (islandsOfDom d).foldl State.islandLoses s1
  { s1 with
    regs := s1.regs.filter (fun e => domOfPage (e.1 / 0x10000) ≠ some d)
    pages := (pagesOfDom d).foldl (fun t p => Tab.put {} t p { st := .off }) s1.pages }

/-- Waking starts for the command `q`. -/
def State.wakeStart (s : State) (d : Nat) (c : DomCmd) : State :=
  (s.setDom d { s.dom d with cmd := some c, wake := none }).domGoes d .waking

/-- Entry is complete: Soak or Banked; a recorded wake, and a CHIP_DOMAIN_RESET, go on to Waking. -/
def State.entryDone (s : State) (d : Nat) (c : DomCmd) : State :=
  let x := s.dom d
  let n := min 65535 (x.entries + 1)
  if c.target = 1 then
    let s1 := ((s.setDom d { x with entries := n, cmd := none }).domGoes d .soak).finishRunning c.cseq 0 stOk
    match x.wake with
    | some q => s1.wakeStart d ⟨q, 0, false⟩
    | none => s1
  else
    let s1 := if c.chipReset then s else s.saveDom d
    let s2 := s1.domLoses d
    let s3 := (s2.setDom d { s2.dom d with entries := n, cmd := none, quiesced := [] }).domGoes d .banked
    if c.chipReset then s3.wakeStart d c
    else
      let s4 := s3.finishRunning c.cseq 0 stOk
      match x.wake with
      | some q => s4.wakeStart d ⟨q, 0, false⟩
      | none => s4

/-- The save slot of a domain. -/
def saveSlot (d : Nat) : Nat := 0x200000 + 0x8000 * (d - 2)

/-- The listed registers are restored; an error in the slot leaves reset values (R410).
[DEDUCED: log entry 74] -/
def State.restoreDom (s : State) (d : Nat) : State :=
  let x := s.dom d
  if !x.saveValid then s
  else
    let s1 := s.setDom d { x with saved := [], savedHdr := [], saveValid := false, saveBad := false }
    if x.saveBad then (s1.capture pgAON 0x01 (saveSlot d) 0).irqBit pgAON 0
    else
      let s2 : State := { s1 with
        regs := x.saved.foldl (fun t e => Tab.putF resetWord t e.1 e.2) s1.regs
        pages := x.savedHdr.foldl (fun t h =>
          match h with
          | (p, en, ie, sc) => Tab.upd {} t p (fun g => { g with enable := en, irqEn := ie, scratch := sc })) s1.pages }
      if 2 ≤ d ∧ d ≤ 13 then s2.setCluster (d - 2) { s2.cluster (d - 2) with scratchWays := s2.fld (fCLU_MEM_CFG_SCRATCH_WAYS (d - 2)) } else s2

/-- A quadrant of GROG that comes back from Off while no other runs finds the hot tier empty (R175). -/
def State.grogBack (s : State) (p : Nat) : State :=
  if blkTypeOf p = pgGROG ∧ isQuadrant p ∧ (List.range 4).all (fun q => !s.runs (quadPage pgGROG q)) then s.hotEmpty else s

/-- A block leaves Off (R45). -/
def State.leaveOff (s0 : State) (p : Nat) : State :=
  let g := s0.page p
  let s := s0.grogBack p
  if g.st ≠ .off then s0
  else if !g.enable ∨ (blkTypeOf p = pgMARK ∧ (s.markQuad (blkInstOf p)).refill) then s.modPage p (fun x => { x with st := .idle })
  else if g.quiesce then s.stateChange p .quiesced
  else s.enterRun p

/-- The pages whose interrupt lines are delivered again when a domain fires. -/
def State.linesOf (s : State) (d : Nat) : List Nat :=
  allPages.filter (fun p => domOfPage p = some d || (decide (2 ≤ d ∧ d ≤ 13) && s.fld (fIRQR_ROUTE_HART p) / 8 = d - 2))

/-- Waking ends. -/
def State.wakeDone (s : State) (d : Nat) : State :=
  let x := s.dom d
  let s1 := s.restoreDom d
  let s2 := x.quiesced.foldl (fun t p => t.modPage p (fun g => { g with quiesce := false })) s1
  let s3 := if 27 ≤ d ∧ d ≤ 30 ∧ !(s2.markQuad (d - 27)).copy then s2.markReturn (d - 27) else s2
  let s3 := (islandsOfDom d).foldl State.islandFires s3
  let s4 := (pagesOfDom d).foldl State.leaveOff s3
  let s5 := (s4.setDom d { s4.dom d with cmd := none, quiesced := [] }).domGoes d .firing
  let s6 := if 27 ≤ d ∧ d ≤ 30 then s5.markWaiters else s5
  let s7 := if 21 ≤ d ∧ d ≤ 26 then (linksOf (d - 10)).foldl State.linkStart s6 else s6
  let s8 := (s7.linesOf d).foldl State.irqMessage s7
  match x.cmd with
  | some c => s8.finishRunning c.cseq 0 stOk
  | none => s8

/-! ### Commands and timers (R400, R409, R441) -/

/-- PWR_SET for a domain that has no command running. -/
def State.pwrStart (s : State) (d target cseq : Nat) : State × CmdEnd :=
  let st := (s.dom d).st
  let c : DomCmd := ⟨cseq, target, false⟩
  if (st = .firing ∧ target = 0) ∨ (st = .soak ∧ target = 1) ∨ (st = .banked ∧ target = 2) then (s, .done stOk 0)
  else if s.pwrRefused d target then (s, .done pwRefused 0)
  else if target = 0 then (s.wakeStart d c, .running [d])
  else if st = .firing then (s.drainStart d c, .running [d])
  else ((s.setDom d { s.dom d with cmd := some c, wake := none }).entryStart d, .running [d])

/-- PWR_SET. -/
def execPwrSet (h : CmdHdr) (dom target : Nat) (s : State) : Res :=
  .next (s.command h pgPWR 0x0100 .work fun _ t =>
    if 32 < dom ∨ 2 < target then (t, .done pwBadArg 0)
    else if t.plat.pwr.powerFail then (t, .done pwPowerFail 0)
    else if t.restarting then (t, .done pwRefused 0)
    else
      let x := t.dom dom
      match x.cmd with
      | none => t.pwrStart dom target h.cseq
      | some c =>
        if target = 0 ∧ !c.chipReset ∧ x.st = .draining then ((t.drainEnd dom).finishRunning c.cseq 0 pwCancelled, .done stOk 0)
        else if target = 0 ∧ !c.chipReset ∧ x.st = .entering ∧ x.wake.isNone then
          (t.setDom dom { x with wake := some h.cseq }, .running [dom])
        else (t, .done pwBusy 0))

/-- CHIP_DOMAIN_RESET.
[DEDUCED: log entry 68] -/
def execChipDomainReset (h : CmdHdr) (dom : Nat) (s : State) : Res :=
  .next (s.command h pgCHIP 0x0100 .work fun _ t =>
    if 32 < dom then (t, .done 1 0)
    else
      let x := t.dom dom
      let c : DomCmd := ⟨h.cseq, 2, true⟩
      if dom ≤ 1 ∨ x.cmd.isSome ∨ t.restarting ∨ t.pwrRefused dom 2 then (t, .done 2 0)
      else if x.st = .firing then (t.drainStart dom c, .running [dom])
      else if x.st = .soak then ((t.setDom dom { x with cmd := some c, wake := none }).entryStart dom, .running [dom])
      else ((t.setDom dom { x with saved := [], savedHdr := [], saveValid := false }).wakeStart dom c, .running [dom]))

/-- DOMAIN_DRAINED. -/
def execDomainDrained (dom : Nat) (s : State) : Res :=
  .next (if (s.dom dom).st = .draining ∧ (pagesOfDom dom).all (fun p => (s.page p).st.drained) then s.entryStart dom else s)

/-- DRAIN_TIMER_EXPIRY.
[DESIGN CHOICE: log entry 5] -/
def execDrainTimerExpiry (dom : Nat) (s : State) : Res :=
  .next (if (s.dom dom).st = .draining then
      if s.fld fPWR_CTRL_DRAIN_MODE = 1 ∧ !s.plat.pwr.powerFail then
        (if s.forceOk dom then s.forceDown dom else s.drainAbort dom true)
      else s.drainAbort dom false
    else s)

/-- DOMAIN_ENTRY_DONE. -/
def execDomainEntryDone (dom : Nat) (s : State) : Res :=
  .next (match (s.dom dom).cmd with
    | some c => if (s.dom dom).st = .entering then s.entryDone dom c else s
    | none => s)

/-- DOMAIN_WAKE_DONE. -/
def execDomainWakeDone (dom : Nat) (s : State) : Res := .next (if (s.dom dom).st = .waking then s.wakeDone dom else s)

/-! ### Cold (R406, R407) -/

/-- Every block outside PD0 and PD1 is Idle, Quiesced or Off, and the checkpoint covers every commit unit. -/
def State.coldAllowed (s : State) : Bool :=
  (allPages.filter (fun p => domOfPage p ≠ some 0 && domOfPage p ≠ some 1 && !isBroadcast p)).all (fun p => (s.page p).st.drained)
    && decide (s.lmap.commitSeq ≤ s.reg64 rFTL_CKPT_SEQ)

/-- The rails are switched off: HBM loses its content, and every island outside PD0 and PD1 its power (R29, R34, R406). -/
def State.coldEntry (s : State) : State :=
  let ps := allPages.filter (fun p => domOfPage p ≠ some 0 && domOfPage p ≠ some 1)
  let s1 := (List.range 24).foldl State.linkLoses s
  let s2 := ps.foldl (fun t p => t.modPage p (fun g => { g with st := .off })) s1
  let s3 := (List.range 19).foldl (fun t i => (t.crossOff (i + 1)).islandLoses (i + 1)) s2
  { s3 with mem := {}, plat.pwr.cold := true, plat.pwr.enCore := false, plat.pwr.enHbm := false }

/-- PWR_COLD. -/
def execPwrCold (h : CmdHdr) (s : State) : Res :=
  let s1 := s.command h pgPWR 0x0101 .work fun _ t =>
    if t.plat.pwr.powerFail then (t, .done pwPowerFail 0)
    else if t.restarting ∨ !t.coldAllowed then (t, .done pwRefused 0)
    else (({ t with plat.pwr.enCore := false } : State).event pgPWR 4 (le 1 (t.reg rPWR_WAKE_EN).toNat), .done stOk 0)
  .next (if s.plat.pwr.enCore ∧ !s1.plat.pwr.enCore then s1.coldEntry else s1)

/-- A wake source of Cold: the rails come up. -/
def State.coldWake (s : State) (armed : Nat) (cause : Nat) : State :=
  if s.plat.pwr.cold ∧ !s.plat.pwr.waking ∧ armed = 1 ∧ !s.plat.pwr.powerFail then
    { s with plat.pwr.waking := true, plat.pwr.coldCause := cause, plat.pwr.enCore := true, plat.pwr.enHbm := true }
  else s

/-- WAKE_N_ASSERT. -/
def execWakeNAssert (s : State) : Res := .next (s.coldWake (s.fld fPWR_WAKE_EN_WAKE_N) 1)

/-- WAKE_TIME_REACHED. -/
def execWakeTimeReached (s : State) : Res :=
  .next (if s.reg64 rPWR_WAKE_TIME ≠ 0 ∧ s.reg64 rPWR_WAKE_TIME ≤ s.now then s.coldWake (s.fld fPWR_WAKE_EN_TIMER) 3 else s)

/-- POWER_GOOD_ASSERT: the chip starts from the boot ROM. -/
def execPowerGoodAssert (env : BootEnv) (s : State) : Res :=
  .next (if s.plat.pwr.cold ∧ s.plat.pwr.waking then ({ s with plat.chip.env := env } : State).start .cold 1 s.plat.pwr.coldCause else s)

/-! ### Gates, power failure and always-on memory (R405, R408, R410, R458) -/

/-- PWR.BANK_GATE is written.
[DEDUCED: log entry 52] -/
def State.writeBankGate (s : State) (v : Nat) : State :=
  let old := s.fld fPWR_BANK_GATE
  let refused := (bitList 8 v).filter (fun b => !old.testBit b && s.sw.cfg.bankEn.testBit b)
  let s1 := s.setFld fPWR_BANK_GATE (maskOf ((bitList 8 v).filter (fun b => !refused.contains b)))
  match refused with
  | [] => s1
  | b :: _ => (s1.capture pgPWR 0x03 b 0).irqBit pgPWR 2
def execPwrBankGate (value : Nat) (s : State) : Res := .next (s.gated pgPWR (fun t => t.writeBankGate value))

/-- POWER_FAIL_ASSERT: latched until the next PORST_N. Every drain is aborted. -/
def execPowerFailAssert (s : State) : Res :=
  .next (if s.plat.chip.porstLow ∨ s.plat.pwr.powerFail then s
    else
      let s1 : State := { s with plat.pwr.powerFail := true, plat.chip.admissionStopped := true }
      ((List.range 33).filter (fun d => (s1.dom d).st = .draining)).foldl (fun t d => t.drainAbort d false) s1)

/-- The word that AON.SW_ADDR addresses. -/
def State.swWord (s : State) : Nat := s.fld fAON_SW_ADDR

/-- A word of the software area cannot be read. -/
def State.swUncorr (s : State) : State := (s.capture pgAON 0x02 (0x300000 + 8 * s.swWord) 0).irqBit pgAON 0

/-- AON.SW_DATA is written: half 0 or 1 alone, or the whole word. -/
def State.writeSwData (s : State) (half data : Nat) : State :=
  let w := s.swWord
  let old := s.plat.aon.words.get 0 w
  if half < 2 then
    if s.plat.aon.bad.contains w then s.swUncorr
    else { s with plat.aon.words := s.plat.aon.words.put 0 w (setBits old (32 * half + 31) (32 * half) data) }
  else { s with plat.aon.words := s.plat.aon.words.put 0 w (data % 2 ^ 64), plat.aon.bad := s.plat.aon.bad.filter (fun k => k ≠ w) }
def execAonSwDataWrite (half data : Nat) (s : State) : Res := .next (s.gated pgAON (fun t => t.writeSwData half data))

end Sys2Proof.Machine
end

