-- ==== Sys2Proof/Machine/Store.lean ====
section
/-! DEFINITION. The settings store: its operations, its lock and its stage slots (R63-R65). -/

namespace Sys2Proof.Machine

/-- The row that a stage slot names, 65,536 * bank + row, when it is valid. -/
def State.stageRow (s : State) (i : Nat) : Option Nat :=
  let a := s.plat.store.stageAddr.get 0 i
  if a.testBit 31 then some (65536 * getBits a 16 16 + getBits a 15 0) else none

/-- Every VALID bit is cleared. -/
def State.stageClear (s : State) : State :=
  { s with plat.store.stageAddr := (List.range 64).foldl (fun t i => t.put 0 i (getBits (t.get 0 i) 30 0)) s.plat.store.stageAddr }

/-- The rows that a running operation writes, in order, with their content. -/
def State.storeWrites (s : State) (op : Nat) : List (Nat × Nat) :=
  if op = 1 then (List.range 64).filterMap (fun i => (s.stageRow i).map (fun r => (r, s.plat.store.stageData.get 0 i)))
  else
    let ks := (s.plat.store.rows.map (fun e => e.1 % 65536)).foldl (fun l k => if l.contains k then l else l ++ [k]) []
    if op = 4 then ks.map (fun k => (65536 + k, s.plat.store.rows.get 0 k))
    else if op = 5 then ks.map (fun k => (k, s.plat.store.rows.get 0 (65536 + k)))
    else []

/-- The bank that a running operation selects. -/
def storeBank (op : Nat) : Option Nat := if op = 2 then some 0 else if op = 3 then some 1 else none

/-- A row is programmed. -/
def State.storeRow (s : State) (w : Nat × Nat) : State :=
  { s with plat.store.rows := s.plat.store.rows.put 0 w.1 w.2, plat.store.torn := s.plat.store.torn.filter (fun k => k ≠ w.1) }

/-- A copy takes the rows that cannot be read along. -/
def State.copyTorn (s : State) (op : Nat) : State :=
  if op = 4 then
    { s with plat.store.torn := s.plat.store.torn.filter (fun k => decide (k < 65536))
               ++ (s.plat.store.torn.filter (fun k => decide (k < 65536))).map (fun k => k + 65536) }
  else if op = 5 then
    { s with plat.store.torn := (s.plat.store.torn.filter (fun k => decide (65536 ≤ k))).map (fun k => k - 65536)
               ++ s.plat.store.torn.filter (fun k => decide (65536 ≤ k)) }
  else s

/-- STORE.CMD is written with an OP of R64. -/
def State.storeStart (s : State) (op : Nat) : State :=
  let s1 : State := { s with plat.store.lastOp := op }
  if s.plat.store.busy.isSome then { s1 with plat.store.lastResult := 1 }
  else if s.plat.pwr.powerFail then { s1 with plat.store.lastResult := 2 }
  else if op = 6 then { s1.stageClear with plat.store.lastResult := 0 }
  else if op = 1 ∧ (s.storeWrites 1).isEmpty then { s1 with plat.store.lastResult := 0 }
  else { s1 with plat.store.busy := some op }

/-- STORE_COMMIT. -/
def execStoreCommit (s : State) : Res := .next (s.gated pgSTORE (fun t => t.storeStart 1))
/-- STORE_SELECT_A. -/
def execStoreSelectA (s : State) : Res := .next (s.gated pgSTORE (fun t => t.storeStart 2))
/-- STORE_SELECT_B. -/
def execStoreSelectB (s : State) : Res := .next (s.gated pgSTORE (fun t => t.storeStart 3))
/-- STORE_COPY_A_TO_B. -/
def execStoreCopyAToB (s : State) : Res := .next (s.gated pgSTORE (fun t => t.storeStart 4))
/-- STORE_COPY_B_TO_A. -/
def execStoreCopyBToA (s : State) : Res := .next (s.gated pgSTORE (fun t => t.storeStart 5))
/-- STORE_DISCARD. -/
def execStoreDiscard (s : State) : Res := .next (s.gated pgSTORE (fun t => t.storeStart 6))

/-- What a finished operation leaves: the rows it wrote; of a row that fails its verify, the old content, the new, or neither. The code of
that capture is not given. -/
def State.storeDone (s : State) (op : Nat) (bad : Option Nat) : State :=
  let ws := s.storeWrites op
  let good := ws.filter (fun w => bad ≠ some w.1)
  let s1 := (good.foldl State.storeRow s).copyTorn op
  let s2 := s1.storeCut (ws.filter (fun w => bad = some w.1)) none
  let s3 : State := match storeBank op with
    | some b => { s2 with plat.store.bootBank := b }
    | none => s2
  let s4 := if op = 1 then s3.stageClear else s3
  let clean := (ws.filter (fun w => bad = some w.1)).isEmpty
  let s5 : State := { s4 with plat.store.busy := none, plat.store.lastResult := if clean then 0 else 3 }
  match bad, clean with
  | some r, false => let f := s5.freeNat; f.2.capture pgSTORE (1 + f.1 % 0xEF) r 0
  | _, _ => s5

/-- STORE_OP_DONE; `verifyFail` names a row of the operation that fails its verify, 65,536 * bank + row. A warm restart that waits for the
operation goes on.
[DEDUCED: log entry 66] -/
def execStoreOpDone (verifyFail : Option Nat) (s : State) : Res :=
  .next (match s.plat.store.busy with
    | some op => (s.storeDone op verifyFail).restartPump
    | none => s)

/-- STORE_LOCK: LOCKED = 1 until the next power-on reset. -/
def execStoreLock (s : State) : Res := .next (s.gated pgSTORE (fun t => t.setReg rSTORE_LOCK 1))

/-- A stage slot's target or data is written, unless an operation runs (R65). -/
def State.writeStageAddr (s : State) (i v : Nat) : State :=
  if s.plat.store.busy.isSome then s
  else { s with plat.store.stageAddr := s.plat.store.stageAddr.put 0 i (setBits (setBits (v % 2 ^ 32) 30 17 0) 31 31 (getBits v 31 31)) }
def State.writeStageData (s : State) (i w v : Nat) : State :=
  if s.plat.store.busy.isSome then s
  else { s with plat.store.stageData := s.plat.store.stageData.upd 0 i (fun d => setBits d (32 * w + 31) (32 * w) v) }

end Sys2Proof.Machine
end

