-- ==== Sys2Proof/Machine/Upd.lean ====
section
/-! DEFINITION. UPD: update packages, staging, activation, confirmation and fall-back (R418-R430). -/

namespace Sys2Proof.Machine

def udBadArg : Nat := 0x01
def udState : Nat := 0x02
def udBadHeader : Nat := 0x03
def udSignature : Nat := 0x04
def udRollback : Nat := 0x05
def udNoEnvelope : Nat := 0x06
def udDigest : Nat := 0x07
def udTag : Nat := 0x08
def udDelta : Nat := 0x09
def udCipher : Nat := 0x0A
def udFlash : Nat := 0x0B
def udNotOwner : Nat := 0x0C
def udOwns : Nat := 0x0E
def udDevice : Nat := 0x0F
def udZeroized : Nat := 0x10
def udSlotFull : Nat := 0x11

/-! ### The package (R418-R421) -/

/-- Header fields. -/
def hdrParts (h : List Byte) : Nat := unLe (slice h 0x006 2)
def hdrRollback (h : List Byte) : Nat := unLe (slice h 0x00C 4)
def hdrEnvs (h : List Byte) : Nat := unLe (slice h 0x014 4)
def hdrBody (h : List Byte) : Nat := unLe (slice h 0x018 8)

/-- B0, the start of the body. -/
def bodyStart (envs : Nat) : Nat := 12288 + 64 * envs

/-- A manifest entry. -/
structure PartHdr where
  part : Nat
  kind : Nat
  version : Nat
  off : Nat
  len : Nat
  imageLen : Nat
  base : List Byte
  digest : List Byte
  deriving DecidableEq, Repr

def manifestBytes (h : List Byte) (i : Nat) : List Byte := slice h (0x060 + 128 * i) 128
def partHdr (b : List Byte) : PartHdr :=
  ⟨unLe (slice b 0 1), unLe (slice b 1 1), unLe (slice b 4 4), unLe (slice b 8 8), unLe (slice b 0x10 8), unLe (slice b 0x18 8), slice b 0x20 32,
    slice b 0x40 32⟩
def manifest (h : List Byte) : List PartHdr := (List.range (min 6 (hdrParts h))).map (fun i => partHdr (manifestBytes h i))

/-- The entry of a part that the manifest names. -/
def namedPart (h : List Byte) (p : Nat) : Option PartHdr := (manifest h).find? (fun e => e.part = p)

/-- Every byte is 0. -/
def allZero (bs : List Byte) : Bool := bs.all (fun b => b = 0)

/-- A manifest entry is consistent. -/
def partOk (h : List Byte) (i : Nat) : Bool :=
  let b := manifestBytes h i
  let e := partHdr b
  decide (1 ≤ e.part ∧ e.part ≤ 6) && decide (e.kind ≤ 1) && allZero (slice b 2 2) && allZero (b.drop 0x60)
    && decide (1 ≤ e.imageLen ∧ e.imageLen ≤ 16777216) && decide (e.off + e.len ≤ hdrBody h) && (e.kind = 0 || allZero e.base)
    && (List.range i).all (fun j => (partHdr (manifestBytes h j)).part ≠ e.part)

/-- The header's own checks: MAGIC, FORMAT, zero reserved bytes and manifest consistency. -/
def headerOk (h sig : List Byte) : Bool :=
  h.take 4 = [0x4D, 0x55, 0x50, 0x31] && unLe (slice h 4 2) = 1 && decide (1 ≤ hdrParts h ∧ hdrParts h ≤ 6)
    && decide (1 ≤ hdrEnvs h ∧ hdrEnvs h ≤ 65535) && decide (1 ≤ hdrBody h ∧ hdrBody h + bodyStart (hdrEnvs h) + 16 ≤ 33554432)
    && allZero (slice h 0x04C 4) && allZero (slice h 0x054 12) && allZero (h.drop 0x360) && allZero (sig.drop 7219)
    && (List.range 6).all (fun i => if i < hdrParts h then partOk h i else allZero (manifestBytes h i))

/-- The bytes of the package buffer. -/
def State.pkg (s : State) (off n : Nat) : List Byte := s.hbmRead (s.reg64 rUPD_PKG_BASE + off) n

/-- This die's envelope. -/
def State.envelopeOf (s : State) (h : List Byte) : Option (List Byte) :=
  ((List.range (hdrEnvs h)).map (fun i => s.pkg (12288 + 64 * i) 64)).find? (fun e => e.take 16 = Config.dieId)

/-- A length rounded up to a 4 KiB boundary. -/
def pageUp (n : Nat) : Nat := ceilDiv n 4096 * 4096

/-- The directory and the six images fit one slot (R422). -/
def State.slotFits (s : State) (h : List Byte) : Bool :=
  decide ([1, 2, 3, 4, 5, 6].foldl (fun n p => n + pageUp (match namedPart h p with
    | some e => e.imageLen
    | none => (slotPart s.activeSlot p).len)) 0x1000 ≤ 0x4000000)

/-- A delta's records applied to a base image. -/
def applyDelta (base : List Byte) (imageLen : Nat) : Nat → List Byte → List Byte → Option (List Byte)
  | 0, _, _ => none
  | f + 1, out, bs =>
    match unLe (bs.take 1), bs with
    | _, [] => none
    | 1, _ =>
      let o := unLe (slice bs 1 8)
      let n := unLe (slice bs 9 4)
      if bs.length < 13 ∨ base.length < o + n ∨ imageLen < out.length + n then none
      else applyDelta base imageLen f (out ++ slice base o n) (bs.drop 13)
    | 2, _ =>
      let n := unLe (slice bs 1 4)
      if bs.length < 5 + n ∨ imageLen < out.length + n then none else applyDelta base imageLen f (out ++ slice bs 5 n) (bs.drop (5 + n))
    | 3, _ => if out.length = imageLen then some out else none
    | _, _ => none

/-- An image of the active slot. -/
def State.activeImage (s : State) (p : Nat) : Option (List Byte) :=
  match s.slotKey s.activeSlot with
  | some k => (match loadImage s.activeSlot k [] p with
    | .ok pt => some pt
    | .error _ => none)
  | none => none

/-- The new image of a part and its version, or the status that ends the staging.
[DESIGN CHOICE: log entry 33] [DEDUCED: log entry 69] -/
def State.newImage (s : State) (h body : List Byte) (p : Nat) : Except Nat (List Byte × Nat) :=
  match namedPart h p with
  | none => (match s.activeImage p with
    | some pt => .ok (pt, (slotPart s.activeSlot p).version)
    | none => .error udDigest)
  | some e =>
    let plain := slice body e.off e.len
    let built : Except Nat (List Byte) := if e.kind = 1 then (if e.len = e.imageLen then .ok plain else .error udDelta)
      else match s.activeImage p with
        | none => .error udDigest
        | some b =>
          if sha256 b ≠ e.base then .error udDigest
          else match applyDelta b e.imageLen (plain.length + 1) [] plain with
            | some pt => .ok pt
            | none => .error udDelta
    match built with
    | .error x => .error x
    | .ok pt => if sha256 pt = e.digest then .ok (pt, e.version) else .error udDigest

/-- All six images in PART order, or the status and the part that ends the staging. -/
def State.newImages (s : State) (h body : List Byte) : Except (Nat × Nat) (List (List Byte × Nat)) :=
  [1, 2, 3, 4, 5, 6].foldl (fun acc p => match acc with
    | .error x => .error x
    | .ok l => (match s.newImage h body p with
      | .ok i => .ok (l ++ [i])
      | .error x => .error (x, p))) (.ok [])

/-- The first 128 directory bytes of a staged slot. -/
def dirHead (h env : List Byte) : List Byte :=
  [0x44, 0x49, 0x52, 0x31] ++ le 1 1 ++ zeros 3 ++ slice h 0x008 4 ++ slice h 0x00C 4 ++ slice h 0x050 4 ++ zeros 4 ++ sha256 h ++ fitBytes 64 env
    ++ zeros 8

/-- Images are encrypted under fresh IVs, which are free values, and placed from 0x1000 upward. The result is the slot being built: offset, part
entries and images. -/
def placeImage (key head : List Byte) (a : State × Nat × List Byte × List (Nat × List Byte)) (e : Nat × List Byte × Nat) :
    State × Nat × List Byte × List (Nat × List Byte) :=
  let s := a.1
  let off := a.2.1
  let p := e.1
  let pt := e.2.1
  let ver := e.2.2
  let iv := s.freeBytes 12
  let ct := gcmSeal key iv.1 (head ++ le 1 p ++ le 4 ver) pt
  let ent := le 1 p ++ zeros 3 ++ le 4 ver ++ le 4 off ++ le 4 pt.length ++ iv.1 ++ zeros 4 ++ ct.2 ++ sha256 pt ++ zeros 16
  (iv.2, off + pageUp pt.length, a.2.2.1 ++ ent, a.2.2.2 ++ [(off, ct.1)])

/-- The staged slot. -/
def State.buildSlot (s : State) (key h env : List Byte) (imgs : List (List Byte × Nat)) : State × Slot :=
  let head := dirHead h env
  let r := ((List.range 6).map (fun i => let e := imgs.getD i ([], 0); (i + 1, e.1, e.2))).foldl (placeImage key head) (s, 0x1000, [], [])
  let dir := fitBytes 0xFE0 (head ++ r.2.2.1)
  (r.1, { dir := dir ++ sha256 dir, images := r.2.2.2 })

/-- The staging slot is written. -/
def State.setStaging (s : State) (x : Slot) : State := if s.upd.activeB then { s with upd.slotA := x } else { s with upd.slotB := x }

/-! ### UPD_VERIFY and UPD_STAGE (R423) -/

/-- The status of UPD_VERIFY's checks; on success the header, the envelope and the body key. -/
def State.verifyPkg (s : State) : Except Nat (List Byte × List Byte × List Byte) :=
  let h := s.pkg 0 4096
  let sig := s.pkg 4096 8192
  let pub := sig.take 2592
  if s.zeroized then .error udZeroized
  else if s.hbmErr (s.reg64 rUPD_PKG_BASE) 12288 ∨ !headerOk h sig then .error udBadHeader
  else if unLe (slice h 0x010 4) ≠ (s.reg rUPD_DEVICE_ID).toNat then .error udDevice
  else if !(List.range 4).any (fun k => !s.upd.revoked.testBit k && Config.fusedKeyDigest k = sha256 pub)
      ∨ !Config.mlDsa87 pub h (slice sig 2592 4627) then .error udSignature
  else if hdrRollback h < s.upd.floor then .error udRollback
  else match s.envelopeOf h with
    | none => .error udNoEnvelope
    | some env => (match keyUnwrap Config.rootKey (slice env 16 40) with
      | none => .error udNoEnvelope
      | some key => if s.slotFits h then .ok (h, env, key) else .error udSlotFull)

/-- UPD_VERIFY.
[DEDUCED: log entry 75] -/
def execUpdVerify (h : CmdHdr) (s : State) : Res :=
  .next (s.simpleCmd h pgUPD 0x0100 fun t =>
    if t.upd.st ≠ .idle then (t, udState)
    else match t.verifyPkg with
      | .error e => ((t.bump fUPD_VERIFY_FAIL).updFails e 0, e)
      | .ok (hd, env, key) =>
        (({ t with upd.header := hd, upd.envelope := env, sec.bodyKey := key } : State).updGoes .verified 0, stOk))

/-- UPD asks for GCIPH's lock: it is Free, or given back within LOCK_WAIT_MS as `gotLock` says. While another requester holds it, UPD arms the
release interrupt and its attempt is refused and counted. UPD returns the lock when it ends. -/
def State.cipherLock (s : State) (gotLock : Bool) : State × Bool :=
  match s.sec.gciph.lock with
  | .free => (s.gcUnlock, true)
  | .held =>
    let s1 : State := { s.bump fGCIPH_BUSY_CNT with sec.gciph.busy := true, sec.gciph.arm := true }
    if gotLock then (s1.gcFree, true) else (s1, false)
  | .locked => (s, false)

/-- The work of UPD_STAGE: the status and part of a failure, or the body's plaintext. -/
def State.stageBody (s : State) : Except Nat (List Byte) :=
  let h := s.upd.header
  let b0 := bodyStart (hdrEnvs h)
  let n := hdrBody h
  let ct := s.pkg b0 n
  let tag := s.pkg (b0 + n) 16
  if s.hbmErr (s.reg64 rUPD_PKG_BASE + b0) (n + 16) ∨ sha256 (ct ++ tag) ≠ slice h 0x020 32 then .error udDigest
  else match gcmOpen s.sec.bodyKey (slice h 0x040 12) h ct tag with
    | some pt => .ok pt
    | none => .error udTag

/-- A staging that fails. -/
def State.stageFails (s : State) (status part : Nat) : State × Nat := ((s.bump fUPD_STAGE_FAIL).updFails status part, status)

/-- The staging itself, once its digest has its lane: the status. -/
def State.stageGo (t1 : State) (gotLock flashOk : Bool) : State × Nat :=
  if t1.zeroized then t1.stageFails udZeroized 0
  else match t1.cipherLock gotLock with
    | (t2, false) => t2.stageFails udCipher 0
    | (t2, true) => (match t2.stageBody with
      | .error e => t2.stageFails e 0
      | .ok body => (match t2.newImages t2.upd.header body with
        | .error (e, p) => t2.stageFails e p
        | .ok imgs =>
          if !flashOk then (t2.setStaging {}).stageFails udFlash 0
          else
            let r := t2.buildSlot t2.sec.bodyKey t2.upd.header t2.upd.envelope imgs
            (({ r.1.setStaging r.2 with upd.progress := hdrBody t2.upd.header } : State).updGoes .staged 0, stOk)))

/-- UPD_STAGE; `flashOk` says that every program and erase of the boot flash succeeds. While a message holds lane 31 of quadrant 0 of
Mark, or PD27 is down, the staging waits (R155).
[DEDUCED: log entry 75] -/
def execUpdStage (h : CmdHdr) (gotLock flashOk : Bool) (s : State) : Res :=
  .next (s.command h pgUPD 0x0101 .work fun _ t =>
    if t.upd.st ≠ .verified then (t, .done udState 0)
    else
      let t1 := t.updGoes .staging 0
      if t1.snoopLane then let r := t1.stageGo gotLock flashOk; (r.1, .done r.2 0)
      else ({ t1 with upd.stageWait := some (h.cseq, gotLock, flashOk) }, .running []))

/-- A staging that waits for its lane goes on once the lane is free. -/
def State.stageRun (s : State) : State :=
  match s.upd.stageWait with
  | some (cseq, gotLock, flashOk) =>
    if s.snoopLane ∧ s.working pgUPD then
      let r := ({ s with upd.stageWait := none } : State).stageGo gotLock flashOk
      r.1.finishRunning cseq 0 r.2
    else s
  | none => s

/-! ### UPD_BRIDGES and UPD_ACTIVATE (R425, R426) -/

/-- A masked module is a member of a group that this head does not own. -/
def State.foreignModule (s : State) (m : Nat) : Bool :=
  ((s.member m).st = 1 || (s.member m).st = 2 || (s.member m).st = 3) && !s.owns (s.member m).group

/-- UPD_BRIDGES. -/
def execUpdBridges (h : CmdHdr) (mask : Nat) (s : State) : Res :=
  .next (s.command h pgUPD 0x0102 .work fun _ t =>
    if t.upd.st ≠ .staged ∨ t.upd.job.isSome then (t, .done udState 0)
    else if 2 ^ 24 ≤ mask then (t, .done udBadArg 0)
    else if mask = 0 ∨ !t.bridgeNamed then (t, .done stOk 0)
    else if (bitList 24 mask).any t.foreignModule then (t, .done udNotOwner 0)
    else ({ t with upd.job := some { cseq := some h.cseq, todo := bitList 24 mask, activated := [], reverting := false, fallBack := none } },
      .running [mask])).bridgeRun

/-- This head owns a stripe group while its peer state is Paired. -/
def State.ownsPaired (s : State) : Bool :=
  s.fld fPEERCTL_STATE_PEER_STATE = psPaired && s.back.groups.any (fun e => e.2.exists_ && s.owns e.1)

/-- The staged images are read back: the status and the part of the first that fails. -/
def State.stagedBad (s : State) : Option (Nat × Nat) :=
  match s.slotKey s.stagingSlot with
  | none => some (if s.zeroized then udZeroized else udNoEnvelope, 0)
  | some k => [1, 2, 3, 4, 5, 6].findSome? (fun p => match loadImage s.stagingSlot k [] p with
    | .error 8 => some (udTag, p)
    | .error _ => some (udDigest, p)
    | .ok _ => none)

/-- Steps 3 and 4 of R426. -/
def State.activateSlot (s : State) : State :=
  let pol := decide (s.fld fUPD_SETTINGS_POLICY_POLICY = 0)
  let s1 := if pol then
      let op := if s.plat.store.bootBank = 0 then 4 else 5
      let t := ((s.storeWrites op).foldl State.storeRow s).copyTorn op
      { t with plat.store.bootBank := 1 - s.plat.store.bootBank }
    else s
  { s1 with upd.activeB := !s.upd.activeB, upd.trial := true, upd.tries := 0, upd.boots := s.fld fUPD_CFG_TRIAL_BOOTS, upd.policy0 := pol }

/-- UPD_ACTIVATE; the warm restart is requested once the command has completed.
[DEDUCED: log entry 75] -/
def execUpdActivate (h : CmdHdr) (allowOwned : Bool) (s : State) : Res :=
  let s1 := s.simpleCmd h pgUPD 0x0103 fun t =>
    if t.upd.st ≠ .staged ∨ t.upd.job.isSome ∨ t.plat.pwr.powerFail then (t, udState)
    else if t.ownsPaired ∧ !allowOwned then (t, udOwns)
    else match t.stagedBad with
      | some (e, p) => (t.updFails e p, e)
      | none => (t.activateSlot.updGoes .activating 0, stOk)
  .next (if s.upd.st ≠ .activating ∧ s1.upd.st = .activating then s1.requestRestart 3 else s1)

/-! ### Confirmation, fall-back and the rest (R427, R428) -/

/-- The directory STATE of the staging slot is set to empty. -/
def State.emptyStaging (s : State) : State := s.setStaging { s.stagingSlot with dir := overwrite s.stagingSlot.dir 4 [0] }

/-- The bridges whose trial COMMIT_BRIDGES ends. -/
def State.commitBridges (s : State) : State :=
  let v := (slotPart s.activeSlot 5).version
  ((List.range 24).filter (fun m => (s.link m).st = lkUp && (s.link m).trial && s.fld (fMLINK_FW_VER_RUNNING m) = v)).foldl
    (fun t m => t.sendOp m { opcode := opFwCommit, addr := 0 } []) s

/-- UPD_CONFIRM. -/
def execUpdConfirm (h : CmdHdr) (commitBridges : Bool) (s : State) : Res :=
  .next (s.simpleCmd h pgUPD 0x0104 fun t =>
    if t.upd.st ≠ .trial ∨ t.upd.job.isSome then (t, udState)
    else
      let t1 := { t.emptyStaging with
        upd.trial := false, upd.tries := 0, upd.bridges := []
        upd.floor := max t.upd.floor (unLe (slice t.activeSlot.dir 0x00C 4)) }
      let t2 := if commitBridges then t1.commitBridges else t1
      (t2.updGoes .idle 0, stOk))

/-- The bridges that this package activated are reverted, and then the fall-back restarts the head. -/
def State.fallBackJob (s : State) (cause : Nat) : State :=
  { s with upd.job := some { cseq := none, todo := s.upd.bridges, activated := s.upd.bridges, reverting := true, fallBack := some cause } }

/-- UPD_ABANDON: the command completes, and the reversal follows. -/
def execUpdAbandon (h : CmdHdr) (s : State) : Res :=
  .next (s.simpleCmd h pgUPD 0x0105 fun t =>
    if t.upd.st ≠ .trial ∨ t.upd.job.isSome then (t, udState) else (t.fallBackJob 3, stOk)).bridgeRun

/-- UPD_CLEAR. -/
def execUpdClear (h : CmdHdr) (s : State) : Res :=
  .next (s.simpleCmd h pgUPD 0x0106 fun t =>
    if (t.upd.st ≠ .staged ∧ t.upd.st ≠ .failed) ∨ t.upd.job.isSome then (t, udState)
    else
      (({ t.setStaging { t.stagingSlot with dir := [] } with sec.bodyKey := [], upd.header := [], upd.envelope := [] } : State).updGoes .idle 0, stOk))

/-- UPD_CONFIRM_TIMEOUT. -/
def execUpdConfirmTimeout (s : State) : Res :=
  .next (if s.upd.st = .trial ∧ s.fld fUPD_CFG_CONFIRM_TIMEOUT_S ≠ 0 ∧ s.upd.job.isNone then (s.fallBackJob 4).bridgeRun else s)

/-- UPD_KEY_REVOKE: a write that would leave no key valid is ignored. -/
def State.writeKeyRevoke (s : State) (v : Nat) : State :=
  let n := s.upd.revoked ||| v % 16
  if n = 15 then s else { s with upd.revoked := n }
def execUpdKeyRevoke (value : Nat) (s : State) : Res := .next (s.gated pgUPD (fun t => t.writeKeyRevoke value))

end Sys2Proof.Machine
end

