-- ==== Sys2Proof/Machine/Startup.lean ====
section
/-! DEFINITION. Power-on reset, the stages of a start, warm restart, the start-up watchdog and the TAP (R431, R434, R439, R446, R457, R462). -/

namespace Sys2Proof.Machine

/-! ### PORST_N (R434, R457) -/

/-- PORST_N_ASSERT: the chip is reset at once; a running store operation is cut off. EVT.EPOCH advances at the release. -/
def execPorstNAssert (s : State) : Res :=
  let s1 := match s.plat.store.busy with
    | some op => s.storeCut (s.storeWrites op) (storeBank op)
    | none => s
  let s2 := s1.startReset .power 0 0
  .next { s2 with plat.evt.epoch := s.plat.evt.epoch, plat.chip.porstLow := true }

/-- PORST_N_RELEASE: a power-on start. -/
def execPorstNRelease (env : BootEnv) (s : State) : Res :=
  .next (if s.plat.chip.porstLow then ({ s with plat.chip.env := env } : State).start .power 0 0 else s)

/-! ### Stages (R431) -/

/-- A stage that software writes. Stage 6 clears the boot-attempt count, and the watchdog counts on only with RUN_EN = 1. -/
def State.writeStage (s : State) (v : Nat) : State :=
  let old := s.plat.chip.stage
  if v = 5 ∧ old < 5 then { s with plat.chip.stage := 5 }
  else if v = 6 ∧ old < 6 then
    { s with plat.chip.stage := 6, upd.tries := 0, plat.chip.wdogCounting := s.plat.chip.runEn, plat.chip.wdogFrom := s.now }
  else if v = 14 ∧ old < 6 then { s with plat.chip.stage := 14, plat.chip.startErr := 4 }
  else s

/-- START_STAGE_WRITE. -/
def execStartStageWrite (value : Nat) (s : State) : Res := .next (s.gated pgCHIP (fun t => t.writeStage (value % 16)))

/-! ### Warm restart (R439) -/

/-- A write to CHIP.RESET_CTRL. -/
def warmKey (v : Nat) : Bool := getBits v 31 16 = 0x5752 && v.testBit 0

/-- WARM_RESTART: a write to CHIP.RESET_CTRL, and what the start will find. -/
def execWarmRestart (value : Nat) (env : BootEnv) (s : State) : Res :=
  .next (s.gated pgCHIP (fun t => if warmKey value then ({ t with plat.chip.env := env } : State).requestRestart 2 else t))

/-! ### The start-up watchdog (R446) -/

/-- The timeout in force: 0 is off, except in a trial start. -/
def State.wdogTimeout (s : State) : Nat := if s.plat.chip.timeoutS = 0 ∧ s.upd.trial then 120 else s.plat.chip.timeoutS

/-- A count that has reached the timeout requests a warm restart. -/
def State.wdogCheck (s : State) : State :=
  if s.plat.chip.wdogCounting ∧ s.wdogTimeout ≠ 0 ∧ s.wdogTimeout * 10 ^ 9 ≤ s.now - s.plat.chip.wdogFrom then s.requestRestart 4 else s

/-- KICK is written: it has no effect before stage 6. -/
def State.writeKick (s : State) : State := if s.plat.chip.stage = 6 then { s with plat.chip.wdogFrom := s.now } else s
def execWatchdogKick (s : State) : Res := .next (s.gated pgCHIP State.writeKick)

/-- RUN_EN is written. -/
def State.writeRunEn (s : State) (on : Bool) : State :=
  let s1 : State := { s with plat.chip.runEn := on }
  if s.plat.chip.stage ≠ 6 then s1
  else if !on then { s1 with plat.chip.wdogCounting := false }
  else if s.plat.chip.runEn then s1
  else { s1 with plat.chip.wdogCounting := true, plat.chip.wdogFrom := s.now }
def execWatchdogRunEn (on : Bool) (s : State) : Res := .next (s.gated pgCHIP (fun t => t.writeRunEn on))

/-- TIMEOUT_S is written: the count goes on from where it started. -/
def State.writeTimeout (s : State) (v : Nat) : State := ({ s with plat.chip.timeoutS := v % 65536 } : State).wdogCheck
def execWatchdogTimeoutWrite (value : Nat) (s : State) : Res := .next (s.gated pgCHIP (fun t => t.writeTimeout value))

/-- WATCHDOG_EXPIRY. -/
def execWatchdogExpiry (s : State) : Res :=
  .next (if s.plat.chip.wdogCounting ∧ s.wdogTimeout ≠ 0 then s.requestRestart 4 else s)

/-! ### The TAP (R462) -/

/-- JTAG_TRST.
[DEDUCED: log entry 76] -/
def execJtagTrst (s : State) : Res := .next { s with plat.pins.tapIr := 0 }

/-- JTAG_INSTRUCTION: while PORST_N is high, every ball stays in functional mode, and the instruction is counted.
[DEDUCED: log entry 76] -/
def execJtagInstruction (ir : Nat) (s : State) : Res :=
  .next (if s.plat.chip.porstLow then { s with plat.pins.tapIr := ir }
    else { s with plat.pins.tapIr := ir, plat.pins.dbgCount := s.plat.pins.dbgCount + 1 })

end Sys2Proof.Machine
end

