-- ==== Sys2Proof/Machine/Live.lean ====
section
/-! DEFINITION. What the read-only registers show: words of the register window that stand for state held elsewhere (R38, R43, R44, and the register
tables of the chapters). -/

namespace Sys2Proof.Machine

/-- The first value listed at an offset. -/
def pick (o : Nat) : List (Nat × Nat) → Option Nat
  | [] => none
  | (k, v) :: t => if k = o then some v else pick o t

/-- A 64-bit register at an offset, low word first. -/
def wide (o v : Nat) : List (Nat × Nat) := [(o, v % 2 ^ 32), (o + 4, v / 2 ^ 32 % 2 ^ 32)]

/-- An array of `n` registers, `stride` apart. -/
def arr (o n stride : Nat) (f : Nat → Nat) : List (Nat × Nat) := (List.range n).map (fun i => (o + stride * i, f i))

/-- `n` places in use, the lowest taken first. -/
def lowMask (w n : Nat) : Nat := 2 ^ min w n - 1

/-! ### The platform -/

def State.evtWords (s : State) : List (Nat × Nat) :=
  let e := s.plat.evt
  wide 0x120 e.eseqProd ++ wide 0x128 e.eseqCons ++ wide 0x130 e.cseqProd ++ wide 0x138 e.cseqCons ++ wide 0x140 e.cseqDone
    ++ wide 0x148 e.eLost ++ wide 0x150 e.epoch

def State.timeWords (s : State) : List (Nat × Nat) :=
  let t := s.plat.time
  wide 0x100 t.now ++ [(0x120, 4 * b2n t.slewing + 2 * b2n t.refLost + b2n t.refOn)] ++ wide 0x128 t.slewRemain
    ++ (match t.txts with
      | e :: _ => [(0x130, 2 ^ 31 + e.port % 32 * 2 ^ 24 + e.msgType % 16 * 2 ^ 16 + e.seqId % 65536)] ++ wide 0x138 e.value
      | [] => [])

def State.storeWords (s : State) : List (Nat × Nat) :=
  let t := s.plat.store
  [(0x104, b2n t.busy.isSome * 2 ^ 31 + t.lastOp * 2 ^ 16 + t.lastResult * 2 ^ 8 + t.bootBank)]
    ++ arr 0x800 64 4 (fun i => t.stageAddr.get 0 i)

/-- A word of a stage slot's data area (R63). -/
def State.stageWord (s : State) (o : Nat) : Nat :=
  let d := o - 0x1000
  getBits (s.plat.store.stageData.get 0 (d / 64)) (8 * (d % 64) + 31) (8 * (d % 64))

def State.xingWords (s : State) : List (Nat × Nat) :=
  (List.range 25).flatMap (fun j =>
    let i := s.island (j + 1)
    let b := 0x200 + 0x20 * j
    [(b, b2n i.clkStop),
     (b + 4, if s.plat.chip.porstLow then 0 else 16 * b2n i.pulseLost + 8 * b2n (s.islandOn (j + 1)) + 4 * b2n i.inReset
       + 2 * b2n (!i.clkRun && !s.crossIdle (j + 1)) + b2n i.clkRun),
     (b + 8, i.pulseOvf.toNat)])

/-- IRQR.INTN_PEND: the pages that hold INT_N asserted (R51). -/
def State.intnPend (s : State) (w : Nat) : Nat :=
  maskOf ((List.range 32).filter (fun b =>
    pageExists (32 * w + b) && s.fld (fIRQR_ROUTE_INT_N (32 * w + b)) = 1 && s.irqLine (32 * w + b)))

def State.cluWords (s : State) (c : Nat) : List (Nat × Nat) :=
  [(0x104, 256 * b2n (s.cluster c).memTarget.isSome + s.running c)]

def State.pwrWords (s : State) : List (Nat × Nat) :=
  [(0x110, s.plat.pwr.coldCause)] ++ arr 0x200 33 4 (fun d =>
    let x := s.dom d
    let goal := fun (t : Nat) => if t = 0 then 0 else t + 2
    let target := match x.wake, x.cmd with
      | some _, _ => 0
      | none, some c => goal c.target
      | none, none => x.st.code
    x.st.code * 2 ^ 28 + target * 2 ^ 24 + b2n (s.forceOk d) * 2 ^ 16 + x.entries)

def State.aonWords (s : State) : List (Nat × Nat) :=
  wide 0x108 (s.plat.aon.words.get 0 s.swWord) ++ arr 0x110 33 4 (fun d =>
    let x := s.dom d
    if d < 2 ∨ !x.saveValid ∨ x.st ≠ .banked then 0 else 2 ^ 31 + min 32768 (4 * x.saved.length + 12 * x.savedHdr.length))

def State.chipWords (s : State) : List (Nat × Nat) :=
  let c := s.plat.chip
  [(0x104, c.resetCause), (0x108, c.startErr * 256 + c.stage), (0x10C, b2n c.runEn * 65536 + c.timeoutS),
   (0x110, c.fatal * 256 + (s.reg rCHIP_FATAL).toNat % 2), (0x114, c.warmCount % 65536)]
    ++ arr 0x120 7 4 (fun w => maskOf ((List.range 32).filter (fun b => pageExists (32 * w + b) && s.blk (32 * w + b) = .fault)))

/-! ### The transport -/

def AssocState.code : AssocState → Nat
  | .free => 0
  | .isOpen => 1
  | .closing => 2
  | .failed => 3

/-- The association of LDT.ASSOC_SEL. -/
def State.ldtSel (s : State) : Nat := s.fld fLDT_ASSOC_SEL

def State.ldtWords (s : State) : List (Nat × Nat) :=
  let a := s.assoc s.ldtSel
  let x := s.ax s.ldtSel
  [(0x304, a.peerAssoc * 65536 + a.pathMask), (0x308, a.srtt * 65536 + 16 * b2n a.txPhase + a.state.code), (0x30C, a.rate),
   (0x310, x.malformed), (0x314, x.tagFail), (0x318, x.retx), (0x31C, x.ce)]

/-- The counters of the selected association are cleared by a read (R5). -/
def State.clearAssocCnt (s : State) (o : Nat) : State :=
  s.modAx s.ldtSel (fun x =>
    if o = 0x310 then { x with malformed := 0 } else if o = 0x314 then { x with tagFail := 0 }
    else if o = 0x318 then { x with retx := 0 } else { x with ce := 0 })

def State.ctxWords (s : State) : List (Nat × Nat) :=
  [(0x110, s.ctx.resident.length),
   (0x114, s.fld fCTX_POOL_HIGH_WATER * 65536 + s.ctx.missq.foldl (fun n e => n + e.2.length) 0), (0x118, s.pinnedCount)]

def State.rgnWords (s : State) : List (Nat × Nat) :=
  [(0x110, (s.rgn.regions.filter (fun e => e.2.state = .valid)).length), (0x114, (s.rgn.regions.filter (fun e => e.2.state = .revoking)).length)]

def State.nvfWords (s : State) : List (Nat × Nat) :=
  [(0x130, s.stageFree), (0x134, s.ovlUsed),
   (0x138, match s.nvf.waitWrite with
     | some k => 2 ^ 31 + (s.nvCmd k).ctx % 2 ^ 20
     | none => 0)]

def State.nvtcpWords (s : State) : List (Nat × Nat) := [(0x118, (s.conns.filter (fun e => e.2.isOpen)).length)]

/-! ### Switch and ware lanes -/

def State.bufWords (s : State) : List (Nat × Nat) :=
  [(0x140, s.bufFree), (0x144, s.sharedFree), (0x148, s.ovfUse)] ++ arr 0x160 8 4 s.committed ++ arr 0x180 8 4 s.classUse

/-- Units of quadrant `q` that lie in a ware-lane block on the write path, and on the read path.
[DESIGN CHOICE: log entry 81] -/
def State.laneUnits (s : State) (b q : Nat) : Nat := (s.ware.units.filter (fun e => e.2.quad = q && e.2.phase.block = b)).length
def State.laneReads (s : State) (b q : Nat) : Nat := (s.ware.reads.filter (fun e => e.2.quad = q && e.2.phase.block = b)).length

def State.markWords (s : State) (q : Nat) : List (Nat × Nat) :=
  let g := s.markQuad q
  let sel := s.fld (fMARK_KEY_SEL_SLOT q)
  let x := s.markSlot sel
  [(0x104, ((List.range 32).filter (s.lanesHeld q).contains).foldl (fun t k => t + 2 ^ k) 0),
   (0x108, if g.copy then (s.mark.slots.filter (fun e => e.2.st = 1 && !g.missing.contains e.1)).length else 0),
   (0x10C, b2n g.refill * 2 ^ 31 + (s.reg (rMARK_KEY_REFILL q)).toNat % 8192),
   (0x114, s.markHolds sel * 65536 + x.st * 256 + b2n x.alg512),
   (0x200, (s.reg (rMARK_PIO_CTRL q)).toNat % 2 ^ 31 + b2n g.pio.isSome * 2 ^ 31)]

def State.grogWords (s : State) : List (Nat × Nat) :=
  let g := s.grog
  wide 0x120 g.prod ++ wide 0x128 g.merged ++ wide 0x138 g.mergeSeq
    ++ [(0x140, 4 * b2n g.reconcile.isSome + 2 * b2n (g.dir.any (fun e => e.2 = dirRebuilding)) + b2n (g.doms.any (fun e => e.2.st = 2))),
        (0x144, g.fidx.length)]

def State.wedgeWords (s : State) (q : Nat) : List (Nat × Nat) :=
  [(0x104, maskOf (s.decHeld q) * 65536 + maskOf (s.compHeld q))]

def State.dciphWords (s : State) (q : Nat) : List (Nat × Nat) :=
  [(0x104, lowMask 16 (s.laneUnits pgDCIPH q + s.laneReads pgDCIPH q))]

/-! ### Keys, the general cipher, tamper -/

def State.keysWords (s : State) : List (Nat × Nat) :=
  [(0x110, s.sec.active.length), (0x114, s.pinnedKeys), (0x118, 1 + maskOf ((List.range 8).filter s.kekValid)), (0x120, b2n s.zeroized)]

def LockState.code : LockState → Nat
  | .free => 0
  | .held => 1
  | .locked => 2

def State.gciphWords (s : State) : List (Nat × Nat) :=
  let g := s.sec.gciph
  [(0x100, b2n g.busy * 2 ^ 24 + g.lock.code * 2 ^ 16 + g.owner * 256), (0x110, b2n g.arm),
   (0x114, if g.lock = .held then (g.leaseEnd - s.now) / 1000 else 0),
   (0x118, match g.msg with
     | some m => m.mode % 8 * 2 + 1
     | none => 0)]

def State.tampWords (s : State) : List (Nat × Nat) :=
  let t := s.sec.tamp
  [(0x104, t.latch), (0x10C, 3 * b2n t.zeroized), (0x130, t.zeroTime % 65536)]

/-! ### Maps, replication, the back end -/

def State.lmapWords (s : State) : List (Nat × Nat) :=
  [(0x124, (s.lmap.dirty.filter s.resident).length)] ++ wide 0x128 s.lmap.createSeq ++ wide 0x130 s.lmap.commitSeq
    ++ wide 0x138 (2 ^ 48 - 17 - (s.lmap.cids.filter (fun e => e.2.refs ≠ 0)).length)

def State.mouldWords (s : State) : List (Nat × Nat) :=
  let l := s.lmap.moulds.filter (fun e => e.2.st ≠ 0)
  [(0x110, l.length), (0x114, (l.filter (fun e => e.2.st = 1)).length),
   (0x11C, (l.filter (fun e => e.2.st = 3)).foldl (fun n e => n + (s.toExamine e.1).length) 0)]

def State.slipWords (s : State) : List (Nat × Nat) := [(0x210, s.slip.reps.foldl (fun n e => n + e.2.backlog.length) 0)]

def State.ftlWords (s : State) : List (Nat × Nat) :=
  let g := s.fld fFTL_GROUP_SEL
  wide 0x190 s.freeGrains
    ++ [(0x1A4, s.pslcBudget g), (0x1A8, s.pslcUse g), (0x1AC, s.grpF g), (0x1B0, (s.group g).eMean),
        (0x220, (s.back.blocks.filter (fun e => e.2.st = 2)).length)]

def State.pugWords (s : State) : List (Nat × Nat) :=
  let g := s.fld fPUG_GROUP_SEL
  [(0x11C, (s.back.segs.filter (fun e => e.2.st = 4 && e.2.group = g)).length * 256 + (s.group g).level),
   (0x128, (s.fAvail g % 2 ^ 32).toNat)] ++ wide 0x130 s.back.credit

def State.parWords (s : State) : List (Nat × Nat) :=
  let n := s.fld fPAR_GROUP_SEL
  let g := s.group n
  if g.exists_ then
    [(0x104, g.members),
     (0x108, 2 ^ 31 + g.spares.getD 1 0 * 2 ^ 24 + g.spares.getD 0 0 * 2 ^ 16 + b2n (decide (2 ≤ g.spares.length)) * 2 ^ 15
       + b2n (!g.spares.isEmpty) * 2 ^ 14 + g.spare * 256 + b2n g.dedicated),
     (0x10C, g.st * 65536 + s.grpDown n)]
  else []

def State.sagWords (s : State) : List (Nat × Nat) :=
  let d := s.back.dumps.getLast?.getD {}
  let live := s.newestDump
  [(0x100, if s.jstripReads then 1 else 0), (0x120, ceilDiv s.ringUsed 1024), (0x124, s.back.segs.foldl (fun n e => n + e.2.progs.length) s.back.logHeld.length),
   (0x128, b2n live.isSome * 2 ^ 31 + (live.getD d).set * 2 ^ 30 + b2n (live.getD d).final * 2 ^ 29 + b2n s.back.replay.isSome * 2 ^ 28)]
    ++ wide 0x130 d.lastComplete ++ wide 0x138 d.id ++ wide 0x140 d.bytes

/-- Segments of a group that still hold a Failed member. -/
def State.segsLeft (s : State) (g : Nat) : Nat :=
  (s.back.segs.filter (fun e => e.2.group = g && e.2.st ≠ 0 && e.2.posBlocks.any (fun b => (s.member b.1).st = 3))).length

def State.rbldWords (s : State) : List (Nat × Nat) :=
  [(0x114, s.segsLeft (s.fld fRBLD_GROUP_SEL))] ++ arr 0x200 24 4 (fun m => (s.member m).st * 2 ^ 24 + (s.member m).group * 2 ^ 16)

/-- A module is present: its presence input is low, or with no input its link is Up.
[DEDUCED: log entry 60] -/
def State.present (s : State) (m : Nat) : Bool :=
  match s.presenceInput m with
  | some i => !s.gpio i
  | none => (s.link m).st = lkUp

def State.mlinkWords (s : State) (m : Nat) : List (Nat × Nat) :=
  let l := s.link m
  [(0x104, l.st * 2 ^ 28 + l.width * 2 ^ 24 + b2n (s.present m) * 2 ^ 16 + l.owner * 256 + b2n l.trial), (0x12C, l.resvGen),
   (0x130, l.ops.length)]

def State.peerWords (s : State) : List (Nat × Nat) :=
  [(0x100, (s.reg rPEERCTL_CFG).toNat / 65536 * 65536 + s.plat.chip.heads * 256 + s.plat.chip.headId),
   (0x130, s.runsHeld.length * 65536 + s.runsFree)]

/-! ### Memory, tenancy, update -/

def SrState.code : SrState → Nat
  | .active => 0
  | .entering => 1
  | .selfRefresh => 2
  | .exiting => 3

def State.hbmWords (s : State) (k : Nat) : List (Nat × Nat) :=
  [(0x104, (s.stack k).sr.code * 4 + b2n (s.stack k).trained * 2 + 1)]

def State.syscWords (s : State) : List (Nat × Nat) :=
  let on := fun (w : Nat) => s.way w = .powered || s.way w = .draining
  [(0x108, maskOf ((List.range 16).filter on) * 65536 + maskOf ((List.range 16).filter (fun w => s.way w = .draining))), (0x114, s.mem.mb.length)]

def State.qosWords (s : State) : List (Nat × Nat) := [(0x118, s.nvf.held.length)]

def State.tallyWords (s : State) : List (Nat × Nat) := wide 0x130 s.nowMinute

def State.updWords (s : State) : List (Nat × Nat) :=
  let u := s.upd
  let ver := fun (x : Slot) => unLe (slice x.dir 8 4)
  [(0x110, u.st.code), (0x114, b2n u.fellBack * 256 + u.tries % 16 * 16 + b2n u.trial * 2 + b2n u.activeB), (0x118, u.floor), (0x11C, u.revoked)]
    ++ arr 0x128 4 4 (fun i => unLe (slice Config.dieId (4 * i) 4)) ++ wide 0x140 u.progress
    ++ [(0x148, ver s.activeSlot), (0x14C, if u.st = .staged then ver s.stagingSlot else 0)]

/-- The word at offset `o` of a page that is not a broadcast page, where it stands for state held elsewhere. -/
def State.liveWord (s : State) (p o : Nat) : Option Nat :=
  let n := blkInstOf p
  let b := blkTypeOf p
  if p = pgEVT then pick o s.evtWords
  else if p = pgTIME then pick o s.timeWords
  else if p = pgSTORE then (if 0x1000 ≤ o ∧ o < 0x2000 then some (s.stageWord o) else pick o s.storeWords)
  else if p = pgXING then pick o s.xingWords
  else if p = pgIRQR then (if 0x800 ≤ o ∧ o < 0x81C then some (s.intnPend ((o - 0x800) / 4)) else none)
  else if b = pgCLU 0 then pick o (s.cluWords n)
  else if p = pgPWR then pick o s.pwrWords
  else if p = pgAON then pick o s.aonWords
  else if p = pgCHIP then pick o s.chipWords
  else if p = pgLDT then pick o s.ldtWords
  else if p = pgCTX then pick o s.ctxWords
  else if p = pgRGN then pick o s.rgnWords
  else if p = pgNVF then pick o s.nvfWords
  else if p = pgNVTCP then pick o s.nvtcpWords
  else if p = pgBUF then pick o s.bufWords
  else if b = pgMARK then pick o (s.markWords n)
  else if b = pgGROG then pick o s.grogWords
  else if b = pgWEDGE then pick o (s.wedgeWords n)
  else if b = pgDCIPH then pick o (s.dciphWords n)
  else if p = pgKEYS then pick o s.keysWords
  else if p = pgGCIPH then pick o s.gciphWords
  else if p = pgTAMP then pick o s.tampWords
  else if p = pgLMAP then pick o s.lmapWords
  else if p = pgMOULD then pick o s.mouldWords
  else if p = pgSLIP then pick o s.slipWords
  else if p = pgFTL then pick o s.ftlWords
  else if p = pgPUG then pick o s.pugWords
  else if p = pgPAR then pick o s.parWords
  else if p = pgSAG then pick o s.sagWords
  else if p = pgRBLD then pick o s.rbldWords
  else if b = pgMLINK 0 then pick o (s.mlinkWords n)
  else if p = pgPEERCTL then pick o s.peerWords
  else if b = pgHBM 0 then pick o (s.hbmWords n)
  else if p = pgSYSC then pick o s.syscWords
  else if p = pgQOS then pick o s.qosWords
  else if p = pgTALLY then pick o s.tallyWords
  else if p = pgUPD then pick o s.updWords
  else none

/-- BLK_CAP of a block: only WEDGE and DCIPH have capabilities. -/
def blkCap (b : Nat) : Nat := if b = pgWEDGE then 16 * 256 + 12 else if b = pgDCIPH then 16 else 0

/-- A word of the common header (R42-R44). -/
def State.headerWord (s : State) (p o : Nat) : Nat :=
  let q := if isBroadcast p then quadPage p 0 else p
  let g := s.page q
  if o = 0x00 then blkTypeOf p * 65536 + blkInstOf p * 256 + 1
  else if o = 0x04 then blkCap (blkTypeOf p)
  else if o = 0x08 then b2n g.resetting * 4 + s.ctrlBits q
  else if o = 0x0C then b2n (s.pageOn q) * 256 + g.st.code
  else if o = 0x10 then g.irqStat.toNat
  else if o = 0x14 then g.irqEn.toNat
  else if o = 0x1C then g.errCap.toNat
  else if o = 0x20 then g.infoA.toNat
  else if o = 0x24 then g.infoB.toNat
  else if o = 0x28 then g.evseq % 2 ^ 32
  else if o = 0x2C then g.scratch.toNat
  else 0

/-- The word at offset `o` of page `p` (R6, R43, R48). -/
def State.pageWord (s : State) (p o : Nat) : Nat :=
  let q := if isBroadcast p then quadPage p 0 else p
  if o < 0x100 then s.headerWord p o
  else if s.pageOn q ∧ s.blk q ≠ .off then (s.liveWord q o).getD (s.reg (0x10000 * q + o)).toNat % 2 ^ 32
  else 0

end Sys2Proof.Machine
end

