-- ==== Sys2Proof/Machine/Control.lean ====
section
/-! DEFINITION. The register window: reads and writes of registers by their access types, of the settings aperture, and of every register whose write
does something (R5, R6, R38, R39, R43, R45, R47-R49, R63, and the register tables of the chapters). -/

namespace Sys2Proof.Machine

/-! ### The general rule of a write (R5) -/

/-- The field of a value, by what its table says of a write out of range; none ignores the whole write.
[DEDUCED: log entry 47] -/
def FieldRule.apply (old m : Nat) (x : Option Nat) (r : FieldRule) : Option Nat :=
  match x with
  | none => none
  | some n =>
    let touched := fun (hi lo : Nat) => m &&& ((2 ^ (hi + 1 - lo) - 1) * 2 ^ lo) ≠ 0
    match r with
    | .clamp hi lo mn mx => if touched hi lo then some (setBits n hi lo (clampNat mn mx (getBits n hi lo))) else some n
    | .keep hi lo mn mx z =>
      let v := getBits n hi lo
      if touched hi lo ∧ (v < mn ∨ mx < v) ∧ !(z && v = 0) then some (setBits n hi lo (getBits old hi lo)) else some n
    | .drop hi lo mn mx z =>
      let v := getBits n hi lo
      if touched hi lo ∧ (v < mn ∨ mx < v) ∧ !(z && v = 0) then none else some n

/-- What a write of `w` under the bit mask `m` leaves in a register that holds `old`; none when it is ignored. -/
def RegRow.written (r : RegRow) (locked : Bool) (old m w : Nat) : Option Nat :=
  let rw := (if locked then r.rw else r.rw ||| r.rwl) &&& m
  let n := andNot old rw ||| (w &&& rw)
  r.rules.foldl (fun x e => e.apply old m x) (some (andNot n (r.w1c &&& w &&& m) ||| (r.w1s &&& w &&& m)))

/-- The value of the register of `words` words at window offset `a`, and its writing. -/
def State.regWide (s : State) (a : Nat) : Nat → Nat
  | 0 => 0
  | n + 1 => (s.reg a).toNat + 2 ^ 32 * s.regWide (a + 4) n
def State.setWide (s : State) (a v : Nat) : Nat → State
  | 0 => s
  | n + 1 => (s.setReg a (BitVec.ofNat 32 v)).setWide (a + 4) (v / 2 ^ 32) n

/-- STORE.LOCK.LOCKED. -/
def State.lockedRwl (s : State) : Bool := (s.reg rSTORE_LOCK).toNat.testBit 0

/-- A write of `size` bytes at offset `o` of page `p`, by its register's row. A write that touches a locked RWL field is counted and captured.
[DEDUCED: log entry 80] -/
def State.writeRow (s : State) (p o size v : Nat) : State :=
  match findRow (pageRows p) o with
  | none => s
  | some (r, d) =>
    if r.idle ∧ s.blk p ≠ .idle then s
    else
      let a := 0x10000 * p + o - d
      let m := (2 ^ (8 * size) - 1) * 2 ^ (8 * d)
      let old := s.regWide a r.words
      let s1 := if s.lockedRwl ∧ r.rwl &&& m ≠ 0 then (s.bump fSTORE_LOCK_VIOL_COUNT).capture p 0xF1 o 0 else s
      match r.written s.lockedRwl old m (v * 2 ^ (8 * d)) with
      | some n => s1.setWide a n r.words
      | none => s1

/-! ### Registers whose write does something -/

/-- A half of a 64-bit value is replaced. -/
def setHalf (old k v : Nat) : Nat := setBits old (32 * k + 31) (32 * k) v

/-- EVT.CTRL: each size changes only in Idle and within its range. -/
def State.writeEvtCtrl (s : State) (v : Nat) : State :=
  let idle := s.blk pgEVT = .idle
  let c := getBits v 20 16
  let e := getBits v 12 8
  let s1 := if idle ∧ 8 ≤ c ∧ c ≤ 16 then s.setFld fEVT_CTRL_C_SIZE_LOG2 c else s
  let s2 := if idle ∧ 16 ≤ e ∧ e ≤ 20 then s1.setFld fEVT_CTRL_E_SIZE_LOG2 e else s1
  s2.setFld fEVT_CTRL_C_PAUSE (getBits v 0 0)

/-- A write at offset `o` of EVT. -/
def State.evtWrite (s : State) (o size v : Nat) : Option State :=
  let e := s.plat.evt
  if o = 0x100 then some (s.writeEvtCtrl v)
  else if o = 0x128 then some (s.writeEseqCons (if size = 8 then v else setHalf e.eseqCons 0 v))
  else if o = 0x12C then some (s.writeEseqCons (setHalf e.eseqCons 1 v))
  else if o = 0x130 then some (s.writeCseqProd (if size = 8 then v else setHalf e.cseqProd 0 v))
  else if o = 0x134 then some (s.writeCseqProd (setHalf e.cseqProd 1 v))
  else none

/-- A write at offset `o` of TIME. A write of one half of TIME.SET or TIME.STEP carries 0 in the other, for a WO register holds nothing.
[DEDUCED: log entry 78] -/
def State.timeWrite (s : State) (o size v : Nat) : Option State :=
  let whole := if size = 8 then v else v % 2 ^ 32
  if o = 0x108 then some (s.writeTimeSet whole)
  else if o = 0x10C then some (s.writeTimeSet (2 ^ 32 * v))
  else if o = 0x110 then some (s.writeTimeStep (toSigned 64 whole))
  else if o = 0x114 then some (s.writeTimeStep (toSigned 64 (2 ^ 32 * v)))
  else if o = 0x118 then
    let x := toSigned 32 v
    let y : Int := if x < -512000000 then -512000000 else if 512000000 < x then 512000000 else x
    some (s.setReg rTIME_RATE_ADJ (BitVec.ofNat 32 (y % 2 ^ 32).toNat))
  else if o = 0x120 then some (if v.testBit 1 then { s with plat.time.refLost := false } else s)
  else none

/-- A write at offset `o` of STORE. -/
def State.storeWrite (s : State) (o v : Nat) : Option State :=
  if o = 0x100 then some (if 1 ≤ v % 16 ∧ v % 16 ≤ 6 then s.storeStart (v % 16) else s)
  else if 0x800 ≤ o ∧ o < 0x900 then some (s.writeStageAddr ((o - 0x800) / 4) v)
  else if 0x1000 ≤ o ∧ o < 0x2000 then some (s.writeStageData ((o - 0x1000) / 64) ((o - 0x1000) % 64 / 4) v)
  else none

/-- A write at offset `o` of XING: the controls and the W1C bits of an island. -/
def State.xingWrite (s : State) (o v : Nat) : Option State :=
  if 0x200 ≤ o ∧ o < 0x520 then
    let i := (o - 0x200) / 0x20 + 1
    let x := s.island i
    let k := (o - 0x200) % 0x20
    some (if k = 0 then
        let s1 := s.writeClkStop i (v.testBit 0)
        if v.testBit 1 then (s1.pairStart i).restartPump else s1
      else if k = 4 then (if v.testBit 4 then s.setIsland i { x with pulseLost := false } else s)
      else if k = 8 then s.setIsland i { x with pulseOvf := x.pulseOvf &&& ~~~(BitVec.ofNat 32 v) }
      else s)
  else none

/-- A write at offset `o` of CHIP.
[DEDUCED: log entry 82] -/
def State.chipWrite (s : State) (o v : Nat) : Option State :=
  if o = 0x100 then some (if warmKey v then s.requestRestart 2 else s)
  else if o = 0x108 then some (s.writeStage (v % 16))
  else if o = 0x10C then
    let s1 := if v.testBit 31 then s.writeKick else s
    some ((s1.writeRunEn (v.testBit 16)).writeTimeout v)
  else none

/-- LDT.RTO_CFG: RTO_MIN_US is clamped first, then RTO_MAX_US to what it leaves. -/
def State.writeRtoCfg (s : State) (v : Nat) : State :=
  let mn := clampNat 5 10000 (getBits v 29 16)
  s.setReg rLDT_RTO_CFG (BitVec.ofNat 32 (mn * 65536 + clampNat mn 50000 (getBits v 15 0)))

/-- LDT.HS_CONS: the slots that software has moved past are free again (R77).
[DEDUCED: log entry 11] -/
def State.writeHsCons (s : State) (v : Nat) : State :=
  let n := (v % 256 + 256 - s.fld fLDT_HS_CONS) % 256
  { s with ldt.hsCount := s.ldt.hsCount - n }.setFld fLDT_HS_CONS (v % 256)

/-- A consumer position that moves forward by no more than what is posted. -/
def advances (cons prod v : Nat) : Bool := decide (psnSub v cons ≤ psnSub prod cons)

/-- A write at offset `o` of RGN. -/
def State.rgnWrite (s : State) (o v : Nat) : Option State :=
  let k := o % 0x20
  if 0x400 ≤ o ∧ o < 0x600 then
    let q := (o - 0x400) / 0x20
    let prod := (s.reg (rRGN_NQ_PROD q)).toNat
    let cons := (s.reg (rRGN_NQ_CONS q)).toNat
    let z := v % 32
    if k = 0x08 then
      some (if prod = cons ∧ s.rgn.reserved.get 0 q = 0 ∧ (z = 0 ∨ (6 ≤ z ∧ z ≤ 16)) then s.setReg (rRGN_NQ_CFG q) (BitVec.ofNat 32 z) else s)
    else if k = 0x10 then some (if advances cons prod (v % 2 ^ 32) then s.setReg (rRGN_NQ_CONS q) (BitVec.ofNat 32 v) else s)
    else none
  else if 0x800 ≤ o ∧ o < 0x1000 ∧ k = 0x0C then
    let r := (o - 0x800) / 0x20
    let cons := (s.reg (rRGN_RQ_CONS r)).toNat
    let lg := s.fld (fRGN_RQ_CFG_SIZE_LOG2 r)
    some (if psnSub (v % 2 ^ 32) cons ≤ (if lg = 0 then 0 else 2 ^ lg) then s.setReg (rRGN_RQ_PROD r) (BitVec.ofNat 32 v) else s)
  else none

/-- A write at offset `o` of NVF.
[DEDUCED: log entry 46] -/
def State.nvfWrite (s : State) (o v : Nat) : Option State :=
  if o = 0x100 then some (s.setReg rNVF_CFG (BitVec.ofNat 32 (min 16384 (v % 32768) / 16 * 16)))
  else if o = 0x128 then
    some (if advances (s.reg rNVF_SWQ_CONS).toNat (s.reg rNVF_SWQ_PROD).toNat (v % 2 ^ 32) then s.setReg rNVF_SWQ_CONS (BitVec.ofNat 32 v) else s)
  else none

/-- A write at offset `o` of a MARK quadrant (R157). -/
def State.markWrite (s : State) (q o size v : Nat) : Option State :=
  if o = 0x204 then some (if v.testBit 0 then s.pioStart q else s)
  else if o = 0x208 ∨ o = 0x20C then some (s.pioAppend q (8 * size) (le 8 v) false false)
  else if o = 0x210 ∨ o = 0x214 then some (s.pioLast q (8 * size) v)
  else none

/-- A write at offset `o` of GCIPH, by a core or through the service port. -/
def State.gciphWrite (s : State) (core : Bool) (o v : Nat) : Option State :=
  if o = 0x100 then some (s.gcLock (v % 256) core)
  else if o = 0x104 then some (s.gcRelease (v % 256) core)
  else if o = 0x108 then some (if v.testBit 0 then s.gcExpire else s)
  else if o = 0x110 then some (if v.testBit 0 ∧ s.sec.gciph.lock ≠ .locked then { s with sec.gciph.arm := true } else s)
  else if s.sec.gciph.lock = .locked then some s
  else none

/-- A write at offset `o` of FTL: MLOG_CONS does not pass MLOG_PROD, and room in the log ends MLOG_FULL. -/
def State.ftlWrite (s : State) (o size v : Nat) : Option State :=
  let old := s.reg64 rFTL_MLOG_CONS
  let upTo := fun (n : Nat) =>
    if n ≤ s.reg64 rFTL_MLOG_PROD then { s.setReg64 rFTL_MLOG_CONS n with back.mlogFull := s.back.mlogFull && decide (n ≤ old) } else s
  if o = 0x188 then some (upTo (if size = 8 then v else setHalf old 0 v))
  else if o = 0x18C then some (upTo (setHalf old 1 v))
  else none

/-- A write at offset `o` of PEERCTL. A timeout below three intervals stores three intervals. -/
def State.peerWrite (s : State) (o v : Nat) : Option State :=
  if o = 0x108 then
    let i := clampNat 1 100 (getBits v 7 0)
    some (s.setReg rPEERCTL_HB_CFG (BitVec.ofNat 32 (max (3 * i) (getBits v 31 16) * 65536 + i)))
  else if o = 0x11C then some (if s.peerState = psUnpaired then s.setReg rPEERCTL_INDEX_GROUP (BitVec.ofNat 32 (v % 16)) else s)
  else none

/-- A write at offset `o` of a module link's page. -/
def State.mlinkWrite (s : State) (m o v : Nat) : Option State :=
  if o = 0x100 then
    let s1 := s.writeLinkEn m (v.testBit 0)
    some ((if v.testBit 1 then s1.linkRetrain m else s1).linkOn m)
  else none

/-- A write of a register whose write does something beside its access type; none leaves it to its row. `core` says that a control core writes. -/
def State.actionWrite (s : State) (core : Bool) (p o size v : Nat) : Option State :=
  let n := blkInstOf p
  let b := blkTypeOf p
  if p = pgEVT then s.evtWrite o size v
  else if p = pgTIME then s.timeWrite o size v
  else if p = pgSTORE then s.storeWrite o v
  else if p = pgXING then s.xingWrite o v
  else if p = pgCHIP then s.chipWrite o v
  else if p = pgPWR then (if o = 0x114 then some (s.writeBankGate v) else none)
  else if p = pgAON then
    (if o = 0x108 then some (s.writeSwData (if size = 8 then 2 else 0) v) else if o = 0x10C then some (s.writeSwData 1 v) else none)
  else if p = pgIRQR then (if 0x100 ≤ o ∧ o < 0x460 ∧ (!pageExists ((o - 0x100) / 4) || isBroadcast ((o - 0x100) / 4)) then some s else none)
  else if b = pgCLU 0 then (if o = 0x100 then some (s.writeCoreRun n v) else if o = 0x110 then some (s.writeMemCfg n (v % 32)) else none)
  else if p = pgLDT then (if o = 0x10C then some (s.writeRtoCfg v) else if o = 0x13C then some (s.writeHsCons v) else none)
  else if p = pgRGN then s.rgnWrite o v
  else if p = pgNVF then s.nvfWrite o v
  else if b = pgMARK then s.markWrite n o size v
  else if p = pgGCIPH then s.gciphWrite core o v
  else if p = pgFTL then s.ftlWrite o size v
  else if p = pgPUG then (if o = 0x10C ∧ getBits v 31 16 < getBits v 15 0 then some s else none)
  else if p = pgSAG then (if o = 0x100 ∧ s.plat.chip.shelf ∧ s.plat.chip.heads < 2 then some s else none)
  else if b = pgMLINK 0 then s.mlinkWrite n o v
  else if p = pgPEERCTL then s.peerWrite o v
  else if b = pgHBM 0 then (if o = 0x100 then some (if v.testBit 0 then s.srEnter n else s.srExit n) else none)
  else if p = pgSYSC then (if o = 0x104 then some (s.wayEnWrite v) else if o = 0x10C then some (s.lockWrite v) else none)
  else if p = pgTALLY then (if 0x110 ≤ o ∧ o < 0x130 then some (s.tallyEnable ((o - 0x110) / 4) (v % 2 ^ 32)) else none)
  else if p = pgUPD then (if o = 0x11C then some (s.writeKeyRevoke v) else none)
  else none

/-- What follows a write: Pug's thresholds set its pressure levels, R_MIN and a port's line rate bound R (R92), and a peer link whose LINK_EN
is 0 is down (R347). -/
def State.afterWrite (s : State) (p o : Nat) : State :=
  if p = pgPUG ∧ o = 0x10C ∨ p = pgFTL ∧ o = 0x148 then s.back.groups.foldl (fun t e => t.relevel e.1) s
  else if 0x10000 * p + o = rLDT_RC_MIN ∨ (List.range 8).any (fun c => 0x10000 * p + o = rHPORT_MODE c) then s.boundRates
  else if (List.range 4).any (fun m => p = pgPLINK m && o = 0x100 && s.fld (fPLINK_CTRL_LINK_EN m) = 0) then s.memberDown (p - pgPLINK 0)
  else s

/-- A write of the common header (R44, R45). -/
def State.headerSet (s : State) (p o v : Nat) : State :=
  if o = 0x08 then s.writeCtrl p v
  else if o = 0x10 then s.writeIrqStat p (BitVec.ofNat 32 v)
  else if o = 0x14 then s.writeIrqEn p (BitVec.ofNat 32 v)
  else if o = 0x18 then s.writeIrqForce p (BitVec.ofNat 32 v)
  else if o = 0x2C then s.modPage p (fun g => { g with scratch := BitVec.ofNat 32 v })
  else s

/-- A write of `size` bytes at offset `o` of one page that is not a broadcast page. -/
def State.pageWrite (s : State) (core : Bool) (o size v : Nat) (p : Nat) : State :=
  if o < 0x100 then (if !s.pageOn p then s.bump fCHIP_OFF_ACCESS else if s.blk p = .off then s else s.headerSet p o v)
  else s.gated p (fun t => ((t.actionWrite core p o size v).getD (t.writeRow p o size v)).afterWrite p o)

/-! ### The window (R38-R40, R63) -/

/-- The end of the window, and the settings aperture. -/
def winEnd : Nat := 0x10000000
def inAperture (off : Nat) : Bool := decide (0x8000000 ≤ off) && decide (off < 0x8800000)

/-- Whether a page offset is a register marked 64-bit.
[DEDUCED: log entry 79] -/
def isWide (p o : Nat) : Bool :=
  let q := if isBroadcast p then quadPage p 0 else p
  match findRow (pageRows q) o with
  | some (r, d) => r.words = 2 && d = 0
  | none => false

/-- How the window takes an access. -/
inductive WinCheck where
  | ok | noPage | align | aperture
  deriving DecidableEq, Repr

/-- The test of an access of `size` bytes.
[DEDUCED: log entry 79] -/
def winCheck (write : Bool) (off size : Nat) : WinCheck :=
  if !inAperture off && (decide (winEnd ≤ off) || !pageExists (off / 0x10000)) then .noPage
  else if (size ≠ 4 ∧ size ≠ 8) ∨ off % size ≠ 0 then .align
  else if inAperture off then (if write then .aperture else .ok)
  else if size = 8 ∧ !isWide (off / 0x10000) (off % 0x10000) then .align
  else .ok

/-- The bytes of the aperture (R63). -/
def State.apertureRead (s : State) (off size : Nat) : Nat :=
  let d := off - 0x8000000
  getBits (s.plat.store.rows.get 0 (d / 64)) (8 * (d % 64) + 8 * size - 1) (8 * (d % 64))

/-- What a read of the word at offset `o` of a page changes: RC counters clear, and TIME.TXTS_VALUE takes its entry (R5). -/
def State.readEffect (s : State) (p o : Nat) : State :=
  if p = pgTIME ∧ (o = 0x138 ∨ o = 0x13C) then s.txtsPop.2
  else if p = pgLDT ∧ 0x310 ≤ o ∧ o < 0x320 then s.clearAssocCnt o
  else if p = pgPWR ∧ 0x200 ≤ o ∧ o < 0x284 then s.setDom ((o - 0x200) / 4) { s.dom ((o - 0x200) / 4) with entries := 0 }
  else match findRow (pageRows p) o with
    | some (r, d) =>
      if r.rc = 0 then s
      else s.setReg (0x10000 * p + o) (s.reg (0x10000 * p + o) &&& ~~~(BitVec.ofNat 32 (r.rc / 2 ^ (8 * d))))
    | none => s

/-- A word of AON.SW_DATA that cannot be read. -/
def State.swUnreadable (s : State) (p o : Nat) : Bool := p = pgAON && (o = 0x108 || o = 0x10C) && s.plat.aon.bad.contains s.swWord

/-- A read that passed its test: the value, and what the read leaves. -/
def State.winRead (s : State) (off size : Nat) : Nat × State :=
  if inAperture off then (s.apertureRead off size, s)
  else
    let p := off / 0x10000
    let o := off % 0x10000
    let q := if isBroadcast p then quadPage p 0 else p
    let v := s.pageWord p o + if size = 8 then 2 ^ 32 * s.pageWord p (o + 4) else 0
    if o < 0x100 then (v, s)
    else if !s.pageOn q then (0, s.bump fCHIP_OFF_ACCESS)
    else if s.blk q = .off then (0, s)
    else if s.swUnreadable q o then (v, s.swUncorr)
    else (v, s.readEffect q o)

/-- A write that passed its test: a broadcast page's write reaches all four quadrants (R43). -/
def State.winWrite (s : State) (core : Bool) (off size v : Nat) : State :=
  (writePages (off / 0x10000)).foldl (fun t p => t.pageWrite core (off % 0x10000) size (v % 2 ^ (8 * size)) p) s

/-- REGISTER_WRITE: a write by a control core. -/
def execRegisterWrite (off size data : Nat) (s : State) : Res :=
  .next (if winCheck true off size = .ok then s.winWrite true off size data else s.emit .busError)

/-- RC_COUNTER_READ: a 32-bit read by a control core, of a counter or of any other word. -/
def execRcCounterRead (off : Nat) (s : State) : Res :=
  .next (if winCheck false off 4 = .ok then
      let r := s.winRead off 4
      r.2.emit (.value r.1)
    else s.emit .busError)

end Sys2Proof.Machine
end

