-- ==== Sys2Proof/Machine/CoreMem.lean ====
section
/-! DEFINITION. Loads and stores over the control cores' physical map: HBM through the system cache, the register window, interrupt files,
cluster scratch and the boot ROM (R38-R40, R50, R52, R53, R373). -/

namespace Sys2Proof.Machine

/-! ### The physical map (R40) -/

/-- Where an address of the cores' map lies; scratch and interrupt files with their cluster or hart and the offset within it. -/
inductive CoreSpace where
  | hbm
  | window (off : Nat)
  | irqFile (hart off : Nat)
  | scratch (cluster off : Nat)
  | rom (off : Nat)
  | nothing
  deriving DecidableEq, Repr

/-- The map of R40. A cluster's scratch has a stride of 4 MiB.
[DESIGN CHOICE: log entry 114] -/
def coreSpace (a : Nat) : CoreSpace :=
  if a < hbmEnd then .hbm
  else if 0x2000000000 ≤ a ∧ a < 0x2010000000 then .window (a - 0x2000000000)
  else if 0x2100000000 ≤ a ∧ a < 0x2100060000 then .irqFile ((a - 0x2100000000) / 4096) ((a - 0x2100000000) % 4096)
  else if 0x2200000000 ≤ a ∧ a < 0x2203000000 then .scratch ((a - 0x2200000000) / 0x400000) ((a - 0x2200000000) % 0x400000)
  else if 0x2300000000 ≤ a ∧ a < 0x2300010000 then .rom (a - 0x2300000000)
  else .nothing

/-- `n` bytes of a cluster's scratch are there: its memory has power, no conversion runs, and they lie in ways used as scratch (R52, R53). -/
def State.scratchOk (s : State) (c off n : Nat) : Bool :=
  s.domOn (2 + c) && (s.cluster c).memTarget.isNone && decide (off + n ≤ (s.cluster c).scratchWays * 131072)

/-- A load of a control core outside HBM.
[DESIGN CHOICE: log entry 114] -/
def State.coreLoad (s : State) (a n : Nat) : State :=
  match coreSpace a with
  | .window off =>
    if winCheck false off n = .ok then
      let r := s.winRead off n
      r.2.emit (.bytes (le n r.1))
    else s.emit .busError
  | .irqFile _ _ => s.emit (.bytes (zeros n))
  | .scratch c off => if s.scratchOk c off n then s.emit (.bytes (tabBytes (s.cluster c).scratch off n)) else s.emit .busError
  | .rom off => if off + n ≤ 65536 then s.emit (.bytes ((List.range n).map (fun i => Config.bootRom (off + i)))) else s.emit .busError
  | .hbm | .nothing => s.emit .busError

/-- A store of a control core outside HBM. A store of an identity to the first word of an interrupt file makes it pending (R50).
[DESIGN CHOICE: log entry 114] -/
def State.coreStore (s : State) (a : Nat) (bs : List Byte) : State :=
  match coreSpace a with
  | .window off => if winCheck true off bs.length = .ok then s.winWrite true off bs.length (unLe bs) else s.emit .busError
  | .irqFile hart off =>
    if off = 0 ∧ bs.length = 4 ∧ 1 ≤ unLe bs ∧ unLe bs < 256 then
      { s with plat.imsic := s.plat.imsic.put 0 hart (s.plat.imsic.get 0 hart ||| 2 ^ unLe bs) }
    else s
  | .scratch c off =>
    if s.scratchOk c off bs.length then s.setCluster c { s.cluster c with scratch := writeCells (s.cluster c).scratch off bs } else s.emit .busError
  | .rom _ => s
  | .hbm | .nothing => s.emit .busError

/-! ### The accesses (R40, R373) -/

/-- SYSC_READ. -/
def execSyscRead (addr len : Nat) (core : Bool) (ecc : Nat) (s : State) : Res :=
  .next (if s.plat.pwr.cold then s
    else if core ∧ hbmEnd ≤ addr then s.coreLoad addr len
    else State.readFuel (len / 256 + 2) s addr len core ecc)

/-- SYSC_WRITE. -/
def execSyscWrite (addr : Nat) (data : List Byte) (core : Bool) (s : State) : Res :=
  .next (if s.plat.pwr.cold then s
    else if core ∧ hbmEnd ≤ addr then s.coreStore addr data
    else State.writeAll (data.length / 64 + 2) s addr data core)

end Sys2Proof.Machine
end

