-- ==== Sys2Proof/Machine/Sag.lean ====
section
/-! DEFINITION. SAG's dump (R312-R314). -/

namespace Sys2Proof.Machine

/-- SAG_DUMP: power has failed, a warm restart has been requested, or an error is fatal to the chip. It goes to the set
that does not hold the newest unreleased dump. -/
def execSagDump (s : State) : Res :=
  .next (if (s.plat.pwr.powerFail ∨ s.plat.chip.restartReq.isSome ∨ s.plat.chip.fatalHold) ∧ !s.plat.chip.dumpDone
      ∧ s.working pgSAG ∧ s.back.dumping.isNone then
      let set := match s.newestDump with
        | some d => 1 - d.set
        | none => 0
      let id := s.plat.evt.epoch
      let ck := s.reg64 rFTL_CKPT_SEQ
      { s with
        back.dumping := some set
        back.dumps := s.back.dumps.filter (fun d => d.set ≠ set)
          ++ [{ id := id, set := set, shelf := s.plat.chip.shelf, ckptSeq := ck, lastComplete := ck }] }
    else s)

/-- The dump headers go to the next anchors: one after each 256 MiB, and the last (R314).
[DEDUCED: log entry 134] -/
def State.dumpHeader (s : State) : State := match s.nextAnchor with
  | some m => s.anchorWrite m
  | none => s

/-- SAG_DUMP_DONE: the dump ends with its FINAL header. An array-mode dump while DCIPH is locked holds only its first part. A
warm restart that waits for it goes on. -/
def execSagDumpDone (timeUs : Nat) (s : State) : Res :=
  .next (match s.back.dumping with
    | some set =>
      let short := s.arrayMode && s.zeroized
      let us := if short then [] else s.dumpUnits
      let s0 := if short then s else (s.ringTake s.ringUsed).1
      let s1 := ({ s0 with back.dumping := none, plat.chip.dumpDone := true } : State).modDump set (fun d =>
        if short then { d with final := true, bytes := 2 ^ 20 + 2 ^ 24, log := s.logInUse }
        else { d with final := true, lastComplete := s.lmap.commitSeq, image := some (s.committedMaps 0), units := us, bytes := s.dumpBytes us.length,
                       log := s.logInUse, mirror := s.dumpMirror })
      let s2 := (List.range (s.dumpBytes us.length / 2 ^ 28 + 1)).foldl (fun t _ => t.dumpHeader) s1
      (s2.setReg rSAG_DUMP_TIME_US (BitVec.ofNat 32 timeUs)).restartPump
    | none => s)

end Sys2Proof.Machine
end

