-- ==== Sys2Proof/Machine/Svc.lean ====
section
/-! DEFINITION. The service port and the I3C target: messages, their statuses, the memory of answered messages, and frames that are no
service message (R411-R417, R420). -/

namespace Sys2Proof.Machine

/-! ### Operations and statuses (R413, R414) -/

def svREAD : Nat := 0x01
def svWRITE : Nat := 0x02
def svREAD64 : Nat := 0x03
def svWRITE64 : Nat := 0x04
def svHBMREAD : Nat := 0x05
def svHBMWRITE : Nat := 0x06
def svUPDDATA : Nat := 0x10
def svPING : Nat := 0x20

def svOk : Nat := 0
def svBadMsg : Nat := 1
def svNoPage : Nat := 2
def svAlign : Nat := 3
def svRefused : Nat := 4
def svCold : Nat := 5
def svUpdState : Nat := 6
def svHbmError : Nat := 7

/-- What an operation answers: the status, the units performed, the data, and the state it leaves. -/
structure SvcAns where
  st : State
  status : Nat
  count : Nat := 0
  data : List Byte := []

/-- The response message (R412): RESP is set, and OP, SEQ and ADDR are those of the request. -/
def svcResponse (op : Nat) (m : SvcMsg) (status count : Nat) (data : List Byte) : List Byte :=
  le 2 0x5356 ++ le 1 1 ++ le 1 op ++ le 1 1 ++ le 1 0 ++ le 2 m.seq ++ le 2 status ++ le 2 count ++ le 4 0 ++ le 8 m.addr ++ data

/-- The data bytes of a request, when OP is known and COUNT is in its range. -/
def svcDataLen (op n : Nat) : Option Nat :=
  if op = svREAD then (if 1 ≤ n ∧ n ≤ 256 then some 0 else none)
  else if op = svWRITE then (if 1 ≤ n ∧ n ≤ 256 then some (4 * n) else none)
  else if op = svREAD64 then (if n = 1 then some 0 else none)
  else if op = svWRITE64 then (if n = 1 then some 8 else none)
  else if op = svHBMREAD then (if 64 ≤ n ∧ n ≤ 1024 ∧ n % 64 = 0 then some 0 else none)
  else if op = svHBMWRITE then (if 64 ≤ n ∧ n ≤ 1024 ∧ n % 64 = 0 then some n else none)
  else if op = svUPDDATA then (if 1 ≤ n ∧ n ≤ 1024 then some n else none)
  else if op = svPING then (if n = 0 then some 0 else none)
  else none

/-- A well-formed message: MAGIC, VERSION, OP, COUNT, and a length that matches COUNT (R414). -/
def svcGood (op : Nat) (m : SvcMsg) : Bool :=
  m.magic = 0x5356 && m.version = 1 && svcDataLen op m.count = some m.data.length

/-- SVC.CTRL.ACCESS and HBM_EN allow an operation (R413, R416). -/
def State.svcAllows (s : State) (op : Nat) : Bool :=
  let a := s.fld fSVC_CTRL_ACCESS
  let acc := if a = 1 then [svREAD, svREAD64, svHBMREAD, svUPDDATA, svPING].contains op
    else if a = 2 then [svUPDDATA, svPING].contains op
    else true
  acc && ((op ≠ svHBMREAD && op ≠ svHBMWRITE) || s.fld fSVC_CTRL_HBM_EN = 1)

/-- The status that an access of the register window would have: in Cold only pages of PD0 and PD1 answer. -/
def State.svcCheck (s : State) (write : Bool) (off size : Nat) : Nat :=
  let p := off / 0x10000
  if s.plat.pwr.cold ∧ !(pageExists p ∧ (domOfPage p = some 0 ∨ domOfPage p = some 1)) then svCold
  else match winCheck write off size with
    | .ok => svOk
    | .noPage => svNoPage
    | .align => svAlign
    | .aperture => svRefused

/-- READ: words upward until one fails. -/
def State.svcReadWords : State → Nat → Nat → Nat → List Byte → SvcAns
  | s, _, 0, done, acc => ⟨s, svOk, done, acc⟩
  | s, off, n + 1, done, acc =>
    let c := s.svcCheck false off 4
    if c = svOk then
      let r := s.winRead off 4
      State.svcReadWords r.2 (off + 4) n (done + 1) (acc ++ le 4 r.1)
    else ⟨s, c, done, acc⟩

/-- WRITE: words in order until one fails. -/
def State.svcWriteWords : State → Nat → Nat → Nat → List Byte → SvcAns
  | s, _, 0, done, _ => ⟨s, svOk, done, []⟩
  | s, off, n + 1, done, bs =>
    let c := s.svcCheck true off 4
    if c = svOk then State.svcWriteWords (s.winWrite false off 4 (unLe (bs.take 4))) (off + 4) n (done + 1) (bs.drop 4)
    else ⟨s, c, done, []⟩

/-- READ64 and WRITE64. -/
def State.svcRead64 (s : State) (off : Nat) : SvcAns :=
  let c := s.svcCheck false off 8
  if c = svOk then let r := s.winRead off 8; ⟨r.2, svOk, 1, le 8 r.1⟩ else ⟨s, c, 0, []⟩
def State.svcWrite64 (s : State) (off : Nat) (bs : List Byte) : SvcAns :=
  let c := s.svcCheck true off 8
  if c = svOk then ⟨s.winWrite false off 8 (unLe bs), svOk, 1, []⟩ else ⟨s, c, 0, []⟩

/-- A stack of one of the sectors from `a` on is not Active. -/
def State.stackAsleep (s : State) (a n : Nat) : Bool :=
  (List.range (n / 64)).any (fun k => (s.stack (stackOf (a + 64 * k))).sr ≠ .active)

/-- The first uncorrectable sector from `a` on, whatever the cache holds. -/
def State.rawBad (s : State) (a n : Nat) : Option Nat :=
  ((List.range (n / 64)).find? (fun k => s.mem.bad.contains (a / 64 + k))).map (fun k => a + 64 * k)

/-- HBM_READ of whole sectors, past the cache. -/
def State.svcHbmRead (s : State) (a n : Nat) : SvcAns :=
  if s.plat.pwr.cold then ⟨s, svCold, 0, []⟩
  else if a % 64 ≠ 0 then ⟨s, svAlign, 0, []⟩
  else if hbmEnd < a + n then ⟨s, svHbmError, 0, []⟩
  else if s.stackAsleep a n then ⟨s.srRefused a, svHbmError, 0, []⟩
  else match s.rawBad a n with
    | some b => ⟨s.hbmUncorr b, svHbmError, 0, []⟩
    | none => ⟨s, svOk, n, (List.range n).map (fun i => s.rawByte (a + i))⟩

/-- HBM_WRITE of whole sectors, past the cache and the merging buffer. -/
def State.svcHbmWrite (s : State) (a n : Nat) (bs : List Byte) : SvcAns :=
  if s.plat.pwr.cold then ⟨s, svCold, 0, []⟩
  else if a % 64 ≠ 0 then ⟨s, svAlign, 0, []⟩
  else if hbmEnd < a + n then ⟨s, svHbmError, 0, []⟩
  else if s.stackAsleep a n then ⟨s.srRefused a, svHbmError, 0, []⟩
  else ⟨{ s with
      mem.cells := writeCells s.mem.cells a bs
      mem.bad := s.mem.bad.filter (fun k => !(decide (a / 64 ≤ k) && decide (k < a / 64 + n / 64))) }, svOk, n, []⟩

/-- The end of what UPD_DATA may write (R420); none where it is refused. -/
def State.updLimit (s : State) : Option Nat :=
  match s.upd.st with
  | .idle => some (bodyStart (s.hbmNat (s.reg64 rUPD_PKG_BASE + 0x014) 4))
  | .verified => some (bodyStart (hdrEnvs s.upd.header) + hdrBody s.upd.header + 16)
  | .staging | .staged | .activating | .trial | .failed => none

/-- UPD_DATA into the package buffer. -/
def State.svcUpdData (s : State) (off n : Nat) (bs : List Byte) : SvcAns :=
  if s.plat.pwr.cold then ⟨s, svCold, 0, []⟩
  else match s.updLimit with
    | none => ⟨s, svUpdState, 0, []⟩
    | some lim =>
      let a := s.reg64 rUPD_PKG_BASE + off
      if lim < off + n then ⟨s, svUpdState, 0, []⟩
      else if hbmEnd < a + n ∨ (List.range n).any (fun i => (s.stack (stackOf (a + i))).sr ≠ .active) then
        ⟨if a + n ≤ hbmEnd then s.srRefused a else s, svHbmError, 0, []⟩
      else ⟨s.hbmWrite a bs, svOk, n, []⟩

/-- PING. With WAKE = 1 in Cold it is the service port's wake source (R407). -/
def State.svcPing (s : State) (flags : Nat) : SvcAns :=
  let data := le 4 (s.headerWord pgCHIP 0) ++ le 1 s.plat.pwr.coldCause ++ le 1 s.upd.st.code ++ [0, 0]
  ⟨if flags.testBit 1 then s.coldWake (s.fld fPWR_WAKE_EN_SVC) 2 else s, svOk, 0, data⟩

/-- An allowed operation. -/
def State.svcOp (s : State) (op : Nat) (m : SvcMsg) : SvcAns :=
  if op = svREAD then s.svcReadWords m.addr m.count 0 []
  else if op = svWRITE then s.svcWriteWords m.addr m.count 0 m.data
  else if op = svREAD64 then s.svcRead64 m.addr
  else if op = svWRITE64 then s.svcWrite64 m.addr m.data
  else if op = svHBMREAD then s.svcHbmRead m.addr m.count
  else if op = svHBMWRITE then s.svcHbmWrite m.addr m.count m.data
  else if op = svUPDDATA then s.svcUpdData m.addr m.count m.data
  else s.svcPing m.flags

/-- The response kept for a SEQ and OP (R415). -/
def State.svcKept (s : State) (op seq : Nat) : Option (List Byte) :=
  (s.svc.recent.find? (fun e => e.1 = seq && e.2.1 = op)).map (fun e => e.2.2)

/-- A message has its turn: the response, and what the message leaves (R414, R415).
[DEDUCED: log entry 83] -/
def State.svcTurn (s : State) (op : Nat) (m : SvcMsg) : List Byte × State :=
  if !svcGood op m then (svcResponse op m svBadMsg 0 [], s)
  else match s.svcKept op (m.seq % 65536) with
    | some r => (r, s.bump fSVC_DUP)
    | none =>
      let a := if s.svcAllows op then s.svcOp op m else ⟨s, svRefused, 0, []⟩
      let r := svcResponse op m a.status a.count a.data
      let s1 := if a.status = svRefused ∨ a.status = svCold then a.st.bump fSVC_REFUSED else a.st
      (r, { s1 with svc.recent := ((m.seq % 65536, op, r) :: s1.svc.recent).take 32 })

/-- A message on the Ethernet port. -/
def State.svcMessage (s : State) (op : Nat) (m : SvcMsg) : State :=
  let r := (s.bump fSVC_RX_MSG).svcTurn op m
  (r.2.bump fSVC_TX_MSG).emit (.bytes r.1)

/-- SVC_READ. -/
def execSvcRead (m : SvcMsg) (s : State) : Res := .next (s.svcMessage svREAD m)
/-- SVC_WRITE. -/
def execSvcWrite (m : SvcMsg) (s : State) : Res := .next (s.svcMessage svWRITE m)
/-- SVC_READ64. -/
def execSvcRead64 (m : SvcMsg) (s : State) : Res := .next (s.svcMessage svREAD64 m)
/-- SVC_WRITE64. -/
def execSvcWrite64 (m : SvcMsg) (s : State) : Res := .next (s.svcMessage svWRITE64 m)
/-- SVC_HBM_READ. -/
def execSvcHbmRead (m : SvcMsg) (s : State) : Res := .next (s.svcMessage svHBMREAD m)
/-- SVC_HBM_WRITE. -/
def execSvcHbmWrite (m : SvcMsg) (s : State) : Res := .next (s.svcMessage svHBMWRITE m)
/-- UPD_DATA. -/
def execUpdData (m : SvcMsg) (s : State) : Res := .next (s.svcMessage svUPDDATA m)
/-- PING. -/
def execPing (m : SvcMsg) (s : State) : Res := .next (s.svcMessage svPING m)

/-! ### Frames and private transfers -/

/-- The header and data of a message's bytes, with its OP; bytes that are missing read as 0. -/
def svcParse (bs : List Byte) : Nat × SvcMsg :=
  (unLe (slice bs 3 1),
    { magic := unLe (slice bs 0 2), version := unLe (slice bs 2 1), flags := unLe (slice bs 4 1), seq := unLe (slice bs 6 2)
      count := unLe (slice bs 10 2), addr := unLe (slice bs 16 8), data := bs.drop 24 })

/-- A frame's payload without the padding of the shortest Ethernet frame. -/
def svcUnpad (bs : List Byte) : List Byte :=
  match svcDataLen (svcParse bs).1 (svcParse bs).2.count with
  | some n => if bs.length = 46 ∧ 24 + n ≤ 46 then bs.take (24 + n) else bs
  | none => bs

/-- SVC_FRAME_FORWARD: a frame arrives at the service port (R411). A frame to SVC.MAC with EtherType 0x88B5 and no tag is a service
message after all; any other goes to switch endpoint 20 or is dropped.
[DEDUCED: log entry 84] -/
def execSvcFrameForward (frame : List Byte) (s : State) : Res :=
  .next (if unBe (frame.take 6) = s.reg64 rSVC_MAC ∧ unBe (slice frame 12 2) = 0x88B5 then
      let bs := svcUnpad (frame.drop 14)
      if bs.length < 24 then
        ((s.bump fSVC_RX_MSG).bump fSVC_TX_MSG).emit (.bytes (svcResponse (svcParse bs).1 (svcParse bs).2 svBadMsg 0 []))
      else s.svcMessage (svcParse bs).1 (svcParse bs).2
    else if s.fld fSVC_CTRL_FWD = 1 then s.frameInput (coreFrame 20 frame)
    else s.bump fSVC_RX_DROP)

/-- The I3C target is enabled. -/
def State.i3cOn (s : State) : Bool := s.fld fSVC_I3C_CFG_I3C_EN = 1

/-- What a private write may carry (R417). -/
def i3cGood (bs : List Byte) : Bool :=
  decide (24 ≤ bs.length ∧ bs.length ≤ 24 + 64) && [svREAD, svWRITE, svREAD64, svWRITE64, svPING].contains (svcParse bs).1

/-- I3C_PRIVATE_WRITE: the message is executed, and its response waits for a private read. -/
def execI3cPrivateWrite (msg : List Byte) (s : State) : Res :=
  .next (if s.i3cOn then
      let pm := svcParse msg
      let s1 := s.bump fSVC_RX_MSG
      let r := if i3cGood msg then s1.svcTurn pm.1 pm.2 else (svcResponse pm.1 pm.2 svBadMsg 0 [], s1)
      { r.2 with svc.i3cResp := some r.1 }
    else s)

/-- I3C_PRIVATE_READ: returns the response; without one the target does not acknowledge. -/
def execI3cPrivateRead (s : State) : Res :=
  .next (match s.i3cOn, s.svc.i3cResp with
    | true, some r => ({ s with svc.i3cResp := none }.bump fSVC_TX_MSG).emit (.bytes r)
    | _, _ => s)

/-- The target takes a dynamic address (R417).
[PRESUMED: log entry 85] -/
def State.i3cAssign (s : State) (addr : Nat) : State :=
  if s.i3cOn then (s.setFld fSVC_I3C_DA_VALID 1).setFld fSVC_I3C_DA_ADDR addr else s

/-- SETDASA. -/
def execSetdasa (addr : Nat) (s : State) : Res := .next (s.i3cAssign addr)
/-- ENTDAA. -/
def execEntdaa (addr : Nat) (s : State) : Res := .next (s.i3cAssign addr)
/-- RSTDAA. -/
def execRstdaa (s : State) : Res :=
  .next (if s.i3cOn then (s.setFld fSVC_I3C_DA_VALID 0).setFld fSVC_I3C_DA_ADDR 0 else s)
/-- GETPID: six bytes, most significant first.
[PRESUMED: log entry 85] -/
def execGetpid (s : State) : Res := .next (if s.i3cOn then s.emit (.bytes (be 6 Config.i3cPid)) else s)
/-- GETBCR. -/
def execGetbcr (s : State) : Res := .next (if s.i3cOn then s.emit (.bytes [Config.i3cBcr]) else s)
/-- GETDCR. -/
def execGetdcr (s : State) : Res := .next (if s.i3cOn then s.emit (.bytes [Config.i3cDcr]) else s)
/-- GETSTATUS: two bytes.
[DESIGN CHOICE: log entry 33] [PRESUMED: log entry 85] -/
def execGetstatus (s : State) : Res :=
  .next (if s.i3cOn then let r := s.freeBytes 2; r.2.emit (.bytes r.1) else s)

end Sys2Proof.Machine
end

