-- ==== Sys2Proof/Machine/Dispatch.lean ====
section
/-! DEFINITION. Which meaning each command has. -/

namespace Sys2Proof.Machine

/-- The effect of a command on everything but the queue. -/
def exec (i : Instr) (s : State) : Host.Outcome State Fault Refusal :=
  match i with
  | .registerWrite off size data => Sys2Proof.Machine.execRegisterWrite off size data s
  | .rcCounterRead off => Sys2Proof.Machine.execRcCounterRead off s
  | .blkIrqStatWrite page value => Sys2Proof.Machine.execBlkIrqStatWrite page value s
  | .blkIrqForce page value => Sys2Proof.Machine.execBlkIrqForce page value s
  | .blockEnable page => Sys2Proof.Machine.execBlockEnable page s
  | .blockDisable page => Sys2Proof.Machine.execBlockDisable page s
  | .blockQuiesce page => Sys2Proof.Machine.execBlockQuiesce page s
  | .blockResume page => Sys2Proof.Machine.execBlockResume page s
  | .quiesceComplete page => Sys2Proof.Machine.execQuiesceComplete page s
  | .blockReset page => Sys2Proof.Machine.execBlockReset page s
  | .blockResetDone page => Sys2Proof.Machine.execBlockResetDone page s
  | .blockFault page infoA infoB => Sys2Proof.Machine.execBlockFault page infoA infoB s
  | .eseqConsWrite value => Sys2Proof.Machine.execEseqConsWrite value s
  | .cseqProdWrite value => Sys2Proof.Machine.execCseqProdWrite value s
  | .nop h entry => Sys2Proof.Machine.execNop h entry s
  | .configCommit h blkType => Sys2Proof.Machine.execConfigCommit h blkType s
  | .paceWindowEnd windowUs beats => Sys2Proof.Machine.execPaceWindowEnd windowUs beats s
  | .crossingValueTransfer island crossing value samples => Sys2Proof.Machine.execCrossingValueTransfer island crossing value samples s
  | .crossingEventToggle island crossing => Sys2Proof.Machine.execCrossingEventToggle island crossing s
  | .crossingEventAck island crossing => Sys2Proof.Machine.execCrossingEventAck island crossing s
  | .islandClockCapture island crossing => Sys2Proof.Machine.execIslandClockCapture island crossing s
  | .xeTimeout island crossing => Sys2Proof.Machine.execXeTimeout island crossing s
  | .clkStopWrite island => Sys2Proof.Machine.execClkStopWrite island s
  | .islandClockStop island => Sys2Proof.Machine.execIslandClockStop island s
  | .islandRefClockLoss island => Sys2Proof.Machine.execIslandRefClockLoss island s
  | .pairReset island => Sys2Proof.Machine.execPairReset island s
  | .pairResetRelease island => Sys2Proof.Machine.execPairResetRelease island s
  | .coreRunWrite cluster value => Sys2Proof.Machine.execCoreRunWrite cluster value s
  | .memCfgWrite cluster ways => Sys2Proof.Machine.execMemCfgWrite cluster ways s
  | .memCfgDone cluster => Sys2Proof.Machine.execMemCfgDone cluster s
  | .timeSet value => Sys2Proof.Machine.execTimeSet value s
  | .timeStep step => Sys2Proof.Machine.execTimeStep step s
  | .slewDone => Sys2Proof.Machine.execSlewDone s
  | .timebaseRefLost => Sys2Proof.Machine.execTimebaseRefLost s
  | .txtsValueRead => Sys2Proof.Machine.execTxtsValueRead s
  | .storeCommit => Sys2Proof.Machine.execStoreCommit s
  | .storeSelectA => Sys2Proof.Machine.execStoreSelectA s
  | .storeSelectB => Sys2Proof.Machine.execStoreSelectB s
  | .storeCopyAToB => Sys2Proof.Machine.execStoreCopyAToB s
  | .storeCopyBToA => Sys2Proof.Machine.execStoreCopyBToA s
  | .storeDiscard => Sys2Proof.Machine.execStoreDiscard s
  | .storeOpDone verifyFail => Sys2Proof.Machine.execStoreOpDone verifyFail s
  | .storeLock => Sys2Proof.Machine.execStoreLock s
  | .hportFrameReceive port frame => Sys2Proof.Machine.execHportFrameReceive port frame s
  | .hsRx port srcIp srcUdp payload => Sys2Proof.Machine.execHsRx port srcIp srcUdp payload s
  | .ldtAckReceive assoc ack => Sys2Proof.Machine.execLdtAckReceive assoc ack s
  | .ldtNakReceive p code info => Sys2Proof.Machine.execLdtNakReceive p code info s
  | .ldtKeepaliveReceive p => Sys2Proof.Machine.execLdtKeepaliveReceive p s
  | .ldtCloseReceive p => Sys2Proof.Machine.execLdtCloseReceive p s
  | .ldtWriteReceive p => Sys2Proof.Machine.execLdtWriteReceive p s
  | .ldtWriteNotifyReceive p => Sys2Proof.Machine.execLdtWriteNotifyReceive p s
  | .ldtSendReceive p => Sys2Proof.Machine.execLdtSendReceive p s
  | .ldtReadReqReceive p => Sys2Proof.Machine.execLdtReadReqReceive p s
  | .ldtReadRespReceive p => Sys2Proof.Machine.execLdtReadRespReceive p s
  | .ldtCapsuleReceive p => Sys2Proof.Machine.execLdtCapsuleReceive p s
  | .ctxFetchDone ctx uncorrectable => Sys2Proof.Machine.execCtxFetchDone ctx uncorrectable s
  | .ackDelayExpiry assoc => Sys2Proof.Machine.execAckDelayExpiry assoc s
  | .ldtPacketTransmit assoc => Sys2Proof.Machine.execLdtPacketTransmit assoc s
  | .rtoExpiry assoc => Sys2Proof.Machine.execRtoExpiry assoc s
  | .pathUp assoc path => Sys2Proof.Machine.execPathUp assoc path s
  | .keepaliveIntervalExpiry assoc => Sys2Proof.Machine.execKeepaliveIntervalExpiry assoc s
  | .kaTimeoutExpiry assoc => Sys2Proof.Machine.execKaTimeoutExpiry assoc s
  | .rcIntervalEnd assoc => Sys2Proof.Machine.execRcIntervalEnd assoc s
  | .keyPhaseRetire assoc => Sys2Proof.Machine.execKeyPhaseRetire assoc s
  | .assocOpen h assoc peerAssoc txPsn0 rxPsn0 port descr => Sys2Proof.Machine.execAssocOpen h assoc peerAssoc txPsn0 rxPsn0 port descr s
  | .assocClose h assoc => Sys2Proof.Machine.execAssocClose h assoc s
  | .assocCloseSend assoc => Sys2Proof.Machine.execAssocCloseSend assoc s
  | .assocRekey h assoc armRx txSwitch => Sys2Proof.Machine.execAssocRekey h assoc armRx txSwitch s
  | .assocFree h assoc => Sys2Proof.Machine.execAssocFree h assoc s
  | .hsSend h port len addr remoteIp => Sys2Proof.Machine.execHsSend h port len addr remoteIp s
  | .ctxPin h ctx => Sys2Proof.Machine.execCtxPin h ctx s
  | .ctxUnpin h ctx => Sys2Proof.Machine.execCtxUnpin h ctx s
  | .ctxWriteback h ctx => Sys2Proof.Machine.execCtxWriteback h ctx s
  | .rgnRegister h index assoc perm notifyTgt base length => Sys2Proof.Machine.execRgnRegister h index assoc perm notifyTgt base length s
  | .rgnRevoke h index gen => Sys2Proof.Machine.execRgnRevoke h index gen s
  | .regionRevokeDone index => Sys2Proof.Machine.execRegionRevokeDone index s
  | .nvmeAdmit => Sys2Proof.Machine.execNvmeAdmit s
  | .heldCommandRelease tenant => Sys2Proof.Machine.execHeldCommandRelease tenant s
  | .nvmeFlush cmd => Sys2Proof.Machine.execNvmeFlush cmd s
  | .nvmeWrite cmd => Sys2Proof.Machine.execNvmeWrite cmd s
  | .nvmeRead run => Sys2Proof.Machine.execNvmeRead run s
  | .nvmeCompare cmd => Sys2Proof.Machine.execNvmeCompare cmd s
  | .nvmeWriteZeroes cmd => Sys2Proof.Machine.execNvmeWriteZeroes cmd s
  | .nvmeDatasetManagement cmd => Sys2Proof.Machine.execNvmeDatasetManagement cmd s
  | .nvmeVerify cmd => Sys2Proof.Machine.execNvmeVerify cmd s
  | .nvmeSoftwareHandoff cmd => Sys2Proof.Machine.execNvmeSoftwareHandoff cmd s
  | .writeDurable cmd => Sys2Proof.Machine.execWriteDurable cmd s
  | .queueCreate h ctx assoc tenant qid cls flags cntlid size => Sys2Proof.Machine.execQueueCreate h ctx assoc tenant qid cls flags cntlid size s
  | .queueDelete h ctx => Sys2Proof.Machine.execQueueDelete h ctx s
  | .nsSet h nsid entry => Sys2Proof.Machine.execNsSet h nsid entry s
  | .complete h ctx cid status dw0 dw1 assoc => Sys2Proof.Machine.execComplete h ctx cid status dw0 dw1 assoc s
  | .abort h ctx cid => Sys2Proof.Machine.execAbort h ctx cid s
  | .nvtcpSyn port remoteIp localIp remotePort syn iss => Sys2Proof.Machine.execNvtcpSyn port remoteIp localIp remotePort syn iss s
  | .nvtcpSegmentReceive conn seq ack ce cwr ece body => Sys2Proof.Machine.execNvtcpSegmentReceive conn seq ack ce cwr ece body s
  | .nvtcpIcreq conn => Sys2Proof.Machine.execNvtcpIcreq conn s
  | .nvtcpCapsuleCmd conn => Sys2Proof.Machine.execNvtcpCapsuleCmd conn s
  | .nvtcpH2cData conn => Sys2Proof.Machine.execNvtcpH2cData conn s
  | .nvtcpH2cTermReq conn => Sys2Proof.Machine.execNvtcpH2cTermReq conn s
  | .nvtcpRtoExpiry conn => Sys2Proof.Machine.execNvtcpRtoExpiry conn s
  | .swFrameInput f => Sys2Proof.Machine.execSwFrameInput f s
  | .mcHoldTimeout cmd dest => Sys2Proof.Machine.execMcHoldTimeout cmd dest s
  | .peerMemberDown member => Sys2Proof.Machine.execPeerMemberDown member s
  | .plinkLinkUp member => Sys2Proof.Machine.execPlinkLinkUp member s
  | .markFingerprint unit crazed ecc => Sys2Proof.Machine.execMarkFingerprint unit crazed ecc s
  | .markKeyDerive h slot alg keySlot => Sys2Proof.Machine.execMarkKeyDerive h slot alg keySlot s
  | .markKeyClear h slot => Sys2Proof.Machine.execMarkKeyClear h slot s
  | .markKeyClearDone slot => Sys2Proof.Machine.execMarkKeyClearDone slot s
  | .markDigest h flags slot src length result ecc => Sys2Proof.Machine.execMarkDigest h flags slot src length result ecc s
  | .markPioStart quad => Sys2Proof.Machine.execMarkPioStart quad s
  | .markPioData quad size data ecc => Sys2Proof.Machine.execMarkPioData quad size data ecc s
  | .markPioLast quad size data => Sys2Proof.Machine.execMarkPioLast quad size data s
  | .markPioDone quad => Sys2Proof.Machine.execMarkPioDone quad s
  | .markKeyRefillDone quad => Sys2Proof.Machine.execMarkKeyRefillDone quad s
  | .grogLookup unit => Sys2Proof.Machine.execGrogLookup unit s
  | .grogPendingResolve unit => Sys2Proof.Machine.execGrogPendingResolve unit s
  | .grogProbeDone unit unreadable => Sys2Proof.Machine.execGrogProbeDone unit unreadable s
  | .grogConfirm unit => Sys2Proof.Machine.execGrogConfirm unit s
  | .grogVerifyDone unit => Sys2Proof.Machine.execGrogVerifyDone unit s
  | .grogMerge unreadable => Sys2Proof.Machine.execGrogMerge unreadable s
  | .grogDomainSet h dom tenant mode verify => Sys2Proof.Machine.execGrogDomainSet h dom tenant mode verify s
  | .grogDomainPurge h dom => Sys2Proof.Machine.execGrogDomainPurge h dom s
  | .grogPurgeDone dom => Sys2Proof.Machine.execGrogPurgeDone dom s
  | .grogReconcile h => Sys2Proof.Machine.execGrogReconcile h s
  | .grogReconcileDone => Sys2Proof.Machine.execGrogReconcileDone s
  | .grogIndexRebuild h base => Sys2Proof.Machine.execGrogIndexRebuild h base s
  | .grogIndexRebuildDone base => Sys2Proof.Machine.execGrogIndexRebuildDone base s
  | .wedgeCompress unit stream => Sys2Proof.Machine.execWedgeCompress unit stream s
  | .wedgeVerify unit => Sys2Proof.Machine.execWedgeVerify unit s
  | .wedgeDecode rd => Sys2Proof.Machine.execWedgeDecode rd s
  | .wedgeJob h desc streams => Sys2Proof.Machine.execWedgeJob h desc streams s
  | .keysLoad h cls form kek type slot src len flags tenant => Sys2Proof.Machine.execKeysLoad h cls form kek type slot src len flags tenant s
  | .keysClear h cls slot => Sys2Proof.Machine.execKeysClear h cls slot s
  | .keysClearDone cls slot => Sys2Proof.Machine.execKeysClearDone cls slot s
  | .keySlotBringIn slot => Sys2Proof.Machine.execKeySlotBringIn slot s
  | .dciphEncrypt unit arrived => Sys2Proof.Machine.execDciphEncrypt unit arrived s
  | .dciphDecrypt rd => Sys2Proof.Machine.execDciphDecrypt rd s
  | .gciphSeg h desc => Sys2Proof.Machine.execGciphSeg h desc s
  | .gciphLockWrite id core => Sys2Proof.Machine.execGciphLockWrite id core s
  | .gciphReleaseWrite id core => Sys2Proof.Machine.execGciphReleaseWrite id core s
  | .gciphForceRelease hart => Sys2Proof.Machine.execGciphForceRelease hart s
  | .leaseExpired => Sys2Proof.Machine.execLeaseExpired s
  | .tamperWarn sensor reading alarm => Sys2Proof.Machine.execTamperWarn sensor reading alarm s
  | .tamperAlarm sensor reading zeroTime => Sys2Proof.Machine.execTamperAlarm sensor reading zeroTime s
  | .volCreate h vol tenant domain keySlot size => Sys2Proof.Machine.execVolCreate h vol tenant domain keySlot size s
  | .volResize h vol size => Sys2Proof.Machine.execVolResize h vol size s
  | .volDelete h vol => Sys2Proof.Machine.execVolDelete h vol s
  | .tenantSet h tenant cap => Sys2Proof.Machine.execTenantSet h tenant cap s
  | .mapPageFetchDone mpa found => Sys2Proof.Machine.execMapPageFetchDone mpa found s
  | .mapPageWriteback mpa => Sys2Proof.Machine.execMapPageWriteback mpa s
  | .mouldCreate h vol mould => Sys2Proof.Machine.execMouldCreate h vol mould s
  | .mouldSealed mould => Sys2Proof.Machine.execMouldSealed mould s
  | .mouldCg h count list => Sys2Proof.Machine.execMouldCg h count list s
  | .mouldDelete h mould => Sys2Proof.Machine.execMouldDelete h mould s
  | .mouldDeleteDone mould => Sys2Proof.Machine.execMouldDeleteDone mould s
  | .mouldClone h mould vol view keySlot => Sys2Proof.Machine.execMouldClone h mould vol view keySlot s
  | .slipPair h vol role mode policy slotsLog2 assoc tgtVol land status bitmap => Sys2Proof.Machine.execSlipPair h vol role mode policy slotsLog2 assoc tgtVol land status bitmap s
  | .slipShip h vol base new => Sys2Proof.Machine.execSlipShip h vol base new s
  | .slipResume h vol assoc => Sys2Proof.Machine.execSlipResume h vol assoc s
  | .slipSetMould h vol mould => Sys2Proof.Machine.execSlipSetMould h vol mould s
  | .slipPromote h vol => Sys2Proof.Machine.execSlipPromote h vol s
  | .slipUnpair h vol => Sys2Proof.Machine.execSlipUnpair h vol s
  | .slipRecordSend vol => Sys2Proof.Machine.execSlipRecordSend vol s
  | .slipRecordArrive vol repSeq => Sys2Proof.Machine.execSlipRecordArrive vol repSeq s
  | .slipRecordApplied vol repSeq => Sys2Proof.Machine.execSlipRecordApplied vol repSeq s
  | .slipStatusReceive vol applied st reason => Sys2Proof.Machine.execSlipStatusReceive vol applied st reason s
  | .slipAckTimeout vol repSeq => Sys2Proof.Machine.execSlipAckTimeout vol repSeq s
  | .slipResyncPass vol => Sys2Proof.Machine.execSlipResyncPass vol s
  | .rowProgram run => Sys2Proof.Machine.execRowProgram run s
  | .rowFillTimeout run => Sys2Proof.Machine.execRowFillTimeout run s
  | .sagLogComplete seg row => Sys2Proof.Machine.execSagLogComplete seg row s
  | .programFailure seg row member => Sys2Proof.Machine.execProgramFailure seg row member s
  | .eraseFailure seg member => Sys2Proof.Machine.execEraseFailure seg member s
  | .codewordRead rd found => Sys2Proof.Machine.execCodewordRead rd found s
  | .patrolRead seg row member codeword tries => Sys2Proof.Machine.execPatrolRead seg row member codeword tries s
  | .ftlCheckpoint => Sys2Proof.Machine.execFtlCheckpoint s
  | .ftlCkpt h => Sys2Proof.Machine.execFtlCkpt h s
  | .ftlRetire h module b => Sys2Proof.Machine.execFtlRetire h module b s
  | .pugVictimSelect group => Sys2Proof.Machine.execPugVictimSelect group s
  | .pugUnitRead seg row grain found => Sys2Proof.Machine.execPugUnitRead seg row grain found s
  | .pugMoveVerify seg row bad => Sys2Proof.Machine.execPugMoveVerify seg row bad s
  | .pugMoveCommit seg row grain => Sys2Proof.Machine.execPugMoveCommit seg row grain s
  | .pugErase seg => Sys2Proof.Machine.execPugErase seg s
  | .segmentEraseDone seg => Sys2Proof.Machine.execSegmentEraseDone seg s
  | .pugScanDone seg => Sys2Proof.Machine.execPugScanDone seg s
  | .pugReclaim h seg => Sys2Proof.Machine.execPugReclaim h seg s
  | .pugHold h group hold => Sys2Proof.Machine.execPugHold h group hold s
  | .pugCkptWaitExpiry => Sys2Proof.Machine.execPugCkptWaitExpiry s
  | .parRepair rd arrived => Sys2Proof.Machine.execParRepair rd arrived s
  | .parGroupCreate h group spareMode spare members spares => Sys2Proof.Machine.execParGroupCreate h group spareMode spare members spares s
  | .parGroupDelete h group => Sys2Proof.Machine.execParGroupDelete h group s
  | .sagDump => Sys2Proof.Machine.execSagDump s
  | .sagDumpDone timeUs => Sys2Proof.Machine.execSagDumpDone timeUs s
  | .sagReplay h => Sys2Proof.Machine.execSagReplay h s
  | .memberDeclaredFailed module => Sys2Proof.Machine.execMemberDeclaredFailed module s
  | .offlineMaxExpiry module => Sys2Proof.Machine.execOfflineMaxExpiry module s
  | .rebuildSegment group => Sys2Proof.Machine.execRebuildSegment group s
  | .rbldFail h module => Sys2Proof.Machine.execRbldFail h module s
  | .rbldOffline h module => Sys2Proof.Machine.execRbldOffline h module s
  | .rbldOnline h module => Sys2Proof.Machine.execRbldOnline h module s
  | .rbldJoin h module group asSpare => Sys2Proof.Machine.execRbldJoin h module group asSpare s
  | .mlinkLinkEn module on => Sys2Proof.Machine.execMlinkLinkEn module on s
  | .mlinkRetrain module => Sys2Proof.Machine.execMlinkRetrain module s
  | .mlinkSignalLock module lanes => Sys2Proof.Machine.execMlinkSignalLock module lanes s
  | .mlinkAlignDone module width => Sys2Proof.Machine.execMlinkAlignDone module width s
  | .mlinkConfigReceive module version => Sys2Proof.Machine.execMlinkConfigReceive module version s
  | .mlinkFlitReceive module flit => Sys2Proof.Machine.execMlinkFlitReceive module flit s
  | .mlinkReplayTimeout module => Sys2Proof.Machine.execMlinkReplayTimeout module s
  | .mlinkCrcSilence module => Sys2Proof.Machine.execMlinkCrcSilence module s
  | .mlinkDataReceive module tag page data => Sys2Proof.Machine.execMlinkDataReceive module tag page data s
  | .mlinkCplReceive module tag status payload => Sys2Proof.Machine.execMlinkCplReceive module tag status payload s
  | .mlinkAttnReceive module reason => Sys2Proof.Machine.execMlinkAttnReceive module reason s
  | .mlinkOpTimeout module tag => Sys2Proof.Machine.execMlinkOpTimeout module tag s
  | .moduleRemoved module => Sys2Proof.Machine.execModuleRemoved module s
  | .moduleArrived module => Sys2Proof.Machine.execModuleArrived module s
  | .mlinkReserve h kind gen => Sys2Proof.Machine.execMlinkReserve h kind gen s
  | .mlinkFwWrite h offset length src => Sys2Proof.Machine.execMlinkFwWrite h offset length src s
  | .mlinkFwDigest h result => Sys2Proof.Machine.execMlinkFwDigest h result s
  | .mlinkFwActivate h => Sys2Proof.Machine.execMlinkFwActivate h s
  | .mlinkFwCommit h => Sys2Proof.Machine.execMlinkFwCommit h s
  | .mlinkFwRevert h => Sys2Proof.Machine.execMlinkFwRevert h s
  | .peerctlPair h assoc data ring log ctrl inbox => Sys2Proof.Machine.execPeerctlPair h assoc data ring log ctrl inbox s
  | .peerctlUnpair h => Sys2Proof.Machine.execPeerctlUnpair h s
  | .peerctlResync h => Sys2Proof.Machine.execPeerctlResync h s
  | .resyncCopyDone => Sys2Proof.Machine.execResyncCopyDone s
  | .peerctlTakeover h force arbiter membersOk => Sys2Proof.Machine.execPeerctlTakeover h force arbiter membersOk s
  | .peerctlHandover h group halves => Sys2Proof.Machine.execPeerctlHandover h group halves s
  | .handoverHoldTimeout => Sys2Proof.Machine.execHandoverHoldTimeout s
  | .peerctlHome h tenant group => Sys2Proof.Machine.execPeerctlHome h tenant group s
  | .heartbeatInterval => Sys2Proof.Machine.execHeartbeatInterval s
  | .heartbeat seq msgCons inboxCons commitSeq ckptSeq mirror groups arbiter mode => Sys2Proof.Machine.execHeartbeat seq msgCons inboxCons commitSeq ckptSeq mirror groups arbiter mode s
  | .peerHeartbeatTimeout => Sys2Proof.Machine.execPeerHeartbeatTimeout s
  | .cancel seq offset bytes => Sys2Proof.Machine.execCancel seq offset bytes s
  | .runReq seq runs => Sys2Proof.Machine.execRunReq seq runs s
  | .runGrant seq runs => Sys2Proof.Machine.execRunGrant seq runs s
  | .resyncDone seq commitSeq => Sys2Proof.Machine.execResyncDone seq commitSeq s
  | .handover seq group halves loc ckptSeq => Sys2Proof.Machine.execHandover seq group halves loc ckptSeq s
  | .handoverAck seq group => Sys2Proof.Machine.execHandoverAck seq group s
  | .mirrorRingReceive commitSeq records => Sys2Proof.Machine.execMirrorRingReceive commitSeq records s
  | .inboxBatchReceive seq records => Sys2Proof.Machine.execInboxBatchReceive seq records s
  | .mirrorAckTimeout ref => Sys2Proof.Machine.execMirrorAckTimeout ref s
  | .qosSet h tenant flags iopsRate iopsBurst bwRate bwBurst => Sys2Proof.Machine.execQosSet h tenant flags iopsRate iopsBurst bwRate bwBurst s
  | .qosHistSnap h tenant dst => Sys2Proof.Machine.execQosHistSnap h tenant dst s
  | .minuteClose => Sys2Proof.Machine.execMinuteClose s
  | .hbmSelfRefreshEnter stack => Sys2Proof.Machine.execHbmSelfRefreshEnter stack s
  | .hbmSelfRefreshExit stack => Sys2Proof.Machine.execHbmSelfRefreshExit stack s
  | .hbmSrEntered stack => Sys2Proof.Machine.execHbmSrEntered stack s
  | .hbmSrExited stack => Sys2Proof.Machine.execHbmSrExited stack s
  | .hbmScrub stack => Sys2Proof.Machine.execHbmScrub stack s
  | .syscRead addr len core ecc => Sys2Proof.Machine.execSyscRead addr len core ecc s
  | .syscWrite addr data core => Sys2Proof.Machine.execSyscWrite addr data core s
  | .syscFillDone way addr => Sys2Proof.Machine.execSyscFillDone way addr s
  | .mbDrain ecc => Sys2Proof.Machine.execMbDrain ecc s
  | .syscWayDisable way => Sys2Proof.Machine.execSyscWayDisable way s
  | .syscWayEnable way => Sys2Proof.Machine.execSyscWayEnable way s
  | .syscWayOff way => Sys2Proof.Machine.execSyscWayOff way s
  | .syscWayPowered way => Sys2Proof.Machine.execSyscWayPowered way s
  | .syscInval h addr length result => Sys2Proof.Machine.execSyscInval h addr length result s
  | .syscZero h addr length => Sys2Proof.Machine.execSyscZero h addr length s
  | .syscLockedFill h way addr length => Sys2Proof.Machine.execSyscLockedFill h way addr length s
  | .pwrSet h dom target => Sys2Proof.Machine.execPwrSet h dom target s
  | .domainDrained dom => Sys2Proof.Machine.execDomainDrained dom s
  | .drainTimerExpiry dom => Sys2Proof.Machine.execDrainTimerExpiry dom s
  | .domainEntryDone dom => Sys2Proof.Machine.execDomainEntryDone dom s
  | .domainWakeDone dom => Sys2Proof.Machine.execDomainWakeDone dom s
  | .pwrCold h => Sys2Proof.Machine.execPwrCold h s
  | .wakeNAssert => Sys2Proof.Machine.execWakeNAssert s
  | .wakeTimeReached => Sys2Proof.Machine.execWakeTimeReached s
  | .pwrBankGate value => Sys2Proof.Machine.execPwrBankGate value s
  | .chipDomainReset h dom => Sys2Proof.Machine.execChipDomainReset h dom s
  | .powerFailAssert => Sys2Proof.Machine.execPowerFailAssert s
  | .aonSwDataWrite half data => Sys2Proof.Machine.execAonSwDataWrite half data s
  | .svcRead m => Sys2Proof.Machine.execSvcRead m s
  | .svcWrite m => Sys2Proof.Machine.execSvcWrite m s
  | .svcRead64 m => Sys2Proof.Machine.execSvcRead64 m s
  | .svcWrite64 m => Sys2Proof.Machine.execSvcWrite64 m s
  | .svcHbmRead m => Sys2Proof.Machine.execSvcHbmRead m s
  | .svcHbmWrite m => Sys2Proof.Machine.execSvcHbmWrite m s
  | .updData m => Sys2Proof.Machine.execUpdData m s
  | .ping m => Sys2Proof.Machine.execPing m s
  | .svcFrameForward frame => Sys2Proof.Machine.execSvcFrameForward frame s
  | .i3cPrivateWrite msg => Sys2Proof.Machine.execI3cPrivateWrite msg s
  | .i3cPrivateRead => Sys2Proof.Machine.execI3cPrivateRead s
  | .setdasa addr => Sys2Proof.Machine.execSetdasa addr s
  | .entdaa addr => Sys2Proof.Machine.execEntdaa addr s
  | .rstdaa => Sys2Proof.Machine.execRstdaa s
  | .getpid => Sys2Proof.Machine.execGetpid s
  | .getbcr => Sys2Proof.Machine.execGetbcr s
  | .getdcr => Sys2Proof.Machine.execGetdcr s
  | .getstatus => Sys2Proof.Machine.execGetstatus s
  | .updVerify h => Sys2Proof.Machine.execUpdVerify h s
  | .updStage h gotLock flashOk => Sys2Proof.Machine.execUpdStage h gotLock flashOk s
  | .updBridges h mask => Sys2Proof.Machine.execUpdBridges h mask s
  | .updActivate h allowOwned => Sys2Proof.Machine.execUpdActivate h allowOwned s
  | .updConfirm h commitBridges => Sys2Proof.Machine.execUpdConfirm h commitBridges s
  | .updAbandon h => Sys2Proof.Machine.execUpdAbandon h s
  | .updClear h => Sys2Proof.Machine.execUpdClear h s
  | .updConfirmTimeout => Sys2Proof.Machine.execUpdConfirmTimeout s
  | .updKeyRevoke value => Sys2Proof.Machine.execUpdKeyRevoke value s
  | .porstNAssert => Sys2Proof.Machine.execPorstNAssert s
  | .porstNRelease env => Sys2Proof.Machine.execPorstNRelease env s
  | .powerGoodAssert env => Sys2Proof.Machine.execPowerGoodAssert env s
  | .startStageWrite value => Sys2Proof.Machine.execStartStageWrite value s
  | .warmRestart value env => Sys2Proof.Machine.execWarmRestart value env s
  | .watchdogKick => Sys2Proof.Machine.execWatchdogKick s
  | .watchdogRunEn on => Sys2Proof.Machine.execWatchdogRunEn on s
  | .watchdogTimeoutWrite value => Sys2Proof.Machine.execWatchdogTimeoutWrite value s
  | .watchdogExpiry => Sys2Proof.Machine.execWatchdogExpiry s
  | .jtagTrst => Sys2Proof.Machine.execJtagTrst s
  | .jtagInstruction ir => Sys2Proof.Machine.execJtagInstruction ir s

end Sys2Proof.Machine
end

