-- ==== Sys2Proof/Machine/Idle.lean ====
section
/-! DEFINITION. What the block does by itself when no command waits: the timebase advances by one reference period (R61), the ports check tags (R82), the switch
sends frames (R145), the rolling bridge handling goes on (R425), and PEERCTL and SLIP notice what
their associations did (R109, R349, R353). -/

namespace Sys2Proof.Machine

/-- The rate correction's fraction that makes one nanosecond: RATE_ADJ counts 1/1,024 ppb, of 10 ns. -/
def fracPerNs : Int := 102400000000

/-- One period of the 100 MHz reference: 10 ns, corrected by RATE_ADJ, and half of it while a negative step is absorbed (R61).
[DESIGN CHOICE: log entry 4, 106] -/
def State.timeTick (s : State) : State :=
  if s.plat.time.refOn then
    let f := s.plat.time.frac + toSigned 32 (s.reg rTIME_RATE_ADJ).toNat
    let d := (10 + f / fracPerNs).toNat
    let back := if s.plat.time.slewing then min (d / 2) s.plat.time.slewRemain else 0
    let left := s.plat.time.slewRemain - back
    { s with
      plat.time.frac := f % fracPerNs
      plat.time.now := min (2 ^ 64 - 1) (s.now + (d - back))
      plat.time.slewRemain := left
      plat.time.slewing := s.plat.time.slewing && decide (0 < left) }
  else s

/-- The peer association has left its open state: the peer is lost, for reason 2 (R349). -/
def State.peerAssocCheck (s : State) : State :=
  if s.peerState = psPaired ∧ (s.assoc s.peer.assoc).state ≠ .isOpen then s.peerLostNow 2 else s

/-- PEERCTL's own work. -/
def State.peerRun (s : State) : State :=
  if s.working pgPEERCTL then s.pollMirror.peerAssocCheck else s

/-- SLIP notices how its records ended at their targets (R109), and a target goes on (R239, R241). -/
def State.slipRun (s : State) : State :=
  if s.working pgSLIP then
    let s1 := s.pollSlipFail
    s1.slip.reps.foldl (fun t e => if e.2.role = 1 then t.slipPoll e.1 else if e.2.role = 2 then t.targetOn e.1 else t) s1
  else s

/-- The block with no command waiting.
[DESIGN CHOICE: log entry 4, 77] -/
def State.idle (s : State) : State := ((List.range 4).foldl (fun t q => (t.markLanes q).wedgeRun q) s.timeTick.checkHeld).peerRun.slipRun.egress.bridgeRun.stageRun.writebackRun.releaseRun

end Sys2Proof.Machine
end

