-- ==== Sys2Proof/WellFormed.lean ====
section
/-! DEFINITION. Well-formed commands: every operand lies within the width of the field that carries it. -/

namespace Sys2Proof

/-- `v` fits in `w` bits. -/
def fits (w v : Nat) : Bool := decide (v < 2 ^ w)

/-- A command entry's header (R55). -/
def CmdHdr.wf (h : CmdHdr) : Bool := fits 64 h.cseq && fits 8 h.inst

def EntryOp.wf (e : EntryOp) : Bool := fits 8 e.blkType && fits 16 e.opcode
def SentValue.wf (v : SentValue) : Bool := fits 64 v.value && v.engine.all (fits 16)
def ReadRun.wf (r : ReadRun) : Bool := fits 48 r.cmd && r.arrived.all (fun a => fits 64 a.1)
def SynFrom.wf (y : SynFrom) : Bool := fits 32 y.irs && y.tsval.all (fits 32) && y.mss.all (fits 16) && y.scale.all (fits 8) && fits 16 y.win
def SegBody.wf (b : SegBody) : Bool :=
  b.ts.all (fun p => fits 32 p.1 && fits 32 p.2) && fits 16 b.win && b.sack.all (fun p => fits 32 p.1 && fits 32 p.2)
def RowRun.wf (r : RowRun) : Bool := fits 32 r.seg && r.altered.all (fun a => fits 16 a.1 && decide (a.2.1 < 768))
def CodewordTry.wf (t : CodewordTry) : Bool :=
  t.arrived.all (fun a => decide (a.1 < 24) && decide (a.2.1 < 4) && a.2.2.length = 4112)

/-- The headers of an LDT packet (R72, R74): a payload is at most 8,192 bytes (R70). -/
def LdtPkt.wf (p : LdtPkt) : Bool :=
  fits 16 p.assoc && fits 32 p.psn && fits 32 p.txTs && fits 4 p.path && fits 32 p.msgId && fits 32 p.msgLen && fits 32 p.msgOffset
    && fits 32 p.target && fits 64 p.addr && fits 64 p.imm && decide (p.payload.length ≤ 8192)

/-- An ACK's payload (R75). -/
def AckInfo.wf (a : AckInfo) : Bool :=
  fits 32 a.cumAck && fits 128 a.sack && fits 32 a.echoTs && fits 16 a.ceCount && fits 16 a.rxCount

/-- A frame at a switch input: an endpoint, a class, a mask over the 21 endpoints, a 128-byte header at most, and the byte
count of its descriptor (R132, R135, R136). -/
def SwFrame.wf (f : SwFrame) : Bool :=
  decide (f.src < 21) && fits 3 f.cls && fits 21 f.mask && decide (f.hdr.length ≤ 128) && fits 32 f.len && fits 32 f.corr

/-- A service message's header fields (R412). -/
def SvcMsg.wf (m : SvcMsg) : Bool :=
  fits 16 m.magic && fits 8 m.version && fits 8 m.flags && fits 16 m.seq && fits 16 m.count && fits 64 m.addr

/-- What a start finds: a result for each of the three stacks. -/
def BootEnv.wf (e : BootEnv) : Bool := e.trains.length = 3

/-- A well-formed command.
[DESIGN CHOICE: log entry 88] -/
def Instr.wf : Instr → Bool
  | .registerWrite off size data => fits 64 off && fits 64 size && fits 64 data
  | .rcCounterRead off => fits 64 off
  | .blkIrqStatWrite page _ => fits 16 page
  | .blkIrqForce page _ => fits 16 page
  | .blockEnable page => fits 16 page
  | .blockDisable page => fits 16 page
  | .blockQuiesce page => fits 16 page
  | .blockResume page => fits 16 page
  | .quiesceComplete page => fits 16 page
  | .blockReset page => fits 16 page
  | .blockResetDone page => fits 16 page
  | .blockFault page _ _ => fits 16 page
  | .eseqConsWrite value => fits 64 value
  | .cseqProdWrite value => fits 64 value
  | .nop h entry => h.wf && entry.wf
  | .configCommit h blkType => h.wf && fits 8 blkType
  | .paceWindowEnd windowUs beats => fits 32 windowUs && beats.all (fits 32)
  | .crossingValueTransfer island crossing value samples => fits 8 island && fits 8 crossing && value.wf && samples.all (fits 32)
  | .crossingEventToggle island crossing => fits 8 island && fits 8 crossing
  | .crossingEventAck island crossing => fits 8 island && fits 8 crossing
  | .islandClockCapture island crossing => fits 8 island && fits 8 crossing
  | .xeTimeout island crossing => fits 8 island && fits 8 crossing
  | .clkStopWrite island => fits 8 island
  | .islandClockStop island => fits 8 island
  | .islandRefClockLoss island => fits 8 island
  | .pairReset island => fits 8 island
  | .pairResetRelease island => fits 8 island
  | .coreRunWrite cluster value => fits 8 cluster && fits 64 value
  | .memCfgWrite cluster ways => fits 8 cluster && fits 8 ways
  | .memCfgDone cluster => fits 8 cluster
  | .timeSet value => fits 64 value
  | .timeStep step => decide (-(2 ^ 63 : Int) ≤ step ∧ step < 2 ^ 63)
  | .slewDone => true
  | .timebaseRefLost => true
  | .txtsValueRead => true
  | .storeCommit => true
  | .storeSelectA => true
  | .storeSelectB => true
  | .storeCopyAToB => true
  | .storeCopyBToA => true
  | .storeDiscard => true
  | .storeOpDone verifyFail => verifyFail.all (fits 32)
  | .storeLock => true
  | .hportFrameReceive port _ => fits 8 port
  | .hsRx port srcIp srcUdp _ => fits 8 port && srcIp.length = 16 && fits 16 srcUdp
  | .ldtAckReceive assoc ack => fits 16 assoc && ack.wf
  | .ldtNakReceive p code info => p.wf && fits 8 code && fits 32 info
  | .ldtKeepaliveReceive p => p.wf
  | .ldtCloseReceive p => p.wf
  | .ldtWriteReceive p => p.wf
  | .ldtWriteNotifyReceive p => p.wf
  | .ldtSendReceive p => p.wf
  | .ldtReadReqReceive p => p.wf
  | .ldtReadRespReceive p => p.wf
  | .ldtCapsuleReceive p => p.wf
  | .ctxFetchDone ctx _ => fits 32 ctx
  | .ackDelayExpiry assoc => fits 16 assoc
  | .ldtPacketTransmit assoc => fits 16 assoc
  | .rtoExpiry assoc => fits 16 assoc
  | .pathUp assoc path => fits 16 assoc && fits 8 path
  | .keepaliveIntervalExpiry assoc => fits 16 assoc
  | .kaTimeoutExpiry assoc => fits 16 assoc
  | .rcIntervalEnd assoc => fits 16 assoc
  | .keyPhaseRetire assoc => fits 16 assoc
  | .assocOpen h assoc peerAssoc txPsn0 rxPsn0 port descr => h.wf && fits 16 assoc && fits 16 peerAssoc && fits 32 txPsn0 && fits 32 rxPsn0 && fits 8 port && fits 64 descr
  | .assocClose h assoc => h.wf && fits 16 assoc
  | .assocCloseSend assoc => fits 16 assoc
  | .assocRekey h assoc _ _ => h.wf && fits 16 assoc
  | .assocFree h assoc => h.wf && fits 16 assoc
  | .hsSend h port len addr remoteIp => h.wf && fits 8 port && fits 32 len && fits 64 addr && remoteIp.length = 16
  | .ctxPin h ctx => h.wf && fits 32 ctx
  | .ctxUnpin h ctx => h.wf && fits 32 ctx
  | .ctxWriteback h ctx => h.wf && fits 32 ctx
  | .rgnRegister h index assoc perm notifyTgt base length => h.wf && fits 32 index && fits 16 assoc && fits 8 perm && fits 8 notifyTgt && fits 64 base && fits 64 length
  | .rgnRevoke h index gen => h.wf && fits 32 index && fits 8 gen
  | .regionRevokeDone index => fits 32 index
  | .nvmeAdmit => true
  | .heldCommandRelease tenant => fits 16 tenant
  | .nvmeFlush cmd => fits 48 cmd
  | .nvmeWrite cmd => fits 48 cmd
  | .nvmeRead run => run.wf
  | .nvmeCompare cmd => fits 48 cmd
  | .nvmeWriteZeroes cmd => fits 48 cmd
  | .nvmeDatasetManagement cmd => fits 48 cmd
  | .nvmeVerify cmd => fits 48 cmd
  | .nvmeSoftwareHandoff cmd => fits 48 cmd
  | .writeDurable cmd => fits 48 cmd
  | .queueCreate h ctx assoc tenant qid cls flags cntlid size => h.wf && fits 32 ctx && fits 16 assoc && fits 16 tenant && fits 16 qid && fits 8 cls && fits 32 flags && fits 16 cntlid && fits 64 size
  | .queueDelete h ctx => h.wf && fits 32 ctx
  | .nsSet h nsid _ => h.wf && fits 32 nsid
  | .complete h ctx cid status dw0 dw1 assoc => h.wf && fits 32 ctx && fits 16 cid && fits 16 status && fits 32 dw0 && fits 32 dw1 && fits 16 assoc
  | .abort h ctx cid => h.wf && fits 32 ctx && fits 16 cid
  | .nvtcpSyn port remoteIp localIp remotePort syn iss => fits 8 port && remoteIp.length = 16 && localIp.length = 16 && fits 16 remotePort && syn.wf && fits 32 iss
  | .nvtcpSegmentReceive conn seq ack _ _ _ body => fits 32 conn && fits 32 seq && fits 32 ack && body.wf
  | .nvtcpIcreq conn => fits 32 conn
  | .nvtcpCapsuleCmd conn => fits 32 conn
  | .nvtcpH2cData conn => fits 32 conn
  | .nvtcpH2cTermReq conn => fits 32 conn
  | .nvtcpRtoExpiry conn => fits 32 conn
  | .swFrameInput f => f.wf
  | .mcHoldTimeout cmd dest => fits 48 cmd && fits 8 dest
  | .peerMemberDown member => fits 8 member
  | .plinkLinkUp member => fits 8 member
  | .markFingerprint unit _ _ => fits 64 unit
  | .markKeyDerive h slot alg keySlot => h.wf && fits 32 slot && fits 8 alg && fits 32 keySlot
  | .markKeyClear h slot => h.wf && fits 32 slot
  | .markKeyClearDone slot => fits 32 slot
  | .markDigest h flags slot src length result _ => h.wf && fits 32 flags && fits 32 slot && fits 64 src && fits 64 length && fits 64 result
  | .markPioStart quad => fits 8 quad
  | .markPioData quad size data _ => fits 8 quad && fits 64 size && fits 64 data
  | .markPioLast quad size data => fits 8 quad && fits 64 size && fits 64 data
  | .markPioDone quad => fits 8 quad
  | .markKeyRefillDone quad => fits 8 quad
  | .grogLookup unit => fits 64 unit
  | .grogPendingResolve unit => fits 64 unit
  | .grogProbeDone unit _ => fits 64 unit
  | .grogConfirm unit => fits 64 unit
  | .grogVerifyDone unit => fits 64 unit
  | .grogMerge _ => true
  | .grogDomainSet h dom tenant mode verify => h.wf && fits 16 dom && fits 16 tenant && fits 8 mode && fits 8 verify
  | .grogDomainPurge h dom => h.wf && fits 16 dom
  | .grogPurgeDone dom => fits 16 dom
  | .grogReconcile h => h.wf
  | .grogReconcileDone => true
  | .grogIndexRebuild h base => h.wf && fits 64 base
  | .grogIndexRebuildDone base => fits 64 base
  | .wedgeCompress unit _ => fits 64 unit
  | .wedgeVerify unit => fits 64 unit
  | .wedgeDecode rd => fits 64 rd
  | .wedgeJob h desc _ => h.wf && fits 64 desc
  | .keysLoad h cls form kek type slot src len flags tenant => h.wf && fits 8 cls && fits 8 form && fits 32 kek && fits 8 type && fits 32 slot && fits 64 src && fits 32 len && fits 32 flags && fits 16 tenant
  | .keysClear h cls slot => h.wf && fits 8 cls && fits 32 slot
  | .keysClearDone cls slot => fits 8 cls && fits 32 slot
  | .keySlotBringIn slot => fits 32 slot
  | .dciphEncrypt unit _ => fits 64 unit
  | .dciphDecrypt rd => fits 64 rd
  | .gciphSeg h desc => h.wf && fits 64 desc
  | .gciphLockWrite id _ => fits 8 id
  | .gciphReleaseWrite id _ => fits 8 id
  | .gciphForceRelease hart => hart.all (fits 16)
  | .leaseExpired => true
  | .tamperWarn sensor reading _ => fits 8 sensor && fits 32 reading
  | .tamperAlarm sensor reading zeroTime => fits 8 sensor && fits 32 reading && fits 32 zeroTime
  | .volCreate h vol tenant domain keySlot size => h.wf && fits 32 vol && fits 16 tenant && fits 16 domain && fits 32 keySlot && fits 64 size
  | .volResize h vol size => h.wf && fits 32 vol && fits 64 size
  | .volDelete h vol => h.wf && fits 32 vol
  | .tenantSet h tenant cap => h.wf && fits 16 tenant && fits 64 cap
  | .mapPageFetchDone mpa found => fits 64 mpa && found.wf
  | .mapPageWriteback mpa => fits 64 mpa
  | .mouldCreate h vol mould => h.wf && fits 32 vol && fits 32 mould
  | .mouldSealed mould => fits 32 mould
  | .mouldCg h count list => h.wf && fits 32 count && fits 64 list
  | .mouldDelete h mould => h.wf && fits 32 mould
  | .mouldDeleteDone mould => fits 32 mould
  | .mouldClone h mould vol view keySlot => h.wf && fits 32 mould && fits 32 vol && fits 8 view && fits 32 keySlot
  | .slipPair h vol role mode policy slotsLog2 assoc tgtVol land status bitmap => h.wf && fits 32 vol && fits 8 role && fits 8 mode && fits 8 policy && fits 8 slotsLog2 && fits 16 assoc && fits 32 tgtVol && fits 64 land && fits 16 status && fits 64 bitmap
  | .slipShip h vol base new => h.wf && fits 32 vol && fits 64 base && fits 32 new
  | .slipResume h vol assoc => h.wf && fits 32 vol && fits 16 assoc
  | .slipSetMould h vol mould => h.wf && fits 32 vol && fits 32 mould
  | .slipPromote h vol => h.wf && fits 32 vol
  | .slipUnpair h vol => h.wf && fits 32 vol
  | .slipRecordSend vol => fits 32 vol
  | .slipRecordArrive vol repSeq => fits 32 vol && fits 64 repSeq
  | .slipRecordApplied vol repSeq => fits 32 vol && fits 64 repSeq
  | .slipStatusReceive vol applied st reason => fits 32 vol && fits 64 applied && fits 8 st && fits 8 reason
  | .slipAckTimeout vol repSeq => fits 32 vol && fits 64 repSeq
  | .slipResyncPass vol => fits 32 vol
  | .rowProgram run => run.wf
  | .rowFillTimeout run => run.wf
  | .sagLogComplete seg row => fits 32 seg && fits 16 row
  | .programFailure seg row member => fits 32 seg && fits 16 row && fits 8 member
  | .eraseFailure seg member => fits 32 seg && fits 8 member
  | .codewordRead rd found => fits 64 rd && found.wf
  | .patrolRead seg row member codeword _ => fits 32 seg && fits 16 row && fits 8 member && fits 16 codeword
  | .ftlCheckpoint => true
  | .ftlCkpt h => h.wf
  | .ftlRetire h module b => h.wf && fits 8 module && fits 32 b
  | .pugVictimSelect group => fits 8 group
  | .pugUnitRead seg row grain found => fits 32 seg && fits 16 row && fits 16 grain && found.wf
  | .pugMoveVerify seg row bad => fits 32 seg && fits 16 row && bad.all (fun m => decide (m < 24))
  | .pugMoveCommit seg row grain => fits 32 seg && fits 16 row && fits 16 grain
  | .pugErase seg => fits 32 seg
  | .segmentEraseDone seg => fits 32 seg
  | .pugScanDone seg => fits 32 seg
  | .pugReclaim h seg => h.wf && fits 32 seg
  | .pugHold h group hold => h.wf && fits 8 group && fits 8 hold
  | .pugCkptWaitExpiry => true
  | .parRepair rd arrived => fits 64 rd && arrived.all (fun a => decide (a.1 < 24) && decide (a.2.1 < 4) && a.2.2.length = 4112)
  | .parGroupCreate h group spareMode spare members spares => h.wf && fits 8 group && fits 8 spareMode && fits 16 spare && fits 32 members && fits 32 spares
  | .parGroupDelete h group => h.wf && fits 8 group
  | .sagDump => true
  | .sagDumpDone timeUs => fits 32 timeUs
  | .sagReplay h => h.wf
  | .memberDeclaredFailed module => fits 8 module
  | .offlineMaxExpiry module => fits 8 module
  | .rebuildSegment group => fits 8 group
  | .rbldFail h module => h.wf && fits 8 module
  | .rbldOffline h module => h.wf && fits 8 module
  | .rbldOnline h module => h.wf && fits 8 module
  | .rbldJoin h module group asSpare => h.wf && fits 8 module && fits 8 group && fits 8 asSpare
  | .mlinkLinkEn module _ => fits 8 module
  | .mlinkRetrain module => fits 8 module
  | .mlinkSignalLock module lanes => fits 8 module && fits 8 lanes
  | .mlinkAlignDone module width => fits 8 module && fits 8 width
  | .mlinkConfigReceive module version => fits 8 module && fits 16 version
  | .mlinkFlitReceive module flit => fits 8 module && flit.length = 256
  | .mlinkReplayTimeout module => fits 8 module
  | .mlinkCrcSilence module => fits 8 module
  | .mlinkDataReceive module tag page _ => fits 8 module && fits 16 tag && fits 16 page
  | .mlinkCplReceive module tag status _ => fits 8 module && fits 16 tag && fits 16 status
  | .mlinkAttnReceive module reason => fits 8 module && fits 8 reason
  | .mlinkOpTimeout module tag => fits 8 module && fits 16 tag
  | .moduleRemoved module => fits 8 module
  | .moduleArrived module => fits 8 module
  | .mlinkReserve h kind gen => h.wf && fits 8 kind && fits 8 gen
  | .mlinkFwWrite h offset length src => h.wf && fits 64 offset && fits 64 length && fits 64 src
  | .mlinkFwDigest h result => h.wf && fits 64 result
  | .mlinkFwActivate h => h.wf
  | .mlinkFwCommit h => h.wf
  | .mlinkFwRevert h => h.wf
  | .peerctlPair h assoc data ring log ctrl inbox => h.wf && fits 16 assoc && fits 64 data && fits 64 ring && fits 64 log && fits 64 ctrl && fits 64 inbox
  | .peerctlUnpair h => h.wf
  | .peerctlResync h => h.wf
  | .resyncCopyDone => true
  | .peerctlTakeover h _ arbiter _ => h.wf && fits 8 arbiter
  | .peerctlHandover h group halves => h.wf && fits 8 group && fits 32 halves
  | .handoverHoldTimeout => true
  | .peerctlHome h tenant group => h.wf && fits 16 tenant && fits 8 group
  | .heartbeatInterval => true
  | .heartbeat seq msgCons inboxCons commitSeq ckptSeq mirror groups arbiter mode => fits 64 seq && fits 64 msgCons && fits 64 inboxCons && fits 64 commitSeq && fits 64 ckptSeq && fits 8 mirror && fits 8 groups && fits 8 arbiter && fits 8 mode
  | .peerHeartbeatTimeout => true
  | .cancel seq offset bytes => fits 64 seq && fits 64 offset && fits 32 bytes
  | .runReq seq runs => fits 64 seq && fits 32 runs
  | .runGrant seq runs => fits 64 seq && runs.all (fits 32)
  | .resyncDone seq commitSeq => fits 64 seq && fits 64 commitSeq
  | .handover seq group halves loc ckptSeq => fits 64 seq && fits 8 group && fits 32 halves && fits 64 loc && fits 64 ckptSeq
  | .handoverAck seq group => fits 64 seq && fits 8 group
  | .mirrorRingReceive commitSeq _ => fits 64 commitSeq
  | .inboxBatchReceive seq _ => fits 64 seq
  | .mirrorAckTimeout ref => fits 64 ref
  | .qosSet h tenant flags iopsRate iopsBurst bwRate bwBurst => h.wf && fits 16 tenant && fits 32 flags && fits 32 iopsRate && fits 32 iopsBurst && fits 32 bwRate && fits 32 bwBurst
  | .qosHistSnap h tenant dst => h.wf && fits 16 tenant && fits 64 dst
  | .minuteClose => true
  | .hbmSelfRefreshEnter stack => fits 8 stack
  | .hbmSelfRefreshExit stack => fits 8 stack
  | .hbmSrEntered stack => fits 8 stack
  | .hbmSrExited stack => fits 8 stack
  | .hbmScrub stack => fits 8 stack
  | .syscRead addr len _ ecc => fits 64 addr && fits 32 len && fits 8 ecc
  | .syscWrite addr _ _ => fits 64 addr
  | .syscFillDone way addr => fits 8 way && fits 64 addr
  | .mbDrain _ => true
  | .syscWayDisable way => fits 8 way
  | .syscWayEnable way => fits 8 way
  | .syscWayOff way => fits 8 way
  | .syscWayPowered way => fits 8 way
  | .syscInval h addr length result => h.wf && fits 64 addr && fits 64 length && fits 64 result
  | .syscZero h addr length => h.wf && fits 64 addr && fits 64 length
  | .syscLockedFill h way addr length => h.wf && fits 8 way && fits 64 addr && fits 64 length
  | .pwrSet h dom target => h.wf && fits 16 dom && fits 8 target
  | .domainDrained dom => fits 16 dom
  | .drainTimerExpiry dom => fits 16 dom
  | .domainEntryDone dom => fits 16 dom
  | .domainWakeDone dom => fits 16 dom
  | .pwrCold h => h.wf
  | .wakeNAssert => true
  | .wakeTimeReached => true
  | .pwrBankGate value => fits 64 value
  | .chipDomainReset h dom => h.wf && fits 16 dom
  | .powerFailAssert => true
  | .aonSwDataWrite half data => fits 2 half && fits 64 data
  | .svcRead m => m.wf
  | .svcWrite m => m.wf
  | .svcRead64 m => m.wf
  | .svcWrite64 m => m.wf
  | .svcHbmRead m => m.wf
  | .svcHbmWrite m => m.wf
  | .updData m => m.wf
  | .ping m => m.wf
  | .svcFrameForward _ => true
  | .i3cPrivateWrite _ => true
  | .i3cPrivateRead => true
  | .setdasa addr => fits 64 addr
  | .entdaa addr => fits 64 addr
  | .rstdaa => true
  | .getpid => true
  | .getbcr => true
  | .getdcr => true
  | .getstatus => true
  | .updVerify h => h.wf
  | .updStage h _ _ => h.wf
  | .updBridges h mask => h.wf && fits 32 mask
  | .updActivate h _ => h.wf
  | .updConfirm h _ => h.wf
  | .updAbandon h => h.wf
  | .updClear h => h.wf
  | .updConfirmTimeout => true
  | .updKeyRevoke value => fits 64 value
  | .porstNAssert => true
  | .porstNRelease env => env.wf
  | .powerGoodAssert env => env.wf
  | .startStageWrite value => fits 64 value
  | .warmRestart value env => fits 64 value && env.wf
  | .watchdogKick => true
  | .watchdogRunEn _ => true
  | .watchdogTimeoutWrite value => fits 64 value
  | .watchdogExpiry => true
  | .jtagTrst => true
  | .jtagInstruction ir => fits 32 ir

end Sys2Proof
end

