-- ==== Sys2Proof/Safety.lean ====
section
/-! DEFINITION. The terms in which claims speak: when a command of the ring is taken, how it ends, when a register write reaches its page, and the
invariants of the state. -/

namespace Sys2Proof.Machine

/-! ### Commands of the ring (R55, R59, R60, R465) -/

/-- The controller takes `h` next, `p` is the first page that it names, and the block there is in a state that takes the command. -/
abbrev Ready (s : State) (h : CmdHdr) (blk p : Nat) (cls : CmdClass) : Prop :=
  s.canTake h = true ∧ h.cseq = s.plat.evt.cseqCons + 1 ∧ (targetPages blk h.inst).head? = some p ∧ cls.taken (s.page p).st = true

/-- The command completes with a status. -/
def State.ends (s : State) (p : Nat) (h : CmdHdr) (status : Nat) : State := s.finish p h.cseq h.notify h.cookie 0 status

/-- The command goes on running, with what its later events need. -/
def State.keeps (s : State) (p opcode : Nat) (h : CmdHdr) (args : List Nat) : State :=
  { s with plat.evt.running := s.plat.evt.running.ins h.cseq ⟨p, opcode, h.notify, h.cookie, args⟩ }

/-- A command of the ring: its entry's header, the block and the class of command that it is, and what goes on after it, whatever its end. -/
structure RingCmd where
  h : CmdHdr
  blk : Nat
  cls : CmdClass
  after : State → State

/-- The commands of the ring; a NOP entry whose OPCODE is another command's is none. A GCIPH_SEG that goes on with a message is one that only ends work already taken (R465). -/
def State.ringCmd (s : State) : Instr → Option RingCmd
  | .nop h e => if e.opcode ≠ 0 ∧ opcodeKnown e.blkType e.opcode = true then none
    else some ⟨h, e.blkType, if e.opcode < 0x0100 then .nop else .work, id⟩
  | .configCommit h b => some ⟨h, b, .commit, id⟩
  | .assocOpen h _ _ _ _ _ _ => some ⟨h, pgLDT, .work, id⟩
  | .assocClose h _ => some ⟨h, pgLDT, .release, id⟩
  | .assocRekey h _ _ _ => some ⟨h, pgLDT, .work, id⟩
  | .assocFree h _ => some ⟨h, pgLDT, .release, id⟩
  | .hsSend h _ _ _ _ => some ⟨h, pgLDT, .work, id⟩
  | .ctxPin h _ => some ⟨h, pgCTX, .work, id⟩
  | .ctxUnpin h _ => some ⟨h, pgCTX, .release, id⟩
  | .ctxWriteback h _ => some ⟨h, pgCTX, .release, id⟩
  | .rgnRegister h _ _ _ _ _ _ => some ⟨h, pgRGN, .work, id⟩
  | .rgnRevoke h _ _ => some ⟨h, pgRGN, .release, id⟩
  | .queueCreate h _ _ _ _ _ _ _ _ => some ⟨h, pgNVF, .work, id⟩
  | .queueDelete h _ => some ⟨h, pgNVF, .release, id⟩
  | .nsSet h _ _ => some ⟨h, pgNVF, .work, id⟩
  | .complete h _ _ _ _ _ _ => some ⟨h, pgNVF, .release, id⟩
  | .abort h _ _ => some ⟨h, pgNVF, .release, id⟩
  | .markKeyDerive h _ _ _ => some ⟨h, pgMARK, .work, id⟩
  | .markKeyClear h _ => some ⟨h, pgMARK, .release, id⟩
  | .markDigest h _ _ _ _ _ _ => some ⟨h, pgMARK, .work, id⟩
  | .grogDomainSet h _ _ _ _ => some ⟨h, pgGROG, .work, id⟩
  | .grogDomainPurge h _ => some ⟨h, pgGROG, .work, id⟩
  | .grogReconcile h => some ⟨h, pgGROG, .work, id⟩
  | .grogIndexRebuild h _ => some ⟨h, pgGROG, .work, id⟩
  | .wedgeJob h _ _ => some ⟨{ h with inst := if 4 ≤ h.inst then 0xFF else h.inst }, pgWEDGE, .work, id⟩
  | .keysLoad h _ _ _ _ _ _ _ _ _ => some ⟨h, pgKEYS, .work, id⟩
  | .keysClear h _ _ => some ⟨h, pgKEYS, .release, id⟩
  | .gciphSeg h desc => some ⟨h, pgGCIPH, (s.gcClass desc), id⟩
  | .volCreate h _ _ _ _ _ => some ⟨h, pgLMAP, .work, id⟩
  | .volResize h _ _ => some ⟨h, pgLMAP, .work, id⟩
  | .volDelete h _ => some ⟨h, pgLMAP, .work, id⟩
  | .tenantSet h _ _ => some ⟨h, pgLMAP, .work, id⟩
  | .mouldCreate h _ _ => some ⟨h, pgMOULD, .work, id⟩
  | .mouldCg h _ _ => some ⟨h, pgMOULD, .work, id⟩
  | .mouldDelete h _ => some ⟨h, pgMOULD, .work, id⟩
  | .mouldClone h _ _ _ _ => some ⟨h, pgMOULD, .work, id⟩
  | .slipPair h _ _ _ _ _ _ _ _ _ _ => some ⟨h, pgSLIP, .work, id⟩
  | .slipShip h _ _ _ => some ⟨h, pgSLIP, .work, id⟩
  | .slipResume h _ _ => some ⟨h, pgSLIP, .work, id⟩
  | .slipSetMould h _ _ => some ⟨h, pgSLIP, .work, id⟩
  | .slipPromote h vol => some ⟨h, pgSLIP, .work, (fun t => (t.promotePump vol).statusPump vol)⟩
  | .slipUnpair h _ => some ⟨h, pgSLIP, .work, id⟩
  | .ftlCkpt h => some ⟨h, pgFTL, .work, id⟩
  | .ftlRetire h _ _ => some ⟨h, pgFTL, .work, id⟩
  | .pugReclaim h _ => some ⟨h, pgPUG, .work, id⟩
  | .pugHold h _ _ => some ⟨h, pgPUG, .release, id⟩
  | .parGroupCreate h _ _ _ _ _ => some ⟨h, pgPAR, .work, id⟩
  | .parGroupDelete h _ => some ⟨h, pgPAR, .work, id⟩
  | .sagReplay h => some ⟨h, pgSAG, .work, State.replayPump⟩
  | .rbldFail h _ => some ⟨h, pgRBLD, .work, id⟩
  | .rbldOffline h _ => some ⟨h, pgRBLD, .work, State.offlinePump⟩
  | .rbldOnline h _ => some ⟨h, pgRBLD, .work, id⟩
  | .rbldJoin h _ _ _ => some ⟨h, pgRBLD, .work, id⟩
  | .mlinkReserve h _ _ => some ⟨h, (pgMLINK 0), .work, State.bridgeRun⟩
  | .mlinkFwWrite h _ _ _ => some ⟨h, (pgMLINK 0), .work, State.bridgeRun⟩
  | .mlinkFwDigest h _ => some ⟨h, (pgMLINK 0), .work, State.bridgeRun⟩
  | .mlinkFwActivate h => some ⟨h, (pgMLINK 0), .work, State.bridgeRun⟩
  | .mlinkFwCommit h => some ⟨h, (pgMLINK 0), .work, State.bridgeRun⟩
  | .mlinkFwRevert h => some ⟨h, (pgMLINK 0), .work, State.bridgeRun⟩
  | .peerctlPair h _ _ _ _ _ _ => some ⟨h, pgPEERCTL, .work, id⟩
  | .peerctlUnpair h => some ⟨h, pgPEERCTL, .work, id⟩
  | .peerctlResync h => some ⟨h, pgPEERCTL, .work, id⟩
  | .peerctlTakeover h _ _ _ => some ⟨h, pgPEERCTL, .work, id⟩
  | .peerctlHandover h _ _ => some ⟨h, pgPEERCTL, .work, id⟩
  | .peerctlHome h _ _ => some ⟨h, pgPEERCTL, .work, id⟩
  | .qosSet h _ _ _ _ _ _ => some ⟨h, pgQOS, .work, id⟩
  | .qosHistSnap h _ _ => some ⟨h, pgQOS, .work, id⟩
  | .syscInval h _ _ _ => some ⟨h, pgSYSC, .work, State.syscRun⟩
  | .syscZero h _ _ => some ⟨h, pgSYSC, .work, State.syscRun⟩
  | .syscLockedFill h _ _ _ => some ⟨h, pgSYSC, .work, State.syscRun⟩
  | .pwrSet h _ _ => some ⟨h, pgPWR, .work, id⟩
  | .pwrCold h => some ⟨h, pgPWR, .work, id⟩
  | .chipDomainReset h _ => some ⟨h, pgCHIP, .work, id⟩
  | .updVerify h => some ⟨h, pgUPD, .work, id⟩
  | .updStage h _ _ => some ⟨h, pgUPD, .work, id⟩
  | .updBridges h _ => some ⟨h, pgUPD, .work, State.bridgeRun⟩
  | .updActivate h _ => some ⟨h, pgUPD, .work, id⟩
  | .updConfirm h _ => some ⟨h, pgUPD, .work, id⟩
  | .updAbandon h => some ⟨h, pgUPD, .work, State.bridgeRun⟩
  | .updClear h => some ⟨h, pgUPD, .work, id⟩
  | _ => none

/-- A write reaches the registers of a page: its power is on and it is neither in Fault nor Off (R10, R45, R48). -/
abbrev Reaches (s : State) (p : Nat) : Prop := s.pageOn p = true ∧ s.blk p ≠ .fault ∧ s.blk p ≠ .off

/-! ### Warm restart (R439) -/

/-- A restart that is asked for still waits: for the dump, or for a store operation. -/
def State.restartWaits (s : State) : Bool := s.dumpWanted || s.back.dumping.isSome || s.plat.store.busy.isSome

/-- The restart is carried out: the merging buffer empties, every command ends, and the chip starts with its cause. -/
def State.restartsNow (s : State) (cause : Nat) : State :=
  (State.mbFlush (s.mem.mb.length + s.mem.held.length + 1) s.allCommandsStop).start .warm cause 0

/-! ### Messages of the peer (R349, R365) -/

/-- The peer's next message: the heads are not Unpaired, PEERCTL works, and the message's slot can be read. -/
abbrev InOrder (s : State) (q : Nat) : Prop :=
  s.peerState ≠ psUnpaired ∧ s.msgTurn q = true ∧ s.working pgPEERCTL = true ∧ s.hbmErr (s.peerRegion 3 + 64 * (q % 1024)) 64 = false

/-- The slot of the peer's next message cannot be read. -/
abbrev BadSlot (s : State) (q : Nat) : Prop :=
  s.peerState ≠ psUnpaired ∧ s.msgTurn q = true ∧ s.working pgPEERCTL = true ∧ s.hbmErr (s.peerRegion 3 + 64 * (q % 1024)) 64 = true

/-- A message that is not the next one, or that no PEERCTL takes. -/
abbrev OutOfTurn (s : State) (q : Nat) : Prop := s.peerState = psUnpaired ∨ s.msgTurn q = false ∨ s.working pgPEERCTL = false

/-- A message that cannot be read is dropped and reported: PEERCTL's capture and flag 3 (R365). -/
def State.lostMsg (s : State) (q : Nat) : State :=
  (((({ s with peer.msgRecv := q } : State).noteErr (s.peerRegion 3 + 64 * (q % 1024)) 64).capture pgPEERCTL 0x03 q (q / 2 ^ 32)).irqBit pgPEERCTL 3)

/-- A message is taken. -/
def State.tookMsg (s : State) (q : Nat) : State := ({ s with peer.msgRecv := q } : State).bump fPEERCTL_MSG_RECV

/-! ### Messages of the service port (R413-R416) -/

/-- A message that is executed now: well formed, not answered before under its SEQ and OP, and allowed. -/
abbrev Served (s : State) (op : Nat) (m : SvcMsg) : Prop :=
  svcGood op m = true ∧ s.svcKept op (m.seq % 65536) = none ∧ s.svcAllows op = true

/-- The answer goes out and is kept. -/
def State.replies (s : State) (op : Nat) (m : SvcMsg) (status n : Nat) (data : List Byte) : State :=
  (({ s with svc.recent := ((m.seq % 65536, op, svcResponse op m status n data) :: s.svc.recent).take 32 } : State).bump fSVC_TX_MSG).emit
    (.bytes (svcResponse op m status n data))

/-- The answer with status OK goes out and is kept. -/
def State.answers (s : State) (op : Nat) (m : SvcMsg) (n : Nat) (data : List Byte) : State :=
  (({ s with svc.recent := ((m.seq % 65536, op, svcResponse op m svOk n data) :: s.svc.recent).take 32 } : State).bump fSVC_TX_MSG).emit
    (.bytes (svcResponse op m svOk n data))

/-! ### Mark and the key stores (R156, R206) -/

/-- A message of programmed I/O that takes `bytes`, and says at its end that it ends. -/
def State.pioTakes (s : State) (q : Nat) (m : MarkPio) (bytes : List Byte) (last : Bool) : State :=
  (s.setMarkQuad q { s.markQuad q with pio := some { m with data := m.data ++ bytes, ended := last } }).setReg64 (rMARK_PIO_COUNT q) (m.data.length + bytes.length)

/-- The source of a plaintext key is overwritten with zeroes. -/
def State.srcZero (s : State) (form src len : Nat) : State := if form = 1 then s.hbmWrite src (zeros len) else s

/-! ### Invariants -/

/-- The canonical form of HBM: addresses rise strictly, and no listed byte equals what an unlisted address reads as. -/
def Memory.wf (m : Tab Byte) : Bool := Tab.risingFrom 0 m && Tab.noDefault (fun _ => (0 : Byte)) m

/-- The timebase (R61): 64 bits; SLEWING holds exactly while a negative step is not yet absorbed; at most 64 transmit timestamps wait. -/
abbrev TimeInv (s : State) : Prop :=
  s.plat.time.now < 2 ^ 64 ∧ s.plat.time.slewing = decide (0 < s.plat.time.slewRemain) ∧ s.plat.time.txts.length ≤ 64

/-- The invariant of every step: the timebase's, and HBM in its canonical form. -/
abbrev BlockInv (s : State) : Prop := TimeInv s ∧ Memory.wf s.mem.cells = true

end Sys2Proof.Machine
end

