-- ==== Sys2Proof/Certificates/Slice0/Obligations.lean ====
section
/-! DEFINITION. The statements about the block, by family of commands. A statement whose docstring names a log entry rests on that entry's choice. Log entries 1, 4 to 9, 15, 16, 87 and 88 say how the rows and the state are read, and hold for every statement. -/

open Sys2Proof Sys2Proof.Machine

/-! ### The queue and the step -/

/-- A step with a command at the front of the queue is that command's meaning on the state with the queue's rest. -/
def Obligations.StepRunsFront : Prop :=
  ∀ (c : Instr) (s : State), step { s with pending := c :: s.pending } = exec c s

/-- No command stops the machine: each answers a next state, whatever the state. -/
def Obligations.EveryCommandRuns : Prop :=
  ∀ (c : Instr) (s : State), ∃ t, exec c s = .next t

/-- State.reset (log entries 1, 2 and 3): every register word at its table's reset value, every block Idle with its interrupt words
0, HBM reading 0, no command waiting or running, the timebase at 0. Where the spec leaves a point open it follows the model's choice in log entry 77. -/
def Obligations.ResetState : Prop :=
  (∀ a, State.reset.reg a = resetWord a) ∧
  (∀ p, (State.reset.page p).st = .idle ∧ (State.reset.page p).enable = false ∧ (State.reset.page p).irqStat = 0) ∧
  (∀ a, State.reset.hbmByte a = 0) ∧
  State.reset.pending = [] ∧ State.reset.plat.evt.running = [] ∧ State.reset.now = 0 ∧
  State.reset.reg rEVT_CTRL = BitVec.ofNat 32 (10 * 2 ^ 16 + 16 * 2 ^ 8) ∧
  State.reset.fld fPACE_CTRL_CONE = 4 ∧ State.reset.fld fTIME_RATE_ADJ = 0

/-! ### Commands of the ring (R55-R60) -/

/-- The completion of a command without NOTIFY (R55, R59): with every earlier command complete CSEQ_DONE covers it, it leaves the running commands, and of
all registers and of HBM only C_DONE's interrupt bit and its entry's result word are written; with an earlier one open CSEQ_DONE stays. A sequence
that does not run is not completed. A CSEQ that is not the expected one stops the taking of commands, which are not taken (R60). The doorbells (R56,
R60): a CSEQ_PROD from its current value to CSEQ_DONE and the ring's size publishes and lets taking resume, and any other only sets C_DOORBELL_ERR; an
ESEQ_CONS from its current value to ESEQ_PROD is taken, and any other ignored. Completes: nop, cseqProdWrite, eseqConsWrite. Where the spec leaves a
point open it follows the model's choice in log entry 115. -/
def Obligations.CommandCompletes : Prop :=
  (∀ (s : State) (p : Nat) (h : CmdHdr) (st : Nat), h.notify = false → s.plat.evt.ahead = [] → h.cseq = s.plat.evt.cseqDone + 1 →
    (s.ends p h st).plat.evt.cseqDone = h.cseq ∧ (s.ends p h st).plat.evt.running = s.plat.evt.running.del h.cseq ∧
    (s.ends p h st).regs = (s.hbmWrite (s.cmdEntry h.cseq + 0x10) (le 4 (resultWord 0 st))).regs ∧
    (s.ends p h st).mem = (s.hbmWrite (s.cmdEntry h.cseq + 0x10) (le 4 (resultWord 0 st))).mem ∧
    (s.ends p h st).nvf = s.nvf ∧ (s.ends p h st).lmap = s.lmap ∧ (s.ends p h st).back = s.back ∧ (s.ends p h st).ldt = s.ldt) ∧
  (∀ (s : State) (p : Nat) (h : CmdHdr) (st : Nat), h.notify = false → s.plat.evt.ahead = [] → s.plat.evt.cseqDone + 1 < h.cseq →
    (s.ends p h st).plat.evt.cseqDone = s.plat.evt.cseqDone ∧ (s.ends p h st).plat.evt.ahead = [h.cseq] ∧
    (s.ends p h st).plat.evt.running = s.plat.evt.running.del h.cseq) ∧
  (∀ (s : State) (q bits st : Nat), s.plat.evt.running.find q = none → s.finishRunning q bits st = s) ∧
  (∀ (s : State) (h : CmdHdr) (b : Nat), s.canTake h = true → h.cseq ≠ s.plat.evt.cseqCons + 1 →
    exec (.nop h ⟨b, 0⟩) s = .next (s.cseqError h.cseq) ∧ (s.cseqError h.cseq).plat.evt.seqStop = true ∧
    (s.cseqError h.cseq).plat.evt.cseqCons = s.plat.evt.cseqCons) ∧
  (∀ (s : State) (v : Nat), Reaches s pgEVT → s.plat.evt.cseqProd ≤ v → v ≤ s.plat.evt.cseqDone + s.cmdSize →
    exec (.cseqProdWrite v) s = .next { s with plat.evt.cseqProd := v, plat.evt.seqStop := false }) ∧
  (∀ (s : State) (v : Nat), Reaches s pgEVT → (v < s.plat.evt.cseqProd ∨ s.plat.evt.cseqDone + s.cmdSize < v) →
    exec (.cseqProdWrite v) s = .next (s.irqBit pgEVT 4)) ∧
  (∀ (s : State) (v : Nat), Reaches s pgEVT → s.plat.evt.eseqCons ≤ v → v ≤ s.plat.evt.eseqProd →
    exec (.eseqConsWrite v) s = .next { s with plat.evt.eseqCons := v }) ∧
  (∀ (s : State) (v : Nat), Reaches s pgEVT → (v < s.plat.evt.eseqCons ∨ s.plat.evt.eseqProd < v) → exec (.eseqConsWrite v) s = .next s) ∧
  (∀ (s : State) (v : Nat),
    (s.pageOn pgEVT = false → exec (.cseqProdWrite v) s = .next (s.bump fCHIP_OFF_ACCESS) ∧ exec (.eseqConsWrite v) s = .next (s.bump fCHIP_OFF_ACCESS)) ∧
    (s.pageOn pgEVT = true → (s.blk pgEVT = .fault ∨ s.blk pgEVT = .off) → exec (.cseqProdWrite v) s = .next s ∧ exec (.eseqConsWrite v) s = .next s))

/-- A command of the ring that its block does not take (R55, R59, R60, R465, log entry 96). One that the controller does not find in its slot,
or cannot take yet, waits in the ring; one with an unexpected CSEQ stops the taking of commands; one that names no block ends with 0xFF01; and one
whose block is in no state that takes it ends with 0xFF03. None has any other effect, but that what goes on after such a command in each case goes on. -/
def Obligations.RingCommands : Prop :=
  ∀ (s : State) (x : Instr) (r : RingCmd), s.ringCmd x = some r →
    (s.canTake r.h = false → exec x s = .next (r.after s)) ∧
    (s.canTake r.h = true → r.h.cseq ≠ s.plat.evt.cseqCons + 1 → exec x s = .next (r.after (s.cseqError r.h.cseq))) ∧
    (s.canTake r.h = true → r.h.cseq = s.plat.evt.cseqCons + 1 → targetPages r.blk r.h.inst = [] → exec x s = .next (r.after (s.consume.ends 0xFFFF r.h stNoBlock))) ∧
    (∀ (p : Nat) (ps : List Nat), s.canTake r.h = true → r.h.cseq = s.plat.evt.cseqCons + 1 → targetPages r.blk r.h.inst = p :: ps →
      ((p :: ps).any fun g => r.cls.taken (s.page g).st) = false → exec x s = .next (r.after (s.consume.ends p r.h stState)))

/-- NOP completes with status 0 in any state of its block (R465), an entry whose OPCODE a running block does not know with 0xFF02 (R55), and one whose
OPCODE is another command's is not NOP's. An entry that names no block ends with 0xFF01, and a NOP that is not taken changes nothing. CONFIG_COMMIT
(R49) of a block without a committed configuration completes with 0 in each state that takes it. A legal staged configuration of BUF, NVF, FTL or SAG
takes effect with status 0; one that breaks a rule is captured as 0xF2, ends with 0xFF05 and changes nothing else; and in Fault or Off it ends with
0xFF03. Completes: nop, configCommit. Where the spec leaves a point open it follows the model's choice in log entries 26, 31, 115. -/
def Obligations.NopAndCommit : Prop :=
  (∀ (s : State) (h : CmdHdr) (b p : Nat), Ready s h b p .nop → exec (.nop h ⟨b, 0⟩) s = .next (s.consume.ends p h stOk)) ∧
  (∀ (s : State) (h : CmdHdr) (b p o : Nat), Ready s h b p .work → opcodeKnown b o = false → exec (.nop h ⟨b, o⟩) s = .next (s.consume.ends p h stUnknown)) ∧
  (∀ (s : State) (h : CmdHdr) (b o : Nat), o ≠ 0 → opcodeKnown b o = true → exec (.nop h ⟨b, o⟩) s = .next s) ∧
  (∀ (s : State) (h : CmdHdr) (b : Nat), s.canTake h = true → h.cseq = s.plat.evt.cseqCons + 1 → targetPages b h.inst = [] →
    exec (.nop h ⟨b, 0⟩) s = .next (s.consume.ends 0xFFFF h stNoBlock)) ∧
  (∀ (s : State) (h : CmdHdr) (b o : Nat), s.canTake h = false → exec (.nop h ⟨b, o⟩) s = .next s ∧ exec (.configCommit h b) s = .next s) ∧
  (∀ (s : State) (h : CmdHdr) (b p : Nat), Ready s h b p .commit → p ≠ pgBUF → p ≠ pgNVF → p ≠ pgFTL → p ≠ pgSAG →
    exec (.configCommit h b) s = .next (s.consume.ends p h stOk)) ∧
  (∀ (s : State) (h : CmdHdr), Ready s h pgNVF pgNVF .commit → 8 ≤ s.fld fNVF_STAGE_CFG_POOL_MIB → s.fld fNVF_STAGE_CFG_POOL_MIB ≤ s.back.dataMib →
    exec (.configCommit h pgNVF) s = .next ({ s.consume with nvf.poolMib := s.fld fNVF_STAGE_CFG_POOL_MIB }.ends pgNVF h stOk)) ∧
  (∀ (s : State) (h : CmdHdr), Ready s h pgNVF pgNVF .commit → (s.fld fNVF_STAGE_CFG_POOL_MIB < 8 ∨ s.back.dataMib < s.fld fNVF_STAGE_CFG_POOL_MIB) →
    exec (.configCommit h pgNVF) s = .next ((s.consume.capture pgNVF 0xF2 0 0).ends pgNVF h stConfig)) ∧
  (∀ (s : State) (h : CmdHdr), Ready s h pgBUF pgBUF .commit → s.bufBreaks = none →
    exec (.configCommit h pgBUF) s = .next (s.consume.bufCommit.ends pgBUF h stOk)) ∧
  (∀ (s : State) (h : CmdHdr) (a : Nat), Ready s h pgBUF pgBUF .commit → s.bufBreaks = some a →
    exec (.configCommit h pgBUF) s = .next ((s.consume.capture pgBUF 0xF2 a 0).ends pgBUF h stConfig)) ∧
  (∀ (s : State) (h : CmdHdr), Ready s h pgFTL pgFTL .commit → s.fld (fFTL_MPD_LIMIT 0) ≠ 0 → s.fld (fFTL_MPD_LIMIT 1) ≠ 0 →
    s.fld fFTL_PSLC_CFG_P_MAX ≠ 0 → s.fld fFTL_PSLC_CFG_P_MAX ≤ 2500 → s.fld fFTL_PSLC_CFG_P_MIN ≤ s.fld fFTL_PSLC_CFG_P_MAX →
    ∃ t, exec (.configCommit h pgFTL) s = .next t ∧ t.back.pMax = s.fld fFTL_PSLC_CFG_P_MAX ∧ t.back.pMin = s.fld fFTL_PSLC_CFG_P_MIN ∧
      t.back.mpdLimit = [s.fld (fFTL_MPD_LIMIT 0), s.fld (fFTL_MPD_LIMIT 1)] ∧
      t.back.openMax = (List.range 6).map (fun i => s.fld (fFTL_STREAM_CFG_OPEN_MAX i)) ∧ t.plat.evt.cseqCons = s.plat.evt.cseqCons + 1 ∧
      t.nvf = s.nvf ∧ t.lmap = s.lmap ∧ t.sw = s.sw) ∧
  (∀ (s : State) (h : CmdHdr), Ready s h pgFTL pgFTL .commit → (s.fld (fFTL_MPD_LIMIT 0) = 0 ∨ s.fld (fFTL_MPD_LIMIT 1) = 0 ∨
      s.fld fFTL_PSLC_CFG_P_MAX = 0 ∨ 2500 < s.fld fFTL_PSLC_CFG_P_MAX ∨ s.fld fFTL_PSLC_CFG_P_MAX < s.fld fFTL_PSLC_CFG_P_MIN) →
    exec (.configCommit h pgFTL) s = .next ((s.consume.capture pgFTL 0xF2 0 0).ends pgFTL h stConfig)) ∧
  (∀ (s : State) (h : CmdHdr), Ready s h pgSAG pgSAG .commit → 64 ≤ s.fld fSAG_SIZE_SIZE_MIB → s.fld fSAG_SIZE_SIZE_MIB ≤ 16384 →
    8 ≤ s.fld fSAG_AREA_CFG_DATA_MIB → 8 ≤ s.fld fSAG_AREA_CFG_DELTA_MIB → s.fld fSAG_AREA_CFG_DELTA_MIB ≤ 4096 →
    256 * s.fld fSAG_AREA_CFG_DATA_MIB + s.fld fSAG_AREA_CFG_DATA_MIB + 512 * s.fld fSAG_AREA_CFG_DELTA_MIB + 256 * 33 ≤ 256 * s.fld fSAG_SIZE_SIZE_MIB →
    s.nvf.poolMib ≤ s.fld fSAG_AREA_CFG_DATA_MIB → s.dumpRoom (s.fld fSAG_SIZE_SIZE_MIB) = true →
    exec (.configCommit h pgSAG) s = .next ({ s.consume with back.sizeMib := s.fld fSAG_SIZE_SIZE_MIB, back.dataMib := s.fld fSAG_AREA_CFG_DATA_MIB, back.deltaMib := s.fld fSAG_AREA_CFG_DELTA_MIB }.ends pgSAG h stOk)) ∧
  (∀ (s : State) (h : CmdHdr), Ready s h pgSAG pgSAG .commit → (s.fld fSAG_SIZE_SIZE_MIB < 64 ∨ 16384 < s.fld fSAG_SIZE_SIZE_MIB ∨
      s.fld fSAG_AREA_CFG_DATA_MIB < 8 ∨ s.fld fSAG_AREA_CFG_DELTA_MIB < 8 ∨ 4096 < s.fld fSAG_AREA_CFG_DELTA_MIB ∨
      256 * s.fld fSAG_SIZE_SIZE_MIB < 256 * s.fld fSAG_AREA_CFG_DATA_MIB + s.fld fSAG_AREA_CFG_DATA_MIB + 512 * s.fld fSAG_AREA_CFG_DELTA_MIB + 256 * 33 ∨
      s.fld fSAG_AREA_CFG_DATA_MIB < s.nvf.poolMib ∨ s.dumpRoom (s.fld fSAG_SIZE_SIZE_MIB) = false) →
    exec (.configCommit h pgSAG) s = .next ((s.consume.capture pgSAG 0xF2 0 0).ends pgSAG h stConfig)) ∧
  (∀ (s : State) (h : CmdHdr) (b p : Nat), s.canTake h = true → h.cseq = s.plat.evt.cseqCons + 1 → targetPages b h.inst = [p] →
    ((s.page p).st = .off ∨ (s.page p).st = .fault) → exec (.configCommit h b) s = .next (s.consume.ends p h stState))

/-! ### The register window (R5, R38, R39, R43, R48) -/

/-- A register of each access type, written and read through the window (R5, R38, R48): a 64-bit RW register takes the value and no other word changes; an
RWL field takes the value while STORE.LOCK is clear and keeps its own once it is set; a read of an RC counter returns it and clears it; a register of
a page whose power is off is not written and reads 0, and the access is counted. The commands that are one register write each do the same: nothing is
written toward a page without power, and the access is counted; a block in Fault, or Off, ignores them. An access outside every block page and the
settings aperture is a bus error and changes nothing else (R39). Completes: registerWrite, rcCounterRead. Where the spec leaves a point open it
follows the model's choice in log entries 64, 79. -/
def Obligations.RegisterAccess : Prop :=
  (∀ (s : State) (v : Nat), Reaches s pgSVC → ∃ t, exec (.registerWrite rSVC_MAC 8 v) s = .next t ∧ t.reg64 rSVC_MAC = v % 2 ^ 48 ∧
    (∀ a, a ≠ rSVC_MAC → a ≠ rSVC_MAC + 4 → t.reg a = s.reg a) ∧ t.mem = s.mem ∧ t.pages = s.pages) ∧
  (∀ (s : State) (v : Nat), Reaches s pgSVC → s.lockedRwl = false → getBits v 9 8 ≠ 3 →
    ∃ t, exec (.registerWrite rSVC_CTRL 4 v) s = .next t ∧ t.fld fSVC_CTRL_ACCESS = getBits v 9 8 ∧ t.fld fSVC_CTRL_HBM_EN = getBits v 4 4 ∧
    t.fld fSVC_CTRL_FWD = getBits v 2 2 ∧ (∀ a, a ≠ rSVC_CTRL → t.reg a = s.reg a) ∧ t.mem = s.mem) ∧
  (∀ (s : State) (v : Nat), Reaches s pgSVC → s.lockedRwl = true →
    ∃ t, exec (.registerWrite rSVC_CTRL 4 v) s = .next t ∧ t.fld fSVC_CTRL_ACCESS = s.fld fSVC_CTRL_ACCESS ∧
    t.fld fSVC_CTRL_HBM_EN = s.fld fSVC_CTRL_HBM_EN ∧ t.fld fSVC_CTRL_FWD = getBits v 2 2 ∧ t.mem = s.mem) ∧
  (∀ (s : State), Reaches s pgSVC → exec (.rcCounterRead rSVC_RX_MSG) s =
    .next ((s.setReg rSVC_RX_MSG 0).emit (.value (s.reg rSVC_RX_MSG).toNat))) ∧
  (∀ (s : State) (off size v : Nat),
    (winCheck true off size = .ok → exec (.registerWrite off size v) s = .next (s.winWrite true off size v)) ∧
    (winCheck true off size ≠ .ok → exec (.registerWrite off size v) s = .next (s.emit .busError)) ∧
    (winCheck false off 4 = .ok → exec (.rcCounterRead off) s = .next ((s.winRead off 4).2.emit (.value (s.winRead off 4).1))) ∧
    (winCheck false off 4 ≠ .ok → exec (.rcCounterRead off) s = .next (s.emit .busError))) ∧
  (∀ (s : State) (v : Nat), s.pageOn (pgCLU 3) = false →
    exec (.registerWrite (rCLU_CORE_RUN 3) 4 v) s = .next (s.bump fCHIP_OFF_ACCESS)) ∧
  (∀ (s : State), s.pageOn (pgCLU 3) = false → exec (.rcCounterRead (rCLU_CORE_RUN 3)) s = .next ((s.bump fCHIP_OFF_ACCESS).emit (.value 0))) ∧
  (∀ (s : State) (x : Instr) (p v i c : Nat) (d : Int) (b : Bool) (e : BootEnv), isIsland i = true → c < 12 → (x, p) ∈ [(.timeSet v, pgTIME), (.timeStep d, pgTIME), (.storeCommit, pgSTORE), (.storeSelectA, pgSTORE), (.storeSelectB, pgSTORE), (.storeCopyAToB, pgSTORE), (.storeCopyBToA, pgSTORE), (.storeDiscard, pgSTORE), (.storeLock, pgSTORE), (.startStageWrite v, pgCHIP), (.warmRestart v e, pgCHIP), (.watchdogKick, pgCHIP), (.watchdogRunEn b, pgCHIP), (.watchdogTimeoutWrite v, pgCHIP), (.cseqProdWrite v, pgEVT), (.eseqConsWrite v, pgEVT), (.clkStopWrite i, pgXING), (.pairReset i, pgXING), (.coreRunWrite c v, pgCLU c), (.memCfgWrite c v, pgCLU c)] →
    s.pageOn p = false → exec x s = .next (s.bump fCHIP_OFF_ACCESS)) ∧
  (∀ (s : State) (x : Instr) (p v i c : Nat) (d : Int) (b : Bool) (e : BootEnv), isIsland i = true → c < 12 → (x, p) ∈ [(.timeSet v, pgTIME), (.timeStep d, pgTIME), (.storeCommit, pgSTORE), (.storeSelectA, pgSTORE), (.storeSelectB, pgSTORE), (.storeCopyAToB, pgSTORE), (.storeCopyBToA, pgSTORE), (.storeDiscard, pgSTORE), (.storeLock, pgSTORE), (.startStageWrite v, pgCHIP), (.warmRestart v e, pgCHIP), (.watchdogKick, pgCHIP), (.watchdogRunEn b, pgCHIP), (.watchdogTimeoutWrite v, pgCHIP), (.cseqProdWrite v, pgEVT), (.eseqConsWrite v, pgEVT), (.clkStopWrite i, pgXING), (.pairReset i, pgXING), (.coreRunWrite c v, pgCLU c), (.memCfgWrite c v, pgCLU c)] →
    s.pageOn p = true → (s.blk p = .fault ∨ s.blk p = .off) → exec x s = .next s) ∧
  (∀ (s : State) (off size d : Nat), inAperture off = false → (winEnd ≤ off ∨ pageExists (off / 0x10000) = false) →
    exec (.registerWrite off size d) s = .next (s.emit .busError) ∧ exec (.rcCounterRead off) s = .next (s.emit .busError))

/-! ### Block headers (R43-R50) -/

/-- A page of one block that is powered and not Off. -/
abbrev OneBlock (s : State) (p : Nat) : Prop := pageExists p = true ∧ isBroadcast p = false ∧ s.pageOn p = true ∧ s.blk p ≠ .off

/-- Blocks whose entry into Run changes nothing but their header. -/
abbrev PlainBlock (p : Nat) : Prop :=
  p ≠ pgEVT ∧ p ≠ pgLDT ∧ p ≠ pgSW ∧ p ≠ pgFTL ∧ p ≠ pgSAG ∧ p ≠ pgTALLY ∧ blkTypeOf p ≠ pgMLINK 0 ∧ blkTypeOf p ≠ pgMARK

/-- A quadrant of MARK that copies its key states, or is being reset (R159). -/
abbrev MarkCopies (s : State) (p : Nat) : Prop := blkTypeOf p = pgMARK ∧ ((s.markQuad (blkInstOf p)).refill = true ∨ (s.page p).resetting = true)

/-- Everything but the page headers is the same. -/
abbrev OnlyPages (s t : State) : Prop := t = { s with pages := t.pages }

/-- Enabling, disabling, quiescing and resuming of one block (R45): ENABLE takes an Idle block to Run, where its work starts (State.enterRun, which for
most blocks changes only the header), or with QUIESCE = 1 to Quiesced with a STATE_CHANGE; a quadrant of MARK that copies its key states stays Idle
with ENABLE stored (R159). Disabling takes a Quiesced block to Idle, is stored in Idle, and is ignored in Run and Quiescing. QUIESCE takes a running
block to Quiescing, from where it becomes Quiesced as soon as nothing is in flight, is stored in Idle, and its end takes a Quiescing or a Quiesced
block back to Run. In Fault every one of them is ignored. A write to the header of a page without power is counted and nothing else (R48), of an Off
block ignored, of no page a bus error (R39), and one to a broadcast page goes to its four quadrants (R43). Completes: blockEnable, blockDisable,
blockResume, blockQuiesce, quiesceComplete. Where the spec leaves a point open it follows the model's choice in log entries 72, 73, 77, 96. -/
def Obligations.BlockStates : Prop :=
  (∀ (s : State) (p : Nat), OneBlock s p → PlainBlock p → s.blk p = .idle → (s.page p).quiesce = false →
    ∃ t, exec (.blockEnable p) s = .next t ∧ t.page p = { s.page p with st := .run, enable := true, quiesce := false } ∧
      (∀ q, q ≠ p → t.page q = s.page q) ∧ OnlyPages s t) ∧
  (∀ (s : State) (p : Nat), OneBlock s p → ¬ MarkCopies s p → s.blk p = .idle → (s.page p).quiesce = false →
    exec (.blockEnable p) s =
      .next (((s.modPage p (fun g => { g with quiesce := false })).modPage p (fun g => { g with enable := true })).enterRun p)) ∧
  (∀ (s : State) (p : Nat), OneBlock s p → MarkCopies s p → s.blk p = .idle →
    ∃ t, exec (.blockEnable p) s = .next t ∧ t.page p = { s.page p with enable := true } ∧ (∀ q, q ≠ p → t.page q = s.page q) ∧ OnlyPages s t) ∧
  (∀ (s : State) (p : Nat), OneBlock s p → ¬ MarkCopies s p → s.blk p = .idle → (s.page p).quiesce = true →
    exec (.blockEnable p) s =
      .next (((s.modPage p (fun g => { g with quiesce := true })).modPage p (fun g => { g with enable := true })).stateChange p .quiesced)) ∧
  (∀ (s : State) (p : Nat), OneBlock s p → p ≠ pgEVT → s.blk p = .quiesced →
    ∃ t, exec (.blockDisable p) s = .next t ∧ t.page p = { s.page p with st := .idle, enable := false } ∧
      (∀ q, q ≠ p → t.page q = s.page q) ∧ OnlyPages s t) ∧
  (∀ (s : State), OneBlock s pgEVT → s.blk pgEVT = .quiesced →
    ∃ t, exec (.blockDisable pgEVT) s = .next t ∧ t.page pgEVT = { s.page pgEVT with st := .idle, enable := false } ∧
      t = { s with pages := t.pages, plat.evt.started := false }) ∧
  (∀ (s : State) (p : Nat), OneBlock s p → (s.blk p = .run ∨ s.blk p = .quiescing) → (s.page p).quiesce = decide (s.blk p = .quiescing) →
    ∃ t, exec (.blockDisable p) s = .next t ∧ (∀ q, t.page q = s.page q) ∧ OnlyPages s t) ∧
  (∀ (s : State) (p : Nat), OneBlock s p → s.blk p = .idle →
    ∃ t, exec (.blockDisable p) s = .next t ∧ t.page p = { s.page p with enable := false } ∧ (∀ q, q ≠ p → t.page q = s.page q) ∧ OnlyPages s t) ∧
  (∀ (s : State) (p : Nat), OneBlock s p → (s.blk p = .quiescing ∨ (s.blk p = .quiesced ∧ (s.page p).enable = true)) →
    exec (.blockResume p) s = .next ((s.modPage p (fun g => { g with quiesce := false })).enterRun p)) ∧
  (∀ (s : State) (p : Nat), OneBlock s p → PlainBlock p → s.blk p = .quiesced → (s.page p).enable = true →
    ∃ t, exec (.blockResume p) s = .next t ∧ t.page p = { s.page p with st := .run, quiesce := false } ∧
      (∀ q, q ≠ p → t.page q = s.page q) ∧ OnlyPages s t) ∧
  (∀ (s : State) (p : Nat), OneBlock s p → s.blk p = .run →
    exec (.blockQuiesce p) s =
      .next (((s.modPage p (fun g => { g with quiesce := true })).modPage p (fun g => { g with st := .quiescing })).tryQuiesced p)) ∧
  (∀ (s : State) (p : Nat), OneBlock s p → s.blk p = .run → (∀ t : State, t.plat = s.plat ∧ OnlyPages s t → t.blockBusy p = true) →
    ∃ t, exec (.blockQuiesce p) s = .next t ∧ t.page p = { s.page p with st := .quiescing, quiesce := true } ∧
      (∀ q, q ≠ p → t.page q = s.page q) ∧ OnlyPages s t) ∧
  (∀ (s : State) (p : Nat), OneBlock s p → s.blk p = .idle → (s.page p).enable = false →
    ∃ t, exec (.blockQuiesce p) s = .next t ∧ t.page p = { s.page p with quiesce := true } ∧ (∀ q, q ≠ p → t.page q = s.page q) ∧ OnlyPages s t) ∧
  (∀ (s : State) (p : Nat), OneBlock s p → s.blk p = .fault →
    exec (.blockEnable p) s = .next s ∧ exec (.blockDisable p) s = .next s ∧ exec (.blockQuiesce p) s = .next s ∧ exec (.blockResume p) s = .next s) ∧
  (∀ (s : State) (p : Nat), OneBlock s p →
    exec (.blockEnable p) s = .next (s.writeEnable p true (s.page p).quiesce) ∧ exec (.blockDisable p) s = .next (s.writeEnable p false (s.page p).quiesce) ∧
    exec (.blockQuiesce p) s = .next (s.writeEnable p (s.page p).enable true) ∧ exec (.blockResume p) s = .next (s.writeEnable p (s.page p).enable false)) ∧
  (∀ (s : State) (p : Nat) (e q : Bool),
    ((s.page p).st = .run → q = false → s.writeEnable p e q = s.modPage p (fun g => { g with quiesce := false })) ∧
    ((s.page p).st = .quiescing → q = true → s.writeEnable p e q = s.modPage p (fun g => { g with quiesce := true })) ∧
    ((s.page p).st = .quiesced → e = true → q = true → s.writeEnable p e q = s.modPage p (fun g => { g with quiesce := true })) ∧
    ((s.page p).st = .quiesced → e = true → q = false → s.writeEnable p e q = (s.modPage p (fun g => { g with quiesce := false })).enterRun p)) ∧
  (∀ (s : State) (p : Nat) (v w : Word) (f : State → Nat → State) (x : Instr),
    (x, f) ∈ [(.blockEnable p, fun t q => t.writeEnable q true (t.page q).quiesce), (.blockDisable p, fun t q => t.writeEnable q false (t.page q).quiesce),
      (.blockQuiesce p, fun t q => t.writeEnable q (t.page q).enable true), (.blockResume p, fun t q => t.writeEnable q (t.page q).enable false),
      (.blockReset p, fun t q => t.writeCtrl q (4 + t.ctrlBits q)), (.blkIrqStatWrite p v, fun t q => t.writeIrqStat q v),
      (.blkIrqForce p w, fun t q => t.writeIrqForce q w)] →
    (pageExists p = false → exec x s = .next (s.emit .busError)) ∧
    (pageExists p = true → isBroadcast p = false → s.pageOn p = false → exec x s = .next (s.bump fCHIP_OFF_ACCESS)) ∧
    (pageExists p = true → isBroadcast p = false → s.pageOn p = true → s.blk p = .off → exec x s = .next s) ∧
    (pageExists p = true → isBroadcast p = true → exec x s = .next ([0, 1, 2, 3].foldl (fun t q => t.headerWrite (quadPage p q) f) s))) ∧
  (∀ (s : State) (p : Nat), (s.page p).st = .quiescing → s.blockBusy p = false →
    exec (.quiesceComplete p) s = .next (s.stateChange p .quiesced)) ∧
  (∀ (s : State) (p : Nat), (s.page p).st ≠ .quiescing ∨ s.blockBusy p = true → exec (.quiesceComplete p) s = .next s)

/-- A write of RESET = 1 is refused in ten pages, whatever the block's state, and in eight more in every state but Idle: the refusal captures 0xF0,
nothing is reset, and the write's other bits, ENABLE and QUIESCE as they stand, are taken; a running block runs on. -/
def Obligations.ResetRefused : Prop :=
  (∀ (s : State) (p : Nat), OneBlock s p → (p ∈ [pgCHIP, pgPWR, pgAON, pgSTORE, pgTIME, pgXING, pgTSENS, pgEVT, pgIRQR, pgTAMP] ∨
      (p ∈ [pgLMAP, pgMOULD, pgFTL, pgPUG, pgPAR, pgSAG, pgRBLD, pgPEERCTL] ∧ s.blk p ≠ .idle)) →
    exec (.blockReset p) s = .next ((s.capture p 0xF0 0 0).writeEnable p (s.page p).enable (s.page p).quiesce)) ∧
  (∀ (s : State) (p : Nat), OneBlock s p → s.mayReset p = false →
    exec (.blockReset p) s = .next ((s.capture p 0xF0 0 0).writeEnable p (s.page p).enable (s.page p).quiesce)) ∧
  (∀ (s : State) (p : Nat), (s.page p).armed = true → ((s.capture p 0xF0 0 0).page p).errCap = 0xF0) ∧
  (∀ (s : State) (p : Nat), OneBlock s p → s.blk p = .run → (s.page p).quiesce = false → (s.page p).enable = true → (s.page p).armed = true →
    (p ∈ [pgCHIP, pgPWR, pgAON, pgSTORE, pgTIME, pgXING, pgTSENS, pgEVT, pgIRQR, pgTAMP] ∨
      p ∈ [pgLMAP, pgMOULD, pgFTL, pgPUG, pgPAR, pgSAG, pgRBLD, pgPEERCTL]) →
    ∃ t, exec (.blockReset p) s = .next t ∧ (t.page p).errCap = 0xF0 ∧ (t.page p).st = .run ∧ (t.page p).enable = true ∧
      (∀ q, q ≠ p → t.page q = s.page q) ∧ OnlyPages s t)

/-- A reset that is taken (R45, R467): the block's work and its commands end, its registers and its header take their reset values, and it is Idle with
RESET reading 1 (State.resetBlock; of a block that owns an island with the pair in reset, R35); for SVC this is all that changes. Its end: RESET reads
0, and the island of the block, if any, is released. A fault (R444): the work and the commands of the block end, it captures 0xF4 and is in Fault with
a STATE_CHANGE, and CHIP reports it; of the blocks of R445 it is fatal to the chip. A block that is Off or in Fault has no further one. The interrupt
words (R44, R47, R50): written bits of BLK_IRQ_STAT clear, the error capture is armed again when none is left, and a line that stays high sends its
message; BLK_IRQ_FORCE sets the bits that are sources of the block. Where IRQR routes the page to no identity, no message is sent and only the page's
header changes. Completes: blockReset, blockResetDone, blockFault, blkIrqStatWrite, blkIrqForce. Where the spec leaves a point open it follows the
model's choice in log entries 2, 49, 61, 89, 96, 97, 105, 127. -/
def Obligations.BlockResetAndFault : Prop :=
  (∀ (s : State) (p : Nat), OneBlock s p → s.mayReset p = true → islandOfPage p = none → exec (.blockReset p) s = .next (s.resetBlock .reset p)) ∧
  (∀ (s : State) (p i : Nat), OneBlock s p → s.mayReset p = true → islandOfPage p = some i →
    exec (.blockReset p) s = .next ((s.pairStart i).resetBlock .reset p)) ∧
  (∀ (s : State) (p : Nat), (s.resetBlock .reset p).page p = { resetting := true } ∧ (∀ a, a / 0x10000 = p → (s.resetBlock .reset p).reg a = resetWord a)) ∧
  (∀ (s : State), OneBlock s pgSVC → s.plat.evt.running = [] →
    ∃ t, exec (.blockReset pgSVC) s = .next t ∧ t.page pgSVC = { resetting := true } ∧ t.svc = {} ∧ t.mem = s.mem ∧
      (∀ a, a / 0x10000 ≠ pgSVC → t.reg a = s.reg a) ∧ (∀ a, a / 0x10000 = pgSVC → t.reg a = resetWord a)) ∧
  (∀ (s : State) (p : Nat), (s.page p).resetting = true → islandOfPage p = none → blkTypeOf p ≠ pgMARK →
    exec (.blockResetDone p) s = .next (s.modPage p (fun g => { g with resetting := false }))) ∧
  (∀ (s : State) (p i : Nat), (s.page p).resetting = true → islandOfPage p = some i →
    exec (.blockResetDone p) s = .next ((s.modPage p (fun g => { g with resetting := false })).pairRelease i)) ∧
  (∀ (s : State) (q : Nat), q < 4 → (s.page (quadPage pgMARK q)).resetting = true →
    exec (.blockResetDone (quadPage pgMARK q)) s =
      .next (((s.modPage (quadPage pgMARK q) (fun g => { g with resetting := false })).markReturn q).markWaiters)) ∧
  (∀ (s : State) (p : Nat), (s.page p).resetting = false → exec (.blockResetDone p) s = .next s) ∧
  (∀ (s : State) (p : Nat) (a b : Word), OneBlock s p → (s.page p).st ≠ .fault →
    exec (.blockFault p a b) s = .next (s.blockFaults p a.toNat b.toNat).restartPump) ∧
  (∀ (s : State) (p : Nat) (a b : Word), OneBlock s p → (s.page p).st = .fault → exec (.blockFault p a b) s = .next s) ∧
  (∀ (s : State) (p : Nat) (a b : Word), (pageExists p = false ∨ isBroadcast p = true ∨ s.pageOn p = false ∨ s.blk p = .off) →
    exec (.blockFault p a b) s = .next s) ∧
  (∀ (s : State) (p : Nat), (s.page p).resetting = true → exec (.blockResetDone p) s = .next (s.resetEnds p)) ∧
  (∀ (s : State) (a b : Word), OneBlock s pgSVC → s.blk pgSVC = .run → s.plat.evt.running = [] → s.plat.chip.restartReq = none →
    (s.page pgSVC).armed = true → s.runs pgEVT = false → s.fld (fIRQR_ROUTE_IDENT pgCHIP) = 0 →
    ∃ t, exec (.blockFault pgSVC a b) s = .next t ∧ (t.page pgSVC).st = .fault ∧ (t.page pgSVC).errCap = 0xF4 ∧ (t.page pgSVC).infoA = a ∧
      (t.page pgSVC).infoB = b ∧ t.regs = s.regs ∧ t.mem = s.mem) ∧
  (∀ (s : State) (p : Nat) (v : Word), OneBlock s p → exec (.blkIrqStatWrite p v) s =
    .next ((s.modPage p (fun g => { g with irqStat := g.irqStat &&& ~~~v, armed := g.armed || decide (g.irqStat &&& ~~~v = 0) })).irqMessage p)) ∧
  (∀ (s : State) (p : Nat) (v : Word), OneBlock s p → exec (.blkIrqForce p v) s =
    .next (s.irqSet p (v &&& BitVec.ofNat 32 (2 ^ irqSources p - 1)))) ∧
  (∀ (s : State) (p : Nat) (v : Word), OneBlock s p → s.fld (fIRQR_ROUTE_IDENT p) = 0 →
    ∃ t, exec (.blkIrqStatWrite p v) s = .next t ∧ (t.page p).irqStat = (s.page p).irqStat &&& ~~~v ∧
      (∀ q, q ≠ p → t.page q = s.page q) ∧ OnlyPages s t) ∧
  (∀ (s : State) (p : Nat) (v : Word), OneBlock s p → s.fld (fIRQR_ROUTE_IDENT p) = 0 →
    ∃ t, exec (.blkIrqForce p v) s = .next t ∧
      (t.page p).irqStat = (s.page p).irqStat ||| (v &&& BitVec.ofNat 32 (2 ^ irqSources p - 1)) ∧
      (∀ q, q ≠ p → t.page q = s.page q) ∧ OnlyPages s t)

/-- INT_N is asserted exactly while some page whose ROUTE.INT_N = 1 has its line high, and IRQR.INTN_PEND shows each such page (R51). -/
def Obligations.IntN : Prop :=
  ∀ (s : State), (s.intN = true ↔ ∃ p, pageExists p = true ∧ p < 0xD8 ∧ s.fld (fIRQR_ROUTE_INT_N p) = 1 ∧ s.irqLine p = true) ∧
    (∀ w b, w < 7 → b < 32 → 32 * w + b < 0xD8 →
      ((s.intnPend w).testBit b = true ↔ pageExists (32 * w + b) = true ∧ s.fld (fIRQR_ROUTE_INT_N (32 * w + b)) = 1 ∧ s.irqLine (32 * w + b) = true)) ∧
    (∀ w, w < 7 → s.liveWord pgIRQR (0x800 + 4 * w) = some (s.intnPend w))

/-! ### The fabric, the clusters and the timebase (R26-R37, R52, R53, R61) -/

/-- The timebase (R61). TIME.SET: with TALLY Off or Idle a value at or above TIME.NOW is applied at once and ends a slew, one below it is captured as 0x02
SET_BACKWARD; in any other state of TALLY it is captured as 0x01. TIME.STEP: a negative step starts a slew of its size, 0 changes nothing, and a
positive one is added at once, ends a slew, and TALLY, when it runs, closes the minutes that passed. SLEW_DONE ends a slew and is nothing without one.
A lost reference holds TIME.NOW, sets REF_LOST and stops the three islands on that clock, and no other. A read of TXTS_VALUE returns and gives up the
head of its queue, and 0 from an empty one. On an empty queue a step is the idle step (log entry 4): it answers a next state, and with the
reference running, no rate correction and no slew, TIME.NOW is 10 ns later. A host port that sends a two-step event message of a subport with room in
the queue records its transmit timestamp (R62, log entry 91). Completes: timeSet, timeStep, slewDone, timebaseRefLost, txtsValueRead. Where the
spec leaves a point open it follows the model's choice in log entries 77, 106. -/
def Obligations.Timebase : Prop :=
  (∀ (s : State) (v : Nat), Reaches s pgTIME → (s.blk pgTALLY = .off ∨ s.blk pgTALLY = .idle) → s.now ≤ v → v < 2 ^ 64 →
    exec (.timeSet v) s = .next { s with plat.time.now := v, plat.time.slewRemain := 0, plat.time.slewing := false }) ∧
  (∀ (s : State) (v : Nat), Reaches s pgTIME → (s.blk pgTALLY = .off ∨ s.blk pgTALLY = .idle) → v < s.now → v < 2 ^ 64 →
    exec (.timeSet v) s = .next (s.capture pgTIME 0x02 0 0)) ∧
  (∀ (s : State) (v : Nat), Reaches s pgTIME → s.blk pgTALLY ≠ .off → s.blk pgTALLY ≠ .idle →
    exec (.timeSet v) s = .next (s.capture pgTIME 0x01 0 0)) ∧
  (∀ (s : State) (d : Int), Reaches s pgTIME → -(2 ^ 63) ≤ d → d < 0 →
    exec (.timeStep d) s = .next { s with plat.time.slewRemain := d.natAbs, plat.time.slewing := true }) ∧
  (∀ (s : State), Reaches s pgTIME → exec (.timeStep 0) s = .next s) ∧
  (∀ (s : State) (d : Int), Reaches s pgTIME → 0 < d → d < 2 ^ 63 →
    exec (.timeStep d) s = .next (({ s with plat.time.now := min (2 ^ 64 - 1) (s.now + d.toNat), plat.time.slewRemain := 0, plat.time.slewing := false } : State).tallyStep)) ∧
  (∀ (s : State) (d : Int), Reaches s pgTIME → 0 < d → d < 2 ^ 63 → s.runs pgTALLY = false → s.now + d.toNat < 2 ^ 64 →
    ∃ t, exec (.timeStep d) s = .next t ∧ (t.now : Int) = s.now + d ∧ t.plat.time.slewing = false ∧ t.regs = s.regs ∧ t.mem = s.mem ∧ t.pages = s.pages ∧
      t.out = s.out) ∧
  (∀ (s : State), s.plat.time.slewing = true →
    exec .slewDone s = .next { s with plat.time.slewRemain := 0, plat.time.slewing := false }) ∧
  (∀ (s : State), s.plat.time.slewing = false → exec .slewDone s = .next s) ∧
  (∀ (s : State), ∃ t, exec .timebaseRefLost s = .next t ∧ t.plat.time = { s.plat.time with refOn := false, refLost := true } ∧
    (∀ i, i ∈ [21, 22, 24] → t.island i = { s.island i with clkRun := false, refOn := false }) ∧ (∀ i, i ∉ [21, 22, 24] → t.island i = s.island i) ∧
    t.regs = s.regs ∧ t.mem = s.mem ∧ t.pages = s.pages ∧ t.out = s.out) ∧
  (∀ (s : State) (e : TxTs) (es : List TxTs), s.plat.time.txts = e :: es →
    exec .txtsValueRead s = .next ({ s with plat.time.txts := es }.emit (.value e.value))) ∧
  (∀ (s : State), s.plat.time.txts = [] → exec .txtsValueRead s = .next (s.emit (.value 0))) ∧
  (∀ s : State, s.pending = [] → step s = .next s.idle) ∧
  (∀ s : State, s.plat.time.refOn = true → s.reg rTIME_RATE_ADJ = 0 → s.plat.time.slewing = false → 0 ≤ s.plat.time.frac →
    s.plat.time.frac < fracPerNs → s.now + 10 < 2 ^ 64 →
    s.timeTick = { s with plat.time.now := s.now + 10 }) ∧
  (∀ s : State, s.plat.time.refOn = false → s.timeTick = s) ∧
  (∀ (s : State) (ep k : Nat) (f : SwFrame), ep < 8 → f.ldt = false → ptpAt (f.hdr ++ f.payload) = some k → ptpOneStep (f.hdr ++ f.payload) k = false →
    s.plat.time.txts.length < 64 →
    ∃ e, (s.portSends ep f).plat.time.txts = s.plat.time.txts ++ [e] ∧ e.value = s.now ∧ e.port / 4 = ep ∧
      e.seqId = unBe (slice (f.hdr ++ f.payload) (k + 30) 2) ∧ (s.portSends ep f).out = .swOut ep f :: s.out)

/-- The end of a pace window (R28): with no threshold set each region of the fabric core and of a powered domain takes its rate, a region without power
reads 0, and no event is posted; a region below its scaled threshold whose bit is clear sets its bit of LOW_STAT and raises LOW_PACE; the window ends
at the length it began with and the next takes WINDOW_US; an end at another length is nothing, and with PACE in Fault nothing is measured. Core
clusters (R52, R53): CORE_RUN takes its eight bits; a change of SCRATCH_WAYS is in progress until it is done, a write meanwhile or of more than 16
ways is ignored, a write of the ways in force starts no change, and ways that pass from scratch to cache lose their content. Completes: paceWindowEnd,
coreRunWrite, memCfgWrite, memCfgDone. Where the spec leaves a point open it follows the model's choice in log entries 71, 104. -/
def Obligations.PaceWindow : Prop :=
  (∀ (s : State) (us : Nat) (beats : List Nat), us ≠ 0 → us = s.plat.paceWindow → Reaches s pgPACE → (∀ r, r < 24 → s.fld (fPACE_LOW_THRESH_THRESH r) = 0) →
    ∃ t, exec (.paceWindowEnd us beats) s = .next t ∧
      (∀ r, r < 24 → paceDom r = none → t.fld (fPACE_RATE_BEATS r) = min 0xFFFF (beats.getD r 0 / us)) ∧
      (∀ r, r < 24 → ∀ d, paceDom r = some d → s.domOn d = true → t.fld (fPACE_RATE_BEATS r) = min 0xFFFF (beats.getD r 0 / us)) ∧
      (∀ r, r < 24 → ∀ d, paceDom r = some d → s.domOn d = false → t.fld (fPACE_RATE_BEATS r) = 0) ∧
      t.plat.paceWindow = s.fld fPACE_CTRL_WINDOW_US ∧ t.pages = s.pages ∧ t.mem = s.mem ∧ t.out = s.out) ∧
  (∀ (s : State) (us r : Nat) (beats : List Nat), us ≠ 0 → us = s.plat.paceWindow → s.pageOn pgPACE = true → s.runs pgPACE = true → s.runs pgEVT = false →
    r < 24 → paceDom r = none → (∀ q, q < 24 → q ≠ r → s.fld (fPACE_LOW_THRESH_THRESH q) = 0) → s.fld (fPACE_LOW_THRESH_THRESH r) ≠ 0 →
    min 0xFFFF (beats.getD r 0 / us) * coneFloor 4 < s.fld (fPACE_LOW_THRESH_THRESH r) * coneFloor (s.fld fPACE_CTRL_CONE) →
    (s.fld fPACE_LOW_STAT_LOW).testBit r = false →
    ∃ t, exec (.paceWindowEnd us beats) s = .next t ∧ t.fld fPACE_LOW_STAT_LOW = s.fld fPACE_LOW_STAT_LOW ||| 2 ^ r ∧
      (t.page pgPACE).evseq = (s.page pgPACE).evseq + 1 ∧ t.plat.paceWindow = s.fld fPACE_CTRL_WINDOW_US ∧ t.mem = s.mem) ∧
  (∀ (s : State) (us : Nat) (beats : List Nat), us ≠ 0 → us = s.plat.paceWindow → s.blk pgPACE = .fault →
    exec (.paceWindowEnd us beats) s = .next { s with plat.paceWindow := s.fld fPACE_CTRL_WINDOW_US }) ∧
  (∀ (s : State) (us : Nat) (beats : List Nat), us ≠ 0 → us = s.plat.paceWindow → s.pageOn pgPACE = true → s.blk pgPACE ≠ .fault →
    ∃ t, exec (.paceWindowEnd us beats) s = .next t ∧ t.plat.paceWindow = t.fld fPACE_CTRL_WINDOW_US ∧
      t = { (List.range 24).foldl (fun u r => u.paceRegion us beats r) s with plat.paceWindow := t.plat.paceWindow }) ∧
  (∀ (s : State) (us : Nat) (beats : List Nat), us ≠ 0 → us = s.plat.paceWindow → s.pageOn pgPACE = false →
    exec (.paceWindowEnd us beats) s = .next { s with plat.paceWindow := s.fld fPACE_CTRL_WINDOW_US }) ∧
  (∀ (s : State) (us : Nat) (beats : List Nat), us = 0 ∨ us ≠ s.plat.paceWindow → exec (.paceWindowEnd us beats) s = .next s) ∧
  (∀ (s : State) (c v : Nat), c < 12 → Reaches s (pgCLU c) →
    exec (.coreRunWrite c v) s = .next (s.setReg (rCLU_CORE_RUN c) (BitVec.ofNat 32 (v % 256)))) ∧
  (∀ (s : State) (c w : Nat), c < 12 → Reaches s (pgCLU c) → w ≤ 16 → (s.cluster c).memTarget = none → w ≠ (s.cluster c).scratchWays →
    ∃ t, exec (.memCfgWrite c w) s = .next t ∧ (t.cluster c).memTarget = some w ∧ (t.cluster c).scratchWays = (s.cluster c).scratchWays ∧
      t.reg (rCLU_MEM_CFG c) = BitVec.ofNat 32 w ∧ (∀ d, d ≠ c → t.cluster d = s.cluster d) ∧ t.mem = s.mem) ∧
  (∀ (s : State) (c w : Nat), c < 12 → Reaches s (pgCLU c) → ((s.cluster c).memTarget.isSome = true ∨ 16 < w) → exec (.memCfgWrite c w) s = .next s) ∧
  (∀ (s : State) (c w : Nat), c < 12 → Reaches s (pgCLU c) → w ≤ 16 → (s.cluster c).memTarget = none → w = (s.cluster c).scratchWays →
    exec (.memCfgWrite c w) s = .next (s.setReg (rCLU_MEM_CFG c) (BitVec.ofNat 32 w))) ∧
  (∀ (s : State) (c v : Nat), 12 ≤ c → exec (.coreRunWrite c v) s = .next s ∧ exec (.memCfgWrite c v) s = .next s) ∧
  (∀ (s : State) (c : Nat), (s.cluster c).memTarget = none → exec (.memCfgDone c) s = .next s) ∧
  (∀ (s : State) (c w : Nat), (s.cluster c).memTarget = some w →
    ∃ t, exec (.memCfgDone c) s = .next t ∧ (t.cluster c).memTarget = none ∧ (t.cluster c).scratchWays = w ∧
      (∀ o, w * 131072 ≤ o → (t.cluster c).scratch.get 0 o = 0) ∧ (∀ o, o < w * 131072 → (t.cluster c).scratch.get 0 o = (s.cluster c).scratch.get 0 o) ∧
      t.regs = s.regs ∧ t.mem = s.mem)

/-- Values and events across a crossing (R30-R34, R36): a value toward an off domain or a pair in reset ends at once; a running clock delivers a value
that two samples agree on and ends one that never agrees with XE_RESAMPLE; a stopped one holds it and asks for a wake, which the clock's return
completes. An event sends a toggle, or is counted at the source while one is out, up to 15; a further one is lost with XE_PULSE_OVF and marked, one
toward an off domain ends at once, and one toward a pair in reset is discarded and marked; the acknowledgement delivers what the toggle carried and
the count goes on the next. What names no crossing changes nothing. A crossing's timeout withdraws the waiting value, or the toggle that a stopped
clock has not taken, with XE_TIMEOUT (R33); with neither it changes nothing. Completes: crossingValueTransfer, islandClockCapture,
crossingEventToggle, crossingEventAck, xeTimeout. Where the spec leaves a point open it follows the model's choice in log entries 62, 70, 89, 103,
127. -/
def Obligations.Crossings : Prop :=
  (∀ (s : State) (i k v w : Nat) (l : List Nat) (g : Option Nat), isCrossing i k = true → s.islandOn i = true → (s.island i).inReset = false →
    (s.island i).clkRun = true → acceptSample v l = some w → exec (.crossingValueTransfer i k ⟨v, g⟩ l) s = .next (s.emit (.crossed i k w))) ∧
  (∀ (s : State) (i k v : Nat) (l : List Nat) (g : Option Nat), isCrossing i k = true → s.islandOn i = true → (s.island i).inReset = false →
    (s.island i).clkRun = true → acceptSample v l = none → exec (.crossingValueTransfer i k ⟨v, g⟩ l) s = .next (s.xeFails i k 1 g).restartPump) ∧
  (∀ (s : State) (i k v : Nat) (l : List Nat) (g : Option Nat), isCrossing i k = true → s.islandOn i = false →
    exec (.crossingValueTransfer i k ⟨v, g⟩ l) s = .next (s.xeFails i k 3 g)) ∧
  (∀ (s : State) (i k v : Nat) (l : List Nat) (g : Option Nat), isCrossing i k = true → s.islandOn i = true → (s.island i).inReset = true →
    exec (.crossingValueTransfer i k ⟨v, g⟩ l) s = .next (s.xeFails i k 4 g)) ∧
  (∀ (s : State) (i k v : Nat) (l : List Nat) (g : Option Nat), isCrossing i k = true → s.islandOn i = true → (s.island i).inReset = false →
    (s.island i).clkRun = false → (s.crossing i k).waiting = none →
    ∃ t, exec (.crossingValueTransfer i k ⟨v, g⟩ l) s = .next t ∧ (t.crossing i k).waiting = some ⟨v, l, g⟩ ∧ (t.island i).clkStop = false ∧ t.regs = s.regs ∧
      t.mem = s.mem ∧ t.out = s.out) ∧
  (∀ (s : State) (i k v : Nat) (l : List Nat) (g : Option Nat), isCrossing i k = true → s.islandOn i = true → (s.island i).inReset = false →
    (s.island i).clkRun = false → (s.crossing i k).waiting.isSome = true → exec (.crossingValueTransfer i k ⟨v, g⟩ l) s = .next s) ∧
  (∀ (s : State) (i k v : Nat) (w : Handshake), isCrossing i k = true → s.islandOn i = true → (s.island i).refOn = true → (s.crossing i k).waiting = some w →
    acceptSample w.value w.samples = some v → linksOf i = [] →
    ∃ t, exec (.islandClockCapture i k) s = .next t ∧ t.out = .crossed i k v :: s.out ∧ (t.crossing i k).waiting = none ∧ (t.island i).clkRun = true ∧
      t.regs = s.regs ∧ t.mem = s.mem) ∧
  (∀ (s : State) (i k : Nat), isCrossing i k = true → s.islandOn i = true → (s.island i).refOn = true → (s.crossing i k).waiting = none →
    (s.crossing i k).toggle = true → (s.island i).clkRun = false → linksOf i = [] →
    exec (.islandClockCapture i k) s = .next (s.setIsland i { s.island i with clkRun := true, clkStop := false })) ∧
  (∀ (s : State) (i k : Nat), (s.islandOn i = false ∨ (s.island i).refOn = false ∨ ((s.crossing i k).waiting = none ∧ (s.crossing i k).toggle = false)) →
    exec (.islandClockCapture i k) s = .next s) ∧
  (∀ (s : State) (i k : Nat), isCrossing i k = true → s.islandOn i = true → (s.island i).inReset = false → (s.crossing i k).toggle = false →
    ∃ t, exec (.crossingEventToggle i k) s = .next t ∧ (t.crossing i k).toggle = true ∧ (t.crossing i k).carried = 1 ∧ t.regs = s.regs ∧ t.mem = s.mem ∧
      t.out = s.out) ∧
  (∀ (s : State) (i k : Nat), isCrossing i k = true → s.islandOn i = true → (s.island i).inReset = false → (s.crossing i k).toggle = true →
    (s.crossing i k).count < 15 →
    ∃ t, exec (.crossingEventToggle i k) s = .next t ∧ t.crossing i k = { s.crossing i k with count := (s.crossing i k).count + 1 } ∧ t.regs = s.regs ∧
      t.out = s.out) ∧
  (∀ (s : State) (i k : Nat), isCrossing i k = true → s.islandOn i = true → (s.island i).inReset = false → (s.crossing i k).toggle = true →
    15 ≤ (s.crossing i k).count → exec (.crossingEventToggle i k) s = .next ((s.setIsland i { s.island i with pulseOvf := BitVec.ofNat 32 ((s.island i).pulseOvf.toNat ||| 2 ^ k) }).xeError i k 5)) ∧
  (∀ (s : State) (i k : Nat), isCrossing i k = true → s.islandOn i = false → exec (.crossingEventToggle i k) s = .next (s.xeError i k 3)) ∧
  (∀ (s : State) (i k : Nat), isCrossing i k = true → s.islandOn i = true → (s.island i).inReset = true →
    exec (.crossingEventToggle i k) s = .next (s.setIsland i { s.island i with pulseLost := true })) ∧
  (∀ (s : State) (i k v : Nat) (l : List Nat) (g : Option Nat), isCrossing i k = false → exec (.crossingValueTransfer i k ⟨v, g⟩ l) s = .next s ∧
    exec (.crossingEventToggle i k) s = .next s ∧ exec (.crossingEventAck i k) s = .next s ∧ exec (.islandClockCapture i k) s = .next s ∧
    exec (.xeTimeout i k) s = .next s) ∧
  (∀ (s : State) (i k : Nat), ((s.crossing i k).toggle = false ∨ (s.island i).clkRun = false ∨ (s.island i).inReset = true) →
    exec (.crossingEventAck i k) s = .next s) ∧
  (∀ (s : State) (i k : Nat), isCrossing i k = true → (s.crossing i k).toggle = true → (s.island i).clkRun = true → (s.island i).inReset = false →
    ∃ t, exec (.crossingEventAck i k) s = .next t ∧ t.out = .pulses i k (s.crossing i k).carried :: s.out ∧
      (t.crossing i k).carried = (s.crossing i k).count ∧ (t.crossing i k).count = 0 ∧ ((t.crossing i k).toggle = true ↔ (s.crossing i k).count ≠ 0) ∧
      t.regs = s.regs ∧ t.mem = s.mem) ∧
  (∀ (s : State) (i k : Nat) (w : Handshake), isCrossing i k = true → (s.crossing i k).waiting = some w →
    exec (.xeTimeout i k) s = .next ((s.setCrossing i k { s.crossing i k with waiting := none }).xeFails i k 2 w.engine).restartPump ∧
    ((s.setCrossing i k { s.crossing i k with waiting := none }).xeFails i k 2 w.engine).crossing i k = { s.crossing i k with waiting := none }) ∧
  (∀ (s : State) (i k : Nat), isCrossing i k = true → (s.crossing i k).waiting = none → (s.crossing i k).toggle = true → (s.island i).clkRun = false →
    exec (.xeTimeout i k) s = .next ((s.setCrossing i k {}).xeError i k 2).restartPump) ∧
  (∀ (s : State) (i k : Nat), (s.crossing i k).waiting = none → ((s.crossing i k).toggle = false ∨ (s.island i).clkRun = true) →
    exec (.xeTimeout i k) s = .next s)

/-- Island clocks and paired resets (R29, R34-R36). CLK_STOP is recorded, but a wake request that is pending wins; the clock stops once CLK_STOP is set
and every crossing is idle, and not before. A lost reference stops every island on it: CI21, CI22 and CI24 share one. A pair reset holds the island,
and its release clears every toggle and count; a held value ends with XE_IN_RESET when the reset begins; a pair that only PORST_N resets is not reset
and the write is counted; a release without a reset is nothing, as is any of these of no island. Completes: clkStopWrite, islandClockStop,
islandRefClockLoss, pairReset, pairResetRelease. Where the spec leaves a point open it follows the model's choice in log entries 89, 105, 127. -/
def Obligations.Islands : Prop :=
  (∀ (s : State) (i : Nat), isIsland i = true → Reaches s pgXING → ((s.island i).clkRun = true ∨ s.crossIdle i = true) →
    exec (.clkStopWrite i) s = .next (s.setIsland i { s.island i with clkStop := true })) ∧
  (∀ (s : State) (i : Nat), isIsland i = true → Reaches s pgXING → (s.island i).clkRun = false → s.crossIdle i = false →
    exec (.clkStopWrite i) s = .next s) ∧
  (∀ (s : State) (i : Nat), isIsland i = true → (s.island i).clkStop = true → (s.island i).clkRun = true → s.crossIdle i = true →
    exec (.islandClockStop i) s = .next (s.setIsland i { s.island i with clkRun := false })) ∧
  (∀ (s : State) (i : Nat), ((s.island i).clkStop = false ∨ (s.island i).clkRun = false ∨ s.crossIdle i = false) →
    exec (.islandClockStop i) s = .next s) ∧
  (∀ (s : State) (i : Nat), isIsland i = true → i ∉ [21, 22, 24] →
    exec (.islandRefClockLoss i) s = .next (s.setIsland i { s.island i with clkRun := false, refOn := false })) ∧
  (∀ (s : State) (i : Nat), i ∈ [21, 22, 24] → exec (.islandRefClockLoss i) s = exec .timebaseRefLost s) ∧
  (∀ (s : State) (i : Nat), isIsland i = true → Reaches s pgXING → fixedPair i = false → (∀ k, k < 32 → (s.crossing i k).waiting = none) → linksOf i = [] →
    i ≠ 9 → i ≠ 10 → s.plat.chip.restartReq = none → exec (.pairReset i) s = .next (s.setIsland i { s.island i with inReset := true })) ∧
  (∀ (s : State) (i : Nat), isIsland i = true → Reaches s pgXING → fixedPair i = false → s.plat.chip.restartReq = none →
    ∃ t, exec (.pairReset i) s = .next t ∧ (t.island i).inReset = true ∧ (∀ k, k < 32 → (t.crossing i k).waiting = none) ∧
      (∀ m, m ∈ linksOf i → (t.link m).st = lkDown)) ∧
  (∀ (s : State) (i : Nat), isIsland i = true → Reaches s pgXING → fixedPair i = true → s.plat.chip.restartReq = none →
    exec (.pairReset i) s = .next (s.bump (fXING_ISL_ERR_CNT_COUNT i))) ∧
  (∀ (s : State) (i : Nat), isIsland i = true → linksOf i = [] → (s.island i).inReset = true →
    ∃ t, exec (.pairResetRelease i) s = .next t ∧ (t.island i).inReset = false ∧ (∀ k, k < 32 → t.crossing i k = {}) ∧ t.regs = s.regs ∧ t.mem = s.mem) ∧
  (∀ (s : State) (i : Nat), isIsland i = true → (s.island i).inReset = true →
    ∃ t, exec (.pairResetRelease i) s = .next t ∧ (t.island i).inReset = false ∧ (∀ k, k < 32 → t.crossing i k = {})) ∧
  (∀ (s : State) (i : Nat), isIsland i = true → Reaches s pgXING → exec (.pairReset i) s = .next (s.pairStart i).restartPump) ∧
  (∀ (s : State) (i : Nat), isIsland i = false → exec (.clkStopWrite i) s = .next s ∧ exec (.islandClockStop i) s = .next s ∧
    exec (.islandRefClockLoss i) s = .next s ∧ exec (.pairReset i) s = .next s ∧ exec (.pairResetRelease i) s = .next s) ∧
  (∀ (s : State) (i : Nat), isIsland i = true → (s.island i).inReset = false → exec (.pairResetRelease i) s = .next s)

/-! ### The settings store (R63-R65) -/

/-- The settings store (R63-R65). An operation starts and runs until STORE_OP_DONE; while one runs, a second ends at once with LAST_RESULT 1, and after
POWER_FAIL_N any ends with 2 and starts nothing. COMMIT with no VALID slot ends at once with 0, and DISCARD clears every VALID bit at once. When done,
a selection has changed the boot bank and no row; a COMMIT of one slot has written its row, cleared the VALID bits and changed no other row; a copy
has made each row of the bank it writes equal to the other bank's; a row that fails its verify gives LAST_RESULT 3, and every other row of the
operation is written. STORE_OP_DONE with nothing running is nothing. LOCK sets LOCKED. Completes: storeSelectA, storeSelectB, storeCopyAToB,
storeCopyBToA, storeCommit, storeDiscard, storeOpDone, storeLock. Where the spec leaves a point open it follows the model's choice in log entries 66,
89. -/
def Obligations.StoreOperations : Prop :=
  (∀ (s : State) (c : Instr) (op : Nat), (c, op) ∈ [(.storeSelectA, 2), (.storeSelectB, 3), (.storeCopyAToB, 4), (.storeCopyBToA, 5)] →
    Reaches s pgSTORE → s.plat.store.busy = none → s.plat.pwr.powerFail = false →
    exec c s = .next { s with plat.store.lastOp := op, plat.store.busy := some op }) ∧
  (∀ (s : State) (c : Instr) (op : Nat),
    (c, op) ∈ [(.storeCommit, 1), (.storeSelectA, 2), (.storeSelectB, 3), (.storeCopyAToB, 4), (.storeCopyBToA, 5), (.storeDiscard, 6)] →
    Reaches s pgSTORE → s.plat.store.busy.isSome = true → exec c s = .next { s with plat.store.lastOp := op, plat.store.lastResult := 1 }) ∧
  (∀ (s : State) (c : Instr) (op : Nat),
    (c, op) ∈ [(.storeCommit, 1), (.storeSelectA, 2), (.storeSelectB, 3), (.storeCopyAToB, 4), (.storeCopyBToA, 5), (.storeDiscard, 6)] →
    Reaches s pgSTORE → s.plat.store.busy = none → s.plat.pwr.powerFail = true →
    exec c s = .next { s with plat.store.lastOp := op, plat.store.lastResult := 2 }) ∧
  (∀ (s : State), Reaches s pgSTORE → s.plat.store.busy = none → s.plat.pwr.powerFail = false → s.storeWrites 1 ≠ [] →
    exec .storeCommit s = .next { s with plat.store.lastOp := 1, plat.store.busy := some 1 }) ∧
  (∀ (s : State), Reaches s pgSTORE → s.plat.store.busy = none → s.plat.pwr.powerFail = false → s.storeWrites 1 = [] →
    exec .storeCommit s = .next { s with plat.store.lastOp := 1, plat.store.lastResult := 0 }) ∧
  (∀ (s : State), Reaches s pgSTORE → s.plat.store.busy = none → s.plat.pwr.powerFail = false →
    ∃ t, exec .storeDiscard s = .next t ∧ (∀ i, i < 64 → t.stageRow i = none) ∧ t.plat.store.lastOp = 6 ∧ t.plat.store.lastResult = 0 ∧
      t.plat.store.busy = none ∧ t.plat.store.rows = s.plat.store.rows ∧ t.regs = s.regs ∧ t.mem = s.mem) ∧
  (∀ (s : State) (op b : Nat), s.plat.store.busy = some op → (op, b) ∈ [(2, 0), (3, 1)] → s.plat.chip.restartReq = none →
    ∃ t, exec (.storeOpDone none) s = .next t ∧ t.plat.store.bootBank = b ∧ t.plat.store.busy = none ∧ t.plat.store.lastResult = 0 ∧
      t.plat.store.rows = s.plat.store.rows ∧ t.regs = s.regs ∧ t.mem = s.mem) ∧
  (∀ (s : State) (r d : Nat), s.plat.store.busy = some 1 → s.plat.chip.restartReq = none → s.storeWrites 1 = [(r, d)] →
    ∃ t, exec (.storeOpDone none) s = .next t ∧ t.plat.store.rows.get 0 r = d ∧ (∀ q, q ≠ r → t.plat.store.rows.get 0 q = s.plat.store.rows.get 0 q) ∧
      (∀ i, i < 64 → t.stageRow i = none) ∧ t.plat.store.busy = none ∧ t.plat.store.lastResult = 0 ∧ t.regs = s.regs ∧ t.mem = s.mem) ∧
  (∀ (s : State) (k : Nat), s.plat.store.busy = some 4 → s.plat.chip.restartReq = none → k < 65536 →
    ∃ t, exec (.storeOpDone none) s = .next t ∧ t.plat.store.rows.get 0 (65536 + k) = s.plat.store.rows.get 0 k ∧
      t.plat.store.rows.get 0 k = s.plat.store.rows.get 0 k ∧ t.plat.store.busy = none ∧ t.plat.store.lastResult = 0) ∧
  (∀ (s : State) (k : Nat), s.plat.store.busy = some 5 → s.plat.chip.restartReq = none → k < 65536 →
    ∃ t, exec (.storeOpDone none) s = .next t ∧ t.plat.store.rows.get 0 k = s.plat.store.rows.get 0 (65536 + k) ∧
      t.plat.store.rows.get 0 (65536 + k) = s.plat.store.rows.get 0 (65536 + k) ∧ t.plat.store.busy = none ∧ t.plat.store.lastResult = 0) ∧
  (∀ (s : State) (r op : Nat), s.plat.store.busy = some op → s.plat.chip.restartReq = none → (s.storeWrites op).any (fun w => decide (w.1 = r)) = true →
    ∃ t, exec (.storeOpDone (some r)) s = .next t ∧ t.plat.store.busy = none ∧ t.plat.store.lastResult = 3 ∧
      (∀ q, q ≠ r → t.plat.store.rows.get 0 q = (((s.storeWrites op).filter (fun w => decide (w.1 ≠ r))).foldl State.storeRow s).plat.store.rows.get 0 q)) ∧
  (∀ (s : State) (v : Option Nat) (op : Nat), s.plat.store.busy = some op → exec (.storeOpDone v) s = .next (s.storeDone op v).restartPump) ∧
  (∀ (s : State) (v : Option Nat), s.plat.store.busy = none → exec (.storeOpDone v) s = .next s) ∧
  (∀ (s : State), Reaches s pgSTORE → exec .storeLock s = .next (s.setReg rSTORE_LOCK 1))

/-! ### Start-up, resets and the watchdog (R431, R434, R439, R446, R457, R462) -/

/-- START_STAGE (R431): 5 and 6 are taken only above the current value, 14 only below 6 and with START_ERR 0x04, and every other write is ignored. A write
of 6 clears the boot-attempt count, and the watchdog goes on counting only with RUN_EN = 1. Completes: startStageWrite. -/
def Obligations.StartStage : Prop :=
  ∀ (s : State) (v : Nat), Reaches s pgCHIP → v < 16 →
    (v = 5 → s.plat.chip.stage < 5 → exec (.startStageWrite v) s = .next { s with plat.chip.stage := 5 }) ∧
    (v = 6 → s.plat.chip.stage < 6 → exec (.startStageWrite v) s =
      .next { s with plat.chip.stage := 6, upd.tries := 0, plat.chip.wdogCounting := s.plat.chip.runEn, plat.chip.wdogFrom := s.now }) ∧
    (v = 14 → s.plat.chip.stage < 6 → exec (.startStageWrite v) s = .next { s with plat.chip.stage := 14, plat.chip.startErr := 4 }) ∧
    ((v = 5 ∨ v = 6) → v ≤ s.plat.chip.stage → exec (.startStageWrite v) s = .next s) ∧
    (v = 14 → 6 ≤ s.plat.chip.stage → exec (.startStageWrite v) s = .next s) ∧
    (v ≠ 5 → v ≠ 6 → v ≠ 14 → exec (.startStageWrite v) s = .next s)

/-- PORST_N low resets the chip at once (R457): no command runs, the timebase is 0, EVT.EPOCH keeps its value, and with no store operation running the
settings store keeps its rows. Its release starts the chip, and PORST_N_RELEASE while PORST_N is high is nothing. POWER_GOOD at the end of Cold starts
the chip with the recorded cause (R407), and at any other time is nothing. Warm restart (R439, R445): only the key 0x5752 with WARM = 1 requests one.
The request stops NVF admission at once; the restart waits for a running store operation and for the dump, and once nothing is awaited it ends every
command and starts the chip with its cause: 2 for the key, 4 for the watchdog, 5 after a chip-fatal error. A request while one waits changes nothing
but what the start will find. WATCHDOG_EXPIRY with the watchdog not counting, or with no timeout, is nothing. Completes: porstNAssert, porstNRelease,
powerGoodAssert, warmRestart, watchdogExpiry. Where the spec leaves a point open it follows the model's choice in log entries 3, 63, 64, 66. -/
def Obligations.PowerOnReset : Prop :=
  (∀ (s : State), s.plat.store.busy = none → ∃ t, exec .porstNAssert s = .next t ∧ t.plat.chip.porstLow = true ∧ t.plat.evt.running = [] ∧
    t.plat.time.now = 0 ∧ t.plat.store.rows = s.plat.store.rows ∧ t.plat.evt.epoch = s.plat.evt.epoch) ∧
  (∀ (s : State) (op : Nat), s.plat.store.busy = some op → exec .porstNAssert s = .next { (s.storeCut (s.storeWrites op) (storeBank op)).startReset .power 0 0 with plat.evt.epoch := s.plat.evt.epoch, plat.chip.porstLow := true }) ∧
  (∀ (s : State) (e : BootEnv), s.plat.chip.porstLow = true →
    exec (.porstNRelease e) s = .next (({ s with plat.chip.env := e } : State).start .power 0 0)) ∧
  (∀ (s : State) (e : BootEnv), s.plat.chip.porstLow = false → exec (.porstNRelease e) s = .next s) ∧
  (∀ (s : State) (e : BootEnv), s.plat.pwr.cold = true → s.plat.pwr.waking = true →
    exec (.powerGoodAssert e) s = .next (({ s with plat.chip.env := e } : State).start .cold 1 s.plat.pwr.coldCause)) ∧
  (∀ (s : State) (e : BootEnv), s.plat.pwr.cold = false ∨ s.plat.pwr.waking = false → exec (.powerGoodAssert e) s = .next s) ∧
  (∀ (s : State) (v : Nat) (e : BootEnv), Reaches s pgCHIP → warmKey v = false → exec (.warmRestart v e) s = .next s) ∧
  (∀ (s : State) (v : Nat) (e : BootEnv), Reaches s pgCHIP → warmKey v = true → s.plat.chip.restartReq = none → s.restartWaits = true →
    exec (.warmRestart v e) s = .next { s with plat.chip.env := e, plat.chip.restartReq := some (if s.plat.chip.fatal ≠ 0 then 5 else 2), plat.chip.admissionStopped := true }) ∧
  (∀ (s : State) (v : Nat) (e : BootEnv), Reaches s pgCHIP → warmKey v = true → s.plat.chip.restartReq = none → s.restartWaits = false →
    exec (.warmRestart v e) s = .next (({ s with plat.chip.env := e, plat.chip.restartReq := some (if s.plat.chip.fatal ≠ 0 then 5 else 2), plat.chip.admissionStopped := true } : State).restartsNow (if s.plat.chip.fatal ≠ 0 then 5 else 2))) ∧
  (∀ (s : State) (v c : Nat) (e : BootEnv), Reaches s pgCHIP → warmKey v = true → s.plat.chip.restartReq = some c → s.restartWaits = true →
    exec (.warmRestart v e) s = .next { s with plat.chip.env := e }) ∧
  (∀ (s : State) (v c : Nat) (e : BootEnv), Reaches s pgCHIP → warmKey v = true → s.plat.chip.restartReq = some c → s.restartWaits = false →
    exec (.warmRestart v e) s = .next (({ s with plat.chip.env := e } : State).restartsNow c)) ∧
  (∀ (s : State), s.plat.chip.wdogCounting = true → s.wdogTimeout ≠ 0 → s.plat.chip.restartReq = none → s.plat.chip.fatal = 0 → s.restartWaits = true →
    exec .watchdogExpiry s = .next { s with plat.chip.restartReq := some 4, plat.chip.admissionStopped := true }) ∧
  (∀ (s : State), s.plat.chip.wdogCounting = true → s.wdogTimeout ≠ 0 → s.plat.chip.restartReq = none → s.plat.chip.fatal = 0 → s.restartWaits = false →
    exec .watchdogExpiry s = .next (({ s with plat.chip.restartReq := some 4, plat.chip.admissionStopped := true } : State).restartsNow 4)) ∧
  (∀ (s : State), s.plat.chip.wdogCounting = false ∨ s.wdogTimeout = 0 → exec .watchdogExpiry s = .next s)

/-- The start-up watchdog (R446): a kick restarts the count in stage 6 and has no effect in any other; RUN_EN is stored, starts the count when it rises in
stage 6, and stops it there; TIMEOUT_S takes 16 bits, and a count that has reached the new timeout requests a warm restart with cause 4. The TAP
(R462): TRST clears the instruction register; an instruction is taken, and counted while PORST_N is high. Completes: watchdogKick, watchdogRunEn,
watchdogTimeoutWrite, jtagTrst, jtagInstruction. Where the spec leaves a point open it follows the model's choice in log entry 76. -/
def Obligations.WatchdogAndTap : Prop :=
  (∀ (s : State), Reaches s pgCHIP → s.plat.chip.stage = 6 → exec .watchdogKick s = .next { s with plat.chip.wdogFrom := s.now }) ∧
  (∀ (s : State), Reaches s pgCHIP → s.plat.chip.stage ≠ 6 → exec .watchdogKick s = .next s) ∧
  (∀ (s : State), Reaches s pgCHIP → s.plat.chip.stage = 6 → s.plat.chip.runEn = false →
    exec (.watchdogRunEn true) s = .next { s with plat.chip.runEn := true, plat.chip.wdogCounting := true, plat.chip.wdogFrom := s.now }) ∧
  (∀ (s : State), Reaches s pgCHIP → s.plat.chip.runEn = true → exec (.watchdogRunEn true) s = .next s) ∧
  (∀ (s : State), Reaches s pgCHIP → s.plat.chip.stage = 6 →
    exec (.watchdogRunEn false) s = .next { s with plat.chip.runEn := false, plat.chip.wdogCounting := false }) ∧
  (∀ (s : State) (b : Bool), Reaches s pgCHIP → s.plat.chip.stage ≠ 6 → exec (.watchdogRunEn b) s = .next { s with plat.chip.runEn := b }) ∧
  (∀ (s : State) (v : Nat), Reaches s pgCHIP → (s.plat.chip.wdogCounting = false ∨ ({ s with plat.chip.timeoutS := v % 65536 } : State).wdogTimeout = 0 ∨
      s.now - s.plat.chip.wdogFrom < ({ s with plat.chip.timeoutS := v % 65536 } : State).wdogTimeout * 10 ^ 9) →
    exec (.watchdogTimeoutWrite v) s = .next { s with plat.chip.timeoutS := v % 65536 }) ∧
  (∀ (s : State) (v : Nat), Reaches s pgCHIP → s.plat.chip.wdogCounting = true → ({ s with plat.chip.timeoutS := v % 65536 } : State).wdogTimeout ≠ 0 →
    ({ s with plat.chip.timeoutS := v % 65536 } : State).wdogTimeout * 10 ^ 9 ≤ s.now - s.plat.chip.wdogFrom →
    exec (.watchdogTimeoutWrite v) s = .next (({ s with plat.chip.timeoutS := v % 65536 } : State).requestRestart 4)) ∧
  (∀ (s : State), exec .jtagTrst s = .next { s with plat.pins.tapIr := 0 }) ∧
  (∀ (s : State) (ir : Nat), s.plat.chip.porstLow = false →
    exec (.jtagInstruction ir) s = .next { s with plat.pins.tapIr := ir, plat.pins.dbgCount := s.plat.pins.dbgCount + 1 }) ∧
  (∀ (s : State) (ir : Nat), s.plat.chip.porstLow = true → exec (.jtagInstruction ir) s = .next { s with plat.pins.tapIr := ir })

/-! ### The transport (R67-R94) -/

/-- A new packet of a live association that LDT takes. -/
abbrev Fresh (s : State) (p : LdtPkt) : Prop :=
  s.assocLive p.assoc = true ∧ s.blk pgLDT = .run ∧ (s.countRx p).rxSort p.assoc p.psn = .fresh

/-- Frames at a port (R62, R67, R82, R134, R347). An LDT datagram with a good UDP checksum waits in the port's holding buffer, and is dropped and counted
where that buffer is full or the checksum is bad; an NVMe/TCP segment to a local address enters the switch toward its connection; an IEEE 1588 event
message gets its receive timestamp and goes to the service port; any other frame goes through the switch to the control cores. A member of the peer
link counts what is not LDT. A port that does not work takes nothing. A held datagram whose tag verifies under the current key half enters the switch;
one for an association that is not live, or that no index names, and one whose tag fails, is counted and dropped. Completes: hportFrameReceive. Where
the spec leaves a point open it follows the model's choice in log entries 23, 77, 95, 121. -/
def Obligations.PortFrames : Prop :=
  (∀ (s : State) (port : Nat) (f : List Byte), port < 0x20 → s.working (portPage port) = true → l4Of f = none → (etherOf f).map Prod.fst ≠ some 0x88F7 →
    exec (.hportFrameReceive port f) s = .next (s.frameInput (coreFrame (portEp port) f))) ∧
  (∀ (s : State) (port : Nat) (f m : List Byte), port < 0x20 → s.working (portPage port) = true → l4Of f = none → etherOf f = some (0x88F7, m) →
    m.getD 0 0 &&& 0x08 = 0 → exec (.hportFrameReceive port f) s = .next ((s.emit (.value s.now)).emit (.frameTo port 2 f))) ∧
  (∀ (s : State) (port : Nat) (f : List Byte) (l : L4), port < 0x20 → s.working (portPage port) = true → l4Of f = some l → l.proto = 17 → l.dport = 319 →
    s.fld fLDT_CTRL_UDP_PORT ≠ 319 → exec (.hportFrameReceive port f) s = .next ((s.emit (.value s.now)).emit (.frameTo port 2 f))) ∧
  (∀ (s : State) (port : Nat) (f : List Byte) (l : L4), port < 0x20 → s.working (portPage port) = true → l4Of f = some l → s.localAddr port l.dst = false →
    (l.proto = 17 → l.dport ≠ 319) → exec (.hportFrameReceive port f) s = .next (s.frameInput (coreFrame (portEp port) f))) ∧
  (∀ (s : State) (port : Nat) (f : List Byte) (l : L4), port < 0x20 → s.working (portPage port) = true → l4Of f = some l → l.proto = 6 →
    l.dport = s.fld fNVTCP_CTRL_PORT → s.localAddr port l.dst = true → exec (.hportFrameReceive port f) s = .next (s.frameInput (s.tcpFrame port f l))) ∧
  (∀ (s : State) (port : Nat) (f : List Byte) (l : L4), port < 0x24 → s.working (portPage port) = true → l4Of f = some l → l.proto = 17 →
    l.dport = s.fld fLDT_CTRL_UDP_PORT → s.localAddr port l.dst = true → udpGood l = true →
    s.holdUse (portPage port) + ((l.body.take (unBe (slice l.body 4 2))).drop 8).length ≤ 131072 →
    exec (.hportFrameReceive port f) s = .next { s with ldt.holding := s.ldt.holding ++ [⟨port, f, (l.body.take (unBe (slice l.body 4 2))).drop 8, l.ecn⟩] }) ∧
  (∀ (s : State) (port : Nat) (f : List Byte) (l : L4), port < 0x24 → s.working (portPage port) = true → l4Of f = some l → l.proto = 17 →
    l.dport = s.fld fLDT_CTRL_UDP_PORT → s.localAddr port l.dst = true → udpGood l = true →
    131072 < s.holdUse (portPage port) + ((l.body.take (unBe (slice l.body 4 2))).drop 8).length →
    exec (.hportFrameReceive port f) s = .next (s.portBump port fHPORT_HOLD_DROP fPLINK_HOLD_DROP)) ∧
  (∀ (s : State) (port : Nat) (f : List Byte) (l : L4), port < 0x24 → s.working (portPage port) = true → l4Of f = some l → l.proto = 17 →
    l.dport = s.fld fLDT_CTRL_UDP_PORT → s.localAddr port l.dst = true → udpGood l = false →
    exec (.hportFrameReceive port f) s = .next (s.portBump port fHPORT_CSUM_ERR fPLINK_CSUM_ERR)) ∧
  (∀ (s : State) (m : Nat) (f : List Byte), m < 4 → s.working (pgPLINK m) = true → l4Of f = none →
    exec (.hportFrameReceive (0x20 + m) f) s = .next (s.bump (fPLINK_NOT_LDT m))) ∧
  (∀ (s : State) (port : Nat) (f : List Byte), (0x24 ≤ port ∨ s.working (portPage port) = false) → exec (.hportFrameReceive port f) s = .next s) ∧
  (∀ (s : State) (port a ecn : Nat) (f u pt : List Byte) (k : DirKey), s.blk pgLDT = .run → unBe (slice u 2 2) = a → a < 4096 → s.assocLive a = true →
    (s.ax a).curPhase = decide ((u.getD 0 0).toNat / 8 % 2 = 1) → (s.akey a).cur.rx = some k →
    gcmOpen k.key (k.salt ++ slice u 4 8) (u.take 12) ((u.drop 12).take ((u.drop 12).length - 16)) ((u.drop 12).drop ((u.drop 12).length - 16)) = some pt →
    pktMalformed s.maxPayload ((u.getD 0 0).toNat / 16) pt = false →
    s.ldtDatagram port f u ecn = s.frameInput (s.ldtFrame port a f u ecn pt)) ∧
  (∀ (s : State) (port a ecn : Nat) (f u : List Byte) (k : DirKey), s.blk pgLDT = .run → unBe (slice u 2 2) = a → a < 4096 → s.assocLive a = true →
    (s.ax a).curPhase = decide ((u.getD 0 0).toNat / 8 % 2 = 1) → (s.akey a).cur.rx = some k →
    gcmOpen k.key (k.salt ++ slice u 4 8) (u.take 12) ((u.drop 12).take ((u.drop 12).length - 16)) ((u.drop 12).drop ((u.drop 12).length - 16)) = none →
    s.ldtDatagram port f u ecn = ((s.portBump port fHPORT_TAG_FAIL fPLINK_TAG_FAIL).bump fLDT_TAG_FAIL).modAx a (fun x => { x with tagFail := satAdd 32 x.tagFail 1 })) ∧
  (∀ (s : State) (port ecn : Nat) (f u : List Byte), s.blk pgLDT = .run → unBe (slice u 2 2) < 4096 → s.assocLive (unBe (slice u 2 2)) = false →
    s.ldtDatagram port f u ecn = s.bump fLDT_NO_ASSOC) ∧
  (∀ (s : State) (port ecn : Nat) (f u : List Byte), s.blk pgLDT = .run → 4096 ≤ unBe (slice u 2 2) → unBe (slice u 2 2) ≠ 0xFFFF →
    s.ldtDatagram port f u ecn = (s.portBump port fHPORT_TAG_FAIL fPLINK_TAG_FAIL).bump fLDT_TAG_FAIL)

/-- Handshake packets (R77, R80, R469): a received one is stored in the next slot of its ring and HS_RX is posted; a full ring of 256 or a packet above
2,048 bytes drops it, and so does an LDT that handles no traffic, each with its count. HS_SEND sends one datagram and completes, on the peer link
through the member of its flow; a length outside 12 to 2,048, a port above 0x20 or a packet that HBM cannot read is refused. Completes: hsRx, hsSend.
Where the spec leaves a point open it follows the model's choice in log entries 11, 95, 107, 128. -/
def Obligations.Handshakes : Prop :=
  (∀ (s : State) (port udp : Nat) (ip pl : List Byte), s.blk pgLDT = .run → pl.length ≤ 2048 → s.ldt.hsCount < 256 →
    exec (.hsRx port ip udp pl) s = .next (((({ s with ldt.hsCount := s.ldt.hsCount + 1 } : State).hbmWrite (s.reg64 rLDT_HS_BASE + 2048 * s.fld fLDT_HS_PROD) pl).setFld fLDT_HS_PROD
      ((s.fld fLDT_HS_PROD + 1) % 256)).event pgLDT 3
      (le 2 (s.fld fLDT_HS_PROD) ++ le 2 pl.length ++ le 1 port ++ zeros 3 ++ fitBytes 16 ip ++ le 2 udp))) ∧
  (∀ (s : State) (port udp : Nat) (ip pl : List Byte), s.blk pgLDT = .run → 2048 < pl.length ∨ 256 ≤ s.ldt.hsCount →
    exec (.hsRx port ip udp pl) s = .next (s.bump fLDT_HS_DROP)) ∧
  (∀ (s : State) (port udp : Nat) (ip pl : List Byte), s.ldtOn = false → exec (.hsRx port ip udp pl) s = .next (s.bump fLDT_QUIESCE_DROP)) ∧
  (∀ (s : State) (h : CmdHdr) (port len addr : Nat) (ip : List Byte), Ready s h pgLDT pgLDT .work → 12 ≤ len → len ≤ 2048 → port < 0x20 →
    s.hbmErr addr len = false →
    ∃ (t : State) (d : Datagram), exec (.hsSend h port len addr ip) s = .next (t.ends pgLDT h stOk) ∧ t = s.consume.emit (.datagram d) ∧ d.payload = s.hbmRead addr len ∧
      d.remoteIp = ip ∧ d.srcPort = 0xC000 ∧ d.port = port) ∧
  (∀ (s : State) (h : CmdHdr) (len addr : Nat) (ip : List Byte), Ready s h pgLDT pgLDT .work → 12 ≤ len → len ≤ 2048 → s.hbmErr addr len = false →
    exec (.hsSend h 0x20 len addr ip) s = .next ((s.consume.sendDatagram (s.consume.udpDatagram 0x20 0 [] (s.regBytes16 (rPLINK_IP_ADDR 0)) ip 0xC000
      (s.hbmRead addr len))).ends pgLDT h stOk)) ∧
  (∀ (s : State) (h : CmdHdr) (port len addr : Nat) (ip : List Byte), Ready s h pgLDT pgLDT .work → (len < 12 ∨ 2048 < len ∨ 0x20 < port ∨ s.hbmErr addr len = true) →
    exec (.hsSend h port len addr ip) s = .next (s.consume.ends pgLDT h 3))

/-- The commands that receive a sequenced packet. -/
abbrev sequencedCmds (p : LdtPkt) (code info : Nat) : List Instr :=
  [.ldtWriteReceive p, .ldtWriteNotifyReceive p, .ldtSendReceive p, .ldtReadReqReceive p, .ldtReadRespReceive p, .ldtCapsuleReceive p,
   .ldtNakReceive p code info, .ldtCloseReceive p]

/-- The next descriptor of a receive queue (R105). -/
abbrev rqSlot (s : State) (r : Nat) : Nat :=
  s.reg64 (rRGN_RQ_BASE r) + 16 * ((s.reg (rRGN_RQ_CONS r)).toNat % 2 ^ s.fld (fRGN_RQ_CFG_SIZE_LOG2 r))

/-- A WRITE, WRITE_NOTIFY, SEND, READ_REQ or CAPSULE packet that begins an operation (R85, R99-R107), with the region check passed or a receive buffer
posted: the operation is held, its payload is stored at the operation's base plus MSG_OFFSET, and the packet is accepted; a later packet of a held
operation is stored and accepted, and one that disagrees with it is malformed. A failed region check is answered with its NAK, a SEND without a buffer
with 0x0021, and a full notification queue or an RGN that does not run drops the packet with its count. A duplicate of any sequenced packet is only
acknowledged; one outside the window, of an association that is not live, or at an LDT that handles no traffic is counted; and a quiescing LDT begins
no operation. A packet's bytes go to the operation's base plus MSG_OFFSET, and nowhere else in HBM (R99), but for the 32 bytes of the region's entry,
whose pins a finished WRITE gives back. Completes: ldtWriteReceive, ldtWriteNotifyReceive, ldtReadReqReceive, ldtSendReceive, ldtCapsuleReceive. Where
the spec leaves a point open it follows the model's choice in log entries 3, 95, 128. -/
def Obligations.OperationPackets : Prop :=
  (∀ (s : State) (p : LdtPkt) (base : Nat) (nq : Option Nat), Fresh s p → s.tgtOp p = none → s.runs pgRGN = true →
    (s.countRx p).regionCheck p.assoc p.target p.addr p.msgLen 1 = .ok base nq →
    exec (.ldtWriteReceive p) s = .next (((((s.countRx p).pinRegion (p.target / 256)).reserveNq nq).place p
      { kind := 0x10, target := p.target, msgLen := p.msgLen, addr := p.addr, imm := p.imm, holds := some (p.target / 256), base := base, nq := nq }).acceptPkt p)) ∧
  (∀ (s : State) (p : LdtPkt) (base : Nat) (nq : Option Nat), Fresh s p → s.tgtOp p = none → s.runs pgRGN = true →
    (s.countRx p).regionCheck p.assoc p.target p.addr p.msgLen 5 = .ok base nq →
    exec (.ldtWriteNotifyReceive p) s = .next (((((s.countRx p).pinRegion (p.target / 256)).reserveNq nq).place p
      { kind := 0x11, target := p.target, msgLen := p.msgLen, addr := p.addr, imm := p.imm, holds := some (p.target / 256), base := base, nq := nq }).acceptPkt p)) ∧
  (∀ (s : State) (p : LdtPkt) (base : Nat) (nq : Option Nat), Fresh s p → s.tgtOp p = none → s.runs pgRGN = true →
    (s.countRx p).regionCheck p.assoc p.target p.addr p.msgLen 2 = .ok base nq →
    exec (.ldtReadReqReceive p) s = .next ((((s.countRx p).pinRegion (p.target / 256)).putTgt p
      { kind := 0x13, target := p.target, msgLen := p.msgLen, addr := p.addr, holds := some (p.target / 256), base := base, reqPsn := p.psn, lastPsn := some p.psn }).acceptPkt p)) ∧
  (∀ (s : State) (p : LdtPkt), Fresh s p → s.tgtOp p = none → s.runs pgRGN = true → p.msgLen ≤ 16777216 → p.target ≤ 63 →
    s.fld (fRGN_RQ_CFG_SIZE_LOG2 p.target) ≠ 0 → s.fld (fRGN_RQ_CFG_ASSOC p.target) = 0xFFFF → s.rqPosted p.target = 0 →
    exec (.ldtSendReceive p) s = .next (((s.countRx p).refuseOp p 0x12 0x0021 0).acceptPkt p)) ∧
  (∀ (s : State) (p : LdtPkt), Fresh s p → s.tgtOp p = none → s.runs pgRGN = true → p.msgLen ≤ 16777216 → p.target ≤ 63 →
    s.fld (fRGN_RQ_CFG_SIZE_LOG2 p.target) ≠ 0 → (s.fld (fRGN_RQ_CFG_ASSOC p.target) = 0xFFFF ∨ s.fld (fRGN_RQ_CFG_ASSOC p.target) = p.assoc) →
    s.rqPosted p.target ≠ 0 → p.msgLen ≤ s.hbmNat (rqSlot s p.target + 8) 4 → s.nqFree (s.fld (fRGN_RQ_CFG_NQ p.target)) = true →
    exec (.ldtSendReceive p) s = .next ((((((s.countRx p).setReg (rRGN_RQ_CONS p.target) (BitVec.ofNat 32 ((s.reg (rRGN_RQ_CONS p.target)).toNat + 1))).reserveNq
      (some (s.fld (fRGN_RQ_CFG_NQ p.target)))).place p { kind := 0x12, target := p.target, msgLen := p.msgLen, addr := s.hbmNat (rqSlot s p.target) 8, imm := s.hbmNat (rqSlot s p.target + 12) 4, base := s.hbmNat (rqSlot s p.target) 8, nq := some (s.fld (fRGN_RQ_CFG_NQ p.target)) })).acceptPkt p)) ∧
  (∀ (s : State) (p : LdtPkt) (o : TgtOp) (c : Instr), c ∈ [.ldtWriteReceive p, .ldtWriteNotifyReceive p, .ldtSendReceive p] → Fresh s p → s.tgtOp p = some o →
    opMalformed o p = false → o.refused = false → exec c s = .next (((s.countRx p).place p o).acceptPkt p)) ∧
  (∀ (s : State) (p : LdtPkt) (o : TgtOp) (c : Instr), c ∈ [.ldtWriteReceive p, .ldtWriteNotifyReceive p, .ldtSendReceive p, .ldtReadReqReceive p, .ldtCapsuleReceive p] →
    Fresh s p → s.tgtOp p = some o → opMalformed o p = true → exec c s = .next ((s.countRx p).malformed p.assoc)) ∧
  (∀ (s : State) (p : LdtPkt) (k info : Nat) (c : Instr) (kind perm : Nat),
    (c, kind, perm) ∈ [(.ldtWriteReceive p, 0x10, 1), (.ldtWriteNotifyReceive p, 0x11, 5), (.ldtReadReqReceive p, 0x13, 2)] → Fresh s p → s.tgtOp p = none →
    s.runs pgRGN = true → (s.countRx p).regionCheck p.assoc p.target p.addr p.msgLen perm = .nak k info →
    exec c s = .next (((s.countRx p).refuseOp p kind k info).acceptPkt p)) ∧
  (∀ (s : State) (p : LdtPkt) (c : Instr) (kind perm : Nat),
    (c, kind, perm) ∈ [(.ldtWriteReceive p, 0x10, 1), (.ldtWriteNotifyReceive p, 0x11, 5), (.ldtReadReqReceive p, 0x13, 2)] → Fresh s p → s.tgtOp p = none →
    s.runs pgRGN = true → (s.countRx p).regionCheck p.assoc p.target p.addr p.msgLen perm = .drop → exec c s = .next ((s.countRx p).bump fRGN_NQ_FULL_DROP)) ∧
  (∀ (s : State) (p : LdtPkt) (c : Instr), c ∈ [.ldtWriteReceive p, .ldtWriteNotifyReceive p, .ldtSendReceive p, .ldtReadReqReceive p] → Fresh s p →
    s.tgtOp p = none → s.runs pgRGN = false → exec c s = .next ((s.countRx p).bump fRGN_NOT_RUN_DROP)) ∧
  (∀ (s : State) (p : LdtPkt), Fresh s p → s.tgtOp p = none → 64 ≤ p.msgLen → p.msgLen ≤ 16777216 → s.runs pgNVF = true → p.target.testBit 31 = false →
    (s.dom (14 + p.target % 2)).st ≠ .draining →
    exec (.ldtCapsuleReceive p) s =
      .next (if ((s.countRx p).ctxPacket p { kind := 0x20, target := p.target, msgLen := p.msgLen } true).2
        then ((s.countRx p).ctxPacket p { kind := 0x20, target := p.target, msgLen := p.msgLen } true).1.acceptPkt p
        else ((s.countRx p).ctxPacket p { kind := 0x20, target := p.target, msgLen := p.msgLen } true).1)) ∧
  (∀ (s : State) (p : LdtPkt) (code info : Nat) (c : Instr), c ∈ sequencedCmds p code info → s.ldtOn = true → s.assocLive p.assoc = true →
    (s.countRx p).rxSort p.assoc p.psn = .dup → exec c s = .next ((s.countRx p).sendAck p.assoc p.path p.txTs)) ∧
  (∀ (s : State) (p : LdtPkt) (code info : Nat) (c : Instr), c ∈ sequencedCmds p code info → s.ldtOn = true → s.assocLive p.assoc = true →
    (s.countRx p).rxSort p.assoc p.psn = .outside → exec c s = .next ((s.countRx p).bump fLDT_OUT_OF_WINDOW)) ∧
  (∀ (s : State) (p : LdtPkt) (code info : Nat) (c : Instr), c ∈ sequencedCmds p code info → s.ldtOn = true → s.assocLive p.assoc = false →
    exec c s = .next (s.bump fLDT_NO_ASSOC)) ∧
  (∀ (s : State) (p : LdtPkt) (code info : Nat) (c : Instr), c ∈ sequencedCmds p code info → s.ldtOn = false → exec c s = .next (s.bump fLDT_QUIESCE_DROP)) ∧
  (∀ (s : State) (p : LdtPkt) (c : Instr),
    c ∈ [.ldtWriteReceive p, .ldtWriteNotifyReceive p, .ldtSendReceive p, .ldtReadReqReceive p, .ldtCapsuleReceive p] → s.ldtOn = true → s.blk pgLDT ≠ .run →
    s.assocLive p.assoc = true → (s.countRx p).rxSort p.assoc p.psn = .fresh → s.tgtOp p = none → exec c s = .next ((s.countRx p).bump fLDT_QUIESCE_DROP)) ∧
  (∀ (s : State) (p : LdtPkt) (o : TgtOp),
    (∀ a, (∀ i, o.holds = some i → a < s.regionAddr i ∨ s.regionAddr i + 32 ≤ a) → (s.place p o).rawByte a = (s.hbmWrite (o.base + p.msgOffset) p.payload).rawByte a) ∧
    ((o.kind ≠ 0x10 ∨ o.holds = none) → (s.place p o).mem = (s.hbmWrite (o.base + p.msgOffset) p.payload).mem) ∧
    (s.place p o).tgtOp p = (if (o.receive p).kind = 0x10 ∧ gotBytes (o.receive p).got = (o.receive p).msgLen ∧ o.holds ≠ none
      then some { o.receive p with holds := none } else some (o.receive p)))

/-- The other packets (R75, R76, R79, R87, R91, R94, R99): a NAK ends its operation at the initiator with its code, and one that names no operation is
only accepted; a KEEPALIVE is acknowledged; a CLOSE is recorded and accepted; a READ_RESP stores its bytes and ends its read with the last of them,
and one that no read asked for is malformed; an ACK at or beyond TX_NEXT is malformed, one that covers every packet sent empties the retention list
and clears the count of timeouts, and one that covers the CLOSE closes the association. Completes: ldtNakReceive, ldtKeepaliveReceive,
ldtCloseReceive, ldtReadRespReceive, ldtAckReceive. Where the spec leaves a point open it follows the model's choice in log entry 95. -/
def Obligations.ControlPackets : Prop :=
  (∀ (s : State) (p : LdtPkt) (code info : Nat) (o : InitOp), Fresh s p → (s.ax p.assoc).initOps.find p.msgId = some o →
    ∃ t : State, exec (.ldtNakReceive p code info) s = .next (t.acceptPkt p) ∧ (t.ax p.assoc).initOps = (s.ax p.assoc).initOps.del p.msgId ∧
      t.out = .opDone o.user o.ref code :: s.out ∧ t.mem = s.mem ∧ t.regs = s.regs) ∧
  (∀ (s : State) (p : LdtPkt) (code info : Nat), Fresh s p → (s.ax p.assoc).initOps.find p.msgId = none →
    exec (.ldtNakReceive p code info) s = .next ((s.countRx p).acceptPkt p)) ∧
  (∀ (s : State) (p : LdtPkt), s.ldtOn = true → s.assocLive p.assoc = false → exec (.ldtKeepaliveReceive p) s = .next (s.bump fLDT_NO_ASSOC)) ∧
  (∀ (s : State) (p : LdtPkt), s.ldtOn = false → exec (.ldtKeepaliveReceive p) s = .next (s.bump fLDT_QUIESCE_DROP)) ∧
  (∀ (s : State) (p : LdtPkt), s.assocLive p.assoc = true → s.ldtOn = true →
    exec (.ldtKeepaliveReceive p) s = .next ((s.countRx p).sendAck p.assoc p.path p.txTs)) ∧
  (∀ (s : State) (p : LdtPkt), Fresh s p →
    exec (.ldtCloseReceive p) s = .next (((s.countRx p).modAx p.assoc (fun e => { e with closeRcvd := some p.psn })).acceptPkt { p with ackReq := true })) ∧
  (∀ (s : State) (p : LdtPkt) (o : InitOp), Fresh s p → (s.ax p.assoc).initOps.find p.msgId = some o → o.kind = 0x13 → o.msgLen = p.msgLen → o.user ≠ pgNVF →
    overlapsGot o.got p.msgOffset p.payload.length p.psn = false → gotBytes (o.got ++ [(p.msgOffset, p.payload.length, p.psn)]) = o.msgLen →
    ∃ t : State, exec (.ldtReadRespReceive p) s = .next (t.acceptPkt p) ∧ t.mem = (s.hbmWrite (o.dst + p.msgOffset) p.payload).mem ∧
      (t.ax p.assoc).initOps = (s.ax p.assoc).initOps.del p.msgId) ∧
  (∀ (s : State) (p : LdtPkt) (o : InitOp), Fresh s p → (s.ax p.assoc).initOps.find p.msgId = some o → o.kind = 0x13 → o.msgLen = p.msgLen → o.user ≠ pgNVF →
    overlapsGot o.got p.msgOffset p.payload.length p.psn = false → gotBytes (o.got ++ [(p.msgOffset, p.payload.length, p.psn)]) ≠ o.msgLen →
    ∃ t : State, exec (.ldtReadRespReceive p) s = .next (t.acceptPkt p) ∧ t.mem = (s.hbmWrite (o.dst + p.msgOffset) p.payload).mem ∧
      (t.ax p.assoc).initOps.find p.msgId = some { o with got := o.got ++ [(p.msgOffset, p.payload.length, p.psn)] }) ∧
  (∀ (s : State) (p : LdtPkt), Fresh s p → (s.ax p.assoc).initOps.find p.msgId = none →
    exec (.ldtReadRespReceive p) s = .next ((s.countRx p).malformed p.assoc)) ∧
  (∀ (s : State) (a : Nat) (k : AckInfo), s.ldtOn = false → exec (.ldtAckReceive a k) s = .next (s.bump fLDT_QUIESCE_DROP)) ∧
  (∀ (s : State) (a : Nat) (k : AckInfo), s.ldtOn = true → s.assocLive a = false → exec (.ldtAckReceive a k) s = .next (s.bump fLDT_NO_ASSOC)) ∧
  (∀ (s : State) (a : Nat) (k : AckInfo), s.assocLive a = true → s.ldtOn = true → psnLe (s.assoc a).txNext k.cumAck = true →
    exec (.ldtAckReceive a k) s = .next ((s.countPkt a k.ce).malformed a)) ∧
  (∀ (s : State) (a : Nat) (k : AckInfo), s.assocLive a = true → s.ldtOn = true → psnLe (s.assoc a).txNext k.cumAck = false →
    psnLe (s.assoc a).txUna k.cumAck = true → (∀ f, f ∈ (s.ax a).sent → psnLe f.psn k.cumAck = true) → (s.ax a).initOps = [] → (s.ax a).tgtOps = [] →
    (s.ax a).closeSent = none →
    ∃ t, exec (.ldtAckReceive a k) s = .next t ∧ (t.assoc a).txUna = psnMod (k.cumAck + 1) ∧ (t.assoc a).rtoCount = 0 ∧ (t.ax a).hasRtt = true ∧
      (t.ax a).sent = [] ∧ (∀ b, b ≠ a → t.assoc b = s.assoc b) ∧ t.mem = s.mem ∧ t.regs = s.regs ∧ t.out = s.out) ∧
  (∀ (s : State) (a c : Nat) (k : AckInfo), s.assocLive a = true → s.ldtOn = true → psnLe (s.assoc a).txNext k.cumAck = false →
    (∀ f, f ∈ (s.ax a).sent → psnLe f.psn k.cumAck = true) → (s.ax a).initOps = [] → (s.ax a).tgtOps = [] → (s.ax a).closeSent = some c → ackCovers k c = true →
    ∃ t, exec (.ldtAckReceive a k) s = .next t ∧ t.assoc a = {} ∧ t.ax a = {} ∧ t.akey a = {} ∧ (∀ b, b ≠ a → t.assoc b = s.assoc b))

/-- Sending and its timers (R79, R83, R84, R86, R88-R93). The delayed ACK leaves; a KEEPALIVE leaves; a new packet takes the next PSN while fewer than 128
are out, and with nothing to send, a full window or PKT_NUM run out nothing leaves; a retransmission timer strikes the path, cuts the rate, and sends
the oldest packet again with a doubled timeout, or at RETX_LIMIT fails the association; an expired keep-alive fails it; a removed path returns with 0
strikes; an interval without an ACK only starts the next, and one with congestion cuts the rate; the old key half is retired once both directions have
switched. Each is nothing where its condition does not hold. Completes: ackDelayExpiry, keepaliveIntervalExpiry, ldtPacketTransmit, rtoExpiry,
kaTimeoutExpiry, pathUp, rcIntervalEnd, keyPhaseRetire. -/
def Obligations.TransportTimers : Prop :=
  (∀ (s : State) (a : Nat), s.assocLive a = true → (s.ax a).ackPend ≠ 0 → s.ldtOn = true →
    exec (.ackDelayExpiry a) s = .next (s.sendAck a (s.ax a).lastPath (s.ax a).lastTs) ∧ ((s.sendAck a (s.ax a).lastPath (s.ax a).lastTs).ax a).ackPend = 0) ∧
  (∀ (s : State) (a : Nat), (s.assoc a).state = .isOpen → s.ldtSends a = true → s.fld fLDT_KA_CFG_KA_INTERVAL_MS ≠ 0 →
    exec (.keepaliveIntervalExpiry a) s =
      .next ((s.modAx a (fun e => { e with nextPath := (nextPathIn (s.assoc a).pathMask e.nextPath + 1) % 16 })).ldtSend a (nextPathIn (s.assoc a).pathMask (s.ax a).nextPath) 0 false { type := 0x03, ackReq := true } [])) ∧
  (∀ (s : State) (a : Nat) (p : TxPkt) (q : List TxPkt), s.ldtSends a = true → (s.assoc a).txPktNum < 2 ^ 48 → (s.ax a).sent = [] →
    (s.ax a).txq = p :: q → psnSub (s.assoc a).txNext (s.assoc a).txUna < 128 →
    ∃ t, exec (.ldtPacketTransmit a) s = .next t ∧ (t.assoc a).txNext = psnMod ((s.assoc a).txNext + 1) ∧ (t.ax a).txq = q ∧
      (t.assoc a).txPktNum = (s.assoc a).txPktNum + 1) ∧
  (∀ (s : State) (a : Nat), ((s.ax a).ackPend = 0 ∨ s.ldtSends a = false) → exec (.ackDelayExpiry a) s = .next s) ∧
  (∀ (s : State) (a : Nat), ((s.assoc a).state ≠ .isOpen ∨ s.ldtOn = false ∨ s.fld fLDT_KA_CFG_KA_INTERVAL_MS = 0) →
    exec (.keepaliveIntervalExpiry a) s = .next s) ∧
  (∀ (s : State) (a : Nat) (f : Sent), s.ldtSends a = true → (s.assoc a).txPktNum < 2 ^ 48 → (s.ax a).sent.find? (fun x => x.lost) = some f →
    exec (.ldtPacketTransmit a) s = .next (s.resend a f (nextPathIn (s.assoc a).pathMask (f.path + 1)))) ∧
  (∀ (s : State) (a : Nat), (s.ldtSends a = false ∨ 2 ^ 48 ≤ (s.assoc a).txPktNum ∨ ((s.ax a).sent.find? (fun x => x.lost) = none ∧
    ((s.ax a).txq = [] ∨ 128 ≤ psnSub (s.assoc a).txNext (s.assoc a).txUna))) → exec (.ldtPacketTransmit a) s = .next s) ∧
  (∀ (s : State) (a : Nat), (s.ldtSends a = false ∨ s.fld fLDT_KA_CFG_KA_TIMEOUT_MS = 0) → exec (.kaTimeoutExpiry a) s = .next s) ∧
  (∀ (s : State) (a : Nat) (f : Sent), (s.ax a).sent.find? (fun f => f.psn = (s.assoc a).txUna) = some f → s.ldtSends a = true →
    (s.assoc a).rtoCount + 1 < s.fld fLDT_LOSS_CFG_RETX_LIMIT → s.runs pgEVT = false → (s.assoc a).txPktNum < 2 ^ 40 →
    ∃ t, exec (.rtoExpiry a) s = .next t ∧ (t.assoc a).rtoCount = (s.assoc a).rtoCount + 1 ∧ (t.assoc a).txPktNum = (s.assoc a).txPktNum + 1 ∧
      (t.ax a).rtoShift = (s.ax a).rtoShift + 1 ∧ (t.assoc a).rateTarget = (s.assoc a).rate ∧ (t.assoc a).rate = s.boundRate (s.assoc a).port ((s.assoc a).rate / 8) ∧
      (t.ax a).txq = (s.ax a).txq) ∧
  (∀ (s : State) (a : Nat), ((s.ax a).sent.find? (fun f => f.psn = (s.assoc a).txUna) = none ∨ s.ldtSends a = false) → exec (.rtoExpiry a) s = .next s) ∧
  (∀ (s : State) (a : Nat), s.ldtSends a = true → s.fld fLDT_KA_CFG_KA_TIMEOUT_MS ≠ 0 → exec (.kaTimeoutExpiry a) s = .next (s.assocFail a 2)) ∧
  (∀ (s : State) (a : Nat) (f : Sent), (s.ax a).sent.find? (fun f => f.psn = (s.assoc a).txUna) = some f → s.ldtSends a = true →
    s.fld fLDT_LOSS_CFG_RETX_LIMIT ≤ (s.assoc a).rtoCount + 1 →
    exec (.rtoExpiry a) s =
      .next ((((s.modAssoc a (fun y => { y with rtoCount := y.rtoCount + 1 })).strike a f.path).rtoCutRate a).assocFail a 1)) ∧
  (∀ (s : State) (a path : Nat), s.ldtSends a = true → (s.ax a).removed.testBit path = true → path < 16 → s.runs pgEVT = false →
    ∃ t, exec (.pathUp a path) s = .next t ∧ (t.assoc a).pathMask = (s.assoc a).pathMask ||| 2 ^ path ∧ strikesOf (t.assoc a).strikes path = 0 ∧
      t.regs = s.regs ∧ t.mem = s.mem) ∧
  (∀ (s : State) (a path : Nat), (s.ldtSends a = false ∨ (s.ax a).removed.testBit path = false ∨ 16 ≤ path) → exec (.pathUp a path) s = .next s) ∧
  (∀ (s : State) (a : Nat), s.ldtSends a = true → (s.ax a).ackSeen = true → (s.ax a).sumRx ≠ 0 → s.fld fLDT_CTRL_ECN_EN = 1 → 0 < 65536 * (s.ax a).sumCe / (s.ax a).sumRx →
    (s.assoc a).lossCut = false →
    ∃ t, exec (.rcIntervalEnd a) s = .next t ∧ (t.assoc a).rateTarget = (s.assoc a).rate ∧
      (t.assoc a).rate = s.boundRate (s.assoc a).port ((s.assoc a).rate - (s.assoc a).rate * (t.assoc a).alpha / 2 ^ 17) ∧
      (t.assoc a).alpha = min 0xFFFF ((s.assoc a).alpha - (s.assoc a).alpha / 2 ^ s.fld fLDT_RC_CFG_G_SHIFT +
        65536 * (s.ax a).sumCe / (s.ax a).sumRx / 2 ^ s.fld fLDT_RC_CFG_G_SHIFT) ∧ (t.assoc a).cleanCount = 0 ∧
      (t.ax a).sumCe = 0 ∧ (t.ax a).sumRx = 0 ∧ t.regs = s.regs ∧ t.mem = s.mem ∧ t.out = s.out) ∧
  (∀ (s : State) (a : Nat), s.ldtSends a = false → exec (.rcIntervalEnd a) s = .next s) ∧
  (∀ (s : State) (a : Nat), (s.ldtSends a = false ∨ (s.ax a).txSwitched = false ∨ (s.ax a).rxSwitched = false) → exec (.keyPhaseRetire a) s = .next s) ∧
  (∀ (s : State) (a : Nat), s.ldtSends a = true → (s.ax a).ackSeen = false →
    ∃ t, exec (.rcIntervalEnd a) s = .next t ∧ (t.assoc a).rate = (s.assoc a).rate ∧ (t.assoc a).alpha = (s.assoc a).alpha ∧ t.ax a = s.ax a ∧ t.regs = s.regs ∧
      t.mem = s.mem ∧ t.out = s.out) ∧
  (∀ (s : State) (a : Nat), s.ldtSends a = true → (s.ax a).txSwitched = true → (s.ax a).rxSwitched = true →
    ∃ t, exec (.keyPhaseRetire a) s = .next t ∧ (t.akey a).cur = (s.akey a).next ∧ (t.akey a).next = {} ∧ (t.ax a).curPhase = !(s.ax a).curPhase ∧
      (t.assoc a).rxNextArmed = false ∧ t.regs = s.regs ∧ t.mem = s.mem ∧ t.out = s.out)

/-- The association commands (R79, R80, R83): ASSOC_OPEN of a Free association with a loaded key makes it Open with the sequence numbers given; it is
refused with 3 for bad arguments, with 1 where the association is not Free, and with 2 without a key. ASSOC_CLOSE of an Open or Closing one waits in
Closing, of a Failed one completes at once, and of a Free one is refused; a Closing one with nothing of its own left queues its CLOSE once.
ASSOC_REKEY arms the next half, and with TX_SWITCH moves transmission to it; without the next key, a live association or a step it is refused.
ASSOC_FREE of a Failed one zeroizes its state and key, and of any other is refused. Completes: assocOpen, assocClose, assocRekey, assocCloseSend,
assocFree. Where the spec leaves a point open it follows the model's choice in log entries 107, 108, 109, 110, 128. -/
def Obligations.AssociationCommands : Prop :=
  (∀ (s : State) (h : CmdHdr) (a peer tx rx port descr : Nat), Ready s h pgLDT pgLDT .work → a < 4096 → port ≤ 0x20 → descr % 64 = 0 →
    (s.assoc a).state = .free → (s.akey a).cur.full = true → s.hbmErr descr 64 = false → s.localAddr port (slice (s.hbmRead descr 64) 0x10 16) = true →
    ∃ t : State, exec (.assocOpen h a peer tx rx port descr) s = .next (t.ends pgLDT h stOk) ∧ (t.assoc a).state = .isOpen ∧ (t.assoc a).txNext = tx ∧
      (t.assoc a).txUna = tx ∧ (t.assoc a).rxCum = psnSub rx 1 ∧ (t.assoc a).pathMask = 0xFFFF ∧ (t.assoc a).peerAssoc = peer ∧
      (t.ax a).addrEntry = s.hbmRead descr 64 ∧ (∀ b, b ≠ a → t.assoc b = s.assoc b) ∧ t.mem = s.mem ∧ t.regs = s.regs) ∧
  (∀ (s : State) (h : CmdHdr) (a : Nat), Ready s h pgLDT pgLDT .release → a < 4096 → ((s.assoc a).state = .isOpen ∨ (s.assoc a).state = .closing) →
    ∃ t : State, exec (.assocClose h a) s = .next (t.keeps pgLDT 0x0101 h [a]) ∧ (t.assoc a).state = .closing ∧ (t.ax a).closeCmds = (s.ax a).closeCmds ++ [h.cseq] ∧
      (∀ b, b ≠ a → t.assoc b = s.assoc b) ∧ t.mem = s.mem ∧ t.regs = s.regs) ∧
  (∀ (s : State) (h : CmdHdr) (a peer tx rx port descr : Nat), Ready s h pgLDT pgLDT .work → (4096 ≤ a ∨ 0x20 < port ∨ descr % 64 ≠ 0) →
    exec (.assocOpen h a peer tx rx port descr) s = .next (s.consume.ends pgLDT h 3)) ∧
  (∀ (s : State) (h : CmdHdr) (a peer tx rx port descr : Nat), Ready s h pgLDT pgLDT .work → a < 4096 → port ≤ 0x20 → descr % 64 = 0 → (s.assoc a).state ≠ .free →
    exec (.assocOpen h a peer tx rx port descr) s = .next (s.consume.ends pgLDT h 1)) ∧
  (∀ (s : State) (h : CmdHdr) (a peer tx rx port descr : Nat), Ready s h pgLDT pgLDT .work → a < 4096 → port ≤ 0x20 → descr % 64 = 0 → (s.assoc a).state = .free →
    (s.akey a).cur.full = false → exec (.assocOpen h a peer tx rx port descr) s = .next (s.consume.ends pgLDT h 2)) ∧
  (∀ (s : State) (h : CmdHdr) (a : Nat), Ready s h pgLDT pgLDT .release → a < 4096 → (s.assoc a).state = .failed →
    exec (.assocClose h a) s = .next (s.consume.ends pgLDT h stOk)) ∧
  (∀ (s : State) (h : CmdHdr) (a : Nat), Ready s h pgLDT pgLDT .release → (4096 ≤ a ∨ (s.assoc a).state = .free) →
    exec (.assocClose h a) s = .next (s.consume.ends pgLDT h 3)) ∧
  (∀ (s : State) (a : Nat), ((s.assoc a).state ≠ .closing ∨ (s.ax a).initOps ≠ [] ∨ (s.ax a).closeSent ≠ none ∨ (s.ax a).txq.any (fun p => p.type = 0x04) = true) →
    exec (.assocCloseSend a) s = .next s) ∧
  (∀ (s : State) (h : CmdHdr) (a : Nat) (arm : Bool), Ready s h pgLDT pgLDT .work → a < 4096 → s.assocLive a = true →
    ((s.assoc a).rxNextArmed = false ∧ (s.akey a).next.full = true ∨ (s.assoc a).rxNextArmed = true ∧ (s.ax a).txSwitched = false) →
    ∃ t : State, exec (.assocRekey h a arm true) s = .next (t.ends pgLDT h stOk) ∧ (t.assoc a).txPhase = !(s.assoc a).txPhase ∧ (t.assoc a).txPktNum = 0 ∧
      (t.assoc a).rxNextArmed = true ∧ (t.ax a).txSwitched = true ∧ (∀ b, b ≠ a → t.assoc b = s.assoc b) ∧ t.mem = s.mem ∧ t.regs = s.regs) ∧
  (∀ (s : State) (h : CmdHdr) (a : Nat) (arm tx : Bool), Ready s h pgLDT pgLDT .work → (4096 ≤ a ∨ s.assocLive a = false ∨ (arm = false ∧ tx = false)) →
    exec (.assocRekey h a arm tx) s = .next (s.consume.ends pgLDT h 3)) ∧
  (∀ (s : State) (h : CmdHdr) (a : Nat) (arm tx : Bool), Ready s h pgLDT pgLDT .work → a < 4096 → s.assocLive a = true → (arm || tx) = true →
    (s.assoc a).rxNextArmed = false → (s.akey a).next.full = false → exec (.assocRekey h a arm tx) s = .next (s.consume.ends pgLDT h 2)) ∧
  (∀ (s : State) (h : CmdHdr) (a : Nat), Ready s h pgLDT pgLDT .work → a < 4096 → s.assocLive a = true → (s.assoc a).rxNextArmed = true →
    exec (.assocRekey h a true false) s = .next (s.consume.ends pgLDT h 5)) ∧
  (∀ (s : State) (h : CmdHdr) (a : Nat), Ready s h pgLDT pgLDT .release → (4096 ≤ a ∨ (s.assoc a).state ≠ .failed) →
    exec (.assocFree h a) s = .next (s.consume.ends pgLDT h 4)) ∧
  (∀ (s : State) (a : Nat), (s.assoc a).state = .closing → (s.ax a).initOps = [] → (s.ax a).closeSent = none →
    (s.ax a).txq.any (fun p => p.type = 0x04) = false →
    ∃ t, exec (.assocCloseSend a) s = .next t ∧ (t.ax a).txq = (s.ax a).txq ++ [{ type := 0x04, first := true, last := true, ackReq := true }] ∧ t.ldt.assoc = s.ldt.assoc ∧
      t.mem = s.mem ∧ t.regs = s.regs) ∧
  (∀ (s : State) (h : CmdHdr) (a : Nat), Ready s h pgLDT pgLDT .work → a < 4096 → s.assocLive a = true → (s.assoc a).rxNextArmed = false →
    (s.akey a).next.full = true →
    ∃ t : State, exec (.assocRekey h a true false) s = .next (t.ends pgLDT h stOk) ∧ t.assoc a = { s.assoc a with rxNextArmed := true } ∧
      (∀ b, b ≠ a → t.assoc b = s.assoc b) ∧ t.mem = s.mem ∧ t.regs = s.regs) ∧
  (∀ (s : State) (h : CmdHdr) (a : Nat), Ready s h pgLDT pgLDT .release → a < 4096 → (s.assoc a).state = .failed →
    ∃ t : State, exec (.assocFree h a) s = .next (t.ends pgLDT h stOk) ∧ t.assoc a = {} ∧ t.ax a = {} ∧ t.akey a = {} ∧ (∀ b, b ≠ a → t.assoc b = s.assoc b ∧ t.akey b = s.akey b) ∧
      t.mem = s.mem ∧ t.regs = s.regs)

/-! ### The context cache and regions (R95-R110) -/

/-- The context cache (R95-R97): CTX_PIN makes a context resident and pinned, ends at once for a pinned one and with PIN_FULL beyond 8,192, CTX_UNPIN
unpins it, CTX_WRITEBACK writes a resident one to its 384 bytes at CTX.BACK_BASE and lets it go. A fetch that ends well makes the context resident and
its waiting packets are taken; one that meets an uncorrectable error drops them, is counted and captured, and the queue fails. The region commands
(R101, R110): RGN_REGISTER makes a Free region Valid with its arguments and generation, RGN_REVOKE makes it Revoking and waits, and the release of the
last holder frees it under the next generation; a LOST region is freed under the generation after the one the command names. Each writes the region's
entry of 32 bytes in HBM. Bad arguments, a region in use and one that is not held are refused with their statuses. Completes: ctxPin, ctxUnpin,
ctxWriteback, ctxFetchDone, rgnRegister, rgnRevoke, regionRevokeDone. Where the spec leaves a point open it follows the model's choice in log entries
13, 94, 117, 128. -/
def Obligations.ContextCache : Prop :=
  (∀ (s : State) (h : CmdHdr) (c : Nat), Ready s h pgCTX pgCTX .work → c < 2 ^ 20 → (s.qctx c).pinned = false → s.pinnedCount < 8192 →
    ∃ t : State, exec (.ctxPin h c) s = .next (t.ends pgCTX h stOk) ∧ t.ctxResident c = true ∧ t.qctx c = { s.qctx c with pinned := true } ∧
      (∀ d, d ≠ c → t.qctx d = s.qctx d) ∧ t.rgn = s.rgn ∧ t.pages = s.pages ∧ (s.ctx.resident.length < 65536 → t.mem = s.mem ∧ t.regs = s.regs)) ∧
  (∀ (s : State) (h : CmdHdr) (c : Nat), Ready s h pgCTX pgCTX .work → c < 2 ^ 20 → (s.qctx c).pinned = true →
    exec (.ctxPin h c) s = .next (s.consume.ends pgCTX h stOk)) ∧
  (∀ (s : State) (h : CmdHdr) (c : Nat), Ready s h pgCTX pgCTX .work → c < 2 ^ 20 → (s.qctx c).pinned = false → 8192 ≤ s.pinnedCount →
    exec (.ctxPin h c) s = .next (s.consume.ends pgCTX h 1)) ∧
  (∀ (s : State) (h : CmdHdr) (c : Nat), Ready s h pgCTX pgCTX .release → c < 2 ^ 20 →
    ∃ t : State, exec (.ctxUnpin h c) s = .next (t.ends pgCTX h stOk) ∧ t.qctx c = { s.qctx c with pinned := false } ∧ (∀ d, d ≠ c → t.qctx d = s.qctx d) ∧
      t.ctx.resident = s.ctx.resident ∧ (s.ctxResident c = true → t.mem = s.mem ∧ t.regs = s.regs)) ∧
  (∀ (s : State) (h : CmdHdr) (c : Nat), Ready s h pgCTX pgCTX .release → c < 2 ^ 20 →
    ∃ t : State, exec (.ctxWriteback h c) s = .next (t.ends pgCTX h stOk) ∧ t.ctxResident c = false ∧ t.ctx.ctxs = s.ctx.ctxs ∧
      (∀ d, d ≠ c → t.ctxResident d = s.ctxResident d) ∧
      (s.ctxResident c = true → t.mem = (s.hbmWrite (s.reg64 rCTX_BACK_BASE + 384 * c) ((s.qctx c).bytes c)).mem) ∧
      (s.ctxResident c = false → t.mem = s.mem ∧ t.regs = s.regs)) ∧
  (∀ (s : State) (c : Nat) (l : List MissPkt), s.ctx.missq.find c = some l → s.hbmErr (s.reg64 rCTX_BACK_BASE + 384 * c) 384 = false →
    exec (.ctxFetchDone c false) s = .next (l.foldl (State.takeWaiting c) (({ s with ctx.missq := s.ctx.missq.del c } : State).makeResident c))) ∧
  (∀ (s : State) (c : Nat) (l : List MissPkt), s.ctx.missq.find c = some l → s.hbmErr (s.reg64 rCTX_BACK_BASE + 384 * c) 384 = false →
    exec (.ctxFetchDone c true) s = .next ((((({ s with ctx.missq := s.ctx.missq.del c } : State).dropWaiting l).bump fCTX_FETCH_ERR).capture pgCTX 0x01 c 0).failQueue c)) ∧
  (∀ (s : State) (c : Nat) (u : Bool), s.ctx.missq.find c = none → exec (.ctxFetchDone c u) s = .next s) ∧
  (∀ (s : State) (c : Nat), s.ctx.missq.find c = some [] → s.hbmErr (s.reg64 rCTX_BACK_BASE + 384 * c) 384 = false →
    ∃ t, exec (.ctxFetchDone c false) s = .next t ∧ t.ctxResident c = true ∧ t.ctx.missq = s.ctx.missq.del c ∧ t.ctx.ctxs = s.ctx.ctxs ∧
      (s.ctx.resident.length < 65536 → t.mem = s.mem ∧ t.regs = s.regs)) ∧
  (∀ (s : State) (h : CmdHdr) (i a perm tgt base len : Nat), Ready s h pgRGN pgRGN .work → i < 65536 → rgnBadArg a perm tgt base len = false →
    s.regionBad i = false → (s.region i).state = .free →
    ∃ t : State, exec (.rgnRegister h i a perm tgt base len) s = .next (t.ends pgRGN h stOk) ∧
      t.region i = { base := base, length := len, assoc := a, perm := perm, notifyTgt := tgt, state := .valid, gen := (s.region i).gen } ∧
      (∀ j, j ≠ i → t.region j = s.region j) ∧ t.mem = (s.hbmWrite (s.regionAddr i) (t.region i).bytes).mem ∧ t.regs = (s.hbmWrite (s.regionAddr i) (t.region i).bytes).regs) ∧
  (∀ (s : State) (h : CmdHdr) (i g : Nat), Ready s h pgRGN pgRGN .release → i < 65536 → s.regionBad i = false → (s.region i).state = .valid →
    (s.region i).lost = false →
    ∃ t : State, exec (.rgnRevoke h i g) s = .next (t.keeps pgRGN 0x0101 h [i, g]) ∧ t.region i = { s.region i with state := .revoking } ∧
      (∀ j, j ≠ i → t.region j = s.region j) ∧ t.rgn.revokes.find i = some (h.cseq, g) ∧
      t.mem = (s.hbmWrite (s.regionAddr i) (t.region i).bytes).mem ∧ t.regs = (s.hbmWrite (s.regionAddr i) (t.region i).bytes).regs) ∧
  (∀ (s : State) (i q g : Nat), s.rgn.revokes.find i = some (q, g) → (s.region i).state = .revoking → (s.region i).lost = false → (s.region i).pins = 0 →
    ∃ t : State, exec (.regionRevokeDone i) s = .next (t.finishRunning q 0 stOk) ∧ (t.region i).state = .free ∧ (t.region i).gen = ((s.region i).gen + 1) % 256 ∧
      (∀ j, j ≠ i → t.region j = s.region j) ∧ t.mem = (s.hbmWrite (s.regionAddr i) (t.region i).bytes).mem ∧ t.regs = (s.hbmWrite (s.regionAddr i) (t.region i).bytes).regs) ∧
  (∀ (s : State) (h : CmdHdr) (i a perm tgt base len : Nat), Ready s h pgRGN pgRGN .work → 65536 ≤ i →
    exec (.rgnRegister h i a perm tgt base len) s = .next (s.consume.ends pgRGN h 1)) ∧
  (∀ (s : State) (h : CmdHdr) (i a perm tgt base len : Nat), Ready s h pgRGN pgRGN .work → i < 65536 → rgnBadArg a perm tgt base len = true →
    exec (.rgnRegister h i a perm tgt base len) s = .next (s.consume.ends pgRGN h 4)) ∧
  (∀ (s : State) (h : CmdHdr) (i a perm tgt base len : Nat), Ready s h pgRGN pgRGN .work → i < 65536 → rgnBadArg a perm tgt base len = false →
    s.regionBad i = false → (s.region i).state ≠ .free → exec (.rgnRegister h i a perm tgt base len) s = .next (s.consume.ends pgRGN h 2)) ∧
  (∀ (s : State) (h : CmdHdr) (i g : Nat), Ready s h pgRGN pgRGN .release → 65536 ≤ i → exec (.rgnRevoke h i g) s = .next (s.consume.ends pgRGN h 1)) ∧
  (∀ (s : State) (h : CmdHdr) (i g : Nat), Ready s h pgRGN pgRGN .release → i < 65536 → s.regionBad i = false →
    ((s.region i).state = .free ∨ ((s.region i).state = .revoking ∧ (s.region i).lost = false)) → exec (.rgnRevoke h i g) s = .next (s.consume.ends pgRGN h 3)) ∧
  (∀ (s : State) (i q g : Nat), s.rgn.revokes.find i = some (q, g) → (s.region i).state = .revoking → (s.region i).lost = true → s.rgn.held.get 0 i = 0 →
    ∃ t : State, exec (.regionRevokeDone i) s = .next (t.finishRunning q 0 stOk) ∧ (t.region i).state = .free ∧ (t.region i).gen = (g + 1) % 256 ∧ (t.region i).lost = false ∧
      (∀ j, j ≠ i → t.region j = s.region j)) ∧
  (∀ (s : State) (i : Nat), s.rgn.revokes.find i = none → exec (.regionRevokeDone i) s = .next s) ∧
  (∀ (s : State) (i q g : Nat), s.rgn.revokes.find i = some (q, g) → (s.region i).lost = false → (s.region i).pins ≠ 0 → exec (.regionRevokeDone i) s = .next s)

/-! ### The NVMe front end (R111-R131) -/

/-- Admission (R111, R118-R122, R386, R439, R471). With NVF in Run and no restart begun the waiting write is tried first, and with none, Urgent being
within its budget, the head of the Urgent queue; a Flush there whose namespace passes its checks, whose tokens are taken and whose credits are there
is admitted. NVF that does not run, or once a restart has begun, admits nothing, and with no command queued nothing is admitted. What is admitted and
writes nothing holds its staging units and the next place in admission order. The held commands of a tenant go back to the front of their queues when
its buckets are open or its limit entry cannot be read, and stay otherwise. Completes: nvmeAdmit, heldCommandRelease. Where the spec leaves a point
open it follows the model's choice in log entries 37, 47. -/
def Obligations.NvmeAdmission : Prop :=
  (∀ (s t : State) (k : Nat) (q : List Nat), s.runs pgNVF = true → s.plat.chip.admissionStopped = false → s.nvf.waitWrite = none → s.urgentOver = false →
    s.classQueue 0 = k :: q → s.tryAdmit k = (t, .admitted) → exec .nvmeAdmit s = .next t) ∧
  (∀ (s t : State) (k : Nat), s.runs pgNVF = true → s.plat.chip.admissionStopped = false → s.nvf.waitWrite = some k → s.tryAdmit k = (t, .admitted) →
    exec .nvmeAdmit s = .next (t.chargeDeficit (s.nvCmd k).cls (s.shareOf k))) ∧
  (∀ (s : State) (k : Nat) (q : List Nat) (c : NvCmd), s.runs pgNVF = true → s.plat.chip.admissionStopped = false → s.nvf.waitWrite = none → s.urgentOver = false →
    s.classQueue 0 = k :: q → s.nvCmd k = c → c.apply = none → c.opc = ocFlush → c.host = [] → c.paid = true → s.nsCheck c = (s, none) → (s.ns c.nsid).ana ≠ 4 →
    s.sw.cfg.lowered = [] → s.ovlUsed ≤ 131072 →
    ∃ t d, exec .nvmeAdmit s = .next t ∧ t.nvf.cmds.find k = some d ∧ d.phase = .admitted ∧ d.order = s.nvf.order + 1 ∧ d.vol = (s.ns c.nsid).vol ∧
      t.nvf.order = s.nvf.order + 1) ∧
  (∀ (s : State), s.runs pgNVF = false ∨ s.plat.chip.admissionStopped = true → exec .nvmeAdmit s = .next s) ∧
  (∀ (s : State), s.nvf.waitWrite = none → s.nvf.queues = [] →
    ∃ t, exec .nvmeAdmit s = .next t ∧ t.nvf.cmds = s.nvf.cmds ∧ t.nvf.order = s.nvf.order ∧ t.regs = s.regs ∧ t.mem = s.mem ∧ t.out = s.out) ∧
  (∀ (s : State) (k : Nat) (c : NvCmd), c.writes = false → c.opc ≠ ocWrite → c.opc ≠ ocDsm → c.apply = none → s.peerState ≠ psPaired →
    ∃ d, (s.admitCmd k c).nvf.cmds.find k = some d ∧ d.phase = .admitted ∧ d.stage = c.needStage ∧ d.order = s.nvf.order + 1 ∧ d.vol = (s.ns c.nsid).vol ∧
      (s.admitCmd k c).nvf.order = s.nvf.order + 1 ∧ (s.admitCmd k c).mem = s.mem ∧ (s.admitCmd k c).regs = s.regs) ∧
  (∀ (s : State) (ten k : Nat), (s.limBad ten = true ∨ ((s.lim ten).refilled s.now).open_ = true) → s.nvf.held = [k] → (s.nvCmd k).tenant = ten →
    ∃ t : State, exec (.heldCommandRelease ten) s = .next t ∧ t.nvf.held = [] ∧ t.nvCmd k = { s.nvCmd k with phase := .waiting } ∧
      t.classQueue (s.nvCmd k).cls = k :: s.classQueue (s.nvCmd k).cls) ∧
  (∀ (s : State) (ten : Nat), s.limBad ten = false → ((s.lim ten).refilled s.now).open_ = false → exec (.heldCommandRelease ten) s = .next s)

/-- The I/O commands as they run (R12, R112, R115, R123, R125, R126). The data of a command lies in its capsule, is asked for, has come, is on its way, or
its transfer has failed. A Write whose data is here and whose tags are right goes to its destinations, and fails otherwise. A Read, a Verify and a
Compare whose data is here start their blocks once no earlier overlapping write is open and every page is here; when every block has ended a Read
sends its data, a Verify ends with success and a Compare with its answer, or each with the status of the first block that failed; a Read ends with its
transfer. A Flush, and a Dataset Management without Deallocate, end with success; one with it whose ranges are good waits for its durability point,
and so does a Write Zeroes. A command that is not admitted does nothing here, and one that has ended is held no longer. The durability point and the
hand-off (R12, R14, R129, R130, R312, R351). An admitted write whose changes are known goes as far as it can, but not after a power failure while it
has not committed: one that has committed and reached its point ends at its host, and one that has not waits. The point is reached only after the
commit; at Mirrored it is the peer's acknowledgement, and at Medium its units and its commit on flash. An entry of the hand-off queue is the command's
context, association, tenant, length and reason at SWQ_PROD, with the place of a copy of its data where it has any; a full queue makes it wait.
Completes: nvmeFlush, nvmeWrite, nvmeRead, nvmeVerify, nvmeCompare, nvmeWriteZeroes, nvmeDatasetManagement, writeDurable, nvmeSoftwareHandoff. Where
the spec leaves a point open it follows the model's choice in log entries 22, 29, 36, 43, 48, 93, 118. -/
def Obligations.NvmeCommands : Prop :=
  (∀ (s : State) (k : Nat) (c : NvCmd), s.admittedCmd k ocFlush = some c → exec (.nvmeFlush k) s = .next (s.finishCmd k scOk)) ∧
  (∀ (s : State) (k : Nat), (s.admittedCmd k ocFlush = none → exec (.nvmeFlush k) s = .next s) ∧
    (s.admittedCmd k ocWrite = none → exec (.nvmeWrite k) s = .next s) ∧ (s.admittedCmd k ocRead = none → ∀ l : List (Nat × List Byte), exec (.nvmeRead ⟨k, l⟩) s = .next s) ∧
    (s.admittedCmd k ocCompare = none → exec (.nvmeCompare k) s = .next s) ∧ (s.admittedCmd k ocWriteZeroes = none → exec (.nvmeWriteZeroes k) s = .next s) ∧
    (s.admittedCmd k ocDsm = none → exec (.nvmeDatasetManagement k) s = .next s) ∧ (s.admittedCmd k ocVerify = none → exec (.nvmeVerify k) s = .next s)) ∧
  (∀ (s : State) (k : Nat) (c : NvCmd), c.xfer = 0 → c.inCapsule = true → s.fetchData k c = (s.setNvCmd k { c with xfer := 2 }, some c.host)) ∧
  (∀ (s : State) (k : Nat) (c : NvCmd), c.xfer = 0 → c.inCapsule = false → s.fetchData k c = (s.pullData k c, none)) ∧
  (∀ (s : State) (k : Nat) (c : NvCmd), c.xfer = 1 → c.tcp = false → s.opEnded pgNVF k = none → s.fetchData k c = (s, none)) ∧
  (∀ (s : State) (k : Nat) (c : NvCmd) (e : OpEnd), c.xfer = 1 → c.tcp = false → s.opEnded pgNVF k = some e → e.status = 0 →
    s.fetchData k c = ((s.takeEnd pgNVF k).setNvCmd k { c with xfer := 2, host := e.data }, some e.data)) ∧
  (∀ (s : State) (k : Nat) (c : NvCmd) (e : OpEnd), c.xfer = 1 → c.tcp = false → s.opEnded pgNVF k = some e → e.status ≠ 0 →
    s.fetchData k c = (((s.takeEnd pgNVF k).bump fNVF_XFER_FAIL).failCmd k scTransfer, none)) ∧
  (∀ (s : State) (k : Nat) (c : NvCmd), c.xfer = 1 → c.tcp = true → c.host.length = c.declared →
    s.fetchData k c = (s.setNvCmd k { c with xfer := 2 }, some c.host)) ∧
  (∀ (s t : State) (k : Nat) (c : NvCmd) (bs : List Byte), s.admittedCmd k ocWrite = some c → s.fetchData k c = (t, some bs) → c.ingestFault bs = none →
    exec (.nvmeWrite k) s = .next (t.distribute k (t.nvCmd k) bs)) ∧
  (∀ (s t : State) (k st : Nat) (c : NvCmd) (bs : List Byte), s.admittedCmd k ocWrite = some c → s.fetchData k c = (t, some bs) → c.ingestFault bs = some st →
    exec (.nvmeWrite k) s = .next (t.failCmd k st)) ∧
  (∀ (s t : State) (k : Nat) (c : NvCmd), s.admittedCmd k ocWrite = some c → s.fetchData k c = (t, none) → exec (.nvmeWrite k) s = .next t) ∧
  (∀ (s : State) (k : Nat) (c : NvCmd), s.readWaits c = true → s.startBlocks k c = s) ∧
  (∀ (s : State) (k m : Nat) (c : NvCmd), s.readWaits c = false → (List.range c.nlb).findSome? (fun i => s.readAbsent c.vol (c.slba + i)) = some m →
    s.startBlocks k c = s.wantPage m) ∧
  (∀ (s : State) (k q : Nat) (c : NvCmd), s.readWaits c = false → (List.range c.nlb).findSome? (fun i => s.readAbsent c.vol (c.slba + i)) = none →
    s.openLane c = some q → s.startBlocks k c = (List.range c.nlb).foldl (State.readBlock k c q) (s.setNvCmd k { c with xfer := 3 })) ∧
  (∀ (s : State) (k : Nat) (c : NvCmd) (l : List (Nat × List Byte)), s.admittedCmd k ocRead = some c → c.xfer = 0 →
    exec (.nvmeRead ⟨k, l⟩) s = .next (s.startBlocks k c)) ∧
  (∀ (s : State) (k : Nat) (c : NvCmd) (rs : List ReadUnit) (l : List (Nat × List Byte)), s.admittedCmd k ocRead = some c → c.xfer = 3 → s.readEnd k c l = .ok rs →
    exec (.nvmeRead ⟨k, l⟩) s = .next (s.sendData k c (rs.flatMap c.egress))) ∧
  (∀ (s : State) (k st : Nat) (c : NvCmd) (l : List (Nat × List Byte)), s.admittedCmd k ocRead = some c → c.xfer = 3 → s.readEnd k c l = .fails st →
    exec (.nvmeRead ⟨k, l⟩) s = .next (s.finishCmd k st)) ∧
  (∀ (s : State) (k : Nat) (c : NvCmd) (e : OpEnd) (l : List (Nat × List Byte)), s.admittedCmd k ocRead = some c → c.xfer = 4 → s.opEnded pgNVF k = some e →
    e.status = 0 → exec (.nvmeRead ⟨k, l⟩) s = .next ((s.takeEnd pgNVF k).finishCmd k scOk)) ∧
  (∀ (s : State) (k : Nat) (c : NvCmd), s.admittedCmd k ocVerify = some c → c.xfer = 0 → exec (.nvmeVerify k) s = .next (s.startBlocks k c)) ∧
  (∀ (s : State) (k : Nat) (c : NvCmd) (rs : List ReadUnit), s.admittedCmd k ocVerify = some c → c.xfer = 3 → s.readEnd k c = .ok rs →
    exec (.nvmeVerify k) s = .next (s.finishCmd k scOk)) ∧
  (∀ (s : State) (k st : Nat) (c : NvCmd), s.admittedCmd k ocVerify = some c → c.xfer = 3 → s.readEnd k c = .fails st →
    exec (.nvmeVerify k) s = .next (s.finishCmd k st)) ∧
  (∀ (s t : State) (k : Nat) (c : NvCmd) (bs : List Byte), s.admittedCmd k ocCompare = some c → c.xfer < 2 → s.fetchData k c = (t, some bs) → c.ingestFault bs = none →
    exec (.nvmeCompare k) s = .next (t.startBlocks k { c with host := bs, xfer := 2 })) ∧
  (∀ (s : State) (k : Nat) (c : NvCmd), s.admittedCmd k ocCompare = some c → c.xfer = 2 → exec (.nvmeCompare k) s = .next (s.startBlocks k c)) ∧
  (∀ (s : State) (k : Nat) (c : NvCmd) (rs : List ReadUnit), s.admittedCmd k ocCompare = some c → c.xfer = 3 → s.readEnd k c = .ok rs →
    ((∀ r ∈ rs, r.data = c.blockData c.host r.idx) → exec (.nvmeCompare k) s = .next (s.finishCmd k scOk)) ∧
    ((∃ r ∈ rs, r.data ≠ c.blockData c.host r.idx) → exec (.nvmeCompare k) s = .next (s.finishCmd k scCompare))) ∧
  (∀ (s : State) (k : Nat) (c : NvCmd), s.admittedCmd k ocWriteZeroes = some c → c.xfer = 0 → exec (.nvmeWriteZeroes k) s = .next (s.changesKnown k c)) ∧
  (∀ (s : State) (k : Nat) (c : NvCmd), s.admittedCmd k ocDsm = some c → c.dealloc = false → exec (.nvmeDatasetManagement k) s = .next (s.finishCmd k scOk)) ∧
  (∀ (s t : State) (k : Nat) (c : NvCmd) (bs : List Byte), s.admittedCmd k ocDsm = some c → c.dealloc = true → s.fetchData k c = (t, some bs) →
    (dsmParse c.dsmRanges bs).any (fun g => decide ((t.vol c.vol).size < g.1 + g.2)) = true → exec (.nvmeDatasetManagement k) s = .next (t.failCmd k scLba)) ∧
  (∀ (s t u : State) (k : Nat) (c : NvCmd) (bs : List Byte), s.admittedCmd k ocDsm = some c → c.dealloc = true → s.fetchData k c = (t, some bs) →
    (dsmParse c.dsmRanges bs).any (fun g => decide ((t.vol c.vol).size < g.1 + g.2)) = false →
    u = (t.setNvCmd k { c with host := bs, ranges := dsmParse c.dsmRanges bs, xfer := 3 }).slipRanges k →
    exec (.nvmeDatasetManagement k) s = .next ((u.changesKnown k (u.nvCmd k)).releaseCells k)) ∧
  (∀ (s : State) (k st d : Nat), (s.endCmd k st d).nvf.cmds.find k = none) ∧
  (∀ (s : State) (k : Nat) (c : NvCmd), s.nvf.cmds.find k = some c → c.phase = .admitted → c.writes = true → c.xfer = 3 →
    (c.committed = true ∨ s.plat.pwr.powerFail = false) → exec (.writeDurable k) s = .next (s.writeOn k)) ∧
  (∀ (s : State) (k : Nat) (c : NvCmd), s.nvf.cmds.find k = some c → c.phase = .admitted → c.opc = ocWriteZeroes → c.admin = false → c.xfer = 3 → c.committed = true →
    c.resL = some true → c.wantP = false → c.wantS = false → s.pollMirror = s → s.pollSlipFail = s → s.durable k c = true →
    exec (.writeDurable k) s = .next (s.finishCmd k scOk)) ∧
  (∀ (s : State) (k : Nat) (c : NvCmd), s.nvf.cmds.find k = some c → c.phase = .admitted → c.opc = ocWrite → c.admin = false → c.xfer = 3 → c.committed = true →
    c.resL = some true → c.wantP = false → c.wantS = false → s.pollMirror = s → s.pollSlipFail = s → s.durable k c = true →
    exec (.writeDurable k) s = .next (s.endWrite k scOk).settle.handoverPump) ∧
  (∀ (s : State) (k : Nat) (c : NvCmd), s.nvf.cmds.find k = some c → c.phase = .admitted → c.writes = true → c.xfer = 3 → c.committed = true →
    c.resL = some true → c.wantP = false → c.wantS = false → s.pollMirror = s → s.pollSlipFail = s → s.durable k c = false →
    exec (.writeDurable k) s = .next s) ∧
  (∀ (s : State) (k : Nat) (c : NvCmd), s.nvf.cmds.find k = some c → (c.phase ≠ .admitted ∨ c.writes = false ∨ c.xfer ≠ 3 ∨ (c.committed = false ∧ s.plat.pwr.powerFail = true)) →
    exec (.writeDurable k) s = .next s) ∧
  (∀ (s : State) (k : Nat), s.nvf.cmds.find k = none → exec (.writeDurable k) s = .next s ∧ exec (.nvmeSoftwareHandoff k) s = .next s) ∧
  (∀ (s : State) (k : Nat) (c : NvCmd), c.committed = false → s.durable k c = false) ∧
  (∀ (s : State) (k : Nat) (c : NvCmd), c.committed = true → c.medium = false → s.durable k c = s.mirrored k) ∧
  (∀ (s : State) (k : Nat) (c : NvCmd), c.committed = true → c.medium = true → s.durable k c = (s.unitsOnFlash c && s.onFlash c.commitSeq)) ∧
  (∀ (s : State) (k : Nat) (c : NvCmd), s.nvf.cmds.find k = some c → c.phase = .toSoftware → c.host = [] → s.swqUsed < s.swqSize →
    ∃ t : State, exec (.nvmeSoftwareHandoff k) s = .next t ∧ t.reg rNVF_SWQ_PROD = BitVec.ofNat 32 ((s.reg rNVF_SWQ_PROD).toNat + 1) ∧
      t.nvf.cmds.find k = some { c with phase := .software, copyAt := none } ∧
      t.mem = (s.hbmWrite (s.reg64 rNVF_SWQ_BASE + 128 * ((s.reg rNVF_SWQ_PROD).toNat % s.swqSize))
        (le 4 (if c.connect then 2 ^ 31 else c.ctx) ++ le 2 c.assoc ++ le 2 c.tenant ++ le 4 0 ++ le 4 c.reason ++ le 8 0 ++ zeros 40 ++ fitBytes 64 c.sqe)).mem) ∧
  (∀ (s : State) (k : Nat) (c : NvCmd), s.nvf.cmds.find k = some c → c.phase = .toSoftware → c.host ≠ [] → s.swqUsed < s.swqSize →
    ∃ (t : State) (a : Nat), exec (.nvmeSoftwareHandoff k) s = .next t ∧ a % 64 = 0 ∧ t.reg rNVF_SWQ_PROD = BitVec.ofNat 32 ((s.reg rNVF_SWQ_PROD).toNat + 1) ∧
      t.nvf.cmds.find k = some { c with phase := .software, copyAt := some a } ∧
      t.mem = ((s.hbmWrite a c.host).hbmWrite (s.reg64 rNVF_SWQ_BASE + 128 * ((s.reg rNVF_SWQ_PROD).toNat % s.swqSize))
        (le 4 (if c.connect then 2 ^ 31 else c.ctx) ++ le 2 c.assoc ++ le 2 c.tenant ++ le 4 c.host.length ++ le 4 c.reason ++ le 8 a ++ zeros 40 ++ fitBytes 64 c.sqe)).mem) ∧
  (∀ (s : State) (k : Nat) (c : NvCmd), s.nvf.cmds.find k = some c → c.phase = .toSoftware → s.swqSize ≤ s.swqUsed →
    exec (.nvmeSoftwareHandoff k) s = .next (s.irqBit pgNVF 1)) ∧
  (∀ (s : State) (k : Nat) (c : NvCmd), s.nvf.cmds.find k = some c → c.phase ≠ .toSoftware → exec (.nvmeSoftwareHandoff k) s = .next s)

/-- The I/O queues of the host that an association or a connection faces. -/
abbrev hostQueues (s : State) (assoc : Nat) (tcp : Bool) : Nat :=
  (s.ctx.ctxs.filter (fun e => e.2.valid && !e.2.admin && e.2.tcp = tcp && s.sameHost tcp e.2.assoc assoc)).length

/-- The commands of NVF (R131). QUEUE_CREATE makes a context valid with its arguments and no other changes; it is refused for bad arguments, for more than
256 I/O queues of a host, and for a context in use. QUEUE_DELETE of a queue with no command frees it, waits while one is admitted, and is refused for
a queue that is not there or is being deleted. NS_SET writes the namespace's entry, and is refused for a number outside 1 to 65,536. COMPLETE sends a
handed-over command's completion, and ABORT ends one that waits for admission; each is refused for any other. Completes: queueCreate, queueDelete,
nsSet, complete, abort. Where the spec leaves a point open it follows the model's choice in log entries 35, 48, 50, 93, 94, 119. -/
def Obligations.NvfCommands : Prop :=
  (∀ (s : State) (h : CmdHdr) (ctx assoc ten qid cls flags cntlid size : Nat), Ready s h pgNVF pgNVF .work → 0 < size → size ≤ 4095 → cls ≤ 4 →
    (flags.testBit 0 = true ∨ hostQueues s assoc (flags.testBit 2) < 256) → (s.qctx (ctx % 2 ^ 20)).valid = false → (s.qctx (ctx % 2 ^ 20)).deleting = none →
    ∃ t : State, exec (.queueCreate h ctx assoc ten qid cls flags cntlid size) s = .next (t.ends pgNVF h stOk) ∧
      t.qctx (ctx % 2 ^ 20) = { valid := true, assoc := assoc, tenant := ten, qid := qid, cls := cls, admin := flags.testBit 0, pinned := flags.testBit 1, tcp := flags.testBit 2, cntlid := cntlid, size := size, noFlow := s.connectNoFlow assoc qid (flags.testBit 2) } ∧
      (∀ i, i ≠ ctx % 2 ^ 20 → t.qctx i = s.qctx i) ∧ (s.ctxResident (ctx % 2 ^ 20) = true → t.mem = s.mem ∧ t.regs = s.regs) ∧ t.nvf = s.nvf) ∧
  (∀ (s : State) (h : CmdHdr) (ctx assoc ten qid cls flags cntlid size : Nat), Ready s h pgNVF pgNVF .work →
    (size = 0 ∨ 4095 < size ∨ 4 < cls ∨ (flags.testBit 0 = false ∧ 256 ≤ hostQueues s assoc (flags.testBit 2))) →
    exec (.queueCreate h ctx assoc ten qid cls flags cntlid size) s = .next (s.consume.ends pgNVF h nvBadArg)) ∧
  (∀ (s : State) (h : CmdHdr) (ctx assoc ten qid cls flags cntlid size : Nat), Ready s h pgNVF pgNVF .work → 0 < size → size ≤ 4095 → cls ≤ 4 →
    (flags.testBit 0 = true ∨ hostQueues s assoc (flags.testBit 2) < 256) → ((s.qctx (ctx % 2 ^ 20)).valid = true ∨ (s.qctx (ctx % 2 ^ 20)).deleting ≠ none) →
    exec (.queueCreate h ctx assoc ten qid cls flags cntlid size) s = .next (s.consume.ends pgNVF h nvInUse)) ∧
  (∀ (s : State) (h : CmdHdr) (ctx : Nat), Ready s h pgNVF pgNVF .release → (s.qctx (ctx % 2 ^ 20)).valid = true → (s.qctx (ctx % 2 ^ 20)).deleting = none →
    (s.nvf.cmds.any fun e => e.2.ctx = ctx % 2 ^ 20) = false →
    ∃ t : State, exec (.queueDelete h ctx) s = .next (t.ends pgNVF h stOk) ∧ t.qctx (ctx % 2 ^ 20) = {} ∧ (∀ i, i ≠ ctx % 2 ^ 20 → t.qctx i = s.qctx i) ∧
      (s.ctxResident (ctx % 2 ^ 20) = true → t.mem = s.mem ∧ t.regs = s.regs) ∧ t.nvf = s.nvf) ∧
  (∀ (s : State) (h : CmdHdr) (ctx : Nat), Ready s h pgNVF pgNVF .release → (s.qctx (ctx % 2 ^ 20)).valid = true → (s.qctx (ctx % 2 ^ 20)).deleting = none →
    (∀ e, e ∈ s.nvf.cmds → e.2.ctx = ctx % 2 ^ 20 → e.2.phase = .admitted) → (s.nvf.cmds.any fun e => e.2.ctx = ctx % 2 ^ 20 && !e.2.connect) = true →
    ∃ t : State, exec (.queueDelete h ctx) s = .next (t.keeps pgNVF 0x0101 h [ctx % 2 ^ 20]) ∧
      t.qctx (ctx % 2 ^ 20) = { s.qctx (ctx % 2 ^ 20) with deleting := some h.cseq } ∧ t.nvf = s.nvf) ∧
  (∀ (s : State) (h : CmdHdr) (ctx : Nat), Ready s h pgNVF pgNVF .release → ((s.qctx (ctx % 2 ^ 20)).valid = false ∨ (s.qctx (ctx % 2 ^ 20)).deleting ≠ none) →
    exec (.queueDelete h ctx) s = .next (s.consume.ends pgNVF h nvBadArg)) ∧
  (∀ (s : State) (h : CmdHdr) (n : Nat) (e : List Byte), Ready s h pgNVF pgNVF .work → 1 ≤ n → n ≤ 65536 →
    ∃ t : State, exec (.nsSet h n e) s = .next (t.ends pgNVF h stOk) ∧ t.ns n = { nsOf e with dpEff := s.effective (nsOf e) } ∧
      (∀ m, m ≠ n → t.ns m = s.ns m)) ∧
  (∀ (s : State) (h : CmdHdr) (n : Nat) (e : List Byte), Ready s h pgNVF pgNVF .work → (n = 0 ∨ 65536 < n) →
    exec (.nsSet h n e) s = .next (s.consume.ends pgNVF h nvBadArg)) ∧
  (∀ (s : State) (h : CmdHdr) (ctx cid st d0 d1 a k : Nat), Ready s h pgNVF pgNVF .release → State.handedKey ctx cid a s = some k →
    exec (.complete h ctx cid st d0 d1 a) s =
      .next ((((s.consume.complete (s.nvCmd k) (st % 2 ^ 15) d0 d1).forget k).afterEnd (s.nvCmd k).vol).ends pgNVF h stOk)) ∧
  (∀ (s : State) (h : CmdHdr) (ctx cid st d0 d1 a : Nat), Ready s h pgNVF pgNVF .release → State.handedKey ctx cid a s = none →
    exec (.complete h ctx cid st d0 d1 a) s = .next (s.consume.ends pgNVF h nvNotPending)) ∧
  (∀ (s : State) (h : CmdHdr) (ctx cid : Nat) (c : NvCmd), Ready s h pgNVF pgNVF .release → s.nvf.cmds.find (cmdKey (ctx % 2 ^ 20) cid) = some c →
    (c.phase = .waiting ∨ c.phase = .held) →
    exec (.abort h ctx cid) s = .next ((s.consume.endCmd (cmdKey (ctx % 2 ^ 20) cid) scAborted).ends pgNVF h stOk)) ∧
  (∀ (s : State) (h : CmdHdr) (ctx cid : Nat), Ready s h pgNVF pgNVF .release →
    (∀ c, s.nvf.cmds.find (cmdKey (ctx % 2 ^ 20) cid) = some c → c.phase ≠ .waiting ∧ c.phase ≠ .held) →
    exec (.abort h ctx cid) s = .next (s.consume.ends pgNVF h nvNotQueued))

/-- NVMe/TCP (R114, R116, R117, R126, R130). A SYN takes the first free slot and is answered, a repeated one is answered again, and without a slot there
is RST. Bytes in order join the stream and are acknowledged. An ICReq sets the digests and limits of the connection, and a bad one is fatal. A
Connect's capsule, and a command's for a resident context with room, arrive; reading stops while NVF does not run, or the queue or the hand-off queue
is full; a bad data digest ends the command. Data that was asked for is taken, in one PDU or several; a transfer that falls short, or goes beyond,
ends its command; unasked data is fatal. A termination request closes the connection. An expiry halves the window and sends the oldest bytes again,
and the twelfth in a row closes it with RST. Completes: nvtcpSyn, nvtcpSegmentReceive, nvtcpIcreq, nvtcpCapsuleCmd, nvtcpH2cData, nvtcpH2cTermReq,
nvtcpRtoExpiry. Where the spec leaves a point open it follows the model's choice in log entries 93, 94, 120. -/
def Obligations.NvmeTcp : Prop :=
  (∀ (s : State) (port rp iss : Nat) (rip lip : List Byte) (syn : SynFrom), s.runs pgNVTCP = true → s.localAddr port lip = true →
    s.conns.find? (fun e => e.2.isOpen && e.2.port = port && e.2.remoteIp = rip && e.2.localIp = lip && e.2.remotePort = rp) = none → Tab.firstGap 0 s.conns < 4096 →
    exec (.nvtcpSyn port rip lip rp syn iss) s = .next ((s.setConn (Tab.firstGap 0 s.conns) (s.synConn port rip lip rp syn iss)).emit
      (.tcpSegment (Tab.firstGap 0 s.conns) (psnMod iss) (psnMod (syn.irs + 1)) (3 + 8 * b2n syn.ecn) (s.synOpts (s.synConn port rip lip rp syn iss)) []))) ∧
  (∀ (s : State) (port rp iss : Nat) (rip lip : List Byte) (syn : SynFrom) (e : Nat × Conn), s.runs pgNVTCP = true → s.localAddr port lip = true →
    s.conns.find? (fun e => e.2.isOpen && e.2.port = port && e.2.remoteIp = rip && e.2.localIp = lip && e.2.remotePort = rp) = some e →
    exec (.nvtcpSyn port rip lip rp syn iss) s = .next (s.emit (.tcpSegment e.1 (psnSub e.2.sndUna 1) e.2.rcvNxt e.2.synFlags (s.synOpts e.2) []))) ∧
  (∀ (s : State) (port rp iss : Nat) (rip lip : List Byte) (syn : SynFrom), s.runs pgNVTCP = true → s.localAddr port lip = true →
    s.conns.find? (fun e => e.2.isOpen && e.2.port = port && e.2.remoteIp = rip && e.2.localIp = lip && e.2.remotePort = rp) = none → 4096 ≤ Tab.firstGap 0 s.conns →
    exec (.nvtcpSyn port rip lip rp syn iss) s = .next (s.emit (.tcpSegment 4096 0 (psnMod (syn.irs + 1)) 6 {} []))) ∧
  (∀ (s : State) (port rp iss : Nat) (rip lip : List Byte) (syn : SynFrom), (s.runs pgNVTCP = false ∨ s.localAddr port lip = false) →
    exec (.nvtcpSyn port rip lip rp syn iss) s = .next s) ∧
  (∀ (s : State) (c : Nat) (b : SegBody) (cwr : Bool), s.working pgNVTCP = true → (s.conn c).isOpen = true → (s.conn c).unacked = [] → (s.conn c).ooo = [] →
    (s.conn c).sndNxt = (s.conn c).sndUna → b.payload ≠ [] → (s.conn c).stream.length + b.payload.length ≤ 2 ^ 20 → (s.conn c).rcvNxt < 2 ^ 32 →
    ({ s.conn c with stream := (s.conn c).stream ++ b.payload } : Conn).headFault = none →
    ∃ (t : State) (fl : Nat) (o : TcpOpts), exec (.nvtcpSegmentReceive c (s.conn c).rcvNxt (s.conn c).sndUna false cwr false b) s = .next t ∧
      (t.conn c).stream = (s.conn c).stream ++ b.payload ∧ (t.conn c).rcvNxt = psnMod ((s.conn c).rcvNxt + b.payload.length) ∧ (∀ d, d ≠ c → t.conn d = s.conn d) ∧
      t.out = .tcpSegment c (s.conn c).sndNxt (psnMod ((s.conn c).rcvNxt + b.payload.length)) fl o [] :: s.out ∧ t.mem = s.mem ∧ t.regs = s.regs) ∧
  (∀ (s : State) (c seq ack : Nat) (ce cwr ece : Bool) (b : SegBody), (s.working pgNVTCP = false ∨ (s.conn c).isOpen = false) →
    exec (.nvtcpSegmentReceive c seq ack ce cwr ece b) s = .next s) ∧
  (∀ (s : State) (c : Nat), s.pduReady c 0 = true → (s.conn c).stream.length = 128 → unLe (slice (s.conn c).stream 8 2) = 0 →
    unLe (slice (s.conn c).stream 10 1) ≤ 31 →
    ∃ t : State, exec (.nvtcpIcreq c) s = .next t ∧ (t.conn c).icDone = true ∧ (t.conn c).hpda = unLe (slice (s.conn c).stream 10 1) ∧
      (t.conn c).hdgst = ((unLe (slice (s.conn c).stream 11 1)).testBit 0 && s.fld fNVTCP_CTRL_HDGST_EN = 1) ∧
      (t.conn c).ddgst = ((unLe (slice (s.conn c).stream 11 1)).testBit 1 && s.fld fNVTCP_CTRL_DDGST_EN = 1) ∧
      (t.conn c).maxR2t = min (unLe (slice (s.conn c).stream 12 4) + 1) (s.fld fNVTCP_MAX_XFER_REQ) ∧ (t.conn c).stream = [] ∧ t.mem = s.mem ∧ t.regs = s.regs) ∧
  (∀ (s : State) (c : Nat), s.pduReady c 0 = true → unLe (slice (s.conn c).stream 8 2) ≠ 0 → exec (.nvtcpIcreq c) s = .next (s.fatalClose c fesUnsupported 8)) ∧
  (∀ (s : State) (c : Nat), s.pduReady c 0 = true → unLe (slice (s.conn c).stream 8 2) = 0 → 31 < unLe (slice (s.conn c).stream 10 1) →
    exec (.nvtcpIcreq c) s = .next (s.fatalClose c fesHeader 10)) ∧
  (∀ (s : State) (c : Nat), s.pduReady c 4 = true → s.runs pgNVF = true → s.connCtx c = none → s.swqFull = false → (s.dom 14).st ≠ .draining →
    (s.conn c).badData (pduHead (s.conn c).stream) = false →
    exec (.nvtcpCapsuleCmd c) s = .next ((s.takePdu c).arrive
      (s.capsuleCmd 0 c true true (slice (s.conn c).stream 8 64 ++ (s.conn c).dataOf (pduHead (s.conn c).stream))))) ∧
  (∀ (s : State) (c q : Nat), s.pduReady c 4 = true → s.runs pgNVF = true → s.connCtx c = some q → s.ctxResident q = true → s.sqOverflow q = false → s.swqFull = false →
    (s.dom (14 + q % 2)).st ≠ .draining → (s.conn c).badData (pduHead (s.conn c).stream) = false →
    exec (.nvtcpCapsuleCmd c) s = .next ((s.takePdu c).arrive
      (s.capsuleCmd q c true false (slice (s.conn c).stream 8 64 ++ (s.conn c).dataOf (pduHead (s.conn c).stream))))) ∧
  (∀ (s : State) (c q : Nat), s.pduReady c 4 = true → s.runs pgNVF = true → s.connCtx c = some q → s.ctxResident q = true → s.sqOverflow q = true →
    exec (.nvtcpCapsuleCmd c) s = .next (s.stopStream c)) ∧
  (∀ (s : State) (c : Nat), s.pduReady c 4 = true → s.runs pgNVF = true → s.connCtx c = none → s.swqFull = true →
    exec (.nvtcpCapsuleCmd c) s = .next ((s.stopStream c).irqBit pgNVF 1)) ∧
  (∀ (s : State) (c : Nat), s.pduReady c 4 = true → s.runs pgNVF = false → exec (.nvtcpCapsuleCmd c) s = .next (s.stopStream c)) ∧
  (∀ (s : State) (c : Nat), s.pduReady c 4 = true → s.runs pgNVF = true → s.connCtx c = none → s.swqFull = false → (s.conn c).badData (pduHead (s.conn c).stream) = true →
    exec (.nvtcpCapsuleCmd c) s = .next (((s.takePdu c).bump fNVTCP_DDGST_ERR).complete
      (s.capsuleCmd 0 c true true (slice (s.conn c).stream 8 64 ++ (s.conn c).dataOf (pduHead (s.conn c).stream))) scTransient 0 0)) ∧
  (∀ (s : State) (c cid tag k q : Nat) (x : NvCmd), s.pduReady c 6 = true → (s.conn c).xfers = [(cid, tag, k, 0)] → unLe (slice (s.conn c).stream 8 2) = cid →
    unLe (slice (s.conn c).stream 10 2) = tag → unLe (slice (s.conn c).stream 12 4) = 0 → ((s.conn c).dataOf (pduHead (s.conn c).stream)).length = k →
    unLe (slice (s.conn c).stream 16 4) = k → s.connCtx c = some q → s.nvf.cmds.find (cmdKey q cid) = some x → x.tcp = true → x.xfer = 1 →
    (s.conn c).badData (pduHead (s.conn c).stream) = false →
    exec (.nvtcpH2cData c) s = .next (((s.setConn c { s.conn c with xfers := [] }).setNvCmd (cmdKey q cid)
      { x with host := x.host ++ (s.conn c).dataOf (pduHead (s.conn c).stream) }).takePdu c)) ∧
  (∀ (s : State) (c cid tag k q n : Nat) (x : NvCmd), s.pduReady c 6 = true → (s.conn c).xfers = [(cid, tag, k, 0)] → unLe (slice (s.conn c).stream 8 2) = cid →
    unLe (slice (s.conn c).stream 10 2) = tag → unLe (slice (s.conn c).stream 12 4) = 0 → ((s.conn c).dataOf (pduHead (s.conn c).stream)).length = n → n < k →
    (unLe (slice (s.conn c).stream 1 1)).testBit 2 = false →
    unLe (slice (s.conn c).stream 16 4) = n → s.connCtx c = some q → s.nvf.cmds.find (cmdKey q cid) = some x → x.tcp = true → x.xfer = 1 →
    (s.conn c).badData (pduHead (s.conn c).stream) = false →
    exec (.nvtcpH2cData c) s = .next (((s.setConn c { s.conn c with xfers := [(cid, tag, k, n)] }).setNvCmd (cmdKey q cid)
      { x with host := x.host ++ (s.conn c).dataOf (pduHead (s.conn c).stream) }).takePdu c)) ∧
  (∀ (s : State) (c cid tag k q n : Nat) (x : NvCmd), s.pduReady c 6 = true → (s.conn c).xfers = [(cid, tag, k, 0)] → unLe (slice (s.conn c).stream 8 2) = cid →
    unLe (slice (s.conn c).stream 10 2) = tag → unLe (slice (s.conn c).stream 12 4) = 0 → ((s.conn c).dataOf (pduHead (s.conn c).stream)).length = n → n ≠ k →
    (unLe (slice (s.conn c).stream 1 1)).testBit 2 = true →
    unLe (slice (s.conn c).stream 16 4) = n → s.connCtx c = some q → s.nvf.cmds.find (cmdKey q cid) = some x → x.tcp = true → x.xfer = 1 →
    (s.conn c).badData (pduHead (s.conn c).stream) = false →
    exec (.nvtcpH2cData c) s = .next ((((s.setConn c { s.conn c with xfers := [] }).bump fNVF_LEN_MISMATCH).failCmd (cmdKey q cid) scTransfer).takePdu c)) ∧
  (∀ (s : State) (c : Nat), s.pduReady c 6 = true → (s.conn c).xfers = [] → exec (.nvtcpH2cData c) s = .next (s.fatalClose c fesSequence 10)) ∧
  (∀ (s : State) (c : Nat), s.pduReady c 2 = true → exec (.nvtcpH2cTermReq c) s = .next (s.closeConn c)) ∧
  (∀ (s : State) (c : Nat), (s.pduReady c 0 = false → exec (.nvtcpIcreq c) s = .next s) ∧ (s.pduReady c 4 = false → exec (.nvtcpCapsuleCmd c) s = .next s) ∧
    (s.pduReady c 6 = false → exec (.nvtcpH2cData c) s = .next s) ∧ (s.pduReady c 2 = false → exec (.nvtcpH2cTermReq c) s = .next s)) ∧
  (∀ (s : State) (c : Nat), (s.conn c).isOpen = true → (s.conn c).unacked ≠ [] → (s.conn c).expiries < 11 →
    exec (.nvtcpRtoExpiry c) s = .next (((s.setConn c { s.conn c with expiries := (s.conn c).expiries + 1 }).halve c).tcpResend c)) ∧
  (∀ (s : State) (c : Nat), (s.conn c).isOpen = true → (s.conn c).unacked ≠ [] → 11 ≤ (s.conn c).expiries →
    exec (.nvtcpRtoExpiry c) s = .next ((s.emit (.tcpSegment c (s.conn c).sndNxt (s.conn c).rcvNxt 6 {} [])).closeConn c)) ∧
  (∀ (s : State) (c : Nat), ((s.conn c).isOpen = false ∨ (s.conn c).unacked = []) → exec (.nvtcpRtoExpiry c) s = .next s)

/-! ### The switch (R132-R153) -/

/-- The cells of a frame: one per 256 bytes of its payload and at least one, whatever its headers and destinations; and a frame of several destinations is
stored once (R133). -/
def Obligations.CellsOfFrame : Prop :=
  ∀ f : SwFrame, (f.payload = [] → frameCells f = 1) ∧ 256 * (frameCells f - 1) ≤ f.payload.length ∧ f.payload.length ≤ 256 * frameCells f ∧
    (f.payload ≠ [] → 256 * (frameCells f - 1) < f.payload.length) ∧
    (∀ (s : State) (dests : List Nat) (h sh : Nat), (s.enqueue f dests h sh 0).sw.nextId = s.sw.nextId + 1 ∧
      ((s.enqueue f dests h sh 0).stored s.sw.nextId).left = dests ∧ (∀ k, k ≠ s.sw.nextId → (s.enqueue f dests h sh 0).stored k = s.stored k))

/-- The switch (R134, R137, R143, R145, R147, R152): a frame without a destination is counted and captured; one toward a destination that is down, or for
which no cells are left, is dropped and counted; one shorter than it announced is crazed; any other of a unicast class with headroom joins its
destination's queue. While the switch does not run an external frame is dropped and an internal one held. A copy held too long is Not delivered, and
one whose result is known stays as it is; a member that goes down hands its queues to the next one up, and one whose link is enabled in a powered
domain comes up. Completes: swFrameInput, mcHoldTimeout, peerMemberDown, plinkLinkUp. Where the spec leaves a point open it follows the model's choice
in log entry 22. -/
def Obligations.Switch : Prop :=
  (∀ (s : State) (f : SwFrame), f.cls < 8 → f.src < 21 → s.runs pgSW = true → f.mask % 2 ^ 21 = 0 →
    exec (.swFrameInput f) s = .next (((s.bump fSW_NO_DEST).capture pgSW 0x01 f.src 0).irqBit pgSW 3)) ∧
  (∀ (s : State) (f : SwFrame), f.cls < 8 → f.src < 21 → isExternal f.src = true → s.runs pgSW = false →
    exec (.swFrameInput f) s = .next (s.inDrop (s.inClass f).cls)) ∧
  (∀ (s : State) (f : SwFrame), f.cls < 8 → f.src < 21 → isExternal f.src = false → s.runs pgSW = false →
    exec (.swFrameInput f) s = .next { s with sw.heldIn := s.sw.heldIn ++ [s.inClass f] }) ∧
  (∀ (s : State) (f : SwFrame), (8 ≤ f.cls ∨ 21 ≤ f.src) → exec (.swFrameInput f) s = .next s) ∧
  (∀ (s : State) (f : SwFrame) (e : Nat), f.cls < 8 → f.src < 21 → s.runs pgSW = true → f.mask = 2 ^ e → e < 21 → ¬ (8 ≤ e ∧ e < 12) → s.epOn e = false →
    f.cmd = none → exec (.swFrameInput f) s = .next (s.bump fSW_DEST_DOWN_DROP)) ∧
  (∀ (s : State) (f : SwFrame) (e : Nat), f.cls < 8 → f.src < 21 → s.runs pgSW = true → f.mask = 2 ^ e → e < 21 → ¬ (8 ≤ e ∧ e < 12) → s.epOn e = true →
    f.cmd = none → f.corr = 0 → s.sw.cfg.ovfEn.testBit f.cls = false → headroomOf (s.bufRes f.cls) f.cls ≤ s.headUse f.cls → s.sharedFree < frameCells f →
    exec (.swFrameInput f) s = .next (s.inDrop f.cls)) ∧
  (∀ (s : State) (f : SwFrame) (e : Nat), f.cls < 8 → f.src < 21 → s.runs pgSW = true → f.mask = 2 ^ e → e < 21 → ¬ (8 ≤ e ∧ e < 12) → s.epOn e = true →
    f.cmd = none → f.bad = 0 → f.corr = 0 → f.payload.length < f.len → s.sw.cfg.ovfEn.testBit f.cls = false →
    frameCells f ≤ headroomOf (s.bufRes f.cls) f.cls - s.headUse f.cls → exec (.swFrameInput f) s = .next (s.crazed f 2 e)) ∧
  (∀ (s : State) (f : SwFrame) (e : Nat), f.cls < 8 → f.src < 12 → s.runs pgSW = true → f.mask = 2 ^ e → e < 21 → ¬ (8 ≤ e ∧ e < 12) → s.epOn e = true →
    f.cmd = none → f.bad = 0 → f.corr = 0 → f.len ≤ f.payload.length → s.epLive f.src = true → (isExternal e = true ∨ s.fld fSW_CTRL_CT_EN = 0) → (s.sw.cfg.ovfEn.testBit f.cls = false) → frameCells f ≤ headroomOf (s.bufRes f.cls) f.cls - s.headUse f.cls →
    s.fld (fSW_ECN_MARK_CELLS f.cls) = 0 →
    ∃ t : State, exec (.swFrameInput f) s = .next t ∧ t.swQueue e f.cls = s.swQueue e f.cls ++ [s.sw.nextId] ∧
      t.stored s.sw.nextId = { frame := f, head := frameCells f, shared := 0, ovf := 0, ovfAt := [], left := [e] } ∧
      (∀ d c, 8 * d + c ≠ 8 * e + f.cls → t.swQueue d c = s.swQueue d c) ∧ t.mem = s.mem ∧ t.regs = s.regs ∧ t.pages = s.pages) ∧
  (∀ (s : State) (k d : Nat) (c : NvCmd), s.nvf.cmds.find k = some c → d < 3 → c.wants d = true → c.result d = none → c.xfer ≠ 0 →
    ∃ t : State, exec (.mcHoldTimeout k d) s = .next t ∧ t.nvf.cmds.find k = some (c.setResult d false) ∧
      t.fld fSW_MC_FAIL = min (2 ^ 32 - 1) (s.fld fSW_MC_FAIL + 1) ∧ t.mem = s.mem) ∧
  (∀ (s : State) (k d : Nat) (c : NvCmd), s.nvf.cmds.find k = some c → (c.wants d = false ∨ c.result d ≠ none ∨ c.xfer = 0) →
    exec (.mcHoldTimeout k d) s = .next (s.dropCopies k d)) ∧
  (∀ (s : State) (m n : Nat), m < 4 → n < 4 → n ≠ m → (s.setFld (fPLINK_STAT_LINK_UP m) 0).servingMember m = some n →
    ∃ t : State, exec (.peerMemberDown m) s = .next t ∧ (∀ c, c < 8 → t.swQueue (8 + m) c = [] ∧
      t.swQueue (8 + n) c = s.swQueue (8 + n) c ++ s.swQueue (8 + m) c) ∧ t.fld (fPLINK_STAT_LINK_UP m) = 0 ∧ t.mem = s.mem) ∧
  (∀ (s : State) (m : Nat), 4 ≤ m → exec (.peerMemberDown m) s = .next s) ∧
  (∀ (s : State) (m : Nat), m < 4 → s.domOn 20 = true → s.fld (fPLINK_CTRL_LINK_EN m) = 1 →
    exec (.plinkLinkUp m) s = .next (s.setFld (fPLINK_STAT_LINK_UP m) 1)) ∧
  (∀ (s : State) (m : Nat), (4 ≤ m ∨ s.domOn 20 = false ∨ s.fld (fPLINK_CTRL_LINK_EN m) = 0) → exec (.plinkLinkUp m) s = .next s)

/-! ### The ware lanes (R154-R202) -/

/-- The operands of MARK_DIGEST that R163 allows. -/
abbrev DigestArgs (h : CmdHdr) (q fl slot src len res : Nat) : Prop :=
  q < 4 ∧ h.inst = q ∧ slot ≤ 4095 ∧ len ≤ 2 ^ 40 ∧ res % 64 = 0 ∧ src + len ≤ hbmEnd ∧ res + (if fl % 2 = 0 then 32 else 64) ≤ hbmEnd

/-- Mark (R154-R165, log entry 97). A derive leaves an Empty slot Ready with the key that its wrapped record holds; with another argument, an
occupied slot or a key that cannot be unwrapped it ends with 1, 2 or 4. A clear empties a slot that no message holds, runs until one that is held is
left, and ends with 3 where there is no key. While a refill runs both wait. A digest on a free lane writes SHA or, under its slot, HMAC to RESULT,
ends with 1, 5 or 6 without its argument, key or source, and waits for a lane. Programmed I/O opens a message, appends bytes and counts them, and
delivers its digest; what it cannot take is captured. A refill ends with the copy held. A unit's fingerprint is the HMAC under its domain's slot,
restarts on a crazed frame, and is NO_KEY without the slot. Completes: markKeyDerive, markKeyClear, markKeyClearDone, markDigest, markPioStart,
markPioData, markPioLast, markPioDone, markKeyRefillDone, markFingerprint. Where the spec leaves a point open it follows the model's choice in log
entry 49. -/
def Obligations.MarkEngine : Prop :=
  (∀ (s : State) (h : CmdHdr) (slot alg ks p : Nat) (key : List Byte), Ready s h pgMARK p .work → h.inst = 0xFF → slot ≤ 4095 → alg ≤ 1 → s.refilling = false → (s.markSlot slot).st = 0 → s.zeroized = false →
    (s.keyRec ks).type = 2 → s.kekValid (s.keyRec ks).kek = true → s.hbmErr (s.reg64 rKEYS_WRAP_BASE + 128 * ks) 128 = false →
    keyUnwrap (s.kek (s.keyRec ks).kek) ((s.keyRec ks).wrapped.take ((s.keyRec ks).len + 8)) = some key →
    ∃ t : State, exec (.markKeyDerive h slot alg ks) s = .next (t.ends p h stOk) ∧
      t.markSlot slot = { st := 1, alg512 := decide (alg = 1), key := key } ∧ (∀ i, i ≠ slot → t.markSlot i = s.markSlot i) ∧ t.mem = s.mem ∧ t.regs = s.regs) ∧
  (∀ (s : State) (h : CmdHdr) (slot alg ks p : Nat), Ready s h pgMARK p .work →
    ((h.inst ≠ 0xFF ∨ 4095 < slot ∨ 1 < alg) → exec (.markKeyDerive h slot alg ks) s = .next (s.consume.ends p h 1)) ∧
    (h.inst = 0xFF → slot ≤ 4095 → alg ≤ 1 → s.refilling = true → exec (.markKeyDerive h slot alg ks) s =
      .next (({ s.consume with mark.waiting := s.mark.waiting ++ [(h.cseq, true, slot, alg, ks)] } : State).keeps p 0x0100 h [slot])) ∧
    (h.inst = 0xFF → slot ≤ 4095 → alg ≤ 1 → s.refilling = false → (s.markSlot slot).st ≠ 0 → exec (.markKeyDerive h slot alg ks) s = .next (s.consume.ends p h 2)) ∧
    (h.inst = 0xFF → slot ≤ 4095 → alg ≤ 1 → s.refilling = false → (s.markSlot slot).st = 0 →
      (s.zeroized = true ∨ (s.keyRec ks).type ≠ 2 ∨ s.kekValid (s.keyRec ks).kek = false ∨ s.hbmErr (s.reg64 rKEYS_WRAP_BASE + 128 * ks) 128 = true ∨
        keyUnwrap (s.kek (s.keyRec ks).kek) ((s.keyRec ks).wrapped.take ((s.keyRec ks).len + 8)) = none) →
      exec (.markKeyDerive h slot alg ks) s = .next (s.consume.ends p h 4))) ∧
  (∀ (s : State) (h : CmdHdr) (slot p : Nat), Ready s h pgMARK p .release →
    ((h.inst ≠ 0xFF ∨ 4095 < slot) → exec (.markKeyClear h slot) s = .next (s.consume.ends p h 1)) ∧
    (h.inst = 0xFF → slot ≤ 4095 → s.refilling = true → exec (.markKeyClear h slot) s =
      .next (({ s.consume with mark.waiting := s.mark.waiting ++ [(h.cseq, false, slot, 0, 0)] } : State).keeps p 0x0101 h [slot])) ∧
    (h.inst = 0xFF → slot ≤ 4095 → s.refilling = false → (s.markSlot slot).st ≠ 1 → exec (.markKeyClear h slot) s = .next (s.consume.ends p h 3)) ∧
    (h.inst = 0xFF → slot ≤ 4095 → s.refilling = false → (s.markSlot slot).st = 1 → s.markHolds slot = 0 →
      exec (.markKeyClear h slot) s = .next ((s.consume.setMarkSlot slot {}).ends p h stOk)) ∧
    (h.inst = 0xFF → slot ≤ 4095 → s.refilling = false → (s.markSlot slot).st = 1 → 0 < s.markHolds slot →
      exec (.markKeyClear h slot) s = .next ((s.consume.setMarkSlot slot { s.markSlot slot with st := 2, clear := some h.cseq }).keeps p 0x0101 h [slot]))) ∧
  (∀ (s : State) (slot q : Nat), (s.markSlot slot).st = 2 → s.markHolds slot = 0 → (s.markSlot slot).clear = some q →
    exec (.markKeyClearDone slot) s = .next ((s.setMarkSlot slot {}).finishRunning q 0 stOk)) ∧
  (∀ (s : State) (slot : Nat), (s.markSlot slot).st ≠ 2 ∨ 0 < s.markHolds slot → exec (.markKeyClearDone slot) s = .next s) ∧
  (∀ (s : State) (h : CmdHdr) (q fl slot src len res k : Nat) (ecc : Bool), DigestArgs h q fl slot src len res → Ready s h pgMARK (quadPage pgMARK q) .work →
    (len = 0 ∨ s.hbmErr src len = false) → s.jobLane q = some k → fl.testBit 1 = false →
    exec (.markDigest h fl slot src len res ecc) s =
      .next (((s.consume.hbmWrite res (shaAlg (fl % 2) (s.hbmRead src len))).markLanes q).ends (quadPage pgMARK q) h stOk)) ∧
  (∀ (s : State) (h : CmdHdr) (q fl slot src len res k : Nat) (key : List Byte), DigestArgs h q fl slot src len res → Ready s h pgMARK (quadPage pgMARK q) .work →
    (len = 0 ∨ s.hbmErr src len = false) → s.jobLane q = some k → fl.testBit 1 = true → s.markKey q slot (decide (fl % 2 = 1)) = some key →
    exec (.markDigest h fl slot src len res false) s =
      .next (((s.consume.hbmWrite res (hmac (fl % 2) key (s.hbmRead src len))).markLanes q).ends (quadPage pgMARK q) h stOk)) ∧
  (∀ (s : State) (h : CmdHdr) (q fl slot src len res k : Nat), DigestArgs h q fl slot src len res → Ready s h pgMARK (quadPage pgMARK q) .work → s.jobLane q = some k → fl.testBit 1 = true →
    (∀ ecc : Bool, s.markKey q slot (decide (fl % 2 = 1)) = none → exec (.markDigest h fl slot src len res ecc) s =
      .next (((s.consume.markError q 0x01 slot).markLanes q).ends (quadPage pgMARK q) h 5)) ∧
    (s.markKey q slot (decide (fl % 2 = 1)) ≠ none → exec (.markDigest h fl slot src len res true) s =
      .next (((s.consume.markEcc q slot).markLanes q).ends (quadPage pgMARK q) h 5))) ∧
  (∀ (s : State) (h : CmdHdr) (q fl slot src len res k : Nat), DigestArgs h q fl slot src len res → Ready s h pgMARK (quadPage pgMARK q) .work → s.jobLane q = some k →
    0 < len → s.hbmErr src len = true → fl.testBit 1 = false →
    exec (.markDigest h fl slot src len res false) s =
      .next ((((s.consume.noteErr src len).markError q 0x05 k).markLanes q).ends (quadPage pgMARK q) h 6)) ∧
  (∀ (s : State) (h : CmdHdr) (fl slot src len res p : Nat) (ecc : Bool), Ready s h pgMARK p .work →
    (3 < h.inst ∨ 4095 < slot ∨ 2 ^ 40 < len ∨ res % 64 ≠ 0 ∨ hbmEnd < src + len ∨ hbmEnd < res + (if fl % 2 = 0 then 32 else 64)) →
    exec (.markDigest h fl slot src len res ecc) s = .next (s.consume.ends p h 1)) ∧
  (∀ (s : State) (h : CmdHdr) (q fl slot src len res : Nat) (ecc : Bool), DigestArgs h q fl slot src len res → Ready s h pgMARK (quadPage pgMARK q) .work → s.jobLane q = none →
    ∃ t : State, exec (.markDigest h fl slot src len res ecc) s = .next (t.keeps (quadPage pgMARK q) 0x0102 h []) ∧
      (t.markQuad q).jobs = (s.markQuad q).jobs ++ [⟨h.cseq, fl, slot, src, len, res, ecc⟩] ∧ t.mem = s.mem ∧ t.regs = s.regs) ∧
  (∀ (s : State) (q : Nat), q < 4 → Reaches s (pgMarkQ q) → s.runs (pgMarkQ q) = true → (s.markQuad q).pio = none →
    (s.fld (fMARK_PIO_CTRL_HMAC q) = 0 ∨ (s.markKey q (s.fld (fMARK_PIO_CTRL_SLOT q)) (decide (s.fld (fMARK_PIO_CTRL_ALG q) = 1))).isSome = true) →
    ∃ t : State, exec (.markPioStart q) s = .next t ∧ (t.markQuad q).pio = some { alg512 := decide (s.fld (fMARK_PIO_CTRL_ALG q) = 1), hmac := decide (s.fld (fMARK_PIO_CTRL_HMAC q) = 1), slot := s.fld (fMARK_PIO_CTRL_SLOT q), lane := s.jobLane q } ∧ t.reg64 (rMARK_PIO_COUNT q) = 0 ∧ t.fld (fMARK_PIO_CTRL_DONE q) = 0 ∧ t.mem = s.mem ∧ t.pages = s.pages) ∧
  (∀ (s : State) (q : Nat), q < 4 → Reaches s (pgMarkQ q) → s.runs (pgMarkQ q) = true → (s.markQuad q).pio = none → s.fld (fMARK_PIO_CTRL_HMAC q) = 1 →
    s.markKey q (s.fld (fMARK_PIO_CTRL_SLOT q)) (decide (s.fld (fMARK_PIO_CTRL_ALG q) = 1)) = none →
    ∃ t : State, exec (.markPioStart q) s = .next (t.markError q 0x01 (s.fld (fMARK_PIO_CTRL_SLOT q))) ∧ t.mark = s.mark ∧ t.fld (fMARK_PIO_CTRL_DONE q) = 0 ∧ t.mem = s.mem ∧
      t.pages = s.pages) ∧
  (∀ (s : State) (q : Nat), q < 4 → Reaches s (pgMarkQ q) → (s.runs (pgMarkQ q) = false → exec (.markPioStart q) s = .next s) ∧
    (s.runs (pgMarkQ q) = true → (s.markQuad q).pio ≠ none → exec (.markPioStart q) s = .next (s.markError q 0x03 (s.pioLaneNo q)))) ∧
  (∀ (s : State) (q d : Nat) (ecc : Bool) (m : MarkPio), q < 4 → Reaches s (pgMarkQ q) → (s.markQuad q).pio = some m → m.ended = false → m.data.length + 8 < 2 ^ 56 →
    (ecc = false ∨ m.hmac = false) → exec (.markPioData q 64 d ecc) s = .next (s.pioTakes q m (le 8 d) false)) ∧
  (∀ (s : State) (q d : Nat) (m : MarkPio), q < 4 → Reaches s (pgMarkQ q) → (s.markQuad q).pio = some m → m.ended = false →
    m.data.length + min 8 (s.fld (fMARK_PIO_CTRL_LAST_VALID q)) < 2 ^ 56 →
    exec (.markPioLast q 64 d) s = .next (s.pioTakes q m ((le 8 d).take (min 8 (s.fld (fMARK_PIO_CTRL_LAST_VALID q)))) true)) ∧
  (∀ (s : State) (q size d : Nat) (ecc : Bool), q < 4 → Reaches s (pgMarkQ q) → ((s.markQuad q).pio = none ∨ size ≠ 64 ∨ ∃ m, (s.markQuad q).pio = some m ∧ m.ended = true) →
    exec (.markPioData q size d ecc) s = .next (s.markError q 0x03 (s.pioLaneNo q)) ∧ exec (.markPioLast q size d) s = .next (s.markError q 0x03 (s.pioLaneNo q))) ∧
  (∀ (s : State) (q d : Nat) (m : MarkPio), q < 4 → Reaches s (pgMarkQ q) → (s.markQuad q).pio = some m → m.ended = false → m.hmac = true →
    exec (.markPioData q 64 d true) s = .next ((s.markEcc q m.slot).markLanes q)) ∧
  (∀ (s : State) (q d : Nat) (m : MarkPio), q < 4 → Reaches s (pgMarkQ q) → (s.markQuad q).pio = some m → m.ended = false → 2 ^ 56 ≤ m.data.length + 8 →
    exec (.markPioData q 64 d false) s = .next ((s.markError q 0x02 (s.pioLaneNo q)).pioAbort q)) ∧
  (∀ (s : State) (q d : Nat) (m : MarkPio), q < 4 → Reaches s (pgMarkQ q) → (s.markQuad q).pio = some m → m.ended = false →
    2 ^ 56 ≤ m.data.length + min 8 (s.fld (fMARK_PIO_CTRL_LAST_VALID q)) → exec (.markPioLast q 64 d) s = .next ((s.markError q 0x02 (s.pioLaneNo q)).pioAbort q)) ∧
  (∀ (s : State) (q size d : Nat) (ecc : Bool), q < 4 → s.pageOn (pgMarkQ q) = false → exec (.markPioStart q) s = .next (s.bump fCHIP_OFF_ACCESS) ∧
    exec (.markPioData q size d ecc) s = .next (s.bump fCHIP_OFF_ACCESS) ∧ exec (.markPioLast q size d) s = .next (s.bump fCHIP_OFF_ACCESS)) ∧
  (∀ (s : State) (q : Nat) (m : MarkPio), q < 4 → (s.markQuad q).pio = some m → m.ended = true → m.lane.isSome = true →
    exec (.markPioDone q) s = .next (((((s.setMarkQuad q { s.markQuad q with pio := none }).setPioResult q
      (if m.hmac then hmac (b2n m.alg512) (s.markSlot m.slot).key m.data else shaAlg (b2n m.alg512) m.data)).setFld
      (fMARK_PIO_CTRL_DONE q) 1).irqBit (pgMarkQ q) 0).markLanes q)) ∧
  (∀ (s : State) (q : Nat), q < 4 → (∀ m, (s.markQuad q).pio = some m → m.ended = false ∨ m.lane = none) → exec (.markPioDone q) s = .next s) ∧
  (∀ (s : State) (q : Nat), q < 4 → (s.markQuad q).refill = true → s.domOn (27 + q) = true →
    ∃ t : State, exec (.markKeyRefillDone q) s = .next t.markWaiters ∧ (t.markQuad q).copy = true ∧ (t.markQuad q).refill = false ∧ (t.markQuad q).missing = [] ∧
      t.mark.slots = s.mark.slots ∧ t.mark.waiting = s.mark.waiting ∧
      ((s.page (pgMarkQ q)).enable = true → (s.page (pgMarkQ q)).quiesce = false → (t.page (pgMarkQ q)).st = .run)) ∧
  (∀ (s : State) (q : Nat), ((s.markQuad q).refill = false ∨ s.domOn (27 + q) = false) → exec (.markKeyRefillDone q) s = .next s) ∧
  (∀ (s : State) (q size d : Nat) (ecc : Bool), 4 ≤ q → exec (.markPioStart q) s = .next s ∧ exec (.markPioData q size d ecc) s = .next s ∧
    exec (.markPioLast q size d) s = .next s ∧ exec (.markPioDone q) s = .next s ∧ exec (.markKeyRefillDone q) s = .next s) ∧
  (∀ (s : State) (u : Nat) (w : WareUnit), s.wareUnit u = some w → w.phase = .mark → w.lane.isSome = true → w.held = true → s.working (pgMarkQ w.quad) = true →
    exec (.markFingerprint u false false) s =
      .next (((s.setWareUnit u { w with phase := .lookup false, fp := hmac 0 (s.markSlot w.dom).key w.data, lane := none, held := false }).bump
        (fMARK_FP_DONE w.quad)).markLanes w.quad)) ∧
  (∀ (s : State) (u : Nat) (w : WareUnit) (ecc : Bool), s.wareUnit u = some w → w.phase = .mark → w.lane.isSome = true → s.working (pgMarkQ w.quad) = true →
    exec (.markFingerprint u true ecc) s = .next (s.bump (fMARK_FP_RESTART w.quad)) ∧
    (w.held = false → exec (.markFingerprint u false ecc) s = .next (((s.unitNoKey u w).markError w.quad 0x01 w.dom).markLanes w.quad)) ∧
    (w.held = true → exec (.markFingerprint u false true) s = .next ((s.markEcc w.quad w.dom).markLanes w.quad))) ∧
  (∀ (s : State) (u : Nat) (crazed ecc : Bool), (∀ w, s.wareUnit u = some w → w.phase ≠ .mark ∨ w.lane = none ∨ s.working (pgMarkQ w.quad) = false) →
    exec (.markFingerprint u crazed ecc) s = .next s)

/-- Grog (R166-R187, log entry 102). A lookup in an Active domain of its tenant goes on with the matches of its hot bucket, and without one as
in order 4; in another it is stored without an index. The resolution of a pending match, and a probe's page, lead to the matches to confirm, and these
to a hit, a read-back, the replacement of a full unit, or the next match; a read-back that agrees is a hit, one that differs a collision. A merge
takes the next record of the log. The domain commands set, purge and free a domain's entry; a reconciliation puts every unit above the checkpoint into
the log again; and a lost bucket is written again from the content map. Each command that cannot be taken ends with its status. Completes: grogLookup,
grogPendingResolve, grogProbeDone, grogConfirm, grogVerifyDone, grogMerge, grogDomainSet, grogDomainPurge, grogPurgeDone, grogReconcile,
grogReconcileDone, grogIndexRebuild, grogIndexRebuildDone. Where the spec leaves a point open it follows the model's choice in log entry 44. -/
def Obligations.GrogLookups : Prop :=
  (∀ (s : State) (u : Nat) (w0 w : WareUnit) (nk : Bool), s.grogUnit u = some w0 →
    ((w0.phase = .lookup nk ∧ w = { w0 with hotOnly := (s.domEnt w0.dom).hotOnly, verify := (s.domEnt w0.dom).verify }) ∨ (w0.phase = .pinned ∧ w = w0 ∧ nk = false)) →
    (s.hbmErr (s.reg64 (rGROG_DOM_BASE 0) + 16 * w.dom) 16 = true →
      exec (.grogLookup u) s = .next (((s.noteErr (s.reg64 (rGROG_DOM_BASE 0) + 16 * w.dom) 16).grogError w.quad 0x05 w.dom).notIndexed u w)) ∧
    (s.hbmErr (s.reg64 (rGROG_DOM_BASE 0) + 16 * w.dom) 16 = false → (s.domEnt w.dom).st = 1 → (s.domEnt w.dom).tenant ≠ w.tenant →
      exec (.grogLookup u) s = .next ((s.grogError w.quad 0x03 w.dom).notIndexed u w)) ∧
    (s.hbmErr (s.reg64 (rGROG_DOM_BASE 0) + 16 * w.dom) 16 = false → ((s.domEnt w.dom).st ≠ 1 ∨ ((s.domEnt w.dom).tenant = w.tenant ∧ nk = true)) →
      exec (.grogLookup u) s = .next (s.notIndexed u w)) ∧
    (s.hbmErr (s.reg64 (rGROG_DOM_BASE 0) + 16 * w.dom) 16 = false → (s.domEnt w.dom).st = 1 → (s.domEnt w.dom).tenant = w.tenant → nk = false →
      s.hbmErr (s.reg64 (rGROG_HOT_BASE 0) + 64 * fpH w.fp) 64 = false → s.untried w = [] → exec (.grogLookup u) s = .next (s.orderFour u { w with cands := [] })) ∧
    (s.hbmErr (s.reg64 (rGROG_DOM_BASE 0) + 16 * w.dom) 16 = false → (s.domEnt w.dom).st = 1 → (s.domEnt w.dom).tenant = w.tenant → nk = false →
      s.hbmErr (s.reg64 (rGROG_HOT_BASE 0) + 64 * fpH w.fp) 64 = false → s.untried w ≠ [] → exec (.grogLookup u) s = .next (s.takeMatches u w (s.untried w))) ∧
    (s.hbmErr (s.reg64 (rGROG_DOM_BASE 0) + 16 * w.dom) 16 = false → (s.domEnt w.dom).st = 1 → (s.domEnt w.dom).tenant = w.tenant → nk = false →
      s.hbmErr (s.reg64 (rGROG_HOT_BASE 0) + 64 * fpH w.fp) 64 = true →
      exec (.grogLookup u) s = .next ((s.hotCheck w.quad (fpH w.fp)).orderFour u { w with cands := [] }))) ∧
  (∀ (s : State) (u : Nat), (∀ w, s.grogUnit u = some w → w.phase ≠ .lookup true ∧ w.phase ≠ .lookup false ∧ w.phase ≠ .pinned) → exec (.grogLookup u) s = .next s) ∧
  (∀ (s : State) (u k : Nat) (w : WareUnit) (e : HotWay), s.grogUnit u = some w → w.phase = .pend k → e = s.hotWay (k / 4) (k % 4) →
    (e.valid = true → e.dom = w.dom → e.tag = fpT w.fp / 4 → e.pend = true → exec (.grogPendingResolve u) s = .next s) ∧
    (e.valid = true → e.dom = w.dom → e.tag = fpT w.fp / 4 → e.pend = false →
      exec (.grogPendingResolve u) s = .next (s.setWareUnit u { w with phase := .confirm, cands := (e.cid, some k, false) :: w.cands })) ∧
    ((e.valid = false ∨ e.dom ≠ w.dom ∨ e.tag ≠ fpT w.fp / 4) → exec (.grogPendingResolve u) s = .next (s.grogLookup u w false))) ∧
  (∀ (s : State) (u : Nat), (∀ w k, s.grogUnit u = some w → w.phase ≠ .pend k) → exec (.grogPendingResolve u) s = .next s) ∧
  (∀ (s : State) (u : Nat) (w : WareUnit) (es : List FidxEnt), s.grogUnit u = some w → w.phase = .probe → s.fidxDir (fpB w.fp) ≠ dirRebuilding →
    es = (s.fidxPage (s.fidxOf w.fp)).ents.filter (fun e => e.tag = fpT w.fp && e.dom = w.dom) →
    (es = [] → exec (.grogProbeDone u false) s = .next (s.orderFour u { w with cands := [] })) ∧
    (es ≠ [] → exec (.grogProbeDone u false) s = .next (s.setWareUnit u { w with phase := .confirm, cands := es.map (fun e => (e.cid, none, true)) })) ∧
    exec (.grogProbeDone u true) s = .next ((s.fidxLost w.quad (fpB w.fp)).grogMiss u w)) ∧
  (∀ (s : State) (u : Nat) (w : WareUnit) (bad : Bool), s.grogUnit u = some w → w.phase = .probe → s.fidxDir (fpB w.fp) = dirRebuilding →
    exec (.grogProbeDone u bad) s = .next (s.grogMiss u w)) ∧
  (∀ (s : State) (u : Nat) (bad : Bool), (∀ w, s.grogUnit u = some w → w.phase ≠ .probe) → exec (.grogProbeDone u bad) s = .next s) ∧
  (∀ (s : State) (u cid : Nat) (w : WareUnit) (way : Option Nat) (x : Bool) (rest : List (Nat × Option Nat × Bool)), s.grogUnit u = some w → w.phase = .confirm →
    w.cands = (cid, way, x) :: rest → (s.resident (contentMpa cid) = true ∨ s.back.pageLoc.find (contentMpa cid) = none) →
    (cid < 16 ∨ (s.cont cid).refs = 0 ∨ (s.cont cid).dom ≠ w.dom → exec (.grogConfirm u) s = .next (((s.dropStale w cid way).bump (fGROG_STALE w.quad)).lookupOn u w rest)) ∧
    (16 ≤ cid → (s.cont cid).refs ≠ 0 → (s.cont cid).dom = w.dom → (s.cont cid).fp ≠ w.fp →
      exec (.grogConfirm u) s = .next (s.lookupOn u { w with tried := w.tried ++ [(cid, (s.cont cid).createSeq)] } rest)) ∧
    (16 ≤ cid → (s.cont cid).refs = 0xFFFFFFFF → (s.cont cid).dom = w.dom → (s.cont cid).fp = w.fp → exec (.grogConfirm u) s = .next (s.replaceFull u w cid way (s.cont cid))) ∧
    (16 ≤ cid → (s.cont cid).refs ≠ 0 → (s.cont cid).refs ≠ 0xFFFFFFFF → (s.cont cid).dom = w.dom → (s.cont cid).fp = w.fp → w.verify = false →
      exec (.grogConfirm u) s = .next (s.grogHit u w cid way x)) ∧
    (16 ≤ cid → (s.cont cid).refs ≠ 0 → (s.cont cid).refs ≠ 0xFFFFFFFF → (s.cont cid).dom = w.dom → (s.cont cid).fp = w.fp → w.verify = true →
      ((s.cont cid).poisoned = true ∨ (s.cont cid).indet = true) →
      exec (.grogConfirm u) s = .next ((s.bump (fGROG_MISS w.quad)).newUnit u { w with cands := rest } false).1) ∧
    (16 ≤ cid → (s.cont cid).refs ≠ 0 → (s.cont cid).refs ≠ 0xFFFFFFFF → (s.cont cid).dom = w.dom → (s.cont cid).fp = w.fp → w.verify = true →
      (s.cont cid).poisoned = false → (s.cont cid).indet = false → exec (.grogConfirm u) s = .next ((s.setWareUnit u { w with phase := .verify }).startRead
        { cmd := 2 ^ 50 + u, idx := 0, lba := w.lba, cid := cid, app := w.app, quad := w.quad }))) ∧
  (∀ (s : State) (u cid : Nat) (w : WareUnit) (way : Option Nat) (x : Bool) (rest : List (Nat × Option Nat × Bool)), s.grogUnit u = some w → w.phase = .confirm →
    w.cands = (cid, way, x) :: rest → s.resident (contentMpa cid) = false → s.back.pageLoc.find (contentMpa cid) ≠ none →
    exec (.grogConfirm u) s = .next (s.wantPage (contentMpa cid))) ∧
  (∀ (s : State) (u : Nat) (w : WareUnit), s.grogUnit u = some w → w.phase = .confirm → w.cands = [] → exec (.grogConfirm u) s = .next (s.orderFour u w)) ∧
  (∀ (s : State) (u : Nat), (∀ w, s.grogUnit u = some w → w.phase ≠ .confirm) → exec (.grogConfirm u) s = .next s) ∧
  (∀ (s v : State) (u cid id : Nat) (w : WareUnit) (way : Option Nat) (x : Bool) (rest : List (Nat × Option Nat × Bool)) (r : ReadUnit), s.grogUnit u = some w →
    w.phase = .verify → w.cands = (cid, way, x) :: rest → s.verifyRead u = some (id, r) → v = { s with ware.reads := s.ware.reads.del id } →
    (r.phase = .done → (s.cont cid).refs ≠ 0 → (s.cont cid).refs ≠ 0xFFFFFFFF → (s.cont cid).dom = w.dom → (s.cont cid).fp = w.fp →
      exec (.grogVerifyDone u) s = .next (if r.data = w.data then v.grogHit u w cid way x else v.collision u w cid)) ∧
    (r.phase = .done → ((s.cont cid).refs = 0 ∨ (s.cont cid).dom ≠ w.dom ∨ (s.cont cid).fp ≠ w.fp) →
      exec (.grogVerifyDone u) s = .next (v.setWareUnit u { w with phase := .confirm })) ∧
    (r.phase = .done → (s.cont cid).refs = 0xFFFFFFFF → (s.cont cid).dom = w.dom → (s.cont cid).fp = w.fp →
      exec (.grogVerifyDone u) s = .next (v.replaceFull u w cid way (s.cont cid))) ∧
    (∀ st, r.phase = .failed st → exec (.grogVerifyDone u) s = .next ((v.bump (fGROG_MISS w.quad)).newUnit u { w with cands := rest } false).1) ∧
    (r.phase ≠ .done → (∀ st, r.phase ≠ .failed st) → exec (.grogVerifyDone u) s = .next s)) ∧
  (∀ (s : State) (u : Nat), (∀ w, s.grogUnit u = some w → w.phase ≠ .verify ∨ w.cands = [] ∨ s.verifyRead u = none) → exec (.grogVerifyDone u) s = .next s) ∧
  (∀ (s : State) (b : Bool), s.working (pgGrogQ 0) = false ∨ (∀ r ∈ s.grog.ilog, r.merged = true) → exec (.grogMerge b) s = .next s) ∧
  (∀ (s : State) (i : Nat) (b : Bool), s.working (pgGrogQ 0) = true →
    (s.grog.ilog.findIdx? (fun r => !r.merged && (r.remove || !s.grog.indexFull.contains (fpB r.fp))) = some i →
      exec (.grogMerge b) s = .next (s.mergeAt i b)) ∧
    (s.grog.ilog.findIdx? (fun r => !r.merged && (r.remove || !s.grog.indexFull.contains (fpB r.fp))) = none → s.grog.ilog.findIdx? (fun r => !r.merged) = some i →
      exec (.grogMerge b) s = .next (s.mergeAt i b))) ∧
  (∀ (s : State) (r : ILogRec), s.working (pgGrogQ 0) = true → s.grog.ilog = [r] → r.merged = false → r.remove = false → s.grog.indexFull = [] → s.grog.logWait = [] →
    s.hbmErr (s.ilogAddr 0) 64 = false → s.fidxDir (fpB r.fp) ≤ maxDepth → s.grog.splitting = [] →
    (s.fidxPage (s.fidxOf r.fp)).ents.any (fun e => e.dom = r.dom && e.tag = fpT r.fp && (s.cont e.cid).fp = r.fp) = false → (s.fidxPage (s.fidxOf r.fp)).ents.length < 255 →
    ∃ t : State, exec (.grogMerge false) s = .next t ∧ (t.fidxPage (s.fidxOf r.fp)).ents = (s.fidxPage (s.fidxOf r.fp)).ents ++ [⟨fpT r.fp, r.dom, r.cid⟩] ∧
      (∀ n, n ≠ s.fidxOf r.fp → t.fidxPage n = s.fidxPage n) ∧ t.grog.ilog = [] ∧ t.grog.merged = s.grog.merged + 1 ∧ t.grog.dir = s.grog.dir) ∧
  (∀ (s : State) (h : CmdHdr) (d ten mode v p : Nat), Ready s h pgGROG p .work → h.inst = 0xFF → d < 4096 → ten < 16384 → mode ≤ 1 → v ≤ 1 → (s.domEnt d).st ≠ 2 →
    ((s.domEnt d).st ≠ 1 ∨ (s.domEnt d).tenant = ten) →
    ∃ t : State, exec (.grogDomainSet h d ten mode v) s = .next (t.ends p h stOk) ∧
      t.domEnt d = { tenant := ten, hotOnly := decide (mode = 1), verify := decide (v = 1), st := 1 } ∧ (∀ e, e ≠ d → t.domEnt e = s.domEnt e)) ∧
  (∀ (s : State) (h : CmdHdr) (d ten mode v p : Nat), Ready s h pgGROG p .work → h.inst = 0xFF →
    ((4096 ≤ d ∨ 16384 ≤ ten ∨ 1 < mode ∨ 1 < v) → exec (.grogDomainSet h d ten mode v) s = .next (s.consume.ends p h 1)) ∧
    (d < 4096 → ten < 16384 → mode ≤ 1 → v ≤ 1 → (s.domEnt d).st = 2 → exec (.grogDomainSet h d ten mode v) s = .next (s.consume.ends p h 3)) ∧
    (d < 4096 → ten < 16384 → mode ≤ 1 → v ≤ 1 → (s.domEnt d).st = 1 → (s.domEnt d).tenant ≠ ten → exec (.grogDomainSet h d ten mode v) s = .next (s.consume.ends p h 2))) ∧
  (∀ (s : State) (h : CmdHdr) (d p : Nat), Ready s h pgGROG p .work → h.inst = 0xFF → d < 4096 → (s.domEnt d).st = 1 →
    ∃ t : State, exec (.grogDomainPurge h d) s = .next (t.keeps p 0x0101 h [d]) ∧
      t.domEnt d = { s.domEnt d with st := 2, purge := some h.cseq } ∧ (∀ e, e ≠ d → t.domEnt e = s.domEnt e)) ∧
  (∀ (s : State) (h : CmdHdr) (d p : Nat), Ready s h pgGROG p .work → h.inst = 0xFF →
    (4096 ≤ d → exec (.grogDomainPurge h d) s = .next (s.consume.ends p h 1)) ∧
    (d < 4096 → (s.domEnt d).st = 2 → exec (.grogDomainPurge h d) s = .next (s.consume.ends p h 3)) ∧
    (d < 4096 → (s.domEnt d).st ≠ 1 → (s.domEnt d).st ≠ 2 → exec (.grogDomainPurge h d) s = .next (s.consume.ends p h 4))) ∧
  (∀ (s : State) (h : CmdHdr) (d ten mode v b p : Nat), Ready s h pgGROG p .work → h.inst ≠ 0xFF →
    exec (.grogDomainSet h d ten mode v) s = .next (s.consume.ends p h stNoBlock) ∧ exec (.grogDomainPurge h d) s = .next (s.consume.ends p h stNoBlock) ∧
    exec (.grogReconcile h) s = .next (s.consume.ends p h stNoBlock) ∧ exec (.grogIndexRebuild h b) s = .next (s.consume.ends p h stNoBlock)) ∧
  (∀ (s : State) (d : Nat), (∀ q, (s.domEnt d).st = 2 → (s.domEnt d).purge = some q →
      exec (.grogPurgeDone d) s = .next (((s.sweepDomain d).setDomEnt d {}).finishRunning q 0 stOk)) ∧
    ((s.domEnt d).st ≠ 2 → exec (.grogPurgeDone d) s = .next s)) ∧
  (∀ (s : State) (h : CmdHdr) (p : Nat), Ready s h pgGROG p .work → h.inst = 0xFF →
    (s.grog.reconcile = none → exec (.grogReconcile h) s =
      .next (({ s.consume with grog.reconcile := some h.cseq, grog.reconSeq := s.grog.ckptMerge, grog.capNext := none } : State).keeps p 0x0102 h [])) ∧
    (s.grog.reconcile ≠ none → exec (.grogReconcile h) s = .next (s.consume.ends p h 3))) ∧
  (∀ (s t v : State) (q : Nat) (done : Bool), s.grog.reconcile = some q →
    s.reinsert ((s.lmap.cids.filter (fun e => decide (s.grog.reconSeq < e.2.createSeq) && s.indexable e.2)).foldl (fun l e => insertCreate e l) []) = (t, done) →
    v = { t with grog.reconcile := none, grog.mergeCap := t.grog.capNext } →
    exec .grogReconcileDone s = .next (if done then ({ v with grog.mergeSeq := v.mergeSeqNow } : State).finishRunning q 0 stOk else { t with grog.mergeSeq := t.mergeSeqNow })) ∧
  (∀ s : State, s.grog.reconcile = none → exec .grogReconcileDone s = .next s) ∧
  (∀ (s : State) (h : CmdHdr) (b p : Nat), Ready s h pgGROG p .work → h.inst = 0xFF →
    (b < 2 ^ 26 → s.fidxDir b = dirRebuilding → s.grog.rebuild.find b = none →
      exec (.grogIndexRebuild h b) s = .next (({ s.consume with grog.rebuild := s.grog.rebuild.ins b h.cseq } : State).keeps p 0x0103 h [b])) ∧
    (2 ^ 26 ≤ b → exec (.grogIndexRebuild h b) s = .next (s.consume.ends p h 1)) ∧
    (b < 2 ^ 26 → (s.fidxDir b ≠ dirRebuilding ∨ (s.grog.rebuild.find b).isSome = true) → exec (.grogIndexRebuild h b) s = .next (s.consume.ends p h 4))) ∧
  (∀ (s : State) (b q : Nat), s.grog.rebuild.find b = some q → s.lmap.cids = [] →
    ∃ t : State, exec (.grogIndexRebuildDone b) s = .next (t.finishRunning q 0 stOk) ∧ t.fidxDir b = 0 ∧ t.fidxPage b = { base := b } ∧
      (∀ c, c ≠ b → t.fidxDir c = s.fidxDir c) ∧ t.mem = s.mem ∧ t.regs = s.regs) ∧
  (∀ (s : State) (b : Nat), (∀ q, s.grog.rebuild.find b = some q →
      ∃ t : State, exec (.grogIndexRebuildDone b) s = .next (t.finishRunning q 0 stOk) ∧ t.fidxDir b ≤ maxDepth ∧ t.grog.rebuild = s.grog.rebuild.del b) ∧
    (s.grog.rebuild.find b = none → exec (.grogIndexRebuildDone b) s = .next s))

/-- Wedge (R188-R202). A block that has an engine is compressed to the compressor's stream, padded to 16 bytes, or stored when that is longer than 4,080
bytes. A form that decodes to its block goes to DCIPH; one that does not is compressed again once, and then its unit is lost. A read's form is
decoded, tried again once, and then its CID is poisoned. A job writes its output and its result: a compression each unit's stream and its table, a
decompression the bytes; its faults are statuses 1 to 4, and a job that finds no engine waits. Completes: wedgeCompress, wedgeVerify, wedgeDecode,
wedgeJob. Where the spec leaves a point open it follows the model's choice in log entries 17, 18, 98, 124, 126. -/
def Obligations.WedgeUnits : Prop :=
  (∀ (s v : State) (u : Nat) (w : WareUnit) (bs : List Byte), s.wareUnit u = some w → w.phase = .compress → w.eng.isSome = true → s.working (pgWedgeQ w.quad) = true →
    s.saggarRead u w = (v, true) →
    ∃ t : State, exec (.wedgeCompress u bs) s = .next (t.wedgeRun w.quad) ∧ t.mem = v.mem ∧ t.pages = v.pages ∧
      ((pathStream w.data bs).length ≤ 4080 → t.wareUnit u = some { w with phase := .check, stored := false, eng := none, comp := w.eng, form := if (pathStream w.data bs).length < 16 then fitBytes 16 (pathStream w.data bs) else pathStream w.data bs }) ∧
      (4080 < (pathStream w.data bs).length → t.wareUnit u = some { w with phase := .check, form := storedForm w.data, stored := true, eng := none, comp := w.eng })) ∧
  (∀ (s v : State) (u : Nat) (w : WareUnit) (bs : List Byte), s.wareUnit u = some w → w.phase = .compress → w.eng.isSome = true → s.working (pgWedgeQ w.quad) = true →
    s.saggarRead u w = (v, false) → exec (.wedgeCompress u bs) s = .next (v.wedgeRun w.quad)) ∧
  (∀ (s : State) (u : Nat) (bs : List Byte), (∀ w, s.wareUnit u = some w → w.phase ≠ .compress ∨ w.eng = none ∨ s.working (pgWedgeQ w.quad) = false) →
    exec (.wedgeCompress u bs) s = .next s) ∧
  (∀ (s : State) (u : Nat) (w : WareUnit), s.wareUnit u = some w → w.phase = .check → w.eng.isSome = true → s.working (pgWedgeQ w.quad) = true →
    (∀ o, pathDecode w.form (guard64 w.data) = .ok o →
      exec (.wedgeVerify u) s = .next ((((s.recount w.cid w.form.length).modCont w.cid
        (fun c => { c with len := w.form.length, guard := guard64 w.data, stored := w.stored })).setWareUnit u { w with phase := .encrypt, eng := none, guard := guard64 w.form }).wedgeRun w.quad).commitPump) ∧
    (∀ e, pathDecode w.form (guard64 w.data) = .error e → w.tries = 0 →
      exec (.wedgeVerify u) s = .next (((s.bump (fWEDGE_VERIFY_FAIL w.quad)).setWareUnit u { w with phase := .compress, form := [], tries := 1, eng := none }).wedgeRun w.quad)) ∧
    (∀ e, pathDecode w.form (guard64 w.data) = .error e → w.tries ≠ 0 →
      exec (.wedgeVerify u) s = .next ((((((s.wedgeError w.quad e w.cid).irqBit (pgWedgeQ w.quad) 0).event (pgWedgeQ w.quad) 1
        (le 8 w.cid ++ le 4 (s.nvCmd w.cmd).nsid ++ zeros 4 ++ le 8 w.lba))).loseUnit u w.cid scInternal).wedgeRun w.quad))) ∧
  (∀ (s : State) (u : Nat), (∀ w, s.wareUnit u = some w → w.phase ≠ .check ∨ w.eng = none ∨ s.working (pgWedgeQ w.quad) = false) → exec (.wedgeVerify u) s = .next s) ∧
  (∀ (s : State) (k : Nat) (r : ReadUnit), s.readUnit k = some r → r.phase = .decode → r.eng.isSome = true → s.working (pgWedgeQ r.quad) = true →
    (∀ o, pathDecode r.form (s.cont r.cid).guard = .ok o →
      exec (.wedgeDecode k) s = .next (((s.bump (fWEDGE_DECODED r.quad)).setReadUnit k { r with phase := .done, data := o, eng := none }).wedgeRun r.quad)) ∧
    (∀ e, pathDecode r.form (s.cont r.cid).guard = .error e → r.tries = 0 →
      exec (.wedgeDecode k) s = .next (((s.bump (fWEDGE_DECODE_ERR r.quad)).setReadUnit k { r with tries := 1, eng := none, failed := r.eng }).wedgeRun r.quad)) ∧
    (∀ e, pathDecode r.form (s.cont r.cid).guard = .error e → r.tries ≠ 0 →
      exec (.wedgeDecode k) s = .next (((((((s.bump (fWEDGE_DECODE_ERR r.quad)).poisonCid r.cid 2).wedgeError r.quad e r.cid).irqBit (pgWedgeQ r.quad) 1).event
        (pgWedgeQ r.quad) 2 (le 8 r.cid ++ le 1 e)).setReadUnit k { r with phase := .failed scUnrecovered, eng := none }).wedgeRun r.quad))) ∧
  (∀ (s : State) (k : Nat), (∀ r, s.readUnit k = some r → r.phase ≠ .decode ∨ r.eng = none ∨ s.working (pgWedgeQ r.quad) = false) → exec (.wedgeDecode k) s = .next s) ∧
  (∀ (s : State) (h : CmdHdr) (desc q : Nat) (l : List (List Byte)) (o : List Byte), q < 4 → h.inst = q → Ready s h pgWEDGE (quadPage pgWEDGE q) .work → desc % 64 = 0 →
    (s.wedgeQuad q).jobs = [] → s.jobEngine q desc = true → s.hbmErr desc 64 = false → (s.wedgeDesc desc).bad = false → (s.wedgeDesc desc).op = 2 → (s.wedgeDesc desc).flags = 0 →
    ((s.wedgeDesc desc).srcLen = 0 ∨ s.hbmErr (s.wedgeDesc desc).src (s.wedgeDesc desc).srcLen = false) →
    decompress (s.wedgeDesc desc).dstLen (s.hbmRead (s.wedgeDesc desc).src (s.wedgeDesc desc).srcLen) = .ok o →
    exec (.wedgeJob h desc l) s = .next ((((s.consume.bump (fWEDGE_JOBS q)).hbmWrite (s.wedgeDesc desc).dst o).wedgeResult desc o.length 1 0 0).ends
      (quadPage pgWEDGE q) h stOk)) ∧
  (∀ (s : State) (h : CmdHdr) (desc q : Nat) (l : List (List Byte)) (us : List (List Byte × Bool)), q < 4 → h.inst = q → Ready s h pgWEDGE (quadPage pgWEDGE q) .work → desc % 64 = 0 →
    (s.wedgeQuad q).jobs = [] → s.jobEngine q desc = true → s.hbmErr desc 64 = false → (s.wedgeDesc desc).bad = false → (s.wedgeDesc desc).op = 1 →
    ((s.wedgeDesc desc).srcLen = 0 ∨ s.hbmErr (s.wedgeDesc desc).src (s.wedgeDesc desc).srcLen = false) →
    us = jobUnits (s.wedgeDesc desc) (s.hbmRead (s.wedgeDesc desc).src (s.wedgeDesc desc).srcLen) l → (us.flatMap Prod.fst).length ≤ (s.wedgeDesc desc).dstLen →
    exec (.wedgeJob h desc l) s = .next (((((s.consume.bump (fWEDGE_JOBS q)).hbmWrite (s.wedgeDesc desc).dst (us.flatMap Prod.fst)).hbmWrite (s.wedgeDesc desc).table
      (us.flatMap (fun e => le 4 (e.1.length + 2 ^ 31 * b2n e.2)))).wedgeResult desc (us.flatMap Prod.fst).length us.length 0 0).ends (quadPage pgWEDGE q) h stOk)) ∧
  (∀ (s t : State) (h : CmdHdr) (desc q st : Nat) (l : List (List Byte)), q < 4 → h.inst = q → Ready s h pgWEDGE (quadPage pgWEDGE q) .work → desc % 64 = 0 →
    (s.wedgeQuad q).jobs = [] → s.jobEngine q desc = true → (s.consume.bump (fWEDGE_JOBS q)).jobRun desc l = (t, st) →
    exec (.wedgeJob h desc l) s = .next (t.ends (quadPage pgWEDGE q) h st) ∧ st ≤ 4 ∧ (s.hbmErr desc 64 = true → st = 3) ∧
    (s.hbmErr desc 64 = false → (s.wedgeDesc desc).bad = true → st = 1)) ∧
  (∀ (s : State) (h : CmdHdr) (desc p : Nat) (l : List (List Byte)), 4 ≤ h.inst → Ready s { h with inst := 0xFF } pgWEDGE p .work →
    exec (.wedgeJob h desc l) s = .next (s.consume.ends p h 1)) ∧
  (∀ (s : State) (h : CmdHdr) (desc q : Nat) (l : List (List Byte)), q < 4 → h.inst = q → Ready s h pgWEDGE (quadPage pgWEDGE q) .work → desc % 64 ≠ 0 →
    exec (.wedgeJob h desc l) s = .next ((s.consume.bump (fWEDGE_JOBS q)).ends (quadPage pgWEDGE q) h 1)) ∧
  (∀ (s : State) (h : CmdHdr) (desc q : Nat) (l : List (List Byte)), q < 4 → h.inst = q → Ready s h pgWEDGE (quadPage pgWEDGE q) .work → desc % 64 = 0 →
    (s.wedgeQuad q).jobs ≠ [] ∨ s.jobEngine q desc = false →
    ∃ t : State, exec (.wedgeJob h desc l) s = .next (t.keeps (quadPage pgWEDGE q) 0x0100 h [desc]) ∧
      (t.wedgeQuad q).jobs = (s.wedgeQuad q).jobs ++ [⟨h.cseq, desc, l⟩] ∧ t.mem = s.mem ∧ t.regs = s.regs)

/-! ### Keys, ciphers and tamper (R203-R216) -/

/-- KEYS_LOAD finds its target and its keys in order (R206): it is not zeroized, the arguments name a target, a plaintext key is allowed, the target is free and its record can be pinned. -/
abbrev KeysArgs (s : State) (cls form kek type slot len flags : Nat) : Prop :=
  s.zeroized = false ∧ keysBadTarget cls form type slot len = false ∧ s.keysBadKek cls form kek = false ∧ (form = 1 → s.fld fKEYS_CTRL_PLAIN_EN ≠ 0) ∧
  (cls = 1 → (s.keyRec slot).type = 0 ∧ s.sec.clearing.find slot = none ∧ (flags.testBit 0 = true → s.pinnedKeys < 1024)) ∧ (cls = 0 → s.kekValid slot = false)

/-- Keys and DCIPH (R203-R210). A key that unwraps, or a plaintext one, is loaded as a KEK, into a data slot's record, or into an association's half, and
a plaintext source is overwritten with zeroes; else KEYS_LOAD ends with 1 to 6. A KEK, an association key or a data slot that nothing holds is cleared
at once, one that is held when its last unit has gone. A slot is brought in with the key that its record holds, and the units that wait for it go on
or fail. A unit whose guard holds, and a stored form, pass AES-XTS under the CID and CREATE_SEQ, wait for their slot, or fail where the chip is
zeroized, the guard is wrong, or the slot is absent or of another tenant. Completes: keysLoad, keysClear, keysClearDone, keySlotBringIn, dciphEncrypt,
dciphDecrypt. Where the spec leaves a point open it follows the model's choice in log entries 56, 98. -/
def Obligations.KeysAndDciph : Prop :=
  (∀ (s : State) (h : CmdHdr) (cls form kek type slot src len flags ten p : Nat) (key : List Byte), Ready s h pgKEYS p .work → KeysArgs s cls form kek type slot len flags →
    s.hbmErr src (if form = 0 then len + 8 else len) = false →
    (if form = 0 then keyUnwrap (s.kek kek) (s.hbmRead src (len + 8)) else some (s.hbmRead src len)) = some key →
    (cls = 0 → exec (.keysLoad h cls form kek type slot src len flags ten) s =
      .next ((({ s.consume with sec.keks := s.sec.keks.put [] slot key } : State).srcZero form src len).ends p h stOk)) ∧
    (cls = 1 → exec (.keysLoad h cls form kek type slot src len flags ten) s =
      .next (((s.consume.setKeyRec slot { wrapped := if form = 0 then s.hbmRead src (len + 8) else keyWrap (s.kek kek) key, type := type, len := len, kek := kek, pin := flags.testBit 0, tenant := ten }).srcZero form src len).ends p h stOk)) ∧
    (2 ≤ cls → ∃ t : State, exec (.keysLoad h cls form kek type slot src len flags ten) s = .next ((t.srcZero form src len).ends p h stOk) ∧
      (∀ b, b ≠ slot → t.akey b = s.akey b) ∧ t.mem = s.mem ∧
      (cls = 2 → (s.assoc slot).state = .free → t.akey slot = { s.akey slot with cur := { (s.akey slot).cur with tx := some ⟨key.take 32, slice key 32 4⟩ } }) ∧
      (cls = 3 → (s.assoc slot).state = .free → t.akey slot = { s.akey slot with cur := { (s.akey slot).cur with rx := some ⟨key.take 32, slice key 32 4⟩ } }) ∧
      (cls = 2 → (s.assoc slot).state ≠ .free → t.akey slot = { s.akey slot with next := { (s.akey slot).next with tx := some ⟨key.take 32, slice key 32 4⟩ } }) ∧
      (cls = 3 → (s.assoc slot).state ≠ .free → t.akey slot = { s.akey slot with next := { (s.akey slot).next with rx := some ⟨key.take 32, slice key 32 4⟩ } }))) ∧
  (∀ (s : State) (h : CmdHdr) (cls form kek type slot src len flags ten p : Nat), Ready s h pgKEYS p .work → KeysArgs s cls form kek type slot len flags →
    (s.hbmErr src (if form = 0 then len + 8 else len) = true →
      exec (.keysLoad h cls form kek type slot src len flags ten) s = .next ((s.consume.noteErr src (if form = 0 then len + 8 else len)).ends p h 1)) ∧
    (s.hbmErr src (len + 8) = false → form = 0 → keyUnwrap (s.kek kek) (s.hbmRead src (len + 8)) = none →
      exec (.keysLoad h cls form kek type slot src len flags ten) s = .next (s.consume.ends p h 3))) ∧
  (∀ (s : State) (h : CmdHdr) (cls form kek type slot src len flags ten p : Nat), Ready s h pgKEYS p .work →
    (s.zeroized = true → exec (.keysLoad h cls form kek type slot src len flags ten) s = .next (s.consume.ends p h 6)) ∧
    (s.zeroized = false → (keysBadTarget cls form type slot len = true ∨ s.keysBadKek cls form kek = true) →
      exec (.keysLoad h cls form kek type slot src len flags ten) s = .next (s.consume.ends p h 1)) ∧
    (s.zeroized = false → keysBadTarget cls form type slot len = false → s.keysBadKek cls form kek = false →
      (form = 1 → s.fld fKEYS_CTRL_PLAIN_EN = 0 → exec (.keysLoad h cls form kek type slot src len flags ten) s = .next (s.consume.ends p h 4)) ∧
      ((form = 1 → s.fld fKEYS_CTRL_PLAIN_EN ≠ 0) → ((cls = 1 ∧ ((s.keyRec slot).type ≠ 0 ∨ (s.sec.clearing.find slot).isSome = true)) ∨ (cls = 0 ∧ s.kekValid slot = true)) →
        exec (.keysLoad h cls form kek type slot src len flags ten) s = .next (s.consume.ends p h 2)) ∧
      ((form = 1 → s.fld fKEYS_CTRL_PLAIN_EN ≠ 0) → cls = 1 → (s.keyRec slot).type = 0 → s.sec.clearing.find slot = none → flags.testBit 0 = true → 1024 ≤ s.pinnedKeys →
        exec (.keysLoad h cls form kek type slot src len flags ten) s = .next (s.consume.ends p h 5)))) ∧
  (∀ (s : State) (h : CmdHdr) (cls k p : Nat), Ready s h pgKEYS p .release →
    (cls = 0 → 1 ≤ k → k ≤ 7 → exec (.keysClear h cls k) s = .next (({ s.consume with sec.keks := s.sec.keks.del k } : State).ends p h stOk)) ∧
    (cls = 1 → k < 65536 → s.slotHeld k = false → exec (.keysClear h cls k) s = .next (((s.consume.dropKey k).setKeyRec k {}).ends p h stOk)) ∧
    (cls = 1 → k < 65536 → s.slotHeld k = true → ∃ t : State, exec (.keysClear h cls k) s = .next (t.keeps p 0x0101 h [k]) ∧ t.activeKey k = none ∧ t.keyRec k = {} ∧
      (∀ j, j ≠ k → t.activeKey j = s.activeKey j ∧ t.keyRec j = s.keyRec j) ∧ t.sec.clearing = s.sec.clearing.put [] k (s.sec.clearing.get [] k ++ [h.cseq])) ∧
    (cls = 2 → k < 4096 → exec (.keysClear h cls k) s = .next (({ s.consume with sec.assocKeys := s.sec.assocKeys.put {} k { cur := { (s.akey k).cur with tx := none }, next := { (s.akey k).next with tx := none } } } : State).ends p h stOk)) ∧
    (cls = 3 → k < 4096 → exec (.keysClear h cls k) s = .next (({ s.consume with sec.assocKeys := s.sec.assocKeys.put {} k { cur := { (s.akey k).cur with rx := none }, next := { (s.akey k).next with rx := none } } } : State).ends p h stOk)) ∧
    (((cls = 0 ∧ (k = 0 ∨ 7 < k)) ∨ (cls = 1 ∧ 65536 ≤ k) ∨ ((cls = 2 ∨ cls = 3) ∧ 4096 ≤ k) ∨ 3 < cls) → exec (.keysClear h cls k) s = .next (s.consume.ends p h 1))) ∧
  (∀ (s : State) (k : Nat) (l : List Nat), s.sec.clearing.find k = some l → s.slotHeld k = false →
    exec (.keysClearDone 1 k) s = .next (l.foldl (fun t q => t.finishRunning q 0 stOk) { s with sec.clearing := s.sec.clearing.del k })) ∧
  (∀ (s : State) (cls k : Nat), (cls ≠ 1 ∨ s.sec.clearing.find k = none ∨ s.slotHeld k = true) → exec (.keysClearDone cls k) s = .next s) ∧
  (∀ (s : State) (k : Nat) (key : List Byte), s.sec.bringIn = [k] → s.working pgKEYS = true → s.keyRoom = true → s.zeroized = false → (s.keyRec k).type ≠ 0 →
    s.hbmErr (s.reg64 rKEYS_WRAP_BASE + 128 * k) 128 = false → s.kekValid (s.keyRec k).kek = true →
    keyUnwrap (s.kek (s.keyRec k).kek) ((s.keyRec k).wrapped.take ((s.keyRec k).len + 8)) = some key → s.ware.units = [] → s.ware.reads = [] → s.sec.gciph.seg = none →
    ∃ t : State, exec (.keySlotBringIn k) s = .next t ∧ t.activeKey k = some key ∧ t.sec.bringIn = [] ∧ t.mem = s.mem ∧ t.pages = s.pages) ∧
  (∀ (s v : State) (k : Nat) (b : BringRes), s.sec.bringIn.contains k = true → s.working pgKEYS = true → s.keyRoom = true → s.bringInKey k = (v, b) →
    (b = .absent ↔ (s.zeroized = true ∨ (s.keyRec k).type = 0)) ∧ (b = .active → (v.activeKey k).isSome = true) ∧ v.sec.bringIn = s.sec.bringIn.filter (fun i => i ≠ k) ∧
    ((v.slotWaiters k b).sec.gciph.seg = none → exec (.keySlotBringIn k) s = .next (v.slotWaiters k b)) ∧
    (∀ g, (v.slotWaiters k b).sec.gciph.seg = some g → exec (.keySlotBringIn k) s = .next (if g.slot = k then (v.slotWaiters k b).gcResume b else v.slotWaiters k b))) ∧
  (∀ (s : State) (k : Nat), (s.sec.bringIn.contains k = false ∨ s.working pgKEYS = false ∨ s.keyRoom = false) → exec (.keySlotBringIn k) s = .next s) ∧
  (∀ (s : State) (u : Nat) (w : WareUnit) (a : Option (List Byte)), s.wareUnit u = some w → w.phase = .encrypt → s.working (pgDciphQ w.quad) = true →
    (s.zeroized = true → exec (.dciphEncrypt u a) s = .next (s.encryptFail u w deLocked)) ∧
    (s.zeroized = false → guard64 (a.getD w.form) ≠ w.guard → exec (.dciphEncrypt u a) s = .next ((s.bump (fDCIPH_GUARD_ERR w.quad)).encryptFail u w deGuard)) ∧
    (s.zeroized = false → guard64 (a.getD w.form) = w.guard → ((s.keyRec w.keySlot).type ≠ 1 ∨ (s.sec.clearing.find w.keySlot).isSome = true) →
      exec (.dciphEncrypt u a) s = .next (s.encryptFail u w deAbsent)) ∧
    (s.zeroized = false → guard64 (a.getD w.form) = w.guard → (s.keyRec w.keySlot).type = 1 → s.sec.clearing.find w.keySlot = none →
      ((s.keyRec w.keySlot).tenant ≠ w.tenant → exec (.dciphEncrypt u a) s = .next (s.encryptFail u w deTenant)) ∧
      ((s.keyRec w.keySlot).tenant = w.tenant → s.activeKey w.keySlot = none →
        exec (.dciphEncrypt u a) s = .next (((s.bump (fDCIPH_KEY_WAIT w.quad)).wantKey w.keySlot).setWareUnit u { w with phase := .keyWait })) ∧
      (∀ key, (s.keyRec w.keySlot).tenant = w.tenant → s.activeKey w.keySlot = some key →
        exec (.dciphEncrypt u a) s = .next ((((s.useKey w.keySlot).bump (fDCIPH_ENC_UNITS w.quad)).setWareUnit u { w with phase := .place, form := xtsEnc (key.take 32) (key.drop 32) (xtsTweak w.cid w.createSeq) (a.getD w.form), guard := guard64 (xtsEnc (key.take 32) (key.drop 32) (xtsTweak w.cid w.createSeq) (a.getD w.form)) }).placeWare u)))) ∧
  (∀ (s : State) (u : Nat) (a : Option (List Byte)), (∀ w, s.wareUnit u = some w → w.phase ≠ .encrypt ∨ s.working (pgDciphQ w.quad) = false) →
    exec (.dciphEncrypt u a) s = .next s) ∧
  (∀ (s : State) (k : Nat) (r : ReadUnit), s.readUnit k = some r → r.phase = .decrypt → s.working (pgDciphQ r.quad) = true →
    (s.zeroized = true → exec (.dciphDecrypt k) s = .next (s.decryptFail k r deLocked)) ∧
    (s.zeroized = false → ((s.keyRec (s.cont r.cid).keySlot).type ≠ 1 ∨ (s.sec.clearing.find (s.cont r.cid).keySlot).isSome = true) →
      exec (.dciphDecrypt k) s = .next (s.decryptFail k r deAbsent)) ∧
    (s.zeroized = false → (s.keyRec (s.cont r.cid).keySlot).type = 1 → s.sec.clearing.find (s.cont r.cid).keySlot = none →
      (s.activeKey (s.cont r.cid).keySlot = none → exec (.dciphDecrypt k) s = .next (((s.bump (fDCIPH_KEY_WAIT r.quad)).wantKey (s.cont r.cid).keySlot).setReadUnit k { r with phase := .keyWait })) ∧
      (∀ key, s.activeKey (s.cont r.cid).keySlot = some key →
        exec (.dciphDecrypt k) s = .next ((((s.useKey (s.cont r.cid).keySlot).bump (fDCIPH_DEC_UNITS r.quad)).setReadUnit k { r with phase := .decode, form := xtsDec (key.take 32) (key.drop 32) (xtsTweak r.cid (s.cont r.cid).createSeq) r.form }).wedgeEngines r.quad)))) ∧
  (∀ (s : State) (k : Nat), (∀ r, s.readUnit k = some r → r.phase ≠ .decrypt ∨ s.working (pgDciphQ r.quad) = false) → exec (.dciphDecrypt k) s = .next s)

/-- Tamper (R215, R216, log entry 113). A warning, or the alarm of a class-W sensor, records its reading and its sensor and posts an event. An
alarm of a class-Z sensor zeroizes every key and locks the GCM engine; one that arrives while a zeroization runs is recorded only. A reading inside
its window, an alarm of the other class, and a sensor that does not exist change nothing. GCIPH (R211-R214, log entry 55). An ID written while
the lock is Free takes it with a lease, the owner's ID renews it, any other is counted and sets BUSY, and a Locked one stays. The owner's release, the
end of the lease and a forced release free it, the last two with an event; other writes change nothing. A segment of the lock's owner runs and writes
its result, waits for its slot or behind one that waits, and ends with 1, 2, 6 or 8 without its descriptor or its lock; a key-wrap segment writes the
wrapped bytes at DST. Completes: tamperWarn, tamperAlarm, gciphLockWrite, gciphReleaseWrite, gciphForceRelease, gciphSeg, leaseExpired. Where the spec
leaves a point open it follows the model's choice in log entry 98. -/
def Obligations.Tamper : Prop :=
  (∀ (s : State) (n v : Nat) (alarm : Bool), n < 6 → v < 2 ^ 16 → (alarm = true → (s.fld fTAMP_CLASS).testBit n = false) → (if alarm then tampAlarms n v else tampWarns n v) = true →
    ∃ t : State, exec (.tamperWarn n v alarm) s = .next ((t.irqBit pgTAMP 0).event pgTAMP 1 (le 1 n ++ le 1 (b2n alarm) ++ le 2 v ++ le 1 (t.fld fTAMP_WARN))) ∧
      t.fld (fTAMP_READING n) = v ∧ t.fld fTAMP_WARN = s.fld fTAMP_WARN ||| 2 ^ n ∧ t.sec.tamp.latch = (if alarm then s.sec.tamp.latch ||| 2 ^ n else s.sec.tamp.latch) ∧
      t.sec.keks = s.sec.keks ∧ t.mem = s.mem ∧ t.pages = s.pages) ∧
  (∀ (s : State) (n v : Nat), (6 ≤ n ∨ tampWarns n v = false) → exec (.tamperWarn n v false) s = .next s) ∧
  (∀ (s : State) (n v : Nat), (6 ≤ n ∨ (s.fld fTAMP_CLASS).testBit n = true ∨ tampAlarms n v = false) → exec (.tamperWarn n v true) s = .next s) ∧
  (∀ (s : State) (n v z : Nat), n < 6 → (s.fld fTAMP_CLASS).testBit n = true → tampAlarms n v = true → s.sec.tamp.zeroEnd ≤ s.now →
    ∃ t : State, exec (.tamperAlarm n v z) s = .next t ∧ t.zeroized = true ∧ t.sec.keks = [] ∧ t.sec.active = [] ∧ t.sec.assocKeys = [] ∧ t.mark.slots = [] ∧
      t.sec.gciph.lock = .locked ∧ t.sec.tamp.latch = s.sec.tamp.latch ||| 2 ^ n ∧ t.sec.tamp.zeroTime = min 2000 z ∧ t.sec.tamp.zeroEnd = s.now + min 2000 z) ∧
  (∀ (s : State) (n v z : Nat), n < 6 → (s.fld fTAMP_CLASS).testBit n = true → tampAlarms n v = true → s.now < s.sec.tamp.zeroEnd →
    exec (.tamperAlarm n v z) s = .next { s.setFld (fTAMP_READING n) v with sec.tamp.latch := s.sec.tamp.latch ||| 2 ^ n }) ∧
  (∀ (s : State) (n v z : Nat), (6 ≤ n ∨ (s.fld fTAMP_CLASS).testBit n = false ∨ tampAlarms n v = false) → exec (.tamperAlarm n v z) s = .next s) ∧
  (∀ (s : State) (id : Nat) (core : Bool), Reaches s pgGCIPH → id < 256 → (core = false ∨ (1 ≤ id ∧ id < 0xF0)) →
    (s.sec.gciph.lock = .free →
      exec (.gciphLockWrite id core) s = .next { s with sec.gciph := { s.sec.gciph with lock := .held, owner := id, leaseEnd := s.leaseEnds } }) ∧
    (s.sec.gciph.lock = .held → s.sec.gciph.owner = id → exec (.gciphLockWrite id core) s = .next { s with sec.gciph.leaseEnd := s.leaseEnds }) ∧
    (s.sec.gciph.lock = .held → s.sec.gciph.owner ≠ id → exec (.gciphLockWrite id core) s = .next { s.bump fGCIPH_BUSY_CNT with sec.gciph.busy := true }) ∧
    (s.sec.gciph.lock = .locked → exec (.gciphLockWrite id core) s = .next s) ∧
    (s.sec.gciph.lock = .held → s.sec.gciph.owner = id → exec (.gciphReleaseWrite id core) s = .next s.gcFree) ∧
    (s.sec.gciph.lock = .held → s.sec.gciph.owner = id → s.sec.gciph.msg = none → s.sec.gciph.seg = none → s.sec.gciph.arm = false →
      exec (.gciphReleaseWrite id core) s = .next { s with sec.gciph := { s.sec.gciph with lock := .free, owner := 0, busy := false } }) ∧
    ((s.sec.gciph.lock ≠ .held ∨ s.sec.gciph.owner ≠ id) → exec (.gciphReleaseWrite id core) s = .next s)) ∧
  (∀ (s : State) (id : Nat), Reaches s pgGCIPH → (id = 0 ∨ 0xF0 ≤ id) → exec (.gciphLockWrite id true) s = .next s ∧ exec (.gciphReleaseWrite id true) s = .next s) ∧
  (∀ (s : State) (id : Nat) (core : Bool), 256 ≤ id → exec (.gciphLockWrite id core) s = .next s) ∧
  (∀ (s : State) (id : Nat) (core : Bool), s.pageOn pgGCIPH = false → exec (.gciphReleaseWrite id core) s = .next (s.bump fCHIP_OFF_ACCESS) ∧
    (id < 256 → exec (.gciphLockWrite id core) s = .next (s.bump fCHIP_OFF_ACCESS)) ∧ exec (.gciphForceRelease none) s = .next (s.bump fCHIP_OFF_ACCESS)) ∧
  (∀ (s : State), s.sec.gciph.lock = .held →
    exec .leaseExpired s = .next ((s.gcFree.irqBit pgGCIPH 1).event pgGCIPH 1 (le 1 s.sec.gciph.owner)) ∧
    (Reaches s pgGCIPH → exec (.gciphForceRelease none) s = .next ((s.gcFree.irqBit pgGCIPH 1).event pgGCIPH 1 (le 1 s.sec.gciph.owner)) ∧
      exec (.gciphForceRelease (some 0)) s = .next ((s.gcFree.irqBit pgGCIPH 1).event pgGCIPH 1 (le 1 s.sec.gciph.owner)))) ∧
  (∀ (s : State), s.sec.gciph.lock ≠ .held → exec .leaseExpired s = .next s ∧
    (Reaches s pgGCIPH → exec (.gciphForceRelease none) s = .next s ∧ exec (.gciphForceRelease (some 0)) s = .next s)) ∧
  (∀ (s : State) (n : Nat), n ≠ 0 → exec (.gciphForceRelease (some n)) s = .next s) ∧
  (∀ (s : State) (h : CmdHdr) (d p : Nat), Ready s h pgGCIPH p (s.gcClass d) →
    (s.sec.gciph.lock = .locked → exec (.gciphSeg h d) s = .next (s.consume.ends p h 6)) ∧
    (s.sec.gciph.lock ≠ .locked → d % 128 ≠ 0 → exec (.gciphSeg h d) s = .next (s.consume.ends p h 1)) ∧
    (s.sec.gciph.lock ≠ .locked → d % 128 = 0 → s.hbmErr d 128 = true → exec (.gciphSeg h d) s = .next ((s.consume.noteErr d 128).ends p h 8)) ∧
    (s.sec.gciph.lock ≠ .locked → d % 128 = 0 → s.hbmErr d 128 = false → (s.sec.gciph.lock = .free ∨ s.hbmNat d 1 ≠ s.sec.gciph.owner) →
      exec (.gciphSeg h d) s = .next (s.consume.ends p h 2)) ∧
    (s.sec.gciph.lock = .held → s.hbmNat d 1 = s.sec.gciph.owner → d % 128 = 0 → s.hbmErr d 128 = false → s.sec.gciph.seg.isSome = true →
      exec (.gciphSeg h d) s = .next (({ s.consume with sec.gciph.next := s.sec.gciph.next ++ [(h.cseq, d)] } : State).keeps p 0x0100 h [d])) ∧
    (∀ (u : State) (n st : Nat), s.sec.gciph.lock = .held → s.hbmNat d 1 = s.sec.gciph.owner → d % 128 = 0 → s.hbmErr d 128 = false → s.sec.gciph.seg = none →
      s.consume.gcSegment d = (u, .ended n st) → exec (.gciphSeg h d) s = .next ((u.gcResult d n st).ends p h st)) ∧
    (∀ (u : State) (k : Nat), s.sec.gciph.lock = .held → s.hbmNat d 1 = s.sec.gciph.owner → d % 128 = 0 → s.hbmErr d 128 = false → s.sec.gciph.seg = none →
      s.consume.gcSegment d = (u, .waits k) →
      exec (.gciphSeg h d) s = .next (({ u.wantKey k with sec.gciph.seg := some ⟨h.cseq, d, k⟩ } : State).keeps p 0x0100 h [d]))) ∧
  (∀ (s : State) (h : CmdHdr) (d p : Nat) (g : GcDesc), Ready s h pgGCIPH p .work → s.sec.gciph.lock = .held → s.hbmNat d 1 = s.sec.gciph.owner → d % 128 = 0 →
    s.hbmErr d 128 = false → s.sec.gciph.seg = none → s.sec.gciph.msg = none → g = s.gcDesc d → g.mode = 1 → g.first = true → g.last = true → g.cls = 0 → 1 ≤ g.key → g.key ≤ 7 →
    s.kekValid g.key = true → 16 ≤ g.len → g.len ≤ 4096 → g.len % 8 = 0 → s.hbmErr g.src g.len = false → g.dst + g.len + 8 ≤ hbmEnd →
    ∃ t : State, exec (.gciphSeg h d) s = .next ((t.gcResult d (keyWrap (s.kek g.key) (s.hbmRead g.src g.len)).length stOk).ends p h stOk) ∧
      t.mem = (s.hbmWrite g.dst (keyWrap (s.kek g.key) (s.hbmRead g.src g.len))).mem ∧ t.regs = s.regs ∧ t.sec.gciph.msg = none)

/-! ### Volumes, moulds and replicas (R217-R249) -/

/-- A volume can be changed: it exists, is not being deleted, its entry can be read, and no replica holds it (R236, R238). -/
abbrev VolOpen (s : State) (v : Nat) : Prop :=
  v < 65536 ∧ (s.vol v).kind ≠ 0 ∧ (s.vol v).deleting = none ∧ s.volBad v = false ∧ (s.slip.reps.get {} v).role = 0 ∧ s.lmap.resizes.find v = none

/-- Volumes and tenants (R217, R219, R224, R225, R231, R236, log entry 99). VOL_CREATE makes an entry of its arguments in a commit unit.
VOL_RESIZE changes a size at once, or waits for the pages that it reads; VOL_DELETE of a volume that is in use, or whose pages are absent, waits, and
of any other frees it; TENANT_SET sets the limit. Each ends with its status where it is refused. A page that was asked for is read from flash and
fills a frame, or is lost, and a dirty one that finds a place is written; a page that nobody asked for, and a clean one, change nothing. Completes:
volCreate, volResize, volDelete, tenantSet, mapPageFetchDone, mapPageWriteback. Where the spec leaves a point open it follows the model's choice in
log entries 24, 53, 123. -/
def Obligations.Volumes : Prop :=
  (∀ (s : State) (h : CmdHdr) (v ten d k size p : Nat), Ready s h pgLMAP p .work → 0 < size → size ≤ 2 ^ 36 → v < 65536 → ten < 16384 → (s.plat.chip.shelf = true ∨ (d < 4096 ∧ s.foreignDomain d ten = false ∧ s.foreignSlot k ten = false)) →
    s.homeless ten = false → (s.vol v).kind = 0 →
    ∃ t : State, exec (.volCreate h v ten d k size) s = .next (t.ends p h stOk) ∧
      t.vol v = { size := size, tenant := ten, domain := if s.plat.chip.shelf then 0 else d, keySlot := if s.plat.chip.shelf then 0 else k, kind := 1, levels := s.levelsFor size } ∧
      (∀ w, w ≠ v → t.vol w = s.vol w) ∧ t.lmap.commitSeq = s.lmap.commitSeq + 1) ∧
  (∀ (s : State) (h : CmdHdr) (v ten d k size p : Nat), Ready s h pgLMAP p .work →
    ((size = 0 ∨ 2 ^ 36 < size ∨ 65536 ≤ v ∨ 16384 ≤ ten ∨ (s.plat.chip.shelf = false ∧ 4096 ≤ d) ∨ s.homeless ten = true) →
      exec (.volCreate h v ten d k size) s = .next (s.consume.ends p h 1)) ∧
    (0 < size → size ≤ 2 ^ 36 → v < 65536 → ten < 16384 → (s.plat.chip.shelf = true ∨ d < 4096) → s.homeless ten = false →
      ((s.vol v).kind ≠ 0 → exec (.volCreate h v ten d k size) s = .next (s.consume.ends p h 2)) ∧
      ((s.vol v).kind = 0 → s.plat.chip.shelf = false → (s.foreignDomain d ten = true ∨ s.foreignSlot k ten = true) →
        exec (.volCreate h v ten d k size) s = .next (s.consume.ends p h 3)))) ∧
  (∀ (s : State) (h : CmdHdr) (v size p : Nat), Ready s h pgLMAP p .work → VolOpen s v → (s.vol v).kind ≠ 3 → s.resizeNeed v size = none →
    (s.vol v).size ≤ size → size ≤ 2 ^ 36 → 0 < size → s.levelsFor size ≤ (s.vol v).levels →
    ∃ t : State, exec (.volResize h v size) s = .next (t.ends p h stOk) ∧ t.vol v = { s.vol v with size := size } ∧ (∀ w, w ≠ v → t.vol w = s.vol w) ∧
      t.lmap.commitSeq = s.lmap.commitSeq + 1) ∧
  (∀ (s t : State) (h : CmdHdr) (v size st p : Nat), Ready s h pgLMAP p .work → VolOpen s v → (s.vol v).kind ≠ 3 → 0 < size → size ≤ 2 ^ 36 → s.resizeNeed v size = none →
    s.consume.resize v size = (t, st) → exec (.volResize h v size) s = .next (t.ends p h st) ∧ (st = stOk ∨ st = 8)) ∧
  (∀ (s : State) (h : CmdHdr) (v size p m : Nat), Ready s h pgLMAP p .work → VolOpen s v → (s.vol v).kind ≠ 3 → 0 < size → size ≤ 2 ^ 36 → s.resizeNeed v size = some m →
    exec (.volResize h v size) s = .next ((({ s.consume with lmap.resizes := s.lmap.resizes.ins v (h.cseq, size) } : State).wantPage m).keeps p 0x0101 h [v])) ∧
  (∀ (s : State) (h : CmdHdr) (v size p : Nat), Ready s h pgLMAP p .work →
    ((size = 0 ∨ 2 ^ 36 < size ∨ 65536 ≤ v ∨ (s.vol v).kind = 0 ∨ (s.vol v).deleting.isSome = true) → exec (.volResize h v size) s = .next (s.consume.ends p h 1)) ∧
    (0 < size → size ≤ 2 ^ 36 → v < 65536 → (s.vol v).kind ≠ 0 → (s.vol v).deleting = none →
      (s.volBad v = true → exec (.volResize h v size) s = .next ((s.consume.volBadNote v).ends p h 1)) ∧
      (s.volBad v = false → ((s.slip.reps.get {} v).role ≠ 0 ∨ (s.lmap.resizes.find v).isSome = true) → exec (.volResize h v size) s = .next (s.consume.ends p h 9)) ∧
      (VolOpen s v → (s.vol v).kind = 3 → exec (.volResize h v size) s = .next (s.consume.ends p h 4)))) ∧
  (∀ (s : State) (h : CmdHdr) (v p : Nat), Ready s h pgLMAP p .work → VolOpen s v → (s.vol v).moulds = 0 →
    ((s.volInUse v = true ∨ (s.freeNeed (s.ownedPages v)).isSome = true) → ∃ t : State, exec (.volDelete h v) s = .next ((t.wantFree (s.ownedPages v)).keeps p 0x0102 h [v]) ∧
      t.vol v = { s.vol v with deleting := some h.cseq } ∧ (∀ w, w ≠ v → t.vol w = s.vol w) ∧ t.mem = s.mem) ∧
    (s.volInUse v = false → s.freeNeed (s.ownedPages v) = none → exec (.volDelete h v) s = .next ((s.consume.freeVolume v).ends p h stOk))) ∧
  (∀ (s : State) (h : CmdHdr) (v p : Nat), Ready s h pgLMAP p .work →
    ((65536 ≤ v ∨ (s.vol v).kind = 0 ∨ (s.vol v).deleting.isSome = true) → exec (.volDelete h v) s = .next (s.consume.ends p h 1)) ∧
    (v < 65536 → (s.vol v).kind ≠ 0 → (s.vol v).deleting = none →
      (s.volBad v = true → exec (.volDelete h v) s = .next ((s.consume.volBadNote v).ends p h 1)) ∧
      (s.volBad v = false → ((s.slip.reps.get {} v).role ≠ 0 ∨ (s.lmap.resizes.find v).isSome = true) → exec (.volDelete h v) s = .next (s.consume.ends p h 9)) ∧
      (VolOpen s v → (s.vol v).moulds ≠ 0 → exec (.volDelete h v) s = .next (s.consume.ends p h 5)))) ∧
  (∀ (s : State) (h : CmdHdr) (ten cap p : Nat), Ready s h pgLMAP p .work →
    (ten < 16384 → ∃ t : State, exec (.tenantSet h ten cap) s = .next (t.ends p h stOk) ∧ t.tenE ten = { s.tenE ten with capGrains := cap } ∧
      (∀ u, u ≠ ten → t.tenE u = s.tenE u) ∧ t.lmap.vols = s.lmap.vols) ∧
    (16384 ≤ ten → exec (.tenantSet h ten cap) s = .next (s.consume.ends p h 1))) ∧
  (∀ (s : State) (m : Nat) (f : CodewordTry), s.lmap.wanted = [m] → s.lmap.fetchLoc = [] → s.dirAbsent m = false → s.nvf.cmds = [] → s.lmap.resizes = [] → s.lmap.vols = [] →
    s.resident m = false → s.lmap.frames.length < 10485760 →
    ∃ (t : State) (b : Nat), exec (.mapPageFetchDone m f) s = .next t ∧ t.resident m = true ∧ t.lmap.wanted = [] ∧ t.lmap.pages = s.lmap.pages ∧
      t.frameAddr m = some b ∧ t.mem = (s.hbmWrite b (s.pageBytes m)).mem) ∧
  (∀ (s t u : State) (m : Nat) (f : CodewordTry) (there : Bool), s.lmap.wanted.contains m = true → s.dirAbsent m = false → s.fetchPage m f = (t, there) →
    u = { t.bump fFTL_MAP_READS with lmap.wanted := t.lmap.wanted.filter (· ≠ m) } →
    exec (.mapPageFetchDone m f) s = .next (if there then (u.fillFrame m).commitPump.lmapPump else ((u.mapPageLost m).fillFrame m).commitPump.lmapPump)) ∧
  (∀ (s : State) (m : Nat) (f : CodewordTry), (s.lmap.wanted.contains m = false ∨ s.dirAbsent m = true) → exec (.mapPageFetchDone m f) s = .next s) ∧
  (∀ (s u : State) (m : Nat), s.lmap.dirty.contains m = true → s.working pgLMAP = true →
    (∀ x : Nat × Nat × Nat, s.placePage m = (u, some x) → exec (.mapPageWriteback m) s = .next { u.bump fLMAP_PAGE_WB with lmap.dirty := u.lmap.dirty.filter (· ≠ m) }) ∧
    (s.placePage m = (u, none) → exec (.mapPageWriteback m) s = .next u)) ∧
  (∀ (s : State) (m : Nat), (s.lmap.dirty.contains m = false ∨ s.working pgLMAP = false) → exec (.mapPageWriteback m) s = .next s)

/-- Moulds (R226-R232, log entry 130). A mould takes its volume's tree and its epoch, which the volume leaves. It is Sealed once no write of its
epoch is left, and then the commands that wait for it end. A deletion ends those that wait, and frees the pages that no tree reaches once they are
here. A clone starts as its tree. A consistency group takes all its moulds in one commit unit. Each command ends with its status where it is refused;
in shelf mode every command of MOULD ends with BAD_ARGUMENT (R10). Completes: mouldCreate, mouldSealed, mouldCg, mouldDelete, mouldDeleteDone,
mouldClone. Where the spec leaves a point open it follows the model's choice in log entries 25, 26, 33. -/
def Obligations.Moulds : Prop :=
  (∀ (s : State) (h : CmdHdr) (v m p : Nat), Ready s h pgMOULD p .work → s.plat.chip.shelf = false → s.mouldRefused v m = none → s.volBad v = false → s.mouldBad m = false →
    exec (.mouldCreate h v m) s = .next (((s.consume.takeMould v m [h.cseq]).commit [tableRec 2 m, tableRec 0 v]).keeps p 0x0100 h [m]) ∧
    (s.takeMould v m [h.cseq]).vol v = { s.vol v with epoch := (s.vol v).epoch + 1, moulds := (s.vol v).moulds + 1 } ∧
    ((s.takeMould v m [h.cseq]).mould m).epoch = (s.vol v).epoch ∧ ((s.takeMould v m [h.cseq]).mould m).root = (s.vol v).root ∧ ((s.takeMould v m [h.cseq]).mould m).st = 1) ∧
  (∀ (s : State) (h : CmdHdr) (v m p : Nat), Ready s h pgMOULD p .work → s.plat.chip.shelf = false →
    (∀ st, s.mouldRefused v m = some st → exec (.mouldCreate h v m) s = .next (s.consume.ends p h st)) ∧
    (s.mouldRefused v m = none → s.volBad v = true → exec (.mouldCreate h v m) s = .next ((s.consume.volBadNote v).ends p h 1)) ∧
    (s.mouldRefused v m = none → s.volBad v = false → s.mouldBad m = true → exec (.mouldCreate h v m) s = .next ((s.consume.mouldBadNote m).ends p h 1))) ∧
  (∀ (s : State) (v m : Nat),
    (v < 65536 → m < 1048576 → (s.vol v).kind ≠ 0 → (s.vol v).kind ≠ 3 → (s.vol v).deleting = none → (s.mould m).st = 0 → (s.vol v).moulds < 4096 → (s.vol v).epoch < 0xFFFFFFFF → s.mouldRefused v m = none) ∧
    ((65536 ≤ v ∨ 1048576 ≤ m ∨ (s.vol v).kind = 0 ∨ (s.vol v).kind = 3) → s.mouldRefused v m = some 1) ∧
    (v < 65536 → m < 1048576 → (s.vol v).kind ≠ 0 → (s.vol v).kind ≠ 3 → (s.vol v).deleting = none → (s.mould m).st ≠ 0 → s.mouldRefused v m = some 2)) ∧
  (∀ (s : State) (m : Nat), (s.mould m).st = 1 → s.sealWaits (s.mould m) = false →
    exec (.mouldSealed m) s = .next (((s.mould m).waits.foldl (fun t q => t.finishRunning q 0 stOk) ((s.setMould m { s.mould m with st := 2, waits := [] }).commit [tableRec 2 m])).cgSealed m)) ∧
  (∀ (s : State) (m : Nat), ((s.mould m).st ≠ 1 ∨ s.sealWaits (s.mould m) = true) → exec (.mouldSealed m) s = .next s) ∧
  (∀ (s : State) (h : CmdHdr) (n a p : Nat), Ready s h pgMOULD p .work → s.plat.chip.shelf = false → 1 ≤ n → n ≤ 1024 → s.hbmErr a (8 * n) = false →
    (∀ e ∈ s.cgList n a, s.mouldBad e.2 = false ∧ s.volBad e.1 = false) → s.cgRefused (s.cgList n a) = none →
    ∃ t : State, exec (.mouldCg h n a) s = .next (t.keeps p 0x0101 h [n]) ∧ t.lmap.cgs = s.lmap.cgs ++ [(h.cseq, (s.cgList n a).map Prod.snd, (s.cgList n a).map Prod.fst)] ∧
      (∀ e ∈ s.cgList n a, (t.mould e.2).st = 1 ∧ (t.mould e.2).root = (s.vol e.1).root ∧ (t.vol e.1).epoch = (s.vol e.1).epoch + 1) ∧ t.lmap.commitSeq = s.lmap.commitSeq + 1) ∧
  (∀ (s : State) (h : CmdHdr) (n a p : Nat), Ready s h pgMOULD p .work → s.plat.chip.shelf = false →
    ((n = 0 ∨ 1024 < n) → exec (.mouldCg h n a) s = .next (s.consume.ends p h 1)) ∧
    (1 ≤ n → n ≤ 1024 → s.hbmErr a (8 * n) = true → exec (.mouldCg h n a) s = .next ((s.consume.noteErr a (8 * n)).ends p h 1)) ∧
    (∀ st, 1 ≤ n → n ≤ 1024 → s.hbmErr a (8 * n) = false → (∀ e ∈ s.cgList n a, s.mouldBad e.2 = false ∧ s.volBad e.1 = false) → s.cgRefused (s.cgList n a) = some st →
      exec (.mouldCg h n a) s = .next (s.consume.ends p h st)) ∧
    (∀ e, 1 ≤ n → n ≤ 1024 → s.hbmErr a (8 * n) = false → (s.cgList n a).find? (fun x => s.mouldBad x.2) = some e →
      exec (.mouldCg h n a) s = .next ((s.consume.mouldBadNote e.2).ends p h 1)) ∧
    (∀ e, 1 ≤ n → n ≤ 1024 → s.hbmErr a (8 * n) = false → (∀ x ∈ s.cgList n a, s.mouldBad x.2 = false) → (s.cgList n a).find? (fun x => s.volBad x.1) = some e →
      exec (.mouldCg h n a) s = .next ((s.consume.volBadNote e.1).ends p h 1))) ∧
  (∀ (s : State) (h : CmdHdr) (m p : Nat), Ready s h pgMOULD p .work → s.plat.chip.shelf = false →
    (m < 1048576 → s.mouldBad m = false → (s.mould m).st ≠ 0 → (s.mould m).st ≠ 3 → (s.mould m).clones = 0 →
      exec (.mouldDelete h m) s = .next (((((((s.mould m).waits.foldl (fun u q => u.finishRunning q 0 7) s.consume).cgSealed m).setMould m
        { s.mould m with st := 3, delCmd := some h.cseq, waits := [] }).commit [tableRec 2 m])).keeps p 0x0102 h [m])) ∧
    ((1048576 ≤ m ∨ (s.mould m).st = 0) → exec (.mouldDelete h m) s = .next (s.consume.ends p h 1)) ∧
    (m < 1048576 → (s.mould m).st ≠ 0 → s.mouldBad m = true → exec (.mouldDelete h m) s = .next ((s.consume.mouldBadNote m).ends p h 1)) ∧
    (m < 1048576 → s.mouldBad m = false → (s.mould m).st = 3 → exec (.mouldDelete h m) s = .next (s.consume.ends p h 9)) ∧
    (m < 1048576 → s.mouldBad m = false → (s.mould m).st ≠ 0 → (s.mould m).st ≠ 3 → (s.mould m).clones ≠ 0 → exec (.mouldDelete h m) s = .next (s.consume.ends p h 6))) ∧
  (∀ (s : State) (m : Nat) (gone : List Nat), gone = (s.toExamine m).filter (fun p => !(s.reached none (some m)).contains p && (s.lmap.pages.find p).isSome) →
    ((s.mould m).st ≠ 3 → exec (.mouldDeleteDone m) s = .next s) ∧
    ((s.mould m).st = 3 → (s.freeNeed gone).isSome = true → exec (.mouldDeleteDone m) s = .next (s.wantFree gone)) ∧
    ((s.mould m).st = 3 → s.freeNeed gone = none → (s.mould m).delCmd = none → ∃ t : State, exec (.mouldDeleteDone m) s = .next t ∧ t.mould m = {}) ∧
    (∀ q, (s.mould m).st = 3 → s.freeNeed gone = none → (s.mould m).delCmd = some q → ∃ t : State, exec (.mouldDeleteDone m) s = .next (t.finishRunning q 0 stOk) ∧ t.mould m = {})) ∧
  (∀ (s : State) (h : CmdHdr) (m v view k p : Nat), Ready s h pgMOULD p .work → s.plat.chip.shelf = false → m < 1048576 → v < 65536 → view ≤ 1 → s.mouldBad m = false → s.volBad (s.mould m).vol = false →
    ((s.mould m).st = 2 → (s.vol v).kind = 0 → s.foreignSlot k (s.vol (s.mould m).vol).tenant = false → s.foreignDomain (s.vol (s.mould m).vol).domain (s.vol (s.mould m).vol).tenant = false →
      (s.mould m).clones < 0xFFFF →
      ∃ t : State, exec (.mouldClone h m v view k) s = .next (t.ends p h stOk) ∧ (t.vol v).root = (s.mould m).root ∧ (t.vol v).size = (s.mould m).size ∧
        (t.vol v).kind = (if view = 1 then 3 else 2) ∧ (t.vol v).readOnly = decide (view = 1) ∧ (t.vol v).source = m ∧ t.mould m = { s.mould m with clones := (s.mould m).clones + 1 }) ∧
    ((s.mould m).st ≠ 2 → exec (.mouldClone h m v view k) s = .next (s.consume.ends p h 7)) ∧
    ((s.mould m).st = 2 → (s.vol v).kind ≠ 0 → exec (.mouldClone h m v view k) s = .next (s.consume.ends p h 2)) ∧
    ((s.mould m).st = 2 → (s.vol v).kind = 0 → (s.foreignSlot k (s.vol (s.mould m).vol).tenant = true ∨ s.foreignDomain (s.vol (s.mould m).vol).domain (s.vol (s.mould m).vol).tenant = true) →
      exec (.mouldClone h m v view k) s = .next (s.consume.ends p h 3)) ∧
    ((s.mould m).st = 2 → (s.vol v).kind = 0 → s.foreignSlot k (s.vol (s.mould m).vol).tenant = false → s.foreignDomain (s.vol (s.mould m).vol).domain (s.vol (s.mould m).vol).tenant = false →
      0xFFFF ≤ (s.mould m).clones → exec (.mouldClone h m v view k) s = .next (s.consume.ends p h 8))) ∧
  (∀ (s : State) (h : CmdHdr) (m v view k p : Nat), Ready s h pgMOULD p .work → s.plat.chip.shelf = false →
    ((1048576 ≤ m ∨ 65536 ≤ v ∨ 1 < view) → exec (.mouldClone h m v view k) s = .next (s.consume.ends p h 1)) ∧
    (m < 1048576 → v < 65536 → view ≤ 1 → s.mouldBad m = true → exec (.mouldClone h m v view k) s = .next ((s.consume.mouldBadNote m).ends p h 1)) ∧
    (m < 1048576 → v < 65536 → view ≤ 1 → s.mouldBad m = false → s.volBad (s.mould m).vol = true →
      exec (.mouldClone h m v view k) s = .next ((s.consume.volBadNote (s.mould m).vol).ends p h 1))) ∧
  (∀ (s : State) (h : CmdHdr) (v m n view k p : Nat), Ready s h pgMOULD p .work → s.plat.chip.shelf = true →
    exec (.mouldCreate h v m) s = .next (s.consume.ends p h lsBadArg) ∧ exec (.mouldCg h n m) s = .next (s.consume.ends p h lsBadArg) ∧
    exec (.mouldDelete h m) s = .next (s.consume.ends p h lsBadArg) ∧ exec (.mouldClone h m v view k) s = .next (s.consume.ends p h lsBadArg))

/-- The role and the state of a replica in which SLIP_UNPAIR is taken. -/
abbrev Unpairs (r : Replica) : Prop := (r.role = 1 ∧ (r.st = rsIdle ∨ r.st = rsBroken)) ∨ (r.role = 2 ∧ (r.st = rsPromoted ∨ r.st = rsBroken))

/-- Replicas (R237-R249, log entry 59). SLIP_PAIR makes an entry; SLIP_UNPAIR frees one that is at rest, SLIP_SHIP of two Sealed moulds starts
Shipping, SLIP_RESUME of a Paused replica ships again and of a Degraded or Fenced one resynchronises, SLIP_SET_MOULD names the target's next mould,
and SLIP_PROMOTE takes a target out of its role; each ends with its status where it is refused. An entry that cannot be read breaks the replica first.
A record is sent from the head of the queue, or formed. A duplicate record is dropped, and another waits for its turn; one that is applied raises
APPLIED_SEQ. The source takes what the target has applied, loses a copy that times out, and passes over its backlog. Completes: slipPair, slipUnpair,
slipShip, slipResume, slipSetMould, slipPromote, slipRecordSend, slipRecordArrive, slipRecordApplied, slipStatusReceive, slipAckTimeout,
slipResyncPass. Where the spec leaves a point open it follows the model's choice in log entry 42. -/
def Obligations.Replicas : Prop :=
  (∀ (s : State) (v : Nat), (((s.rep v).role = 0 ∨ s.hbmErr (s.repAddr v) 64 = false) → s.slipRead v = s) ∧
    ((s.rep v).role ≠ 0 → s.hbmErr (s.repAddr v) 64 = true →
      s.slipRead v = ((s.noteErr (s.repAddr v) 64).capture pgSLIP 0x01 v 0).slipBroken v (if (s.rep v).role = 1 then 4 else 2))) ∧
  (∀ (s : State) (h : CmdHdr) (v role mode pol n a tv land st b p : Nat), Ready s h pgSLIP p .work → v < 65536 → (s.vol v).kind ≠ 0 → role = 1 ∨ role = 2 → mode ≤ 1 → pol ≤ 1 → 1 ≤ n → n ≤ 8 →
    (mode = 0 ∨ pol = 0 ∨ b ≠ 0) →
    ((s.rep v).role = 0 → ∃ t : State, exec (.slipPair h v role mode pol n a tv land st b) s = .next (t.ends p h stOk) ∧ (∀ w, w ≠ v → t.rep w = s.rep w) ∧
      t.rep v = { role := role, sync := decide (mode = 1), degrade := decide (pol = 1), st := if role = 1 ∧ mode = 1 then rsInSync else rsIdle, assoc := a, tgtVol := tv, land := land, slotsLog2 := n, status := st, nextSeq := 1, bitmap := b, wasInSync := decide (mode = 1) }) ∧
    ((s.rep v).role ≠ 0 → exec (.slipPair h v role mode pol n a tv land st b) s = .next (s.consume.ends p h 3))) ∧
  (∀ (s : State) (h : CmdHdr) (v role mode pol n a tv land st b p : Nat), Ready s h pgSLIP p .work →
    (65536 ≤ v ∨ (s.vol v).kind = 0 ∨ (role ≠ 1 ∧ role ≠ 2) ∨ 1 < mode ∨ 1 < pol ∨ n = 0 ∨ 8 < n ∨ (mode = 1 ∧ pol = 1 ∧ b = 0)) →
    exec (.slipPair h v role mode pol n a tv land st b) s = .next (s.consume.ends p h 1)) ∧
  (∀ (s t : State) (h : CmdHdr) (v p : Nat), Ready s h pgSLIP p .work → t = s.consume.slipRead v →
    (Unpairs (t.rep v) → exec (.slipUnpair h v) s = .next (((t.shipEnds v 6).setRep v {}).ends p h stOk) ∧ ((t.shipEnds v 6).setRep v {}).rep v = {}) ∧
    ((t.rep v).role = 0 → exec (.slipUnpair h v) s = .next (t.ends p h 2)) ∧
    ((t.rep v).role ≠ 0 → ¬ Unpairs (t.rep v) → exec (.slipUnpair h v) s = .next (t.ends p h 4))) ∧
  (∀ (s t : State) (h : CmdHdr) (v b n p : Nat), Ready s h pgSLIP p .work → t = s.consume.slipRead v →
    ((t.rep v).role = 1 → (t.rep v).sync = false → (t.rep v).st = rsIdle → (b = noMould ∨ t.sealedOf v b = true) → t.sealedOf v n = true →
      ∃ u : State, exec (.slipShip h v b n) s = .next (u.keeps p 0x0101 h []) ∧ (u.rep v).st = rsShipping ∧ (u.rep v).baseMould = b ∧
        (u.rep v).nextMould = n ∧ (u.rep v).cursor = 0 ∧ (u.rep v).shipCmd = some h.cseq ∧ (b ≠ n → n ≠ noMould → (u.mould n).clones = (s.mould n).clones + 1)) ∧
    ((t.rep v).role = 0 → exec (.slipShip h v b n) s = .next (t.ends p h 2)) ∧
    ((t.rep v).role ≠ 0 → ((t.rep v).role ≠ 1 ∨ (t.rep v).sync = true ∨ (t.rep v).st ≠ rsIdle) → exec (.slipShip h v b n) s = .next (t.ends p h 4)) ∧
    ((t.rep v).role = 1 → (t.rep v).sync = false → (t.rep v).st = rsIdle → ((b ≠ noMould ∧ t.sealedOf v b = false) ∨ t.sealedOf v n = false) → exec (.slipShip h v b n) s = .next (t.ends p h 5))) ∧
  (∀ (s t : State) (h : CmdHdr) (v a p : Nat), Ready s h pgSLIP p .work → t = (s.consume.slipRead v).dropShipReads v →
    ((t.rep v).role = 1 → (t.rep v).st = rsPaused → ∃ u : State, exec (.slipResume h v a) s = .next (u.ends p h stOk) ∧ (u.rep v).st = rsShipping ∧ (u.rep v).assoc = a ∧
      (u.rep v).nextSeq = (t.rep v).nextSeq + 1) ∧
    ((t.rep v).role = 1 → (t.rep v).st = rsDegraded ∨ (t.rep v).st = rsFenced → ∃ u : State, exec (.slipResume h v a) s = .next (u.ends p h stOk) ∧ (u.rep v).st = rsResync ∧ (u.rep v).assoc = a ∧
      (u.rep v).nextSeq = (t.rep v).nextSeq + 1) ∧
    ((t.rep v).role = 0 → exec (.slipResume h v a) s = .next (t.ends p h 2)) ∧
    ((t.rep v).role ≠ 0 → ((t.rep v).role ≠ 1 ∨ ((t.rep v).st ≠ rsPaused ∧ (t.rep v).st ≠ rsDegraded ∧ (t.rep v).st ≠ rsFenced)) → exec (.slipResume h v a) s = .next (t.ends p h 4))) ∧
  (∀ (s t : State) (h : CmdHdr) (v m p : Nat), Ready s h pgSLIP p .work → t = s.consume.slipRead v →
    ((t.rep v).role = 2 → (m < 1048576 ∨ m = noMould) → exec (.slipSetMould h v m) s = .next (((t.setRep v { t.rep v with nextMould := m }).targetOn v).ends p h stOk)) ∧
    ((t.rep v).role = 2 → 1048576 ≤ m → m ≠ noMould → exec (.slipSetMould h v m) s = .next (t.ends p h 1)) ∧
    ((t.rep v).role = 0 → exec (.slipSetMould h v m) s = .next (t.ends p h 2)) ∧
    ((t.rep v).role ≠ 0 → (t.rep v).role ≠ 2 → exec (.slipSetMould h v m) s = .next (t.ends p h 4))) ∧
  (∀ (s t : State) (h : CmdHdr) (v p : Nat), Ready s h pgSLIP p .work → t = s.consume.slipRead v →
    ((t.rep v).role = 2 → (t.rep v).st ≠ rsPromoted → (t.rep v).promote = none →
      exec (.slipPromote h v) s = .next ((((((t.revokeLanding v).modRep v (fun x => { x with promote := some h.cseq, arrived := [] })).keeps p 0x0104 h []).promotePump v)).statusPump v)) ∧
    ((t.rep v).role = 0 → exec (.slipPromote h v) s = .next (((t.ends p h 2).promotePump v).statusPump v)) ∧
    ((t.rep v).role ≠ 0 → ((t.rep v).role ≠ 2 ∨ (t.rep v).st = rsPromoted ∨ (t.rep v).promote.isSome = true) → exec (.slipPromote h v) s = .next (((t.ends p h 4).promotePump v).statusPump v))) ∧
  (∀ (s t : State) (v : Nat), t = (s.slipRead v).slipPoll v → s.working pgSLIP = true → (s.rep v).ships = true →
    ((t.rep v).ships = false → exec (.slipRecordSend v) s = .next t) ∧
    ((t.rep v).ships = true → (t.rep v).queue ≠ [] → exec (.slipRecordSend v) s = .next (t.sendHead v)) ∧
    ((t.rep v).ships = true → (t.rep v).queue = [] → exec (.slipRecordSend v) s = .next ((t.formNext v).sendHead v))) ∧
  (∀ (s : State) (v : Nat), (s.working pgSLIP = false ∨ (s.rep v).ships = false) → exec (.slipRecordSend v) s = .next s) ∧
  (∀ (s : State) (v q : Nat), ((s.rep v).role ≠ 2 ∨ (s.rep v).st ≠ rsIdle ∨ (s.rep v).promote.isSome = true ∨ s.working pgSLIP = false) → exec (.slipRecordArrive v q) s = .next s) ∧
  (∀ (s : State) (v q : Nat), (s.rep v).role = 2 → (s.rep v).st = rsIdle → (s.rep v).promote = none → s.working pgSLIP = true →
    (s.hbmErr (s.repAddr v) 64 = true → exec (.slipRecordArrive v q) s = .next ((s.slipRead v).statusPump v)) ∧
    (s.hbmErr (s.repAddr v) 64 = false → q ≤ (s.rep v).applied → exec (.slipRecordArrive v q) s = .next (s.bump fSLIP_DUP_DROP)) ∧
    (s.hbmErr (s.repAddr v) 64 = false → (s.rep v).applied < q → s.hbmErr (s.landed v q) 64 = true →
      exec (.slipRecordArrive v q) s = .next (((s.noteErr (s.landed v q) 64).targetBroken v 2).statusPump v)) ∧
    (∀ hdr n, s.hbmErr (s.repAddr v) 64 = false → (s.rep v).applied < q → s.hbmErr (s.landed v q) 64 = false → hdr = s.hbmRead (s.landed v q) 64 →
      n = (if recKind hdr = 1 then 4112 * recNlb hdr else 0) →
      ((unLe (hdr.take 2) ≠ 0x534C ∨ unLe (slice hdr 8 8) ≠ q ∨ unLe (slice hdr 4 2) ≠ v ∨ slotBytes < 64 + n) → exec (.slipRecordArrive v q) s = .next s) ∧
      (unLe (hdr.take 2) = 0x534C → unLe (slice hdr 8 8) = q → unLe (slice hdr 4 2) = v → 64 + n ≤ slotBytes → s.hbmErr (s.landed v q + 64) n = true →
        exec (.slipRecordArrive v q) s = .next (((s.noteErr (s.landed v q + 64) n).targetBroken v 2).statusPump v)) ∧
      (unLe (hdr.take 2) = 0x534C → unLe (slice hdr 8 8) = q → unLe (slice hdr 4 2) = v → 64 + n ≤ slotBytes → s.hbmErr (s.landed v q + 64) n = false →
        exec (.slipRecordArrive v q) s = .next ((s.modRep v (fun x => { x with arrived := x.arrived ++ [(q, s.hbmRead (s.landed v q) (64 + n))] })).targetOn v)))) ∧
  (∀ (s : State) (v q : Nat), (s.rep v).role = 2 → s.hbmErr (s.repAddr v) 64 = false → (s.rep v).inAir = [q] → (s.rep v).overs = [(q, true)] → (s.rep v).st ≠ rsBroken → (s.rep v).applied + 1 = q →
    (s.rep v).kinds = [] →
    exec (.slipRecordApplied v q) s = .next (((s.setRep v { s.rep v with inAir := [], applied := q, overs := [] }).bump fSLIP_RECORDS_APPLIED).targetOn v)) ∧
  (∀ (s t : State) (v q : Nat) (ok : Bool), t = s.slipRead v → (t.rep v).role = 2 → (t.rep v).inAir.contains q = true → (t.rep v).overs.find? (fun e => e.1 = q) = some (q, ok) →
    ((t.rep v).st = rsBroken → exec (.slipRecordApplied v q) s = .next ((t.setRep v { t.rep v with inAir := (t.rep v).inAir.filter (· ≠ q) }).promotePump v)) ∧
    ((t.rep v).st ≠ rsBroken → ok = false → exec (.slipRecordApplied v q) s = .next (((t.setRep v { t.rep v with inAir := (t.rep v).inAir.filter (· ≠ q) }).targetBroken v 2).targetOn v)) ∧
    ((t.rep v).st ≠ rsBroken → ok = true → ∃ u : State, exec (.slipRecordApplied v q) s = .next ((u.bump fSLIP_RECORDS_APPLIED).targetOn v) ∧
      (u.rep v).inAir = (t.rep v).inAir.filter (· ≠ q) ∧ (u.rep v).applied = appliedTo (t.rep v).overs.length (t.rep v).applied ((t.rep v).inAir.filter (· ≠ q)) (t.rep v).overs)) ∧
  (∀ (s t : State) (v q : Nat), t = s.slipRead v → ((t.rep v).role ≠ 2 ∨ (t.rep v).inAir.contains q = false ∨ (t.rep v).overs.find? (fun e => e.1 = q) = none) →
    exec (.slipRecordApplied v q) s = .next t) ∧
  (∀ (s : State) (v a st rs : Nat), ((s.rep v).role ≠ 1 ∨ s.working pgSLIP = false ∨ (s.rep v).st = rsBroken) → exec (.slipStatusReceive v a st rs) s = .next s) ∧
  (∀ (s t : State) (v a st rs : Nat), (s.rep v).role = 1 → s.working pgSLIP = true → (s.rep v).st ≠ rsBroken → t = (s.slipRead v).slipPoll v →
    ((t.rep v).st = rsBroken → exec (.slipStatusReceive v a st rs) s = .next t) ∧
    ((t.rep v).st ≠ rsBroken → st = rsBroken → exec (.slipStatusReceive v a st rs) s = .next (t.slipBroken v rs)) ∧
    ((t.rep v).st ≠ rsBroken → st ≠ rsBroken → ∃ u : State, exec (.slipStatusReceive v a st rs) s = .next ((u.slipDelivered v (max (t.rep v).applied a)).finalApplied v) ∧
      (u.rep v).applied = max (t.rep v).applied a ∧ (u.rep v).sent = (t.rep v).sent.filter (fun e => decide (max (t.rep v).applied a < e.1)) ∧ (∀ w, w ≠ v → u.rep w = t.rep w))) ∧
  (∀ (s t : State) (v q : Nat), t = (s.slipRead v).slipPoll v → (s.ackAwaited v q).isSome = true →
    (∀ k c, t.ackAwaited v q = some (k, c) → exec (.slipAckTimeout v q) s = .next (t.slipCopyLost v k c.ranges q)) ∧
    (t.ackAwaited v q = none → exec (.slipAckTimeout v q) s = .next t)) ∧
  (∀ (s : State) (v q : Nat), s.ackAwaited v q = none → exec (.slipAckTimeout v q) s = .next s) ∧
  (∀ (s : State) (v key q : Nat) (rg : List (Nat × Nat)), (s.rep v).st = rsInSync → (s.rep v).bitmap = 0 → s.nvf.cmds = [] →
    ((s.slipCopyLost v key rg q).rep v).st = (if (s.rep v).degrade then rsDegraded else rsFenced)) ∧
  (∀ (s t : State) (v : Nat), t = s.slipRead v → (t.rep v).role = 1 → (t.rep v).st = rsResync → (t.rep v).todo = [] → (t.rep v).reading = none → (t.rep v).hold = false → t.working pgSLIP = true →
    ((t.rep v).backlog = [] → t.dsmOpen v = false → (t.rep v).nextSeq - 1 ≤ (t.rep v).applied →
      ∃ u : State, exec (.slipResyncPass v) s = .next u ∧ (u.rep v).st = rsInSync ∧ (u.rep v).hold = false) ∧
    (∃ u : State, exec (.slipResyncPass v) s = .next (u.finalApplied v) ∧
      (u.rep v).todo = ((t.rep v).backlog.map (fun k => (256 * k, min 256 ((t.vol v).size - 256 * k)))).filter (fun g => g.2 ≠ 0) ∧
      (u.rep v).hold = (decide ((t.rep v).backlog.length ≤ t.fld fSLIP_SYNC_CFG_FINAL_REGIONS) && !t.dsmOpen v) ∧ (∀ w, w ≠ v → u.rep w = t.rep w))) ∧
  (∀ (s t : State) (v : Nat), t = s.slipRead v → ((t.rep v).role ≠ 1 ∨ (t.rep v).st ≠ rsResync ∨ (t.rep v).todo ≠ [] ∨ (t.rep v).reading.isSome = true ∨ (t.rep v).hold = true ∨ t.working pgSLIP = false) →
    exec (.slipResyncPass v) s = .next t)

/-! ### Flash: FTL, PUG, PAR, SAG and RBLD (R250-R322) -/

/-- The current row of a segment may be padded (R255): it is part-full and holds what waits for it. -/
abbrev MayPad (s : State) (g : Nat) : Prop :=
  (s.seg g).st = 1 ∧ ((s.seg g).used ≠ 0 ∨ (s.seg g).row % s.progRows (s.seg g) ≠ 0) ∧ s.groupTakes (s.seg g).group = true ∧
  (s.mediumRow (s.seg g) = true ∨ 2 ≤ (s.seg g).stream ∨
    (s.seg g).units.any (fun u => !u.dead && u.src.isSome && decide ((s.seg g).row / s.progRows (s.seg g) * s.progRows (s.seg g) ≤ u.row)) = true)

/-- Rows, reads and checkpoints (R255, R267-R273, R277, R303, R308, log entries 6 and 92). A full row is programmed, without the units
whose tags fail, and a part-full one after FILL_US with padding. A program whose members have all reported settles its units, or waits for the delta
ring. A failed program and a failed erase are counted, and their blocks retired. A codeword that decodes gives its unit's bytes; one that is an
erasure goes to PAR, and a location that addresses nothing is UNCORRECTABLE. Patrol counts what it finds. A checkpoint starts; and FTL_RETIRE retires
a Free block at once and marks a Used one. Completes: rowProgram, rowFillTimeout, sagLogComplete, programFailure, eraseFailure, codewordRead,
patrolRead, ftlCheckpoint, ftlCkpt, ftlRetire. Where the spec leaves a point open it follows the model's choice in log entries 26, 30, 39, 40, 125,
126, 134. -/
def Obligations.FlashRows : Prop :=
  (∀ (s : State) (g : Nat) (l : List (Nat × Nat × List Byte)),
    ((s.seg g).st = 1 → s.rowFull (s.seg g) = true → s.groupTakes (s.seg g).group = true → exec (.rowProgram ⟨g, l⟩) s = .next (s.programRow g l)) ∧
    (((s.seg g).st ≠ 1 ∨ s.rowFull (s.seg g) = false ∨ s.groupTakes (s.seg g).group = false) → exec (.rowProgram ⟨g, l⟩) s = .next s)) ∧
  (∀ (s : State) (g : Nat) (l : List (Nat × Nat × List Byte)), s.badAtParity g l = [] → s.programRow g l = (s.setSeg g (s.seg g)).issueProgram g) ∧
  (∀ (s : State) (g : Nat) (l : List (Nat × Nat × List Byte)) (u : Placed), s.badAtParity g l = [u] →
    s.programRow g l = ((s.modSeg g (fun v => { v with units := v.units.filter (fun x => !([u].contains x)) })).issueProgram g).tagAtParity u) ∧
  (∀ (s : State) (g : Nat) (l : List (Nat × Nat × List Byte)), MayPad s g →
    exec (.rowFillTimeout ⟨g, l⟩) s = .next ((s.bump fFTL_PAD_GRAINS ((s.seg g).rowCap - (s.seg g).used +
      (s.progRows (s.seg g) - 1 - (s.seg g).row % s.progRows (s.seg g)) * (s.seg g).rowCap)).programRow g l)) ∧
  (∀ (s : State) (g : Nat) (l : List (Nat × Nat × List Byte)), ¬ MayPad s g → exec (.rowFillTimeout ⟨g, l⟩) s = .next s) ∧
  (∀ (s t : State) (g r : Nat) (p : Program), (s.seg g).progs.find? (fun p => p.row = r && p.done = p.issued) = some p → t = (s.writeLog g 2 p).endProgram g p →
    (t.settleRoom g ((s.seg g).progUnits p) = true → exec (.sagLogComplete g r) s = .next ((t.settleUnits g ((s.seg g).progUnits p)).writeLog g 0 p).afterRow) ∧
    (t.settleRoom g ((s.seg g).progUnits p) = false → p.ringWaits = true → exec (.sagLogComplete g r) s = .next s) ∧
    (t.settleRoom g ((s.seg g).progUnits p) = false → p.ringWaits = false → exec (.sagLogComplete g r) s =
      .next (s.deltaWait.modSeg g (fun w => { w with progs := w.progs.map (fun x => if x = p then { x with ringWaits := true } else x) })))) ∧
  (∀ (s : State) (g r : Nat), (s.seg g).progs.find? (fun p => p.row = r && p.done = p.issued) = none → exec (.sagLogComplete g r) s = .next s) ∧
  (∀ (s t : State) (g r m b pos : Nat) (p : Program), (s.seg g).progAt r = some p → pos = (s.seg g).posBlocks.findIdx (fun b => b.1 = m) → (s.seg g).posBlocks[pos]? = some (m, b) →
    (p.done ||| p.failed).testBit pos = false → t = (s.bump fFTL_PROG_FAIL).ftlError 0x01 (⟨m, b, r, 0⟩ : Loc).code →
    exec (.programFailure g r m) s = .next ((((((t.setBlock (blockKey m b) { t.block (blockKey m b) with retire := 1 }).modSeg g (fun w => { w with badMember := true, refresh := true })).retiredEvent m 1 b).closeEarly g
      (fun u => decide (p.row ≤ u.row) && decide (u.row < p.row + p.rows) && (unitPos g (s.seg g).width u).contains pos))).setProgram g p { p with failed := p.failed ||| 2 ^ pos })) ∧
  (∀ (s : State) (g r m : Nat), ((s.seg g).progAt r = none ∨ (s.seg g).posBlocks.find? (fun b => b.1 = m) = none ∨
    (∃ p, (s.seg g).progAt r = some p ∧ (p.done ||| p.failed).testBit ((s.seg g).posBlocks.findIdx (fun b => b.1 = m)) = true)) → exec (.programFailure g r m) s = .next s) ∧
  (∀ (s : State) (g m b : Nat), (s.seg g).st = 5 → (s.seg g).posBlocks = [(m, b)] → (s.seg g).eraseFailed = [] →
    ∃ t : State, exec (.eraseFailure g m) s = .next t ∧ (t.seg g).eraseFailed = [m] ∧ (t.block (blockKey m b)).st = 2) ∧
  (∀ (s : State) (g m b : Nat), (s.seg g).posBlocks.find? (fun b => b.1 = m) = some (m, b) → (s.seg g).st = 5 → (s.seg g).eraseFailed.contains m = false →
    exec (.eraseFailure g m) s = .next ((((((s.bump fFTL_ERASE_FAIL).ftlError 0x02 (blockKey m b)).modSeg g (fun w => { w with eraseFailed := w.eraseFailed ++ [m] })).freeBlock m b true).retiredEvent m 2 b))) ∧
  (∀ (s : State) (g m : Nat), ((s.seg g).posBlocks.find? (fun b => b.1 = m) = none ∨ (s.seg g).st ≠ 5 ∨ (s.seg g).eraseFailed.contains m = true) → exec (.eraseFailure g m) s = .next s) ∧
  (∀ (s t : State) (k : Nat) (r : ReadUnit) (f : CodewordTry) (id row i : Nat) (u : Placed), s.readUnit k = some r → r.phase = .fetch → s.working pgFTL = true →
    s.rowGrain r.loc = some (id, row, i) → s.placedAt r.loc = some u → t = (s.endReads r.ops).readUnitWords id u f →
    ((t.unitWords id u).any (fun w => t.erased id u.row w.1 w.2 []) = true → exec (.codewordRead k f) s = .next (t.toRepair k r id u)) ∧
    ((t.unitWords id u).any (fun w => t.erased id u.row w.1 w.2 []) = false → exec (.codewordRead k f) s = .next (t.gotForm k r (t.readForm id u f.arrived []).2))) ∧
  (∀ (s : State) (k : Nat) (r : ReadUnit) (f : CodewordTry), s.readUnit k = some r → r.phase = .fetch → s.working pgFTL = true → (s.rowGrain r.loc = none ∨ s.placedAt r.loc = none) →
    exec (.codewordRead k f) s = .next ((s.endReads r.ops).invalidLoc k r)) ∧
  (∀ (s : State) (k : Nat) (f : CodewordTry), (∀ r, s.readUnit k = some r → r.phase ≠ .fetch ∨ s.working pgFTL = false) → exec (.codewordRead k f) s = .next s) ∧
  (∀ (s t : State) (g r m c pos : Nat) (b : Nat × Nat) (tr : DecodeTry) (l : Ladder), pos = (s.seg g).posBlocks.findIdx (fun b => b.1 = m) → (s.seg g).posBlocks[pos]? = some b → (s.seg g).st = 2 →
    s.fld fFTL_CTRL_PATROL_EN = 1 → s.runs pgFTL = true → (s.member m).st = 1 → r < (s.seg g).rows → c < 4 → (s.readOnce (s.readAddr g r pos (2 ^ c) 0)).ladder g r pos c tr = (t, l) →
    (∀ i, l = .hard i → exec (.patrolRead g r m c tr) s = .next (if s.refreshAt (blockKey b.1 b.2) i then t.markRefresh g (blockKey b.1 b.2) else t)) ∧
    (l = .soft → exec (.patrolRead g r m c tr) s = .next (t.markRefresh g (blockKey b.1 b.2))) ∧
    (l = .lost → exec (.patrolRead g r m c tr) s = .next (t.uncorrectable g r pos c))) ∧
  (∀ (s : State) (g r m c : Nat) (tr : DecodeTry), ((s.seg g).posBlocks.find? (fun b => b.1 = m) = none ∨ (s.seg g).st ≠ 2 ∨ s.fld fFTL_CTRL_PATROL_EN = 0 ∨ s.runs pgFTL = false ∨ (s.member m).st ≠ 1 ∨
    (s.seg g).rows ≤ r ∨ 4 ≤ c) → exec (.patrolRead g r m c tr) s = .next s) ∧
  (∀ (s : State), (s.working pgFTL = true → s.back.ckpt = none → exec .ftlCheckpoint s = .next (s.startCkpt none)) ∧
    (s.working pgFTL = true → s.back.ckpt.isSome = true → exec .ftlCheckpoint s = .next s.ckptPlace.ckptAnchor) ∧ (s.working pgFTL = false → exec .ftlCheckpoint s = .next s)) ∧
  (∀ (s : State) (h : CmdHdr) (p : Nat), Ready s h pgFTL p .work →
    (s.back.ckpt.isSome = true → exec (.ftlCkpt h) s = .next (s.consume.ends p h 2)) ∧
    (s.back.ckpt = none → (List.range 4).any s.groupTakes = true → exec (.ftlCkpt h) s = .next (((s.consume.keeps p 0x0100 h []).startCkpt (some h.cseq)).keeps p 0x0100 h [])) ∧
    (s.back.ckpt = none → (List.range 4).any s.groupTakes = false → exec (.ftlCkpt h) s = .next ((({ s.consume with back.ckptAsked := false } : State).ftlError 0x06 0).ends p h stOk))) ∧
  (∀ (s : State) (h : CmdHdr) (m b p : Nat), Ready s h pgFTL p .work →
    (m < 24 → s.blockExists m b = true → (s.block (blockKey m b)).st = 1 →
      exec (.ftlRetire h m b) s = .next ((s.consume.setBlock (blockKey m b) { s.block (blockKey m b) with retire := 4 }).ends p h stOk)) ∧
    (m < 24 → s.blockExists m b = true → (s.block (blockKey m b)).st = 0 → exec (.ftlRetire h m b) s = .next (((s.consume.freeBlock m b true).retiredEvent m 4 b).ends p h stOk)) ∧
    ((24 ≤ m ∨ s.blockExists m b = false ∨ 1 < (s.block (blockKey m b)).st) → exec (.ftlRetire h m b) s = .next (s.consume.ends p h 1)))

/-- The unit at a source grain of a victim may be read for its move (R285). -/
abbrev MayMove (s : State) (g r i : Nat) (u : Placed) : Prop :=
  s.unitAtGrain g r i = some u ∧ (s.seg g).st = 3 ∧ s.working pgPUG = true ∧ (s.group (s.seg g).group).st ≠ 3 ∧ s.unitLive g u = true ∧ s.moveOf g r i = none ∧
  (s.seg g).unparsed.contains (r, grainPos g (s.seg g).width r i, i % 32 / 8) = false

/-- The erase of a segment is not even tried: PUG does not work, the group is read-only, or a member of it is Offline. -/
abbrev EraseBarred (s : State) (g : Nat) : Prop :=
  s.working pgPUG = false ∨ (s.group (s.seg g).group).st = 3 ∨ ((s.seg g).posBlocks.any fun b => decide ((s.member b.1).st = 2)) = true

/-- Pug (R282-R295, log entries 38 and 132). A selected segment goes to Reclaiming. A unit of a victim is read, repaired from P and Q where it
must be, and placed; one that cannot be is poisoned, or its row unparsed; a moved unit is verified by a read-back, or its destination closed; a
verified move commits, or is void. A segment that CKPT_SEQ does not cover is not erased, and one that it covers is; an erase that is done frees its
segment; a scan poisons the units of the lost spans; and PUG_HOLD and PUG_RECLAIM are recorded in their group. An error in Pug's own memory voids the
moves in flight first. Completes: pugVictimSelect, pugUnitRead, pugMoveVerify, pugMoveCommit, pugErase, segmentEraseDone, pugScanDone, pugReclaim,
pugHold, pugCkptWaitExpiry. Where the spec leaves a point open it follows the model's choice in log entries 26, 33, 41. -/
def Obligations.Reclaim : Prop :=
  (∀ (s : State) (g id : Nat), s.runs pgPUG = true → s.groupMoves g = true → (s.group g).hold = false → (s.group g).victims.length < s.fld fPUG_CTRL_ACTIVE_MAX → s.pugVictim g = some id →
    exec (.pugVictimSelect g) s = .next (((((s.setReg rPUG_VICTIM (BitVec.ofNat 32 id)).setReg rPUG_VICTIM_SCORE (BitVec.ofNat 32 (s.pugScore (s.seg id)))).modGroup
      g (fun y => { y with victims := y.victims ++ [id] })).takeVictim id))) ∧
  (∀ (s : State) (g : Nat), (s.runs pgPUG = false ∨ s.groupMoves g = false ∨ (s.group g).hold = true ∨ s.fld fPUG_CTRL_ACTIVE_MAX ≤ (s.group g).victims.length ∨ s.pugVictim g = none) →
    exec (.pugVictimSelect g) s = .next s) ∧
  (∀ (s : State), s.mem.bad.any Config.pugScratch = false → s.scratchRead = s) ∧
  (∀ (s s1 t v : State) (g r i e : Nat) (u : Placed) (f : CodewordTry), t = s.scratchRead → MayMove t g r i u →
    s1 = ((t.wordReads g r (t.unitWords g u)).foldl State.readOnce t).readUnitWords g u f → e = s1.unitErasures g u [] →
    v = (s1.repairReads g u []).foldl State.readOnce ((s1.bump fPUG_SRC_RECON).bump (if e = 1 then fPAR_REPAIR_1 else fPAR_REPAIR_2)) →
    (e = 0 → exec (.pugUnitRead g r i f) s = .next (s1.moveUnit g u (s1.readForm g u f.arrived []))) ∧
    (3 ≤ e → exec (.pugUnitRead g r i f) s = .next (s1.unitGone g u)) ∧
    (1 ≤ e → e ≤ 2 → u.tagOk (v.readForm g u [] []) = true → exec (.pugUnitRead g r i f) s = .next (v.moveUnit g u (v.readForm g u [] []))) ∧
    (1 ≤ e → e ≤ 2 → u.tagOk (v.readForm g u [] []) = false →
      exec (.pugUnitRead g r i f) s = .next (((((v.capture pgPAR 0x03 g r).bump fPUG_POISONED).loseStored u 2).killUnit g u).commitMove g []))) ∧
  (∀ (s t : State) (g r i : Nat) (f : CodewordTry), t = s.scratchRead → (∀ u, ¬ MayMove t g r i u) → exec (.pugUnitRead g r i f) s = .next t) ∧
  (∀ (s t : State) (g r : Nat) (u : Placed), t = s.scratchRead → (t.seg g).units = [u] → u.row = r → u.src.isSome = true → u.dead = false → u.verified = false → (t.seg g).rowDone r = true →
    exec (.pugMoveVerify g r []) s = .next (t.setUnit g u { u with verified := true })) ∧
  (∀ (s t s1 s2 : State) (g r : Nat) (bad : List Nat) (us : List Placed) (hit : Placed → Bool), t = s.scratchRead → (t.seg g).rowDone r = true →
    us = (t.seg g).units.filter (fun u => u.row = r && u.src.isSome && !u.dead && !u.verified) → us ≠ [] →
    hit = (fun u => (unitPos g (t.seg g).width u).any (fun p => bad.contains ((t.seg g).posBlocks.getD p (0, 0)).1)) →
    s1 = (us.filter (fun u => !hit u)).foldl (fun v u => v.setUnit g u { u with verified := true }) t →
    s2 = ((us.filter hit).foldl (fun v u => (v.killUnit g u).bump fPUG_DEST_FAIL) s1).pugError 0x03 g r →
    (us.any hit = false → exec (.pugMoveVerify g r bad) s = .next s1) ∧
    (us.any hit = true → exec (.pugMoveVerify g r bad) s = .next ((((((t.seg g).posBlocks.map Prod.fst).filter (fun m => bad.contains m)).foldl (State.destFails g) s2).modSeg g
      (fun w => { w with badMember := true, refresh := true })).closeEarly g (fun _ => false)))) ∧
  (∀ (s t : State) (g r : Nat) (bad : List Nat), t = s.scratchRead →
    ((t.seg g).rowDone r = false ∨ (∀ u ∈ (t.seg g).units, u.row = r → u.src = none ∨ u.dead = true ∨ u.verified = true)) → exec (.pugMoveVerify g r bad) s = .next t) ∧
  (∀ (s t : State) (g r i id : Nat) (d u : Placed), t = s.scratchRead → t.moveOf g r i = some (id, d) → t.unitAtGrain g r i = some u → d.verified = true → (t.seg id).rowDone d.row = true →
    (t.unitLive g u = true → t.deltaRoom (t.withTables [locRec 0 0 0, segRec id, segRec g]) = true → exec (.pugMoveCommit g r i) s = .next (t.moveCommits g u id d)) ∧
    (t.unitLive g u = true → t.deltaRoom (t.withTables [locRec 0 0 0, segRec id, segRec g]) = false → exec (.pugMoveCommit g r i) s = .next t.deltaWait) ∧
    (t.unitLive g u = false → exec (.pugMoveCommit g r i) s = .next (((t.killUnit id d).bump fPUG_MOVES_VOID).commitMove g []))) ∧
  (∀ (s t : State) (g r i id : Nat) (d : Placed), t = s.scratchRead → t.moveOf g r i = some (id, d) → t.unitAtGrain g r i = none → d.verified = true →
    exec (.pugMoveCommit g r i) s = .next (((t.killUnit id d).bump fPUG_MOVES_VOID).commitMove g [])) ∧
  (∀ (s t : State) (g r i : Nat), t = s.scratchRead → (∀ id d, t.moveOf g r i = some (id, d) → d.verified = false ∨ ((t.unitAtGrain g r i).isSome = true ∧ (t.seg id).rowDone d.row = false)) →
    exec (.pugMoveCommit g r i) s = .next t) ∧
  (∀ (s : State) (g : Nat), ¬ EraseBarred s g → ((s.seg g).st ≠ 4 ∨ s.reg64 rFTL_CKPT_SEQ < (s.seg g).releaseSeq ∨ s.readHolds g = true) →
    exec (.pugErase g) s = .next ((s.bump fPUG_ERASE_REFUSED).pugError 0x01 g 0)) ∧
  (∀ (s : State) (g : Nat), ¬ EraseBarred s g → (s.seg g).st = 4 → (s.seg g).releaseSeq ≤ s.reg64 rFTL_CKPT_SEQ → s.readHolds g = false → exec (.pugErase g) s = .next (s.issueErase g)) ∧
  (∀ (s : State) (g : Nat), EraseBarred s g → exec (.pugErase g) s = .next s) ∧
  (∀ (s : State) (g : Nat), (s.seg g).st ≠ 5 → exec (.segmentEraseDone g) s = .next s) ∧
  (∀ (s s1 s2 : State) (g : Nat), (s.seg g).st = 5 →
    s1 = (s.seg g).posBlocks.foldl (State.returnBlock (s.seg g)) (((s.eraseOps (s.seg g)).foldl (fun t a => t.endOp a.1 opErase a.2) s).freeCids g) →
    s2 = ((((s1.commit [segRec g]).setSeg g {}).bump fPUG_SEGS_RECLAIMED).modGroup (s.seg g).group (fun x => { x with noSpare := false })) →
    exec (.segmentEraseDone g) s = .next ((fun (s5 : State) => (((s5.back.reclaimCmds.filter (fun e => e.2 = g)).map Prod.fst).foldl (fun t q =>
        ({ t with back.reclaimCmds := t.back.reclaimCmds.del q } : State).finishRunning q 0 stOk) s5).afterRow)
      (((({ s2 with back.credit := s2.back.credit + (nativePages (s2.groupDie (s.seg g).group) * (s2.grpN (s.seg g).group - 2) * 32 - (s.seg g).moved) } : State).relevel
        (s.seg g).group).spaceBack (s.seg g).group).vacate (s.seg g).group)) ∧
    s2.seg g = {} ∧ s2.lmap.commitSeq = s1.lmap.commitSeq + 1) ∧
  (∀ (s : State) (g : Nat) (x : Nat × Nat × Nat), (s.seg g).st = 3 → (s.seg g).unparsed = [x] → (s.seg g).units = [] →
    exec (.pugScanDone g) s = .next (((s.modSeg g (fun w => { w with unparsed := [] })).event pgPUG 4 (le 4 g ++ le 4 0)).commitMove g [])) ∧
  (∀ (s : State) (g : Nat) (l : List Placed), (s.seg g).st = 3 → (s.seg g).unparsed ≠ [] →
    l = (s.seg g).units.filter (fun u => s.unitLive g u && (s.seg g).unparsed.contains (u.row, grainPos g (s.seg g).width u.row u.grain, u.grain % 32 / 8)) →
    exec (.pugScanDone g) s = .next ((((l.foldl (fun t u => (((t.loseStored u 1).killUnit g u).bump fPUG_POISONED).pugError 0x02 g u.ref) s).modSeg g (fun w => { w with unparsed := [] })).event
      pgPUG 4 (le 4 g ++ le 4 l.length)).commitMove g [])) ∧
  (∀ (s : State) (g : Nat), ((s.seg g).st ≠ 3 ∨ (s.seg g).unparsed = []) → exec (.pugScanDone g) s = .next s) ∧
  (∀ (s : State) (h : CmdHdr) (g p : Nat), Ready s h pgPUG p .work →
    (g < 2 ^ 23 → (s.seg g).st = 2 → ∃ t : State, exec (.pugReclaim h g) s = .next (t.keeps p 0x0100 h [g]) ∧ t.back.reclaimCmds.find h.cseq = some g ∧
      g ∈ (t.group (s.seg g).group).reclaim ∧ t.back.segs = s.back.segs ∧ t.lmap = s.lmap) ∧
    (2 ^ 23 ≤ g → exec (.pugReclaim h g) s = .next (s.consume.ends p h 1)) ∧ (g < 2 ^ 23 → (s.seg g).st ≠ 2 → exec (.pugReclaim h g) s = .next (s.consume.ends p h 2))) ∧
  (∀ (s : State) (h : CmdHdr) (g n p : Nat), Ready s h pgPUG p .release →
    (g < 4 → (n = 0 ∨ (s.group g).level ≠ 2) → ∃ t : State, exec (.pugHold h g n) s = .next (t.ends p h stOk) ∧ t.group g = { s.group g with hold := decide (n ≠ 0) } ∧ (∀ k, k ≠ g → t.group k = s.group k)) ∧
    (4 ≤ g → exec (.pugHold h g n) s = .next (s.consume.ends p h 1)) ∧ (g < 4 → n ≠ 0 → (s.group g).level = 2 → exec (.pugHold h g n) s = .next (s.consume.ends p h 3))) ∧
  (∀ (s : State), ((s.back.segs.any fun e => decide (e.2.st = 4) && decide (s.reg64 rFTL_CKPT_SEQ < e.2.releaseSeq)) = true →
      exec .pugCkptWaitExpiry s = .next (({ s with back.ckptAsked := true } : State).askedCkpt)) ∧
    ((s.back.segs.any fun e => decide (e.2.st = 4) && decide (s.reg64 rFTL_CKPT_SEQ < e.2.releaseSeq)) = false → exec .pugCkptWaitExpiry s = .next s))

/-- The repair of erased columns (R300, R301): of the data columns of a row, one that is erased comes back from P, or from Q when P is erased too, and two
that are erased come back from P and Q. Width at most 24; a payload is 4,112 bytes. -/
def Obligations.ParityRepairs : Prop :=
  (∀ (ds : List (List Byte)) (x : Nat) (q : Option (List Byte)), (∀ d ∈ ds, d.length = 4112) → ds.length ≤ 22 → x < ds.length →
    repairColumn ((ds.map some).set x none) (some (parityP ds)) q x = ds[x]?) ∧
  (∀ (ds : List (List Byte)) (x : Nat), (∀ d ∈ ds, d.length = 4112) → ds.length ≤ 22 → x < ds.length →
    repairColumn ((ds.map some).set x none) none (some (parityQ ds)) x = ds[x]?) ∧
  (∀ (ds : List (List Byte)) (x y : Nat), (∀ d ∈ ds, d.length = 4112) → ds.length ≤ 22 → x < y → y < ds.length →
    repairColumn (((ds.map some).set x none).set y none) (some (parityP ds)) (some (parityQ ds)) x = ds[x]? ∧
    repairColumn (((ds.map some).set x none).set y none) (some (parityP ds)) (some (parityQ ds)) y = ds[y]?)

/-- The arguments of PAR_GROUP_CREATE that R322 allows. -/
abbrev GroupArgs (s : State) (g mode spare : Nat) (ms sp : List Nat) : Prop :=
  g < 4 ∧ mode ≤ 1 ∧ 6 ≤ ms.length ∧ ms.length ≤ 24 ∧ (∀ m ∈ ms, m < 24 ∧ (s.member m).st = 0) ∧ (∀ m ∈ sp, m < 24 ∧ (s.member m).st = 0 ∧ m ∉ ms) ∧ (mode = 0 → spare = 1 ∨ spare = 2) ∧ sp.length ≤ 2

/-- SAG may dump: power has failed, a restart is asked for, or an error is fatal to the chip; and no dump has been made or runs (R312). -/
abbrev MayDump (s : State) : Prop :=
  (s.plat.pwr.powerFail = true ∨ s.plat.chip.restartReq.isSome = true ∨ s.plat.chip.fatalHold = true) ∧ s.plat.chip.dumpDone = false ∧ s.working pgSAG = true ∧ s.back.dumping = none

/-- The module may join the group (R322). -/
abbrev MayJoin (s : State) (m g : Nat) : Prop :=
  m < 24 ∧ g < 4 ∧ ((s.member m).st = 0 ∨ (s.member m).st = 5) ∧ (s.group g).exists_ = true ∧ (s.link m).dieType ≠ 0 ∧ (s.link m).dieType = s.groupDie g

/-- Parity, the dump and rebuild (R296-R322, log entries 39 and 138). At most two erasures are repaired from the data, P and Q that arrive,
three fail the read, and so does a repaired unit whose tag fails. A group is created from unassigned modules of one die type, and deleted while no
segment is in it; another argument ends with 1 or 2. A dump is written when power fails, a restart is asked for or an error is fatal, and is sealed
when it is done; a replay applies the newest. A member declared Failed, put Offline, brought back, or joined changes state, and a segment of a Failed
one goes to rebuild; what is not asked for by its state changes nothing. Completes: parRepair, parGroupCreate, parGroupDelete, sagDump, sagDumpDone,
sagReplay, memberDeclaredFailed, offlineMaxExpiry, rebuildSegment, rbldFail, rbldOffline, rbldOnline, rbldJoin. Where the spec leaves a point open it
follows the model's choice in log entries 30, 51, 58, 67, 89, 117, 134. -/
def Obligations.ParityAndRebuild : Prop :=
  (∀ (s t : State) (k : Nat) (r : ReadUnit) (ar : Arrived) (id row i : Nat) (u : Placed), s.readUnit k = some r → r.phase = .repair → s.working pgPAR = true →
    s.rowGrain r.loc = some (id, row, i) → s.placedAt r.loc = some u → t = s.endReads r.ops →
    (t.unitErasures id u r.erased = 0 → u.tagOk (t.readForm id u ar r.erased) = true → exec (.parRepair k ar) s = .next (t.gotForm k r (t.readForm id u ar r.erased).2)) ∧
    (t.unitErasures id u r.erased = 0 → u.tagOk (t.readForm id u ar r.erased) = false →
      exec (.parRepair k ar) s = .next (((t.capture pgPAR 0x03 id u.row).loseStored u 2).readLost k r)) ∧
    (t.unitErasures id u r.erased = 1 → u.tagOk (t.readForm id u ar r.erased) = true →
      exec (.parRepair k ar) s = .next ((t.bump fPAR_REPAIR_1).gotForm k r (t.readForm id u ar r.erased).2)) ∧
    (t.unitErasures id u r.erased = 1 → u.tagOk (t.readForm id u ar r.erased) = false →
      exec (.parRepair k ar) s = .next ((((t.bump fPAR_REPAIR_1).capture pgPAR 0x03 id u.row).loseStored u 2).readLost k r)) ∧
    (t.unitErasures id u r.erased = 2 → u.tagOk (t.readForm id u ar r.erased) = true →
      exec (.parRepair k ar) s = .next ((t.bump fPAR_REPAIR_2).gotForm k r (t.readForm id u ar r.erased).2)) ∧
    (t.unitErasures id u r.erased = 2 → u.tagOk (t.readForm id u ar r.erased) = false →
      exec (.parRepair k ar) s = .next ((((t.bump fPAR_REPAIR_2).capture pgPAR 0x03 id u.row).loseStored u 2).readLost k r)) ∧
    (3 ≤ t.unitErasures id u r.erased → exec (.parRepair k ar) s = .next (t.strikeOut k r id u))) ∧
  (∀ (s : State) (k : Nat) (r : ReadUnit) (ar : Arrived), s.readUnit k = some r → r.phase = .repair → s.working pgPAR = true → (s.rowGrain r.loc = none ∨ s.placedAt r.loc = none) →
    exec (.parRepair k ar) s = .next ((if 16 ≤ r.cid ∧ s.plat.chip.shelf = false then (s.endReads r.ops).poisonCid r.cid 1 else s.endReads r.ops).readLost k r)) ∧
  (∀ (s : State) (k : Nat) (ar : Arrived), (∀ r, s.readUnit k = some r → r.phase ≠ .repair ∨ s.working pgPAR = false) → exec (.parRepair k ar) s = .next s) ∧
  (∀ (s : State) (h : CmdHdr) (g mode spare mask smask p : Nat) (sp : List Nat), Ready s h pgPAR p .work → sp = (if mode = 1 then bitList 32 smask else []) →
    (GroupArgs s g mode spare (bitList 32 mask) sp → (s.group g).exists_ = false → s.oneDie (bitList 32 mask ++ sp) = true →
      exec (.parGroupCreate h g mode spare mask smask) s = .next ((s.consume.makeGroup g mode spare (bitList 32 mask) sp).ends p h stOk)) ∧
    (GroupArgs s g mode spare (bitList 32 mask) sp → (s.group g).exists_ = true → exec (.parGroupCreate h g mode spare mask smask) s = .next (s.consume.ends p h 2)) ∧
    (GroupArgs s g mode spare (bitList 32 mask) sp → (s.group g).exists_ = false → s.oneDie (bitList 32 mask ++ sp) = false →
      exec (.parGroupCreate h g mode spare mask smask) s = .next ((s.consume.ftlError 0x07 g).ends p h 1)) ∧
    (¬ GroupArgs s g mode spare (bitList 32 mask) sp → exec (.parGroupCreate h g mode spare mask smask) s = .next (s.consume.ends p h 1))) ∧
  (∀ (s : State) (h : CmdHdr) (g p : Nat), Ready s h pgPAR p .work →
    (g < 4 → (s.group g).exists_ = true → (∀ e ∈ s.back.segs, e.2.st = 0 ∨ e.2.group ≠ g) →
      ∃ t : State, exec (.parGroupDelete h g) s = .next (t.ends p h stOk) ∧ (t.group g).exists_ = false ∧ (∀ k, k ≠ g → t.group k = s.group k)) ∧
    (g < 4 → (s.group g).exists_ = true → (∃ e ∈ s.back.segs, e.2.st ≠ 0 ∧ e.2.group = g) → (s.group g).foreign = none → exec (.parGroupDelete h g) s = .next (s.consume.ends p h 2)) ∧
    (g < 4 → (s.group g).exists_ = true → (s.group g).foreign.isSome = true → ∃ t : State, exec (.parGroupDelete h g) s = .next (t.ends p h stOk) ∧ (t.group g).exists_ = false) ∧
    ((4 ≤ g ∨ (s.group g).exists_ = false) → exec (.parGroupDelete h g) s = .next (s.consume.ends p h 1))) ∧
  (∀ (s : State), MayDump s → ∃ (t : State) (n : Nat), exec .sagDump s = .next t ∧ t.back.dumping = some n ∧ t.mem = s.mem ∧ t.regs = s.regs ∧ t.lmap = s.lmap ∧
      (∀ d, s.newestDump = some d → n = 1 - d.set) ∧ ∃ d ∈ t.back.dumps, d.set = n ∧ d.id = s.plat.evt.epoch ∧ d.ckptSeq = s.reg64 rFTL_CKPT_SEQ ∧ d.final = false) ∧
  (∀ (s : State), ¬ MayDump s → exec .sagDump s = .next s) ∧
  (∀ (s t : State) (us n : Nat), s.back.dumping = some n → (s.plat.chip.shelf = true ∨ s.zeroized = false) →
    t = ({ (s.ringTake s.ringUsed).1 with back.dumping := none, plat.chip.dumpDone := true } : State).modDump n (fun d =>
      { d with final := true, lastComplete := s.lmap.commitSeq, image := some (s.committedMaps 0), units := s.dumpUnits, bytes := s.dumpBytes s.dumpUnits.length, log := s.logInUse, mirror := s.dumpMirror }) →
    exec (.sagDumpDone us) s = .next ((((List.range (s.dumpBytes s.dumpUnits.length / 2 ^ 28 + 1)).foldl (fun u _ => u.dumpHeader) t).setReg rSAG_DUMP_TIME_US (BitVec.ofNat 32 us)).restartPump) ∧
    t.back.dumping = none ∧ t.plat.chip.dumpDone = true) ∧
  (∀ (s t : State) (us n : Nat), s.back.dumping = some n → s.plat.chip.shelf = false → s.zeroized = true →
    t = ({ s with back.dumping := none, plat.chip.dumpDone := true } : State).modDump n (fun d => { d with final := true, bytes := 2 ^ 20 + 2 ^ 24, log := s.logInUse }) →
    exec (.sagDumpDone us) s = .next ((((List.range (s.dumpBytes 0 / 2 ^ 28 + 1)).foldl (fun u _ => u.dumpHeader) t).setReg rSAG_DUMP_TIME_US (BitVec.ofNat 32 us)).restartPump)) ∧
  (∀ (s : State) (us : Nat), s.back.dumping = none → exec (.sagDumpDone us) s = .next s) ∧
  (∀ (s : State) (h : CmdHdr) (p : Nat), Ready s h pgSAG p .work →
    (s.newestDump = none → exec (.sagReplay h) s = .next ((s.consume.ends p h 3).replayPump)) ∧
    (∀ d, s.newestDump = some d → d.shelf ≠ s.plat.chip.shelf → exec (.sagReplay h) s = .next ((s.consume.ends p h 4).replayPump)) ∧
    (∀ d, s.newestDump = some d → d.shelf = s.plat.chip.shelf → s.back.replay.isSome = true → exec (.sagReplay h) s = .next ((s.consume.ends p h 2).replayPump)) ∧
    (∀ d, s.newestDump = some d → d.shelf = s.plat.chip.shelf → s.back.replay = none →
      exec (.sagReplay h) s = .next (((({ s.consume with back.replay := some h.cseq } : State).restore d).keeps p 0x0100 h []).replayPump))) ∧
  (∀ (s : State) (m : Nat), ((s.member m).st = 1 → (s.link m).st ≠ lkUp → (s.link m).owner = 1 → s.working pgRBLD = true → exec (.memberDeclaredFailed m) s = .next (s.declareFailed m 1)) ∧
    (((s.member m).st ≠ 1 ∨ (s.link m).st = lkUp ∨ (s.link m).owner ≠ 1 ∨ s.working pgRBLD = false) → exec (.memberDeclaredFailed m) s = .next s)) ∧
  (∀ (s : State) (m : Nat), ((s.member m).st = 2 → s.fld fRBLD_CFG_OFFLINE_MAX_S ≠ 0 → s.working pgRBLD = true → exec (.offlineMaxExpiry m) s = .next (s.declareFailed m 4)) ∧
    (((s.member m).st ≠ 2 ∨ s.fld fRBLD_CFG_OFFLINE_MAX_S = 0 ∨ s.working pgRBLD = false) → exec (.offlineMaxExpiry m) s = .next s)) ∧
  (∀ (s : State) (g : Nat), (∀ id, s.runs pgRBLD = true → s.groupMoves g = true → (s.group g).rebuilding = none → s.rebuildNext g = some id →
      exec (.rebuildSegment g) s = .next ((s.modGroup g (fun x => { x with rebuilding := some id })).takeVictim id)) ∧
    ((s.runs pgRBLD = false ∨ s.groupMoves g = false ∨ (s.group g).rebuilding.isSome = true ∨ s.rebuildNext g = none) → exec (.rebuildSegment g) s = .next s)) ∧
  (∀ (s : State) (h : CmdHdr) (m p : Nat), Ready s h pgRBLD p .work →
    (((s.member m).st = 1 ∨ (s.member m).st = 2) → exec (.rbldFail h m) s = .next ((s.consume.declareFailed m 3).ends p h stOk)) ∧
    ((s.member m).st ≠ 1 → (s.member m).st ≠ 2 → exec (.rbldFail h m) s = .next (s.consume.ends p h 1))) ∧
  (∀ (s : State) (h : CmdHdr) (m p : Nat), Ready s h pgRBLD p .work →
    ((s.member m).st = 1 → (s.group (s.member m).group).st = 0 → (s.groupMembers (s.member m).group).any (fun k => (s.member k).offCmd.isSome) = false →
      exec (.rbldOffline h m) s = .next (((s.consume.setMember m { s.member m with offCmd := some h.cseq }).keeps p 0x0101 h []).offlinePump)) ∧
    ((s.member m).st = 1 → ((s.group (s.member m).group).st ≠ 0 ∨ (s.groupMembers (s.member m).group).any (fun k => (s.member k).offCmd.isSome) = true) →
      exec (.rbldOffline h m) s = .next (s.consume.ends p h 2).offlinePump) ∧
    ((s.member m).st ≠ 1 → exec (.rbldOffline h m) s = .next (s.consume.ends p h 1).offlinePump)) ∧
  (∀ (s : State) (h : CmdHdr) (m p : Nat), Ready s h pgRBLD p .work →
    ((s.member m).st = 2 → exec (.rbldOnline h m) s = .next ((((s.consume.setMember m { s.member m with st := 1 }).event pgRBLD 6 (le 1 m ++ le 1 1)).groupState
      (s.member m).group).ends p h stOk)) ∧
    ((s.member m).st ≠ 2 → exec (.rbldOnline h m) s = .next (s.consume.ends p h 1))) ∧
  (∀ (s : State) (h : CmdHdr) (m g n p : Nat), Ready s h pgRBLD p .work →
    (MayJoin s m g → n ≠ 0 → ∃ t : State, exec (.rbldJoin h m g n) s = .next (t.ends p h stOk) ∧ (t.member m).st = 4 ∧ (t.member m).group = g ∧
      (t.group g).spares = (s.group g).spares ++ [m]) ∧
    (MayJoin s m g → n = 0 → ∃ t : State, exec (.rbldJoin h m g n) s = .next ((((t.groupState g).relevel g).spaceBack g).placeAll.recomputeArbiter.ends p h stOk) ∧ (t.member m).st = 1 ∧
      (t.member m).group = g ∧ (t.group g).members = (s.group g).members ||| 2 ^ m) ∧
    (¬ MayJoin s m g → exec (.rbldJoin h m g n) s = .next (s.consume.ends p h 1)))

/-! ### Module links: MLINK (R325-R342) -/

/-- A module link (R326-R330, R335, R338, log entries 19, 20, 60). LINK_EN = 1 starts a Down link and LINK_EN = 0 ends one; RETRAIN
retrains an Up one; an Off page counts the access. Lock, alignment and CONFIG move a link that is in the state before, and CONFIG of another version
holds it. An Up link discards a bad flit with a NAK, takes an ACK, and takes the bytes of a flit in order; it sends unacknowledged flits again, takes
DATA, a CPL and ATTN; an operation that times out keeps its tag and credits. A module leaves and arrives at its input. Every other event changes
nothing. Completes: mlinkLinkEn, mlinkRetrain, mlinkSignalLock, mlinkAlignDone, mlinkConfigReceive, mlinkFlitReceive, mlinkReplayTimeout,
mlinkCrcSilence, mlinkDataReceive, mlinkCplReceive, mlinkAttnReceive, mlinkOpTimeout, moduleRemoved, moduleArrived. -/
def Obligations.Links : Prop :=
  (∀ (s : State) (m : Nat) (on : Bool),
    (24 ≤ m → exec (.mlinkLinkEn m on) s = .next s ∧ exec (.mlinkRetrain m) s = .next s) ∧
    (m < 24 → s.pageOn (pgMLINK m) = false →
      exec (.mlinkLinkEn m on) s = .next ((s.bump fCHIP_OFF_ACCESS).linkOn m) ∧ exec (.mlinkRetrain m) s = .next (s.bump fCHIP_OFF_ACCESS)) ∧
    (m < 24 → s.pageOn (pgMLINK m) = true → (s.blk (pgMLINK m) = .fault ∨ s.blk (pgMLINK m) = .off) →
      exec (.mlinkLinkEn m on) s = .next (s.linkOn m) ∧ exec (.mlinkRetrain m) s = .next s) ∧
    (m < 24 → Reaches s (pgMLINK m) → exec (.mlinkLinkEn m true) s = .next (((s.setFld (fMLINK_CTRL_LINK_EN m) 1).linkStart m).linkOn m) ∧
      exec (.mlinkLinkEn m false) s = .next (((s.setFld (fMLINK_CTRL_LINK_EN m) 0).linkEnd m).linkOn m))) ∧
  (∀ (s : State) (m : Nat), m < 24 → Reaches s (pgMLINK m) → (s.link m).st = lkDown → s.domOn (21 + m / 4) = true → (s.plat.islands.get {} (11 + m / 4)).clkRun = true →
    (s.plat.islands.get {} (11 + m / 4)).inReset = false → s.plat.chip.porstLow = false → s.upd.job = none →
    ∃ t : State, exec (.mlinkLinkEn m true) s = .next t ∧ t.links = s.links.put {} m { s.link m with st := lkDetect } ∧ t.mem = s.mem) ∧
  (∀ (s : State) (m : Nat), m < 24 → Reaches s (pgMLINK m) → s.upd.job = none →
    ((s.link m).st ≠ lkDown → ∃ t : State, exec (.mlinkLinkEn m false) s = .next t ∧ (t.link m).st = lkDown ∧ (t.link m).width = 0 ∧ (t.link m).ops = (s.link m).ops) ∧
    ((s.link m).st = lkUp → ∃ t : State, exec (.mlinkRetrain m) s = .next t ∧ t.links = s.links.put {} m { s.link m with st := lkDetect } ∧ t.mem = s.mem) ∧
    ((s.link m).st ≠ lkUp → exec (.mlinkRetrain m) s = .next s)) ∧
  (∀ (s : State) (m n : Nat),
    ((s.link m).st = lkDetect → 2 ≤ n → n ≤ 4 → exec (.mlinkSignalLock m n) s = .next (s.linkMoves m lkAlign)) ∧
    ((s.link m).st ≠ lkDetect ∨ n < 2 ∨ 4 < n → exec (.mlinkSignalLock m n) s = .next s)) ∧
  (∀ (s : State) (m w : Nat),
    ((s.link m).st = lkAlign → w = 2 ∨ w = 4 → ∃ t u : State, exec (.mlinkAlignDone m w) s = .next u ∧ u = (if w = 2 then t.event (pgMLINK m) 3 [2] else t) ∧
      (t.link m).st = lkConfig ∧ (t.link m).width = w ∧ (∀ k, k ≠ m → t.link k = s.link k) ∧ t.mem = s.mem ∧ t.out.head? = some (.config m s.plat.chip.headId 1)) ∧
    ((s.link m).st ≠ lkAlign ∨ (w ≠ 2 ∧ w ≠ 4) → exec (.mlinkAlignDone m w) s = .next s)) ∧
  (∀ (s : State) (m v : Nat),
    ((s.link m).st = lkConfig → v = 1 → exec (.mlinkConfigReceive m v) s = .next ((s.linkUp m).linkOn m)) ∧
    ((s.link m).st = lkConfig → v ≠ 1 → exec (.mlinkConfigReceive m v) s = .next (s.linkLost m 3)) ∧
    ((s.link m).st ≠ lkConfig → exec (.mlinkConfigReceive m v) s = .next s)) ∧
  (∀ (s : State) (m : Nat), (s.link m).st = lkConfig → (s.link m).txWait = [] → (s.link m).unacked = [] → (s.link m).waitOps = [] → s.upd.job = none →
    ∃ (t : State) (tag : Nat), exec (.mlinkConfigReceive m 1) s = .next t ∧ (t.link m).st = lkUp ∧ (t.link m).ops.find tag = some { opcode := opIdentify, addr := 0 }) ∧
  (∀ (s : State) (m : Nat) (flit : List Byte),
    ((s.link m).st ≠ lkUp ∨ flit.length ≠ 256 → exec (.mlinkFlitReceive m flit) s = .next s) ∧
    ((s.link m).st = lkUp → flit.length = 256 → (3 < unBe (slice flit 0 1) ∨ unBe (slice flit 240 4) ≠ crc32c 0xFFFFFFFF (flit.take 240)) →
      exec (.mlinkFlitReceive m flit) s = .next ((s.bump (fMLINK_CRC_ERR m)).ackFlit m true)) ∧
    ((s.link m).st = lkUp → flit.length = 256 → unBe (slice flit 240 4) = crc32c 0xFFFFFFFF (flit.take 240) → unBe (slice flit 0 1) ≤ 3 → unBe (slice flit 0 1) ≠ 1 →
      exec (.mlinkFlitReceive m flit) s = .next ((s.linkAck m (unBe (slice flit 2 1)) ((slice flit 3 1).any (fun b => b.toNat.testBit 7))).linkOn m))) ∧
  (∀ (s t : State) (m : Nat) (flit : List Byte), (s.link m).st = lkUp → flit.length = 256 → unBe (slice flit 240 4) = crc32c 0xFFFFFFFF (flit.take 240) →
    unBe (slice flit 0 1) = 1 → t = s.linkAck m (unBe (slice flit 2 1)) ((slice flit 3 1).any (fun b => b.toNat.testBit 7)) →
    (unBe (slice flit 1 1) ≠ (t.link m).rxSeq % 256 → exec (.mlinkFlitReceive m flit) s = .next (t.flitBad m)) ∧
    (unBe (slice flit 1 1) = (t.link m).rxSeq % 256 → exec (.mlinkFlitReceive m flit) s =
      .next ((State.parseLink (((t.link m).stream ++ slice flit 4 236).length + 1) ((t.setLink m { t.link m with rxSeq := ((t.link m).rxSeq + 1) % 256, stream := (t.link m).stream ++ slice flit 4 236 }).ackFlit m false) m).linkOn m))) ∧
  (∀ (s : State) (m : Nat), ((s.link m).unacked = [] ∨ (s.link m).st ≠ lkUp → exec (.mlinkReplayTimeout m) s = .next s) ∧
    ((s.link m).unacked ≠ [] → (s.link m).st = lkUp → (s.link m).replays < 15 → exec (.mlinkReplayTimeout m) s = .next
      ((s.link m).unacked.foldl (fun t e => t.sendFlit m 1 e.1 false e.2) ((s.setLink m { s.link m with replays := (s.link m).replays + 1 }).bump (fMLINK_REPLAY m)))) ∧
    ((s.link m).unacked ≠ [] → (s.link m).st = lkUp → 15 ≤ (s.link m).replays → exec (.mlinkReplayTimeout m) s = .next
      ((((s.link m).unacked.foldl (fun t e => t.sendFlit m 1 e.1 false e.2) ((s.setLink m { s.link m with replays := (s.link m).replays + 1 }).bump (fMLINK_REPLAY m))).modLink m
        (fun l => { l with replays := 0 })).linkGivesUp m))) ∧
  (∀ (s : State) (m : Nat), ((s.link m).st = lkUp → exec (.mlinkCrcSilence m) s = .next ((s.linkLost m 1).linkRetrain m)) ∧
    ((s.link m).st ≠ lkUp → exec (.mlinkCrcSilence m) s = .next s)) ∧
  (∀ (s : State) (m tag page : Nat) (bs : List Byte), ((s.link m).st ≠ lkUp ∨ (s.link m).ops.find tag = none → exec (.mlinkDataReceive m tag page bs) s = .next s)) ∧
  (∀ (s : State) (m tag page : Nat) (bs : List Byte) (o : LinkOp), (s.link m).st = lkUp → (s.link m).ops.find tag = some o →
      (o.opcode = opRead → exec (.mlinkDataReceive m tag page bs) s = .next (s.setLink m { s.link m with ops := (s.link m).ops.ins tag { o with got := o.got ++ bs } })) ∧
      (o.opcode ≠ opRead → exec (.mlinkDataReceive m tag page bs) s = .next s)) ∧
  (∀ (s : State) (m tag st : Nat) (bs : List Byte), ((s.link m).st ≠ lkUp → exec (.mlinkCplReceive m tag st bs) s = .next s) ∧
    ((s.link m).st = lkUp → (s.link m).ops.find tag = none → (bs.length = 16 ∨ bs.length = 48 ∨ bs.length = 96) → exec (.mlinkCplReceive m tag st bs) s = .next (s.linkOn m)) ∧
    ((s.link m).st = lkUp → (s.link m).ops.find tag = none → bs.length ≠ 16 → bs.length ≠ 48 → bs.length ≠ 96 →
      exec (.mlinkCplReceive m tag st bs) s = .next ((s.linkBreak m tag 0).linkOn m))) ∧
  (∀ (s : State) (m tag st : Nat) (bs : List Byte) (o : LinkOp), (s.link m).st = lkUp → (s.link m).ops.find tag = some o →
    (o.accepted = true → exec (.mlinkCplReceive m tag st bs) s = .next (s.linkOn m)) ∧
    (o.accepted = false → o.opcode ≠ 0 → cplLenOk o.opcode st bs.length = false → exec (.mlinkCplReceive m tag st bs) s = .next ((s.linkBreak m tag o.addr).linkOn m)) ∧
    (∀ t : State, t = s.setLink m { s.link m with ops := (s.link m).ops.del tag, opCredits := (s.link m).opCredits + unBe (slice bs 6 2), bufCredits := (s.link m).bufCredits + unBe (slice bs 8 2) } →
      (o.opcode = 0 → st ≠ 4 → exec (.mlinkCplReceive m tag st bs) s = .next (t.linkOn m)) ∧
      (o.accepted = false → o.opcode ≠ 0 → o.opcode ≠ opIdentify → o.opcode ≠ opFwActivate → cplLenOk o.opcode st bs.length = true → st = 0 →
        exec (.mlinkCplReceive m tag st bs) s = .next ((t.opDone m o bs).linkOn m)) ∧
      (o.accepted = false → o.opcode ≠ 0 → o.opcode ≠ opIdentify → cplLenOk o.opcode st bs.length = true → st ≠ 0 → st ≠ 4 →
        exec (.mlinkCplReceive m tag st bs) s = .next ((t.opBad m tag o st).linkOn m)) ∧
      (o.accepted = false → o.opcode ≠ 0 → o.opcode ≠ opIdentify → cplLenOk o.opcode st bs.length = true → st = 4 →
        exec (.mlinkCplReceive m tag st bs) s = .next (((t.bump (fMLINK_NOT_OWNER m)).opBad m tag o st).linkOn m))) ∧
    (o.opcode = opIdentify → cplLenOk o.opcode 0 bs.length = true → st = 0 →
      exec (.mlinkCplReceive m tag st bs) s = .next (((s.setLink m { s.link m with ops := (s.link m).ops.del tag }).identify m bs).linkOn m)) ∧
    (o.opcode = opFwActivate → o.arg ≠ 1 → bs.length = 16 → st = 0 → exec (.mlinkCplReceive m tag st bs) s = .next ((s.setLink m { s.link m with ops := (s.link m).ops.ins tag { o with arg := 1 }, opCredits := (s.link m).opCredits + unBe (slice bs 6 2), bufCredits := (s.link m).bufCredits + unBe (slice bs 8 2) }).linkOn m))) ∧
  (∀ (s : State) (m r : Nat), ((s.link m).st = lkUp → exec (.mlinkAttnReceive m r) s =
      .next ((s.setLink m { s.link m with trial := false }).event (pgMLINK m) 7 (le 2 (s.fld (fMLINK_FW_VER_RUNNING m))))) ∧
    ((s.link m).st ≠ lkUp → exec (.mlinkAttnReceive m r) s = .next s)) ∧
  (∀ (s : State) (m tag : Nat), ((s.link m).ops.find tag = none → exec (.mlinkOpTimeout m tag) s = .next s)) ∧
  (∀ (s : State) (m tag : Nat) (o : LinkOp), (s.link m).ops.find tag = some o → (o.opcode = 0 → exec (.mlinkOpTimeout m tag) s = .next s) ∧
      (o.accepted = true → exec (.mlinkOpTimeout m tag) s = .next (((s.modLink m (fun l => { l with ops := l.ops.del tag })).endLinkCmd m o.cmd mlLinkDown).linkOn m)) ∧
      (o.opcode ≠ 0 → o.accepted = false → exec (.mlinkOpTimeout m tag) s = .next (((((((s.modLink m (fun l => { l with ops := l.ops.ins tag { o with opcode := 0, cmd := none, got := [] } })).bump (fMLINK_OP_TIMEOUT m)).capture (pgMLINK m) 0x01 tag (o.addr / 2 ^ 32)).irqBit (pgMLINK m) 3).opFails m o).linkOn m)))) ∧
  (∀ (s : State) (m i : Nat), s.presenceInput m = some i →
    (m < 24 → s.gpio i = false → exec (.moduleRemoved m) s = .next (((s.setGpio i true).moduleGone m).bridgeRun) ∧ exec (.moduleArrived m) s = .next s) ∧
    (m < 24 → s.gpio i = true → exec (.moduleRemoved m) s = .next s ∧
      exec (.moduleArrived m) s = .next (((s.setGpio i false).setLink m { s.link m with arrived := true }).linkStart m)) ∧
    (24 ≤ m → exec (.moduleRemoved m) s = .next s ∧ exec (.moduleArrived m) s = .next s)) ∧
  (∀ (s : State) (m : Nat), s.presenceInput m = none → exec (.moduleRemoved m) s = .next s ∧ exec (.moduleArrived m) s = .next s)

/-- MLINK's commands (R336, R340-R342, log entry 60): on a link that is Up each becomes the operation that it names and runs until its CPL; on any
other link it ends with LINK_DOWN; arguments out of range, or a source that cannot be read, end it with BAD_ARG; FW_WRITE of length 0 completes at
once, and FW_ACTIVATE of an Online or Failed member ends with NOT_OFFLINE. What the bridge handling of UPD does next follows. An operation waits while
the link has no credit, and a stopped link sends no PROGRAM or ERASE. Completes: mlinkReserve, mlinkFwWrite, mlinkFwDigest, mlinkFwActivate,
mlinkFwCommit, mlinkFwRevert. -/
def Obligations.LinkCommands : Prop :=
  (∀ (s : State) (h : CmdHdr) (m kind gen : Nat), Ready s h (pgMLINK 0) (pgMLINK m) .work → m < 24 →
    (kind ≤ 2 → (s.link m).st = lkUp → exec (.mlinkReserve h kind gen) s = .next (((s.consume.sendOp m { opcode := opReserve + kind, addr := if kind = 1 then gen % 2 ^ 32 else 0, cmd := some h.cseq } []).keeps (pgMLINK m) 0x0100 h []).bridgeRun)) ∧
    (kind ≤ 2 → (s.link m).st ≠ lkUp → exec (.mlinkReserve h kind gen) s = .next ((s.consume.ends (pgMLINK m) h mlLinkDown).bridgeRun)) ∧
    (2 < kind → exec (.mlinkReserve h kind gen) s = .next ((s.consume.ends (pgMLINK m) h mlBadArg).bridgeRun))) ∧
  (∀ (s : State) (h : CmdHdr) (m off n src : Nat), Ready s h (pgMLINK 0) (pgMLINK m) .work → m < 24 →
    ((16777216 < n ∨ s.hbmErr src n = true) → exec (.mlinkFwWrite h off n src) s = .next ((s.consume.ends (pgMLINK m) h mlBadArg).bridgeRun)) ∧
    (n = 0 → s.hbmErr src n = false → exec (.mlinkFwWrite h off n src) s = .next ((s.consume.ends (pgMLINK m) h stOk).bridgeRun)) ∧
    (0 < n → n ≤ 16777216 → s.hbmErr src n = false → (s.link m).st ≠ lkUp →
      exec (.mlinkFwWrite h off n src) s = .next ((s.consume.ends (pgMLINK m) h mlLinkDown).bridgeRun)) ∧
    (0 < n → n ≤ 16777216 → s.hbmErr src n = false → (s.link m).st = lkUp →
      exec (.mlinkFwWrite h off n src) s = .next (((s.consume.sendOp m { opcode := opFwWrite, addr := off, bufs := 1, cmd := some h.cseq, got := (s.hbmRead src n).drop 16384, arg := off + 16384 } ((s.hbmRead src n).take 16384)).keeps (pgMLINK m) 0x0101 h []).bridgeRun))) ∧
  (∀ (s : State) (h : CmdHdr) (m a : Nat), Ready s h (pgMLINK 0) (pgMLINK m) .work → m < 24 →
    (a + 32 ≤ hbmEnd → (s.link m).st = lkUp → exec (.mlinkFwDigest h a) s = .next (((s.consume.sendOp m { opcode := opFwDigest, addr := 0, cmd := some h.cseq, arg := a } []).keeps (pgMLINK m) 0x0102 h []).bridgeRun)) ∧
    (a + 32 ≤ hbmEnd → (s.link m).st ≠ lkUp → exec (.mlinkFwDigest h a) s = .next ((s.consume.ends (pgMLINK m) h mlLinkDown).bridgeRun)) ∧
    (hbmEnd < a + 32 → exec (.mlinkFwDigest h a) s = .next ((s.consume.ends (pgMLINK m) h mlBadArg).bridgeRun))) ∧
  (∀ (s : State) (h : CmdHdr) (m : Nat), Ready s h (pgMLINK 0) (pgMLINK m) .work → m < 24 →
    ((s.member m).st ∈ [0, 2, 4, 5] → (s.link m).st = lkUp → exec (.mlinkFwActivate h) s = .next (((s.consume.sendOp m { opcode := opFwActivate, addr := 0, cmd := some h.cseq } []).keeps (pgMLINK m) 0x0103 h []).bridgeRun)) ∧
    ((s.member m).st ∈ [0, 2, 4, 5] → (s.link m).st ≠ lkUp → exec (.mlinkFwActivate h) s = .next ((s.consume.ends (pgMLINK m) h mlLinkDown).bridgeRun)) ∧
    ((s.member m).st ∉ [0, 2, 4, 5] → exec (.mlinkFwActivate h) s = .next ((s.consume.ends (pgMLINK m) h mlNotOffline).bridgeRun)) ∧
    ((s.link m).st = lkUp → exec (.mlinkFwCommit h) s = .next (((s.consume.sendOp m { opcode := opFwCommit, addr := 0, cmd := some h.cseq } []).keeps
        (pgMLINK m) 0x0104 h []).bridgeRun) ∧
      exec (.mlinkFwRevert h) s = .next (((s.consume.sendOp m { opcode := opFwRevert, addr := 0, cmd := some h.cseq } []).keeps (pgMLINK m) 0x0105 h []).bridgeRun)) ∧
    ((s.link m).st ≠ lkUp → exec (.mlinkFwCommit h) s = .next ((s.consume.ends (pgMLINK m) h mlLinkDown).bridgeRun) ∧
      exec (.mlinkFwRevert h) s = .next ((s.consume.ends (pgMLINK m) h mlLinkDown).bridgeRun))) ∧
  (∀ (s : State) (m : Nat) (o : LinkOp) (bs : List Byte), (s.link m).waitOps = [] → (s.link m).stopped = false → (s.link m).opCredits = 0 →
    s.sendOp m o bs = s.setLink m { s.link m with waitOps := [(o, bs)] }) ∧
  (∀ (s : State) (m : Nat) (o : LinkOp) (bs : List Byte), (s.link m).stopped = true → (o.opcode = opProgram ∨ o.opcode = opErase) → s.sendOp m o bs = s)

/-! ### The pair of heads: PEERCTL (R343-R365) -/

/-- Pairing, resynchronising, taking over and handing over (R349-R360, log entries 32, 100). PEERCTL_PAIR starts Pairing on an open peer
association, PEERCTL_UNPAIR ends a pair that is neither Pairing, Paired nor Fenced, and PEERCTL_RESYNC copies a Broken mirror of a pair;
RESYNC_COPY_DONE sends RESYNC_DONE. A takeover of a Lost peer by the arbiter or by FORCE, a handover of a group and its time-out, PEERCTL_HOME and a
lost heartbeat do what they say; each command is otherwise refused with its status, and each event otherwise changes nothing. Completes: peerctlPair,
peerctlUnpair, peerctlResync, resyncCopyDone, peerctlTakeover, peerctlHandover, handoverHoldTimeout, peerctlHome, peerHeartbeatTimeout. Where the spec
leaves a point open it follows the model's choice in log entry 140. -/
def Obligations.Pair : Prop :=
  (∀ (s : State) (h : CmdHdr) (a d r l c i : Nat), Ready s h pgPEERCTL pgPEERCTL .work →
    (2 ≤ s.plat.chip.heads → s.peerState = psUnpaired → (s.assoc a).state = .isOpen → (s.assoc a).port = 0x20 →
      exec (.peerctlPair h a d r l c i) s = .next ((((s.consume.startPairing h.cseq a [d, r, l, c, i]).setPeerState psPairing).setAna).keeps pgPEERCTL 0x0100 h [a])) ∧
    ((s.plat.chip.heads < 2 ∨ s.peerState ≠ psUnpaired) → exec (.peerctlPair h a d r l c i) s = .next (s.consume.ends pgPEERCTL h peState)) ∧
    (2 ≤ s.plat.chip.heads → s.peerState = psUnpaired → ((s.assoc a).state ≠ .isOpen ∨ (s.assoc a).port ≠ 0x20) →
      exec (.peerctlPair h a d r l c i) s = .next (s.consume.ends pgPEERCTL h peBadArg))) ∧
  (∀ (s : State) (h : CmdHdr) (a d r l c i : Nat), Ready s h pgPEERCTL pgPEERCTL .work → 2 ≤ s.plat.chip.heads → s.peerState = psUnpaired → (s.assoc a).state = .isOpen →
    (s.assoc a).port = 0x20 → s.nvf.ns = [] →
    ∃ t : State, exec (.peerctlPair h a d r l c i) s = .next (t.keeps pgPEERCTL 0x0100 h [a]) ∧ t.peerState = psPairing ∧ t.peer.assoc = a ∧
      t.peer.handles = [d, r, l, c, i] ∧ t.peer.pairCmd = some h.cseq ∧ t.peer.msgSent = 0 ∧ t.peer.msgRecv = 0 ∧ t.peer.waiting = [] ∧
      t.peer.runsPeer = (List.range (s.nvf.poolMib / 2)).filter (fun k => k % 2 ≠ s.plat.chip.headId) ∧ t.mem = s.mem) ∧
  (∀ (s : State) (h : CmdHdr), Ready s h pgPEERCTL pgPEERCTL .work →
    ((s.peerState = psPaired ∨ s.peerState = psPairing ∨ s.peerState = psFenced) → exec (.peerctlUnpair h) s = .next (s.consume.ends pgPEERCTL h peState)) ∧
    (s.peerState ≠ psPaired → s.peerState ≠ psPairing → s.peerState ≠ psFenced →
      exec (.peerctlUnpair h) s = .next (((({ s.consume with peer.runsPeer := [] } : State).setPeerState psUnpaired).setMirror msAbsent 4).ends pgPEERCTL h stOk))) ∧
  (∀ (s : State) (h : CmdHdr), Ready s h pgPEERCTL pgPEERCTL .work →
    (s.peerState = psPaired → s.mirror = msBroken →
      exec (.peerctlResync h) s = .next (({ s.consume with peer.resyncCmd := some h.cseq } : State).startResync.keeps pgPEERCTL 0x0102 h [])) ∧
    ((s.peerState ≠ psPaired ∨ s.mirror ≠ msBroken) → exec (.peerctlResync h) s = .next (s.consume.ends pgPEERCTL h peState))) ∧
  (∀ (s : State), (s.mirror = msResync → s.peer.resyncRef = none →
      ∃ t : State, exec .resyncCopyDone s = .next t ∧ t.peer.resyncRef = ((s.setReg64 rPEERCTL_RESYNC_LEFT 0).sendMsg 5 (le 8 s.lmap.commitSeq)).2 ∧
        t.lmap = s.lmap ∧ t.mem = s.mem) ∧
    ((s.mirror ≠ msResync ∨ s.peer.resyncRef ≠ none) → exec .resyncCopyDone s = .next s)) ∧
  (∀ (s : State) (h : CmdHdr) (f : Bool) (a : Nat) (ok : Bool), Ready s h pgPEERCTL pgPEERCTL .work →
    ((s.plat.chip.heads < 2 ∨ s.peerState ≠ psLost) → exec (.peerctlTakeover h f a ok) s = .next (s.consume.ends pgPEERCTL h peState)) ∧
    (2 ≤ s.plat.chip.heads → s.peerState = psLost → f = false → (s.arbiterReach = false ∨ 2 ≤ a) →
      exec (.peerctlTakeover h f a ok) s = .next (s.consume.ends pgPEERCTL h peFenceFail)) ∧
    (2 ≤ s.plat.chip.heads → s.peerState = psLost → f = false → s.arbiterReach = true → a = 1 →
      exec (.peerctlTakeover h f a ok) s = .next ((s.consume.fence 1).ends pgPEERCTL h peLostRace)) ∧
    (2 ≤ s.plat.chip.heads → s.peerState = psLost → (f = true ∨ (s.arbiterReach = true ∧ a = 0)) → ok = false →
      exec (.peerctlTakeover h f a ok) s = .next ((s.consume.arbiterTaken f).ends pgPEERCTL h peFenceFail))) ∧
  (∀ (s t : State) (h : CmdHdr) (f : Bool) (a : Nat), Ready s h pgPEERCTL pgPEERCTL .work → 2 ≤ s.plat.chip.heads → s.peerState = psLost →
    (f = true ∨ (s.arbiterReach = true ∧ a = 0)) → t = s.peer.ring.foldl (fun u e => u.applyUnit e.2)
      (({ (s.consume.arbiterTaken f).preempted (s.peerGroups.flatMap s.groupMembers) with peer.changing := s.peerGroups } : State).setAna) →
    exec (.peerctlTakeover h f a true) s = .next ((((((({ t with peer.changing := [], peer.runsPeer := [], peer.ring := [], back.ckptAsked := true, back.ckptCount := 0 } : State).setPeerState psTaken).adopt s.peerGroups).setMirror msAbsent 4).slipAdopted s.peerGroups).event pgPEERCTL 4 (le 1 (maskOf s.peerGroups))).ends
        pgPEERCTL h stOk)) ∧
  (∀ (s : State) (h : CmdHdr), Ready s h pgPEERCTL pgPEERCTL .work → 2 ≤ s.plat.chip.heads → s.peerState = psLost → s.peerGroups = [] → s.peer.ring = [] →
    s.mirror = msAbsent → s.nvf.ns = [] → s.slip.reps = [] → s.back.segs = [] →
    ∃ t : State, exec (.peerctlTakeover h true 0 true) s = .next (t.ends pgPEERCTL h stOk) ∧ t.peerState = psTaken ∧ t.peer.runsPeer = [] ∧ t.back.ckptAsked = true) ∧
  (∀ (s : State) (h : CmdHdr) (g hv : Nat), Ready s h pgPEERCTL pgPEERCTL .work →
    ((s.plat.chip.heads < 2 ∨ 4 ≤ g ∨ s.owns g = false ∨ s.peer.handover ≠ none) → exec (.peerctlHandover h g hv) s = .next (s.consume.ends pgPEERCTL h peState)) ∧
    (2 ≤ s.plat.chip.heads → g < 4 → s.owns g = true → s.peer.handover = none → s.mirrorBoth = false →
      exec (.peerctlHandover h g hv) s = .next (s.consume.ends pgPEERCTL h peMirror)) ∧
    (2 ≤ s.plat.chip.heads → g < 4 → s.owns g = true → s.peer.handover = none → s.mirrorBoth = true →
      exec (.peerctlHandover h g hv) s = .next ((({ s.consume with peer.handover := some (h.cseq, g, hv), peer.handoverStep := 0, peer.changing := s.peer.changing ++ [g] } : State).setAna.handoverPump).keeps pgPEERCTL 0x0104 h [g]))) ∧
  (∀ (s : State) (q g hv : Nat), s.peer.handover = some (q, g, hv) →
    (s.peer.handoverStep < 2 → exec .handoverHoldTimeout s =
      .next ((({ s with peer.handover := none, peer.changing := s.peer.changing.filter (· ≠ g) } : State).setAna).finishRunning q 0 peTimeout)) ∧
    (2 ≤ s.peer.handoverStep → exec .handoverHoldTimeout s = .next s)) ∧
  (∀ (s : State), s.peer.handover = none → exec .handoverHoldTimeout s = .next s) ∧
  (∀ (s : State) (h : CmdHdr) (ten g : Nat), Ready s h pgPEERCTL pgPEERCTL .work →
    (ten < 16384 → (g < 4 ∨ g = 0xFF) → (s.lmap.vols.any fun v => v.2.kind ≠ 0 && v.2.tenant = ten) = false →
      ∃ t : State, exec (.peerctlHome h ten g) s = .next (t.ends pgPEERCTL h stOk) ∧ t.homeOf ten = g ∧ (∀ u, u ≠ ten → t.homeOf u = s.homeOf u) ∧
        t.lmap.commitSeq = s.lmap.commitSeq + 1) ∧
    (ten < 16384 → (g < 4 ∨ g = 0xFF) → (s.lmap.vols.any fun v => v.2.kind ≠ 0 && v.2.tenant = ten) = true →
      exec (.peerctlHome h ten g) s = .next (s.consume.ends pgPEERCTL h peBusy)) ∧
    ((16384 ≤ ten ∨ (4 ≤ g ∧ g ≠ 0xFF)) → exec (.peerctlHome h ten g) s = .next (s.consume.ends pgPEERCTL h peBadArg))) ∧
  (∀ (s : State), (s.peerState = psPaired → exec .peerHeartbeatTimeout s = .next ((s.bump fPEERCTL_HB_MISSED).peerLostNow 1)) ∧
    (s.peerState ≠ psPaired → exec .peerHeartbeatTimeout s = .next s))

/-- Messages and copies of the peer (R345-R359, R365, log entries 32, 100). A message out of turn is dropped, and one whose slot cannot
be read is dropped and reported. HEARTBEAT brings the peer's marks and makes a pair; CANCEL, RUN_REQ, RUN_GRANT, RESYNC_DONE, HANDOVER and
HANDOVER_ACK do what they say. A commit unit in order is kept and one out of order is a gap; an index batch in order is appended; and the mirror write
of a live command without acknowledgement breaks the mirror. Completes: cancel, runReq, runGrant, resyncDone, handover, handoverAck, heartbeat,
heartbeatInterval, mirrorRingReceive, inboxBatchReceive, mirrorAckTimeout. Where the spec leaves a point open it follows the model's choice in log
entries 27, 48, 129. -/
def Obligations.PeerMessages : Prop :=
  (∀ (s : State) (q b n mc ic cs ck mi gr ar mo g hv loc : Nat) (rs : List Nat) (x : Instr), x ∈ [.cancel q b n, .runReq q n, .runGrant q rs, .resyncDone q n,
      .handover q g hv loc n, .handoverAck q g, .heartbeat q mc ic cs ck mi gr ar mo] →
    (OutOfTurn s q → exec x s = .next s) ∧ (BadSlot s q → exec x s = .next (s.lostMsg q))) ∧
  (∀ (s : State) (q b n : Nat), InOrder s q → exec (.cancel q b n) s = .next { (s.tookMsg q) with peer.cancelled := s.peer.cancelled ++ [(b, n)] }) ∧
  (∀ (s : State) (q n : Nat), InOrder s q →
    ((n = 0 ∨ (s.tookMsg q).runsFree ≤ 2) → exec (.runReq q n) s = .next (s.tookMsg q)) ∧
    (∀ (k : Nat) (gs : List Nat), k = min (min n 8) ((s.tookMsg q).runsFree - 2) → 0 < k → gs = (s.tookMsg q).freeRuns.take k →
      exec (.runReq q n) s = .next { ((s.tookMsg q).sendMsg 4 (le 1 gs.length ++ zeros 3 ++ gs.flatMap (le 4))).1 with peer.runsPeer := s.peer.runsPeer ++ gs })) ∧
  (∀ (s : State) (q : Nat) (rs : List Nat), InOrder s q →
    exec (.runGrant q rs) s = .next { (s.tookMsg q) with peer.runsPeer := s.peer.runsPeer.filter (fun r => !rs.contains r), peer.runReq := false }) ∧
  (∀ (s : State) (q n : Nat), InOrder s q →
    exec (.resyncDone q n) s = .next { (s.tookMsg q) with peer.inboundHealthy := true, peer.ringGap := false, peer.ringNext := max s.peer.ringNext (n + 1) }) ∧
  (∀ (s : State) (q g hv loc n : Nat), InOrder s q →
    (4 ≤ g → exec (.handover q g hv loc n) s = .next (s.tookMsg q)) ∧
    (∀ t : State, g < 4 → t = ({ (s.tookMsg q) with peer.ring := s.peer.ring.filter (fun e => decide (n < e.1)) } : State).adopt [g] →
      exec (.handover q g hv loc n) s = .next ((((t.groupMembers g).foldl (fun u m => u.sendOp m { opcode := opReserve, addr := 0 } []) t).sendMsg 7 (le 1 g)).1.event
        pgPEERCTL 5 (le 1 g ++ le 1 s.plat.chip.headId)))) ∧
  (∀ (s : State) (q g : Nat), InOrder s q →
    (s.peer.handover = none → exec (.handoverAck q g) s = .next (s.tookMsg q)) ∧
    (∀ (c x hv : Nat), s.peer.handover = some (c, x, hv) → (x ≠ g ∨ s.peer.handoverStep ≠ 2) → exec (.handoverAck q g) s = .next (s.tookMsg q))) ∧
  (∀ (s t : State) (q c g hv : Nat), InOrder s q → s.peer.handover = some (c, g, hv) → s.peer.handoverStep = 2 →
    t = ({ (s.tookMsg q) with peer.handover := none, peer.changing := s.peer.changing.filter (· ≠ g) } : State).setOwner g s.otherHead →
    exec (.handoverAck q g) s = .next (((t.nvf.cmds.foldl (fun u e =>
      if (e.2.phase = .waiting ∨ e.2.phase = .held) ∧ !e.2.connect ∧ u.homeGroup e.2.tenant = g ∧ !e.2.admin then u.endCmd e.1 scAnaTrans else u) t).event pgPEERCTL 5
        (le 1 g ++ le 1 s.otherHead)).finishRunning c 0 stOk)) ∧
  (∀ (s : State) (q mc ic cs ck mi gr ar mo : Nat), InOrder s q →
    (s.peerState ≠ psPairing → s.peerState ≠ psLost → exec (.heartbeat q mc ic cs ck mi gr ar mo) s = .next ((s.tookMsg q).heard mc ic ck mi gr ar)) ∧
    (s.peerState = psLost → exec (.heartbeat q mc ic cs ck mi gr ar mo) s = .next ((s.tookMsg q).heard mc ic ck mi gr ar).peerPaired.recomputeArbiter) ∧
    (s.peerState = psPairing → ar = (s.tookMsg q).arbiterCandidate → mo = b2n s.plat.chip.shelf →
      exec (.heartbeat q mc ic cs ck mi gr ar mo) s =
        .next ((((s.tookMsg q).heard mc ic ck mi gr ar).peerPaired.event pgPEERCTL 1 (le 1 s.otherHead)).pairEnds stOk)) ∧
    (s.peerState = psPairing → (ar ≠ (s.tookMsg q).arbiterCandidate ∨ mo ≠ b2n s.plat.chip.shelf) →
      exec (.heartbeat q mc ic cs ck mi gr ar mo) s = .next (((s.tookMsg q).setPeerState psUnpaired).pairEnds peBadArg))) ∧
  (∀ (s : State),
    (s.working pgPEERCTL = true → (s.peerState = psPairing ∨ s.peerState = psPaired ∨ s.peerState = psLost) →
      exec .heartbeatInterval s = .next (s.pollMirror.sendHeartbeat.sendBatch)) ∧
    ((s.working pgPEERCTL = false ∨ (s.peerState ≠ psPairing ∧ s.peerState ≠ psPaired ∧ s.peerState ≠ psLost)) → exec .heartbeatInterval s = .next s)) ∧
  (∀ (s : State) (c : Nat) (bs : List Byte),
    ((s.peerState = psUnpaired ∨ s.working pgPEERCTL = false) → exec (.mirrorRingReceive c bs) s = .next s) ∧
    (∀ t : State, s.peerState ≠ psUnpaired → s.working pgPEERCTL = true → (s.peer.inboundHealthy = false ∨ c = s.peer.ringNext) →
      t = (splitRecords (bs.length / 32 + 1) bs).foldl (fun t r => t.applyDir r) s →
      exec (.mirrorRingReceive c bs) s = .next (({ t with peer.ring := t.peer.ring.ins c bs, peer.ringNext := max t.peer.ringNext (c + 1) } : State).setReg64
        rPEERCTL_PEER_COMMIT_SEQ c)) ∧
    (s.peerState ≠ psUnpaired → s.working pgPEERCTL = true → s.peer.inboundHealthy = true → c ≠ s.peer.ringNext →
      exec (.mirrorRingReceive c bs) s = .next ((({ s with peer.ringGap := true } : State).capture pgPEERCTL 0x02 c (c / 2 ^ 32)).irqBit pgPEERCTL 3))) ∧
  (∀ (s : State) (bs : List Byte), s.peerState ≠ psUnpaired → s.working pgPEERCTL = true → bs.length < 32 →
    exec (.mirrorRingReceive s.peer.ringNext bs) s =
      .next (({ s with peer.ring := s.peer.ring.ins s.peer.ringNext bs, peer.ringNext := s.peer.ringNext + 1 } : State).setReg64 rPEERCTL_PEER_COMMIT_SEQ
        s.peer.ringNext)) ∧
  (∀ (s : State) (q : Nat) (bs : List Byte),
    ((s.peerState = psUnpaired ∨ q ≠ s.peer.batchRecv + 1 ∨ s.working pgPEERCTL = false) → exec (.inboxBatchReceive q bs) s = .next s) ∧
    (s.peerState ≠ psUnpaired → q = s.peer.batchRecv + 1 → s.working pgPEERCTL = true →
      (s.hbmErr (s.peerRegion 4 + 16384 * (q % 16)) bs.length = true → exec (.inboxBatchReceive q bs) s = .next (((({ s with peer.batchRecv := q } : State).noteErr
        (s.peerRegion 4 + 16384 * (q % 16)) bs.length).capture pgPEERCTL 0x03 q (q / 2 ^ 32)).irqBit pgPEERCTL 3)) ∧
      (s.hbmErr (s.peerRegion 4 + 16384 * (q % 16)) bs.length = false → exec (.inboxBatchReceive q bs) s = .next
        ((batchRecs 256 bs).foldl (fun t r => if t.ownsHalf (fpB r.fp) then t.ilogAppend r else t) { s with peer.batchRecv := q })))) ∧
  (∀ (s : State) (r : Nat),
    (s.peer.writes.find? (fun w => w.1 = r) = none → exec (.mirrorAckTimeout r) s = .next s) ∧
    (∀ (w : Nat × Nat), s.peer.writes.find? (fun w => w.1 = r) = some w →
      (s.nvf.cmds.find w.2 = none → exec (.mirrorAckTimeout r) s = .next (s.breakMirror 1)) ∧
      (∀ (c : NvCmd), s.nvf.cmds.find w.2 = some c → (c.wantP = true → c.resP = none → exec (.mirrorAckTimeout r) s = .next ((s.setNvCmd w.2 { c with resP := some false }).breakMirror 1)) ∧
        ((c.wantP = false ∨ c.resP ≠ none) → exec (.mirrorAckTimeout r) s = .next (s.breakMirror 1)))))

/-! ### Limits and tallies: QOS and TALLY (R383-R396) -/

/-- Limits, histograms and minutes (R386, R390, R394-R396, log entry 101): QOS_SET refills the buckets to now, stores the limits and caps the
levels, fills a bucket that was unlimited, and touches no other tenant; a rate without a burst and a tenant above 16,383 are refused. QOS_HIST_SNAP
copies the five blocks and zeroes them, and is refused for a bad argument or blocks that cannot be read. A minute that has ended while TALLY runs
closes: the counts start again and the next minute opens; otherwise MINUTE_CLOSE changes nothing. Completes: qosSet, qosHistSnap, minuteClose. Where
the spec leaves a point open it follows the model's choice in log entry 33. -/
def Obligations.LimitsAndTallies : Prop :=
  (∀ (s : State) (h : CmdHdr) (ten fl ir ib br bb : Nat), Ready s h pgQOS pgQOS .work →
    (ten < 16384 → (ir = 0 ∨ ib ≠ 0) → (br = 0 ∨ bb ≠ 0) →
      ∃ t : State, exec (.qosSet h ten fl ir ib br bb) s = .next (t.ends pgQOS h stOk) ∧ (∀ u, u ≠ ten → t.lim u = s.lim u) ∧
        (t.lim ten).iopsRate = ir ∧ (t.lim ten).iopsBurst = ib ∧ (t.lim ten).bwRate = br ∧ (t.lim ten).bwBurst = bb ∧ (t.lim ten).meterNext = fl.testBit 0 ∧
        (t.lim ten).meter = (s.lim ten).meter ∧ (t.lim ten).refill = s.now ∧
        (t.lim ten).ops = (if (s.lim ten).iopsRate = 0 then ((ib * 2 ^ 32 : Nat) : Int) else min ((s.lim ten).refilled s.now).ops ((ib * 2 ^ 32 : Nat) : Int)) ∧
        (t.lim ten).bw = (if (s.lim ten).bwRate = 0 then ((bb * 1024 * 2 ^ 16 : Nat) : Int) else min ((s.lim ten).refilled s.now).bw ((bb * 1024 * 2 ^ 16 : Nat) : Int))) ∧
    ((16384 ≤ ten ∨ (ir ≠ 0 ∧ ib = 0) ∨ (br ≠ 0 ∧ bb = 0)) → exec (.qosSet h ten fl ir ib br bb) s = .next (s.consume.ends pgQOS h 1))) ∧
  (∀ (s : State) (h : CmdHdr) (ten dst : Nat), Ready s h pgQOS pgQOS .work →
    (ten < 16384 → dst % 4096 = 0 → dst + 20480 ≤ hbmEnd → s.hbmErr (s.histAddr ten 0) 20480 = false →
      exec (.qosHistSnap h ten dst) s = .next (((s.consume.hbmWrite dst (s.consume.hbmRead (s.histAddr ten 0) 20480)).hbmWrite (s.histAddr ten 0) (zeros 20480)).ends
        pgQOS h stOk)) ∧
    (ten < 16384 → dst % 4096 = 0 → dst + 20480 ≤ hbmEnd → s.hbmErr (s.histAddr ten 0) 20480 = true →
      exec (.qosHistSnap h ten dst) s = .next ((s.consume.noteErr (s.histAddr ten 0) 20480).ends pgQOS h 2)) ∧
    ((16384 ≤ ten ∨ dst % 4096 ≠ 0 ∨ hbmEnd < dst + 20480) → exec (.qosHistSnap h ten dst) s = .next (s.consume.ends pgQOS h 1))) ∧
  (∀ (s : State),
    (s.runs pgTALLY = true → s.ten.minute < s.nowMinute → exec .minuteClose s = .next (s.closeMinute 1 0)) ∧
    ((s.runs pgTALLY = false ∨ s.nowMinute ≤ s.ten.minute) → exec .minuteClose s = .next s)) ∧
  (∀ (s : State), s.runs pgTALLY = true → s.ten.minute < s.nowMinute → s.ten.limits = [] →
    ∃ t : State, exec .minuteClose s = .next t ∧ t.ten.counts = [] ∧ t.ten.minute = s.ten.minute + 1 ∧ t.ten.limits = [] ∧ t.lmap = s.lmap ∧ t.plat.time = s.plat.time)

/-- The counter of a histogram sample (R393): counter 0 below 1,024 ns, 833 from 2^36 ns on, and between them 1 + 32 x (e - 10) + (the five bits below the
leading 1 of v), where e is the position of that leading 1; so the counters do not fall as the samples grow, and there are 834. -/
def Obligations.HistogramCounter : Prop :=
  (∀ v : Nat, v < 1024 → histIdx v = 0) ∧ (∀ v : Nat, 2 ^ 36 ≤ v → histIdx v = 833) ∧
  (∀ v e : Nat, 10 ≤ e → e < 36 → 2 ^ e ≤ v → v < 2 ^ (e + 1) → histIdx v = 1 + 32 * (e - 10) + (v - 2 ^ e) / 2 ^ (e - 5)) ∧
  (∀ v w : Nat, v ≤ w → histIdx v ≤ histIdx w) ∧ (∀ v : Nat, histIdx v < 834)

/-! ### In-package memory and the system cache: HBM and SYSC (R366-R382) -/

/-- Stacks and scrubbing (R368-R372). SELF_REFRESH of an Active stack starts entry, which completes when nothing of the stack is outstanding; SELF_REFRESH
= 0 during entry makes it leave at once after, and in self-refresh it starts the island's clock where the reference runs; exit takes what waited. A
scrub counts and writes back each correctable sector of its stack, and reports each uncorrectable one. A page that is off counts the access, a block
in Fault or Off ignores it, and each event out of its state changes nothing. SYSC's commands (R377-R379, R381): each waits its turn behind the
commands of SYSC before it, and a bad argument ends it with BAD_ARGUMENT; a SYSC_ZERO or SYSC_LOCKED_FILL of length 0 with none before it succeeds at
once. SYSC_INVAL drops a Valid line of its range, SYSC_ZERO makes its range read 0 at once, and SYSC_LOCKED_FILL puts its line Valid into the locked
way. Completes: hbmSelfRefreshEnter, hbmSelfRefreshExit, hbmSrEntered, hbmSrExited, hbmScrub, syscInval, syscZero, syscLockedFill. -/
def Obligations.Stacks : Prop :=
  (∀ (s : State) (k : Nat),
    (3 ≤ k → exec (.hbmSelfRefreshEnter k) s = .next s ∧ exec (.hbmSelfRefreshExit k) s = .next s) ∧
    (k < 3 → s.pageOn (pgHBM k) = false → exec (.hbmSelfRefreshEnter k) s = .next (s.bump fCHIP_OFF_ACCESS) ∧
      exec (.hbmSelfRefreshExit k) s = .next (s.bump fCHIP_OFF_ACCESS)) ∧
    (k < 3 → s.pageOn (pgHBM k) = true → (s.blk (pgHBM k) = .fault ∨ s.blk (pgHBM k) = .off) →
      exec (.hbmSelfRefreshEnter k) s = .next s ∧ exec (.hbmSelfRefreshExit k) s = .next s)) ∧
  (∀ (s : State) (k : Nat), k < 3 → Reaches s (pgHBM k) →
    ((s.stack k).sr = .active → exec (.hbmSelfRefreshEnter k) s =
      .next ((s.setFld (fHBM_CTRL_SELF_REFRESH k) 1).setStack k { s.stack k with sr := .entering, exitNext := false })) ∧
    ((s.stack k).sr ≠ .active → exec (.hbmSelfRefreshEnter k) s = .next (s.setFld (fHBM_CTRL_SELF_REFRESH k) 1)) ∧
    ((s.stack k).sr = .entering → exec (.hbmSelfRefreshExit k) s = .next ((s.setFld (fHBM_CTRL_SELF_REFRESH k) 0).setStack k { s.stack k with exitNext := true })) ∧
    ((s.stack k).sr = .selfRefresh → ∃ t : State, exec (.hbmSelfRefreshExit k) s = .next t ∧ t.stack k = { s.stack k with sr := .exiting } ∧
      (t.plat.islands.get {} (17 + k)).clkRun = (s.plat.islands.get {} (17 + k)).refOn ∧ t.mem.cells = s.mem.cells) ∧
    (((s.stack k).sr = .active ∨ (s.stack k).sr = .exiting) → exec (.hbmSelfRefreshExit k) s = .next (s.setFld (fHBM_CTRL_SELF_REFRESH k) 0))) ∧
  (∀ (s : State) (k : Nat),
    ((s.stack k).sr = .entering → s.stackQuiet k = true → (s.stack k).exitNext = false →
      exec (.hbmSrEntered k) s = .next (s.setStack k { s.stack k with sr := .selfRefresh })) ∧
    ((s.stack k).sr = .entering → s.stackQuiet k = true → (s.stack k).exitNext = true →
      exec (.hbmSrEntered k) s = .next (s.setStack k { s.stack k with sr := .exiting, exitNext := false })) ∧
    (((s.stack k).sr ≠ .entering ∨ s.stackQuiet k = false) → exec (.hbmSrEntered k) s = .next s)) ∧
  (∀ (s : State) (k : Nat),
    ((s.stack k).sr = .exiting → exec (.hbmSrExited k) s = .next ((s.setStack k { s.stack k with sr := .active }).retryHeld.syscRun)) ∧
    ((s.stack k).sr = .exiting → s.mem.held = [] → s.mem.jobs = [] → exec (.hbmSrExited k) s = .next (s.setStack k { s.stack k with sr := .active })) ∧
    ((s.stack k).sr ≠ .exiting → exec (.hbmSrExited k) s = .next s)) ∧
  (∀ (s t u : State) (k : Nat), k < 3 → s.fld (fHBM_SCRUB_CFG_PERIOD_H k) ≠ 0 → (s.stack k).sr = .active → s.plat.pwr.cold = false →
    t = (s.mem.soft.filter (fun x => stackOf (64 * x) = k)).foldl (fun t x => t.hbmCorr (64 * x)) s →
    u = (s.mem.bad.filter (fun x => stackOf (64 * x) = k)).foldl (fun t x => t.hbmUncorr (64 * x)) t →
    exec (.hbmScrub k) s = .next { u with mem.soft := u.mem.soft.filter (fun x => stackOf (64 * x) ≠ k) }) ∧
  (∀ (s : State) (k x : Nat), k < 3 → s.fld (fHBM_SCRUB_CFG_PERIOD_H k) ≠ 0 → (s.stack k).sr = .active → s.plat.pwr.cold = false → s.mem.soft = [x] →
    stackOf (64 * x) = k → s.mem.bad = [] → exec (.hbmScrub k) s = .next { s.hbmCorr (64 * x) with mem.soft := [] }) ∧
  (∀ (s : State) (k : Nat), (3 ≤ k ∨ s.fld (fHBM_SCRUB_CFG_PERIOD_H k) = 0 ∨ (s.stack k).sr ≠ .active ∨ s.plat.pwr.cold = true) → exec (.hbmScrub k) s = .next s) ∧
  (∀ (s : State) (h : CmdHdr) (a n r : Nat), Ready s h pgSYSC pgSYSC .work →
    ((syscBad a n = true ∨ r % 16 ≠ 0 ∨ hbmEnd < r + 16) → exec (.syscInval h a n r) s = .next (s.consume.ends pgSYSC h 1).syscRun) ∧
    (syscBad a n = false → r % 16 = 0 → r + 16 ≤ hbmEnd → exec (.syscInval h a n r) s =
      .next (({ s.consume with mem.jobs := s.mem.jobs ++ [{ cseq := h.cseq, opcode := 0x0100, addr := a, length := n, result := r }] } : State).keeps pgSYSC 0x0100 h []).syscRun)) ∧
  (∀ (s : State) (h : CmdHdr) (a n r k : Nat) (l : Line), Ready s h pgSYSC pgSYSC .work → syscBad a n = false → r % 16 = 0 → r + 16 ≤ hbmEnd → s.mem.jobs = [] →
    (∀ j, (s.stack j).sr = .active) → s.mem.lines = [(k, l)] → l.phase = .valid → a ≤ lineAddr k l.tag → lineAddr k l.tag < a + n →
    ∃ t : State, exec (.syscInval h a n r) s = .next t ∧ t.mem.lines = [] ∧ t.mem.jobs = [] ∧ t.lmap = s.lmap) ∧
  (∀ (s : State) (h : CmdHdr) (a n : Nat), Ready s h pgSYSC pgSYSC .work →
    (syscBad a n = true → exec (.syscZero h a n) s = .next (s.consume.ends pgSYSC h 1).syscRun) ∧
    (syscBad a n = false → n = 0 → s.mem.jobs = [] → exec (.syscZero h a n) s = .next (s.consume.ends pgSYSC h stOk)) ∧
    (syscBad a n = false → (n ≠ 0 ∨ s.mem.jobs ≠ []) → exec (.syscZero h a n) s =
      .next (({ s.consume with mem.jobs := s.mem.jobs ++ [{ cseq := h.cseq, opcode := 0x0101, addr := a, length := n }] } : State).keeps pgSYSC 0x0101 h []).syscRun)) ∧
  (∀ (s : State) (h : CmdHdr) (a : Nat), Ready s h pgSYSC pgSYSC .work → syscBad a 256 = false → s.mem.jobs = [] → s.mem.lines = [] → s.mem.mb = [] →
    (∀ j, (s.stack j).sr = .active) →
    ∃ t : State, exec (.syscZero h a 256) s = .next t ∧ t.mem.cells = s.mem.cells ∧ (∀ i, i < 256 → t.hbmByte (a + i) = 0) ∧
      t.plat.evt.running.find h.cseq = some ⟨pgSYSC, 0x0101, h.notify, h.cookie, []⟩) ∧
  (∀ (s : State) (h : CmdHdr) (w a n : Nat), Ready s h pgSYSC pgSYSC .work →
    ((syscBad a n = true ∨ 6 * 2 ^ 20 < n ∨ 16 ≤ w ∨ s.locked w = false ∨ s.way w ≠ .powered) → exec (.syscLockedFill h w a n) s = .next (s.consume.ends pgSYSC h 1).syscRun) ∧
    (syscBad a n = false → n ≤ 6 * 2 ^ 20 → w < 16 → s.locked w = true → s.way w = .powered →
      (n = 0 → s.mem.jobs = [] → exec (.syscLockedFill h w a n) s = .next (s.consume.ends pgSYSC h stOk)) ∧
      ((n ≠ 0 ∨ s.mem.jobs ≠ []) → exec (.syscLockedFill h w a n) s =
        .next (({ s.consume with mem.jobs := s.mem.jobs ++ [{ cseq := h.cseq, opcode := 0x0102, way := w, addr := a, length := n }] } : State).keeps pgSYSC 0x0102 h []).syscRun))) ∧
  (∀ (s : State) (h : CmdHdr) (w a : Nat), Ready s h pgSYSC pgSYSC .work → syscBad a 256 = false → w < 16 → s.locked w = true → s.way w = .powered → s.mem.jobs = [] →
    (∀ j, (s.stack j).sr = .active) → s.mem.bad = [] →
    ∃ t : State, exec (.syscLockedFill h w a 256) s = .next t ∧ (t.line (lineKey w a)).phase = .valid ∧ (t.line (lineKey w a)).tag = tagOf a ∧
      (t.line (lineKey w a)).valid = 15 ∧ t.mem.jobs = [])

/-- The system cache (R372-R376, R380, R40, log entries 114, 54). A read or write goes line by line or sector by sector, and in Cold does
nothing. A read that hits returns the line's bytes with what the merging buffer holds over them, one whose check fails or whose sectors are missing
fetches them, a miss waits for a departing copy, takes a way or goes through, and a stack asleep refuses it. A write goes into the merging buffer and
is read back from there, or waits. Outside HBM a core reaches the rest of the map. A fill makes its line Valid, or Invalid where SYSC_INVAL met it. A
drain moves the oldest entry to HBM; one whose check fails loses its bytes, and a partial one onto an uncorrectable sector is dropped. Ways drain, go
Off, power up and are Powered; an event out of its state changes nothing. Completes: syscRead, syscWrite, syscFillDone, mbDrain, syscWayDisable,
syscWayEnable, syscWayOff, syscWayPowered. Where the spec leaves a point open it follows the model's choice in log entries 3, 79, 117. -/
def Obligations.SystemCache : Prop :=
  (∀ (s : State) (a len ecc : Nat) (bs : List Byte) (core : Bool),
    (s.plat.pwr.cold = true → exec (.syscRead a len core ecc) s = .next s ∧ exec (.syscWrite a bs core) s = .next s) ∧
    (s.plat.pwr.cold = false → (core = false ∨ a < hbmEnd) → exec (.syscRead a len core ecc) s = .next (State.readFuel (len / 256 + 2) s a len core ecc) ∧
      exec (.syscWrite a bs core) s = .next (State.writeAll (bs.length / 64 + 2) s a bs core))) ∧
  (∀ (s : State) (a len ecc : Nat), s.plat.pwr.cold = false → 0 < len → len ≤ 256 - a % 256 → hbmEnd ≤ a →
    exec (.syscRead a len false ecc) s = .next (s.emit (.hbmError a false))) ∧
  (∀ (s : State) (a len ecc : Nat) (core : Bool), s.plat.pwr.cold = false → 0 < len → len ≤ 256 - a % 256 → a < hbmEnd →
    ((s.stack (stackOf a)).sr = .exiting → exec (.syscRead a len core ecc) s = .next { s with mem.held := s.mem.held ++ [⟨a, len, none, core⟩] }) ∧
    (∀ (w : Nat), (s.stack (stackOf a)).sr ≠ .exiting → s.tagWay a = some w → (s.line (lineKey w a)).valid &&& sectorsOf a len = sectorsOf a len → ecc ≠ 2 →
      exec (.syscRead a len core ecc) s = .next (((if ecc = 1 then ((s.bump fSYSC_HIT).bump fSYSC_ECC_CORR).sramCorr 0 1 else s.bump fSYSC_HIT).touch a w).emit
        (.bytes ((List.range len).map fun i => (mbByte s.mem.mb (a + i)).getD ((s.line (lineKey w a)).data.get 0 ((a + i) % 256)))))) ∧
    (∀ (w : Nat), (s.stack (stackOf a)).sr = .active → s.tagWay a = some w → (s.line (lineKey w a)).valid &&& sectorsOf a len = sectorsOf a len → ecc = 2 →
      exec (.syscRead a len core ecc) s = .next ((((s.bump fSYSC_ECC_REFETCH).sramUncorr 0 (32 * lineKey w a + 8 * sectorOf a)).setLine (lineKey w a) { s.line (lineKey w a) with phase := if (s.line (lineKey w a)).phase = .valid then .filling else (s.line (lineKey w a)).phase, valid := andNot (s.line (lineKey w a)).valid (sectorsOf a len), fill := (s.line (lineKey w a)).fill ||| sectorsOf a len, waits := (s.line (lineKey w a)).waits ++ [⟨a, len, core, false⟩] }).touch a w)) ∧
    (∀ (w : Nat), (s.stack (stackOf a)).sr = .active → s.tagWay a = some w → (s.line (lineKey w a)).valid &&& sectorsOf a len ≠ sectorsOf a len →
      exec (.syscRead a len core ecc) s = .next (((if (s.line (lineKey w a)).phase = .valid then s.bump fSYSC_MISS else s).setLine (lineKey w a) { s.line (lineKey w a) with phase := if (s.line (lineKey w a)).phase = .valid then .filling else (s.line (lineKey w a)).phase, valid := andNot (s.line (lineKey w a)).valid 0, fill := (s.line (lineKey w a)).fill ||| (s.fillMask a len &&& (15 - (s.line (lineKey w a)).valid)), waits := (s.line (lineKey w a)).waits ++ [⟨a, len, core, false⟩] }).touch a w)) ∧
    (s.tagWay a = none → s.asleep a = true → exec (.syscRead a len core ecc) s = .next (s.refuseAccess a core)) ∧
    (∀ (w : Nat), s.asleep a = true → s.tagWay a = some w → ((s.line (lineKey w a)).valid &&& sectorsOf a len ≠ sectorsOf a len ∨ ecc = 2) →
      exec (.syscRead a len core ecc) s = .next (s.refuseAccess a core)) ∧
    (∀ (w : Nat), (s.stack (stackOf a)).sr = .active → s.tagWay a = none → s.departingWay a = some w →
      exec (.syscRead a len core ecc) s = .next (((s.bump fSYSC_MISS).bump fSYSC_DEPARTING_WAIT).setLine (lineKey w a) { s.line (lineKey w a) with waits := (s.line (lineKey w a)).waits ++ [⟨a, len, core, true⟩] })) ∧
    ((s.stack (stackOf a)).sr = .active → s.tagWay a = none → s.departingWay a = none →
      exec (.syscRead a len core ecc) s = .next ((s.bump fSYSC_MISS).allocRead a len core none))) ∧
  (∀ (s : State) (a n ecc : Nat) (bs : List Byte), s.plat.pwr.cold = false → hbmEnd ≤ a →
    (coreSpace a = .nothing → exec (.syscRead a n true ecc) s = .next (s.emit .busError) ∧ exec (.syscWrite a bs true) s = .next (s.emit .busError)) ∧
    (∀ (c o : Nat), coreSpace a = .scratch c o →
      (s.scratchOk c o n = true → exec (.syscRead a n true ecc) s = .next (s.emit (.bytes (tabBytes (s.cluster c).scratch o n)))) ∧
      (s.scratchOk c o n = false → exec (.syscRead a n true ecc) s = .next (s.emit .busError)) ∧
      (s.scratchOk c o bs.length = true →
        exec (.syscWrite a bs true) s = .next (s.setCluster c { s.cluster c with scratch := writeCells (s.cluster c).scratch o bs })) ∧
      (s.scratchOk c o bs.length = false → exec (.syscWrite a bs true) s = .next (s.emit .busError))) ∧
    (∀ (o : Nat), coreSpace a = .rom o → exec (.syscWrite a bs true) s = .next s ∧
      (o + n ≤ 65536 → exec (.syscRead a n true ecc) s = .next (s.emit (.bytes ((List.range n).map fun i => Config.bootRom (o + i))))) ∧
      (65536 < o + n → exec (.syscRead a n true ecc) s = .next (s.emit .busError))) ∧
    (∀ (o : Nat), coreSpace a = .window o →
      (winCheck false o n = .ok → exec (.syscRead a n true ecc) s = .next ((s.winRead o n).2.emit (.bytes (le n (s.winRead o n).1)))) ∧
      (winCheck false o n ≠ .ok → exec (.syscRead a n true ecc) s = .next (s.emit .busError)) ∧
      (winCheck true o bs.length = .ok → exec (.syscWrite a bs true) s = .next (s.winWrite true o bs.length (unLe bs))) ∧
      (winCheck true o bs.length ≠ .ok → exec (.syscWrite a bs true) s = .next (s.emit .busError))) ∧
    (∀ (k o : Nat), coreSpace a = .irqFile k o → exec (.syscRead a n true ecc) s = .next (s.emit (.bytes (zeros n))) ∧
      (o = 0 → bs.length = 4 → 1 ≤ unLe bs → unLe bs < 256 →
        exec (.syscWrite a bs true) s = .next { s with plat.imsic := s.plat.imsic.put 0 k (s.plat.imsic.get 0 k ||| 2 ^ unLe bs) }) ∧
      ((o ≠ 0 ∨ bs.length ≠ 4 ∨ unLe bs = 0 ∨ 256 ≤ unLe bs) → exec (.syscWrite a bs true) s = .next s))) ∧
  (∀ (s : State) (a : Nat) (bs : List Byte) (core : Bool), s.plat.pwr.cold = false → bs ≠ [] → bs.length ≤ 64 - a % 64 →
    (hbmEnd ≤ a → exec (.syscWrite a bs false) s = .next (s.emit (.hbmError a false))) ∧
    (a < hbmEnd → s.asleep a = true → exec (.syscWrite a bs core) s = .next (s.refuseAccess a core)) ∧
    (a < hbmEnd → s.asleep a = false → ((s.stack (stackOf a)).sr = .exiting ∨ (s.mem.held.any fun x => x.data.isSome && x.addr / 64 = a / 64) = true) →
      exec (.syscWrite a bs core) s = .next { s with mem.held := s.mem.held ++ [⟨a, bs.length, some bs, core⟩] }) ∧
    (a < hbmEnd → (s.stack (stackOf a)).sr = .active → (s.mem.held.any fun x => x.data.isSome && x.addr / 64 = a / 64) = false →
      s.mem.mb.find? (fun e => e.sector = a / 64) = none → 512 ≤ s.mem.mb.length →
      exec (.syscWrite a bs core) s = .next (({ s with mem.held := s.mem.held ++ [⟨a, bs.length, some bs, core⟩] } : State).bump fSYSC_MB_FULL_WAIT)) ∧
    (a < hbmEnd → (s.stack (stackOf a)).sr = .active → (s.mem.held.any fun x => x.data.isSome && x.addr / 64 = a / 64) = false →
      ((s.mem.mb.find? (fun e => e.sector = a / 64)).isSome = true ∨ s.mem.mb.length < 512) →
      ∃ t : State, exec (.syscWrite a bs core) s = .next t ∧ t.mem.cells = s.mem.cells ∧ t.mem.held = s.mem.held ∧ t.regs = s.regs ∧ t.pages = s.pages ∧
        t.mem.mb.length = s.mem.mb.length + (if (s.mem.mb.find? (fun e => e.sector = a / 64)).isSome then 0 else 1))) ∧
  (∀ (s : State) (a : Nat) (bs : List Byte) (core : Bool), s.plat.pwr.cold = false → a < hbmEnd → (s.stack (stackOf a)).sr = .active → s.mem.held = [] → s.mem.mb = [] →
    bs ≠ [] → bs.length ≤ 64 - a % 64 →
    ∃ t : State, exec (.syscWrite a bs core) s = .next t ∧ t.mem.cells = s.mem.cells ∧ t.mem.mb.length = 1 ∧ t.regs = s.regs ∧ t.pages = s.pages ∧
      (∀ i, i < bs.length → t.hbmByte (a + i) = bs.getD i 0)) ∧
  (∀ (s : State) (w a : Nat),
    (((s.line (lineKey w a)).phase = .filling ∨ (s.line (lineKey w a)).phase = .departing) → exec (.syscFillDone w a) s = .next (s.fillDone w a)) ∧
    (((s.line (lineKey w a)).phase = .valid ∨ (s.line (lineKey w a)).phase = .invalid) → exec (.syscFillDone w a) s = .next s) ∧
    (((s.line (lineKey w a)).phase = .filling ∨ (s.line (lineKey w a)).phase = .departing) → (s.line (lineKey w a)).waits = [] →
      (s.line (lineKey w a)).fill ≤ 15 → s.mem.bad = [] → s.mem.soft = [] → s.mem.jobs = [] →
      ∃ t : State, exec (.syscFillDone w a) s = .next t ∧ t.mem.cells = s.mem.cells ∧ (∀ k, k ≠ lineKey w a → t.line k = s.line k) ∧
        ((s.line (lineKey w a)).inval = true → t.line (lineKey w a) = {}) ∧
        ((s.line (lineKey w a)).inval = false → (t.line (lineKey w a)).phase = .valid ∧ (t.line (lineKey w a)).tag = (s.line (lineKey w a)).tag ∧
          (t.line (lineKey w a)).valid = (s.line (lineKey w a)).valid ||| (s.line (lineKey w a)).fill))) ∧
  (∀ (s : State) (ecc : Bool), s.mem.mb = [] → exec (.mbDrain ecc) s = .next s) ∧
  (∀ (s : State) (e : MbEntry) (es : List MbEntry), s.mem.mb = e :: es →
    (exec (.mbDrain true) s = .next (((({ s with mem.mb := es, mem.bad := insertSeq e.sector s.mem.bad } : State).capture pgSYSC 0x01 (64 * e.sector)
      (64 * e.sector / 2 ^ 32)).irqBit pgSYSC 0).retryHeld.syscRun)) ∧
    (s.mem.bad.contains e.sector = true → e.mask ≠ 2 ^ 64 - 1 →
      exec (.mbDrain false) s = .next ((({ s with mem.mb := es } : State).bump (fHBM_POISON_WRITE (stackOf (64 * e.sector)))).retryHeld.syscRun)) ∧
    ((s.mem.bad.contains e.sector = false ∨ e.mask = 2 ^ 64 - 1) → exec (.mbDrain false) s = .next (({ s with mem.mb := es, mem.cells := (bitList 64 e.mask).foldl (fun t i => Tab.put 0 t (64 * e.sector + i) (e.data.get 0 i)) s.mem.cells, mem.bad := s.mem.bad.filter (· ≠ e.sector), mem.soft := if e.mask = 2 ^ 64 - 1 then s.mem.soft.filter (· ≠ e.sector) else s.mem.soft } : State).retryHeld.syscRun))) ∧
  (∀ (s : State) (e : MbEntry), s.mem.mb = [e] → s.mem.bad = [] → s.mem.held = [] → s.mem.jobs = [] →
    (∃ t : State, exec (.mbDrain false) s = .next t ∧ t.mem.mb = [] ∧ t.regs = s.regs ∧
      (∀ x, t.rawByte x = if x / 64 = e.sector ∧ e.mask.testBit (x % 64) = true then e.data.get 0 (x % 64) else s.rawByte x)) ∧
    (∃ t : State, exec (.mbDrain true) s = .next t ∧ t.mem.mb = [] ∧ t.mem.cells = s.mem.cells ∧ t.mem.bad = [e.sector])) ∧
  (∀ (s : State) (w : Nat),
    (16 ≤ w → exec (.syscWayDisable w) s = .next s ∧ exec (.syscWayEnable w) s = .next s) ∧
    (w < 16 → s.pageOn pgSYSC = false → exec (.syscWayDisable w) s = .next (s.bump fCHIP_OFF_ACCESS) ∧ exec (.syscWayEnable w) s = .next (s.bump fCHIP_OFF_ACCESS)) ∧
    (w < 16 → s.pageOn pgSYSC = true → (s.blk pgSYSC = .fault ∨ s.blk pgSYSC = .off) → exec (.syscWayDisable w) s = .next s ∧ exec (.syscWayEnable w) s = .next s)) ∧
  (∀ (s : State) (w : Nat), w < 16 → Reaches s pgSYSC →
    (s.mem.ways.get .powered w = .powered → s.locked w = false →
      exec (.syscWayDisable w) s = .next ((s.setWay w .draining).setReg rSYSC_WAY_EN (BitVec.ofNat 32 (clearBit (s.reg rSYSC_WAY_EN).toNat w)))) ∧
    (s.mem.ways.get .powered w = .powered → s.locked w = true → exec (.syscWayDisable w) s = .next ((s.capture pgSYSC 0x02 w 0).irqBit pgSYSC 0)) ∧
    (s.mem.ways.get .powered w ≠ .powered → exec (.syscWayDisable w) s = .next s) ∧
    ((s.mem.ways.get .powered w = .off ∨ s.mem.ways.get .powered w = .draining) →
      exec (.syscWayEnable w) s = .next ((s.setWay w .poweringUp).setReg rSYSC_WAY_EN ((s.reg rSYSC_WAY_EN) ||| BitVec.ofNat 32 (2 ^ w)))) ∧
    ((s.mem.ways.get .powered w = .powered ∨ s.mem.ways.get .powered w = .poweringUp) → exec (.syscWayEnable w) s = .next s)) ∧
  (∀ (s : State) (w : Nat),
    (s.mem.ways.get .powered w = .draining → s.wayIdle w = true → exec (.syscWayOff w) s = .next ((s.dropWay w).setWay w .off)) ∧
    ((s.mem.ways.get .powered w ≠ .draining ∨ s.wayIdle w = false) → exec (.syscWayOff w) s = .next s) ∧
    (s.mem.ways.get .powered w = .poweringUp → exec (.syscWayPowered w) s = .next ((s.dropWay w).setWay w .powered)) ∧
    (s.mem.ways.get .powered w ≠ .poweringUp → exec (.syscWayPowered w) s = .next s))

/-- An engine's coherent write (R373): while HBM has power, the stacks are Active and no sector is uncorrectable, HBM holds the bytes written and every
other byte stays, whatever the cache and the merging buffer hold; with both empty a coherent read returns the same. In Cold a write changes nothing.
Where the spec leaves a point open it follows the model's choice in log entry 3. -/
def Obligations.CoherentMemory : Prop :=
  (∀ (s : State) (a x : Nat) (bs : List Byte), s.plat.pwr.cold = false → s.mem.bad = [] → (∀ j, (s.stack j).sr = .active) →
    (s.hbmWrite a bs).rawByte x = if a ≤ x ∧ x < a + bs.length then bs.getD (x - a) 0 else s.rawByte x) ∧
  (∀ (s : State) (a x : Nat) (bs : List Byte), s.plat.pwr.cold = false → s.mem.bad = [] → (∀ j, (s.stack j).sr = .active) → s.mem.lines = [] → s.mem.mb = [] →
    (s.hbmWrite a bs).hbmByte x = if a ≤ x ∧ x < a + bs.length then bs.getD (x - a) 0 else s.hbmByte x) ∧
  (∀ (s : State) (a : Nat) (bs : List Byte), s.plat.pwr.cold = true → s.hbmWrite a bs = s)

/-! ### Power: PWR, CHIP and AON (R397-R410, R441) -/

/-- Power domains (R398-R404, R441, log entry 68). PWR_SET for the state that a domain is in completes, one that PWR refuses ends with its status,
another starts a drain, a wake or the way from Soak to Banked; a wake during a drain cancels it, and during entry is recorded. CHIP_DOMAIN_RESET takes
the domain through Banked and drops what was saved. A drained domain enters, with its blocks Off; a drain whose timer expires ends, or is forced;
entry ends in Soak or Banked, with a recorded wake next; and a woken domain is Firing. Each event out of its state changes nothing. Completes: pwrSet,
chipDomainReset, domainDrained, drainTimerExpiry, domainEntryDone, domainWakeDone. -/
def Obligations.PowerDomains : Prop :=
  (∀ (s : State) (h : CmdHdr) (d g : Nat), Ready s h pgPWR pgPWR .work →
    ((32 < d ∨ 2 < g) → exec (.pwrSet h d g) s = .next (s.consume.ends pgPWR h pwBadArg)) ∧
    (d ≤ 32 → g ≤ 2 → s.plat.pwr.powerFail = true → exec (.pwrSet h d g) s = .next (s.consume.ends pgPWR h pwPowerFail)) ∧
    (d ≤ 32 → g ≤ 2 → s.plat.pwr.powerFail = false → s.restarting = true → exec (.pwrSet h d g) s = .next (s.consume.ends pgPWR h pwRefused))) ∧
  (∀ (s : State) (h : CmdHdr) (d g : Nat), Ready s h pgPWR pgPWR .work → d ≤ 32 → g ≤ 2 → s.plat.pwr.powerFail = false → s.restarting = false → (s.dom d).cmd = none →
    ((((s.dom d).st = .firing ∧ g = 0) ∨ ((s.dom d).st = .soak ∧ g = 1) ∨ ((s.dom d).st = .banked ∧ g = 2)) → exec (.pwrSet h d g) s = .next (s.consume.ends pgPWR h stOk)) ∧
    (¬(((s.dom d).st = .firing ∧ g = 0) ∨ ((s.dom d).st = .soak ∧ g = 1) ∨ ((s.dom d).st = .banked ∧ g = 2)) →
      (s.pwrRefused d g = true → exec (.pwrSet h d g) s = .next (s.consume.ends pgPWR h pwRefused)) ∧
      (g = 0 → exec (.pwrSet h d g) s = .next ((s.consume.wakeStart d ⟨h.cseq, g, false⟩).keeps pgPWR 0x0100 h [d])) ∧
      (s.pwrRefused d g = false → g ≠ 0 → (s.dom d).st = .firing → exec (.pwrSet h d g) s = .next ((s.consume.drainStart d ⟨h.cseq, g, false⟩).keeps pgPWR 0x0100 h [d])) ∧
      (s.pwrRefused d g = false → g ≠ 0 → (s.dom d).st ≠ .firing → exec (.pwrSet h d g) s =
        .next (((s.consume.setDom d { s.dom d with cmd := some ⟨h.cseq, g, false⟩, wake := none }).entryStart d).keeps pgPWR 0x0100 h [d])))) ∧
  (∀ (s : State) (h : CmdHdr) (d g : Nat) (c : DomCmd), Ready s h pgPWR pgPWR .work → d ≤ 32 → g ≤ 2 → s.plat.pwr.powerFail = false → s.restarting = false → (s.dom d).cmd = some c →
    (g = 0 → c.chipReset = false → (s.dom d).st = .draining →
      exec (.pwrSet h d g) s = .next (((s.consume.drainEnd d).finishRunning c.cseq 0 pwCancelled).ends pgPWR h stOk)) ∧
    (g = 0 → c.chipReset = false → (s.dom d).st = .entering → (s.dom d).wake = none →
      exec (.pwrSet h d g) s = .next ((s.consume.setDom d { s.dom d with wake := some h.cseq }).keeps pgPWR 0x0100 h [d])) ∧
    ((g ≠ 0 ∨ c.chipReset = true ∨ ((s.dom d).st ≠ .draining ∧ ((s.dom d).st ≠ .entering ∨ (s.dom d).wake ≠ none))) →
      exec (.pwrSet h d g) s = .next (s.consume.ends pgPWR h pwBusy))) ∧
  (∀ (s : State) (h : CmdHdr) (d : Nat), Ready s h pgCHIP pgCHIP .work →
    (32 < d → exec (.chipDomainReset h d) s = .next (s.consume.ends pgCHIP h 1)) ∧
    (d ≤ 32 → (d ≤ 1 ∨ (s.dom d).cmd.isSome = true ∨ s.restarting = true ∨ s.pwrRefused d 2 = true) → exec (.chipDomainReset h d) s = .next (s.consume.ends pgCHIP h 2)) ∧
    (2 ≤ d → d ≤ 32 → s.restarting = false → (s.dom d).cmd = none → s.pwrRefused d 2 = false →
      ((s.dom d).st = .firing → exec (.chipDomainReset h d) s = .next ((s.consume.drainStart d ⟨h.cseq, 2, true⟩).keeps pgCHIP 0x0100 h [d])) ∧
      ((s.dom d).st = .soak → exec (.chipDomainReset h d) s =
        .next (((s.consume.setDom d { s.dom d with cmd := some ⟨h.cseq, 2, true⟩, wake := none }).entryStart d).keeps pgCHIP 0x0100 h [d])) ∧
      ((s.dom d).st ≠ .firing → (s.dom d).st ≠ .soak → exec (.chipDomainReset h d) s =
        .next (((s.consume.setDom d { s.dom d with saved := [], savedHdr := [], saveValid := false }).wakeStart d ⟨h.cseq, 2, true⟩).keeps pgCHIP 0x0100 h [d])))) ∧
  (∀ (s : State) (d : Nat),
    ((s.dom d).st = .draining → ((pagesOfDom d).all fun p => (s.page p).st.drained) = true → exec (.domainDrained d) s = .next (s.entryStart d)) ∧
    ((s.dom d).st = .draining → ((pagesOfDom d).all fun p => (s.page p).st.drained) = true →
      ∃ t : State, exec (.domainDrained d) s = .next t ∧ (t.dom d).st = .entering ∧ (∀ e, e ≠ d → t.dom e = s.dom e) ∧ (∀ p, p ∈ pagesOfDom d → (t.page p).st = .off)) ∧
    (((s.dom d).st ≠ .draining ∨ ((pagesOfDom d).all fun p => (s.page p).st.drained) = false) → exec (.domainDrained d) s = .next s)) ∧
  (∀ (s : State) (d : Nat),
    ((s.dom d).st ≠ .draining → exec (.drainTimerExpiry d) s = .next s) ∧
    ((s.dom d).st = .draining → (s.fld fPWR_CTRL_DRAIN_MODE ≠ 1 ∨ s.plat.pwr.powerFail = true) → exec (.drainTimerExpiry d) s = .next (s.drainAbort d false)) ∧
    ((s.dom d).st = .draining → s.fld fPWR_CTRL_DRAIN_MODE = 1 → s.plat.pwr.powerFail = false → s.forceOk d = true →
      exec (.drainTimerExpiry d) s = .next (s.forceDown d)) ∧
    ((s.dom d).st = .draining → s.fld fPWR_CTRL_DRAIN_MODE = 1 → s.plat.pwr.powerFail = false → s.forceOk d = false →
      exec (.drainTimerExpiry d) s = .next (s.drainAbort d true))) ∧
  (∀ (s : State) (d : Nat), ((s.dom d).cmd = none ∨ (s.dom d).st ≠ .entering) → exec (.domainEntryDone d) s = .next s) ∧
  (∀ (s t : State) (d : Nat) (c : DomCmd), (s.dom d).st = .entering → (s.dom d).cmd = some c → c.target = 1 →
    t = ((s.setDom d { s.dom d with entries := min 65535 ((s.dom d).entries + 1), cmd := none }).domGoes d .soak).finishRunning c.cseq 0 stOk →
    ((s.dom d).wake = none → exec (.domainEntryDone d) s = .next t) ∧
    (∀ q : Nat, (s.dom d).wake = some q → exec (.domainEntryDone d) s = .next (t.wakeStart d ⟨q, 0, false⟩))) ∧
  (∀ (s t u : State) (d : Nat) (c : DomCmd), (s.dom d).st = .entering → (s.dom d).cmd = some c → c.target ≠ 1 →
    t = (if c.chipReset then s else s.saveDom d).domLoses d →
    u = (t.setDom d { t.dom d with entries := min 65535 ((s.dom d).entries + 1), cmd := none, quiesced := [] }).domGoes d .banked →
    (c.chipReset = true → exec (.domainEntryDone d) s = .next (u.wakeStart d c)) ∧
    (c.chipReset = false → (s.dom d).wake = none → exec (.domainEntryDone d) s = .next (u.finishRunning c.cseq 0 stOk)) ∧
    (∀ q : Nat, c.chipReset = false → (s.dom d).wake = some q → exec (.domainEntryDone d) s = .next ((u.finishRunning c.cseq 0 stOk).wakeStart d ⟨q, 0, false⟩))) ∧
  (∀ (s : State) (d : Nat), ((s.dom d).st = .waking → exec (.domainWakeDone d) s = .next (s.wakeDone d)) ∧
    ((s.dom d).st ≠ .waking → exec (.domainWakeDone d) s = .next s)) ∧
  (∀ (s : State) (q : Nat), (s.dom 31).st = .waking → (s.dom 31).saveValid = false → (s.dom 31).quiesced = [] → (s.dom 31).cmd = some ⟨q, 0, false⟩ →
    exec (.domainWakeDone 31) s = .next (((s.setDom 31 { s.dom 31 with cmd := none, quiesced := [] }).domGoes 31 .firing).finishRunning q 0 stOk))

/-- Cold, the bank gates, a power failure and the software area (R405-R410, R458, log entry 52). PWR_COLD when all is drained posts its event,
completes and removes the rails, and is refused otherwise; an armed wake source brings them up with its cause, and one that is not armed, or outside
Cold, does nothing. BANK_GATE takes each bit but those of a bank that the switch uses; POWER_FAIL latches, stops admission and aborts every drain; and
SW_DATA writes a half of a word that can be read, or the whole word. A page that is off counts the access, and a block in Fault or Off ignores it.
Completes: pwrCold, wakeNAssert, wakeTimeReached, pwrBankGate, aonSwDataWrite, powerFailAssert. Where the spec leaves a point open it follows the
model's choice in log entry 68. -/
def Obligations.ColdAndPowerFail : Prop :=
  (∀ (s : State) (h : CmdHdr), Ready s h pgPWR pgPWR .work →
    (s.plat.pwr.powerFail = true → exec (.pwrCold h) s = .next (s.consume.ends pgPWR h pwPowerFail)) ∧
    (s.plat.pwr.powerFail = false → (s.restarting = true ∨ s.coldAllowed = false) → exec (.pwrCold h) s = .next (s.consume.ends pgPWR h pwRefused)) ∧
    (s.plat.pwr.powerFail = false → s.restarting = false → s.coldAllowed = true → s.plat.pwr.enCore = true →
      exec (.pwrCold h) s = .next ((({ s.consume with plat.pwr.enCore := false } : State).event pgPWR 4 (le 1 (s.reg rPWR_WAKE_EN).toNat)).ends pgPWR h stOk).coldEntry) ∧
    (s.plat.pwr.powerFail = false → s.restarting = false → s.coldAllowed = true → s.plat.pwr.enCore = false →
      exec (.pwrCold h) s = .next ((s.consume.event pgPWR 4 (le 1 (s.reg rPWR_WAKE_EN).toNat)).ends pgPWR h stOk))) ∧
  (∀ s : State, s.coldEntry.plat.pwr.cold = true ∧ s.coldEntry.mem = {}) ∧
  (∀ s : State,
    (s.plat.pwr.cold = true → s.plat.pwr.waking = false → s.plat.pwr.powerFail = false → s.fld fPWR_WAKE_EN_WAKE_N = 1 →
      exec .wakeNAssert s = .next { s with plat.pwr.waking := true, plat.pwr.coldCause := 1, plat.pwr.enCore := true, plat.pwr.enHbm := true }) ∧
    ((s.plat.pwr.cold = false ∨ s.plat.pwr.waking = true ∨ s.plat.pwr.powerFail = true ∨ s.fld fPWR_WAKE_EN_WAKE_N ≠ 1) → exec .wakeNAssert s = .next s)) ∧
  (∀ s : State,
    (s.plat.pwr.cold = true → s.plat.pwr.waking = false → s.plat.pwr.powerFail = false → s.fld fPWR_WAKE_EN_TIMER = 1 → s.reg64 rPWR_WAKE_TIME ≠ 0 →
      s.reg64 rPWR_WAKE_TIME ≤ s.now →
      exec .wakeTimeReached s = .next { s with plat.pwr.waking := true, plat.pwr.coldCause := 3, plat.pwr.enCore := true, plat.pwr.enHbm := true }) ∧
    ((s.plat.pwr.cold = false ∨ s.plat.pwr.waking = true ∨ s.plat.pwr.powerFail = true ∨ s.fld fPWR_WAKE_EN_TIMER ≠ 1 ∨ s.reg64 rPWR_WAKE_TIME = 0 ∨
      s.now < s.reg64 rPWR_WAKE_TIME) → exec .wakeTimeReached s = .next s)) ∧
  (∀ (s : State) (v hf : Nat),
    (s.pageOn pgPWR = false → exec (.pwrBankGate v) s = .next (s.bump fCHIP_OFF_ACCESS)) ∧
    (s.pageOn pgPWR = true → (s.blk pgPWR = .fault ∨ s.blk pgPWR = .off) → exec (.pwrBankGate v) s = .next s) ∧
    (s.pageOn pgAON = false → exec (.aonSwDataWrite hf v) s = .next (s.bump fCHIP_OFF_ACCESS)) ∧
    (s.pageOn pgAON = true → (s.blk pgAON = .fault ∨ s.blk pgAON = .off) → exec (.aonSwDataWrite hf v) s = .next s)) ∧
  (∀ (s t : State) (v : Nat) (no : List Nat), Reaches s pgPWR → no = (bitList 8 v).filter (fun b => !(s.fld fPWR_BANK_GATE).testBit b && s.sw.cfg.bankEn.testBit b) →
    t = s.setFld fPWR_BANK_GATE (maskOf ((bitList 8 v).filter fun b => !no.contains b)) →
    (no = [] → exec (.pwrBankGate v) s = .next t) ∧
    (∀ (b : Nat) (bs : List Nat), no = b :: bs → exec (.pwrBankGate v) s = .next ((t.capture pgPWR 0x03 b 0).irqBit pgPWR 2))) ∧
  (∀ (s : State) (v : Nat), Reaches s pgPWR → s.sw.cfg.bankEn = 0 → ∃ t : State, exec (.pwrBankGate v) s = .next t ∧ t.fld fPWR_BANK_GATE = v % 256 ∧
    (∀ a, a ≠ fPWR_BANK_GATE.a → t.reg a = s.reg a) ∧ t.mem = s.mem ∧ t.pages = s.pages) ∧
  (∀ s : State,
    ((s.plat.chip.porstLow = true ∨ s.plat.pwr.powerFail = true) → exec .powerFailAssert s = .next s) ∧
    (∀ t : State, s.plat.chip.porstLow = false → s.plat.pwr.powerFail = false → t = { s with plat.pwr.powerFail := true, plat.chip.admissionStopped := true } →
      exec .powerFailAssert s = .next (((List.range 33).filter (fun d => (t.dom d).st = .draining)).foldl (fun u d => u.drainAbort d false) t)) ∧
    (s.plat.chip.porstLow = false → s.plat.pwr.powerFail = false → (∀ d, d < 33 → (s.dom d).st ≠ .draining) →
      exec .powerFailAssert s = .next { s with plat.pwr.powerFail := true, plat.chip.admissionStopped := true })) ∧
  (∀ (s : State) (hf v : Nat), Reaches s pgAON →
    (2 ≤ hf → exec (.aonSwDataWrite hf v) s = .next { s with plat.aon.words := s.plat.aon.words.put 0 s.swWord (v % 2 ^ 64), plat.aon.bad := s.plat.aon.bad.filter (fun k => k ≠ s.swWord) }) ∧
    (hf < 2 → s.plat.aon.bad.contains s.swWord = true → exec (.aonSwDataWrite hf v) s = .next s.swUncorr) ∧
    (hf < 2 → s.plat.aon.bad.contains s.swWord = false → exec (.aonSwDataWrite hf v) s = .next { s with plat.aon.words := s.plat.aon.words.put 0 s.swWord (setBits (s.plat.aon.words.get 0 s.swWord) (32 * hf + 31) (32 * hf) v) }))

/-! ### The service port, I3C and UPD (R411-R430) -/

/-- SVC.CTRL.ACCESS limits the service port (R416): 0 allows every operation, 1 only READ, READ64, HBM_READ, UPD_DATA and PING, 2 only UPD_DATA and PING;
HBM_READ and HBM_WRITE also need HBM_EN = 1; what is not allowed answers REFUSED and is counted, and has no other effect; and once STORE.LOCK is set
both fields stay as they are. Where the spec leaves a point open it follows the model's choice in log entry 117. -/
def Obligations.ServiceAccess : Prop :=
  (∀ (s : State) (op : Nat), op ≠ svHBMREAD → op ≠ svHBMWRITE → s.fld fSVC_CTRL_ACCESS = 0 → s.svcAllows op = true) ∧
  (∀ (s : State) (op : Nat), op ≠ svHBMREAD → s.fld fSVC_CTRL_ACCESS = 1 → (s.svcAllows op = true ↔ op ∈ [svREAD, svREAD64, svUPDDATA, svPING])) ∧
  (∀ (s : State) (op : Nat), s.fld fSVC_CTRL_ACCESS = 2 → (s.svcAllows op = true ↔ op ∈ [svUPDDATA, svPING])) ∧
  (∀ (s : State), s.fld fSVC_CTRL_HBM_EN = 0 → s.svcAllows svHBMREAD = false ∧ s.svcAllows svHBMWRITE = false) ∧
  (∀ (s : State), s.fld fSVC_CTRL_HBM_EN = 1 → s.fld fSVC_CTRL_ACCESS < 2 → s.svcAllows svHBMREAD = true) ∧
  (∀ (s : State) (m : SvcMsg), svcGood svWRITE m = true → s.svcKept svWRITE (m.seq % 65536) = none → s.svcAllows svWRITE = false →
    ∃ t : State, exec (.svcWrite m) s = .next t ∧ t.out.head? = some (.bytes (svcResponse svWRITE m svRefused 0 [])) ∧ t.mem = s.mem ∧ t.pages = s.pages ∧
      t.plat = s.plat ∧ (∀ a, a ≠ rSVC_RX_MSG → a ≠ rSVC_TX_MSG → a ≠ rSVC_REFUSED → t.reg a = s.reg a)) ∧
  (∀ (s : State) (v : Nat), Reaches s pgSVC → s.lockedRwl = true →
    ∃ t : State, exec (.registerWrite rSVC_CTRL 4 v) s = .next t ∧ t.fld fSVC_CTRL_ACCESS = s.fld fSVC_CTRL_ACCESS ∧ t.fld fSVC_CTRL_HBM_EN = s.fld fSVC_CTRL_HBM_EN)

/-- The row of a message's operation, with its OP. -/
abbrev SvcRow (m : SvcMsg) (op : Nat) (x : Instr) : Prop :=
  (op, x) ∈ [(svREAD, .svcRead m), (svWRITE, .svcWrite m), (svREAD64, .svcRead64 m), (svWRITE64, .svcWrite64 m), (svHBMREAD, .svcHbmRead m), (svHBMWRITE, .svcHbmWrite m),
    (svUPDDATA, .updData m), (svPING, .ping m)]

/-- Messages of the service port (R411-R415, R420, log entries 83, 84). A message that is not well formed answers BAD_MESSAGE, one that
repeats a SEQ and OP is answered from memory without effect, one that is not allowed answers REFUSED, and every other is executed and answered with
what its operation gives: each operation's effect and answer follow, with the errors of the HBM and update ones. A frame that is no service message
goes to the switch or is dropped. The I3C target (R417, log entries 85, 33): while it is enabled a private write is answered at the next
private read, an address is taken and given up, and the identity commands answer; while it is not, and at a read without an answer, nothing happens.
Completes: svcRead, svcWrite, svcRead64, svcWrite64, svcHbmRead, svcHbmWrite, updData, ping, svcFrameForward, i3cPrivateWrite, i3cPrivateRead,
setdasa, entdaa, rstdaa, getpid, getbcr, getdcr, getstatus. Where the spec leaves a point open it follows the model's choice in log entries 3, 23, 77,
117, 121. -/
def Obligations.ServiceMessages : Prop :=
  (∀ (s : State) (m : SvcMsg) (op : Nat) (x : Instr), SvcRow m op x →
    (svcGood op m = false → exec x s = .next (((s.bump fSVC_RX_MSG).bump fSVC_TX_MSG).emit (.bytes (svcResponse op m svBadMsg 0 [])))) ∧
    (∀ r : List Byte, svcGood op m = true → s.svcKept op (m.seq % 65536) = some r → exec x s = .next ((((s.bump fSVC_RX_MSG).bump fSVC_DUP).bump fSVC_TX_MSG).emit (.bytes r))) ∧
    (svcGood op m = true → s.svcKept op (m.seq % 65536) = none → s.svcAllows op = false →
      exec x s = .next (((s.bump fSVC_RX_MSG).bump fSVC_REFUSED).replies op m svRefused 0 [])) ∧
    (∀ a : SvcAns, Served s op m → a = (s.bump fSVC_RX_MSG).svcOp op m →
      exec x s = .next ((if a.status = svRefused ∨ a.status = svCold then a.st.bump fSVC_REFUSED else a.st).replies op m a.status a.count a.data))) ∧
  (∀ (s : State) (m : SvcMsg), Served s svREAD m → m.count = 1 → (s.bump fSVC_RX_MSG).svcCheck false m.addr 4 = svOk →
    exec (.svcRead m) s = .next (((s.bump fSVC_RX_MSG).winRead m.addr 4).2.answers svREAD m 1 (le 4 ((s.bump fSVC_RX_MSG).winRead m.addr 4).1))) ∧
  (∀ (s : State) (m : SvcMsg), Served s svWRITE m → m.count = 1 → (s.bump fSVC_RX_MSG).svcCheck true m.addr 4 = svOk →
    exec (.svcWrite m) s = .next (((s.bump fSVC_RX_MSG).winWrite false m.addr 4 (unLe (m.data.take 4))).answers svWRITE m 1 [])) ∧
  (∀ (s : State) (m : SvcMsg), Served s svREAD64 m → (s.bump fSVC_RX_MSG).svcCheck false m.addr 8 = svOk →
    exec (.svcRead64 m) s = .next (((s.bump fSVC_RX_MSG).winRead m.addr 8).2.answers svREAD64 m 1 (le 8 ((s.bump fSVC_RX_MSG).winRead m.addr 8).1))) ∧
  (∀ (s : State) (m : SvcMsg), Served s svWRITE64 m → (s.bump fSVC_RX_MSG).svcCheck true m.addr 8 = svOk →
    exec (.svcWrite64 m) s = .next (((s.bump fSVC_RX_MSG).winWrite false m.addr 8 (unLe m.data)).answers svWRITE64 m 1 [])) ∧
  (∀ (s : State) (m : SvcMsg), (s.bump fSVC_RX_MSG).svcCheck false m.addr 4 = svAlign → (s.bump fSVC_RX_MSG).svcCheck true m.addr 4 = svAlign →
    (Served s svREAD m → exec (.svcRead m) s = .next ((s.bump fSVC_RX_MSG).replies svREAD m svAlign 0 [])) ∧
    (Served s svWRITE m → exec (.svcWrite m) s = .next ((s.bump fSVC_RX_MSG).replies svWRITE m svAlign 0 []))) ∧
  (∀ (s : State) (m : SvcMsg), Served s svHBMREAD m →
    (s.plat.pwr.cold = true → exec (.svcHbmRead m) s = .next (((s.bump fSVC_RX_MSG).bump fSVC_REFUSED).replies svHBMREAD m svCold 0 [])) ∧
    (s.plat.pwr.cold = false → m.addr % 64 ≠ 0 → exec (.svcHbmRead m) s = .next ((s.bump fSVC_RX_MSG).replies svHBMREAD m svAlign 0 [])) ∧
    (s.plat.pwr.cold = false → m.addr % 64 = 0 → hbmEnd < m.addr + m.count → exec (.svcHbmRead m) s = .next ((s.bump fSVC_RX_MSG).replies svHBMREAD m svHbmError 0 [])) ∧
    (s.plat.pwr.cold = false → m.addr % 64 = 0 → m.addr + m.count ≤ hbmEnd → s.stackAsleep m.addr m.count = true →
      exec (.svcHbmRead m) s = .next (((s.bump fSVC_RX_MSG).srRefused m.addr).replies svHBMREAD m svHbmError 0 [])) ∧
    (∀ b : Nat, s.plat.pwr.cold = false → m.addr % 64 = 0 → m.addr + m.count ≤ hbmEnd → s.stackAsleep m.addr m.count = false → s.rawBad m.addr m.count = some b →
      exec (.svcHbmRead m) s = .next (((s.bump fSVC_RX_MSG).hbmUncorr b).replies svHBMREAD m svHbmError 0 [])) ∧
    (s.plat.pwr.cold = false → m.addr % 64 = 0 → m.addr + m.count ≤ hbmEnd → s.stackAsleep m.addr m.count = false → s.rawBad m.addr m.count = none →
      exec (.svcHbmRead m) s = .next ((s.bump fSVC_RX_MSG).answers svHBMREAD m m.count ((List.range m.count).map fun i => s.rawByte (m.addr + i))))) ∧
  (∀ (s : State) (m : SvcMsg), Served s svHBMWRITE m →
    (s.plat.pwr.cold = true → exec (.svcHbmWrite m) s = .next (((s.bump fSVC_RX_MSG).bump fSVC_REFUSED).replies svHBMWRITE m svCold 0 [])) ∧
    (s.plat.pwr.cold = false → m.addr % 64 ≠ 0 → exec (.svcHbmWrite m) s = .next ((s.bump fSVC_RX_MSG).replies svHBMWRITE m svAlign 0 [])) ∧
    (s.plat.pwr.cold = false → m.addr % 64 = 0 → hbmEnd < m.addr + m.count → exec (.svcHbmWrite m) s = .next ((s.bump fSVC_RX_MSG).replies svHBMWRITE m svHbmError 0 [])) ∧
    (s.plat.pwr.cold = false → m.addr % 64 = 0 → m.addr + m.count ≤ hbmEnd → s.stackAsleep m.addr m.count = true →
      exec (.svcHbmWrite m) s = .next (((s.bump fSVC_RX_MSG).srRefused m.addr).replies svHBMWRITE m svHbmError 0 [])) ∧
    (s.plat.pwr.cold = false → m.addr % 64 = 0 → m.addr + m.count ≤ hbmEnd → s.stackAsleep m.addr m.count = false →
      ∃ t : State, exec (.svcHbmWrite m) s = .next (t.answers svHBMWRITE m m.count []) ∧ t.mem.lines = s.mem.lines ∧ t.mem.mb = s.mem.mb ∧
        (∀ x, t.rawByte x = if m.addr ≤ x ∧ x < m.addr + m.count then m.data.getD (x - m.addr) 0 else s.rawByte x))) ∧
  (∀ (s : State) (m : SvcMsg), Served s svUPDDATA m →
    (s.plat.pwr.cold = true → exec (.updData m) s = .next (((s.bump fSVC_RX_MSG).bump fSVC_REFUSED).replies svUPDDATA m svCold 0 [])) ∧
    (s.plat.pwr.cold = false → s.updLimit = none → exec (.updData m) s = .next ((s.bump fSVC_RX_MSG).replies svUPDDATA m svUpdState 0 [])) ∧
    (∀ lim : Nat, s.plat.pwr.cold = false → s.updLimit = some lim → lim < m.addr + m.count → exec (.updData m) s = .next ((s.bump fSVC_RX_MSG).replies svUPDDATA m svUpdState 0 [])) ∧
    (∀ lim : Nat, s.plat.pwr.cold = false → s.updLimit = some lim → m.addr + m.count ≤ lim → s.reg64 rUPD_PKG_BASE + m.addr + m.count ≤ hbmEnd →
      (∀ j, (s.stack j).sr = .active) →
      exec (.updData m) s = .next (((s.bump fSVC_RX_MSG).hbmWrite (s.reg64 rUPD_PKG_BASE + m.addr) m.data).answers svUPDDATA m m.count []))) ∧
  (∀ (s : State), (s.upd.st = .verified → s.updLimit = some (bodyStart (hdrEnvs s.upd.header) + hdrBody s.upd.header + 16)) ∧
    (s.upd.st = .idle → s.updLimit = some (bodyStart (s.hbmNat (s.reg64 rUPD_PKG_BASE + 0x014) 4))) ∧
    (s.upd.st ≠ .verified → s.upd.st ≠ .idle → s.updLimit = none)) ∧
  (∀ (s : State) (m : SvcMsg), Served s svPING m → exec (.ping m) s =
    .next ((if m.flags.testBit 1 then (s.bump fSVC_RX_MSG).coldWake ((s.bump fSVC_RX_MSG).fld fPWR_WAKE_EN_SVC) 2 else s.bump fSVC_RX_MSG).answers svPING m 0
      (le 4 ((s.bump fSVC_RX_MSG).headerWord pgCHIP 0) ++ le 1 s.plat.pwr.coldCause ++ le 1 s.upd.st.code ++ [0, 0]))) ∧
  (∀ (s : State) (f : List Byte),
    (unBe (f.take 6) = s.reg64 rSVC_MAC → unBe (slice f 12 2) = 0x88B5 → (svcUnpad (f.drop 14)).length < 24 → exec (.svcFrameForward f) s =
      .next (((s.bump fSVC_RX_MSG).bump fSVC_TX_MSG).emit (.bytes (svcResponse (svcParse (svcUnpad (f.drop 14))).1 (svcParse (svcUnpad (f.drop 14))).2 svBadMsg 0 [])))) ∧
    (unBe (f.take 6) = s.reg64 rSVC_MAC → unBe (slice f 12 2) = 0x88B5 → 24 ≤ (svcUnpad (f.drop 14)).length → exec (.svcFrameForward f) s =
      .next (s.svcMessage (svcParse (svcUnpad (f.drop 14))).1 (svcParse (svcUnpad (f.drop 14))).2)) ∧
    ((unBe (f.take 6) ≠ s.reg64 rSVC_MAC ∨ unBe (slice f 12 2) ≠ 0x88B5) →
      (s.fld fSVC_CTRL_FWD = 1 → exec (.svcFrameForward f) s = .next (s.frameInput (coreFrame 20 f))) ∧
      (s.fld fSVC_CTRL_FWD ≠ 1 → exec (.svcFrameForward f) s = .next (s.bump fSVC_RX_DROP)))) ∧
  (∀ (s : State) (bs : List Byte), s.i3cOn = true →
    (i3cGood bs = true → exec (.i3cPrivateWrite bs) s = .next { ((s.bump fSVC_RX_MSG).svcTurn (svcParse bs).1 (svcParse bs).2).2 with svc.i3cResp := some ((s.bump fSVC_RX_MSG).svcTurn (svcParse bs).1 (svcParse bs).2).1 }) ∧
    (i3cGood bs = false → exec (.i3cPrivateWrite bs) s = .next { s.bump fSVC_RX_MSG with svc.i3cResp := some (svcResponse (svcParse bs).1 (svcParse bs).2 svBadMsg 0 []) })) ∧
  (∀ (s : State), (∀ r : List Byte, s.i3cOn = true → s.svc.i3cResp = some r →
      exec .i3cPrivateRead s = .next ((({ s with svc.i3cResp := none } : State).bump fSVC_TX_MSG).emit (.bytes r))) ∧
    (s.svc.i3cResp = none → exec .i3cPrivateRead s = .next s)) ∧
  (∀ (s : State) (a : Nat), s.i3cOn = true → exec (.setdasa a) s = .next ((s.setFld fSVC_I3C_DA_VALID 1).setFld fSVC_I3C_DA_ADDR a) ∧
    exec (.entdaa a) s = .next ((s.setFld fSVC_I3C_DA_VALID 1).setFld fSVC_I3C_DA_ADDR a) ∧
    exec .rstdaa s = .next ((s.setFld fSVC_I3C_DA_VALID 0).setFld fSVC_I3C_DA_ADDR 0)) ∧
  (∀ (s : State) (a : Nat), s.i3cOn = true → a < 128 → ∃ t : State, exec (.setdasa a) s = .next t ∧ exec (.entdaa a) s = .next t ∧ t.fld fSVC_I3C_DA_VALID = 1 ∧
    t.fld fSVC_I3C_DA_ADDR = a ∧ (∀ x, x ≠ fSVC_I3C_DA_ADDR.a → t.reg x = s.reg x) ∧ t.mem = s.mem ∧ t.svc = s.svc) ∧
  (∀ (s : State), s.i3cOn = true → ∃ t : State, exec .rstdaa s = .next t ∧ t.fld fSVC_I3C_DA_VALID = 0 ∧ t.fld fSVC_I3C_DA_ADDR = 0 ∧
    (∀ x, x ≠ fSVC_I3C_DA_ADDR.a → t.reg x = s.reg x) ∧ t.mem = s.mem) ∧
  (∀ (s : State), s.i3cOn = true → exec .getpid s = .next (s.emit (.bytes (be 6 Config.i3cPid))) ∧ exec .getbcr s = .next (s.emit (.bytes [Config.i3cBcr])) ∧
    exec .getdcr s = .next (s.emit (.bytes [Config.i3cDcr])) ∧
    exec .getstatus s = .next (({ s with free := s.free + 2 } : State).emit (.bytes [Config.freeByte s.free, Config.freeByte (s.free + 1)]))) ∧
  (∀ (s : State) (a : Nat) (bs : List Byte), s.i3cOn = false → exec (.setdasa a) s = .next s ∧ exec (.entdaa a) s = .next s ∧ exec .rstdaa s = .next s ∧
    exec .getpid s = .next s ∧ exec .getbcr s = .next s ∧ exec .getdcr s = .next s ∧ exec .getstatus s = .next s ∧ exec .i3cPrivateRead s = .next s ∧
    exec (.i3cPrivateWrite bs) s = .next s)

/-- Firmware update (R423-R428, R155, log entries 69, 75, 9). UPD_VERIFY keeps the header that it accepts or fails with its
status; UPD_STAGE waits for its Mark lane, and then writes the slot or fails with the status of the first check that fails; UPD_ACTIVATE moves to the
staged slot or fails with the part that is bad; UPD_BRIDGES, UPD_CONFIRM, UPD_ABANDON and UPD_CLEAR act in their states. Each ends with BAD_STATE in
others. The confirmation's time-out falls back in Trial only, and a key is revoked but never the last; an Off page counts that access. The signature's
scheme and the root key are constants without a value. Completes: updVerify, updStage, updBridges, updConfirm, updAbandon, updClear,
updConfirmTimeout, updKeyRevoke, updActivate. Where the spec leaves a point open it follows the model's choice in log entry 77. -/
def Obligations.Update : Prop :=
  (∀ (s : State) (h : CmdHdr) (g fo : Bool), Ready s h pgUPD pgUPD .work →
    (s.upd.st ≠ .idle → exec (.updVerify h) s = .next (s.consume.ends pgUPD h udState)) ∧
    (s.upd.st ≠ .verified → exec (.updStage h g fo) s = .next (s.consume.ends pgUPD h udState)) ∧
    (((s.upd.st ≠ .staged ∧ s.upd.st ≠ .failed) ∨ s.upd.job.isSome = true) → exec (.updClear h) s = .next (s.consume.ends pgUPD h udState)) ∧
    ((s.upd.st ≠ .staged ∨ s.upd.job.isSome = true ∨ s.plat.pwr.powerFail = true) → exec (.updActivate h g) s = .next (s.consume.ends pgUPD h udState)) ∧
    ((s.upd.st ≠ .trial ∨ s.upd.job.isSome = true) → exec (.updConfirm h g) s = .next (s.consume.ends pgUPD h udState) ∧
      exec (.updAbandon h) s = .next (s.consume.ends pgUPD h udState).bridgeRun)) ∧
  (∀ (s : State) (h : CmdHdr), Ready s h pgUPD pgUPD .work → s.upd.st = .idle →
    (∃ hd env key : List Byte, s.consume.verifyPkg = .ok (hd, env, key) ∧
      exec (.updVerify h) s = .next ((({ s.consume with upd.header := hd, upd.envelope := env, sec.bodyKey := key } : State).updGoes .verified 0).ends pgUPD h stOk)) ∨
    (∃ e : Nat, s.consume.verifyPkg = .error e ∧ exec (.updVerify h) s = .next (((s.consume.bump fUPD_VERIFY_FAIL).updFails e 0).ends pgUPD h e))) ∧
  (∀ (s t : State) (h : CmdHdr) (g fo : Bool), Ready s h pgUPD pgUPD .work → s.upd.st = .verified → t = s.consume.updGoes .staging 0 →
    (t.snoopLane = false → exec (.updStage h g fo) s = .next (({ t with upd.stageWait := some (h.cseq, g, fo) } : State).keeps pgUPD 0x0101 h [])) ∧
    (t.snoopLane = true → exec (.updStage h g fo) s = .next ((t.stageGo g fo).1.ends pgUPD h (t.stageGo g fo).2))) ∧
  (∀ (t u : State) (g fo : Bool),
    (t.zeroized = true → t.stageGo g fo = ((t.bump fUPD_STAGE_FAIL).updFails udZeroized 0, udZeroized)) ∧
    (t.zeroized = false → t.cipherLock g = (u, false) → t.stageGo g fo = ((u.bump fUPD_STAGE_FAIL).updFails udCipher 0, udCipher)) ∧
    (∀ e : Nat, t.zeroized = false → t.cipherLock g = (u, true) → u.stageBody = .error e → t.stageGo g fo = ((u.bump fUPD_STAGE_FAIL).updFails e 0, e)) ∧
    (∀ (body : List Byte) (e p : Nat), t.zeroized = false → t.cipherLock g = (u, true) → u.stageBody = .ok body → u.newImages u.upd.header body = .error (e, p) →
      t.stageGo g fo = ((u.bump fUPD_STAGE_FAIL).updFails e p, e)) ∧
    (∀ (body : List Byte) (imgs : List (List Byte × Nat)), t.zeroized = false → t.cipherLock g = (u, true) → u.stageBody = .ok body → u.newImages u.upd.header body = .ok imgs →
      t.stageGo g false = (((u.setStaging {}).bump fUPD_STAGE_FAIL).updFails udFlash 0, udFlash) ∧
      t.stageGo g true = (({ (u.buildSlot u.sec.bodyKey u.upd.header u.upd.envelope imgs).1.setStaging (u.buildSlot u.sec.bodyKey u.upd.header u.upd.envelope imgs).2 with upd.progress := hdrBody u.upd.header } : State).updGoes .staged 0, stOk))) ∧
  (∀ (s : State) (h : CmdHdr) (mask : Nat), Ready s h pgUPD pgUPD .work →
    ((s.upd.st ≠ .staged ∨ s.upd.job.isSome = true) → exec (.updBridges h mask) s = .next (s.consume.ends pgUPD h udState).bridgeRun) ∧
    (s.upd.st = .staged → s.upd.job = none →
      (2 ^ 24 ≤ mask → exec (.updBridges h mask) s = .next (s.consume.ends pgUPD h udBadArg)) ∧
      (mask < 2 ^ 24 → (mask = 0 ∨ s.bridgeNamed = false) → exec (.updBridges h mask) s = .next (s.consume.ends pgUPD h stOk)) ∧
      (mask < 2 ^ 24 → 0 < mask → s.bridgeNamed = true → ((bitList 24 mask).any s.foreignModule) = true →
        exec (.updBridges h mask) s = .next (s.consume.ends pgUPD h udNotOwner)) ∧
      (mask < 2 ^ 24 → 0 < mask → s.bridgeNamed = true → ((bitList 24 mask).any s.foreignModule) = false →
        exec (.updBridges h mask) s = .next ((({ s.consume with upd.job := some { cseq := some h.cseq, todo := bitList 24 mask } } : State).keeps pgUPD 0x0102 h [mask]).bridgeRun)))) ∧
  (∀ (s : State) (h : CmdHdr) (ow : Bool), Ready s h pgUPD pgUPD .work → s.upd.st = .staged → s.upd.job = none → s.plat.pwr.powerFail = false →
    (s.ownsPaired = true → ow = false → exec (.updActivate h ow) s = .next (s.consume.ends pgUPD h udOwns)) ∧
    ((s.ownsPaired = false ∨ ow = true) → exec (.updActivate h ow) s = .next (match s.stagedBad with
      | some (e, p) => (s.consume.updFails e p).ends pgUPD h e
      | none => ((s.consume.activateSlot.updGoes .activating 0).ends pgUPD h stOk).requestRestart 3))) ∧
  (∀ (s : State), s.activateSlot.upd.trial = true ∧ s.activateSlot.upd.activeB = !s.upd.activeB ∧ s.activateSlot.upd.tries = 0) ∧
  (∀ (s t : State) (h : CmdHdr), Ready s h pgUPD pgUPD .work → s.upd.st = .trial → s.upd.job = none →
    t = { s.consume.emptyStaging with upd.trial := false, upd.tries := 0, upd.bridges := [], upd.floor := max s.upd.floor (unLe (slice s.activeSlot.dir 0x00C 4)) } →
    exec (.updConfirm h false) s = .next ((t.updGoes .idle 0).ends pgUPD h stOk) ∧ exec (.updConfirm h true) s = .next ((t.commitBridges.updGoes .idle 0).ends pgUPD h stOk)) ∧
  (∀ (s : State) (h : CmdHdr), Ready s h pgUPD pgUPD .work → s.upd.st = .trial → s.upd.job = none →
    ∃ t : State, exec (.updConfirm h false) s = .next (t.ends pgUPD h stOk) ∧ t.upd.st = .idle ∧ t.upd.trial = false ∧ t.upd.activeB = s.upd.activeB ∧
      t.upd.floor = max s.upd.floor (unLe (slice s.activeSlot.dir 0x00C 4)) ∧ t.activeSlot = s.activeSlot) ∧
  (∀ (s : State) (h : CmdHdr), Ready s h pgUPD pgUPD .work → s.upd.st = .trial → s.upd.job = none →
    exec (.updAbandon h) s = .next (((s.consume.fallBackJob 3).ends pgUPD h stOk).bridgeRun)) ∧
  (∀ (s : State) (h : CmdHdr), Ready s h pgUPD pgUPD .work → (s.upd.st = .staged ∨ s.upd.st = .failed) → s.upd.job = none →
    ∃ t : State, exec (.updClear h) s = .next (t.ends pgUPD h stOk) ∧ t.upd.st = .idle ∧ t.upd.header = [] ∧ t.upd.envelope = [] ∧ t.sec.bodyKey = [] ∧
      t.stagingSlot.dir = [] ∧ t.activeSlot = s.activeSlot) ∧
  (∀ (s : State),
    (s.upd.st = .trial → s.fld fUPD_CFG_CONFIRM_TIMEOUT_S ≠ 0 → s.upd.job = none → exec .updConfirmTimeout s = .next (s.fallBackJob 4).bridgeRun) ∧
    ((s.upd.st ≠ .trial ∨ s.fld fUPD_CFG_CONFIRM_TIMEOUT_S = 0 ∨ s.upd.job.isSome = true) → exec .updConfirmTimeout s = .next s)) ∧
  (∀ (s : State) (v : Nat),
    (s.pageOn pgUPD = false → exec (.updKeyRevoke v) s = .next (s.bump fCHIP_OFF_ACCESS)) ∧
    (s.pageOn pgUPD = true → (s.blk pgUPD = .fault ∨ s.blk pgUPD = .off) → exec (.updKeyRevoke v) s = .next s) ∧
    (Reaches s pgUPD → s.upd.revoked ||| v % 16 ≠ 15 → exec (.updKeyRevoke v) s = .next { s with upd.revoked := s.upd.revoked ||| v % 16 }) ∧
    (Reaches s pgUPD → s.upd.revoked ||| v % 16 = 15 → exec (.updKeyRevoke v) s = .next s))

/-! ### An invariant of every step -/

/-- Reset meets the invariant of every step. -/
def Obligations.InvariantAtReset : Prop :=
  BlockInv State.reset

/-- Every step keeps the timebase within its 64 bits, SLEWING set exactly while a negative step is left to absorb, and at most 64 transmit timestamps
waiting (R61, R62), and keeps HBM's bytes in their canonical form: addresses rising, none listed that reads 0 (the form is the model's own; what an
unlisted byte reads as is the choice of log entry 3). -/
def Obligations.InvariantKept : Prop :=
  ∀ (s t : State), BlockInv s → step s = .next t → BlockInv t
end

