-- ==== Sys2Proof/Laws/Tab.lean ====
section
/-! SUPPORT. What a table reads after a write, and that writing keeps the canonical form. -/

namespace Sys2Proof.Machine

variable {α : Type}

theorem Tab.getF_ins (d : Nat → α) (t : Tab α) (k j : Nat) (v : α) :
    (t.ins k v).getF d j = if j = k then v else t.getF d j := by
  induction t with
  | nil => simp [Tab.ins, Tab.getF]
  | cons e t ih =>
    obtain ⟨k', v'⟩ := e
    simp only [Tab.ins]
    split
    · simp only [Tab.getF]
    · split
      · subst_vars; simp only [Tab.getF]; split <;> rfl
      · simp only [Tab.getF, ih]
        split
        · have : j ≠ k := by omega
          simp [this]
        · rfl

theorem Tab.getF_del (d : Nat → α) (t : Tab α) (k j : Nat) : (t.del k).getF d j = if j = k then d j else t.getF d j := by
  induction t with
  | nil => simp [Tab.del, Tab.getF]
  | cons e t ih =>
    obtain ⟨k', v'⟩ := e
    simp only [Tab.del] at ih ⊢
    by_cases hk : k' = k
    · subst hk
      simp only [List.filter_cons, ne_eq, not_true_eq_false, decide_false, Bool.false_eq_true, if_false, ih, Tab.getF]
      split <;> simp_all
    · simp only [List.filter_cons, ne_eq, hk, not_false_eq_true, decide_true, if_true, Tab.getF, ih]
      split
      · rename_i hj; subst hj; simp [hk]
      · rfl

/-- A key that is written reads as written, and every other key as before. -/
theorem Tab.getF_putF [DecidableEq α] (d : Nat → α) (t : Tab α) (k j : Nat) (v : α) :
    (t.putF d k v).getF d j = if j = k then v else t.getF d j := by
  unfold Tab.putF
  split
  · rename_i hv
    rw [Tab.getF_del d t k j]
    split
    · subst_vars; rfl
    · rfl
  · exact Tab.getF_ins d t k j v

@[simp] theorem Tab.get_put [DecidableEq α] (d : α) (t : Tab α) (k j : Nat) (v : α) :
    (t.put d k v).get d j = if j = k then v else t.get d j := Tab.getF_putF _ t k j v

theorem Tab.risingFrom_mono (t : Tab α) (a b : Nat) (hab : a ≤ b) (h : Tab.risingFrom b t = true) : Tab.risingFrom a t = true := by
  cases t with
  | nil => rfl
  | cons e t =>
    obtain ⟨k, v⟩ := e
    simp only [Tab.risingFrom, Bool.and_eq_true, decide_eq_true_eq] at h ⊢
    exact ⟨by omega, h.2⟩

theorem Tab.risingFrom_filter (t : Tab α) (lo : Nat) (f : Nat × α → Bool) (h : Tab.risingFrom lo t = true) :
    Tab.risingFrom lo (t.filter f) = true := by
  induction t generalizing lo with
  | nil => rfl
  | cons e t ih =>
    obtain ⟨k', v'⟩ := e
    simp only [Tab.risingFrom, Bool.and_eq_true, decide_eq_true_eq] at h
    simp only [List.filter_cons]
    split
    · simp only [Tab.risingFrom, Bool.and_eq_true, decide_eq_true_eq]
      exact ⟨h.1, ih (k' + 1) h.2⟩
    · exact Tab.risingFrom_mono _ lo (k' + 1) (by omega) (ih (k' + 1) h.2)

theorem Tab.risingFrom_ins (t : Tab α) (lo k : Nat) (v : α) (hk : lo ≤ k) (h : Tab.risingFrom lo t = true) :
    Tab.risingFrom lo (t.ins k v) = true := by
  induction t generalizing lo with
  | nil => simp [Tab.ins, Tab.risingFrom, hk]
  | cons e t ih =>
    obtain ⟨k', v'⟩ := e
    simp only [Tab.risingFrom, Bool.and_eq_true, decide_eq_true_eq] at h
    simp only [Tab.ins]
    split
    · simp only [Tab.risingFrom, Bool.and_eq_true, decide_eq_true_eq]
      exact ⟨hk, by omega, h.2⟩
    · split
      · subst_vars; simp only [Tab.risingFrom, Bool.and_eq_true, decide_eq_true_eq]; exact ⟨hk, h.2⟩
      · simp only [Tab.risingFrom, Bool.and_eq_true, decide_eq_true_eq]
        exact ⟨h.1, ih (k' + 1) (by omega) h.2⟩

theorem Tab.risingFrom_putF [DecidableEq α] (d : Nat → α) (t : Tab α) (k : Nat) (v : α) (h : Tab.risingFrom 0 t = true) :
    Tab.risingFrom 0 (t.putF d k v) = true := by
  unfold Tab.putF
  split
  · exact Tab.risingFrom_filter t 0 _ h
  · exact Tab.risingFrom_ins t 0 k v (Nat.zero_le _) h

end Sys2Proof.Machine
end

