-- ==== Sys2Proof/Laws/State.lean ====
section
/-! SUPPORT. What each shared operation leaves alone, field by field, and what it writes. -/

namespace Sys2Proof.Machine

/-! ### Only what an operation writes differs -/

/-- Only register words and HBM differ. -/
def OnlyMem (s t : State) : Prop := ∃ x : Tab Word × MemSt, t = { s with regs := x.1, mem := x.2 }
/-- Only page headers, what has left the block and pending interrupt files differ. -/
def OnlyIrq (s t : State) : Prop := ∃ x : Tab Page × List Out × Tab Nat, t = { s with pages := x.1, out := x.2.1, plat.imsic := x.2.2 }
/-- Only page headers, what has left the block, pending interrupt files and register words differ. -/
def OnlyReport (s t : State) : Prop :=
  ∃ x : Tab Page × List Out × Tab Nat × Tab Word, t = { s with pages := x.1, out := x.2.1, plat.imsic := x.2.2.1, regs := x.2.2.2 }
/-- Only what an event or a completion writes differs. -/
def OnlyEvent (s t : State) : Prop :=
  ∃ x : Tab Page × List Out × Tab Nat × Tab Word × MemSt × EvtSt,
    t = { s with pages := x.1, out := x.2.1, plat.imsic := x.2.2.1, regs := x.2.2.2.1, mem := x.2.2.2.2.1, plat.evt := x.2.2.2.2.2 }

theorem OnlyEvent.refl (s : State) : OnlyEvent s s := ⟨(s.pages, s.out, s.plat.imsic, s.regs, s.mem, s.plat.evt), rfl⟩
theorem OnlyEvent.trans {s t u : State} (h : OnlyEvent s t) (k : OnlyEvent t u) : OnlyEvent s u := by
  obtain ⟨x, rfl⟩ := h
  obtain ⟨y, rfl⟩ := k
  exact ⟨y, rfl⟩
theorem OnlyMem.trans {s t u : State} (h : OnlyMem s t) (k : OnlyMem t u) : OnlyMem s u := by
  obtain ⟨x, rfl⟩ := h
  obtain ⟨y, rfl⟩ := k
  exact ⟨y, rfl⟩
theorem OnlyMem.event {s t : State} (h : OnlyMem s t) : OnlyEvent s t := by
  obtain ⟨x, rfl⟩ := h
  exact ⟨(s.pages, s.out, s.plat.imsic, x.1, x.2, s.plat.evt), rfl⟩
theorem OnlyIrq.event {s t : State} (h : OnlyIrq s t) : OnlyEvent s t := by
  obtain ⟨x, rfl⟩ := h
  exact ⟨(x.1, x.2.1, x.2.2, s.regs, s.mem, s.plat.evt), rfl⟩

theorem OnlyReport.refl (s : State) : OnlyReport s s := ⟨(s.pages, s.out, s.plat.imsic, s.regs), rfl⟩
theorem OnlyReport.trans {s t u : State} (h : OnlyReport s t) (k : OnlyReport t u) : OnlyReport s u := by
  obtain ⟨x, rfl⟩ := h
  obtain ⟨y, rfl⟩ := k
  exact ⟨y, rfl⟩
theorem OnlyIrq.report {s t : State} (h : OnlyIrq s t) : OnlyReport s t := by
  obtain ⟨x, rfl⟩ := h
  exact ⟨(x.1, x.2.1, x.2.2, s.regs), rfl⟩
theorem State.setReg_report (s : State) (a : Nat) (v : Word) : OnlyReport s (s.setReg a v) := ⟨(_, _, _, _), rfl⟩
theorem State.bump_report (s : State) (f : Fld) (n : Nat) : OnlyReport s (s.bump f n) := State.setReg_report _ _ _
theorem State.setReg64_report (s : State) (a v : Nat) : OnlyReport s (s.setReg64 a v) :=
  (State.setReg_report _ _ _).trans (State.setReg_report _ _ _)

theorem State.writeSector_shape (s : State) (a : Nat) (bs : List Byte) : OnlyMem s (s.writeSector a bs) := by
  simp only [State.writeSector, patchLine]
  repeat' split
  all_goals exact ⟨(_, _), rfl⟩

theorem State.writeFuel_shape (n : Nat) (s : State) (a : Nat) (bs : List Byte) : OnlyMem s (State.writeFuel n s a bs) := by
  induction n generalizing s a bs with
  | zero => exact ⟨(s.regs, s.mem), rfl⟩
  | succ n ih =>
    simp only [State.writeFuel]
    split
    · exact ⟨(s.regs, s.mem), rfl⟩
    · exact (s.writeSector_shape a _).trans (ih _ _ _)

theorem State.hbmWrite_shape (s : State) (a : Nat) (bs : List Byte) : OnlyMem s (s.hbmWrite a bs) := by
  simp only [State.hbmWrite]
  split
  · exact ⟨(s.regs, s.mem), rfl⟩
  · exact State.writeFuel_shape _ _ _ _

theorem State.irqMessage_shape (s : State) (p : Nat) :
    ∃ x : List Out × Tab Nat, s.irqMessage p = { s with out := x.1, plat.imsic := x.2 } := by
  simp only [State.irqMessage, State.emit]
  split
  · exact ⟨(_, _), rfl⟩
  · exact ⟨(s.out, s.plat.imsic), rfl⟩

theorem State.irqSet_shape (s : State) (p : Nat) (v : Word) : OnlyIrq s (s.irqSet p v) := by
  simp only [State.irqSet]
  split
  · exact ⟨(_, _, _), rfl⟩
  · obtain ⟨x, h⟩ := State.irqMessage_shape (s.modPage p fun g => { g with irqStat := g.irqStat ||| v }) p
    exact ⟨(_, x.1, x.2), h⟩

theorem State.irqBit_shape (s : State) (p i : Nat) : OnlyIrq s (s.irqBit p i) := s.irqSet_shape p _

theorem State.capture_shape (s : State) (p c a b : Nat) : ∃ x : Tab Page, s.capture p c a b = { s with pages := x } := by
  simp only [State.capture]
  split
  · exact ⟨_, rfl⟩
  · exact ⟨s.pages, rfl⟩

theorem State.capture_report (s : State) (p c a b : Nat) : OnlyReport s (s.capture p c a b) := by
  obtain ⟨x, h⟩ := s.capture_shape p c a b
  exact ⟨(x, s.out, s.plat.imsic, s.regs), h⟩

theorem State.hbmUncorr_shape (s : State) (a : Nat) : OnlyReport s (s.hbmUncorr a) :=
  ((((State.setReg64_report _ _ _).trans (State.bump_report _ _ _)).trans (State.bump_report _ _ _)).trans (State.capture_report _ _ _ _ _)).trans
    (State.irqBit_shape _ _ _).report

theorem State.srRefused_shape (s : State) (a : Nat) : OnlyReport s (s.srRefused a) :=
  ((State.bump_report _ _ _).trans (State.capture_report _ _ _ _ _)).trans (State.irqBit_shape _ _ _).report

theorem State.noteErr_shape (s : State) (a n : Nat) : OnlyReport s (s.noteErr a n) := by
  simp only [State.noteErr]
  split
  · exact State.hbmUncorr_shape _ _
  · split
    · exact State.srRefused_shape _ _
    · exact OnlyReport.refl s

theorem overwriteStep_shape (s : State) (q : Nat) : OnlyEvent s (overwriteStep s q) := by
  simp only [overwriteStep]
  split
  · exact OnlyEvent.trans ⟨(s.pages, s.out, s.plat.imsic, s.regs, s.mem, _), rfl⟩ (State.irqBit_shape _ _ _).event
  · exact OnlyEvent.refl s

theorem ringPost_shape (s : State) (p c f : Nat) (l : List Byte) : OnlyEvent s (ringPost s p c f l) := by
  simp only [ringPost]
  have h := (overwriteStep_shape s (s.plat.evt.eseqProd + 1)).trans (State.hbmWrite_shape _
    (s.reg64 rEVT_E_BASE + 64 * ((s.plat.evt.eseqProd + 1) % s.evtSize)) (eventEntry (s.plat.evt.eseqProd + 1) s.now (blkTypeOf p) (blkInstOf p)
      (severityOf (blkTypeOf p) c l) c f ((s.page p).evseq % 2 ^ 32) l)).event
  split
  all_goals
    obtain ⟨x, h⟩ := h
    rw [h]
  · exact OnlyEvent.trans (OnlyEvent.trans ⟨(_, _, _, _, _, _), rfl⟩ (State.irqBit_shape _ _ _).event) (State.irqBit_shape _ _ _).event
  · exact OnlyEvent.trans ⟨(_, _, _, _, _, _), rfl⟩ (State.irqBit_shape _ _ _).event

theorem State.modPage_shape (s : State) (p : Nat) (f : Page → Page) : OnlyEvent s (s.modPage p f) := ⟨(_, _, _, _, _, _), rfl⟩

theorem State.event_shape (s : State) (p c : Nat) (l : List Byte) (f : Nat) : OnlyEvent s (s.event p c l f) := by
  simp only [State.event]
  split
  · split
    · have h1 := (State.modPage_shape s p fun g => { g with evseq := g.evseq + 1 }).trans (ringPost_shape _ p c f l)
      have h2 := h1.trans (t := _) (u := { ringPost (s.modPage p fun g => { g with evseq := g.evseq + 1 }) p c f l with plat.evt.ovRun := none })
        ⟨(_, _, _, _, _, _), rfl⟩
      exact (h2.trans (State.modPage_shape _ pgEVT _)).trans (ringPost_shape _ _ _ _ _)
    · exact (State.modPage_shape s p _).trans (ringPost_shape _ p c f l)
  · exact State.modPage_shape s p _

theorem State.stateChange_shape (s : State) (p : Nat) (b : BlkState) : OnlyEvent s (s.stateChange p b) :=
  (State.modPage_shape s p _).trans (State.event_shape _ _ _ _ _)

theorem State.finish_shape (s : State) (p q : Nat) (n : Bool) (c : DWord) (b st : Nat) : OnlyEvent s (s.finish p q n c b st) := by
  simp only [State.finish]
  have h1 := (State.hbmWrite_shape s (s.cmdEntry q + 0x10) (le 4 (resultWord b st))).event
  obtain ⟨x, h1⟩ := h1
  rw [h1]
  split
  · exact (OnlyEvent.trans ⟨(_, _, _, _, _, _), rfl⟩ (State.irqBit_shape _ _ _).event).trans (State.event_shape _ _ _ _ _)
  · exact OnlyEvent.trans ⟨(_, _, _, _, _, _), rfl⟩ (State.irqBit_shape _ _ _).event

theorem State.finishRunning_shape (s : State) (q b st : Nat) : OnlyEvent s (s.finishRunning q b st) := by
  simp only [State.finishRunning]
  split
  · exact State.finish_shape _ _ _ _ _ _ _
  · exact OnlyEvent.refl s

/-! `emit` -/

@[simp] theorem State.emit_pending (s : State) (o : Out) : (s.emit o).pending = s.pending := rfl
@[simp] theorem State.emit_free (s : State) (o : Out) : (s.emit o).free = s.free := rfl
@[simp] theorem State.emit_pages (s : State) (o : Out) : (s.emit o).pages = s.pages := rfl
@[simp] theorem State.emit_regs (s : State) (o : Out) : (s.emit o).regs = s.regs := rfl
@[simp] theorem State.emit_mem (s : State) (o : Out) : (s.emit o).mem = s.mem := rfl
@[simp] theorem State.emit_ldt (s : State) (o : Out) : (s.emit o).ldt = s.ldt := rfl
@[simp] theorem State.emit_ctx (s : State) (o : Out) : (s.emit o).ctx = s.ctx := rfl
@[simp] theorem State.emit_rgn (s : State) (o : Out) : (s.emit o).rgn = s.rgn := rfl
@[simp] theorem State.emit_sec (s : State) (o : Out) : (s.emit o).sec = s.sec := rfl
@[simp] theorem State.emit_sw (s : State) (o : Out) : (s.emit o).sw = s.sw := rfl
@[simp] theorem State.emit_mark (s : State) (o : Out) : (s.emit o).mark = s.mark := rfl
@[simp] theorem State.emit_grog (s : State) (o : Out) : (s.emit o).grog = s.grog := rfl
@[simp] theorem State.emit_ware (s : State) (o : Out) : (s.emit o).ware = s.ware := rfl
@[simp] theorem State.emit_lmap (s : State) (o : Out) : (s.emit o).lmap = s.lmap := rfl
@[simp] theorem State.emit_slip (s : State) (o : Out) : (s.emit o).slip = s.slip := rfl
@[simp] theorem State.emit_nvf (s : State) (o : Out) : (s.emit o).nvf = s.nvf := rfl
@[simp] theorem State.emit_conns (s : State) (o : Out) : (s.emit o).conns = s.conns := rfl
@[simp] theorem State.emit_ten (s : State) (o : Out) : (s.emit o).ten = s.ten := rfl
@[simp] theorem State.emit_peer (s : State) (o : Out) : (s.emit o).peer = s.peer := rfl
@[simp] theorem State.emit_back (s : State) (o : Out) : (s.emit o).back = s.back := rfl
@[simp] theorem State.emit_links (s : State) (o : Out) : (s.emit o).links = s.links := rfl
@[simp] theorem State.emit_svc (s : State) (o : Out) : (s.emit o).svc = s.svc := rfl
@[simp] theorem State.emit_upd (s : State) (o : Out) : (s.emit o).upd = s.upd := rfl
@[simp] theorem State.emit_plat (s : State) (o : Out) : (s.emit o).plat = s.plat := rfl

/-! `setPage` -/

@[simp] theorem State.setPage_pending (s : State) (p : Nat) (v : Page) : (s.setPage p v).pending = s.pending := rfl
@[simp] theorem State.setPage_free (s : State) (p : Nat) (v : Page) : (s.setPage p v).free = s.free := rfl
@[simp] theorem State.setPage_out (s : State) (p : Nat) (v : Page) : (s.setPage p v).out = s.out := rfl
@[simp] theorem State.setPage_regs (s : State) (p : Nat) (v : Page) : (s.setPage p v).regs = s.regs := rfl
@[simp] theorem State.setPage_mem (s : State) (p : Nat) (v : Page) : (s.setPage p v).mem = s.mem := rfl
@[simp] theorem State.setPage_ldt (s : State) (p : Nat) (v : Page) : (s.setPage p v).ldt = s.ldt := rfl
@[simp] theorem State.setPage_ctx (s : State) (p : Nat) (v : Page) : (s.setPage p v).ctx = s.ctx := rfl
@[simp] theorem State.setPage_rgn (s : State) (p : Nat) (v : Page) : (s.setPage p v).rgn = s.rgn := rfl
@[simp] theorem State.setPage_sec (s : State) (p : Nat) (v : Page) : (s.setPage p v).sec = s.sec := rfl
@[simp] theorem State.setPage_sw (s : State) (p : Nat) (v : Page) : (s.setPage p v).sw = s.sw := rfl
@[simp] theorem State.setPage_mark (s : State) (p : Nat) (v : Page) : (s.setPage p v).mark = s.mark := rfl
@[simp] theorem State.setPage_grog (s : State) (p : Nat) (v : Page) : (s.setPage p v).grog = s.grog := rfl
@[simp] theorem State.setPage_ware (s : State) (p : Nat) (v : Page) : (s.setPage p v).ware = s.ware := rfl
@[simp] theorem State.setPage_lmap (s : State) (p : Nat) (v : Page) : (s.setPage p v).lmap = s.lmap := rfl
@[simp] theorem State.setPage_slip (s : State) (p : Nat) (v : Page) : (s.setPage p v).slip = s.slip := rfl
@[simp] theorem State.setPage_nvf (s : State) (p : Nat) (v : Page) : (s.setPage p v).nvf = s.nvf := rfl
@[simp] theorem State.setPage_conns (s : State) (p : Nat) (v : Page) : (s.setPage p v).conns = s.conns := rfl
@[simp] theorem State.setPage_ten (s : State) (p : Nat) (v : Page) : (s.setPage p v).ten = s.ten := rfl
@[simp] theorem State.setPage_peer (s : State) (p : Nat) (v : Page) : (s.setPage p v).peer = s.peer := rfl
@[simp] theorem State.setPage_back (s : State) (p : Nat) (v : Page) : (s.setPage p v).back = s.back := rfl
@[simp] theorem State.setPage_links (s : State) (p : Nat) (v : Page) : (s.setPage p v).links = s.links := rfl
@[simp] theorem State.setPage_svc (s : State) (p : Nat) (v : Page) : (s.setPage p v).svc = s.svc := rfl
@[simp] theorem State.setPage_upd (s : State) (p : Nat) (v : Page) : (s.setPage p v).upd = s.upd := rfl
@[simp] theorem State.setPage_plat (s : State) (p : Nat) (v : Page) : (s.setPage p v).plat = s.plat := rfl

/-! `modPage` -/

@[simp] theorem State.modPage_pending (s : State) (p : Nat) (f : Page → Page) : (s.modPage p f).pending = s.pending := rfl
@[simp] theorem State.modPage_free (s : State) (p : Nat) (f : Page → Page) : (s.modPage p f).free = s.free := rfl
@[simp] theorem State.modPage_out (s : State) (p : Nat) (f : Page → Page) : (s.modPage p f).out = s.out := rfl
@[simp] theorem State.modPage_regs (s : State) (p : Nat) (f : Page → Page) : (s.modPage p f).regs = s.regs := rfl
@[simp] theorem State.modPage_mem (s : State) (p : Nat) (f : Page → Page) : (s.modPage p f).mem = s.mem := rfl
@[simp] theorem State.modPage_ldt (s : State) (p : Nat) (f : Page → Page) : (s.modPage p f).ldt = s.ldt := rfl
@[simp] theorem State.modPage_ctx (s : State) (p : Nat) (f : Page → Page) : (s.modPage p f).ctx = s.ctx := rfl
@[simp] theorem State.modPage_rgn (s : State) (p : Nat) (f : Page → Page) : (s.modPage p f).rgn = s.rgn := rfl
@[simp] theorem State.modPage_sec (s : State) (p : Nat) (f : Page → Page) : (s.modPage p f).sec = s.sec := rfl
@[simp] theorem State.modPage_sw (s : State) (p : Nat) (f : Page → Page) : (s.modPage p f).sw = s.sw := rfl
@[simp] theorem State.modPage_mark (s : State) (p : Nat) (f : Page → Page) : (s.modPage p f).mark = s.mark := rfl
@[simp] theorem State.modPage_grog (s : State) (p : Nat) (f : Page → Page) : (s.modPage p f).grog = s.grog := rfl
@[simp] theorem State.modPage_ware (s : State) (p : Nat) (f : Page → Page) : (s.modPage p f).ware = s.ware := rfl
@[simp] theorem State.modPage_lmap (s : State) (p : Nat) (f : Page → Page) : (s.modPage p f).lmap = s.lmap := rfl
@[simp] theorem State.modPage_slip (s : State) (p : Nat) (f : Page → Page) : (s.modPage p f).slip = s.slip := rfl
@[simp] theorem State.modPage_nvf (s : State) (p : Nat) (f : Page → Page) : (s.modPage p f).nvf = s.nvf := rfl
@[simp] theorem State.modPage_conns (s : State) (p : Nat) (f : Page → Page) : (s.modPage p f).conns = s.conns := rfl
@[simp] theorem State.modPage_ten (s : State) (p : Nat) (f : Page → Page) : (s.modPage p f).ten = s.ten := rfl
@[simp] theorem State.modPage_peer (s : State) (p : Nat) (f : Page → Page) : (s.modPage p f).peer = s.peer := rfl
@[simp] theorem State.modPage_back (s : State) (p : Nat) (f : Page → Page) : (s.modPage p f).back = s.back := rfl
@[simp] theorem State.modPage_links (s : State) (p : Nat) (f : Page → Page) : (s.modPage p f).links = s.links := rfl
@[simp] theorem State.modPage_svc (s : State) (p : Nat) (f : Page → Page) : (s.modPage p f).svc = s.svc := rfl
@[simp] theorem State.modPage_upd (s : State) (p : Nat) (f : Page → Page) : (s.modPage p f).upd = s.upd := rfl
@[simp] theorem State.modPage_plat (s : State) (p : Nat) (f : Page → Page) : (s.modPage p f).plat = s.plat := rfl

/-! `setReg` -/

@[simp] theorem State.setReg_pending (s : State) (a : Nat) (v : Word) : (s.setReg a v).pending = s.pending := rfl
@[simp] theorem State.setReg_free (s : State) (a : Nat) (v : Word) : (s.setReg a v).free = s.free := rfl
@[simp] theorem State.setReg_out (s : State) (a : Nat) (v : Word) : (s.setReg a v).out = s.out := rfl
@[simp] theorem State.setReg_pages (s : State) (a : Nat) (v : Word) : (s.setReg a v).pages = s.pages := rfl
@[simp] theorem State.setReg_mem (s : State) (a : Nat) (v : Word) : (s.setReg a v).mem = s.mem := rfl
@[simp] theorem State.setReg_ldt (s : State) (a : Nat) (v : Word) : (s.setReg a v).ldt = s.ldt := rfl
@[simp] theorem State.setReg_ctx (s : State) (a : Nat) (v : Word) : (s.setReg a v).ctx = s.ctx := rfl
@[simp] theorem State.setReg_rgn (s : State) (a : Nat) (v : Word) : (s.setReg a v).rgn = s.rgn := rfl
@[simp] theorem State.setReg_sec (s : State) (a : Nat) (v : Word) : (s.setReg a v).sec = s.sec := rfl
@[simp] theorem State.setReg_sw (s : State) (a : Nat) (v : Word) : (s.setReg a v).sw = s.sw := rfl
@[simp] theorem State.setReg_mark (s : State) (a : Nat) (v : Word) : (s.setReg a v).mark = s.mark := rfl
@[simp] theorem State.setReg_grog (s : State) (a : Nat) (v : Word) : (s.setReg a v).grog = s.grog := rfl
@[simp] theorem State.setReg_ware (s : State) (a : Nat) (v : Word) : (s.setReg a v).ware = s.ware := rfl
@[simp] theorem State.setReg_lmap (s : State) (a : Nat) (v : Word) : (s.setReg a v).lmap = s.lmap := rfl
@[simp] theorem State.setReg_slip (s : State) (a : Nat) (v : Word) : (s.setReg a v).slip = s.slip := rfl
@[simp] theorem State.setReg_nvf (s : State) (a : Nat) (v : Word) : (s.setReg a v).nvf = s.nvf := rfl
@[simp] theorem State.setReg_conns (s : State) (a : Nat) (v : Word) : (s.setReg a v).conns = s.conns := rfl
@[simp] theorem State.setReg_ten (s : State) (a : Nat) (v : Word) : (s.setReg a v).ten = s.ten := rfl
@[simp] theorem State.setReg_peer (s : State) (a : Nat) (v : Word) : (s.setReg a v).peer = s.peer := rfl
@[simp] theorem State.setReg_back (s : State) (a : Nat) (v : Word) : (s.setReg a v).back = s.back := rfl
@[simp] theorem State.setReg_links (s : State) (a : Nat) (v : Word) : (s.setReg a v).links = s.links := rfl
@[simp] theorem State.setReg_svc (s : State) (a : Nat) (v : Word) : (s.setReg a v).svc = s.svc := rfl
@[simp] theorem State.setReg_upd (s : State) (a : Nat) (v : Word) : (s.setReg a v).upd = s.upd := rfl
@[simp] theorem State.setReg_plat (s : State) (a : Nat) (v : Word) : (s.setReg a v).plat = s.plat := rfl

/-! `setFld` -/

@[simp] theorem State.setFld_pending (s : State) (f : Fld) (v : Nat) : (s.setFld f v).pending = s.pending := rfl
@[simp] theorem State.setFld_free (s : State) (f : Fld) (v : Nat) : (s.setFld f v).free = s.free := rfl
@[simp] theorem State.setFld_out (s : State) (f : Fld) (v : Nat) : (s.setFld f v).out = s.out := rfl
@[simp] theorem State.setFld_pages (s : State) (f : Fld) (v : Nat) : (s.setFld f v).pages = s.pages := rfl
@[simp] theorem State.setFld_mem (s : State) (f : Fld) (v : Nat) : (s.setFld f v).mem = s.mem := rfl
@[simp] theorem State.setFld_ldt (s : State) (f : Fld) (v : Nat) : (s.setFld f v).ldt = s.ldt := rfl
@[simp] theorem State.setFld_ctx (s : State) (f : Fld) (v : Nat) : (s.setFld f v).ctx = s.ctx := rfl
@[simp] theorem State.setFld_rgn (s : State) (f : Fld) (v : Nat) : (s.setFld f v).rgn = s.rgn := rfl
@[simp] theorem State.setFld_sec (s : State) (f : Fld) (v : Nat) : (s.setFld f v).sec = s.sec := rfl
@[simp] theorem State.setFld_sw (s : State) (f : Fld) (v : Nat) : (s.setFld f v).sw = s.sw := rfl
@[simp] theorem State.setFld_mark (s : State) (f : Fld) (v : Nat) : (s.setFld f v).mark = s.mark := rfl
@[simp] theorem State.setFld_grog (s : State) (f : Fld) (v : Nat) : (s.setFld f v).grog = s.grog := rfl
@[simp] theorem State.setFld_ware (s : State) (f : Fld) (v : Nat) : (s.setFld f v).ware = s.ware := rfl
@[simp] theorem State.setFld_lmap (s : State) (f : Fld) (v : Nat) : (s.setFld f v).lmap = s.lmap := rfl
@[simp] theorem State.setFld_slip (s : State) (f : Fld) (v : Nat) : (s.setFld f v).slip = s.slip := rfl
@[simp] theorem State.setFld_nvf (s : State) (f : Fld) (v : Nat) : (s.setFld f v).nvf = s.nvf := rfl
@[simp] theorem State.setFld_conns (s : State) (f : Fld) (v : Nat) : (s.setFld f v).conns = s.conns := rfl
@[simp] theorem State.setFld_ten (s : State) (f : Fld) (v : Nat) : (s.setFld f v).ten = s.ten := rfl
@[simp] theorem State.setFld_peer (s : State) (f : Fld) (v : Nat) : (s.setFld f v).peer = s.peer := rfl
@[simp] theorem State.setFld_back (s : State) (f : Fld) (v : Nat) : (s.setFld f v).back = s.back := rfl
@[simp] theorem State.setFld_links (s : State) (f : Fld) (v : Nat) : (s.setFld f v).links = s.links := rfl
@[simp] theorem State.setFld_svc (s : State) (f : Fld) (v : Nat) : (s.setFld f v).svc = s.svc := rfl
@[simp] theorem State.setFld_upd (s : State) (f : Fld) (v : Nat) : (s.setFld f v).upd = s.upd := rfl
@[simp] theorem State.setFld_plat (s : State) (f : Fld) (v : Nat) : (s.setFld f v).plat = s.plat := rfl

/-! `bump` -/

@[simp] theorem State.bump_pending (s : State) (f : Fld) (n : Nat) : (s.bump f n).pending = s.pending := rfl
@[simp] theorem State.bump_free (s : State) (f : Fld) (n : Nat) : (s.bump f n).free = s.free := rfl
@[simp] theorem State.bump_out (s : State) (f : Fld) (n : Nat) : (s.bump f n).out = s.out := rfl
@[simp] theorem State.bump_pages (s : State) (f : Fld) (n : Nat) : (s.bump f n).pages = s.pages := rfl
@[simp] theorem State.bump_mem (s : State) (f : Fld) (n : Nat) : (s.bump f n).mem = s.mem := rfl
@[simp] theorem State.bump_ldt (s : State) (f : Fld) (n : Nat) : (s.bump f n).ldt = s.ldt := rfl
@[simp] theorem State.bump_ctx (s : State) (f : Fld) (n : Nat) : (s.bump f n).ctx = s.ctx := rfl
@[simp] theorem State.bump_rgn (s : State) (f : Fld) (n : Nat) : (s.bump f n).rgn = s.rgn := rfl
@[simp] theorem State.bump_sec (s : State) (f : Fld) (n : Nat) : (s.bump f n).sec = s.sec := rfl
@[simp] theorem State.bump_sw (s : State) (f : Fld) (n : Nat) : (s.bump f n).sw = s.sw := rfl
@[simp] theorem State.bump_mark (s : State) (f : Fld) (n : Nat) : (s.bump f n).mark = s.mark := rfl
@[simp] theorem State.bump_grog (s : State) (f : Fld) (n : Nat) : (s.bump f n).grog = s.grog := rfl
@[simp] theorem State.bump_ware (s : State) (f : Fld) (n : Nat) : (s.bump f n).ware = s.ware := rfl
@[simp] theorem State.bump_lmap (s : State) (f : Fld) (n : Nat) : (s.bump f n).lmap = s.lmap := rfl
@[simp] theorem State.bump_slip (s : State) (f : Fld) (n : Nat) : (s.bump f n).slip = s.slip := rfl
@[simp] theorem State.bump_nvf (s : State) (f : Fld) (n : Nat) : (s.bump f n).nvf = s.nvf := rfl
@[simp] theorem State.bump_conns (s : State) (f : Fld) (n : Nat) : (s.bump f n).conns = s.conns := rfl
@[simp] theorem State.bump_ten (s : State) (f : Fld) (n : Nat) : (s.bump f n).ten = s.ten := rfl
@[simp] theorem State.bump_peer (s : State) (f : Fld) (n : Nat) : (s.bump f n).peer = s.peer := rfl
@[simp] theorem State.bump_back (s : State) (f : Fld) (n : Nat) : (s.bump f n).back = s.back := rfl
@[simp] theorem State.bump_links (s : State) (f : Fld) (n : Nat) : (s.bump f n).links = s.links := rfl
@[simp] theorem State.bump_svc (s : State) (f : Fld) (n : Nat) : (s.bump f n).svc = s.svc := rfl
@[simp] theorem State.bump_upd (s : State) (f : Fld) (n : Nat) : (s.bump f n).upd = s.upd := rfl
@[simp] theorem State.bump_plat (s : State) (f : Fld) (n : Nat) : (s.bump f n).plat = s.plat := rfl

/-! `setReg64` -/

@[simp] theorem State.setReg64_pending (s : State) (a v : Nat) : (s.setReg64 a v).pending = s.pending := rfl
@[simp] theorem State.setReg64_free (s : State) (a v : Nat) : (s.setReg64 a v).free = s.free := rfl
@[simp] theorem State.setReg64_out (s : State) (a v : Nat) : (s.setReg64 a v).out = s.out := rfl
@[simp] theorem State.setReg64_pages (s : State) (a v : Nat) : (s.setReg64 a v).pages = s.pages := rfl
@[simp] theorem State.setReg64_mem (s : State) (a v : Nat) : (s.setReg64 a v).mem = s.mem := rfl
@[simp] theorem State.setReg64_ldt (s : State) (a v : Nat) : (s.setReg64 a v).ldt = s.ldt := rfl
@[simp] theorem State.setReg64_ctx (s : State) (a v : Nat) : (s.setReg64 a v).ctx = s.ctx := rfl
@[simp] theorem State.setReg64_rgn (s : State) (a v : Nat) : (s.setReg64 a v).rgn = s.rgn := rfl
@[simp] theorem State.setReg64_sec (s : State) (a v : Nat) : (s.setReg64 a v).sec = s.sec := rfl
@[simp] theorem State.setReg64_sw (s : State) (a v : Nat) : (s.setReg64 a v).sw = s.sw := rfl
@[simp] theorem State.setReg64_mark (s : State) (a v : Nat) : (s.setReg64 a v).mark = s.mark := rfl
@[simp] theorem State.setReg64_grog (s : State) (a v : Nat) : (s.setReg64 a v).grog = s.grog := rfl
@[simp] theorem State.setReg64_ware (s : State) (a v : Nat) : (s.setReg64 a v).ware = s.ware := rfl
@[simp] theorem State.setReg64_lmap (s : State) (a v : Nat) : (s.setReg64 a v).lmap = s.lmap := rfl
@[simp] theorem State.setReg64_slip (s : State) (a v : Nat) : (s.setReg64 a v).slip = s.slip := rfl
@[simp] theorem State.setReg64_nvf (s : State) (a v : Nat) : (s.setReg64 a v).nvf = s.nvf := rfl
@[simp] theorem State.setReg64_conns (s : State) (a v : Nat) : (s.setReg64 a v).conns = s.conns := rfl
@[simp] theorem State.setReg64_ten (s : State) (a v : Nat) : (s.setReg64 a v).ten = s.ten := rfl
@[simp] theorem State.setReg64_peer (s : State) (a v : Nat) : (s.setReg64 a v).peer = s.peer := rfl
@[simp] theorem State.setReg64_back (s : State) (a v : Nat) : (s.setReg64 a v).back = s.back := rfl
@[simp] theorem State.setReg64_links (s : State) (a v : Nat) : (s.setReg64 a v).links = s.links := rfl
@[simp] theorem State.setReg64_svc (s : State) (a v : Nat) : (s.setReg64 a v).svc = s.svc := rfl
@[simp] theorem State.setReg64_upd (s : State) (a v : Nat) : (s.setReg64 a v).upd = s.upd := rfl
@[simp] theorem State.setReg64_plat (s : State) (a v : Nat) : (s.setReg64 a v).plat = s.plat := rfl

/-! `consume` -/

@[simp] theorem State.consume_pending (s : State) : (s.consume).pending = s.pending := rfl
@[simp] theorem State.consume_free (s : State) : (s.consume).free = s.free := rfl
@[simp] theorem State.consume_out (s : State) : (s.consume).out = s.out := rfl
@[simp] theorem State.consume_pages (s : State) : (s.consume).pages = s.pages := rfl
@[simp] theorem State.consume_regs (s : State) : (s.consume).regs = s.regs := rfl
@[simp] theorem State.consume_mem (s : State) : (s.consume).mem = s.mem := rfl
@[simp] theorem State.consume_ldt (s : State) : (s.consume).ldt = s.ldt := rfl
@[simp] theorem State.consume_ctx (s : State) : (s.consume).ctx = s.ctx := rfl
@[simp] theorem State.consume_rgn (s : State) : (s.consume).rgn = s.rgn := rfl
@[simp] theorem State.consume_sec (s : State) : (s.consume).sec = s.sec := rfl
@[simp] theorem State.consume_sw (s : State) : (s.consume).sw = s.sw := rfl
@[simp] theorem State.consume_mark (s : State) : (s.consume).mark = s.mark := rfl
@[simp] theorem State.consume_grog (s : State) : (s.consume).grog = s.grog := rfl
@[simp] theorem State.consume_ware (s : State) : (s.consume).ware = s.ware := rfl
@[simp] theorem State.consume_lmap (s : State) : (s.consume).lmap = s.lmap := rfl
@[simp] theorem State.consume_slip (s : State) : (s.consume).slip = s.slip := rfl
@[simp] theorem State.consume_nvf (s : State) : (s.consume).nvf = s.nvf := rfl
@[simp] theorem State.consume_conns (s : State) : (s.consume).conns = s.conns := rfl
@[simp] theorem State.consume_ten (s : State) : (s.consume).ten = s.ten := rfl
@[simp] theorem State.consume_peer (s : State) : (s.consume).peer = s.peer := rfl
@[simp] theorem State.consume_back (s : State) : (s.consume).back = s.back := rfl
@[simp] theorem State.consume_links (s : State) : (s.consume).links = s.links := rfl
@[simp] theorem State.consume_svc (s : State) : (s.consume).svc = s.svc := rfl
@[simp] theorem State.consume_upd (s : State) : (s.consume).upd = s.upd := rfl
@[simp] theorem State.consume_time (s : State) : (s.consume).plat.time = s.plat.time := rfl
@[simp] theorem State.consume_store (s : State) : (s.consume).plat.store = s.plat.store := rfl
@[simp] theorem State.consume_islands (s : State) : (s.consume).plat.islands = s.plat.islands := rfl
@[simp] theorem State.consume_crossings (s : State) : (s.consume).plat.crossings = s.plat.crossings := rfl
@[simp] theorem State.consume_pwr (s : State) : (s.consume).plat.pwr = s.plat.pwr := rfl
@[simp] theorem State.consume_aon (s : State) : (s.consume).plat.aon = s.plat.aon := rfl
@[simp] theorem State.consume_clus (s : State) : (s.consume).plat.clus = s.plat.clus := rfl
@[simp] theorem State.consume_imsic (s : State) : (s.consume).plat.imsic = s.plat.imsic := rfl
@[simp] theorem State.consume_chip (s : State) : (s.consume).plat.chip = s.plat.chip := rfl
@[simp] theorem State.consume_pins (s : State) : (s.consume).plat.pins = s.plat.pins := rfl

/-! `writeSector` -/

@[simp] theorem State.writeSector_pending (s : State) (a : Nat) (bs : List Byte) : (s.writeSector a bs).pending = s.pending := by obtain ⟨_, h⟩ := State.writeSector_shape s a bs; rw [h]
@[simp] theorem State.writeSector_free (s : State) (a : Nat) (bs : List Byte) : (s.writeSector a bs).free = s.free := by obtain ⟨_, h⟩ := State.writeSector_shape s a bs; rw [h]
@[simp] theorem State.writeSector_out (s : State) (a : Nat) (bs : List Byte) : (s.writeSector a bs).out = s.out := by obtain ⟨_, h⟩ := State.writeSector_shape s a bs; rw [h]
@[simp] theorem State.writeSector_pages (s : State) (a : Nat) (bs : List Byte) : (s.writeSector a bs).pages = s.pages := by obtain ⟨_, h⟩ := State.writeSector_shape s a bs; rw [h]
@[simp] theorem State.writeSector_ldt (s : State) (a : Nat) (bs : List Byte) : (s.writeSector a bs).ldt = s.ldt := by obtain ⟨_, h⟩ := State.writeSector_shape s a bs; rw [h]
@[simp] theorem State.writeSector_ctx (s : State) (a : Nat) (bs : List Byte) : (s.writeSector a bs).ctx = s.ctx := by obtain ⟨_, h⟩ := State.writeSector_shape s a bs; rw [h]
@[simp] theorem State.writeSector_rgn (s : State) (a : Nat) (bs : List Byte) : (s.writeSector a bs).rgn = s.rgn := by obtain ⟨_, h⟩ := State.writeSector_shape s a bs; rw [h]
@[simp] theorem State.writeSector_sec (s : State) (a : Nat) (bs : List Byte) : (s.writeSector a bs).sec = s.sec := by obtain ⟨_, h⟩ := State.writeSector_shape s a bs; rw [h]
@[simp] theorem State.writeSector_sw (s : State) (a : Nat) (bs : List Byte) : (s.writeSector a bs).sw = s.sw := by obtain ⟨_, h⟩ := State.writeSector_shape s a bs; rw [h]
@[simp] theorem State.writeSector_mark (s : State) (a : Nat) (bs : List Byte) : (s.writeSector a bs).mark = s.mark := by obtain ⟨_, h⟩ := State.writeSector_shape s a bs; rw [h]
@[simp] theorem State.writeSector_grog (s : State) (a : Nat) (bs : List Byte) : (s.writeSector a bs).grog = s.grog := by obtain ⟨_, h⟩ := State.writeSector_shape s a bs; rw [h]
@[simp] theorem State.writeSector_ware (s : State) (a : Nat) (bs : List Byte) : (s.writeSector a bs).ware = s.ware := by obtain ⟨_, h⟩ := State.writeSector_shape s a bs; rw [h]
@[simp] theorem State.writeSector_lmap (s : State) (a : Nat) (bs : List Byte) : (s.writeSector a bs).lmap = s.lmap := by obtain ⟨_, h⟩ := State.writeSector_shape s a bs; rw [h]
@[simp] theorem State.writeSector_slip (s : State) (a : Nat) (bs : List Byte) : (s.writeSector a bs).slip = s.slip := by obtain ⟨_, h⟩ := State.writeSector_shape s a bs; rw [h]
@[simp] theorem State.writeSector_nvf (s : State) (a : Nat) (bs : List Byte) : (s.writeSector a bs).nvf = s.nvf := by obtain ⟨_, h⟩ := State.writeSector_shape s a bs; rw [h]
@[simp] theorem State.writeSector_conns (s : State) (a : Nat) (bs : List Byte) : (s.writeSector a bs).conns = s.conns := by obtain ⟨_, h⟩ := State.writeSector_shape s a bs; rw [h]
@[simp] theorem State.writeSector_ten (s : State) (a : Nat) (bs : List Byte) : (s.writeSector a bs).ten = s.ten := by obtain ⟨_, h⟩ := State.writeSector_shape s a bs; rw [h]
@[simp] theorem State.writeSector_peer (s : State) (a : Nat) (bs : List Byte) : (s.writeSector a bs).peer = s.peer := by obtain ⟨_, h⟩ := State.writeSector_shape s a bs; rw [h]
@[simp] theorem State.writeSector_back (s : State) (a : Nat) (bs : List Byte) : (s.writeSector a bs).back = s.back := by obtain ⟨_, h⟩ := State.writeSector_shape s a bs; rw [h]
@[simp] theorem State.writeSector_links (s : State) (a : Nat) (bs : List Byte) : (s.writeSector a bs).links = s.links := by obtain ⟨_, h⟩ := State.writeSector_shape s a bs; rw [h]
@[simp] theorem State.writeSector_svc (s : State) (a : Nat) (bs : List Byte) : (s.writeSector a bs).svc = s.svc := by obtain ⟨_, h⟩ := State.writeSector_shape s a bs; rw [h]
@[simp] theorem State.writeSector_upd (s : State) (a : Nat) (bs : List Byte) : (s.writeSector a bs).upd = s.upd := by obtain ⟨_, h⟩ := State.writeSector_shape s a bs; rw [h]
@[simp] theorem State.writeSector_plat (s : State) (a : Nat) (bs : List Byte) : (s.writeSector a bs).plat = s.plat := by obtain ⟨_, h⟩ := State.writeSector_shape s a bs; rw [h]

/-! `hbmWrite` -/

@[simp] theorem State.hbmWrite_pending (s : State) (a : Nat) (bs : List Byte) : (s.hbmWrite a bs).pending = s.pending := by obtain ⟨_, h⟩ := State.hbmWrite_shape s a bs; rw [h]
@[simp] theorem State.hbmWrite_free (s : State) (a : Nat) (bs : List Byte) : (s.hbmWrite a bs).free = s.free := by obtain ⟨_, h⟩ := State.hbmWrite_shape s a bs; rw [h]
@[simp] theorem State.hbmWrite_out (s : State) (a : Nat) (bs : List Byte) : (s.hbmWrite a bs).out = s.out := by obtain ⟨_, h⟩ := State.hbmWrite_shape s a bs; rw [h]
@[simp] theorem State.hbmWrite_pages (s : State) (a : Nat) (bs : List Byte) : (s.hbmWrite a bs).pages = s.pages := by obtain ⟨_, h⟩ := State.hbmWrite_shape s a bs; rw [h]
@[simp] theorem State.hbmWrite_ldt (s : State) (a : Nat) (bs : List Byte) : (s.hbmWrite a bs).ldt = s.ldt := by obtain ⟨_, h⟩ := State.hbmWrite_shape s a bs; rw [h]
@[simp] theorem State.hbmWrite_ctx (s : State) (a : Nat) (bs : List Byte) : (s.hbmWrite a bs).ctx = s.ctx := by obtain ⟨_, h⟩ := State.hbmWrite_shape s a bs; rw [h]
@[simp] theorem State.hbmWrite_rgn (s : State) (a : Nat) (bs : List Byte) : (s.hbmWrite a bs).rgn = s.rgn := by obtain ⟨_, h⟩ := State.hbmWrite_shape s a bs; rw [h]
@[simp] theorem State.hbmWrite_sec (s : State) (a : Nat) (bs : List Byte) : (s.hbmWrite a bs).sec = s.sec := by obtain ⟨_, h⟩ := State.hbmWrite_shape s a bs; rw [h]
@[simp] theorem State.hbmWrite_sw (s : State) (a : Nat) (bs : List Byte) : (s.hbmWrite a bs).sw = s.sw := by obtain ⟨_, h⟩ := State.hbmWrite_shape s a bs; rw [h]
@[simp] theorem State.hbmWrite_mark (s : State) (a : Nat) (bs : List Byte) : (s.hbmWrite a bs).mark = s.mark := by obtain ⟨_, h⟩ := State.hbmWrite_shape s a bs; rw [h]
@[simp] theorem State.hbmWrite_grog (s : State) (a : Nat) (bs : List Byte) : (s.hbmWrite a bs).grog = s.grog := by obtain ⟨_, h⟩ := State.hbmWrite_shape s a bs; rw [h]
@[simp] theorem State.hbmWrite_ware (s : State) (a : Nat) (bs : List Byte) : (s.hbmWrite a bs).ware = s.ware := by obtain ⟨_, h⟩ := State.hbmWrite_shape s a bs; rw [h]
@[simp] theorem State.hbmWrite_lmap (s : State) (a : Nat) (bs : List Byte) : (s.hbmWrite a bs).lmap = s.lmap := by obtain ⟨_, h⟩ := State.hbmWrite_shape s a bs; rw [h]
@[simp] theorem State.hbmWrite_slip (s : State) (a : Nat) (bs : List Byte) : (s.hbmWrite a bs).slip = s.slip := by obtain ⟨_, h⟩ := State.hbmWrite_shape s a bs; rw [h]
@[simp] theorem State.hbmWrite_nvf (s : State) (a : Nat) (bs : List Byte) : (s.hbmWrite a bs).nvf = s.nvf := by obtain ⟨_, h⟩ := State.hbmWrite_shape s a bs; rw [h]
@[simp] theorem State.hbmWrite_conns (s : State) (a : Nat) (bs : List Byte) : (s.hbmWrite a bs).conns = s.conns := by obtain ⟨_, h⟩ := State.hbmWrite_shape s a bs; rw [h]
@[simp] theorem State.hbmWrite_ten (s : State) (a : Nat) (bs : List Byte) : (s.hbmWrite a bs).ten = s.ten := by obtain ⟨_, h⟩ := State.hbmWrite_shape s a bs; rw [h]
@[simp] theorem State.hbmWrite_peer (s : State) (a : Nat) (bs : List Byte) : (s.hbmWrite a bs).peer = s.peer := by obtain ⟨_, h⟩ := State.hbmWrite_shape s a bs; rw [h]
@[simp] theorem State.hbmWrite_back (s : State) (a : Nat) (bs : List Byte) : (s.hbmWrite a bs).back = s.back := by obtain ⟨_, h⟩ := State.hbmWrite_shape s a bs; rw [h]
@[simp] theorem State.hbmWrite_links (s : State) (a : Nat) (bs : List Byte) : (s.hbmWrite a bs).links = s.links := by obtain ⟨_, h⟩ := State.hbmWrite_shape s a bs; rw [h]
@[simp] theorem State.hbmWrite_svc (s : State) (a : Nat) (bs : List Byte) : (s.hbmWrite a bs).svc = s.svc := by obtain ⟨_, h⟩ := State.hbmWrite_shape s a bs; rw [h]
@[simp] theorem State.hbmWrite_upd (s : State) (a : Nat) (bs : List Byte) : (s.hbmWrite a bs).upd = s.upd := by obtain ⟨_, h⟩ := State.hbmWrite_shape s a bs; rw [h]
@[simp] theorem State.hbmWrite_plat (s : State) (a : Nat) (bs : List Byte) : (s.hbmWrite a bs).plat = s.plat := by obtain ⟨_, h⟩ := State.hbmWrite_shape s a bs; rw [h]

/-! `irqMessage` -/

@[simp] theorem State.irqMessage_pending (s : State) (p : Nat) : (s.irqMessage p).pending = s.pending := by obtain ⟨_, h⟩ := State.irqMessage_shape s p; rw [h]
@[simp] theorem State.irqMessage_free (s : State) (p : Nat) : (s.irqMessage p).free = s.free := by obtain ⟨_, h⟩ := State.irqMessage_shape s p; rw [h]
@[simp] theorem State.irqMessage_pages (s : State) (p : Nat) : (s.irqMessage p).pages = s.pages := by obtain ⟨_, h⟩ := State.irqMessage_shape s p; rw [h]
@[simp] theorem State.irqMessage_regs (s : State) (p : Nat) : (s.irqMessage p).regs = s.regs := by obtain ⟨_, h⟩ := State.irqMessage_shape s p; rw [h]
@[simp] theorem State.irqMessage_mem (s : State) (p : Nat) : (s.irqMessage p).mem = s.mem := by obtain ⟨_, h⟩ := State.irqMessage_shape s p; rw [h]
@[simp] theorem State.irqMessage_ldt (s : State) (p : Nat) : (s.irqMessage p).ldt = s.ldt := by obtain ⟨_, h⟩ := State.irqMessage_shape s p; rw [h]
@[simp] theorem State.irqMessage_ctx (s : State) (p : Nat) : (s.irqMessage p).ctx = s.ctx := by obtain ⟨_, h⟩ := State.irqMessage_shape s p; rw [h]
@[simp] theorem State.irqMessage_rgn (s : State) (p : Nat) : (s.irqMessage p).rgn = s.rgn := by obtain ⟨_, h⟩ := State.irqMessage_shape s p; rw [h]
@[simp] theorem State.irqMessage_sec (s : State) (p : Nat) : (s.irqMessage p).sec = s.sec := by obtain ⟨_, h⟩ := State.irqMessage_shape s p; rw [h]
@[simp] theorem State.irqMessage_sw (s : State) (p : Nat) : (s.irqMessage p).sw = s.sw := by obtain ⟨_, h⟩ := State.irqMessage_shape s p; rw [h]
@[simp] theorem State.irqMessage_mark (s : State) (p : Nat) : (s.irqMessage p).mark = s.mark := by obtain ⟨_, h⟩ := State.irqMessage_shape s p; rw [h]
@[simp] theorem State.irqMessage_grog (s : State) (p : Nat) : (s.irqMessage p).grog = s.grog := by obtain ⟨_, h⟩ := State.irqMessage_shape s p; rw [h]
@[simp] theorem State.irqMessage_ware (s : State) (p : Nat) : (s.irqMessage p).ware = s.ware := by obtain ⟨_, h⟩ := State.irqMessage_shape s p; rw [h]
@[simp] theorem State.irqMessage_lmap (s : State) (p : Nat) : (s.irqMessage p).lmap = s.lmap := by obtain ⟨_, h⟩ := State.irqMessage_shape s p; rw [h]
@[simp] theorem State.irqMessage_slip (s : State) (p : Nat) : (s.irqMessage p).slip = s.slip := by obtain ⟨_, h⟩ := State.irqMessage_shape s p; rw [h]
@[simp] theorem State.irqMessage_nvf (s : State) (p : Nat) : (s.irqMessage p).nvf = s.nvf := by obtain ⟨_, h⟩ := State.irqMessage_shape s p; rw [h]
@[simp] theorem State.irqMessage_conns (s : State) (p : Nat) : (s.irqMessage p).conns = s.conns := by obtain ⟨_, h⟩ := State.irqMessage_shape s p; rw [h]
@[simp] theorem State.irqMessage_ten (s : State) (p : Nat) : (s.irqMessage p).ten = s.ten := by obtain ⟨_, h⟩ := State.irqMessage_shape s p; rw [h]
@[simp] theorem State.irqMessage_peer (s : State) (p : Nat) : (s.irqMessage p).peer = s.peer := by obtain ⟨_, h⟩ := State.irqMessage_shape s p; rw [h]
@[simp] theorem State.irqMessage_back (s : State) (p : Nat) : (s.irqMessage p).back = s.back := by obtain ⟨_, h⟩ := State.irqMessage_shape s p; rw [h]
@[simp] theorem State.irqMessage_links (s : State) (p : Nat) : (s.irqMessage p).links = s.links := by obtain ⟨_, h⟩ := State.irqMessage_shape s p; rw [h]
@[simp] theorem State.irqMessage_svc (s : State) (p : Nat) : (s.irqMessage p).svc = s.svc := by obtain ⟨_, h⟩ := State.irqMessage_shape s p; rw [h]
@[simp] theorem State.irqMessage_upd (s : State) (p : Nat) : (s.irqMessage p).upd = s.upd := by obtain ⟨_, h⟩ := State.irqMessage_shape s p; rw [h]
@[simp] theorem State.irqMessage_evt (s : State) (p : Nat) : (s.irqMessage p).plat.evt = s.plat.evt := by obtain ⟨_, h⟩ := State.irqMessage_shape s p; rw [h]
@[simp] theorem State.irqMessage_time (s : State) (p : Nat) : (s.irqMessage p).plat.time = s.plat.time := by obtain ⟨_, h⟩ := State.irqMessage_shape s p; rw [h]
@[simp] theorem State.irqMessage_store (s : State) (p : Nat) : (s.irqMessage p).plat.store = s.plat.store := by obtain ⟨_, h⟩ := State.irqMessage_shape s p; rw [h]
@[simp] theorem State.irqMessage_islands (s : State) (p : Nat) : (s.irqMessage p).plat.islands = s.plat.islands := by obtain ⟨_, h⟩ := State.irqMessage_shape s p; rw [h]
@[simp] theorem State.irqMessage_crossings (s : State) (p : Nat) : (s.irqMessage p).plat.crossings = s.plat.crossings := by obtain ⟨_, h⟩ := State.irqMessage_shape s p; rw [h]
@[simp] theorem State.irqMessage_pwr (s : State) (p : Nat) : (s.irqMessage p).plat.pwr = s.plat.pwr := by obtain ⟨_, h⟩ := State.irqMessage_shape s p; rw [h]
@[simp] theorem State.irqMessage_aon (s : State) (p : Nat) : (s.irqMessage p).plat.aon = s.plat.aon := by obtain ⟨_, h⟩ := State.irqMessage_shape s p; rw [h]
@[simp] theorem State.irqMessage_clus (s : State) (p : Nat) : (s.irqMessage p).plat.clus = s.plat.clus := by obtain ⟨_, h⟩ := State.irqMessage_shape s p; rw [h]
@[simp] theorem State.irqMessage_chip (s : State) (p : Nat) : (s.irqMessage p).plat.chip = s.plat.chip := by obtain ⟨_, h⟩ := State.irqMessage_shape s p; rw [h]
@[simp] theorem State.irqMessage_pins (s : State) (p : Nat) : (s.irqMessage p).plat.pins = s.plat.pins := by obtain ⟨_, h⟩ := State.irqMessage_shape s p; rw [h]

/-! `irqSet` -/

@[simp] theorem State.irqSet_pending (s : State) (p : Nat) (v : Word) : (s.irqSet p v).pending = s.pending := by obtain ⟨_, h⟩ := State.irqSet_shape s p v; rw [h]
@[simp] theorem State.irqSet_free (s : State) (p : Nat) (v : Word) : (s.irqSet p v).free = s.free := by obtain ⟨_, h⟩ := State.irqSet_shape s p v; rw [h]
@[simp] theorem State.irqSet_regs (s : State) (p : Nat) (v : Word) : (s.irqSet p v).regs = s.regs := by obtain ⟨_, h⟩ := State.irqSet_shape s p v; rw [h]
@[simp] theorem State.irqSet_mem (s : State) (p : Nat) (v : Word) : (s.irqSet p v).mem = s.mem := by obtain ⟨_, h⟩ := State.irqSet_shape s p v; rw [h]
@[simp] theorem State.irqSet_ldt (s : State) (p : Nat) (v : Word) : (s.irqSet p v).ldt = s.ldt := by obtain ⟨_, h⟩ := State.irqSet_shape s p v; rw [h]
@[simp] theorem State.irqSet_ctx (s : State) (p : Nat) (v : Word) : (s.irqSet p v).ctx = s.ctx := by obtain ⟨_, h⟩ := State.irqSet_shape s p v; rw [h]
@[simp] theorem State.irqSet_rgn (s : State) (p : Nat) (v : Word) : (s.irqSet p v).rgn = s.rgn := by obtain ⟨_, h⟩ := State.irqSet_shape s p v; rw [h]
@[simp] theorem State.irqSet_sec (s : State) (p : Nat) (v : Word) : (s.irqSet p v).sec = s.sec := by obtain ⟨_, h⟩ := State.irqSet_shape s p v; rw [h]
@[simp] theorem State.irqSet_sw (s : State) (p : Nat) (v : Word) : (s.irqSet p v).sw = s.sw := by obtain ⟨_, h⟩ := State.irqSet_shape s p v; rw [h]
@[simp] theorem State.irqSet_mark (s : State) (p : Nat) (v : Word) : (s.irqSet p v).mark = s.mark := by obtain ⟨_, h⟩ := State.irqSet_shape s p v; rw [h]
@[simp] theorem State.irqSet_grog (s : State) (p : Nat) (v : Word) : (s.irqSet p v).grog = s.grog := by obtain ⟨_, h⟩ := State.irqSet_shape s p v; rw [h]
@[simp] theorem State.irqSet_ware (s : State) (p : Nat) (v : Word) : (s.irqSet p v).ware = s.ware := by obtain ⟨_, h⟩ := State.irqSet_shape s p v; rw [h]
@[simp] theorem State.irqSet_lmap (s : State) (p : Nat) (v : Word) : (s.irqSet p v).lmap = s.lmap := by obtain ⟨_, h⟩ := State.irqSet_shape s p v; rw [h]
@[simp] theorem State.irqSet_slip (s : State) (p : Nat) (v : Word) : (s.irqSet p v).slip = s.slip := by obtain ⟨_, h⟩ := State.irqSet_shape s p v; rw [h]
@[simp] theorem State.irqSet_nvf (s : State) (p : Nat) (v : Word) : (s.irqSet p v).nvf = s.nvf := by obtain ⟨_, h⟩ := State.irqSet_shape s p v; rw [h]
@[simp] theorem State.irqSet_conns (s : State) (p : Nat) (v : Word) : (s.irqSet p v).conns = s.conns := by obtain ⟨_, h⟩ := State.irqSet_shape s p v; rw [h]
@[simp] theorem State.irqSet_ten (s : State) (p : Nat) (v : Word) : (s.irqSet p v).ten = s.ten := by obtain ⟨_, h⟩ := State.irqSet_shape s p v; rw [h]
@[simp] theorem State.irqSet_peer (s : State) (p : Nat) (v : Word) : (s.irqSet p v).peer = s.peer := by obtain ⟨_, h⟩ := State.irqSet_shape s p v; rw [h]
@[simp] theorem State.irqSet_back (s : State) (p : Nat) (v : Word) : (s.irqSet p v).back = s.back := by obtain ⟨_, h⟩ := State.irqSet_shape s p v; rw [h]
@[simp] theorem State.irqSet_links (s : State) (p : Nat) (v : Word) : (s.irqSet p v).links = s.links := by obtain ⟨_, h⟩ := State.irqSet_shape s p v; rw [h]
@[simp] theorem State.irqSet_svc (s : State) (p : Nat) (v : Word) : (s.irqSet p v).svc = s.svc := by obtain ⟨_, h⟩ := State.irqSet_shape s p v; rw [h]
@[simp] theorem State.irqSet_upd (s : State) (p : Nat) (v : Word) : (s.irqSet p v).upd = s.upd := by obtain ⟨_, h⟩ := State.irqSet_shape s p v; rw [h]
@[simp] theorem State.irqSet_evt (s : State) (p : Nat) (v : Word) : (s.irqSet p v).plat.evt = s.plat.evt := by obtain ⟨_, h⟩ := State.irqSet_shape s p v; rw [h]
@[simp] theorem State.irqSet_time (s : State) (p : Nat) (v : Word) : (s.irqSet p v).plat.time = s.plat.time := by obtain ⟨_, h⟩ := State.irqSet_shape s p v; rw [h]
@[simp] theorem State.irqSet_store (s : State) (p : Nat) (v : Word) : (s.irqSet p v).plat.store = s.plat.store := by obtain ⟨_, h⟩ := State.irqSet_shape s p v; rw [h]
@[simp] theorem State.irqSet_islands (s : State) (p : Nat) (v : Word) : (s.irqSet p v).plat.islands = s.plat.islands := by obtain ⟨_, h⟩ := State.irqSet_shape s p v; rw [h]
@[simp] theorem State.irqSet_crossings (s : State) (p : Nat) (v : Word) : (s.irqSet p v).plat.crossings = s.plat.crossings := by obtain ⟨_, h⟩ := State.irqSet_shape s p v; rw [h]
@[simp] theorem State.irqSet_pwr (s : State) (p : Nat) (v : Word) : (s.irqSet p v).plat.pwr = s.plat.pwr := by obtain ⟨_, h⟩ := State.irqSet_shape s p v; rw [h]
@[simp] theorem State.irqSet_aon (s : State) (p : Nat) (v : Word) : (s.irqSet p v).plat.aon = s.plat.aon := by obtain ⟨_, h⟩ := State.irqSet_shape s p v; rw [h]
@[simp] theorem State.irqSet_clus (s : State) (p : Nat) (v : Word) : (s.irqSet p v).plat.clus = s.plat.clus := by obtain ⟨_, h⟩ := State.irqSet_shape s p v; rw [h]
@[simp] theorem State.irqSet_chip (s : State) (p : Nat) (v : Word) : (s.irqSet p v).plat.chip = s.plat.chip := by obtain ⟨_, h⟩ := State.irqSet_shape s p v; rw [h]
@[simp] theorem State.irqSet_pins (s : State) (p : Nat) (v : Word) : (s.irqSet p v).plat.pins = s.plat.pins := by obtain ⟨_, h⟩ := State.irqSet_shape s p v; rw [h]

/-! `irqBit` -/

@[simp] theorem State.irqBit_pending (s : State) (p i : Nat) : (s.irqBit p i).pending = s.pending := by obtain ⟨_, h⟩ := State.irqBit_shape s p i; rw [h]
@[simp] theorem State.irqBit_free (s : State) (p i : Nat) : (s.irqBit p i).free = s.free := by obtain ⟨_, h⟩ := State.irqBit_shape s p i; rw [h]
@[simp] theorem State.irqBit_regs (s : State) (p i : Nat) : (s.irqBit p i).regs = s.regs := by obtain ⟨_, h⟩ := State.irqBit_shape s p i; rw [h]
@[simp] theorem State.irqBit_mem (s : State) (p i : Nat) : (s.irqBit p i).mem = s.mem := by obtain ⟨_, h⟩ := State.irqBit_shape s p i; rw [h]
@[simp] theorem State.irqBit_ldt (s : State) (p i : Nat) : (s.irqBit p i).ldt = s.ldt := by obtain ⟨_, h⟩ := State.irqBit_shape s p i; rw [h]
@[simp] theorem State.irqBit_ctx (s : State) (p i : Nat) : (s.irqBit p i).ctx = s.ctx := by obtain ⟨_, h⟩ := State.irqBit_shape s p i; rw [h]
@[simp] theorem State.irqBit_rgn (s : State) (p i : Nat) : (s.irqBit p i).rgn = s.rgn := by obtain ⟨_, h⟩ := State.irqBit_shape s p i; rw [h]
@[simp] theorem State.irqBit_sec (s : State) (p i : Nat) : (s.irqBit p i).sec = s.sec := by obtain ⟨_, h⟩ := State.irqBit_shape s p i; rw [h]
@[simp] theorem State.irqBit_sw (s : State) (p i : Nat) : (s.irqBit p i).sw = s.sw := by obtain ⟨_, h⟩ := State.irqBit_shape s p i; rw [h]
@[simp] theorem State.irqBit_mark (s : State) (p i : Nat) : (s.irqBit p i).mark = s.mark := by obtain ⟨_, h⟩ := State.irqBit_shape s p i; rw [h]
@[simp] theorem State.irqBit_grog (s : State) (p i : Nat) : (s.irqBit p i).grog = s.grog := by obtain ⟨_, h⟩ := State.irqBit_shape s p i; rw [h]
@[simp] theorem State.irqBit_ware (s : State) (p i : Nat) : (s.irqBit p i).ware = s.ware := by obtain ⟨_, h⟩ := State.irqBit_shape s p i; rw [h]
@[simp] theorem State.irqBit_lmap (s : State) (p i : Nat) : (s.irqBit p i).lmap = s.lmap := by obtain ⟨_, h⟩ := State.irqBit_shape s p i; rw [h]
@[simp] theorem State.irqBit_slip (s : State) (p i : Nat) : (s.irqBit p i).slip = s.slip := by obtain ⟨_, h⟩ := State.irqBit_shape s p i; rw [h]
@[simp] theorem State.irqBit_nvf (s : State) (p i : Nat) : (s.irqBit p i).nvf = s.nvf := by obtain ⟨_, h⟩ := State.irqBit_shape s p i; rw [h]
@[simp] theorem State.irqBit_conns (s : State) (p i : Nat) : (s.irqBit p i).conns = s.conns := by obtain ⟨_, h⟩ := State.irqBit_shape s p i; rw [h]
@[simp] theorem State.irqBit_ten (s : State) (p i : Nat) : (s.irqBit p i).ten = s.ten := by obtain ⟨_, h⟩ := State.irqBit_shape s p i; rw [h]
@[simp] theorem State.irqBit_peer (s : State) (p i : Nat) : (s.irqBit p i).peer = s.peer := by obtain ⟨_, h⟩ := State.irqBit_shape s p i; rw [h]
@[simp] theorem State.irqBit_back (s : State) (p i : Nat) : (s.irqBit p i).back = s.back := by obtain ⟨_, h⟩ := State.irqBit_shape s p i; rw [h]
@[simp] theorem State.irqBit_links (s : State) (p i : Nat) : (s.irqBit p i).links = s.links := by obtain ⟨_, h⟩ := State.irqBit_shape s p i; rw [h]
@[simp] theorem State.irqBit_svc (s : State) (p i : Nat) : (s.irqBit p i).svc = s.svc := by obtain ⟨_, h⟩ := State.irqBit_shape s p i; rw [h]
@[simp] theorem State.irqBit_upd (s : State) (p i : Nat) : (s.irqBit p i).upd = s.upd := by obtain ⟨_, h⟩ := State.irqBit_shape s p i; rw [h]
@[simp] theorem State.irqBit_evt (s : State) (p i : Nat) : (s.irqBit p i).plat.evt = s.plat.evt := by obtain ⟨_, h⟩ := State.irqBit_shape s p i; rw [h]
@[simp] theorem State.irqBit_time (s : State) (p i : Nat) : (s.irqBit p i).plat.time = s.plat.time := by obtain ⟨_, h⟩ := State.irqBit_shape s p i; rw [h]
@[simp] theorem State.irqBit_store (s : State) (p i : Nat) : (s.irqBit p i).plat.store = s.plat.store := by obtain ⟨_, h⟩ := State.irqBit_shape s p i; rw [h]
@[simp] theorem State.irqBit_islands (s : State) (p i : Nat) : (s.irqBit p i).plat.islands = s.plat.islands := by obtain ⟨_, h⟩ := State.irqBit_shape s p i; rw [h]
@[simp] theorem State.irqBit_crossings (s : State) (p i : Nat) : (s.irqBit p i).plat.crossings = s.plat.crossings := by obtain ⟨_, h⟩ := State.irqBit_shape s p i; rw [h]
@[simp] theorem State.irqBit_pwr (s : State) (p i : Nat) : (s.irqBit p i).plat.pwr = s.plat.pwr := by obtain ⟨_, h⟩ := State.irqBit_shape s p i; rw [h]
@[simp] theorem State.irqBit_aon (s : State) (p i : Nat) : (s.irqBit p i).plat.aon = s.plat.aon := by obtain ⟨_, h⟩ := State.irqBit_shape s p i; rw [h]
@[simp] theorem State.irqBit_clus (s : State) (p i : Nat) : (s.irqBit p i).plat.clus = s.plat.clus := by obtain ⟨_, h⟩ := State.irqBit_shape s p i; rw [h]
@[simp] theorem State.irqBit_chip (s : State) (p i : Nat) : (s.irqBit p i).plat.chip = s.plat.chip := by obtain ⟨_, h⟩ := State.irqBit_shape s p i; rw [h]
@[simp] theorem State.irqBit_pins (s : State) (p i : Nat) : (s.irqBit p i).plat.pins = s.plat.pins := by obtain ⟨_, h⟩ := State.irqBit_shape s p i; rw [h]

/-! `capture` -/

@[simp] theorem State.capture_pending (s : State) (p c a b : Nat) : (s.capture p c a b).pending = s.pending := by obtain ⟨_, h⟩ := State.capture_shape s p c a b; rw [h]
@[simp] theorem State.capture_free (s : State) (p c a b : Nat) : (s.capture p c a b).free = s.free := by obtain ⟨_, h⟩ := State.capture_shape s p c a b; rw [h]
@[simp] theorem State.capture_out (s : State) (p c a b : Nat) : (s.capture p c a b).out = s.out := by obtain ⟨_, h⟩ := State.capture_shape s p c a b; rw [h]
@[simp] theorem State.capture_regs (s : State) (p c a b : Nat) : (s.capture p c a b).regs = s.regs := by obtain ⟨_, h⟩ := State.capture_shape s p c a b; rw [h]
@[simp] theorem State.capture_mem (s : State) (p c a b : Nat) : (s.capture p c a b).mem = s.mem := by obtain ⟨_, h⟩ := State.capture_shape s p c a b; rw [h]
@[simp] theorem State.capture_ldt (s : State) (p c a b : Nat) : (s.capture p c a b).ldt = s.ldt := by obtain ⟨_, h⟩ := State.capture_shape s p c a b; rw [h]
@[simp] theorem State.capture_ctx (s : State) (p c a b : Nat) : (s.capture p c a b).ctx = s.ctx := by obtain ⟨_, h⟩ := State.capture_shape s p c a b; rw [h]
@[simp] theorem State.capture_rgn (s : State) (p c a b : Nat) : (s.capture p c a b).rgn = s.rgn := by obtain ⟨_, h⟩ := State.capture_shape s p c a b; rw [h]
@[simp] theorem State.capture_sec (s : State) (p c a b : Nat) : (s.capture p c a b).sec = s.sec := by obtain ⟨_, h⟩ := State.capture_shape s p c a b; rw [h]
@[simp] theorem State.capture_sw (s : State) (p c a b : Nat) : (s.capture p c a b).sw = s.sw := by obtain ⟨_, h⟩ := State.capture_shape s p c a b; rw [h]
@[simp] theorem State.capture_mark (s : State) (p c a b : Nat) : (s.capture p c a b).mark = s.mark := by obtain ⟨_, h⟩ := State.capture_shape s p c a b; rw [h]
@[simp] theorem State.capture_grog (s : State) (p c a b : Nat) : (s.capture p c a b).grog = s.grog := by obtain ⟨_, h⟩ := State.capture_shape s p c a b; rw [h]
@[simp] theorem State.capture_ware (s : State) (p c a b : Nat) : (s.capture p c a b).ware = s.ware := by obtain ⟨_, h⟩ := State.capture_shape s p c a b; rw [h]
@[simp] theorem State.capture_lmap (s : State) (p c a b : Nat) : (s.capture p c a b).lmap = s.lmap := by obtain ⟨_, h⟩ := State.capture_shape s p c a b; rw [h]
@[simp] theorem State.capture_slip (s : State) (p c a b : Nat) : (s.capture p c a b).slip = s.slip := by obtain ⟨_, h⟩ := State.capture_shape s p c a b; rw [h]
@[simp] theorem State.capture_nvf (s : State) (p c a b : Nat) : (s.capture p c a b).nvf = s.nvf := by obtain ⟨_, h⟩ := State.capture_shape s p c a b; rw [h]
@[simp] theorem State.capture_conns (s : State) (p c a b : Nat) : (s.capture p c a b).conns = s.conns := by obtain ⟨_, h⟩ := State.capture_shape s p c a b; rw [h]
@[simp] theorem State.capture_ten (s : State) (p c a b : Nat) : (s.capture p c a b).ten = s.ten := by obtain ⟨_, h⟩ := State.capture_shape s p c a b; rw [h]
@[simp] theorem State.capture_peer (s : State) (p c a b : Nat) : (s.capture p c a b).peer = s.peer := by obtain ⟨_, h⟩ := State.capture_shape s p c a b; rw [h]
@[simp] theorem State.capture_back (s : State) (p c a b : Nat) : (s.capture p c a b).back = s.back := by obtain ⟨_, h⟩ := State.capture_shape s p c a b; rw [h]
@[simp] theorem State.capture_links (s : State) (p c a b : Nat) : (s.capture p c a b).links = s.links := by obtain ⟨_, h⟩ := State.capture_shape s p c a b; rw [h]
@[simp] theorem State.capture_svc (s : State) (p c a b : Nat) : (s.capture p c a b).svc = s.svc := by obtain ⟨_, h⟩ := State.capture_shape s p c a b; rw [h]
@[simp] theorem State.capture_upd (s : State) (p c a b : Nat) : (s.capture p c a b).upd = s.upd := by obtain ⟨_, h⟩ := State.capture_shape s p c a b; rw [h]
@[simp] theorem State.capture_plat (s : State) (p c a b : Nat) : (s.capture p c a b).plat = s.plat := by obtain ⟨_, h⟩ := State.capture_shape s p c a b; rw [h]

/-! `hbmUncorr` -/

@[simp] theorem State.hbmUncorr_pending (s : State) (a : Nat) : (s.hbmUncorr a).pending = s.pending := by obtain ⟨_, h⟩ := State.hbmUncorr_shape s a; rw [h]
@[simp] theorem State.hbmUncorr_free (s : State) (a : Nat) : (s.hbmUncorr a).free = s.free := by obtain ⟨_, h⟩ := State.hbmUncorr_shape s a; rw [h]
@[simp] theorem State.hbmUncorr_mem (s : State) (a : Nat) : (s.hbmUncorr a).mem = s.mem := by obtain ⟨_, h⟩ := State.hbmUncorr_shape s a; rw [h]
@[simp] theorem State.hbmUncorr_ldt (s : State) (a : Nat) : (s.hbmUncorr a).ldt = s.ldt := by obtain ⟨_, h⟩ := State.hbmUncorr_shape s a; rw [h]
@[simp] theorem State.hbmUncorr_ctx (s : State) (a : Nat) : (s.hbmUncorr a).ctx = s.ctx := by obtain ⟨_, h⟩ := State.hbmUncorr_shape s a; rw [h]
@[simp] theorem State.hbmUncorr_rgn (s : State) (a : Nat) : (s.hbmUncorr a).rgn = s.rgn := by obtain ⟨_, h⟩ := State.hbmUncorr_shape s a; rw [h]
@[simp] theorem State.hbmUncorr_sec (s : State) (a : Nat) : (s.hbmUncorr a).sec = s.sec := by obtain ⟨_, h⟩ := State.hbmUncorr_shape s a; rw [h]
@[simp] theorem State.hbmUncorr_sw (s : State) (a : Nat) : (s.hbmUncorr a).sw = s.sw := by obtain ⟨_, h⟩ := State.hbmUncorr_shape s a; rw [h]
@[simp] theorem State.hbmUncorr_mark (s : State) (a : Nat) : (s.hbmUncorr a).mark = s.mark := by obtain ⟨_, h⟩ := State.hbmUncorr_shape s a; rw [h]
@[simp] theorem State.hbmUncorr_grog (s : State) (a : Nat) : (s.hbmUncorr a).grog = s.grog := by obtain ⟨_, h⟩ := State.hbmUncorr_shape s a; rw [h]
@[simp] theorem State.hbmUncorr_ware (s : State) (a : Nat) : (s.hbmUncorr a).ware = s.ware := by obtain ⟨_, h⟩ := State.hbmUncorr_shape s a; rw [h]
@[simp] theorem State.hbmUncorr_lmap (s : State) (a : Nat) : (s.hbmUncorr a).lmap = s.lmap := by obtain ⟨_, h⟩ := State.hbmUncorr_shape s a; rw [h]
@[simp] theorem State.hbmUncorr_slip (s : State) (a : Nat) : (s.hbmUncorr a).slip = s.slip := by obtain ⟨_, h⟩ := State.hbmUncorr_shape s a; rw [h]
@[simp] theorem State.hbmUncorr_nvf (s : State) (a : Nat) : (s.hbmUncorr a).nvf = s.nvf := by obtain ⟨_, h⟩ := State.hbmUncorr_shape s a; rw [h]
@[simp] theorem State.hbmUncorr_conns (s : State) (a : Nat) : (s.hbmUncorr a).conns = s.conns := by obtain ⟨_, h⟩ := State.hbmUncorr_shape s a; rw [h]
@[simp] theorem State.hbmUncorr_ten (s : State) (a : Nat) : (s.hbmUncorr a).ten = s.ten := by obtain ⟨_, h⟩ := State.hbmUncorr_shape s a; rw [h]
@[simp] theorem State.hbmUncorr_peer (s : State) (a : Nat) : (s.hbmUncorr a).peer = s.peer := by obtain ⟨_, h⟩ := State.hbmUncorr_shape s a; rw [h]
@[simp] theorem State.hbmUncorr_back (s : State) (a : Nat) : (s.hbmUncorr a).back = s.back := by obtain ⟨_, h⟩ := State.hbmUncorr_shape s a; rw [h]
@[simp] theorem State.hbmUncorr_links (s : State) (a : Nat) : (s.hbmUncorr a).links = s.links := by obtain ⟨_, h⟩ := State.hbmUncorr_shape s a; rw [h]
@[simp] theorem State.hbmUncorr_svc (s : State) (a : Nat) : (s.hbmUncorr a).svc = s.svc := by obtain ⟨_, h⟩ := State.hbmUncorr_shape s a; rw [h]
@[simp] theorem State.hbmUncorr_upd (s : State) (a : Nat) : (s.hbmUncorr a).upd = s.upd := by obtain ⟨_, h⟩ := State.hbmUncorr_shape s a; rw [h]
@[simp] theorem State.hbmUncorr_evt (s : State) (a : Nat) : (s.hbmUncorr a).plat.evt = s.plat.evt := by obtain ⟨_, h⟩ := State.hbmUncorr_shape s a; rw [h]
@[simp] theorem State.hbmUncorr_time (s : State) (a : Nat) : (s.hbmUncorr a).plat.time = s.plat.time := by obtain ⟨_, h⟩ := State.hbmUncorr_shape s a; rw [h]
@[simp] theorem State.hbmUncorr_store (s : State) (a : Nat) : (s.hbmUncorr a).plat.store = s.plat.store := by obtain ⟨_, h⟩ := State.hbmUncorr_shape s a; rw [h]
@[simp] theorem State.hbmUncorr_islands (s : State) (a : Nat) : (s.hbmUncorr a).plat.islands = s.plat.islands := by obtain ⟨_, h⟩ := State.hbmUncorr_shape s a; rw [h]
@[simp] theorem State.hbmUncorr_crossings (s : State) (a : Nat) : (s.hbmUncorr a).plat.crossings = s.plat.crossings := by obtain ⟨_, h⟩ := State.hbmUncorr_shape s a; rw [h]
@[simp] theorem State.hbmUncorr_pwr (s : State) (a : Nat) : (s.hbmUncorr a).plat.pwr = s.plat.pwr := by obtain ⟨_, h⟩ := State.hbmUncorr_shape s a; rw [h]
@[simp] theorem State.hbmUncorr_aon (s : State) (a : Nat) : (s.hbmUncorr a).plat.aon = s.plat.aon := by obtain ⟨_, h⟩ := State.hbmUncorr_shape s a; rw [h]
@[simp] theorem State.hbmUncorr_clus (s : State) (a : Nat) : (s.hbmUncorr a).plat.clus = s.plat.clus := by obtain ⟨_, h⟩ := State.hbmUncorr_shape s a; rw [h]
@[simp] theorem State.hbmUncorr_chip (s : State) (a : Nat) : (s.hbmUncorr a).plat.chip = s.plat.chip := by obtain ⟨_, h⟩ := State.hbmUncorr_shape s a; rw [h]
@[simp] theorem State.hbmUncorr_pins (s : State) (a : Nat) : (s.hbmUncorr a).plat.pins = s.plat.pins := by obtain ⟨_, h⟩ := State.hbmUncorr_shape s a; rw [h]

/-! `hbmCorr` -/

@[simp] theorem State.hbmCorr_pending (s : State) (a : Nat) : (s.hbmCorr a).pending = s.pending := rfl
@[simp] theorem State.hbmCorr_free (s : State) (a : Nat) : (s.hbmCorr a).free = s.free := rfl
@[simp] theorem State.hbmCorr_out (s : State) (a : Nat) : (s.hbmCorr a).out = s.out := rfl
@[simp] theorem State.hbmCorr_pages (s : State) (a : Nat) : (s.hbmCorr a).pages = s.pages := rfl
@[simp] theorem State.hbmCorr_mem (s : State) (a : Nat) : (s.hbmCorr a).mem = s.mem := rfl
@[simp] theorem State.hbmCorr_ldt (s : State) (a : Nat) : (s.hbmCorr a).ldt = s.ldt := rfl
@[simp] theorem State.hbmCorr_ctx (s : State) (a : Nat) : (s.hbmCorr a).ctx = s.ctx := rfl
@[simp] theorem State.hbmCorr_rgn (s : State) (a : Nat) : (s.hbmCorr a).rgn = s.rgn := rfl
@[simp] theorem State.hbmCorr_sec (s : State) (a : Nat) : (s.hbmCorr a).sec = s.sec := rfl
@[simp] theorem State.hbmCorr_sw (s : State) (a : Nat) : (s.hbmCorr a).sw = s.sw := rfl
@[simp] theorem State.hbmCorr_mark (s : State) (a : Nat) : (s.hbmCorr a).mark = s.mark := rfl
@[simp] theorem State.hbmCorr_grog (s : State) (a : Nat) : (s.hbmCorr a).grog = s.grog := rfl
@[simp] theorem State.hbmCorr_ware (s : State) (a : Nat) : (s.hbmCorr a).ware = s.ware := rfl
@[simp] theorem State.hbmCorr_lmap (s : State) (a : Nat) : (s.hbmCorr a).lmap = s.lmap := rfl
@[simp] theorem State.hbmCorr_slip (s : State) (a : Nat) : (s.hbmCorr a).slip = s.slip := rfl
@[simp] theorem State.hbmCorr_nvf (s : State) (a : Nat) : (s.hbmCorr a).nvf = s.nvf := rfl
@[simp] theorem State.hbmCorr_conns (s : State) (a : Nat) : (s.hbmCorr a).conns = s.conns := rfl
@[simp] theorem State.hbmCorr_ten (s : State) (a : Nat) : (s.hbmCorr a).ten = s.ten := rfl
@[simp] theorem State.hbmCorr_peer (s : State) (a : Nat) : (s.hbmCorr a).peer = s.peer := rfl
@[simp] theorem State.hbmCorr_back (s : State) (a : Nat) : (s.hbmCorr a).back = s.back := rfl
@[simp] theorem State.hbmCorr_links (s : State) (a : Nat) : (s.hbmCorr a).links = s.links := rfl
@[simp] theorem State.hbmCorr_svc (s : State) (a : Nat) : (s.hbmCorr a).svc = s.svc := rfl
@[simp] theorem State.hbmCorr_upd (s : State) (a : Nat) : (s.hbmCorr a).upd = s.upd := rfl
@[simp] theorem State.hbmCorr_plat (s : State) (a : Nat) : (s.hbmCorr a).plat = s.plat := rfl

/-! `srRefused` -/

@[simp] theorem State.srRefused_pending (s : State) (a : Nat) : (s.srRefused a).pending = s.pending := by obtain ⟨_, h⟩ := State.srRefused_shape s a; rw [h]
@[simp] theorem State.srRefused_free (s : State) (a : Nat) : (s.srRefused a).free = s.free := by obtain ⟨_, h⟩ := State.srRefused_shape s a; rw [h]
@[simp] theorem State.srRefused_mem (s : State) (a : Nat) : (s.srRefused a).mem = s.mem := by obtain ⟨_, h⟩ := State.srRefused_shape s a; rw [h]
@[simp] theorem State.srRefused_ldt (s : State) (a : Nat) : (s.srRefused a).ldt = s.ldt := by obtain ⟨_, h⟩ := State.srRefused_shape s a; rw [h]
@[simp] theorem State.srRefused_ctx (s : State) (a : Nat) : (s.srRefused a).ctx = s.ctx := by obtain ⟨_, h⟩ := State.srRefused_shape s a; rw [h]
@[simp] theorem State.srRefused_rgn (s : State) (a : Nat) : (s.srRefused a).rgn = s.rgn := by obtain ⟨_, h⟩ := State.srRefused_shape s a; rw [h]
@[simp] theorem State.srRefused_sec (s : State) (a : Nat) : (s.srRefused a).sec = s.sec := by obtain ⟨_, h⟩ := State.srRefused_shape s a; rw [h]
@[simp] theorem State.srRefused_sw (s : State) (a : Nat) : (s.srRefused a).sw = s.sw := by obtain ⟨_, h⟩ := State.srRefused_shape s a; rw [h]
@[simp] theorem State.srRefused_mark (s : State) (a : Nat) : (s.srRefused a).mark = s.mark := by obtain ⟨_, h⟩ := State.srRefused_shape s a; rw [h]
@[simp] theorem State.srRefused_grog (s : State) (a : Nat) : (s.srRefused a).grog = s.grog := by obtain ⟨_, h⟩ := State.srRefused_shape s a; rw [h]
@[simp] theorem State.srRefused_ware (s : State) (a : Nat) : (s.srRefused a).ware = s.ware := by obtain ⟨_, h⟩ := State.srRefused_shape s a; rw [h]
@[simp] theorem State.srRefused_lmap (s : State) (a : Nat) : (s.srRefused a).lmap = s.lmap := by obtain ⟨_, h⟩ := State.srRefused_shape s a; rw [h]
@[simp] theorem State.srRefused_slip (s : State) (a : Nat) : (s.srRefused a).slip = s.slip := by obtain ⟨_, h⟩ := State.srRefused_shape s a; rw [h]
@[simp] theorem State.srRefused_nvf (s : State) (a : Nat) : (s.srRefused a).nvf = s.nvf := by obtain ⟨_, h⟩ := State.srRefused_shape s a; rw [h]
@[simp] theorem State.srRefused_conns (s : State) (a : Nat) : (s.srRefused a).conns = s.conns := by obtain ⟨_, h⟩ := State.srRefused_shape s a; rw [h]
@[simp] theorem State.srRefused_ten (s : State) (a : Nat) : (s.srRefused a).ten = s.ten := by obtain ⟨_, h⟩ := State.srRefused_shape s a; rw [h]
@[simp] theorem State.srRefused_peer (s : State) (a : Nat) : (s.srRefused a).peer = s.peer := by obtain ⟨_, h⟩ := State.srRefused_shape s a; rw [h]
@[simp] theorem State.srRefused_back (s : State) (a : Nat) : (s.srRefused a).back = s.back := by obtain ⟨_, h⟩ := State.srRefused_shape s a; rw [h]
@[simp] theorem State.srRefused_links (s : State) (a : Nat) : (s.srRefused a).links = s.links := by obtain ⟨_, h⟩ := State.srRefused_shape s a; rw [h]
@[simp] theorem State.srRefused_svc (s : State) (a : Nat) : (s.srRefused a).svc = s.svc := by obtain ⟨_, h⟩ := State.srRefused_shape s a; rw [h]
@[simp] theorem State.srRefused_upd (s : State) (a : Nat) : (s.srRefused a).upd = s.upd := by obtain ⟨_, h⟩ := State.srRefused_shape s a; rw [h]
@[simp] theorem State.srRefused_evt (s : State) (a : Nat) : (s.srRefused a).plat.evt = s.plat.evt := by obtain ⟨_, h⟩ := State.srRefused_shape s a; rw [h]
@[simp] theorem State.srRefused_time (s : State) (a : Nat) : (s.srRefused a).plat.time = s.plat.time := by obtain ⟨_, h⟩ := State.srRefused_shape s a; rw [h]
@[simp] theorem State.srRefused_store (s : State) (a : Nat) : (s.srRefused a).plat.store = s.plat.store := by obtain ⟨_, h⟩ := State.srRefused_shape s a; rw [h]
@[simp] theorem State.srRefused_islands (s : State) (a : Nat) : (s.srRefused a).plat.islands = s.plat.islands := by obtain ⟨_, h⟩ := State.srRefused_shape s a; rw [h]
@[simp] theorem State.srRefused_crossings (s : State) (a : Nat) : (s.srRefused a).plat.crossings = s.plat.crossings := by obtain ⟨_, h⟩ := State.srRefused_shape s a; rw [h]
@[simp] theorem State.srRefused_pwr (s : State) (a : Nat) : (s.srRefused a).plat.pwr = s.plat.pwr := by obtain ⟨_, h⟩ := State.srRefused_shape s a; rw [h]
@[simp] theorem State.srRefused_aon (s : State) (a : Nat) : (s.srRefused a).plat.aon = s.plat.aon := by obtain ⟨_, h⟩ := State.srRefused_shape s a; rw [h]
@[simp] theorem State.srRefused_clus (s : State) (a : Nat) : (s.srRefused a).plat.clus = s.plat.clus := by obtain ⟨_, h⟩ := State.srRefused_shape s a; rw [h]
@[simp] theorem State.srRefused_chip (s : State) (a : Nat) : (s.srRefused a).plat.chip = s.plat.chip := by obtain ⟨_, h⟩ := State.srRefused_shape s a; rw [h]
@[simp] theorem State.srRefused_pins (s : State) (a : Nat) : (s.srRefused a).plat.pins = s.plat.pins := by obtain ⟨_, h⟩ := State.srRefused_shape s a; rw [h]

/-! `noteErr` -/

@[simp] theorem State.noteErr_pending (s : State) (a n : Nat) : (s.noteErr a n).pending = s.pending := by obtain ⟨_, h⟩ := State.noteErr_shape s a n; rw [h]
@[simp] theorem State.noteErr_free (s : State) (a n : Nat) : (s.noteErr a n).free = s.free := by obtain ⟨_, h⟩ := State.noteErr_shape s a n; rw [h]
@[simp] theorem State.noteErr_mem (s : State) (a n : Nat) : (s.noteErr a n).mem = s.mem := by obtain ⟨_, h⟩ := State.noteErr_shape s a n; rw [h]
@[simp] theorem State.noteErr_ldt (s : State) (a n : Nat) : (s.noteErr a n).ldt = s.ldt := by obtain ⟨_, h⟩ := State.noteErr_shape s a n; rw [h]
@[simp] theorem State.noteErr_ctx (s : State) (a n : Nat) : (s.noteErr a n).ctx = s.ctx := by obtain ⟨_, h⟩ := State.noteErr_shape s a n; rw [h]
@[simp] theorem State.noteErr_rgn (s : State) (a n : Nat) : (s.noteErr a n).rgn = s.rgn := by obtain ⟨_, h⟩ := State.noteErr_shape s a n; rw [h]
@[simp] theorem State.noteErr_sec (s : State) (a n : Nat) : (s.noteErr a n).sec = s.sec := by obtain ⟨_, h⟩ := State.noteErr_shape s a n; rw [h]
@[simp] theorem State.noteErr_sw (s : State) (a n : Nat) : (s.noteErr a n).sw = s.sw := by obtain ⟨_, h⟩ := State.noteErr_shape s a n; rw [h]
@[simp] theorem State.noteErr_mark (s : State) (a n : Nat) : (s.noteErr a n).mark = s.mark := by obtain ⟨_, h⟩ := State.noteErr_shape s a n; rw [h]
@[simp] theorem State.noteErr_grog (s : State) (a n : Nat) : (s.noteErr a n).grog = s.grog := by obtain ⟨_, h⟩ := State.noteErr_shape s a n; rw [h]
@[simp] theorem State.noteErr_ware (s : State) (a n : Nat) : (s.noteErr a n).ware = s.ware := by obtain ⟨_, h⟩ := State.noteErr_shape s a n; rw [h]
@[simp] theorem State.noteErr_lmap (s : State) (a n : Nat) : (s.noteErr a n).lmap = s.lmap := by obtain ⟨_, h⟩ := State.noteErr_shape s a n; rw [h]
@[simp] theorem State.noteErr_slip (s : State) (a n : Nat) : (s.noteErr a n).slip = s.slip := by obtain ⟨_, h⟩ := State.noteErr_shape s a n; rw [h]
@[simp] theorem State.noteErr_nvf (s : State) (a n : Nat) : (s.noteErr a n).nvf = s.nvf := by obtain ⟨_, h⟩ := State.noteErr_shape s a n; rw [h]
@[simp] theorem State.noteErr_conns (s : State) (a n : Nat) : (s.noteErr a n).conns = s.conns := by obtain ⟨_, h⟩ := State.noteErr_shape s a n; rw [h]
@[simp] theorem State.noteErr_ten (s : State) (a n : Nat) : (s.noteErr a n).ten = s.ten := by obtain ⟨_, h⟩ := State.noteErr_shape s a n; rw [h]
@[simp] theorem State.noteErr_peer (s : State) (a n : Nat) : (s.noteErr a n).peer = s.peer := by obtain ⟨_, h⟩ := State.noteErr_shape s a n; rw [h]
@[simp] theorem State.noteErr_back (s : State) (a n : Nat) : (s.noteErr a n).back = s.back := by obtain ⟨_, h⟩ := State.noteErr_shape s a n; rw [h]
@[simp] theorem State.noteErr_links (s : State) (a n : Nat) : (s.noteErr a n).links = s.links := by obtain ⟨_, h⟩ := State.noteErr_shape s a n; rw [h]
@[simp] theorem State.noteErr_svc (s : State) (a n : Nat) : (s.noteErr a n).svc = s.svc := by obtain ⟨_, h⟩ := State.noteErr_shape s a n; rw [h]
@[simp] theorem State.noteErr_upd (s : State) (a n : Nat) : (s.noteErr a n).upd = s.upd := by obtain ⟨_, h⟩ := State.noteErr_shape s a n; rw [h]
@[simp] theorem State.noteErr_evt (s : State) (a n : Nat) : (s.noteErr a n).plat.evt = s.plat.evt := by obtain ⟨_, h⟩ := State.noteErr_shape s a n; rw [h]
@[simp] theorem State.noteErr_time (s : State) (a n : Nat) : (s.noteErr a n).plat.time = s.plat.time := by obtain ⟨_, h⟩ := State.noteErr_shape s a n; rw [h]
@[simp] theorem State.noteErr_store (s : State) (a n : Nat) : (s.noteErr a n).plat.store = s.plat.store := by obtain ⟨_, h⟩ := State.noteErr_shape s a n; rw [h]
@[simp] theorem State.noteErr_islands (s : State) (a n : Nat) : (s.noteErr a n).plat.islands = s.plat.islands := by obtain ⟨_, h⟩ := State.noteErr_shape s a n; rw [h]
@[simp] theorem State.noteErr_crossings (s : State) (a n : Nat) : (s.noteErr a n).plat.crossings = s.plat.crossings := by obtain ⟨_, h⟩ := State.noteErr_shape s a n; rw [h]
@[simp] theorem State.noteErr_pwr (s : State) (a n : Nat) : (s.noteErr a n).plat.pwr = s.plat.pwr := by obtain ⟨_, h⟩ := State.noteErr_shape s a n; rw [h]
@[simp] theorem State.noteErr_aon (s : State) (a n : Nat) : (s.noteErr a n).plat.aon = s.plat.aon := by obtain ⟨_, h⟩ := State.noteErr_shape s a n; rw [h]
@[simp] theorem State.noteErr_clus (s : State) (a n : Nat) : (s.noteErr a n).plat.clus = s.plat.clus := by obtain ⟨_, h⟩ := State.noteErr_shape s a n; rw [h]
@[simp] theorem State.noteErr_chip (s : State) (a n : Nat) : (s.noteErr a n).plat.chip = s.plat.chip := by obtain ⟨_, h⟩ := State.noteErr_shape s a n; rw [h]
@[simp] theorem State.noteErr_pins (s : State) (a n : Nat) : (s.noteErr a n).plat.pins = s.plat.pins := by obtain ⟨_, h⟩ := State.noteErr_shape s a n; rw [h]

/-! `event` -/

@[simp] theorem State.event_pending (s : State) (p c : Nat) (l : List Byte) (f : Nat) : (s.event p c l f).pending = s.pending := by obtain ⟨_, h⟩ := State.event_shape s p c l f; rw [h]
@[simp] theorem State.event_free (s : State) (p c : Nat) (l : List Byte) (f : Nat) : (s.event p c l f).free = s.free := by obtain ⟨_, h⟩ := State.event_shape s p c l f; rw [h]
@[simp] theorem State.event_ldt (s : State) (p c : Nat) (l : List Byte) (f : Nat) : (s.event p c l f).ldt = s.ldt := by obtain ⟨_, h⟩ := State.event_shape s p c l f; rw [h]
@[simp] theorem State.event_ctx (s : State) (p c : Nat) (l : List Byte) (f : Nat) : (s.event p c l f).ctx = s.ctx := by obtain ⟨_, h⟩ := State.event_shape s p c l f; rw [h]
@[simp] theorem State.event_rgn (s : State) (p c : Nat) (l : List Byte) (f : Nat) : (s.event p c l f).rgn = s.rgn := by obtain ⟨_, h⟩ := State.event_shape s p c l f; rw [h]
@[simp] theorem State.event_sec (s : State) (p c : Nat) (l : List Byte) (f : Nat) : (s.event p c l f).sec = s.sec := by obtain ⟨_, h⟩ := State.event_shape s p c l f; rw [h]
@[simp] theorem State.event_sw (s : State) (p c : Nat) (l : List Byte) (f : Nat) : (s.event p c l f).sw = s.sw := by obtain ⟨_, h⟩ := State.event_shape s p c l f; rw [h]
@[simp] theorem State.event_mark (s : State) (p c : Nat) (l : List Byte) (f : Nat) : (s.event p c l f).mark = s.mark := by obtain ⟨_, h⟩ := State.event_shape s p c l f; rw [h]
@[simp] theorem State.event_grog (s : State) (p c : Nat) (l : List Byte) (f : Nat) : (s.event p c l f).grog = s.grog := by obtain ⟨_, h⟩ := State.event_shape s p c l f; rw [h]
@[simp] theorem State.event_ware (s : State) (p c : Nat) (l : List Byte) (f : Nat) : (s.event p c l f).ware = s.ware := by obtain ⟨_, h⟩ := State.event_shape s p c l f; rw [h]
@[simp] theorem State.event_lmap (s : State) (p c : Nat) (l : List Byte) (f : Nat) : (s.event p c l f).lmap = s.lmap := by obtain ⟨_, h⟩ := State.event_shape s p c l f; rw [h]
@[simp] theorem State.event_slip (s : State) (p c : Nat) (l : List Byte) (f : Nat) : (s.event p c l f).slip = s.slip := by obtain ⟨_, h⟩ := State.event_shape s p c l f; rw [h]
@[simp] theorem State.event_nvf (s : State) (p c : Nat) (l : List Byte) (f : Nat) : (s.event p c l f).nvf = s.nvf := by obtain ⟨_, h⟩ := State.event_shape s p c l f; rw [h]
@[simp] theorem State.event_conns (s : State) (p c : Nat) (l : List Byte) (f : Nat) : (s.event p c l f).conns = s.conns := by obtain ⟨_, h⟩ := State.event_shape s p c l f; rw [h]
@[simp] theorem State.event_ten (s : State) (p c : Nat) (l : List Byte) (f : Nat) : (s.event p c l f).ten = s.ten := by obtain ⟨_, h⟩ := State.event_shape s p c l f; rw [h]
@[simp] theorem State.event_peer (s : State) (p c : Nat) (l : List Byte) (f : Nat) : (s.event p c l f).peer = s.peer := by obtain ⟨_, h⟩ := State.event_shape s p c l f; rw [h]
@[simp] theorem State.event_back (s : State) (p c : Nat) (l : List Byte) (f : Nat) : (s.event p c l f).back = s.back := by obtain ⟨_, h⟩ := State.event_shape s p c l f; rw [h]
@[simp] theorem State.event_links (s : State) (p c : Nat) (l : List Byte) (f : Nat) : (s.event p c l f).links = s.links := by obtain ⟨_, h⟩ := State.event_shape s p c l f; rw [h]
@[simp] theorem State.event_svc (s : State) (p c : Nat) (l : List Byte) (f : Nat) : (s.event p c l f).svc = s.svc := by obtain ⟨_, h⟩ := State.event_shape s p c l f; rw [h]
@[simp] theorem State.event_upd (s : State) (p c : Nat) (l : List Byte) (f : Nat) : (s.event p c l f).upd = s.upd := by obtain ⟨_, h⟩ := State.event_shape s p c l f; rw [h]
@[simp] theorem State.event_time (s : State) (p c : Nat) (l : List Byte) (f : Nat) : (s.event p c l f).plat.time = s.plat.time := by obtain ⟨_, h⟩ := State.event_shape s p c l f; rw [h]
@[simp] theorem State.event_store (s : State) (p c : Nat) (l : List Byte) (f : Nat) : (s.event p c l f).plat.store = s.plat.store := by obtain ⟨_, h⟩ := State.event_shape s p c l f; rw [h]
@[simp] theorem State.event_islands (s : State) (p c : Nat) (l : List Byte) (f : Nat) : (s.event p c l f).plat.islands = s.plat.islands := by obtain ⟨_, h⟩ := State.event_shape s p c l f; rw [h]
@[simp] theorem State.event_crossings (s : State) (p c : Nat) (l : List Byte) (f : Nat) : (s.event p c l f).plat.crossings = s.plat.crossings := by obtain ⟨_, h⟩ := State.event_shape s p c l f; rw [h]
@[simp] theorem State.event_pwr (s : State) (p c : Nat) (l : List Byte) (f : Nat) : (s.event p c l f).plat.pwr = s.plat.pwr := by obtain ⟨_, h⟩ := State.event_shape s p c l f; rw [h]
@[simp] theorem State.event_aon (s : State) (p c : Nat) (l : List Byte) (f : Nat) : (s.event p c l f).plat.aon = s.plat.aon := by obtain ⟨_, h⟩ := State.event_shape s p c l f; rw [h]
@[simp] theorem State.event_clus (s : State) (p c : Nat) (l : List Byte) (f : Nat) : (s.event p c l f).plat.clus = s.plat.clus := by obtain ⟨_, h⟩ := State.event_shape s p c l f; rw [h]
@[simp] theorem State.event_chip (s : State) (p c : Nat) (l : List Byte) (f : Nat) : (s.event p c l f).plat.chip = s.plat.chip := by obtain ⟨_, h⟩ := State.event_shape s p c l f; rw [h]
@[simp] theorem State.event_pins (s : State) (p c : Nat) (l : List Byte) (f : Nat) : (s.event p c l f).plat.pins = s.plat.pins := by obtain ⟨_, h⟩ := State.event_shape s p c l f; rw [h]

/-! `stateChange` -/

@[simp] theorem State.stateChange_pending (s : State) (p : Nat) (b : BlkState) : (s.stateChange p b).pending = s.pending := by obtain ⟨_, h⟩ := State.stateChange_shape s p b; rw [h]
@[simp] theorem State.stateChange_free (s : State) (p : Nat) (b : BlkState) : (s.stateChange p b).free = s.free := by obtain ⟨_, h⟩ := State.stateChange_shape s p b; rw [h]
@[simp] theorem State.stateChange_ldt (s : State) (p : Nat) (b : BlkState) : (s.stateChange p b).ldt = s.ldt := by obtain ⟨_, h⟩ := State.stateChange_shape s p b; rw [h]
@[simp] theorem State.stateChange_ctx (s : State) (p : Nat) (b : BlkState) : (s.stateChange p b).ctx = s.ctx := by obtain ⟨_, h⟩ := State.stateChange_shape s p b; rw [h]
@[simp] theorem State.stateChange_rgn (s : State) (p : Nat) (b : BlkState) : (s.stateChange p b).rgn = s.rgn := by obtain ⟨_, h⟩ := State.stateChange_shape s p b; rw [h]
@[simp] theorem State.stateChange_sec (s : State) (p : Nat) (b : BlkState) : (s.stateChange p b).sec = s.sec := by obtain ⟨_, h⟩ := State.stateChange_shape s p b; rw [h]
@[simp] theorem State.stateChange_sw (s : State) (p : Nat) (b : BlkState) : (s.stateChange p b).sw = s.sw := by obtain ⟨_, h⟩ := State.stateChange_shape s p b; rw [h]
@[simp] theorem State.stateChange_mark (s : State) (p : Nat) (b : BlkState) : (s.stateChange p b).mark = s.mark := by obtain ⟨_, h⟩ := State.stateChange_shape s p b; rw [h]
@[simp] theorem State.stateChange_grog (s : State) (p : Nat) (b : BlkState) : (s.stateChange p b).grog = s.grog := by obtain ⟨_, h⟩ := State.stateChange_shape s p b; rw [h]
@[simp] theorem State.stateChange_ware (s : State) (p : Nat) (b : BlkState) : (s.stateChange p b).ware = s.ware := by obtain ⟨_, h⟩ := State.stateChange_shape s p b; rw [h]
@[simp] theorem State.stateChange_lmap (s : State) (p : Nat) (b : BlkState) : (s.stateChange p b).lmap = s.lmap := by obtain ⟨_, h⟩ := State.stateChange_shape s p b; rw [h]
@[simp] theorem State.stateChange_slip (s : State) (p : Nat) (b : BlkState) : (s.stateChange p b).slip = s.slip := by obtain ⟨_, h⟩ := State.stateChange_shape s p b; rw [h]
@[simp] theorem State.stateChange_nvf (s : State) (p : Nat) (b : BlkState) : (s.stateChange p b).nvf = s.nvf := by obtain ⟨_, h⟩ := State.stateChange_shape s p b; rw [h]
@[simp] theorem State.stateChange_conns (s : State) (p : Nat) (b : BlkState) : (s.stateChange p b).conns = s.conns := by obtain ⟨_, h⟩ := State.stateChange_shape s p b; rw [h]
@[simp] theorem State.stateChange_ten (s : State) (p : Nat) (b : BlkState) : (s.stateChange p b).ten = s.ten := by obtain ⟨_, h⟩ := State.stateChange_shape s p b; rw [h]
@[simp] theorem State.stateChange_peer (s : State) (p : Nat) (b : BlkState) : (s.stateChange p b).peer = s.peer := by obtain ⟨_, h⟩ := State.stateChange_shape s p b; rw [h]
@[simp] theorem State.stateChange_back (s : State) (p : Nat) (b : BlkState) : (s.stateChange p b).back = s.back := by obtain ⟨_, h⟩ := State.stateChange_shape s p b; rw [h]
@[simp] theorem State.stateChange_links (s : State) (p : Nat) (b : BlkState) : (s.stateChange p b).links = s.links := by obtain ⟨_, h⟩ := State.stateChange_shape s p b; rw [h]
@[simp] theorem State.stateChange_svc (s : State) (p : Nat) (b : BlkState) : (s.stateChange p b).svc = s.svc := by obtain ⟨_, h⟩ := State.stateChange_shape s p b; rw [h]
@[simp] theorem State.stateChange_upd (s : State) (p : Nat) (b : BlkState) : (s.stateChange p b).upd = s.upd := by obtain ⟨_, h⟩ := State.stateChange_shape s p b; rw [h]
@[simp] theorem State.stateChange_time (s : State) (p : Nat) (b : BlkState) : (s.stateChange p b).plat.time = s.plat.time := by obtain ⟨_, h⟩ := State.stateChange_shape s p b; rw [h]
@[simp] theorem State.stateChange_store (s : State) (p : Nat) (b : BlkState) : (s.stateChange p b).plat.store = s.plat.store := by obtain ⟨_, h⟩ := State.stateChange_shape s p b; rw [h]
@[simp] theorem State.stateChange_islands (s : State) (p : Nat) (b : BlkState) : (s.stateChange p b).plat.islands = s.plat.islands := by obtain ⟨_, h⟩ := State.stateChange_shape s p b; rw [h]
@[simp] theorem State.stateChange_crossings (s : State) (p : Nat) (b : BlkState) : (s.stateChange p b).plat.crossings = s.plat.crossings := by obtain ⟨_, h⟩ := State.stateChange_shape s p b; rw [h]
@[simp] theorem State.stateChange_pwr (s : State) (p : Nat) (b : BlkState) : (s.stateChange p b).plat.pwr = s.plat.pwr := by obtain ⟨_, h⟩ := State.stateChange_shape s p b; rw [h]
@[simp] theorem State.stateChange_aon (s : State) (p : Nat) (b : BlkState) : (s.stateChange p b).plat.aon = s.plat.aon := by obtain ⟨_, h⟩ := State.stateChange_shape s p b; rw [h]
@[simp] theorem State.stateChange_clus (s : State) (p : Nat) (b : BlkState) : (s.stateChange p b).plat.clus = s.plat.clus := by obtain ⟨_, h⟩ := State.stateChange_shape s p b; rw [h]
@[simp] theorem State.stateChange_chip (s : State) (p : Nat) (b : BlkState) : (s.stateChange p b).plat.chip = s.plat.chip := by obtain ⟨_, h⟩ := State.stateChange_shape s p b; rw [h]
@[simp] theorem State.stateChange_pins (s : State) (p : Nat) (b : BlkState) : (s.stateChange p b).plat.pins = s.plat.pins := by obtain ⟨_, h⟩ := State.stateChange_shape s p b; rw [h]

/-! `finish` -/

@[simp] theorem State.finish_pending (s : State) (p q : Nat) (n : Bool) (c : DWord) (b st : Nat) : (s.finish p q n c b st).pending = s.pending := by obtain ⟨_, h⟩ := State.finish_shape s p q n c b st; rw [h]
@[simp] theorem State.finish_free (s : State) (p q : Nat) (n : Bool) (c : DWord) (b st : Nat) : (s.finish p q n c b st).free = s.free := by obtain ⟨_, h⟩ := State.finish_shape s p q n c b st; rw [h]
@[simp] theorem State.finish_ldt (s : State) (p q : Nat) (n : Bool) (c : DWord) (b st : Nat) : (s.finish p q n c b st).ldt = s.ldt := by obtain ⟨_, h⟩ := State.finish_shape s p q n c b st; rw [h]
@[simp] theorem State.finish_ctx (s : State) (p q : Nat) (n : Bool) (c : DWord) (b st : Nat) : (s.finish p q n c b st).ctx = s.ctx := by obtain ⟨_, h⟩ := State.finish_shape s p q n c b st; rw [h]
@[simp] theorem State.finish_rgn (s : State) (p q : Nat) (n : Bool) (c : DWord) (b st : Nat) : (s.finish p q n c b st).rgn = s.rgn := by obtain ⟨_, h⟩ := State.finish_shape s p q n c b st; rw [h]
@[simp] theorem State.finish_sec (s : State) (p q : Nat) (n : Bool) (c : DWord) (b st : Nat) : (s.finish p q n c b st).sec = s.sec := by obtain ⟨_, h⟩ := State.finish_shape s p q n c b st; rw [h]
@[simp] theorem State.finish_sw (s : State) (p q : Nat) (n : Bool) (c : DWord) (b st : Nat) : (s.finish p q n c b st).sw = s.sw := by obtain ⟨_, h⟩ := State.finish_shape s p q n c b st; rw [h]
@[simp] theorem State.finish_mark (s : State) (p q : Nat) (n : Bool) (c : DWord) (b st : Nat) : (s.finish p q n c b st).mark = s.mark := by obtain ⟨_, h⟩ := State.finish_shape s p q n c b st; rw [h]
@[simp] theorem State.finish_grog (s : State) (p q : Nat) (n : Bool) (c : DWord) (b st : Nat) : (s.finish p q n c b st).grog = s.grog := by obtain ⟨_, h⟩ := State.finish_shape s p q n c b st; rw [h]
@[simp] theorem State.finish_ware (s : State) (p q : Nat) (n : Bool) (c : DWord) (b st : Nat) : (s.finish p q n c b st).ware = s.ware := by obtain ⟨_, h⟩ := State.finish_shape s p q n c b st; rw [h]
@[simp] theorem State.finish_lmap (s : State) (p q : Nat) (n : Bool) (c : DWord) (b st : Nat) : (s.finish p q n c b st).lmap = s.lmap := by obtain ⟨_, h⟩ := State.finish_shape s p q n c b st; rw [h]
@[simp] theorem State.finish_slip (s : State) (p q : Nat) (n : Bool) (c : DWord) (b st : Nat) : (s.finish p q n c b st).slip = s.slip := by obtain ⟨_, h⟩ := State.finish_shape s p q n c b st; rw [h]
@[simp] theorem State.finish_nvf (s : State) (p q : Nat) (n : Bool) (c : DWord) (b st : Nat) : (s.finish p q n c b st).nvf = s.nvf := by obtain ⟨_, h⟩ := State.finish_shape s p q n c b st; rw [h]
@[simp] theorem State.finish_conns (s : State) (p q : Nat) (n : Bool) (c : DWord) (b st : Nat) : (s.finish p q n c b st).conns = s.conns := by obtain ⟨_, h⟩ := State.finish_shape s p q n c b st; rw [h]
@[simp] theorem State.finish_ten (s : State) (p q : Nat) (n : Bool) (c : DWord) (b st : Nat) : (s.finish p q n c b st).ten = s.ten := by obtain ⟨_, h⟩ := State.finish_shape s p q n c b st; rw [h]
@[simp] theorem State.finish_peer (s : State) (p q : Nat) (n : Bool) (c : DWord) (b st : Nat) : (s.finish p q n c b st).peer = s.peer := by obtain ⟨_, h⟩ := State.finish_shape s p q n c b st; rw [h]
@[simp] theorem State.finish_back (s : State) (p q : Nat) (n : Bool) (c : DWord) (b st : Nat) : (s.finish p q n c b st).back = s.back := by obtain ⟨_, h⟩ := State.finish_shape s p q n c b st; rw [h]
@[simp] theorem State.finish_links (s : State) (p q : Nat) (n : Bool) (c : DWord) (b st : Nat) : (s.finish p q n c b st).links = s.links := by obtain ⟨_, h⟩ := State.finish_shape s p q n c b st; rw [h]
@[simp] theorem State.finish_svc (s : State) (p q : Nat) (n : Bool) (c : DWord) (b st : Nat) : (s.finish p q n c b st).svc = s.svc := by obtain ⟨_, h⟩ := State.finish_shape s p q n c b st; rw [h]
@[simp] theorem State.finish_upd (s : State) (p q : Nat) (n : Bool) (c : DWord) (b st : Nat) : (s.finish p q n c b st).upd = s.upd := by obtain ⟨_, h⟩ := State.finish_shape s p q n c b st; rw [h]
@[simp] theorem State.finish_time (s : State) (p q : Nat) (n : Bool) (c : DWord) (b st : Nat) : (s.finish p q n c b st).plat.time = s.plat.time := by obtain ⟨_, h⟩ := State.finish_shape s p q n c b st; rw [h]
@[simp] theorem State.finish_store (s : State) (p q : Nat) (n : Bool) (c : DWord) (b st : Nat) : (s.finish p q n c b st).plat.store = s.plat.store := by obtain ⟨_, h⟩ := State.finish_shape s p q n c b st; rw [h]
@[simp] theorem State.finish_islands (s : State) (p q : Nat) (n : Bool) (c : DWord) (b st : Nat) : (s.finish p q n c b st).plat.islands = s.plat.islands := by obtain ⟨_, h⟩ := State.finish_shape s p q n c b st; rw [h]
@[simp] theorem State.finish_crossings (s : State) (p q : Nat) (n : Bool) (c : DWord) (b st : Nat) : (s.finish p q n c b st).plat.crossings = s.plat.crossings := by obtain ⟨_, h⟩ := State.finish_shape s p q n c b st; rw [h]
@[simp] theorem State.finish_pwr (s : State) (p q : Nat) (n : Bool) (c : DWord) (b st : Nat) : (s.finish p q n c b st).plat.pwr = s.plat.pwr := by obtain ⟨_, h⟩ := State.finish_shape s p q n c b st; rw [h]
@[simp] theorem State.finish_aon (s : State) (p q : Nat) (n : Bool) (c : DWord) (b st : Nat) : (s.finish p q n c b st).plat.aon = s.plat.aon := by obtain ⟨_, h⟩ := State.finish_shape s p q n c b st; rw [h]
@[simp] theorem State.finish_clus (s : State) (p q : Nat) (n : Bool) (c : DWord) (b st : Nat) : (s.finish p q n c b st).plat.clus = s.plat.clus := by obtain ⟨_, h⟩ := State.finish_shape s p q n c b st; rw [h]
@[simp] theorem State.finish_chip (s : State) (p q : Nat) (n : Bool) (c : DWord) (b st : Nat) : (s.finish p q n c b st).plat.chip = s.plat.chip := by obtain ⟨_, h⟩ := State.finish_shape s p q n c b st; rw [h]
@[simp] theorem State.finish_pins (s : State) (p q : Nat) (n : Bool) (c : DWord) (b st : Nat) : (s.finish p q n c b st).plat.pins = s.plat.pins := by obtain ⟨_, h⟩ := State.finish_shape s p q n c b st; rw [h]

/-! `finishRunning` -/

@[simp] theorem State.finishRunning_pending (s : State) (q b st : Nat) : (s.finishRunning q b st).pending = s.pending := by obtain ⟨_, h⟩ := State.finishRunning_shape s q b st; rw [h]
@[simp] theorem State.finishRunning_free (s : State) (q b st : Nat) : (s.finishRunning q b st).free = s.free := by obtain ⟨_, h⟩ := State.finishRunning_shape s q b st; rw [h]
@[simp] theorem State.finishRunning_ldt (s : State) (q b st : Nat) : (s.finishRunning q b st).ldt = s.ldt := by obtain ⟨_, h⟩ := State.finishRunning_shape s q b st; rw [h]
@[simp] theorem State.finishRunning_ctx (s : State) (q b st : Nat) : (s.finishRunning q b st).ctx = s.ctx := by obtain ⟨_, h⟩ := State.finishRunning_shape s q b st; rw [h]
@[simp] theorem State.finishRunning_rgn (s : State) (q b st : Nat) : (s.finishRunning q b st).rgn = s.rgn := by obtain ⟨_, h⟩ := State.finishRunning_shape s q b st; rw [h]
@[simp] theorem State.finishRunning_sec (s : State) (q b st : Nat) : (s.finishRunning q b st).sec = s.sec := by obtain ⟨_, h⟩ := State.finishRunning_shape s q b st; rw [h]
@[simp] theorem State.finishRunning_sw (s : State) (q b st : Nat) : (s.finishRunning q b st).sw = s.sw := by obtain ⟨_, h⟩ := State.finishRunning_shape s q b st; rw [h]
@[simp] theorem State.finishRunning_mark (s : State) (q b st : Nat) : (s.finishRunning q b st).mark = s.mark := by obtain ⟨_, h⟩ := State.finishRunning_shape s q b st; rw [h]
@[simp] theorem State.finishRunning_grog (s : State) (q b st : Nat) : (s.finishRunning q b st).grog = s.grog := by obtain ⟨_, h⟩ := State.finishRunning_shape s q b st; rw [h]
@[simp] theorem State.finishRunning_ware (s : State) (q b st : Nat) : (s.finishRunning q b st).ware = s.ware := by obtain ⟨_, h⟩ := State.finishRunning_shape s q b st; rw [h]
@[simp] theorem State.finishRunning_lmap (s : State) (q b st : Nat) : (s.finishRunning q b st).lmap = s.lmap := by obtain ⟨_, h⟩ := State.finishRunning_shape s q b st; rw [h]
@[simp] theorem State.finishRunning_slip (s : State) (q b st : Nat) : (s.finishRunning q b st).slip = s.slip := by obtain ⟨_, h⟩ := State.finishRunning_shape s q b st; rw [h]
@[simp] theorem State.finishRunning_nvf (s : State) (q b st : Nat) : (s.finishRunning q b st).nvf = s.nvf := by obtain ⟨_, h⟩ := State.finishRunning_shape s q b st; rw [h]
@[simp] theorem State.finishRunning_conns (s : State) (q b st : Nat) : (s.finishRunning q b st).conns = s.conns := by obtain ⟨_, h⟩ := State.finishRunning_shape s q b st; rw [h]
@[simp] theorem State.finishRunning_ten (s : State) (q b st : Nat) : (s.finishRunning q b st).ten = s.ten := by obtain ⟨_, h⟩ := State.finishRunning_shape s q b st; rw [h]
@[simp] theorem State.finishRunning_peer (s : State) (q b st : Nat) : (s.finishRunning q b st).peer = s.peer := by obtain ⟨_, h⟩ := State.finishRunning_shape s q b st; rw [h]
@[simp] theorem State.finishRunning_back (s : State) (q b st : Nat) : (s.finishRunning q b st).back = s.back := by obtain ⟨_, h⟩ := State.finishRunning_shape s q b st; rw [h]
@[simp] theorem State.finishRunning_links (s : State) (q b st : Nat) : (s.finishRunning q b st).links = s.links := by obtain ⟨_, h⟩ := State.finishRunning_shape s q b st; rw [h]
@[simp] theorem State.finishRunning_svc (s : State) (q b st : Nat) : (s.finishRunning q b st).svc = s.svc := by obtain ⟨_, h⟩ := State.finishRunning_shape s q b st; rw [h]
@[simp] theorem State.finishRunning_upd (s : State) (q b st : Nat) : (s.finishRunning q b st).upd = s.upd := by obtain ⟨_, h⟩ := State.finishRunning_shape s q b st; rw [h]
@[simp] theorem State.finishRunning_time (s : State) (q b st : Nat) : (s.finishRunning q b st).plat.time = s.plat.time := by obtain ⟨_, h⟩ := State.finishRunning_shape s q b st; rw [h]
@[simp] theorem State.finishRunning_store (s : State) (q b st : Nat) : (s.finishRunning q b st).plat.store = s.plat.store := by obtain ⟨_, h⟩ := State.finishRunning_shape s q b st; rw [h]
@[simp] theorem State.finishRunning_islands (s : State) (q b st : Nat) : (s.finishRunning q b st).plat.islands = s.plat.islands := by obtain ⟨_, h⟩ := State.finishRunning_shape s q b st; rw [h]
@[simp] theorem State.finishRunning_crossings (s : State) (q b st : Nat) : (s.finishRunning q b st).plat.crossings = s.plat.crossings := by obtain ⟨_, h⟩ := State.finishRunning_shape s q b st; rw [h]
@[simp] theorem State.finishRunning_pwr (s : State) (q b st : Nat) : (s.finishRunning q b st).plat.pwr = s.plat.pwr := by obtain ⟨_, h⟩ := State.finishRunning_shape s q b st; rw [h]
@[simp] theorem State.finishRunning_aon (s : State) (q b st : Nat) : (s.finishRunning q b st).plat.aon = s.plat.aon := by obtain ⟨_, h⟩ := State.finishRunning_shape s q b st; rw [h]
@[simp] theorem State.finishRunning_clus (s : State) (q b st : Nat) : (s.finishRunning q b st).plat.clus = s.plat.clus := by obtain ⟨_, h⟩ := State.finishRunning_shape s q b st; rw [h]
@[simp] theorem State.finishRunning_chip (s : State) (q b st : Nat) : (s.finishRunning q b st).plat.chip = s.plat.chip := by obtain ⟨_, h⟩ := State.finishRunning_shape s q b st; rw [h]
@[simp] theorem State.finishRunning_pins (s : State) (q b st : Nat) : (s.finishRunning q b st).plat.pins = s.plat.pins := by obtain ⟨_, h⟩ := State.finishRunning_shape s q b st; rw [h]

/-! ### What the operations write -/

@[simp] theorem State.emit_out (s : State) (o : Out) : (s.emit o).out = o :: s.out := rfl
@[simp] theorem State.page_setPage (s : State) (p q : Nat) (v : Page) : (s.setPage p v).page q = if q = p then v else s.page q := Tab.get_put _ _ _ _ _
@[simp] theorem State.page_modPage (s : State) (p q : Nat) (f : Page → Page) :
    (s.modPage p f).page q = if q = p then f (s.page p) else s.page q := Tab.get_put _ _ _ _ _
@[simp] theorem State.reg_setReg (s : State) (a b : Nat) (v : Word) : (s.setReg a v).reg b = if b = a then v else s.reg b := Tab.getF_putF _ _ _ _ _

/-! ### Commands of the ring -/

/-- A command that is ready runs its body on its first page. -/
theorem command_of_ready {s : State} {h : CmdHdr} {blk p : Nat} {cls : CmdClass} (opcode : Nat) (body : Nat → State → State × CmdEnd)
    (r : Ready s h blk p cls) :
    s.command h blk opcode cls body = match body p s.consume with
      | (t, .done st bits) => t.finish p h.cseq h.notify h.cookie bits st
      | (t, .running args) => t.keeps p opcode h args := by
  obtain ⟨h1, h2, h3, h4⟩ := r
  simp only [State.command, h1, if_true, if_pos h2]
  cases hp : targetPages blk h.inst with
  | nil => simp [hp] at h3
  | cons q qs =>
    simp only [hp, List.head?_cons, Option.some.injEq] at h3
    subst h3
    simp only [List.any_cons, h4, Bool.true_or, if_true]
    rcases body q s.consume with ⟨t, _ | _⟩ <;> rfl

/-- A command that completes when it is taken. -/
theorem simpleCmd_of_ready {s : State} {h : CmdHdr} {blk p : Nat} (opcode : Nat) (body : State → State × Nat) (r : Ready s h blk p .work) :
    s.simpleCmd h blk opcode body = (body s.consume).1.ends p h (body s.consume).2 := by
  simp only [State.simpleCmd, command_of_ready opcode _ r, State.ends]

/-- A write that reaches its page. -/
theorem gated_of_reaches {s : State} {p : Nat} (f : State → State) (r : Reaches s p) : s.gated p f = f s := by
  simp [State.gated, r.1, r.2]

end Sys2Proof.Machine
end

