-- ==== Sys2Proof/Laws/Mem.lean ====
section
/-! SUPPORT. Every operation on HBM's bytes keeps their canonical form, and what a byte and a register word read after a write. -/

namespace Sys2Proof.Machine

variable {α : Type}

theorem Tab.noDefault_filter [DecidableEq α] (d : Nat → α) (t : Tab α) (f : Nat × α → Bool) (h : Tab.noDefault d t = true) :
    Tab.noDefault d (t.filter f) = true := by
  simp only [Tab.noDefault, List.all_eq_true] at h ⊢
  exact fun e he => h e ((List.mem_filter.mp he).1)

theorem Tab.noDefault_ins [DecidableEq α] (d : Nat → α) (t : Tab α) (k : Nat) (v : α) (hv : v ≠ d k) (h : Tab.noDefault d t = true) :
    Tab.noDefault d (t.ins k v) = true := by
  induction t with
  | nil => simpa [Tab.ins, Tab.noDefault] using hv
  | cons e t ih =>
    obtain ⟨k', v'⟩ := e
    simp only [Tab.noDefault, List.all_cons, Bool.and_eq_true, decide_eq_true_eq] at h ih ⊢
    simp only [Tab.ins]
    split
    · simp only [List.all_cons, Bool.and_eq_true, decide_eq_true_eq]; exact ⟨hv, h.1, h.2⟩
    · split
      · simp only [List.all_cons, Bool.and_eq_true, decide_eq_true_eq]; exact ⟨hv, h.2⟩
      · simp only [List.all_cons, Bool.and_eq_true, decide_eq_true_eq]; exact ⟨h.1, ih h.2⟩

theorem Tab.noDefault_putF [DecidableEq α] (d : Nat → α) (t : Tab α) (k : Nat) (v : α) (h : Tab.noDefault d t = true) :
    Tab.noDefault d (t.putF d k v) = true := by
  unfold Tab.putF
  split
  · exact Tab.noDefault_filter d t _ h
  · exact Tab.noDefault_ins d t k v ‹_› h

/-! ### The canonical form of HBM -/

theorem Memory.wf_put (m : Tab Byte) (a : Nat) (b : Byte) (h : Memory.wf m = true) : Memory.wf (Tab.put 0 m a b) = true := by
  simp only [Memory.wf, Bool.and_eq_true] at h ⊢
  exact ⟨Tab.risingFrom_putF _ m a b h.1, Tab.noDefault_putF _ m a b h.2⟩

theorem Memory.wf_writeCells (m : Tab Byte) (a : Nat) (bs : List Byte) (h : Memory.wf m = true) : Memory.wf (writeCells m a bs) = true := by
  induction bs generalizing m a with
  | nil => exact h
  | cons b bs ih => exact ih _ _ (Memory.wf_put m a b h)

/-- Bytes put one by one, as MB_DRAIN puts them. -/
theorem Memory.wf_foldl_put (l : List Nat) (m : Tab Byte) (f : Nat → Nat) (g : Nat → Byte) (h : Memory.wf m = true) :
    Memory.wf (l.foldl (fun t i => Tab.put 0 t (f i) (g i)) m) = true := by
  induction l generalizing m with
  | nil => exact h
  | cons i l ih => exact ih _ (Memory.wf_put m _ _ h)

theorem patchLine_cells (s : State) (a : Nat) (bs : List Byte) : (patchLine s a bs).mem.cells = s.mem.cells := by
  simp only [patchLine]
  repeat' split
  all_goals rfl

theorem State.writeSector_wf (s : State) (a : Nat) (bs : List Byte) (h : Memory.wf s.mem.cells = true) :
    Memory.wf (s.writeSector a bs).mem.cells = true := by
  simp only [State.writeSector]
  split
  · exact h
  · split
    · exact h
    · exact Memory.wf_writeCells _ _ _ (by rw [patchLine_cells]; exact h)

theorem State.writeFuel_wf (n : Nat) (s : State) (a : Nat) (bs : List Byte) (h : Memory.wf s.mem.cells = true) :
    Memory.wf (State.writeFuel n s a bs).mem.cells = true := by
  induction n generalizing s a bs with
  | zero => exact h
  | succ n ih =>
    simp only [State.writeFuel]
    split
    · exact h
    · exact ih _ _ _ (s.writeSector_wf a _ h)

theorem State.hbmWrite_wf (s : State) (a : Nat) (bs : List Byte) (h : Memory.wf s.mem.cells = true) :
    Memory.wf (s.hbmWrite a bs).mem.cells = true := by
  simp only [State.hbmWrite]
  split
  · exact h
  · exact State.writeFuel_wf _ _ _ _ h

/-- HBM_WRITE of the service port. -/
theorem State.svcHbmWrite_wf (s : State) (a n : Nat) (bs : List Byte) (h : Memory.wf s.mem.cells = true) :
    Memory.wf (s.svcHbmWrite a n bs).st.mem.cells = true := by
  simp only [State.svcHbmWrite]
  split
  · exact h
  · split
    · exact h
    · split
      · exact h
      · split
        · obtain ⟨x, hx⟩ := s.srRefused_shape a
          simpa only [hx] using h
        · exact Memory.wf_writeCells _ _ _ h

theorem State.hbmTested_wf (s : State) (bad : List Nat) (h : Memory.wf s.mem.cells = true) :
    Memory.wf (s.hbmTested bad).mem.cells = true := by
  simp only [State.hbmTested]
  split
  · rfl
  · exact h

/-! ### Reading after a write -/

/-- Bytes written one after the other read as written, and every other byte as before. -/
theorem writeCells_get (m : Tab Byte) (a x : Nat) (bs : List Byte) :
    Tab.get 0 (writeCells m a bs) x = if a ≤ x ∧ x < a + bs.length then bs.getD (x - a) 0 else Tab.get 0 m x := by
  induction bs generalizing m a with
  | nil =>
    have : ¬ (a ≤ x ∧ x < a) := by omega
    simp [writeCells, this]
  | cons b bs ih =>
    simp only [writeCells, ih, Tab.get_put, List.length_cons]
    by_cases h : x = a
    · subst h
      have : ¬ (x + 1 ≤ x ∧ x < x + 1 + bs.length) := by omega
      rw [if_neg this]; simp
    · by_cases h2 : a + 1 ≤ x ∧ x < a + 1 + bs.length
      · have h3 : a ≤ x ∧ x < a + (bs.length + 1) := by omega
        rw [if_pos h2, if_pos h3]
        obtain ⟨d, rfl⟩ : ∃ d, x = a + 1 + d := ⟨x - (a + 1), by omega⟩
        simp only [Nat.add_sub_cancel_left, List.getD_eq_getElem?_getD]
        rw [show a + 1 + d - a = d + 1 by omega, List.getElem?_cons_succ]
      · have h3 : ¬ (a ≤ x ∧ x < a + (bs.length + 1)) := by omega
        rw [if_neg h2, if_neg h3, if_neg h]

/-- A register word that is written reads as written, and every other word as before. -/
@[simp] theorem State.setReg_reg (s : State) (a j : Nat) (v : Word) : (s.setReg a v).reg j = if j = a then v else s.reg j :=
  Tab.getF_putF resetWord s.regs a j v

@[simp] theorem State.setPage_page (s : State) (p q : Nat) (v : Page) : (s.setPage p v).page q = if q = p then v else s.page q :=
  Tab.get_put _ _ _ _ _

end Sys2Proof.Machine
end

