-- ==== Sys2Proof/Tests/Slice0.lean ====
section
/-! SUPPORT. Tests: what well-formedness refuses, published vectors of the ciphers, digests and codes, and for every statement that has hypotheses a
concrete state and operands that meet them. -/

section

open Sys2Proof Sys2Proof.Machine

set_option Elab.async false

/-! ### Well-formedness: an ill-formed term for each check -/

def h0 : CmdHdr := ⟨0, 0, false, false, 0⟩
def p0 : LdtPkt := ⟨0, 0, false, false, false, 0, 0, false, 0, 0, 0, 0, 0, 0, []⟩
def a0 : AckInfo := ⟨0, 0, 0, 0, 0, false⟩
def f0 : SwFrame := ⟨0, 0, 0, [], [], [], false, false, none, 0, 0, 0, false, 0, 0⟩
def m0 : SvcMsg := ⟨0, 0, 0, 0, 0, 0, []⟩
def hBad : CmdHdr := { h0 with inst := 2 ^ 8 }
def pBad : LdtPkt := { p0 with path := 2 ^ 4 }
def aBad : AckInfo := { a0 with sack := 2 ^ 128 }
def fBad : SwFrame := { f0 with src := 21 }
def mBad : SvcMsg := { m0 with magic := 2 ^ 16 }
def eBad : BootEnv := { trains := [true, true] }

theorem test_wf_headers : h0.wf = true ∧ p0.wf = true ∧ a0.wf = true ∧ f0.wf = true ∧ m0.wf = true ∧ ({} : BootEnv).wf = true := by decide

theorem test_wf_refuses_headers :
    ({ h0 with cseq := 2 ^ 64 } : CmdHdr).wf = false ∧ hBad.wf = false ∧
    ([{ p0 with assoc := 2 ^ 16 }, { p0 with psn := 2 ^ 32 }, { p0 with txTs := 2 ^ 32 }, pBad, { p0 with msgId := 2 ^ 32 }, { p0 with msgLen := 2 ^ 32 },
      { p0 with msgOffset := 2 ^ 32 }, { p0 with target := 2 ^ 32 }, { p0 with addr := 2 ^ 64 }, { p0 with imm := 2 ^ 64 }].all
        (fun p : LdtPkt => !p.wf)) = true ∧
    ([{ a0 with cumAck := 2 ^ 32 }, aBad, { a0 with echoTs := 2 ^ 32 }, { a0 with ceCount := 2 ^ 16 }, { a0 with rxCount := 2 ^ 16 }].all
      (fun a : AckInfo => !a.wf)) = true ∧
    ([fBad, { f0 with cls := 8 }, { f0 with mask := 2 ^ 21 }, { f0 with len := 2 ^ 32 }, { f0 with corr := 2 ^ 32 }].all (fun f : SwFrame => !f.wf)) = true ∧
    ([mBad, { m0 with version := 2 ^ 8 }, { m0 with flags := 2 ^ 8 }, { m0 with seq := 2 ^ 16 }, { m0 with count := 2 ^ 16 },
      { m0 with addr := 2 ^ 64 }].all (fun m : SvcMsg => !m.wf)) = true ∧ eBad.wf = false := by decide

theorem test_wf_refuses_long_payload : ({ p0 with payload := List.replicate 8193 0 } : LdtPkt).wf = false := by
  unfold LdtPkt.wf
  simp only [List.length_replicate]
  decide

theorem test_wf_refuses_long_header : ({ f0 with hdr := List.replicate 129 0 } : SwFrame).wf = false := by
  unfold SwFrame.wf
  simp only [List.length_replicate]
  decide

theorem test_wf_accepts_1 : ([
  .registerWrite 0 0 0, .rcCounterRead 0, .blkIrqStatWrite 0 0, .blkIrqForce 0 0, .blockEnable 0, .blockDisable 0, .blockQuiesce 0, .blockResume 0,
  .quiesceComplete 0, .blockReset 0, .blockResetDone 0, .blockFault 0 0 0, .eseqConsWrite 0, .cseqProdWrite 0, .nop h0 (⟨0, 0⟩), .configCommit h0 0,
  .paceWindowEnd 0 [], .crossingValueTransfer 0 0 (⟨0, none⟩) [], .crossingEventToggle 0 0, .crossingEventAck 0 0, .islandClockCapture 0 0,
  .xeTimeout 0 0, .clkStopWrite 0, .islandClockStop 0, .islandRefClockLoss 0, .pairReset 0, .pairResetRelease 0, .coreRunWrite 0 0, .memCfgWrite 0 0,
  .memCfgDone 0, .timeSet 0, .timeStep 0, .storeOpDone none, .hportFrameReceive 0 [], .hsRx 0 (List.replicate 16 0) 0 [], .ldtAckReceive 0 a0,
  .ldtNakReceive p0 0 0, .ldtKeepaliveReceive p0, .ldtCloseReceive p0, .ldtWriteReceive p0, .ldtWriteNotifyReceive p0, .ldtSendReceive p0,
  .ldtReadReqReceive p0, .ldtReadRespReceive p0, .ldtCapsuleReceive p0, .ctxFetchDone 0 false, .ackDelayExpiry 0, .ldtPacketTransmit 0, .rtoExpiry 0,
  .pathUp 0 0, .keepaliveIntervalExpiry 0, .kaTimeoutExpiry 0, .rcIntervalEnd 0, .keyPhaseRetire 0, .assocOpen h0 0 0 0 0 0 0, .assocClose h0 0,
  .assocCloseSend 0, .assocRekey h0 0 false false, .assocFree h0 0, .hsSend h0 0 0 0 (List.replicate 16 0), .ctxPin h0 0, .ctxUnpin h0 0,
  .ctxWriteback h0 0, .rgnRegister h0 0 0 0 0 0 0, .rgnRevoke h0 0 0, .regionRevokeDone 0, .heldCommandRelease 0, .nvmeFlush 0, .nvmeWrite 0,
  .nvmeRead (⟨0, [(0, [])]⟩), .nvmeCompare 0, .nvmeWriteZeroes 0, .nvmeDatasetManagement 0, .nvmeVerify 0, .nvmeSoftwareHandoff 0, .writeDurable 0,
  .queueCreate h0 0 0 0 0 0 0 0 0, .queueDelete h0 0, .nsSet h0 0 [], .complete h0 0 0 0 0 0 0, .abort h0 0 0,
  .nvtcpSyn 0 (List.replicate 16 0) (List.replicate 16 0) 0 ({ irs := 0, tsval := none }) 0,
  .nvtcpSegmentReceive 0 0 0 false false false ({ ts := some (1, 1), payload := [] }), .nvtcpIcreq 0, .nvtcpCapsuleCmd 0, .nvtcpH2cData 0,
  .nvtcpH2cTermReq 0, .nvtcpRtoExpiry 0, .swFrameInput f0, .mcHoldTimeout 0 0, .peerMemberDown 0, .plinkLinkUp 0, .markFingerprint 0 false false,
  .markKeyDerive h0 0 0 0, .markKeyClear h0 0, .markKeyClearDone 0, .markDigest h0 0 0 0 0 0 false, .markPioStart 0, .markPioData 0 0 0 false,
  .markPioLast 0 0 0, .markPioDone 0, .markKeyRefillDone 0, .grogLookup 0, .grogPendingResolve 0, .grogProbeDone 0 false, .grogConfirm 0,
  .grogVerifyDone 0, .grogDomainSet h0 0 0 0 0, .grogDomainPurge h0 0, .grogPurgeDone 0, .grogReconcile h0, .grogIndexRebuild h0 0,
  .grogIndexRebuildDone 0, .wedgeCompress 0 [], .wedgeVerify 0, .wedgeDecode 0, .wedgeJob h0 0 [], .keysLoad h0 0 0 0 0 0 0 0 0 0, .keysClear h0 0 0,
  .keysClearDone 0 0, .keySlotBringIn 0, .dciphEncrypt 0 none, .dciphDecrypt 0, .gciphSeg h0 0, .gciphLockWrite 0 false, .gciphReleaseWrite 0 false,
  .gciphForceRelease none, .tamperWarn 0 0 false, .tamperAlarm 0 0 0, .volCreate h0 0 0 0 0 0, .volResize h0 0 0, .volDelete h0 0, .tenantSet h0 0 0,
  .mapPageFetchDone 0 (⟨[⟨[], false⟩], []⟩), .mapPageWriteback 0, .mouldCreate h0 0 0, .mouldSealed 0, .mouldCg h0 0 0, .mouldDelete h0 0,
  .mouldDeleteDone 0, .mouldClone h0 0 0 0 0, .slipPair h0 0 0 0 0 0 0 0 0 0 0, .slipShip h0 0 0 0, .slipResume h0 0 0, .slipSetMould h0 0 0,
  .slipPromote h0 0, .slipUnpair h0 0, .slipRecordSend 0, .slipRecordArrive 0 0, .slipRecordApplied 0 0] : List Instr).all Instr.wf = true := by decide +kernel

theorem test_wf_accepts_2 : ([
  .slipStatusReceive 0 0 0 0, .slipAckTimeout 0 0, .slipResyncPass 0, .rowProgram (⟨0, [(0, 767, [])]⟩), .rowFillTimeout (⟨0, [(0, 767, [])]⟩),
  .sagLogComplete 0 0, .programFailure 0 0 0, .eraseFailure 0 0, .codewordRead 0 (⟨[⟨[], false⟩], []⟩), .patrolRead 0 0 0 0 (⟨[], false⟩), .ftlCkpt h0,
  .ftlRetire h0 0 0, .pugVictimSelect 0, .pugUnitRead 0 0 0 (⟨[⟨[], false⟩], []⟩), .pugMoveVerify 0 0 [], .pugMoveCommit 0 0 0, .pugErase 0,
  .segmentEraseDone 0, .pugScanDone 0, .pugReclaim h0 0, .pugHold h0 0 0, .parRepair 0 [(23, 3, List.replicate 4112 0)], .parGroupCreate h0 0 0 0 0 0,
  .parGroupDelete h0 0, .sagDumpDone 0, .sagReplay h0, .memberDeclaredFailed 0, .offlineMaxExpiry 0, .rebuildSegment 0, .rbldFail h0 0,
  .rbldOffline h0 0, .rbldOnline h0 0, .rbldJoin h0 0 0 0, .mlinkLinkEn 0 false, .mlinkRetrain 0, .mlinkSignalLock 0 0, .mlinkAlignDone 0 0,
  .mlinkConfigReceive 0 0, .mlinkFlitReceive 0 (List.replicate 256 0), .mlinkReplayTimeout 0, .mlinkCrcSilence 0, .mlinkDataReceive 0 0 0 [],
  .mlinkCplReceive 0 0 0 [], .mlinkAttnReceive 0 0, .mlinkOpTimeout 0 0, .moduleRemoved 0, .moduleArrived 0, .mlinkReserve h0 0 0,
  .mlinkFwWrite h0 0 0 0, .mlinkFwDigest h0 0, .mlinkFwActivate h0, .mlinkFwCommit h0, .mlinkFwRevert h0, .peerctlPair h0 0 0 0 0 0 0,
  .peerctlUnpair h0, .peerctlResync h0, .peerctlTakeover h0 false 0 false, .peerctlHandover h0 0 0, .peerctlHome h0 0 0, .heartbeat 0 0 0 0 0 0 0 0 0,
  .cancel 0 0 0, .runReq 0 0, .runGrant 0 [], .resyncDone 0 0, .handover 0 0 0 0 0, .handoverAck 0 0, .mirrorRingReceive 0 [], .inboxBatchReceive 0 [],
  .mirrorAckTimeout 0, .qosSet h0 0 0 0 0 0 0, .qosHistSnap h0 0 0, .hbmSelfRefreshEnter 0, .hbmSelfRefreshExit 0, .hbmSrEntered 0, .hbmSrExited 0,
  .hbmScrub 0, .syscRead 0 0 false 0, .syscWrite 0 [] false, .syscFillDone 0 0, .syscWayDisable 0, .syscWayEnable 0, .syscWayOff 0, .syscWayPowered 0,
  .syscInval h0 0 0 0, .syscZero h0 0 0, .syscLockedFill h0 0 0 0, .pwrSet h0 0 0, .domainDrained 0, .drainTimerExpiry 0, .domainEntryDone 0,
  .domainWakeDone 0, .pwrCold h0, .pwrBankGate 0, .chipDomainReset h0 0, .aonSwDataWrite 0 0, .svcRead m0, .svcWrite m0, .svcRead64 m0, .svcWrite64 m0,
  .svcHbmRead m0, .svcHbmWrite m0, .updData m0, .ping m0, .setdasa 0, .entdaa 0, .updVerify h0, .updStage h0 false false, .updBridges h0 0,
  .updActivate h0 false, .updConfirm h0 false, .updAbandon h0, .updClear h0, .updKeyRevoke 0, .porstNRelease {}, .powerGoodAssert {},
  .startStageWrite 0, .warmRestart 0 {}, .watchdogTimeoutWrite 0, .jtagInstruction 0] : List Instr).all Instr.wf = true := by decide +kernel

theorem test_wf_refuses_1 : ([
  .registerWrite (2 ^ 64) 0 0, .registerWrite 0 (2 ^ 64) 0, .registerWrite 0 0 (2 ^ 64), .rcCounterRead (2 ^ 64), .blkIrqStatWrite (2 ^ 16) 0,
  .blkIrqForce (2 ^ 16) 0, .blockEnable (2 ^ 16), .blockDisable (2 ^ 16), .blockQuiesce (2 ^ 16), .blockResume (2 ^ 16), .quiesceComplete (2 ^ 16),
  .blockReset (2 ^ 16), .blockResetDone (2 ^ 16), .blockFault (2 ^ 16) 0 0, .eseqConsWrite (2 ^ 64), .cseqProdWrite (2 ^ 64), .nop hBad (⟨0, 0⟩),
  .nop h0 (⟨2 ^ 8, 0⟩), .nop h0 (⟨0, 2 ^ 16⟩), .configCommit hBad 0, .configCommit h0 (2 ^ 8), .paceWindowEnd (2 ^ 32) [], .paceWindowEnd 0 ([2 ^ 32]),
  .crossingValueTransfer (2 ^ 8) 0 (⟨0, none⟩) [], .crossingValueTransfer 0 (2 ^ 8) (⟨0, none⟩) [], .crossingValueTransfer 0 0 (⟨2 ^ 64, none⟩) [],
  .crossingValueTransfer 0 0 (⟨0, some (2 ^ 16)⟩) [], .crossingValueTransfer 0 0 (⟨0, none⟩) ([2 ^ 32]), .crossingEventToggle (2 ^ 8) 0,
  .crossingEventToggle 0 (2 ^ 8), .crossingEventAck (2 ^ 8) 0, .crossingEventAck 0 (2 ^ 8), .islandClockCapture (2 ^ 8) 0,
  .islandClockCapture 0 (2 ^ 8), .xeTimeout (2 ^ 8) 0, .xeTimeout 0 (2 ^ 8), .clkStopWrite (2 ^ 8), .islandClockStop (2 ^ 8),
  .islandRefClockLoss (2 ^ 8), .pairReset (2 ^ 8), .pairResetRelease (2 ^ 8), .coreRunWrite (2 ^ 8) 0, .coreRunWrite 0 (2 ^ 64),
  .memCfgWrite (2 ^ 8) 0, .memCfgWrite 0 (2 ^ 8), .memCfgDone (2 ^ 8), .timeSet (2 ^ 64), .timeStep (-(2 ^ 63) - 1), .timeStep (2 ^ 63),
  .storeOpDone (some (2 ^ 32)), .hportFrameReceive (2 ^ 8) [], .hsRx (2 ^ 8) (List.replicate 16 0) 0 [], .hsRx 0 [] 0 [],
  .hsRx 0 (List.replicate 16 0) (2 ^ 16) [], .ldtAckReceive (2 ^ 16) a0, .ldtAckReceive 0 aBad, .ldtNakReceive pBad 0 0, .ldtNakReceive p0 (2 ^ 8) 0,
  .ldtNakReceive p0 0 (2 ^ 32), .ldtKeepaliveReceive pBad, .ldtCloseReceive pBad, .ldtWriteReceive pBad, .ldtWriteNotifyReceive pBad,
  .ldtSendReceive pBad, .ldtReadReqReceive pBad, .ldtReadRespReceive pBad, .ldtCapsuleReceive pBad, .ctxFetchDone (2 ^ 32) false,
  .ackDelayExpiry (2 ^ 16), .ldtPacketTransmit (2 ^ 16), .rtoExpiry (2 ^ 16), .pathUp (2 ^ 16) 0, .pathUp 0 (2 ^ 8), .keepaliveIntervalExpiry (2 ^ 16),
  .kaTimeoutExpiry (2 ^ 16), .rcIntervalEnd (2 ^ 16), .keyPhaseRetire (2 ^ 16), .assocOpen hBad 0 0 0 0 0 0, .assocOpen h0 (2 ^ 16) 0 0 0 0 0,
  .assocOpen h0 0 (2 ^ 16) 0 0 0 0] : List Instr).any Instr.wf = false := by decide +kernel

theorem test_wf_refuses_2 : ([
  .assocOpen h0 0 0 (2 ^ 32) 0 0 0, .assocOpen h0 0 0 0 (2 ^ 32) 0 0, .assocOpen h0 0 0 0 0 (2 ^ 8) 0, .assocOpen h0 0 0 0 0 0 (2 ^ 64),
  .assocClose hBad 0, .assocClose h0 (2 ^ 16), .assocCloseSend (2 ^ 16), .assocRekey hBad 0 false false, .assocRekey h0 (2 ^ 16) false false,
  .assocFree hBad 0, .assocFree h0 (2 ^ 16), .hsSend hBad 0 0 0 (List.replicate 16 0), .hsSend h0 (2 ^ 8) 0 0 (List.replicate 16 0),
  .hsSend h0 0 (2 ^ 32) 0 (List.replicate 16 0), .hsSend h0 0 0 (2 ^ 64) (List.replicate 16 0), .hsSend h0 0 0 0 [], .ctxPin hBad 0,
  .ctxPin h0 (2 ^ 32), .ctxUnpin hBad 0, .ctxUnpin h0 (2 ^ 32), .ctxWriteback hBad 0, .ctxWriteback h0 (2 ^ 32), .rgnRegister hBad 0 0 0 0 0 0,
  .rgnRegister h0 (2 ^ 32) 0 0 0 0 0, .rgnRegister h0 0 (2 ^ 16) 0 0 0 0, .rgnRegister h0 0 0 (2 ^ 8) 0 0 0, .rgnRegister h0 0 0 0 (2 ^ 8) 0 0,
  .rgnRegister h0 0 0 0 0 (2 ^ 64) 0, .rgnRegister h0 0 0 0 0 0 (2 ^ 64), .rgnRevoke hBad 0 0, .rgnRevoke h0 (2 ^ 32) 0, .rgnRevoke h0 0 (2 ^ 8),
  .regionRevokeDone (2 ^ 32), .heldCommandRelease (2 ^ 16), .nvmeFlush (2 ^ 48), .nvmeWrite (2 ^ 48), .nvmeRead (⟨2 ^ 48, []⟩),
  .nvmeRead (⟨0, [(2 ^ 64, [])]⟩), .nvmeCompare (2 ^ 48), .nvmeWriteZeroes (2 ^ 48), .nvmeDatasetManagement (2 ^ 48), .nvmeVerify (2 ^ 48),
  .nvmeSoftwareHandoff (2 ^ 48), .writeDurable (2 ^ 48), .queueCreate hBad 0 0 0 0 0 0 0 0, .queueCreate h0 (2 ^ 32) 0 0 0 0 0 0 0,
  .queueCreate h0 0 (2 ^ 16) 0 0 0 0 0 0, .queueCreate h0 0 0 (2 ^ 16) 0 0 0 0 0, .queueCreate h0 0 0 0 (2 ^ 16) 0 0 0 0,
  .queueCreate h0 0 0 0 0 (2 ^ 8) 0 0 0, .queueCreate h0 0 0 0 0 0 (2 ^ 32) 0 0, .queueCreate h0 0 0 0 0 0 0 (2 ^ 16) 0,
  .queueCreate h0 0 0 0 0 0 0 0 (2 ^ 64), .queueDelete hBad 0, .queueDelete h0 (2 ^ 32), .nsSet hBad 0 [], .nsSet h0 (2 ^ 32) [],
  .complete hBad 0 0 0 0 0 0, .complete h0 (2 ^ 32) 0 0 0 0 0, .complete h0 0 (2 ^ 16) 0 0 0 0, .complete h0 0 0 (2 ^ 16) 0 0 0,
  .complete h0 0 0 0 (2 ^ 32) 0 0, .complete h0 0 0 0 0 (2 ^ 32) 0, .complete h0 0 0 0 0 0 (2 ^ 16), .abort hBad 0 0, .abort h0 (2 ^ 32) 0,
  .abort h0 0 (2 ^ 16), .nvtcpSyn (2 ^ 8) (List.replicate 16 0) (List.replicate 16 0) 0 ({ irs := 0, tsval := none }) 0,
  .nvtcpSyn 0 [] (List.replicate 16 0) 0 ({ irs := 0, tsval := none }) 0, .nvtcpSyn 0 (List.replicate 16 0) [] 0 ({ irs := 0, tsval := none }) 0,
  .nvtcpSyn 0 (List.replicate 16 0) (List.replicate 16 0) (2 ^ 16) ({ irs := 0, tsval := none }) 0,
  .nvtcpSyn 0 (List.replicate 16 0) (List.replicate 16 0) 0 ({ irs := 2 ^ 32, tsval := none }) 0,
  .nvtcpSyn 0 (List.replicate 16 0) (List.replicate 16 0) 0 ({ irs := 0, tsval := some (2 ^ 32) }) 0,
  .nvtcpSyn 0 (List.replicate 16 0) (List.replicate 16 0) 0 ({ irs := 0, tsval := none, mss := some (2 ^ 16) }) 0,
  .nvtcpSyn 0 (List.replicate 16 0) (List.replicate 16 0) 0 ({ irs := 0, tsval := none, scale := some 256 }) 0,
  .nvtcpSyn 0 (List.replicate 16 0) (List.replicate 16 0) 0 ({ irs := 0, tsval := none, win := 2 ^ 16 }) 0,
  .nvtcpSyn 0 (List.replicate 16 0) (List.replicate 16 0) 0 ({ irs := 0, tsval := none }) (2 ^ 32),
  .nvtcpSegmentReceive (2 ^ 32) 0 0 false false false ({ ts := some (1, 1), payload := [] }),
  .nvtcpSegmentReceive 0 (2 ^ 32) 0 false false false ({ ts := some (1, 1), payload := [] }),
  .nvtcpSegmentReceive 0 0 (2 ^ 32) false false false ({ ts := some (1, 1), payload := [] })] : List Instr).any Instr.wf = false := by decide +kernel

theorem test_wf_refuses_3 : ([
  .nvtcpSegmentReceive 0 0 0 false false false ({ ts := some (2 ^ 32, 0), payload := [] }),
  .nvtcpSegmentReceive 0 0 0 false false false ({ ts := some (0, 2 ^ 32), payload := [] }),
  .nvtcpSegmentReceive 0 0 0 false false false ({ ts := none, payload := [], win := 2 ^ 16 }),
  .nvtcpSegmentReceive 0 0 0 false false false ({ ts := none, payload := [], sack := [(2 ^ 32, 0)] }), .nvtcpIcreq (2 ^ 32), .nvtcpCapsuleCmd (2 ^ 32),
  .nvtcpH2cData (2 ^ 32), .nvtcpH2cTermReq (2 ^ 32), .nvtcpRtoExpiry (2 ^ 32), .swFrameInput fBad, .mcHoldTimeout (2 ^ 48) 0, .mcHoldTimeout 0 (2 ^ 8),
  .peerMemberDown (2 ^ 8), .plinkLinkUp (2 ^ 8), .markFingerprint (2 ^ 64) false false, .markKeyDerive hBad 0 0 0, .markKeyDerive h0 (2 ^ 32) 0 0,
  .markKeyDerive h0 0 (2 ^ 8) 0, .markKeyDerive h0 0 0 (2 ^ 32), .markKeyClear hBad 0, .markKeyClear h0 (2 ^ 32), .markKeyClearDone (2 ^ 32),
  .markDigest hBad 0 0 0 0 0 false, .markDigest h0 (2 ^ 32) 0 0 0 0 false, .markDigest h0 0 (2 ^ 32) 0 0 0 false,
  .markDigest h0 0 0 (2 ^ 64) 0 0 false, .markDigest h0 0 0 0 (2 ^ 64) 0 false, .markDigest h0 0 0 0 0 (2 ^ 64) false, .markPioStart (2 ^ 8),
  .markPioData (2 ^ 8) 0 0 false, .markPioData 0 (2 ^ 64) 0 false, .markPioData 0 0 (2 ^ 64) false, .markPioLast (2 ^ 8) 0 0,
  .markPioLast 0 (2 ^ 64) 0, .markPioLast 0 0 (2 ^ 64), .markPioDone (2 ^ 8), .markKeyRefillDone (2 ^ 8), .grogLookup (2 ^ 64),
  .grogPendingResolve (2 ^ 64), .grogProbeDone (2 ^ 64) false, .grogConfirm (2 ^ 64), .grogVerifyDone (2 ^ 64), .grogDomainSet hBad 0 0 0 0,
  .grogDomainSet h0 (2 ^ 16) 0 0 0, .grogDomainSet h0 0 (2 ^ 16) 0 0, .grogDomainSet h0 0 0 (2 ^ 8) 0, .grogDomainSet h0 0 0 0 (2 ^ 8),
  .grogDomainPurge hBad 0, .grogDomainPurge h0 (2 ^ 16), .grogPurgeDone (2 ^ 16), .grogReconcile hBad, .grogIndexRebuild hBad 0,
  .grogIndexRebuild h0 (2 ^ 64), .grogIndexRebuildDone (2 ^ 64), .wedgeCompress (2 ^ 64) [], .wedgeVerify (2 ^ 64), .wedgeDecode (2 ^ 64),
  .wedgeJob hBad 0 [], .wedgeJob h0 (2 ^ 64) [], .keysLoad hBad 0 0 0 0 0 0 0 0 0, .keysLoad h0 (2 ^ 8) 0 0 0 0 0 0 0 0,
  .keysLoad h0 0 (2 ^ 8) 0 0 0 0 0 0 0, .keysLoad h0 0 0 (2 ^ 32) 0 0 0 0 0 0, .keysLoad h0 0 0 0 (2 ^ 8) 0 0 0 0 0,
  .keysLoad h0 0 0 0 0 (2 ^ 32) 0 0 0 0, .keysLoad h0 0 0 0 0 0 (2 ^ 64) 0 0 0, .keysLoad h0 0 0 0 0 0 0 (2 ^ 32) 0 0,
  .keysLoad h0 0 0 0 0 0 0 0 (2 ^ 32) 0, .keysLoad h0 0 0 0 0 0 0 0 0 (2 ^ 16), .keysClear hBad 0 0, .keysClear h0 (2 ^ 8) 0, .keysClear h0 0 (2 ^ 32),
  .keysClearDone (2 ^ 8) 0, .keysClearDone 0 (2 ^ 32), .keySlotBringIn (2 ^ 32), .dciphEncrypt (2 ^ 64) none, .dciphDecrypt (2 ^ 64), .gciphSeg hBad 0,
  .gciphSeg h0 (2 ^ 64), .gciphLockWrite (2 ^ 8) false] : List Instr).any Instr.wf = false := by decide +kernel

theorem test_wf_refuses_4 : ([
  .gciphReleaseWrite (2 ^ 8) false, .gciphForceRelease (some (2 ^ 16)), .tamperWarn (2 ^ 8) 0 false, .tamperWarn 0 (2 ^ 32) false,
  .tamperAlarm (2 ^ 8) 0 0, .tamperAlarm 0 (2 ^ 32) 0, .tamperAlarm 0 0 (2 ^ 32), .volCreate hBad 0 0 0 0 0, .volCreate h0 (2 ^ 32) 0 0 0 0,
  .volCreate h0 0 (2 ^ 16) 0 0 0, .volCreate h0 0 0 (2 ^ 16) 0 0, .volCreate h0 0 0 0 (2 ^ 32) 0, .volCreate h0 0 0 0 0 (2 ^ 64), .volResize hBad 0 0,
  .volResize h0 (2 ^ 32) 0, .volResize h0 0 (2 ^ 64), .volDelete hBad 0, .volDelete h0 (2 ^ 32), .tenantSet hBad 0 0, .tenantSet h0 (2 ^ 16) 0,
  .tenantSet h0 0 (2 ^ 64), .mapPageFetchDone (2 ^ 64) (⟨[⟨[], false⟩], []⟩), .mapPageFetchDone 0 (⟨[⟨[], false⟩], [(24, 0, List.replicate 4112 0)]⟩),
  .mapPageFetchDone 0 (⟨[⟨[], false⟩], [(0, 4, List.replicate 4112 0)]⟩), .mapPageFetchDone 0 (⟨[⟨[], false⟩], [(0, 0, [])]⟩),
  .mapPageWriteback (2 ^ 64), .mouldCreate hBad 0 0, .mouldCreate h0 (2 ^ 32) 0, .mouldCreate h0 0 (2 ^ 32), .mouldSealed (2 ^ 32), .mouldCg hBad 0 0,
  .mouldCg h0 (2 ^ 32) 0, .mouldCg h0 0 (2 ^ 64), .mouldDelete hBad 0, .mouldDelete h0 (2 ^ 32), .mouldDeleteDone (2 ^ 32), .mouldClone hBad 0 0 0 0,
  .mouldClone h0 (2 ^ 32) 0 0 0, .mouldClone h0 0 (2 ^ 32) 0 0, .mouldClone h0 0 0 (2 ^ 8) 0, .mouldClone h0 0 0 0 (2 ^ 32),
  .slipPair hBad 0 0 0 0 0 0 0 0 0 0, .slipPair h0 (2 ^ 32) 0 0 0 0 0 0 0 0 0, .slipPair h0 0 (2 ^ 8) 0 0 0 0 0 0 0 0,
  .slipPair h0 0 0 (2 ^ 8) 0 0 0 0 0 0 0, .slipPair h0 0 0 0 (2 ^ 8) 0 0 0 0 0 0, .slipPair h0 0 0 0 0 (2 ^ 8) 0 0 0 0 0,
  .slipPair h0 0 0 0 0 0 (2 ^ 16) 0 0 0 0, .slipPair h0 0 0 0 0 0 0 (2 ^ 32) 0 0 0, .slipPair h0 0 0 0 0 0 0 0 (2 ^ 64) 0 0,
  .slipPair h0 0 0 0 0 0 0 0 0 (2 ^ 16) 0, .slipPair h0 0 0 0 0 0 0 0 0 0 (2 ^ 64), .slipShip hBad 0 0 0, .slipShip h0 (2 ^ 32) 0 0,
  .slipShip h0 0 (2 ^ 64) 0, .slipShip h0 0 0 (2 ^ 32), .slipResume hBad 0 0, .slipResume h0 (2 ^ 32) 0, .slipResume h0 0 (2 ^ 16),
  .slipSetMould hBad 0 0, .slipSetMould h0 (2 ^ 32) 0, .slipSetMould h0 0 (2 ^ 32), .slipPromote hBad 0, .slipPromote h0 (2 ^ 32), .slipUnpair hBad 0,
  .slipUnpair h0 (2 ^ 32), .slipRecordSend (2 ^ 32), .slipRecordArrive (2 ^ 32) 0, .slipRecordArrive 0 (2 ^ 64), .slipRecordApplied (2 ^ 32) 0,
  .slipRecordApplied 0 (2 ^ 64), .slipStatusReceive (2 ^ 32) 0 0 0, .slipStatusReceive 0 (2 ^ 64) 0 0, .slipStatusReceive 0 0 (2 ^ 8) 0,
  .slipStatusReceive 0 0 0 (2 ^ 8), .slipAckTimeout (2 ^ 32) 0, .slipAckTimeout 0 (2 ^ 64), .slipResyncPass (2 ^ 32), .rowProgram (⟨2 ^ 32, []⟩),
  .rowProgram (⟨0, [(2 ^ 16, 0, [])]⟩)] : List Instr).any Instr.wf = false := by decide +kernel

theorem test_wf_refuses_5 : ([
  .rowProgram (⟨0, [(0, 768, [])]⟩), .rowFillTimeout (⟨2 ^ 32, []⟩), .rowFillTimeout (⟨0, [(2 ^ 16, 0, [])]⟩), .rowFillTimeout (⟨0, [(0, 768, [])]⟩),
  .sagLogComplete (2 ^ 32) 0, .sagLogComplete 0 (2 ^ 16), .programFailure (2 ^ 32) 0 0, .programFailure 0 (2 ^ 16) 0, .programFailure 0 0 (2 ^ 8),
  .eraseFailure (2 ^ 32) 0, .eraseFailure 0 (2 ^ 8), .codewordRead (2 ^ 64) (⟨[⟨[], false⟩], []⟩),
  .codewordRead 0 (⟨[⟨[], false⟩], [(24, 0, List.replicate 4112 0)]⟩), .codewordRead 0 (⟨[⟨[], false⟩], [(0, 4, List.replicate 4112 0)]⟩),
  .codewordRead 0 (⟨[⟨[], false⟩], [(0, 0, [])]⟩), .patrolRead (2 ^ 32) 0 0 0 (⟨[], false⟩), .patrolRead 0 (2 ^ 16) 0 0 (⟨[], false⟩),
  .patrolRead 0 0 (2 ^ 8) 0 (⟨[], false⟩), .patrolRead 0 0 0 (2 ^ 16) (⟨[], false⟩), .ftlCkpt hBad, .ftlRetire hBad 0 0, .ftlRetire h0 (2 ^ 8) 0,
  .ftlRetire h0 0 (2 ^ 32), .pugVictimSelect (2 ^ 8), .pugUnitRead (2 ^ 32) 0 0 (⟨[⟨[], false⟩], []⟩), .pugUnitRead 0 (2 ^ 16) 0 (⟨[⟨[], false⟩], []⟩),
  .pugUnitRead 0 0 (2 ^ 16) (⟨[⟨[], false⟩], []⟩), .pugUnitRead 0 0 0 (⟨[⟨[], false⟩], [(24, 0, List.replicate 4112 0)]⟩),
  .pugUnitRead 0 0 0 (⟨[⟨[], false⟩], [(0, 4, List.replicate 4112 0)]⟩), .pugUnitRead 0 0 0 (⟨[⟨[], false⟩], [(0, 0, [])]⟩),
  .pugMoveVerify (2 ^ 32) 0 [], .pugMoveVerify 0 (2 ^ 16) [], .pugMoveVerify 0 0 [24], .pugMoveCommit (2 ^ 32) 0 0, .pugMoveCommit 0 (2 ^ 16) 0,
  .pugMoveCommit 0 0 (2 ^ 16), .pugErase (2 ^ 32), .segmentEraseDone (2 ^ 32), .pugScanDone (2 ^ 32), .pugReclaim hBad 0, .pugReclaim h0 (2 ^ 32),
  .pugHold hBad 0 0, .pugHold h0 (2 ^ 8) 0, .pugHold h0 0 (2 ^ 8), .parRepair (2 ^ 64) [], .parRepair 0 [(24, 0, List.replicate 4112 0)],
  .parRepair 0 [(0, 4, List.replicate 4112 0)], .parRepair 0 [(0, 0, [])], .parGroupCreate hBad 0 0 0 0 0, .parGroupCreate h0 (2 ^ 8) 0 0 0 0,
  .parGroupCreate h0 0 (2 ^ 8) 0 0 0, .parGroupCreate h0 0 0 (2 ^ 16) 0 0, .parGroupCreate h0 0 0 0 (2 ^ 32) 0, .parGroupCreate h0 0 0 0 0 (2 ^ 32),
  .parGroupDelete hBad 0, .parGroupDelete h0 (2 ^ 8), .sagDumpDone (2 ^ 32), .sagReplay hBad, .memberDeclaredFailed (2 ^ 8), .offlineMaxExpiry (2 ^ 8),
  .rebuildSegment (2 ^ 8), .rbldFail hBad 0, .rbldFail h0 (2 ^ 8), .rbldOffline hBad 0, .rbldOffline h0 (2 ^ 8), .rbldOnline hBad 0,
  .rbldOnline h0 (2 ^ 8), .rbldJoin hBad 0 0 0, .rbldJoin h0 (2 ^ 8) 0 0, .rbldJoin h0 0 (2 ^ 8) 0, .rbldJoin h0 0 0 (2 ^ 8),
  .mlinkLinkEn (2 ^ 8) false, .mlinkRetrain (2 ^ 8), .mlinkSignalLock (2 ^ 8) 0, .mlinkSignalLock 0 (2 ^ 8), .mlinkAlignDone (2 ^ 8) 0,
  .mlinkAlignDone 0 (2 ^ 8), .mlinkConfigReceive (2 ^ 8) 0, .mlinkConfigReceive 0 (2 ^ 16), .mlinkFlitReceive (2 ^ 8) (List.replicate 256 0)] : List Instr).any Instr.wf = false := by decide +kernel

theorem test_wf_refuses_6 : ([
  .mlinkFlitReceive 0 [], .mlinkReplayTimeout (2 ^ 8), .mlinkCrcSilence (2 ^ 8), .mlinkDataReceive (2 ^ 8) 0 0 [], .mlinkDataReceive 0 (2 ^ 16) 0 [],
  .mlinkDataReceive 0 0 (2 ^ 16) [], .mlinkCplReceive (2 ^ 8) 0 0 [], .mlinkCplReceive 0 (2 ^ 16) 0 [], .mlinkCplReceive 0 0 (2 ^ 16) [],
  .mlinkAttnReceive (2 ^ 8) 0, .mlinkAttnReceive 0 (2 ^ 8), .mlinkOpTimeout (2 ^ 8) 0, .mlinkOpTimeout 0 (2 ^ 16), .moduleRemoved (2 ^ 8),
  .moduleArrived (2 ^ 8), .mlinkReserve hBad 0 0, .mlinkReserve h0 (2 ^ 8) 0, .mlinkReserve h0 0 (2 ^ 8), .mlinkFwWrite hBad 0 0 0,
  .mlinkFwWrite h0 (2 ^ 64) 0 0, .mlinkFwWrite h0 0 (2 ^ 64) 0, .mlinkFwWrite h0 0 0 (2 ^ 64), .mlinkFwDigest hBad 0, .mlinkFwDigest h0 (2 ^ 64),
  .mlinkFwActivate hBad, .mlinkFwCommit hBad, .mlinkFwRevert hBad, .peerctlPair hBad 0 0 0 0 0 0, .peerctlPair h0 (2 ^ 16) 0 0 0 0 0,
  .peerctlPair h0 0 (2 ^ 64) 0 0 0 0, .peerctlPair h0 0 0 (2 ^ 64) 0 0 0, .peerctlPair h0 0 0 0 (2 ^ 64) 0 0, .peerctlPair h0 0 0 0 0 (2 ^ 64) 0,
  .peerctlPair h0 0 0 0 0 0 (2 ^ 64), .peerctlUnpair hBad, .peerctlResync hBad, .peerctlTakeover hBad false 0 false,
  .peerctlTakeover h0 false (2 ^ 8) false, .peerctlHandover hBad 0 0, .peerctlHandover h0 (2 ^ 8) 0, .peerctlHandover h0 0 (2 ^ 32),
  .peerctlHome hBad 0 0, .peerctlHome h0 (2 ^ 16) 0, .peerctlHome h0 0 (2 ^ 8), .heartbeat (2 ^ 64) 0 0 0 0 0 0 0 0,
  .heartbeat 0 (2 ^ 64) 0 0 0 0 0 0 0, .heartbeat 0 0 (2 ^ 64) 0 0 0 0 0 0, .heartbeat 0 0 0 (2 ^ 64) 0 0 0 0 0, .heartbeat 0 0 0 0 (2 ^ 64) 0 0 0 0,
  .heartbeat 0 0 0 0 0 (2 ^ 8) 0 0 0, .heartbeat 0 0 0 0 0 0 (2 ^ 8) 0 0, .heartbeat 0 0 0 0 0 0 0 (2 ^ 8) 0, .heartbeat 0 0 0 0 0 0 0 0 (2 ^ 8),
  .cancel (2 ^ 64) 0 0, .cancel 0 (2 ^ 64) 0, .cancel 0 0 (2 ^ 32), .runReq (2 ^ 64) 0, .runReq 0 (2 ^ 32), .runGrant (2 ^ 64) [],
  .runGrant 0 ([2 ^ 32]), .resyncDone (2 ^ 64) 0, .resyncDone 0 (2 ^ 64), .handover (2 ^ 64) 0 0 0 0, .handover 0 (2 ^ 8) 0 0 0,
  .handover 0 0 (2 ^ 32) 0 0, .handover 0 0 0 (2 ^ 64) 0, .handover 0 0 0 0 (2 ^ 64), .handoverAck (2 ^ 64) 0, .handoverAck 0 (2 ^ 8),
  .mirrorRingReceive (2 ^ 64) [], .inboxBatchReceive (2 ^ 64) [], .mirrorAckTimeout (2 ^ 64), .qosSet hBad 0 0 0 0 0 0, .qosSet h0 (2 ^ 16) 0 0 0 0 0,
  .qosSet h0 0 (2 ^ 32) 0 0 0 0, .qosSet h0 0 0 (2 ^ 32) 0 0 0, .qosSet h0 0 0 0 (2 ^ 32) 0 0, .qosSet h0 0 0 0 0 (2 ^ 32) 0,
  .qosSet h0 0 0 0 0 0 (2 ^ 32), .qosHistSnap hBad 0 0] : List Instr).any Instr.wf = false := by decide +kernel

theorem test_wf_refuses_7 : ([
  .qosHistSnap h0 (2 ^ 16) 0, .qosHistSnap h0 0 (2 ^ 64), .hbmSelfRefreshEnter (2 ^ 8), .hbmSelfRefreshExit (2 ^ 8), .hbmSrEntered (2 ^ 8),
  .hbmSrExited (2 ^ 8), .hbmScrub (2 ^ 8), .syscRead (2 ^ 64) 0 false 0, .syscRead 0 (2 ^ 32) false 0, .syscRead 0 0 false (2 ^ 8),
  .syscWrite (2 ^ 64) [] false, .syscFillDone (2 ^ 8) 0, .syscFillDone 0 (2 ^ 64), .syscWayDisable (2 ^ 8), .syscWayEnable (2 ^ 8),
  .syscWayOff (2 ^ 8), .syscWayPowered (2 ^ 8), .syscInval hBad 0 0 0, .syscInval h0 (2 ^ 64) 0 0, .syscInval h0 0 (2 ^ 64) 0,
  .syscInval h0 0 0 (2 ^ 64), .syscZero hBad 0 0, .syscZero h0 (2 ^ 64) 0, .syscZero h0 0 (2 ^ 64), .syscLockedFill hBad 0 0 0,
  .syscLockedFill h0 (2 ^ 8) 0 0, .syscLockedFill h0 0 (2 ^ 64) 0, .syscLockedFill h0 0 0 (2 ^ 64), .pwrSet hBad 0 0, .pwrSet h0 (2 ^ 16) 0,
  .pwrSet h0 0 (2 ^ 8), .domainDrained (2 ^ 16), .drainTimerExpiry (2 ^ 16), .domainEntryDone (2 ^ 16), .domainWakeDone (2 ^ 16), .pwrCold hBad,
  .pwrBankGate (2 ^ 64), .chipDomainReset hBad 0, .chipDomainReset h0 (2 ^ 16), .aonSwDataWrite (2 ^ 2) 0, .aonSwDataWrite 0 (2 ^ 64), .svcRead mBad,
  .svcWrite mBad, .svcRead64 mBad, .svcWrite64 mBad, .svcHbmRead mBad, .svcHbmWrite mBad, .updData mBad, .ping mBad, .setdasa (2 ^ 64),
  .entdaa (2 ^ 64), .updVerify hBad, .updStage hBad false false, .updBridges hBad 0, .updBridges h0 (2 ^ 32), .updActivate hBad false,
  .updConfirm hBad false, .updAbandon hBad, .updClear hBad, .updKeyRevoke (2 ^ 64), .porstNRelease eBad, .powerGoodAssert eBad,
  .startStageWrite (2 ^ 64), .warmRestart (2 ^ 64) {}, .warmRestart 0 eBad, .watchdogTimeoutWrite (2 ^ 64), .jtagInstruction (2 ^ 32)] : List Instr).any Instr.wf = false := by decide +kernel

/-! ### Published vectors -/

/-- FIPS 180-4's example: the digests of "abc". -/
theorem test_sha256_abc : sha256 [0x61, 0x62, 0x63] = [186, 120, 22, 191, 143, 1, 207, 234, 65, 65, 64, 222, 93, 174, 34, 35, 176, 3, 97, 163, 150, 23, 122, 156, 180, 16, 255, 97, 242, 0, 21, 173] := by decide +kernel
theorem test_sha512_abc : sha512 [0x61, 0x62, 0x63] = [221, 175, 53, 161, 147, 97, 122, 186, 204, 65, 115, 73, 174, 32, 65, 49, 18, 230, 250, 78, 137, 169, 126, 162, 10, 158, 238, 230, 75, 85, 211, 154, 33, 146, 153, 42, 39, 79, 193, 168, 54, 186, 60, 35, 163, 254, 235, 189, 69, 77, 68, 35, 100, 60, 232, 14, 42, 154, 201, 79, 165, 76, 164, 159] := by decide +kernel

/-- RFC 4231, test case 2. -/
theorem test_hmac_sha256 : hmac 0 [74, 101, 102, 101]
    [119, 104, 97, 116, 32, 100, 111, 32, 121, 97, 32, 119, 97, 110, 116, 32, 102, 111, 114, 32, 110, 111, 116, 104, 105, 110, 103, 63] = [91, 220, 193, 70, 191, 96, 117, 78, 106, 4, 36, 38, 8, 149, 117, 199, 90, 0, 63, 8, 157, 39, 57, 131, 157, 236, 88, 185, 100, 236, 56, 67] := by
  decide +kernel

/-- FIPS 197, appendix C.3. -/
theorem test_aes256 : aesEnc ((List.range 32).map (BitVec.ofNat 8)) [0, 17, 34, 51, 68, 85, 102, 119, 136, 153, 170, 187, 204, 221, 238, 255] = [142, 162, 183, 202, 81, 103, 69, 191, 234, 252, 73, 144, 75, 73, 96, 137] := by decide +kernel

/-- The check values of CRC-32C and of the NVMe 64-bit guard over "123456789". -/
theorem test_crc : crc32c 0xFFFFFFFF [49, 50, 51, 52, 53, 54, 55, 56, 57] = 0xE3069283 ∧ guard64 [49, 50, 51, 52, 53, 54, 55, 56, 57] = 0xAE8B14860A799888 := by decide +kernel

/-! ### A state and operands that meet the hypotheses of each statement -/

def hdr (inst : Nat) : CmdHdr := ⟨1, inst, false, false, 0⟩
/-- The chip with these pages in Run and one command published. -/
def running (ps : List Nat) : State :=
  { State.reset with plat.chip.porstLow := false, plat.evt.cseqProd := 1, pages := ps.map (fun p => (p, { st := .run })) }

/-- Association 1 is Open. -/
def live (ps : List Nat) : State := { running ps with ldt.assoc := [(1, { state := .isOpen })] }
def withExt (s : State) (x : AssocX) : State := { s with ldt.ext := [(1, x)] }
/-- A one-packet message of eight bytes for association 1. -/
def pkt : LdtPkt := ⟨1, 1, true, true, false, 0, 0, false, 0, 8, 0, 0, 0, 0, [1, 2, 3, 4, 5, 6, 7, 8]⟩
def regionOpen (s : State) : State :=
  { s with rgn.regions := [(0, { base := 64, length := 8, assoc := 0xFFFF, perm := 7, notifyTgt := 0x41, state := .valid })] }
def v6Frame : List Byte :=
  List.replicate 12 0 ++ [0x86, 0xDD, 0x60, 0, 0, 0, 0, 8, 17, 0] ++ List.replicate 16 0 ++ (1 :: List.replicate 15 0) ++ [0, 0, 0x1B, 0x6D, 0, 8, 0, 0]
def zeroKey : DirKey := ⟨List.replicate 32 0, List.replicate 4 0⟩

/-! An LDT datagram sealed under the all-zero key. -/

theorem xorBytes_cancel (p k : List Byte) (h : p.length ≤ k.length) : xorBytes (xorBytes p k) k = p := by
  induction p generalizing k with
  | nil => rfl
  | cons a p ih =>
    cases k with
    | nil => simp at h
    | cons b k =>
      simp only [xorBytes, List.zipWith_cons_cons, List.cons.injEq] at ih ⊢
      exact ⟨by simp [BitVec.xor_assoc], ih k (by simpa using h)⟩

def pktHead : List Byte := [0x10, 0, 0, 1, 0, 0, 0, 0, 0, 0, 0, 0]
def pktPlain : List Byte := 3 :: List.replicate 15 0
def keyStream : List Byte := aesEncK (aesKeys zeroKey.key) (List.replicate 12 0 ++ be 4 2)
def pktCipher : List Byte := xorBytes pktPlain keyStream
def pktTag : List Byte := gcmTag (aesKeys zeroKey.key) (List.replicate 12 0) pktHead pktCipher
def sealedPkt : List Byte := pktHead ++ (pktCipher ++ pktTag)

theorem keyStream_length : keyStream.length = 16 := by decide +kernel
theorem pktTag_length : pktTag.length = 16 := by decide +kernel
theorem pktCipher_length : pktCipher.length = 16 := by decide +kernel

theorem gcmOpen_seals : gcmOpen zeroKey.key (List.replicate 12 0) pktHead pktCipher pktTag = some pktPlain := by
  have h1 : gcmOpen zeroKey.key (List.replicate 12 0) pktHead pktCipher pktTag =
    some (gcmCtr (aesKeys zeroKey.key) (List.replicate 12 0) 2 (chunks16 pktCipher)) := by unfold gcmOpen pktTag; simp only [if_true]
  have h2 : chunks16 pktCipher = [pktCipher] := by
    have h := pktCipher_length
    generalize pktCipher = c at h ⊢
    simp [chunks16, blocks16, h, List.take_of_length_le, List.drop_of_length_le, ← List.length_eq_zero_iff]
  have h3 : ∀ ks iv c, gcmCtr ks iv 2 [c] = xorBytes c (aesEncK ks (iv ++ be 4 2)) := fun ks iv c => List.append_nil _
  rw [h1, h2, h3]
  exact congrArg some (xorBytes_cancel pktPlain keyStream (by rw [keyStream_length]; decide))

theorem sealedPkt_split : sealedPkt.take 12 = pktHead ∧ (sealedPkt.drop 12).length = 32 ∧ (sealedPkt.drop 12).take 16 = pktCipher ∧
    (sealedPkt.drop 12).drop 16 = pktTag := by
  have h1 : sealedPkt.drop 12 = pktCipher ++ pktTag := List.drop_left' rfl
  refine ⟨List.take_left' rfl, ?_, ?_, ?_⟩
  · rw [h1, List.length_append, pktCipher_length, pktTag_length]
  · rw [h1]; exact List.take_left' pktCipher_length
  · rw [h1]; exact List.drop_left' pktCipher_length

/-- One command held, and a namespace of volume 0. -/
def withCmd (ps : List Nat) (k : Nat) (c : NvCmd) : State :=
  { running ps with nvf.cmds := [(k, c)], nvf.ns := [(1, { attached := true })], lmap.vols := [(0, { kind := 1, size := 8 })] }
def sqeOf (opc : Nat) : List Byte := BitVec.ofNat 8 opc :: [0, 0, 0, 1] ++ List.replicate 34 0 ++ [1] ++ List.replicate 24 0
def admitted (opc xfer : Nat) : NvCmd := { sqe := sqeOf opc, phase := .admitted, xfer := xfer }
/-- A read of command 7 that has ended. -/
def readDone (data : List Byte) : ReadUnit := { cmd := 7, idx := 0, lba := 0, cid := 0, app := 0, quad := 0, phase := .done, data := data }
/-- Connection 5 is open with these bytes in its stream. -/
def withStream (ps : List Nat) (ic : Bool) (bs : List Byte) : State := { running ps with conns := [(5, { isOpen := true, icDone := ic, stream := bs })] }
def h2cData : List Byte := [6, 0, 24, 24, 28, 0, 0, 0, 7, 0, 9, 0, 0, 0, 0, 0, 4, 0, 0, 0, 0, 0, 0, 0, 1, 2, 3, 4]
def flushWaits : State := { withCmd [pgNVF] 7 { sqe := 0 :: [0, 0, 0, 1] ++ List.replicate 59 0 } with nvf.queues := [(0, [7])] }

/-! A compressed form of 4,096 zero bytes (RFC 1951, fixed codes). -/

def zData : List Byte := List.replicate 4096 0
def zForm : List Byte := [99, 24, 5, 163, 96, 20, 140, 130, 81, 48, 10, 70, 193, 40, 24, 5, 163, 96, 20, 140, 130, 81, 48, 10, 70, 193, 176, 7, 0, 0, 0, 0]
def gives {ε α : Type} [DecidableEq α] (e : Except ε α) (o : α) : Bool := match e with
  | .ok x => decide (x = o)
  | .error _ => false
theorem gives_eq {ε α : Type} [DecidableEq α] (e : Except ε α) (o : α) (h : gives e o = true) : e = .ok o := by
  cases e with
  | ok x => simp only [gives, decide_eq_true_eq] at h; rw [h]
  | error x => simp [gives] at h
/-- What a bit string decodes to, as a test that can be evaluated. -/
def symIs (r : Except InflKind (Nat × List Bool)) (s : Nat) : Bool := match r with
  | .ok (x, l) => decide (x = s) && l.isEmpty
  | .error _ => false

theorem huffSym_append (codes : List (Nat × Nat × Nat)) (n len code s : Nat) (t r : List Bool)
    (h : symIs (huffSym codes n len code t) s = true) : huffSym codes n len code (t ++ r) = .ok (s, r) := by
  induction n generalizing len code t with
  | zero => simp [huffSym, symIs] at h
  | succ n ih =>
    by_cases hc : codes.all (fun e => decide (e.1 ≤ len)) = true
    · simp [huffSym, hc, symIs] at h
    · cases t with
      | nil => simp [huffSym, hc, symIs] at h
      | cons b t =>
        simp only [huffSym, hc, List.cons_append] at h ⊢
        simp only [Bool.false_eq_true, if_false] at h ⊢
        split at h
        · simp only [symIs, Bool.and_eq_true, decide_eq_true_eq, List.isEmpty_iff] at h
          obtain ⟨h1, rfl⟩ := h
          simp only [*, List.nil_append]
        · exact ih _ _ _ h

theorem copyBack_zeros (n k : Nat) : copyBack 1 n (List.replicate (k + 1) 0) = List.replicate (k + 1 + n) 0 := by
  induction n generalizing k with
  | zero => rfl
  | succ n ih =>
    simp only [copyBack, List.replicate_succ, Nat.sub_self, List.getD_cons_zero]
    have := ih (k + 1)
    simp only [List.replicate_succ] at this
    rw [this]
    congr 1; omega

def zTok : List Bool := [true, true, false, false, false, true, false, true]
def zDist : List Bool := [false, false, false, false, false]
def litT : List (Nat × Nat × Nat) := huffCodes fixedLit
def distT : List (Nat × Nat × Nat) := huffCodes fixedDist

/-- One copy of `lenBase s + x` zeros from distance 1. -/
theorem inflSyms_copy (f k s x : Nat) (t e r : List Bool) (ht : symIs (huffSym litT 15 0 0 t) s = true) (hs : 256 < s) (hs2 : s ≤ 285)
    (he : ∀ q, takeBits (lenBase s).2 (e ++ q) = some (x, q)) (hm : k + 1 + ((lenBase s).1 + x) ≤ 4096) :
    inflSyms litT distT 4096 (f + 1) (t ++ (e ++ (zDist ++ r))) (List.replicate (k + 1) 0) =
      inflSyms litT distT 4096 f r (List.replicate (k + 1 + ((lenBase s).1 + x)) 0) := by
  have hd : huffSym distT 15 0 0 (zDist ++ r) = .ok (0, r) := huffSym_append _ _ _ _ _ _ _ (by decide +kernel)
  have h1 : ¬ s < 256 := by omega
  have h2 : ¬ s = 256 := by omega
  have h3 : ¬ 285 < s := by omega
  have h4 : ¬ (List.replicate (k + 1) (0 : Byte)).length < 1 := by simp
  have h5 : ¬ 4096 < (List.replicate (k + 1) (0 : Byte)).length + ((lenBase s).1 + x) := by simp; omega
  simp only [inflSyms, huffSym_append _ _ _ _ _ _ _ ht, h1, h2, h3, if_false, he, hd, distBase, takeBits, if_true, Nat.add_zero, Nat.zero_add, h4, h5, show ¬ 29 < 0 by omega, show (0:Nat) < 4 by omega, copyBack_zeros]

theorem tok_sym : symIs (huffSym litT 15 0 0 zTok) 285 = true := by decide +kernel
theorem last_sym : symIs (huffSym litT 15 0 0 [true, true, false, false, false, false, true, true]) 283 = true := by decide +kernel
theorem base285 : lenBase 285 = (258, 0) := by decide
theorem base283 : lenBase 283 = (195, 5) := by decide

theorem zList (n : Nat) (a : List Bool) : (List.replicate (n + 1) a).flatten = a ++ (List.replicate n a).flatten := by
  rw [List.replicate_succ, List.flatten_cons]

/-- `n` copies of 258 zeros. -/
theorem inflSyms_run (n f k : Nat) (r : List Bool) (hm : k + 1 + 258 * n ≤ 4096) :
    inflSyms litT distT 4096 (f + n) ((List.replicate n (zTok ++ zDist)).flatten ++ r) (List.replicate (k + 1) 0) =
      inflSyms litT distT 4096 f r (List.replicate (k + 1 + 258 * n) 0) := by
  induction n generalizing k with
  | zero => rfl
  | succ n ih =>
    have hk : k + 1 + 258 ≤ 4096 := Nat.le_trans (Nat.add_le_add_left (Nat.le_mul_of_pos_right 258 (Nat.succ_pos n)) _) hm
    have e : k + 1 + 258 * (n + 1) = k + 258 + 1 + 258 * n := by rw [Nat.mul_add, Nat.mul_one, Nat.add_comm (258 * n), ← Nat.add_assoc, Nat.add_right_comm k 1 258]
    rw [e] at hm ⊢
    have h := inflSyms_copy (f + n) k 285 0 zTok [] ((List.replicate n (zTok ++ zDist)).flatten ++ r) tok_sym (by decide) (by decide)
      (fun q => by rw [base285]; rfl) (by rw [base285]; exact hk)
    rw [base285, List.nil_append] at h
    rw [zList, List.append_assoc, List.append_assoc]
    exact h.trans (ih (k + 258) hm)

def zLit : List Bool := [false, false, true, true, false, false, false, false]
def zLast : List Bool := [true, true, false, false, false, false, true, true]
def zRest : List Bool := List.replicate 32 false

def zBody : List Bool := zLit ++ ((List.replicate 15 (zTok ++ zDist)).flatten ++ (zLast ++ ([false, true, true, true, true] ++ (zDist ++ zRest))))
theorem zForm_bits : bitsOf zForm = true :: true :: false :: zBody := by decide +kernel

theorem inflSyms_lit (f : Nat) (r : List Bool) :
    inflSyms litT distT 4096 (f + 1) (zLit ++ r) [] = inflSyms litT distT 4096 f r (List.replicate 1 0) := by
  have h : huffSym litT 15 0 0 (zLit ++ r) = .ok (0, r) := huffSym_append _ _ _ _ _ _ _ (by decide +kernel)
  simp only [inflSyms, h]; rfl

theorem inflSyms_end (f : Nat) (o : List Byte) : inflSyms litT distT 4096 (f + 1) zRest o = .ok (List.replicate 25 false, o) := by
  have h : huffSym litT 15 0 0 zRest = .ok (256, List.replicate 25 false) :=
    huffSym_append litT 15 0 0 256 (List.replicate 7 false) (List.replicate 25 false) (by decide +kernel)
  simp only [inflSyms, h]; rfl

theorem zBody_syms : inflSyms litT distT 4096 254 zBody [] = .ok (List.replicate 25 false, List.replicate 4096 0) :=
  (inflSyms_lit 253 _).trans ((inflSyms_run 15 238 0 _ (by decide)).trans
    ((inflSyms_copy 237 3870 283 30 zLast [false, true, true, true, true] zRest last_sym (by decide) (by decide)
      (fun q => by rw [base283]; rfl) (by rw [base283]; decide)).trans (by rw [base283]; exact inflSyms_end 236 _)))

theorem zForm_decodes : decompress 4096 zForm = .ok zData := by
  have hl : zBody.length + 1 = 254 := by decide +kernel
  have h : inflSyms (huffCodes fixedLit) (huffCodes fixedDist) 4096 (zBody.length + 1) zBody [] = .ok (List.replicate 25 false, zData) := by
    rw [hl]; exact zBody_syms
  have h2 : inflate 4096 zForm = .ok (zData.reverse, 3) := by
    unfold inflate
    rw [zForm_bits]
    generalize zBody = b at h ⊢
    simp [inflBlocks, takeBits, b2n, h]
  unfold decompress
  rw [h2]
  have e : zData.reverse = zData := List.reverse_replicate ..
  have e2 : ¬ (15 < 3 ∨ (zForm.drop (zForm.length - 3)).any (· ≠ 0)) := by decide
  simp only [e, e2, if_false]

theorem zForm_path : pathDecode zForm (guard64 zData) = .ok zData := by
  have h : zData.length = 4096 := by simp only [zData, List.length_replicate]
  unfold pathDecode
  rw [zForm_decodes]
  simp only [h, Nat.lt_irrefl, if_false, ne_eq, not_true_eq_false]

/-- A unit of a write, and the same in the state. -/
def unit0 (ph : UnitPhase) : WareUnit := { cmd := 0, lba := 0, quad := 0, data := [], app := 0, dom := 0, tenant := 0, keySlot := 0, phase := ph }
def withUnit (ps : List Nat) (w : WareUnit) : State := { running ps with ware.units := [(1, w)] }
def read0 (ph : ReadPhase) : ReadUnit := { cmd := 0, idx := 0, lba := 0, cid := 0, app := 0, quad := 0, phase := ph }
def withRead (ps : List Nat) (r : ReadUnit) : State := { running ps with ware.reads := [(1, r)] }
/-- A key record that unwraps under KEK 1. -/
def keyRec0 (type : Nat) : KeyRec := { wrapped := List.replicate 8 0xA6, type := type, kek := 1 }
def noPio : MarkPio := { alg512 := false, hmac := false, slot := 0 }

/-! Six blocks of a segment, and one unit in its row 0. -/

def fUnit : Placed := { kind := 0, row := 0, grain := 0, grains := 9, ref := 16 }
def fSeg (st : Nat) : Segment := { st := st, rows := 4, blocks := [(0, 2), (1, 2), (2, 2), (3, 2), (4, 2), (5, 2)], units := [fUnit] }
/-- Segment 0 of group 0, on modules 0 to 5, of which those in `bad` do not answer. -/
def withFlash (ps : List Nat) (st : Nat) (bad : List Nat) (ph : ReadPhase) : State :=
  { running (pgFTL :: ps) with
    plat.chip.heads := 1
    back.groups := [(0, { exists_ := true, members := 63 })]
    back.segs := [(0, fSeg st)]
    back.blocks := (List.range 6).map (fun m => (blockKey m 2, { segment := 0, st := 1 }))
    back.mems := (List.range 6).map (fun m => (m, { st := if bad.contains m then 3 else 1 }))
    lmap.cids := [(16, { loc := 2 * 2 ^ 43 + 2 * 2 ^ 22, len := 100, refs := 1 })]
    ware.reads := [(1, { read0 ph with cid := 16 })] }
/-- Group 0 takes writes, and this segment is listed. -/
def withSeg (ps : List Nat) (id : Nat) (v : Segment) : State :=
  { running (pgFTL :: ps) with plat.chip.heads := 1, back.groups := [(0, { exists_ := true })], back.segs := [(id, v)] }

/-- A firmware header whose six parts are empty images, with the block of its GCM tag that closes it under the all-zero key. -/
def stPart (p : Byte) : List Byte := [p, 1] ++ List.replicate 62 0 ++
  [227, 176, 196, 66, 152, 252, 28, 20, 154, 251, 244, 200, 153, 111, 185, 36, 39, 174, 65, 228, 100, 155, 147, 76, 164, 149, 153, 27, 120, 82, 184, 85] ++
  List.replicate 32 0
def stHeader : List Byte := List.replicate 6 0 ++ [6] ++ List.replicate 25 0 ++
  [55, 71, 8, 255, 247, 113, 157, 213, 151, 158, 200, 117, 213, 108, 210, 40, 111, 109, 60, 247, 236, 49, 122, 59, 37, 99, 42, 171, 40, 236, 55, 187] ++
  List.replicate 16 0 ++ [197, 211, 152, 217, 246, 251, 184, 202, 70, 117, 89, 240, 139, 90, 216, 188] ++
  stPart 1 ++ stPart 2 ++ stPart 3 ++ stPart 4 ++ stPart 5 ++ stPart 6
def staging : State := { running [pgEVT, pgUPD] with upd.st := .verified, upd.header := stHeader, sec.bodyKey := List.replicate 32 0 }
/-- UPD in a state. -/
def updIn (st : UpdState) : State := { running [pgEVT, pgUPD] with upd.st := st }
def lnk (m : Nat) (l : Link) : State := { running [pgEVT, pgMLINK m] with links := [(m, l)] }
/-- The heads are paired in this way. -/
def pairIn (st mir : Nat) : State :=
  ((running [pgEVT, pgPEERCTL]).setFld fPEERCTL_STATE_PEER_STATE st).setFld fPEERCTL_STATE_MIRROR mir
def domIn (d : Nat) (x : Domain) : State := { running [pgEVT, pgPWR] with plat.pwr.doms := [(d, x)] }
def goodFlit : List Byte := List.replicate 240 0 ++ be 4 (crc32c 0xFFFFFFFF (List.replicate 240 0)) ++ List.replicate 12 0

/-- A unit whose tag names its 100 zero bytes, its segment, and a read of it with these members not Online. -/
def fGood : Placed := ({ kind := 0, row := 0, grain := 0, grains := 1, ref := 16 } : Placed).withForm (List.replicate 100 0)
def fWhole : Segment := { fSeg 2 with units := [fGood] }
def repairs (bad : List Nat) : State :=
  { withFlash [pgPAR] 2 bad .repair with back.segs := [(0, { fWhole with parity := [(0, parityP (fWhole.dataWords 0 0))] })] }
theorem pair_snd {α β : Type} (p : α × β) (x : β) (h : p.2 = x) : p = (p.1, x) := Prod.ext rfl h
def opHolds : TgtOp := { kind := 0x12, target := 0, msgLen := 8, holds := some 0 }
def busy (w : WareUnit) : WareUnit := { w with eng := some 0 }
def reads (r : ReadUnit) : ReadUnit := { r with eng := some 0 }

def v6Of (proto : Byte) (body : List Byte) : List Byte :=
  List.replicate 12 0 ++ [0x86, 0xDD, 0x60, 0, 0, 0] ++ be 2 body.length ++ [proto, 0] ++ List.replicate 16 0 ++ (1 :: List.replicate 15 0) ++ body
/-- A UDP datagram without payload toward this port number, its checksum good. -/
def udpTo (dport : Nat) : List Byte :=
  v6Of 17 ([0, 0] ++ be 2 dport ++ [0, 8] ++ be 2 (udpChecksum (List.replicate 16 0) (1 :: List.replicate 15 0) false 0 dport []))
def ptpFrame : List Byte := List.replicate 12 0 ++ [0x88, 0xF7] ++ List.replicate 44 0
/-- Port 0 works and has an address. -/
def addressed (ps : List Nat) : State := (running (pgHPORT 0 :: ps)).setReg (rHPORT_IP_ADDR 0 0 0) 1

/-- Dataset Management with Deallocate, one range. -/
def dsmSqe : List Byte := 9 :: [0, 0, 0, 1] ++ List.replicate 34 0 ++ [1] ++ List.replicate 4 0 ++ [4] ++ List.replicate 19 0
def dsmTo (n : Byte) : NvCmd := { sqe := dsmSqe, phase := .admitted, host := List.replicate 4 0 ++ [n, 0, 0, 0] ++ List.replicate 8 0 }
/-- A write or compare whose guard is checked, and its block's tag is 0. -/
def guardSqe (opc : Nat) : List Byte := (sqeOf opc).take 51 ++ [0x10] ++ List.replicate 12 0

def icReq (pfv hpda : Byte) : List Byte := [0, 0, 128, 0, 128, 0, 0, 0, pfv, 0, hpda] ++ List.replicate 117 0
def capsule0 : List Byte := [4, 0, 72, 0, 72, 0, 0, 0] ++ List.replicate 64 0

/-- A programmed-I/O message at the length limit. -/
def longPio : MarkPio := { noPio with data := List.replicate (2 ^ 56) 0 }
def longMark (last : Nat) : State := { (running [pgMarkQ 3]).setFld (fMARK_PIO_CTRL_LAST_VALID 3) last with mark.quads := [(3, { pio := some longPio })] }

theorem longPio_length : longPio.data.length = 2 ^ 56 := List.length_replicate
theorem longMark_pio (last : Nat) : ((longMark last).markQuad 3).pio = some longPio := rfl

/-! AES decryption with its field operations read from tables, which the kernel evaluates fast. -/

def tabByte (t : Nat) (x : Byte) : Byte := BitVec.ofNat 8 (t >>> (8 * x.toNat))
theorem of_bytes {p : Byte → Prop} (h : ∀ i, i < 256 → p (BitVec.ofNat 8 i)) (x : Byte) : p x := by
  have := h x.toNat x.isLt
  rwa [BitVec.ofNat_toNat, BitVec.setWidth_eq] at this
def invTab : Nat :=
  0x1c411acda07d9cdd8c0346683438235bb31e505de3d74e08adcf0ec6ebd60db16b90f89dd5c48b94eae2dbc563ae077ae6acfc1b045327a90fe4d4daa32f280b5786bcbd3d768ea571787511ef1fe00c62d2e7ce4a12c8264865b88fc32e7cfb9a89dcf9889f142a72848ad86d326adea4b902f7d9959e9b56be7396807f7e838281faa106d070b63cbab5108597b7793b219333df9147f44336a649d3af5e161761ec51f0223e18bf87244cca055ced09e9255413ab64a769f5312d6737fe1d1959bb776f2035f2426639f36c92452cc2a2443015980ac1c9a84d55f15a6e3ab2ee40ffccfd3f585f602b994baab474c7e5e1b0c0294fe8d17b52cbf68d0100
def mul9Tab : Nat :=
  0x464f545d626b70790e071c152a233831d6dfc4cdf2fbe0e99e978c85bab3a8a17d746f6659504b42353c272e1118030aede4fff6c9c0dbd2a5acb7be8188939a3039222b141d060f78716a635c554e47a0a9b2bb848d969fe8e1faf3ccc5ded70b0219102f263d34434a5158676e757c9b928980bfb6ada4d3dac1c8f7fee5ecaaa3b8b18e879c95e2ebf0f9c6cfd4dd3a3328211e170c05727b6069565f444d9198838ab5bca7aed9d0cbc2fdf4efe60108131a252c373e49405b526d647f76dcd5cec7f8f1eae3949d868fb0b9a2ab4c455e5768617a73040d161f2029323be7eef5fcc3cad1d8afa6bdb48b829990777e656c535a41483f362d241b120900
def mul11Tab : Nat :=
  0xa3a8b5be8f849992fbf0ede6d7dcc1ca1318050e3f3429224b405d56676c717ad8d3cec5f4ffe2e9808b969daca7bab168637e75444f5259303b262d1c170a01555e434879726f640d061b10212a373ce5eef3f8c9c2dfd4bdb6aba0919a878c2e2538330209141f767d606b5a514c479e958883b2b9a4afc6cdd0dbeae1fcf7545f424978736e650c071a11202b363de4eff2f9c8c3ded5bcb7aaa1909b868d2f2439320308151e777c616a5b504d469f948982b3b8a5aec7ccd1daebe0fdf6a2a9b4bf8e859893faf1ece7d6ddc0cb1219040f3e3528234a415c57666d707bd9d2cfc4f5fee3e8818a979cada6bbb069627f74454e5358313a272c1d160b00
def mul13Tab : Nat :=
  0x979a8d80a3aeb9b4fff2e5e8cbc6d1dc474a5d50737e69642f2235381b16010c2c21363b1815020f44495e53707d6a67fcf1e6ebc8c5d2df94998e83a0adbab7faf7e0edcec3d4d9929f8885a6abbcb12a27303d1e130409424f5855767b6c61414c5b5675786f622924333e1d10070a919c8b86a5a8bfb2f9f4e3eecdc0d7da4d40575a7974636e25283f32111c0b069d90878aa9a4b3bef5f8efe2c1ccdbd6f6fbece1c2cfd8d59e938489aaa7b0bd262b3c31121f08054e4354597a77606d202d3a3714190e034845525f7c71666bf0fdeae7c4c9ded39895828faca1b6bb9b96818cafa2b5b8f3fee9e4c7caddd04b46515c7f726568232e3934171a0d00
def mul14Tab : Nat :=
  0x8d83919fb5bba9a7fdf3e1efc5cbd9d76d63717f555b49471d13010f252b393756584a446e60727c26283a341e10020cb6b8aaa48e80929cc6c8dad4fef0e2ec202e3c321816040a505e4c426866747ac0cedcd2f8f6e4eab0beaca28886949afbf5e7e9c3cddfd18b859799b3bdafa11b150709232d3f316b657779535d4f41ccc2d0def4fae8e6bcb2a0ae848a98962c22303e141a08065c52404e646a787617190b052f21333d67697b755f51434df7f9ebe5cfc1d3dd87899b95bfb1a3ad616f7d735957454b111f0d032927353b818f9d93b9b7a5abf1ffede3c9c7d5dbbab4a6a8828c9e90cac4d6d8f2fceee05a544648626c7e702a243638121c0e00
theorem gfInv_tab (x : Byte) : gfInv 0x1B x = tabByte invTab x := of_bytes (p := fun x => gfInv 0x1B x = tabByte invTab x) (by decide +kernel) x
theorem gfMul_9 (x : Byte) : gfMul 0x1B 9 x = tabByte mul9Tab x := of_bytes (p := fun x => gfMul 0x1B 9 x = tabByte mul9Tab x) (by decide +kernel) x
theorem gfMul_11 (x : Byte) : gfMul 0x1B 11 x = tabByte mul11Tab x := of_bytes (p := fun x => gfMul 0x1B 11 x = tabByte mul11Tab x) (by decide +kernel) x
theorem gfMul_13 (x : Byte) : gfMul 0x1B 13 x = tabByte mul13Tab x := of_bytes (p := fun x => gfMul 0x1B 13 x = tabByte mul13Tab x) (by decide +kernel) x
theorem gfMul_14 (x : Byte) : gfMul 0x1B 14 x = tabByte mul14Tab x := of_bytes (p := fun x => gfMul 0x1B 14 x = tabByte mul14Tab x) (by decide +kernel) x

def mulTab (a b : Byte) : Byte :=
  if a = 9 then tabByte mul9Tab b else if a = 11 then tabByte mul11Tab b else if a = 13 then tabByte mul13Tab b
  else if a = 14 then tabByte mul14Tab b else gfMul 0x1B a b
theorem gfMul_tab (a b : Byte) : gfMul 0x1B a b = mulTab a b := by
  unfold mulTab
  split
  · rename_i h; rw [h, gfMul_9]
  · split
    · rename_i h; rw [h, gfMul_11]
    · split
      · rename_i h; rw [h, gfMul_13]
      · split
        · rename_i h; rw [h, gfMul_14]
        · rfl
def fastMix (m : List Byte) (b : List Byte) : List Byte :=
  (List.range 16).map (fun i =>
    (List.range 4).foldl (fun acc k => acc ^^^ mulTab (m.getD ((k + 4 - i % 4) % 4) 0) (b.getD (4 * (i / 4) + k) 0)) 0)
theorem aesMix_fast (m b : List Byte) : aesMix m b = fastMix m b := by simp only [aesMix, fastMix, gfMul_tab]
def fastInvSub (y : Byte) : Byte := tabByte invTab (y.rotateLeft 1 ^^^ y.rotateLeft 3 ^^^ y.rotateLeft 6 ^^^ 0x05)
theorem aesInvSub_fast : aesInvSub = fastInvSub := funext fun _ => gfInv_tab _
def fastDec (ks : List (List Byte)) (blk : List Byte) : List Byte :=
  let rk := ks.reverse
  let s0 := xorBytes (fitBytes 16 blk) (rk.getD 0 [])
  let s1 := ((rk.drop 1).take (rk.length - 2)).foldl
    (fun b k => fastMix [14, 11, 13, 9] (xorBytes ((aesShift 3 b).map fastInvSub) k)) s0
  xorBytes ((aesShift 3 s1).map fastInvSub) (rk.getLastD [])
theorem aesDecK_fast (ks : List (List Byte)) (b : List Byte) : aesDecK ks b = fastDec ks b := by
  simp only [aesDecK, fastDec, aesMix_fast, aesInvSub_fast]

/-! AES encryption in the same way. -/

def subTab : Nat :=
  0x16bb54b00f2d99416842e6bf0d89a18cdf2855cee9871e9b948ed9691198f8e19e1dc186b95735610ef6034866b53e708a8bbd4b1f74dde8c6b4a61c2e2578ba08ae7a65eaf4566ca94ed58d6d37c8e779e4959162acd3c25c2406490a3a32e0db0b5ede14b8ee4688902a22dc4f816073195d643d7ea7c41744975fec130ccdd2f3ff1021dab6bcf5389d928f40a351a89f3c507f02f94585334d43fbaaefd0cf584c4a39becb6a5bb1fc20ed00d153842fe329b3d63b52a05a6e1b1a2c830975b227ebe28012079a059618c323c7041531d871f1e5a534ccf73f362693fdb7c072a49cafa2d4adf04759fa7dc982ca76abd7fe2b670130c56f6bf27b777c63
def mul2Tab : Nat :=
  0xe5e7e1e3edefe9ebf5f7f1f3fdfff9fbc5c7c1c3cdcfc9cbd5d7d1d3dddfd9dba5a7a1a3adafa9abb5b7b1b3bdbfb9bb858781838d8f898b959791939d9f999b656761636d6f696b757771737d7f797b454741434d4f494b555751535d5f595b252721232d2f292b353731333d3f393b050701030d0f090b151711131d1f191bfefcfaf8f6f4f2f0eeeceae8e6e4e2e0dedcdad8d6d4d2d0cecccac8c6c4c2c0bebcbab8b6b4b2b0aeacaaa8a6a4a2a09e9c9a98969492908e8c8a88868482807e7c7a78767472706e6c6a68666462605e5c5a58565452504e4c4a48464442403e3c3a38363432302e2c2a28262422201e1c1a18161412100e0c0a0806040200
def mul3Tab : Nat :=
  0x1a191c1f16151013020104070e0d080b2a292c2f26252023323134373e3d383b7a797c7f76757073626164676e6d686b4a494c4f46454043525154575e5d585bdad9dcdfd6d5d0d3c2c1c4c7cecdc8cbeae9ecefe6e5e0e3f2f1f4f7fefdf8fbbab9bcbfb6b5b0b3a2a1a4a7aeada8ab8a898c8f86858083929194979e9d989b818287848d8e8b88999a9f9c95969390b1b2b7b4bdbebbb8a9aaafaca5a6a3a0e1e2e7e4edeeebe8f9fafffcf5f6f3f0d1d2d7d4dddedbd8c9cacfccc5c6c3c0414247444d4e4b48595a5f5c55565350717277747d7e7b78696a6f6c65666360212227242d2e2b28393a3f3c35363330111217141d1e1b18090a0f0c05060300
theorem aesSub_tab (x : Byte) : aesSub x = tabByte subTab x := by
  simp only [aesSub, gfInv_tab]
  exact of_bytes (p := fun x => tabByte invTab x ^^^ (tabByte invTab x).rotateLeft 1 ^^^ (tabByte invTab x).rotateLeft 2 ^^^
    (tabByte invTab x).rotateLeft 3 ^^^ (tabByte invTab x).rotateLeft 4 ^^^ 0x63 = tabByte subTab x) (by decide +kernel) x
theorem gfMul_1 (x : Byte) : gfMul 0x1B 1 x = x := of_bytes (p := fun x => gfMul 0x1B 1 x = x) (by decide +kernel) x
theorem gfMul_2 (x : Byte) : gfMul 0x1B 2 x = tabByte mul2Tab x := of_bytes (p := fun x => gfMul 0x1B 2 x = tabByte mul2Tab x) (by decide +kernel) x
theorem gfMul_3 (x : Byte) : gfMul 0x1B 3 x = tabByte mul3Tab x := of_bytes (p := fun x => gfMul 0x1B 3 x = tabByte mul3Tab x) (by decide +kernel) x
def encTab (a b : Byte) : Byte := if a = 1 then b else if a = 2 then tabByte mul2Tab b else if a = 3 then tabByte mul3Tab b else gfMul 0x1B a b
theorem gfMul_enc (a b : Byte) : gfMul 0x1B a b = encTab a b := by
  unfold encTab
  split
  · rename_i h; rw [h, gfMul_1]
  · split
    · rename_i h; rw [h, gfMul_2]
    · split
      · rename_i h; rw [h, gfMul_3]
      · rfl
def encMix (m : List Byte) (b : List Byte) : List Byte :=
  (List.range 16).map (fun i =>
    (List.range 4).foldl (fun acc k => acc ^^^ encTab (m.getD ((k + 4 - i % 4) % 4) 0) (b.getD (4 * (i / 4) + k) 0)) 0)
theorem aesMix_enc (m b : List Byte) : aesMix m b = encMix m b := by simp only [aesMix, encMix, gfMul_enc]
def fastSub (x : Byte) : Byte := tabByte subTab x
theorem aesSub_fast : aesSub = fastSub := funext fun _ => aesSub_tab _
def fastEnc (ks : List (List Byte)) (blk : List Byte) : List Byte :=
  let s0 := xorBytes (fitBytes 16 blk) (ks.getD 0 [])
  let s1 := ((ks.drop 1).take (ks.length - 2)).foldl (fun b k => xorBytes (encMix [2, 3, 1, 1] (aesShift 1 (b.map fastSub))) k) s0
  xorBytes (aesShift 1 (s1.map fastSub)) (ks.getLastD [])
theorem aesEncK_fast (ks : List (List Byte)) (b : List Byte) : aesEncK ks b = fastEnc ks b := by
  simp only [aesEncK, fastEnc, aesMix_enc, aesSub_fast]
def fastExpand (nk : Nat) : Nat → Nat → List (List Byte) → List (List Byte)
  | 0, _, l => l
  | n + 1, i, l =>
    let t := l.getD 0 []
    let t' :=
      if i % nk = 0 then xorBytes ((t.drop 1 ++ t.take 1).map fastSub) [gfPow 0x1B 2 (i / nk - 1), 0, 0, 0]
      else if nk = 8 ∧ i % 8 = 4 then t.map fastSub
      else t
    fastExpand nk n (i + 1) (xorBytes (l.getD (nk - 1) []) t' :: l)
theorem aesExpand_fast (nk n i : Nat) (l : List (List Byte)) : aesExpand nk n i l = fastExpand nk n i l := by
  induction n generalizing i l with
  | zero => rfl
  | succ n ih => simp only [aesExpand, fastExpand, aesSub_fast, ih]
def fastKeys (key : List Byte) : List (List Byte) :=
  let nk := if key.length = 16 then 4 else 8
  let ws := (fastExpand nk (3 * nk + 28) nk (words4 nk (fitBytes (4 * nk) key)).reverse).reverse
  (List.range (nk + 7)).map (fun r => ((ws.drop (4 * r)).take 4).flatten)
theorem aesKeys_fast (key : List Byte) : aesKeys key = fastKeys key := by
  simp only [aesKeys, aesKeys.slice', fastKeys, aesExpand_fast]
def fastTag (ks : List (List Byte)) (iv aad ct : List Byte) : List Byte :=
  xorBytes (be 16 (ghash (unBe (fastEnc ks (zeros 16))) (chunks16 aad ++ chunks16 ct ++ [be 8 (8 * aad.length) ++ be 8 (8 * ct.length)]))) (fastEnc ks (iv ++ be 4 1))
theorem gcmTag_fast (ks : List (List Byte)) (iv aad ct : List Byte) : gcmTag ks iv aad ct = fastTag ks iv aad ct := by
  simp only [gcmTag, fastTag, aesEncK_fast]
/-- With no ciphertext the message opens where the tag is right. -/
theorem gcmOpen_empty (key iv aad tag : List Byte) (h : fastTag (fastKeys key) iv aad [] = tag) : gcmOpen key iv aad [] tag = some [] := by
  simp only [gcmOpen, gcmTag_fast, aesKeys_fast, h, if_true]; rfl
theorem stageBody_opens (s : State) (h0 : hdrBody s.upd.header = 0)
    (h1 : s.hbmErr (s.reg64 rUPD_PKG_BASE + bodyStart (hdrEnvs s.upd.header)) 16 = false)
    (h2 : sha256 (s.pkg (bodyStart (hdrEnvs s.upd.header)) 16) = slice s.upd.header 0x020 32)
    (h3 : fastTag (fastKeys s.sec.bodyKey) (slice s.upd.header 0x040 12) s.upd.header [] = s.pkg (bodyStart (hdrEnvs s.upd.header)) 16) :
    s.stageBody = .ok [] := by
  have hp : s.pkg (bodyStart (hdrEnvs s.upd.header)) 0 = [] := rfl
  simp only [State.stageBody, h0, Nat.add_zero, Nat.zero_add, hp, List.nil_append, h1, h2, gcmOpen_empty _ _ _ _ h3]
  simp
/-- A message whose tag is wrong does not open. -/
theorem gcmOpen_refuses (key iv aad ct tag : List Byte) (h : fastTag (fastKeys key) iv aad ct ≠ tag) : gcmOpen key iv aad ct tag = none := by
  simp only [gcmOpen, gcmTag_fast, aesKeys_fast]
  rw [if_neg h]

/-! The unwrap of 24 zero bytes under the KEK [1], pass by pass: the integrity check fails. -/

def keks1 : List (List Byte) :=
  [[1, 0, 0, 0, 0, 0, 0, 0, 0, 0, 0, 0, 0, 0, 0, 0],
   [0, 0, 0, 0, 0, 0, 0, 0, 0, 0, 0, 0, 0, 0, 0, 0],
   [99, 99, 99, 99, 99, 99, 99, 99, 99, 99, 99, 99, 99, 99, 99, 99],
   [251, 251, 251, 251, 251, 251, 251, 251, 251, 251, 251, 251, 251, 251, 251, 251],
   [110, 108, 108, 108, 13, 15, 15, 15, 110, 108, 108, 108, 13, 15, 15, 15],
   [44, 141, 141, 141, 215, 118, 118, 118, 44, 141, 141, 141, 215, 118, 118, 118],
   [82, 84, 84, 98, 95, 91, 91, 109, 49, 55, 55, 1, 60, 56, 56, 14],
   [199, 138, 138, 38, 16, 252, 252, 80, 60, 113, 113, 221, 235, 7, 7, 171],
   [159, 145, 54, 139, 192, 202, 109, 230, 241, 253, 90, 231, 205, 197, 98, 233],
   [122, 44, 32, 56, 106, 208, 220, 104, 86, 161, 173, 181, 189, 166, 170, 30],
   [171, 61, 68, 241, 107, 247, 41, 23, 154, 10, 115, 240, 87, 207, 17, 25],
   [33, 166, 162, 236, 75, 118, 126, 132, 29, 215, 211, 49, 160, 113, 121, 47],
   [40, 139, 81, 17, 67, 124, 120, 6, 217, 118, 11, 246, 142, 185, 26, 239],
   [56, 240, 0, 51, 115, 134, 126, 183, 110, 81, 173, 134, 206, 32, 212, 169],
   [223, 195, 130, 154, 156, 191, 250, 156, 69, 201, 241, 106, 203, 112, 235, 133]]
theorem keks1_eq : aesKeys [1] = keks1 := by rw [aesKeys_fast]; decide +kernel
theorem unwrap_0 : kwUnpass keks1 [0, 0, 0, 0, 0, 0, 0, 0] 12 [[0, 0, 0, 0, 0, 0, 0, 0], [0, 0, 0, 0, 0, 0, 0, 0]] = ([250, 148, 233, 35, 95, 30, 235, 61], [[4, 191, 81, 95, 203, 141, 14, 250], [157, 178, 2, 188, 33, 68, 126, 8]]) := by simp only [kwUnpass, aesDecK_fast]; decide +kernel
theorem unwrap_1 : kwUnpass keks1 [250, 148, 233, 35, 95, 30, 235, 61] 10 [[4, 191, 81, 95, 203, 141, 14, 250], [157, 178, 2, 188, 33, 68, 126, 8]] = ([16, 19, 55, 86, 70, 59, 12, 73], [[242, 176, 112, 82, 16, 43, 43, 42], [254, 17, 208, 181, 244, 10, 63, 112]]) := by simp only [kwUnpass, aesDecK_fast]; decide +kernel
theorem unwrap_2 : kwUnpass keks1 [16, 19, 55, 86, 70, 59, 12, 73] 8 [[242, 176, 112, 82, 16, 43, 43, 42], [254, 17, 208, 181, 244, 10, 63, 112]] = ([45, 46, 9, 246, 80, 108, 3, 126], [[35, 246, 106, 216, 22, 245, 19, 70], [249, 156, 26, 121, 188, 189, 60, 166]]) := by simp only [kwUnpass, aesDecK_fast]; decide +kernel
theorem unwrap_3 : kwUnpass keks1 [45, 46, 9, 246, 80, 108, 3, 126] 6 [[35, 246, 106, 216, 22, 245, 19, 70], [249, 156, 26, 121, 188, 189, 60, 166]] = ([31, 87, 67, 219, 101, 192, 34, 73], [[176, 242, 66, 37, 238, 61, 198, 14], [228, 3, 164, 74, 30, 145, 151, 83]]) := by simp only [kwUnpass, aesDecK_fast]; decide +kernel
theorem unwrap_4 : kwUnpass keks1 [31, 87, 67, 219, 101, 192, 34, 73] 4 [[176, 242, 66, 37, 238, 61, 198, 14], [228, 3, 164, 74, 30, 145, 151, 83]] = ([34, 54, 183, 31, 51, 169, 141, 102], [[167, 128, 223, 180, 130, 38, 121, 44], [254, 237, 126, 172, 205, 242, 147, 208]]) := by simp only [kwUnpass, aesDecK_fast]; decide +kernel
theorem unwrap_5 : kwUnpass keks1 [34, 54, 183, 31, 51, 169, 141, 102] 2 [[167, 128, 223, 180, 130, 38, 121, 44], [254, 237, 126, 172, 205, 242, 147, 208]] = ([88, 109, 163, 13, 30, 99, 136, 40], [[211, 69, 102, 65, 101, 52, 204, 152], [28, 176, 238, 175, 153, 189, 79, 0]]) := by simp only [kwUnpass, aesDecK_fast]; decide +kernel
theorem unwrap_fails : keyUnwrap [1] (List.replicate 24 0) = none := by
  have e : List.range 6 = [0, 1, 2, 3, 4, 5] := rfl
  have w : words8 ((List.replicate 24 (0 : Byte)).length / 8 + 1) ((List.replicate 24 (0 : Byte)).drop 8) =
    [[0, 0, 0, 0, 0, 0, 0, 0], [0, 0, 0, 0, 0, 0, 0, 0]] := by decide
  have a : (List.replicate 24 (0 : Byte)).take 8 = [0, 0, 0, 0, 0, 0, 0, 0] := by decide
  simp only [keyUnwrap, keks1_eq, w, a, e, List.foldl, List.length_cons, List.length_nil, List.reverse_cons, List.reverse_nil, List.nil_append,
    List.singleton_append, Nat.reduceAdd, Nat.reduceSub, Nat.reduceMul, unwrap_0, unwrap_1, unwrap_2, unwrap_3, unwrap_4, unwrap_5]
  decide

/-- A read of the unit of `withFlash`, in this segment. -/
def readAt (ps bad : List Nat) (v : Segment) (r : ReadUnit) : State :=
  { withFlash (pgPAR :: ps) 2 bad r.phase with back.segs := [(0, v)], ware.reads := [(1, { r with cid := 16, loc := 2 * 2 ^ 43 + 2 * 2 ^ 22 })] }

/-- Patrol reads a Closed segment of one block. -/
def patrols : State := ({ withSeg [] 0 { st := 2, rows := 1, blocks := [(0, 2)] } with back.mems := [(0, { st := 1 })] }).setFld fFTL_CTRL_PATROL_EN 1

/-- A victim whose unit reads back, one whose unit does not have its tag, and the parity of the former. -/
def fVictim : Segment := { fWhole with st := 3 }
def fSpoilt : Segment := { fSeg 3 with parity := [(0, parityP (fWhole.dataWords 0 0))] }
def fGuarded : Segment := { fVictim with parity := [(0, parityP (fWhole.dataWords 0 0))] }
def victim (bad : List Nat) (v : Segment) : State := readAt [pgPUG] bad v (read0 .done)
/-- A move of the unit, in segment 1. -/
def fMoved : Placed := { fUnit with src := some (0, 0, 0), verified := true }
def moves (v : Segment) (dest : Placed) : State :=
  { victim [] v with back.segs := [(0, v), (1, { fSeg 2 with units := [dest] })] }

def unverified (v : Segment) : State := { State.reset with back.segs := [(5, { v with st := 2, units := [{ fMoved with verified := false }] })] }

/-- A move that does not verify, and what its failure makes of the state. -/
def hitUnits : List Placed := [{ fMoved with verified := false }]
def hitBy : Placed → Bool :=
  fun u => (unitPos 5 ((unverified (fSeg 2)).seg 5).width u).any (fun p => [0, 1, 2, 3, 4, 5].contains (((unverified (fSeg 2)).seg 5).posBlocks.getD p (0, 0)).1)
def hitKept : State := (hitUnits.filter (fun u => !hitBy u)).foldl (fun v u => v.setUnit 5 u { u with verified := true }) (unverified (fSeg 2))
def hitState : State := ((hitUnits.filter hitBy).foldl (fun v u => (v.killUnit 5 u).bump fPUG_DEST_FAIL) hitKept).pugError 0x03 5 0

def dieTypes (f : Nat → Nat) : Tab Link := (List.range 24).map (fun k => (k, { dieType := f k }))
def groupFrom (f : Nat → Nat) : State := { running [pgEVT, pgPAR] with links := dieTypes f }
/-- P and Q of row 0 of `fWhole`, and of another content. -/
def fParity (v : Segment) : Segment := { v with parity := [(0, parityP (fWhole.dataWords 0 0)), (1, parityQ (fWhole.dataWords 0 0))] }
def repairIn (bad : List Nat) (v : Segment) : State := readAt [] bad v (read0 .repair)

/-- A flit of this kind and sequence number whose CRC holds. -/
def flitOf (kind sq : Byte) : List Byte :=
  let d := [kind, sq] ++ List.replicate 238 0
  d ++ be 4 (crc32c 0xFFFFFFFF d) ++ List.replicate 12 0
/-- This operation is open on link 23. -/
def opOn (o : LinkOp) : State := lnk 23 { st := lkUp, ops := [(5, o)] }
def aOp (c : Nat) : LinkOp := { opcode := c, addr := 0 }

/-- A header whose one part has another digest than its empty image, closed like `stHeader`. -/
def spoiltHeader : List Byte := List.replicate 6 0 ++ [1] ++ List.replicate 25 0 ++
  [55, 71, 8, 255, 247, 113, 157, 213, 151, 158, 200, 117, 213, 108, 210, 40, 111, 109, 60, 247, 236, 49, 122, 59, 37, 99, 42, 171, 40, 236, 55, 187] ++
  List.replicate 16 0 ++ [76, 95, 32, 134, 235, 117, 4, 193, 126, 99, 66, 178, 15, 106, 158, 146] ++ [1, 1]
def stagingOf (h : List Byte) : State := ({ staging with upd.header := h } : State).consume.updGoes .staging 0

def fails {ε α : Type} [DecidableEq ε] (e : Except ε α) (x : ε) : Bool := match e with
  | .error y => decide (y = x)
  | .ok _ => false
theorem fails_eq {ε α : Type} [DecidableEq ε] (e : Except ε α) (x : ε) (h : fails e x = true) : e = .error x := by
  cases e with
  | error y => simp only [fails, decide_eq_true_eq] at h; rw [h]
  | ok o => cases h

theorem witness_CommandCompletes :
    (∃ (s : State) (_p : Nat) (h : CmdHdr) (_st : Nat), h.notify = false ∧ s.plat.evt.ahead = [] ∧ h.cseq = s.plat.evt.cseqDone + 1) ∧
    (∃ (s : State) (_p : Nat) (h : CmdHdr) (_st : Nat), h.notify = false ∧ s.plat.evt.ahead = [] ∧ s.plat.evt.cseqDone + 1 < h.cseq) ∧
    (∃ (s : State) (q _bits _st : Nat), s.plat.evt.running.find q = none) ∧
    (∃ (s : State) (h : CmdHdr) (_b : Nat), s.canTake h = true ∧ h.cseq ≠ s.plat.evt.cseqCons + 1) ∧
    (∃ (s : State) (v : Nat), Reaches s pgEVT ∧ s.plat.evt.cseqProd ≤ v ∧ v ≤ s.plat.evt.cseqDone + s.cmdSize) ∧
    (∃ (s : State) (v : Nat), Reaches s pgEVT ∧ (v < s.plat.evt.cseqProd ∨ s.plat.evt.cseqDone + s.cmdSize < v)) ∧
    (∃ (s : State) (v : Nat), Reaches s pgEVT ∧ s.plat.evt.eseqCons ≤ v ∧ v ≤ s.plat.evt.eseqProd) ∧
    (∃ (s : State) (v : Nat), Reaches s pgEVT ∧ (v < s.plat.evt.eseqCons ∨ s.plat.evt.eseqProd < v)) ∧
    (∃ (s : State) (_v : Nat), s.pageOn pgEVT = false) ∧
    (∃ (s : State) (_v : Nat), s.pageOn pgEVT = true ∧ (s.blk pgEVT = .fault ∨ s.blk pgEVT = .off)) :=
  ⟨⟨running [pgEVT], 0, hdr 0, 0, by decide +kernel⟩,
   ⟨running [pgEVT], 0, { hdr 0 with cseq := 2 }, 0, by decide +kernel⟩,
   ⟨running [pgEVT], 0, 0, 0, by decide +kernel⟩,
   ⟨running [pgEVT], { hdr 0 with cseq := 2 }, 0, by decide +kernel⟩,
   ⟨running [pgEVT], 1, by decide +kernel⟩,
   ⟨running [pgEVT], 0, by decide +kernel⟩,
   ⟨running [pgEVT], 0, by decide +kernel⟩,
   ⟨running [pgEVT], 1, by decide +kernel⟩,
   ⟨{ State.reset with plat.pwr.doms := [(0, { st := .banked })] }, 0, by decide +kernel⟩,
   ⟨{ State.reset with pages := [(pgEVT, { st := .fault })] }, 0, by decide +kernel⟩⟩

theorem witness_RingCommands :
    (∃ (s : State) (x : Instr) (r : RingCmd), s.ringCmd x = some r ∧ s.canTake r.h = false) ∧
    (∃ (s : State) (x : Instr) (r : RingCmd), s.ringCmd x = some r ∧ s.canTake r.h = true ∧ r.h.cseq ≠ s.plat.evt.cseqCons + 1) ∧
    (∃ (s : State) (x : Instr) (r : RingCmd), s.ringCmd x = some r ∧ s.canTake r.h = true ∧ r.h.cseq = s.plat.evt.cseqCons + 1 ∧ targetPages r.blk r.h.inst = []) ∧
    (∃ (s : State) (x : Instr) (r : RingCmd) (p : Nat) (ps : List Nat), s.ringCmd x = some r ∧ s.canTake r.h = true ∧ r.h.cseq = s.plat.evt.cseqCons + 1 ∧ targetPages r.blk r.h.inst = p :: ps ∧ ((p :: ps).any fun g => r.cls.taken (s.page g).st) = false) :=
  ⟨⟨State.reset, .configCommit (hdr 0) pgSVC, _, rfl, by decide +kernel⟩,
   ⟨running [pgEVT], .configCommit { hdr 0 with cseq := 2 } pgSVC, _, rfl, by decide +kernel, by decide +kernel⟩,
   ⟨running [pgEVT], .configCommit (hdr 0) 0x0A, _, rfl, by decide +kernel, by decide +kernel, by decide +kernel⟩,
   ⟨{ running [pgEVT] with pages := [(pgEVT, { st := .run }), (pgSVC, { st := .fault })] }, .configCommit (hdr 0) pgSVC, _, pgSVC, [], rfl, by decide +kernel, by decide +kernel, by decide +kernel, by decide +kernel⟩⟩

theorem witness_NopAndCommit :
    (∃ (s : State) (h : CmdHdr) (b p : Nat), Ready s h b p .nop) ∧
    (∃ (s : State) (h : CmdHdr) (b p o : Nat), Ready s h b p .work ∧ opcodeKnown b o = false) ∧
    (∃ (_s : State) (_h : CmdHdr) (b o : Nat), o ≠ 0 ∧ opcodeKnown b o = true) ∧
    (∃ (s : State) (h : CmdHdr) (b : Nat), s.canTake h = true ∧ h.cseq = s.plat.evt.cseqCons + 1 ∧ targetPages b h.inst = []) ∧
    (∃ (s : State) (h : CmdHdr) (_b _o : Nat), s.canTake h = false) ∧
    (∃ (s : State) (h : CmdHdr) (b p : Nat), Ready s h b p .commit ∧ p ≠ pgBUF ∧ p ≠ pgNVF ∧ p ≠ pgFTL ∧ p ≠ pgSAG) ∧
    (∃ (s : State) (h : CmdHdr), Ready s h pgNVF pgNVF .commit ∧ 8 ≤ s.fld fNVF_STAGE_CFG_POOL_MIB ∧ s.fld fNVF_STAGE_CFG_POOL_MIB ≤ s.back.dataMib) ∧
    (∃ (s : State) (h : CmdHdr), Ready s h pgNVF pgNVF .commit ∧ (s.fld fNVF_STAGE_CFG_POOL_MIB < 8 ∨ s.back.dataMib < s.fld fNVF_STAGE_CFG_POOL_MIB)) ∧
    (∃ (s : State) (h : CmdHdr), Ready s h pgBUF pgBUF .commit ∧ s.bufBreaks = none) ∧
    (∃ (s : State) (h : CmdHdr) (a : Nat), Ready s h pgBUF pgBUF .commit ∧ s.bufBreaks = some a) ∧
    (∃ (s : State) (h : CmdHdr), Ready s h pgFTL pgFTL .commit ∧ s.fld (fFTL_MPD_LIMIT 0) ≠ 0 ∧ s.fld (fFTL_MPD_LIMIT 1) ≠ 0 ∧ s.fld fFTL_PSLC_CFG_P_MAX ≠ 0 ∧ s.fld fFTL_PSLC_CFG_P_MAX ≤ 2500 ∧ s.fld fFTL_PSLC_CFG_P_MIN ≤ s.fld fFTL_PSLC_CFG_P_MAX) ∧
    (∃ (s : State) (h : CmdHdr), Ready s h pgFTL pgFTL .commit ∧ (s.fld (fFTL_MPD_LIMIT 0) = 0 ∨ s.fld (fFTL_MPD_LIMIT 1) = 0 ∨ s.fld fFTL_PSLC_CFG_P_MAX = 0 ∨ 2500 < s.fld fFTL_PSLC_CFG_P_MAX ∨ s.fld fFTL_PSLC_CFG_P_MAX < s.fld fFTL_PSLC_CFG_P_MIN)) ∧
    (∃ (s : State) (h : CmdHdr), Ready s h pgSAG pgSAG .commit ∧ 64 ≤ s.fld fSAG_SIZE_SIZE_MIB ∧ s.fld fSAG_SIZE_SIZE_MIB ≤ 16384 ∧ 8 ≤ s.fld fSAG_AREA_CFG_DATA_MIB ∧ 8 ≤ s.fld fSAG_AREA_CFG_DELTA_MIB ∧ s.fld fSAG_AREA_CFG_DELTA_MIB ≤ 4096 ∧ 256 * s.fld fSAG_AREA_CFG_DATA_MIB + s.fld fSAG_AREA_CFG_DATA_MIB + 512 * s.fld fSAG_AREA_CFG_DELTA_MIB + 256 * 33 ≤ 256 * s.fld fSAG_SIZE_SIZE_MIB ∧ s.nvf.poolMib ≤ s.fld fSAG_AREA_CFG_DATA_MIB ∧ s.dumpRoom (s.fld fSAG_SIZE_SIZE_MIB) = true) ∧
    (∃ (s : State) (h : CmdHdr), Ready s h pgSAG pgSAG .commit ∧ (s.fld fSAG_SIZE_SIZE_MIB < 64 ∨ 16384 < s.fld fSAG_SIZE_SIZE_MIB ∨ s.fld fSAG_AREA_CFG_DATA_MIB < 8 ∨ s.fld fSAG_AREA_CFG_DELTA_MIB < 8 ∨ 4096 < s.fld fSAG_AREA_CFG_DELTA_MIB ∨ 256 * s.fld fSAG_SIZE_SIZE_MIB < 256 * s.fld fSAG_AREA_CFG_DATA_MIB + s.fld fSAG_AREA_CFG_DATA_MIB + 512 * s.fld fSAG_AREA_CFG_DELTA_MIB + 256 * 33 ∨ s.fld fSAG_AREA_CFG_DATA_MIB < s.nvf.poolMib ∨ s.dumpRoom (s.fld fSAG_SIZE_SIZE_MIB) = false)) ∧
    (∃ (s : State) (h : CmdHdr) (b p : Nat), s.canTake h = true ∧ h.cseq = s.plat.evt.cseqCons + 1 ∧ targetPages b h.inst = [p] ∧ ((s.page p).st = .off ∨ (s.page p).st = .fault)) :=
  ⟨⟨running [pgEVT, pgLDT], hdr 0, pgLDT, pgLDT, by decide +kernel⟩,
   ⟨running [pgEVT, pgLDT], hdr 0, pgLDT, pgLDT, 0x105, by decide +kernel⟩,
   ⟨running [pgEVT, pgLDT], hdr 0, pgLDT, 1, by decide +kernel⟩,
   ⟨running [pgEVT, pgLDT], hdr 0, 0x0A, by decide +kernel⟩,
   ⟨State.reset, hdr 0, pgLDT, 0x105, by decide +kernel⟩,
   ⟨running [pgEVT, pgLDT], hdr 0, pgLDT, pgLDT, by decide +kernel⟩,
   ⟨running [pgEVT, pgLDT], hdr 0, by decide +kernel⟩,
   ⟨(running [pgEVT, pgNVF]).setFld fNVF_STAGE_CFG_POOL_MIB 7, hdr 0, by decide +kernel⟩,
   ⟨running [pgEVT, pgLDT], hdr 0, by decide +kernel⟩,
   ⟨(running [pgEVT, pgBUF]).setReg (rBUF_RES 0) 0, hdr 0, 0, by decide +kernel⟩,
   ⟨running [pgEVT, pgLDT], hdr 0, by decide +kernel⟩,
   ⟨(running [pgEVT, pgFTL]).setFld (fFTL_MPD_LIMIT 1) 0, hdr 0, by decide +kernel⟩,
   ⟨running [pgEVT, pgLDT], hdr 0, by decide +kernel⟩,
   ⟨(running [pgEVT, pgSAG]).setFld fSAG_SIZE_SIZE_MIB 63, hdr 0, by decide +kernel⟩,
   ⟨{ running [pgEVT] with pages := [(pgEVT, { st := .run }), (pgSVC, { st := .fault })] }, hdr 0, pgSVC, pgSVC, by decide +kernel⟩⟩

theorem witness_RegisterAccess :
    (∃ (s : State) (_v : Nat), Reaches s pgSVC) ∧
    (∃ (s : State) (v : Nat), Reaches s pgSVC ∧ s.lockedRwl = false ∧ getBits v 9 8 ≠ 3) ∧
    (∃ (s : State) (_v : Nat), Reaches s pgSVC ∧ s.lockedRwl = true) ∧
    (∃ (s : State), Reaches s pgSVC) ∧
    (∃ (_s : State) (off size _v : Nat), winCheck true off size = .ok) ∧
    (∃ (_s : State) (off size _v : Nat), winCheck true off size ≠ .ok) ∧
    (∃ (_s : State) (off _size _v : Nat), winCheck false off 4 = .ok) ∧
    (∃ (_s : State) (off _size _v : Nat), winCheck false off 4 ≠ .ok) ∧
    (∃ (s : State) (_v : Nat), s.pageOn (pgCLU 3) = false) ∧
    (∃ (s : State), s.pageOn (pgCLU 3) = false) ∧
    (∃ (s : State) (x : Instr) (p v i c : Nat) (d : Int) (b : Bool) (e : BootEnv), isIsland i = true ∧ c < 12 ∧ (x, p) ∈ [(.timeSet v, pgTIME), (.timeStep d, pgTIME), (.storeCommit, pgSTORE), (.storeSelectA, pgSTORE), (.storeSelectB, pgSTORE), (.storeCopyAToB, pgSTORE), (.storeCopyBToA, pgSTORE), (.storeDiscard, pgSTORE), (.storeLock, pgSTORE), (.startStageWrite v, pgCHIP), (.warmRestart v e, pgCHIP), (.watchdogKick, pgCHIP), (.watchdogRunEn b, pgCHIP), (.watchdogTimeoutWrite v, pgCHIP), (.cseqProdWrite v, pgEVT), (.eseqConsWrite v, pgEVT), (.clkStopWrite i, pgXING), (.pairReset i, pgXING), (.coreRunWrite c v, pgCLU c), (.memCfgWrite c v, pgCLU c)] ∧ s.pageOn p = false) ∧
    (∃ (s : State) (x : Instr) (p v i c : Nat) (d : Int) (b : Bool) (e : BootEnv), isIsland i = true ∧ c < 12 ∧ (x, p) ∈ [(.timeSet v, pgTIME), (.timeStep d, pgTIME), (.storeCommit, pgSTORE), (.storeSelectA, pgSTORE), (.storeSelectB, pgSTORE), (.storeCopyAToB, pgSTORE), (.storeCopyBToA, pgSTORE), (.storeDiscard, pgSTORE), (.storeLock, pgSTORE), (.startStageWrite v, pgCHIP), (.warmRestart v e, pgCHIP), (.watchdogKick, pgCHIP), (.watchdogRunEn b, pgCHIP), (.watchdogTimeoutWrite v, pgCHIP), (.cseqProdWrite v, pgEVT), (.eseqConsWrite v, pgEVT), (.clkStopWrite i, pgXING), (.pairReset i, pgXING), (.coreRunWrite c v, pgCLU c), (.memCfgWrite c v, pgCLU c)] ∧ s.pageOn p = true ∧ (s.blk p = .fault ∨ s.blk p = .off)) ∧
    (∃ (_s : State) (off _size _d : Nat), inAperture off = false ∧ (winEnd ≤ off ∨ pageExists (off / 0x10000) = false)) :=
  ⟨⟨State.reset, 2 ^ 64 - 1, by decide +kernel⟩,
   ⟨State.reset, 0x214, by decide +kernel⟩,
   ⟨State.reset.setReg rSTORE_LOCK 1, 2 ^ 64 - 1, by decide +kernel⟩,
   ⟨State.reset, by decide +kernel⟩,
   ⟨State.reset, rSVC_MAC, 4, 2 ^ 64 - 1, by decide +kernel⟩,
   ⟨State.reset, winEnd, 4, 2 ^ 64 - 1, by decide +kernel⟩,
   ⟨State.reset, rSVC_MAC, 4, 2 ^ 64 - 1, by decide +kernel⟩,
   ⟨State.reset, winEnd, 4, 2 ^ 64 - 1, by decide +kernel⟩,
   ⟨{ State.reset with plat.pwr.doms := [(5, { st := .banked })] }, 2 ^ 64 - 1, by decide +kernel⟩,
   ⟨{ State.reset with plat.pwr.doms := [(5, { st := .banked })] }, by decide +kernel⟩,
   ⟨{ State.reset with plat.pwr.doms := [(0, { st := .banked })] }, .timeSet 5, pgTIME, 5, 25, 11, 0, true, {}, by decide +kernel, by decide +kernel, List.Mem.head _, by decide +kernel⟩,
   ⟨{ State.reset with pages := [(pgTIME, { st := .fault })] }, .timeSet 5, pgTIME, 5, 25, 11, 0, true, {}, by decide +kernel, by decide +kernel, List.Mem.head _, by decide +kernel, by decide +kernel⟩,
   ⟨State.reset, winEnd, 4, 2 ^ 64 - 1, by decide +kernel⟩⟩

theorem witness_BlockStates :
    (∃ (s : State) (p : Nat), OneBlock s p ∧ PlainBlock p ∧ s.blk p = .idle ∧ (s.page p).quiesce = false) ∧
    (∃ (s : State) (p : Nat), OneBlock s p ∧ ¬ MarkCopies s p ∧ s.blk p = .idle ∧ (s.page p).quiesce = false) ∧
    (∃ (s : State) (p : Nat), OneBlock s p ∧ MarkCopies s p ∧ s.blk p = .idle) ∧
    (∃ (s : State) (p : Nat), OneBlock s p ∧ ¬ MarkCopies s p ∧ s.blk p = .idle ∧ (s.page p).quiesce = true) ∧
    (∃ (s : State) (p : Nat), OneBlock s p ∧ p ≠ pgEVT ∧ s.blk p = .quiesced) ∧
    (∃ (s : State), OneBlock s pgEVT ∧ s.blk pgEVT = .quiesced) ∧
    (∃ (s : State) (p : Nat), OneBlock s p ∧ (s.blk p = .run ∨ s.blk p = .quiescing) ∧ (s.page p).quiesce = decide (s.blk p = .quiescing)) ∧
    (∃ (s : State) (p : Nat), OneBlock s p ∧ s.blk p = .idle) ∧
    (∃ (s : State) (p : Nat), OneBlock s p ∧ (s.blk p = .quiescing ∨ (s.blk p = .quiesced ∧ (s.page p).enable = true))) ∧
    (∃ (s : State) (p : Nat), OneBlock s p ∧ PlainBlock p ∧ s.blk p = .quiesced ∧ (s.page p).enable = true) ∧
    (∃ (s : State) (p : Nat), OneBlock s p ∧ s.blk p = .run) ∧
    (∃ (s : State) (p : Nat), OneBlock s p ∧ s.blk p = .run ∧ (∀ t : State, t.plat = s.plat ∧ OnlyPages s t → t.blockBusy p = true)) ∧
    (∃ (s : State) (p : Nat), OneBlock s p ∧ s.blk p = .idle ∧ (s.page p).enable = false) ∧
    (∃ (s : State) (p : Nat), OneBlock s p ∧ s.blk p = .fault) ∧
    (∃ (s : State) (p : Nat), OneBlock s p) ∧
    (∃ (s : State) (p : Nat) (_e q : Bool), (s.page p).st = .run ∧ q = false) ∧
    (∃ (s : State) (p : Nat) (_e q : Bool), (s.page p).st = .quiescing ∧ q = true) ∧
    (∃ (s : State) (p : Nat) (e q : Bool), (s.page p).st = .quiesced ∧ e = true ∧ q = true) ∧
    (∃ (s : State) (p : Nat) (e q : Bool), (s.page p).st = .quiesced ∧ e = true ∧ q = false) ∧
    (∃ (_s : State) (p : Nat) (v w : Word) (f : State → Nat → State) (x : Instr), (x, f) ∈ [(.blockEnable p, fun t q => t.writeEnable q true (t.page q).quiesce), (.blockDisable p, fun t q => t.writeEnable q false (t.page q).quiesce), (.blockQuiesce p, fun t q => t.writeEnable q (t.page q).enable true), (.blockResume p, fun t q => t.writeEnable q (t.page q).enable false), (.blockReset p, fun t q => t.writeCtrl q (4 + t.ctrlBits q)), (.blkIrqStatWrite p v, fun t q => t.writeIrqStat q v), (.blkIrqForce p w, fun t q => t.writeIrqForce q w)] ∧ pageExists p = false) ∧
    (∃ (s : State) (p : Nat) (v w : Word) (f : State → Nat → State) (x : Instr), (x, f) ∈ [(.blockEnable p, fun t q => t.writeEnable q true (t.page q).quiesce), (.blockDisable p, fun t q => t.writeEnable q false (t.page q).quiesce), (.blockQuiesce p, fun t q => t.writeEnable q (t.page q).enable true), (.blockResume p, fun t q => t.writeEnable q (t.page q).enable false), (.blockReset p, fun t q => t.writeCtrl q (4 + t.ctrlBits q)), (.blkIrqStatWrite p v, fun t q => t.writeIrqStat q v), (.blkIrqForce p w, fun t q => t.writeIrqForce q w)] ∧ pageExists p = true ∧ isBroadcast p = false ∧ s.pageOn p = false) ∧
    (∃ (s : State) (p : Nat) (v w : Word) (f : State → Nat → State) (x : Instr), (x, f) ∈ [(.blockEnable p, fun t q => t.writeEnable q true (t.page q).quiesce), (.blockDisable p, fun t q => t.writeEnable q false (t.page q).quiesce), (.blockQuiesce p, fun t q => t.writeEnable q (t.page q).enable true), (.blockResume p, fun t q => t.writeEnable q (t.page q).enable false), (.blockReset p, fun t q => t.writeCtrl q (4 + t.ctrlBits q)), (.blkIrqStatWrite p v, fun t q => t.writeIrqStat q v), (.blkIrqForce p w, fun t q => t.writeIrqForce q w)] ∧ pageExists p = true ∧ isBroadcast p = false ∧ s.pageOn p = true ∧ s.blk p = .off) ∧
    (∃ (_s : State) (p : Nat) (v w : Word) (f : State → Nat → State) (x : Instr), (x, f) ∈ [(.blockEnable p, fun t q => t.writeEnable q true (t.page q).quiesce), (.blockDisable p, fun t q => t.writeEnable q false (t.page q).quiesce), (.blockQuiesce p, fun t q => t.writeEnable q (t.page q).enable true), (.blockResume p, fun t q => t.writeEnable q (t.page q).enable false), (.blockReset p, fun t q => t.writeCtrl q (4 + t.ctrlBits q)), (.blkIrqStatWrite p v, fun t q => t.writeIrqStat q v), (.blkIrqForce p w, fun t q => t.writeIrqForce q w)] ∧ pageExists p = true ∧ isBroadcast p = true) ∧
    (∃ (s : State) (p : Nat), (s.page p).st = .quiescing ∧ s.blockBusy p = false) ∧
    (∃ (s : State) (p : Nat), ((s.page p).st ≠ .quiescing ∨ s.blockBusy p = true)) :=
  ⟨⟨State.reset, pgSVC, by decide +kernel⟩,
   ⟨State.reset, pgSVC, by decide +kernel⟩,
   ⟨{ State.reset with pages := [(quadPage pgMARK 3, { resetting := true })] }, quadPage pgMARK 3, by decide +kernel⟩,
   ⟨{ State.reset with pages := [(pgSVC, { quiesce := true })] }, pgSVC, by decide +kernel⟩,
   ⟨{ State.reset with pages := [(pgSVC, { st := .quiesced, quiesce := true, enable := true })] }, pgSVC, by decide +kernel⟩,
   ⟨{ State.reset with pages := [(pgEVT, { st := .quiesced, quiesce := true, enable := true })] }, by decide +kernel⟩,
   ⟨{ State.reset with pages := [(pgSVC, { st := .run })] }, pgSVC, by decide +kernel⟩,
   ⟨State.reset, pgSVC, by decide +kernel⟩,
   ⟨{ State.reset with pages := [(pgSVC, { st := .quiescing, quiesce := true, enable := true })] }, pgSVC, by decide +kernel⟩,
   ⟨{ State.reset with pages := [(pgSVC, { st := .quiesced, quiesce := true, enable := true })] }, pgSVC, by decide +kernel⟩,
   ⟨{ State.reset with pages := [(pgSVC, { st := .run })] }, pgSVC, by decide +kernel⟩,
   ⟨{ running [pgSVC] with plat.evt.running := [(1, ⟨pgSVC, 0, false, 0, []⟩)] }, pgSVC, by decide +kernel, by decide +kernel, fun t h => by simp [State.blockBusy, h.1]⟩,
   ⟨State.reset, pgSVC, by decide +kernel⟩,
   ⟨{ State.reset with pages := [(pgSVC, { st := .fault })] }, pgSVC, by decide +kernel⟩,
   ⟨State.reset, pgSVC, by decide +kernel⟩,
   ⟨{ State.reset with pages := [(pgSVC, { st := .run })] }, pgSVC, true, false, by decide +kernel⟩,
   ⟨{ State.reset with pages := [(pgSVC, { st := .quiescing, quiesce := true, enable := true })] }, pgSVC, true, true, by decide +kernel⟩,
   ⟨{ State.reset with pages := [(pgSVC, { st := .quiesced, quiesce := true, enable := true })] }, pgSVC, true, true, by decide +kernel⟩,
   ⟨{ State.reset with pages := [(pgSVC, { st := .quiesced, quiesce := true, enable := true })] }, pgSVC, true, false, by decide +kernel⟩,
   ⟨State.reset, 0x0A, 0, 0, _, _, List.Mem.head _, by decide +kernel⟩,
   ⟨{ State.reset with plat.pwr.doms := [(5, { st := .banked })] }, pgCLU 3, 0, 0, _, _, List.Mem.head _, by decide +kernel, by decide +kernel, by decide +kernel⟩,
   ⟨{ State.reset with pages := [(pgSVC, { st := .off })] }, pgSVC, 0, 0, _, _, List.Mem.head _, by decide +kernel, by decide +kernel, by decide +kernel, by decide +kernel⟩,
   ⟨State.reset, 0x48, 0, 0, _, _, List.Mem.head _, by decide +kernel, by decide +kernel⟩,
   ⟨{ State.reset with pages := [(pgSVC, { st := .quiescing, quiesce := true, enable := true })] }, pgSVC, by decide +kernel⟩,
   ⟨State.reset, pgSVC, by decide +kernel⟩⟩

theorem witness_ResetRefused :
    (∃ (s : State) (p : Nat), OneBlock s p ∧ (p ∈ [pgCHIP, pgPWR, pgAON, pgSTORE, pgTIME, pgXING, pgTSENS, pgEVT, pgIRQR, pgTAMP] ∨ (p ∈ [pgLMAP, pgMOULD, pgFTL, pgPUG, pgPAR, pgSAG, pgRBLD, pgPEERCTL] ∧ s.blk p ≠ .idle))) ∧
    (∃ (s : State) (p : Nat), OneBlock s p ∧ s.mayReset p = false) ∧
    (∃ (s : State) (p : Nat), (s.page p).armed = true) ∧
    (∃ (s : State) (p : Nat), OneBlock s p ∧ s.blk p = .run ∧ (s.page p).quiesce = false ∧ (s.page p).enable = true ∧ (s.page p).armed = true ∧ (p ∈ [pgCHIP, pgPWR, pgAON, pgSTORE, pgTIME, pgXING, pgTSENS, pgEVT, pgIRQR, pgTAMP] ∨ p ∈ [pgLMAP, pgMOULD, pgFTL, pgPUG, pgPAR, pgSAG, pgRBLD, pgPEERCTL])) :=
  ⟨⟨State.reset, pgCHIP, by decide +kernel⟩,
   ⟨State.reset, pgCHIP, by decide +kernel⟩,
   ⟨State.reset, pgCHIP, by decide +kernel⟩,
   ⟨{ State.reset with pages := [(pgLMAP, { st := .run, enable := true })] }, pgLMAP, by decide +kernel⟩⟩

theorem witness_BlockResetAndFault :
    (∃ (s : State) (p : Nat), OneBlock s p ∧ s.mayReset p = true ∧ islandOfPage p = none) ∧
    (∃ (s : State) (p i : Nat), OneBlock s p ∧ s.mayReset p = true ∧ islandOfPage p = some i) ∧
    (∃ (_s : State) (p : Nat) (a : _), a / 0x10000 = p) ∧
    (∃ (s : State), OneBlock s pgSVC ∧ s.plat.evt.running = []) ∧
    (∃ (s : State) (p : Nat), (s.page p).resetting = true ∧ islandOfPage p = none ∧ blkTypeOf p ≠ pgMARK) ∧
    (∃ (s : State) (p i : Nat), (s.page p).resetting = true ∧ islandOfPage p = some i) ∧
    (∃ (s : State) (q : Nat), q < 4 ∧ (s.page (quadPage pgMARK q)).resetting = true) ∧
    (∃ (s : State) (p : Nat), (s.page p).resetting = false) ∧
    (∃ (s : State) (p : Nat) (_a _b : Word), OneBlock s p ∧ (s.page p).st ≠ .fault) ∧
    (∃ (s : State) (p : Nat) (_a _b : Word), OneBlock s p ∧ (s.page p).st = .fault) ∧
    (∃ (s : State) (p : Nat) (_a _b : Word), (pageExists p = false ∨ isBroadcast p = true ∨ s.pageOn p = false ∨ s.blk p = .off)) ∧
    (∃ (s : State) (p : Nat), (s.page p).resetting = true) ∧
    (∃ (s : State) (_a _b : Word), OneBlock s pgSVC ∧ s.blk pgSVC = .run ∧ s.plat.evt.running = [] ∧ s.plat.chip.restartReq = none ∧ (s.page pgSVC).armed = true ∧ s.runs pgEVT = false ∧ s.fld (fIRQR_ROUTE_IDENT pgCHIP) = 0) ∧
    (∃ (s : State) (p : Nat) (_v : Word), OneBlock s p) ∧
    (∃ (s : State) (p : Nat) (_v : Word), OneBlock s p) ∧
    (∃ (s : State) (p : Nat) (_v : Word), OneBlock s p ∧ s.fld (fIRQR_ROUTE_IDENT p) = 0) ∧
    (∃ (s : State) (p : Nat) (_v : Word), OneBlock s p ∧ s.fld (fIRQR_ROUTE_IDENT p) = 0) :=
  ⟨⟨State.reset, pgSVC, by decide +kernel⟩,
   ⟨State.reset, pgMLINK 23, 16, by decide +kernel⟩,
   ⟨State.reset, pgSVC, pgSVC * 0x10000 + 0xFFFF, by decide +kernel⟩,
   ⟨State.reset, by decide +kernel⟩,
   ⟨{ State.reset with pages := [(pgSVC, { resetting := true })] }, pgSVC, by decide +kernel⟩,
   ⟨{ State.reset with pages := [(pgHPORT 0, { resetting := true })] }, pgHPORT 0, 1, by decide +kernel⟩,
   ⟨{ State.reset with pages := [(quadPage pgMARK 3, { resetting := true })] }, 3, by decide +kernel⟩,
   ⟨State.reset, pgSVC, by decide +kernel⟩,
   ⟨State.reset, pgSVC, 0, 0, by decide +kernel⟩,
   ⟨{ State.reset with pages := [(pgSVC, { st := .fault })] }, pgSVC, 0, 0, by decide +kernel⟩,
   ⟨State.reset, 0x0A, 0, 0, by decide +kernel⟩,
   ⟨{ State.reset with pages := [(pgSVC, { resetting := true })] }, pgSVC, by decide +kernel⟩,
   ⟨running [pgSVC], 0, 0, by decide +kernel⟩,
   ⟨State.reset, pgSVC, 0xFFFFFFFF, by decide +kernel⟩,
   ⟨State.reset, pgSVC, 0xFFFFFFFF, by decide +kernel⟩,
   ⟨State.reset, pgSVC, 0xFFFFFFFF, by decide +kernel⟩,
   ⟨State.reset, pgSVC, 0xFFFFFFFF, by decide +kernel⟩⟩

theorem witness_Timebase :
    (∃ (s : State) (v : Nat), Reaches s pgTIME ∧ (s.blk pgTALLY = .off ∨ s.blk pgTALLY = .idle) ∧ s.now ≤ v ∧ v < 2 ^ 64) ∧
    (∃ (s : State) (v : Nat), Reaches s pgTIME ∧ (s.blk pgTALLY = .off ∨ s.blk pgTALLY = .idle) ∧ v < s.now ∧ v < 2 ^ 64) ∧
    (∃ (s : State) (_v : Nat), Reaches s pgTIME ∧ s.blk pgTALLY ≠ .off ∧ s.blk pgTALLY ≠ .idle) ∧
    (∃ (s : State) (d : Int), Reaches s pgTIME ∧ -(2 ^ 63) ≤ d ∧ d < 0) ∧
    (∃ (s : State), Reaches s pgTIME) ∧
    (∃ (s : State) (d : Int), Reaches s pgTIME ∧ 0 < d ∧ d < 2 ^ 63) ∧
    (∃ (s : State) (d : Int), Reaches s pgTIME ∧ 0 < d ∧ d < 2 ^ 63 ∧ s.runs pgTALLY = false ∧ s.now + d.toNat < 2 ^ 64) ∧
    (∃ (s : State), s.plat.time.slewing = true) ∧
    (∃ (s : State), s.plat.time.slewing = false) ∧
    (∃ (s : State) (e : TxTs) (es : List TxTs), s.plat.time.txts = e :: es) ∧
    (∃ (s : State), s.plat.time.txts = []) ∧
    (∃ (s : State), s.pending = []) ∧
    (∃ (s : State), s.plat.time.refOn = true ∧ s.reg rTIME_RATE_ADJ = 0 ∧ s.plat.time.slewing = false ∧ 0 ≤ s.plat.time.frac ∧ s.plat.time.frac < fracPerNs ∧ s.now + 10 < 2 ^ 64) ∧
    (∃ (s : State), s.plat.time.refOn = false) ∧
    (∃ (s : State) (ep k : Nat) (f : SwFrame), ep < 8 ∧ f.ldt = false ∧ ptpAt (f.hdr ++ f.payload) = some k ∧ ptpOneStep (f.hdr ++ f.payload) k = false ∧ s.plat.time.txts.length < 64) :=
  ⟨⟨State.reset, 5, by decide +kernel⟩,
   ⟨{ State.reset with plat.time.now := 5 }, 4, by decide +kernel⟩,
   ⟨running [pgTALLY], 5, by decide +kernel⟩,
   ⟨State.reset, -(2 ^ 63), by decide +kernel⟩,
   ⟨State.reset, by decide +kernel⟩,
   ⟨State.reset, 2 ^ 63 - 1, by decide +kernel⟩,
   ⟨State.reset, 2 ^ 63 - 1, by decide +kernel⟩,
   ⟨{ State.reset with plat.time.slewing := true, plat.time.slewRemain := 1 }, by decide +kernel⟩,
   ⟨State.reset, by decide +kernel⟩,
   ⟨{ State.reset with plat.time.txts := [⟨0, 0, 0, 1⟩] }, { port := 0, msgType := 0, seqId := 0, value := 1 }, [], by decide +kernel⟩,
   ⟨State.reset, by decide +kernel⟩,
   ⟨State.reset, by decide +kernel⟩,
   ⟨State.reset, by decide +kernel⟩,
   ⟨{ State.reset with plat.time.refOn := false }, by decide +kernel⟩,
   ⟨State.reset, 7, 14, { noFrame.frame with hdr := List.replicate 12 0 ++ [0x88, 0xF7] ++ List.replicate 6 0 ++ [2] ++ List.replicate 40 0 }, by decide +kernel⟩⟩

theorem witness_PaceWindow :
    (∃ (s : State) (us : Nat) (_beats : List Nat), us ≠ 0 ∧ us = s.plat.paceWindow ∧ Reaches s pgPACE ∧ (∀ r, r < 24 → s.fld (fPACE_LOW_THRESH_THRESH r) = 0)) ∧
    (∃ (s : State) (us r : Nat) (beats : List Nat), us ≠ 0 ∧ us = s.plat.paceWindow ∧ s.pageOn pgPACE = true ∧ s.runs pgPACE = true ∧ s.runs pgEVT = false ∧ r < 24 ∧ paceDom r = none ∧ (∀ q, q < 24 → q ≠ r → s.fld (fPACE_LOW_THRESH_THRESH q) = 0) ∧ s.fld (fPACE_LOW_THRESH_THRESH r) ≠ 0 ∧ min 0xFFFF (beats.getD r 0 / us) * coneFloor 4 < s.fld (fPACE_LOW_THRESH_THRESH r) * coneFloor (s.fld fPACE_CTRL_CONE) ∧ (s.fld fPACE_LOW_STAT_LOW).testBit r = false) ∧
    (∃ (s : State) (us : Nat) (_beats : List Nat), us ≠ 0 ∧ us = s.plat.paceWindow ∧ s.blk pgPACE = .fault) ∧
    (∃ (s : State) (us : Nat) (_beats : List Nat), us ≠ 0 ∧ us = s.plat.paceWindow ∧ s.pageOn pgPACE = true ∧ s.blk pgPACE ≠ .fault) ∧
    (∃ (s : State) (us : Nat) (_beats : List Nat), us ≠ 0 ∧ us = s.plat.paceWindow ∧ s.pageOn pgPACE = false) ∧
    (∃ (s : State) (us : Nat) (_beats : List Nat), (us = 0 ∨ us ≠ s.plat.paceWindow)) ∧
    (∃ (s : State) (c _v : Nat), c < 12 ∧ Reaches s (pgCLU c)) ∧
    (∃ (s : State) (c w : Nat), c < 12 ∧ Reaches s (pgCLU c) ∧ w ≤ 16 ∧ (s.cluster c).memTarget = none ∧ w ≠ (s.cluster c).scratchWays) ∧
    (∃ (s : State) (c w : Nat), c < 12 ∧ Reaches s (pgCLU c) ∧ ((s.cluster c).memTarget.isSome = true ∨ 16 < w)) ∧
    (∃ (s : State) (c w : Nat), c < 12 ∧ Reaches s (pgCLU c) ∧ w ≤ 16 ∧ (s.cluster c).memTarget = none ∧ w = (s.cluster c).scratchWays) ∧
    (∃ (_s : State) (c _v : Nat), 12 ≤ c) ∧
    (∃ (s : State) (c : Nat), (s.cluster c).memTarget = none) ∧
    (∃ (s : State) (c w : Nat), (s.cluster c).memTarget = some w) :=
  ⟨⟨State.reset, 100, [], by decide +kernel⟩,
   ⟨(running [pgPACE]).setFld (fPACE_LOW_THRESH_THRESH 23) 1, 100, 23, [], by decide +kernel⟩,
   ⟨{ State.reset with pages := [(pgPACE, { st := .fault })] }, 100, [], by decide +kernel⟩,
   ⟨State.reset, 100, [], by decide +kernel⟩,
   ⟨{ State.reset with plat.pwr.cold := true }, 100, [], by decide +kernel⟩,
   ⟨State.reset, 0, [], by decide +kernel⟩,
   ⟨State.reset, 11, 255, by decide +kernel⟩,
   ⟨State.reset, 11, 1, by decide +kernel⟩,
   ⟨{ State.reset with plat.clus := [(11, { memTarget := some 16 })] }, 11, 1, by decide +kernel⟩,
   ⟨State.reset, 11, 0, by decide +kernel⟩,
   ⟨State.reset, 12, 255, by decide +kernel⟩,
   ⟨State.reset, 11, by decide +kernel⟩,
   ⟨{ State.reset with plat.clus := [(11, { memTarget := some 16 })] }, 11, 16, by decide +kernel⟩⟩

theorem witness_Crossings :
    (∃ (s : State) (i k v w : Nat) (l : List Nat) (_g : Option Nat), isCrossing i k = true ∧ s.islandOn i = true ∧ (s.island i).inReset = false ∧ (s.island i).clkRun = true ∧ acceptSample v l = some w) ∧
    (∃ (s : State) (i k v : Nat) (l : List Nat) (_g : Option Nat), isCrossing i k = true ∧ s.islandOn i = true ∧ (s.island i).inReset = false ∧ (s.island i).clkRun = true ∧ acceptSample v l = none) ∧
    (∃ (s : State) (i k _v : Nat) (_l : List Nat) (_g : Option Nat), isCrossing i k = true ∧ s.islandOn i = false) ∧
    (∃ (s : State) (i k _v : Nat) (_l : List Nat) (_g : Option Nat), isCrossing i k = true ∧ s.islandOn i = true ∧ (s.island i).inReset = true) ∧
    (∃ (s : State) (i k _v : Nat) (_l : List Nat) (_g : Option Nat), isCrossing i k = true ∧ s.islandOn i = true ∧ (s.island i).inReset = false ∧ (s.island i).clkRun = false ∧ (s.crossing i k).waiting = none) ∧
    (∃ (s : State) (i k _v : Nat) (_l : List Nat) (_g : Option Nat), isCrossing i k = true ∧ s.islandOn i = true ∧ (s.island i).inReset = false ∧ (s.island i).clkRun = false ∧ (s.crossing i k).waiting.isSome = true) ∧
    (∃ (s : State) (i k v : Nat) (w : Handshake), isCrossing i k = true ∧ s.islandOn i = true ∧ (s.island i).refOn = true ∧ (s.crossing i k).waiting = some w ∧ acceptSample w.value w.samples = some v ∧ linksOf i = []) ∧
    (∃ (s : State) (i k : Nat), isCrossing i k = true ∧ s.islandOn i = true ∧ (s.island i).refOn = true ∧ (s.crossing i k).waiting = none ∧ (s.crossing i k).toggle = true ∧ (s.island i).clkRun = false ∧ linksOf i = []) ∧
    (∃ (s : State) (i k : Nat), (s.islandOn i = false ∨ (s.island i).refOn = false ∨ ((s.crossing i k).waiting = none ∧ (s.crossing i k).toggle = false))) ∧
    (∃ (s : State) (i k : Nat), isCrossing i k = true ∧ s.islandOn i = true ∧ (s.island i).inReset = false ∧ (s.crossing i k).toggle = false) ∧
    (∃ (s : State) (i k : Nat), isCrossing i k = true ∧ s.islandOn i = true ∧ (s.island i).inReset = false ∧ (s.crossing i k).toggle = true ∧ (s.crossing i k).count < 15) ∧
    (∃ (s : State) (i k : Nat), isCrossing i k = true ∧ s.islandOn i = true ∧ (s.island i).inReset = false ∧ (s.crossing i k).toggle = true ∧ 15 ≤ (s.crossing i k).count) ∧
    (∃ (s : State) (i k : Nat), isCrossing i k = true ∧ s.islandOn i = false) ∧
    (∃ (s : State) (i k : Nat), isCrossing i k = true ∧ s.islandOn i = true ∧ (s.island i).inReset = true) ∧
    (∃ (_s : State) (i k _v : Nat) (_l : List Nat) (_g : Option Nat), isCrossing i k = false) ∧
    (∃ (s : State) (i k : Nat), ((s.crossing i k).toggle = false ∨ (s.island i).clkRun = false ∨ (s.island i).inReset = true)) ∧
    (∃ (s : State) (i k : Nat), isCrossing i k = true ∧ (s.crossing i k).toggle = true ∧ (s.island i).clkRun = true ∧ (s.island i).inReset = false) ∧
    (∃ (s : State) (i k : Nat) (w : Handshake), isCrossing i k = true ∧ (s.crossing i k).waiting = some w) ∧
    (∃ (s : State) (i k : Nat), isCrossing i k = true ∧ (s.crossing i k).waiting = none ∧ (s.crossing i k).toggle = true ∧ (s.island i).clkRun = false) ∧
    (∃ (s : State) (i k : Nat), (s.crossing i k).waiting = none ∧ ((s.crossing i k).toggle = false ∨ (s.island i).clkRun = true)) :=
  ⟨⟨State.reset, 25, 31, 2, 2, [], none, by decide +kernel⟩,
   ⟨State.reset, 25, 31, 2, [0, 1, 0, 1, 0, 1, 0, 1, 0], none, by decide +kernel⟩,
   ⟨{ State.reset with plat.pwr.doms := [(16, { st := .banked })] }, 1, 31, 2, [], none, by decide +kernel⟩,
   ⟨{ State.reset with plat.islands := [(1, { inReset := true })] }, 1, 31, 2, [], none, by decide +kernel⟩,
   ⟨{ State.reset with plat.islands := [(1, { clkRun := false })] }, 1, 31, 2, [], none, by decide +kernel⟩,
   ⟨({ State.reset with plat.islands := [(1, { clkRun := false })] }).setCrossing 1 31 { waiting := some ⟨5, [], none⟩ }, 1, 31, 2, [], none, by decide +kernel⟩,
   ⟨(State.reset).setCrossing 1 31 { waiting := some ⟨5, [], none⟩ }, 1, 31, 5, { value := 5, samples := [], engine := none }, by decide +kernel⟩,
   ⟨({ State.reset with plat.islands := [(1, { clkRun := false })] }).setCrossing 1 31 { toggle := true }, 1, 31, by decide +kernel⟩,
   ⟨State.reset, 25, 31, by decide +kernel⟩,
   ⟨State.reset, 25, 31, by decide +kernel⟩,
   ⟨({ State.reset with plat.islands := [(1, { clkRun := false })] }).setCrossing 1 31 { toggle := true }, 1, 31, by decide +kernel⟩,
   ⟨(State.reset).setCrossing 1 31 { toggle := true, carried := 1, count := 15 }, 1, 31, by decide +kernel⟩,
   ⟨{ State.reset with plat.pwr.doms := [(16, { st := .banked })] }, 1, 31, by decide +kernel⟩,
   ⟨{ State.reset with plat.islands := [(1, { inReset := true })] }, 1, 31, by decide +kernel⟩,
   ⟨State.reset, 0, 31, 2, [], none, by decide +kernel⟩,
   ⟨State.reset, 25, 31, by decide +kernel⟩,
   ⟨(State.reset).setCrossing 1 31 { toggle := true, count := 14 }, 1, 31, by decide +kernel⟩,
   ⟨(State.reset).setCrossing 1 31 { waiting := some ⟨5, [], none⟩ }, 1, 31, { value := 5, samples := [], engine := none }, by decide +kernel⟩,
   ⟨({ State.reset with plat.islands := [(1, { clkRun := false })] }).setCrossing 1 31 { toggle := true }, 1, 31, by decide +kernel⟩,
   ⟨State.reset, 25, 31, by decide +kernel⟩⟩

theorem witness_Islands :
    (∃ (s : State) (i : Nat), isIsland i = true ∧ Reaches s pgXING ∧ ((s.island i).clkRun = true ∨ s.crossIdle i = true)) ∧
    (∃ (s : State) (i : Nat), isIsland i = true ∧ Reaches s pgXING ∧ (s.island i).clkRun = false ∧ s.crossIdle i = false) ∧
    (∃ (s : State) (i : Nat), isIsland i = true ∧ (s.island i).clkStop = true ∧ (s.island i).clkRun = true ∧ s.crossIdle i = true) ∧
    (∃ (s : State) (i : Nat), ((s.island i).clkStop = false ∨ (s.island i).clkRun = false ∨ s.crossIdle i = false)) ∧
    (∃ (_s : State) (i : Nat), isIsland i = true ∧ i ∉ [21, 22, 24]) ∧
    (∃ (_s : State) (i : Nat), i ∈ [21, 22, 24]) ∧
    (∃ (s : State) (i : Nat), isIsland i = true ∧ Reaches s pgXING ∧ fixedPair i = false ∧ (∀ k, k < 32 → (s.crossing i k).waiting = none) ∧ linksOf i = [] ∧ i ≠ 9 ∧ i ≠ 10 ∧ s.plat.chip.restartReq = none) ∧
    (∃ (s : State) (i : Nat), isIsland i = true ∧ Reaches s pgXING ∧ fixedPair i = false ∧ s.plat.chip.restartReq = none) ∧
    (∃ (s : State) (i : Nat), isIsland i = true ∧ Reaches s pgXING ∧ fixedPair i = true ∧ s.plat.chip.restartReq = none) ∧
    (∃ (s : State) (i : Nat), isIsland i = true ∧ linksOf i = [] ∧ (s.island i).inReset = true) ∧
    (∃ (s : State) (i : Nat), isIsland i = true ∧ (s.island i).inReset = true) ∧
    (∃ (s : State) (i : Nat), isIsland i = true ∧ Reaches s pgXING) ∧
    (∃ (_s : State) (i : Nat), isIsland i = false) ∧
    (∃ (s : State) (i : Nat), isIsland i = true ∧ (s.island i).inReset = false) :=
  ⟨⟨State.reset, 25, by decide +kernel⟩,
   ⟨({ State.reset with plat.islands := [(1, { clkRun := false })] }).setCrossing 1 31 { waiting := some ⟨5, [], none⟩ }, 1, by decide +kernel⟩,
   ⟨{ State.reset with plat.islands := [(1, { clkStop := true })] }, 1, by decide +kernel⟩,
   ⟨State.reset, 25, by decide +kernel⟩,
   ⟨State.reset, 25, by decide +kernel⟩,
   ⟨State.reset, 24, by decide +kernel⟩,
   ⟨State.reset, 1, by decide +kernel⟩,
   ⟨State.reset, 1, by decide +kernel⟩,
   ⟨State.reset, 25, by decide +kernel⟩,
   ⟨{ State.reset with plat.islands := [(1, { inReset := true })] }, 1, by decide +kernel⟩,
   ⟨{ State.reset with plat.islands := [(1, { inReset := true })] }, 1, by decide +kernel⟩,
   ⟨State.reset, 25, by decide +kernel⟩,
   ⟨State.reset, 26, by decide +kernel⟩,
   ⟨State.reset, 25, by decide +kernel⟩⟩

theorem witness_StoreOperations :
    (∃ (s : State) (c : Instr) (op : Nat), (c, op) ∈ [(.storeSelectA, 2), (.storeSelectB, 3), (.storeCopyAToB, 4), (.storeCopyBToA, 5)] ∧ Reaches s pgSTORE ∧ s.plat.store.busy = none ∧ s.plat.pwr.powerFail = false) ∧
    (∃ (s : State) (c : Instr) (op : Nat), (c, op) ∈ [(.storeCommit, 1), (.storeSelectA, 2), (.storeSelectB, 3), (.storeCopyAToB, 4), (.storeCopyBToA, 5), (.storeDiscard, 6)] ∧ Reaches s pgSTORE ∧ s.plat.store.busy.isSome = true) ∧
    (∃ (s : State) (c : Instr) (op : Nat), (c, op) ∈ [(.storeCommit, 1), (.storeSelectA, 2), (.storeSelectB, 3), (.storeCopyAToB, 4), (.storeCopyBToA, 5), (.storeDiscard, 6)] ∧ Reaches s pgSTORE ∧ s.plat.store.busy = none ∧ s.plat.pwr.powerFail = true) ∧
    (∃ (s : State), Reaches s pgSTORE ∧ s.plat.store.busy = none ∧ s.plat.pwr.powerFail = false ∧ s.storeWrites 1 ≠ []) ∧
    (∃ (s : State), Reaches s pgSTORE ∧ s.plat.store.busy = none ∧ s.plat.pwr.powerFail = false ∧ s.storeWrites 1 = []) ∧
    (∃ (s : State), Reaches s pgSTORE ∧ s.plat.store.busy = none ∧ s.plat.pwr.powerFail = false) ∧
    (∃ (s : State) (op b : Nat), s.plat.store.busy = some op ∧ (op, b) ∈ [(2, 0), (3, 1)] ∧ s.plat.chip.restartReq = none) ∧
    (∃ (s : State) (r d : Nat), s.plat.store.busy = some 1 ∧ s.plat.chip.restartReq = none ∧ s.storeWrites 1 = [(r, d)]) ∧
    (∃ (s : State) (k : Nat), s.plat.store.busy = some 4 ∧ s.plat.chip.restartReq = none ∧ k < 65536) ∧
    (∃ (s : State) (k : Nat), s.plat.store.busy = some 5 ∧ s.plat.chip.restartReq = none ∧ k < 65536) ∧
    (∃ (s : State) (r op : Nat), s.plat.store.busy = some op ∧ s.plat.chip.restartReq = none ∧ (s.storeWrites op).any (fun w => decide (w.1 = r)) = true) ∧
    (∃ (s : State) (_v : Option Nat) (op : Nat), s.plat.store.busy = some op) ∧
    (∃ (s : State) (_v : Option Nat), s.plat.store.busy = none) ∧
    (∃ (s : State), Reaches s pgSTORE) :=
  ⟨⟨State.reset, .storeCopyBToA, 5, by decide +kernel⟩,
   ⟨{ State.reset with plat.store.busy := some 1 }, .storeCopyBToA, 5, by decide +kernel⟩,
   ⟨{ State.reset with plat.pwr.powerFail := true }, .storeCopyBToA, 5, by decide +kernel⟩,
   ⟨{ State.reset with plat.store.stageAddr := [(63, 2 ^ 31 + 7)] }, by decide +kernel⟩,
   ⟨State.reset, by decide +kernel⟩,
   ⟨State.reset, by decide +kernel⟩,
   ⟨{ State.reset with plat.store.busy := some 2 }, 2, 0, by decide +kernel⟩,
   ⟨{ State.reset with plat.store.busy := some 1, plat.store.stageAddr := [(63, 2 ^ 31 + 7)], plat.store.stageData := [(63, 9)] }, 7, 9, by decide +kernel⟩,
   ⟨{ State.reset with plat.store.busy := some 4 }, 65535, by decide +kernel⟩,
   ⟨{ State.reset with plat.store.busy := some 5 }, 65535, by decide +kernel⟩,
   ⟨{ State.reset with plat.store.busy := some 1, plat.store.stageAddr := [(63, 2 ^ 31 + 7)], plat.store.stageData := [(63, 9)] }, 7, 1, by decide +kernel⟩,
   ⟨{ State.reset with plat.store.busy := some 1 }, none, 1, by decide +kernel⟩,
   ⟨State.reset, none, by decide +kernel⟩,
   ⟨State.reset, by decide +kernel⟩⟩

theorem witness_StartStage :
    (∃ (s : State) (v : Nat), Reaches s pgCHIP ∧ v < 16 ∧ v = 5 ∧ s.plat.chip.stage < 5) ∧
    (∃ (s : State) (v : Nat), Reaches s pgCHIP ∧ v < 16 ∧ v = 6 ∧ s.plat.chip.stage < 6) ∧
    (∃ (s : State) (v : Nat), Reaches s pgCHIP ∧ v < 16 ∧ v = 14 ∧ s.plat.chip.stage < 6) ∧
    (∃ (s : State) (v : Nat), Reaches s pgCHIP ∧ v < 16 ∧ (v = 5 ∨ v = 6) ∧ v ≤ s.plat.chip.stage) ∧
    (∃ (s : State) (v : Nat), Reaches s pgCHIP ∧ v < 16 ∧ v = 14 ∧ 6 ≤ s.plat.chip.stage) ∧
    (∃ (s : State) (v : Nat), Reaches s pgCHIP ∧ v < 16 ∧ v ≠ 5 ∧ v ≠ 6 ∧ v ≠ 14) :=
  ⟨⟨{ State.reset with plat.chip.stage := 4 }, 5, by decide +kernel⟩,
   ⟨{ State.reset with plat.chip.stage := 4 }, 6, by decide +kernel⟩,
   ⟨{ State.reset with plat.chip.stage := 4 }, 14, by decide +kernel⟩,
   ⟨{ State.reset with plat.chip.stage := 5 }, 5, by decide +kernel⟩,
   ⟨{ State.reset with plat.chip.stage := 6 }, 14, by decide +kernel⟩,
   ⟨{ State.reset with plat.chip.stage := 4 }, 15, by decide +kernel⟩⟩

theorem witness_PowerOnReset :
    (∃ (s : State), s.plat.store.busy = none) ∧
    (∃ (s : State) (op : Nat), s.plat.store.busy = some op) ∧
    (∃ (s : State) (_e : BootEnv), s.plat.chip.porstLow = true) ∧
    (∃ (s : State) (_e : BootEnv), s.plat.chip.porstLow = false) ∧
    (∃ (s : State) (_e : BootEnv), s.plat.pwr.cold = true ∧ s.plat.pwr.waking = true) ∧
    (∃ (s : State) (_e : BootEnv), (s.plat.pwr.cold = false ∨ s.plat.pwr.waking = false)) ∧
    (∃ (s : State) (v : Nat) (_e : BootEnv), Reaches s pgCHIP ∧ warmKey v = false) ∧
    (∃ (s : State) (v : Nat) (_e : BootEnv), Reaches s pgCHIP ∧ warmKey v = true ∧ s.plat.chip.restartReq = none ∧ s.restartWaits = true) ∧
    (∃ (s : State) (v : Nat) (_e : BootEnv), Reaches s pgCHIP ∧ warmKey v = true ∧ s.plat.chip.restartReq = none ∧ s.restartWaits = false) ∧
    (∃ (s : State) (v c : Nat) (_e : BootEnv), Reaches s pgCHIP ∧ warmKey v = true ∧ s.plat.chip.restartReq = some c ∧ s.restartWaits = true) ∧
    (∃ (s : State) (v c : Nat) (_e : BootEnv), Reaches s pgCHIP ∧ warmKey v = true ∧ s.plat.chip.restartReq = some c ∧ s.restartWaits = false) ∧
    (∃ (s : State), s.plat.chip.wdogCounting = true ∧ s.wdogTimeout ≠ 0 ∧ s.plat.chip.restartReq = none ∧ s.plat.chip.fatal = 0 ∧ s.restartWaits = true) ∧
    (∃ (s : State), s.plat.chip.wdogCounting = true ∧ s.wdogTimeout ≠ 0 ∧ s.plat.chip.restartReq = none ∧ s.plat.chip.fatal = 0 ∧ s.restartWaits = false) ∧
    (∃ (s : State), (s.plat.chip.wdogCounting = false ∨ s.wdogTimeout = 0)) :=
  ⟨⟨State.reset, by decide +kernel⟩,
   ⟨{ State.reset with plat.store.busy := some 1 }, 1, by decide +kernel⟩,
   ⟨State.reset, {}, by decide +kernel⟩,
   ⟨running [], {}, by decide +kernel⟩,
   ⟨{ State.reset with plat.pwr.cold := true, plat.pwr.waking := true }, {}, by decide +kernel⟩,
   ⟨State.reset, {}, by decide +kernel⟩,
   ⟨State.reset, 0x57510001, {}, by decide +kernel⟩,
   ⟨{ State.reset with plat.store.busy := some 1 }, 0x57520001, {}, by decide +kernel⟩,
   ⟨State.reset, 0x57520001, {}, by decide +kernel⟩,
   ⟨{ State.reset with plat.store.busy := some 1, plat.chip.restartReq := some 2 }, 0x57520001, 2, {}, by decide +kernel⟩,
   ⟨{ State.reset with plat.chip.restartReq := some 2 }, 0x57520001, 2, {}, by decide +kernel⟩,
   ⟨{ State.reset with plat.store.busy := some 1, plat.chip.wdogCounting := true, plat.chip.timeoutS := 1 }, by decide +kernel⟩,
   ⟨{ State.reset with plat.chip.wdogCounting := true, plat.chip.timeoutS := 1 }, by decide +kernel⟩,
   ⟨State.reset, by decide +kernel⟩⟩

theorem witness_WatchdogAndTap :
    (∃ (s : State), Reaches s pgCHIP ∧ s.plat.chip.stage = 6) ∧
    (∃ (s : State), Reaches s pgCHIP ∧ s.plat.chip.stage ≠ 6) ∧
    (∃ (s : State), Reaches s pgCHIP ∧ s.plat.chip.stage = 6 ∧ s.plat.chip.runEn = false) ∧
    (∃ (s : State), Reaches s pgCHIP ∧ s.plat.chip.runEn = true) ∧
    (∃ (s : State), Reaches s pgCHIP ∧ s.plat.chip.stage = 6) ∧
    (∃ (s : State) (_b : Bool), Reaches s pgCHIP ∧ s.plat.chip.stage ≠ 6) ∧
    (∃ (s : State) (v : Nat), Reaches s pgCHIP ∧ (s.plat.chip.wdogCounting = false ∨ ({ s with plat.chip.timeoutS := v % 65536 } : State).wdogTimeout = 0 ∨ s.now - s.plat.chip.wdogFrom < ({ s with plat.chip.timeoutS := v % 65536 } : State).wdogTimeout * 10 ^ 9)) ∧
    (∃ (s : State) (v : Nat), Reaches s pgCHIP ∧ s.plat.chip.wdogCounting = true ∧ ({ s with plat.chip.timeoutS := v % 65536 } : State).wdogTimeout ≠ 0 ∧ ({ s with plat.chip.timeoutS := v % 65536 } : State).wdogTimeout * 10 ^ 9 ≤ s.now - s.plat.chip.wdogFrom) ∧
    (∃ (s : State) (_ir : Nat), s.plat.chip.porstLow = false) ∧
    (∃ (s : State) (_ir : Nat), s.plat.chip.porstLow = true) :=
  ⟨⟨{ State.reset with plat.chip.stage := 6 }, by decide +kernel⟩,
   ⟨State.reset, by decide +kernel⟩,
   ⟨{ State.reset with plat.chip.stage := 6 }, by decide +kernel⟩,
   ⟨{ State.reset with plat.chip.stage := 6, plat.chip.runEn := true }, by decide +kernel⟩,
   ⟨{ State.reset with plat.chip.stage := 6 }, by decide +kernel⟩,
   ⟨State.reset, true, by decide +kernel⟩,
   ⟨{ State.reset with plat.chip.stage := 6 }, 65535, by decide +kernel⟩,
   ⟨{ State.reset with plat.time.now := 10 ^ 15, plat.chip.wdogCounting := true }, 65535, by decide +kernel⟩,
   ⟨running [], 65535, by decide +kernel⟩,
   ⟨{ State.reset with plat.chip.stage := 6 }, 65535, by decide +kernel⟩⟩

theorem witness_PortFrames :
    (∃ (s : State) (port : Nat) (f : List Byte), port < 0x20 ∧ s.working (portPage port) = true ∧ l4Of f = none ∧ (etherOf f).map Prod.fst ≠ some 0x88F7) ∧
    (∃ (s : State) (port : Nat) (f m : List Byte), port < 0x20 ∧ s.working (portPage port) = true ∧ l4Of f = none ∧ etherOf f = some (0x88F7, m) ∧ m.getD 0 0 &&& 0x08 = 0) ∧
    (∃ (s : State) (port : Nat) (f : List Byte) (l : L4), port < 0x20 ∧ s.working (portPage port) = true ∧ l4Of f = some l ∧ l.proto = 17 ∧ l.dport = 319 ∧ s.fld fLDT_CTRL_UDP_PORT ≠ 319) ∧
    (∃ (s : State) (port : Nat) (f : List Byte) (l : L4), port < 0x20 ∧ s.working (portPage port) = true ∧ l4Of f = some l ∧ s.localAddr port l.dst = false ∧ (l.proto = 17 → l.dport ≠ 319)) ∧
    (∃ (s : State) (port : Nat) (f : List Byte) (l : L4), port < 0x20 ∧ s.working (portPage port) = true ∧ l4Of f = some l ∧ l.proto = 6 ∧ l.dport = s.fld fNVTCP_CTRL_PORT ∧ s.localAddr port l.dst = true) ∧
    (∃ (s : State) (port : Nat) (f : List Byte) (l : L4), port < 0x24 ∧ s.working (portPage port) = true ∧ l4Of f = some l ∧ l.proto = 17 ∧ l.dport = s.fld fLDT_CTRL_UDP_PORT ∧ s.localAddr port l.dst = true ∧ udpGood l = true ∧ s.holdUse (portPage port) + ((l.body.take (unBe (slice l.body 4 2))).drop 8).length ≤ 131072) ∧
    (∃ (s : State) (port : Nat) (f : List Byte) (l : L4), port < 0x24 ∧ s.working (portPage port) = true ∧ l4Of f = some l ∧ l.proto = 17 ∧ l.dport = s.fld fLDT_CTRL_UDP_PORT ∧ s.localAddr port l.dst = true ∧ udpGood l = true ∧ 131072 < s.holdUse (portPage port) + ((l.body.take (unBe (slice l.body 4 2))).drop 8).length) ∧
    (∃ (s : State) (port : Nat) (f : List Byte) (l : L4), port < 0x24 ∧ s.working (portPage port) = true ∧ l4Of f = some l ∧ l.proto = 17 ∧ l.dport = s.fld fLDT_CTRL_UDP_PORT ∧ s.localAddr port l.dst = true ∧ udpGood l = false) ∧
    (∃ (s : State) (m : Nat) (f : List Byte), m < 4 ∧ s.working (pgPLINK m) = true ∧ l4Of f = none) ∧
    (∃ (s : State) (port : Nat) (_f : List Byte), (0x24 ≤ port ∨ s.working (portPage port) = false)) ∧
    (∃ (s : State) (_port a _ecn : Nat) (_f u pt : List Byte) (k : DirKey), s.blk pgLDT = .run ∧ unBe (slice u 2 2) = a ∧ a < 4096 ∧ s.assocLive a = true ∧ (s.ax a).curPhase = decide ((u.getD 0 0).toNat / 8 % 2 = 1) ∧ (s.akey a).cur.rx = some k ∧ gcmOpen k.key (k.salt ++ slice u 4 8) (u.take 12) ((u.drop 12).take ((u.drop 12).length - 16)) ((u.drop 12).drop ((u.drop 12).length - 16)) = some pt ∧ pktMalformed s.maxPayload ((u.getD 0 0).toNat / 16) pt = false) ∧
    (∃ (s : State) (_port a _ecn : Nat) (_f u : List Byte) (k : DirKey), s.blk pgLDT = .run ∧ unBe (slice u 2 2) = a ∧ a < 4096 ∧ s.assocLive a = true ∧ (s.ax a).curPhase = decide ((u.getD 0 0).toNat / 8 % 2 = 1) ∧ (s.akey a).cur.rx = some k ∧ gcmOpen k.key (k.salt ++ slice u 4 8) (u.take 12) ((u.drop 12).take ((u.drop 12).length - 16)) ((u.drop 12).drop ((u.drop 12).length - 16)) = none) ∧
    (∃ (s : State) (_port _ecn : Nat) (_f u : List Byte), s.blk pgLDT = .run ∧ unBe (slice u 2 2) < 4096 ∧ s.assocLive (unBe (slice u 2 2)) = false) ∧
    (∃ (s : State) (_port _ecn : Nat) (_f u : List Byte), s.blk pgLDT = .run ∧ 4096 ≤ unBe (slice u 2 2) ∧ unBe (slice u 2 2) ≠ 0xFFFF) :=
  ⟨⟨addressed [], 0, [], by decide +kernel⟩,
   ⟨addressed [], 0, ptpFrame, List.replicate 44 0, by decide +kernel⟩,
   ⟨addressed [], 0, udpTo 319, { proto := 17, src := [0, 0, 0, 0, 0, 0, 0, 0, 0, 0, 0, 0, 0, 0, 0, 0], dst := [1, 0, 0, 0, 0, 0, 0, 0, 0, 0, 0, 0, 0, 0, 0, 0], sport := 0, dport := 319, v4 := false, ecn := 0, body := [0, 0, 1, 63, 0, 8, 253, 159] }, by decide +kernel⟩,
   ⟨running [pgHPORT 7], 31, v6Frame, { proto := 17, src := [0, 0, 0, 0, 0, 0, 0, 0, 0, 0, 0, 0, 0, 0, 0, 0], dst := [1, 0, 0, 0, 0, 0, 0, 0, 0, 0, 0, 0, 0, 0, 0, 0], sport := 0, dport := 7021, v4 := false, ecn := 0, body := [0, 0, 27, 109, 0, 8, 0, 0] }, by decide +kernel⟩,
   ⟨addressed [], 0, v6Of 6 ([0, 0, 17, 68] ++ List.replicate 16 0), { proto := 6, src := [0, 0, 0, 0, 0, 0, 0, 0, 0, 0, 0, 0, 0, 0, 0, 0], dst := [1, 0, 0, 0, 0, 0, 0, 0, 0, 0, 0, 0, 0, 0, 0, 0], sport := 0, dport := 4420, v4 := false, ecn := 0, body := [0, 0, 17, 68, 0, 0, 0, 0, 0, 0, 0, 0, 0, 0, 0, 0, 0, 0, 0, 0] }, by decide +kernel⟩,
   ⟨addressed [], 0, udpTo 7021, { proto := 17, src := [0, 0, 0, 0, 0, 0, 0, 0, 0, 0, 0, 0, 0, 0, 0, 0], dst := [1, 0, 0, 0, 0, 0, 0, 0, 0, 0, 0, 0, 0, 0, 0, 0], sport := 0, dport := 7021, v4 := false, ecn := 0, body := [0, 0, 27, 109, 0, 8, 227, 113] }, by decide +kernel⟩,
   ⟨{ addressed [] with ldt.holding := List.replicate 65 ⟨0, [], List.replicate 2048 0, 0⟩ }, 0, udpTo 7021, { proto := 17, src := [0, 0, 0, 0, 0, 0, 0, 0, 0, 0, 0, 0, 0, 0, 0, 0], dst := [1, 0, 0, 0, 0, 0, 0, 0, 0, 0, 0, 0, 0, 0, 0, 0], sport := 0, dport := 7021, v4 := false, ecn := 0, body := [0, 0, 27, 109, 0, 8, 227, 113] }, by decide +kernel⟩,
   ⟨addressed [], 0, v6Frame, { proto := 17, src := [0, 0, 0, 0, 0, 0, 0, 0, 0, 0, 0, 0, 0, 0, 0, 0], dst := [1, 0, 0, 0, 0, 0, 0, 0, 0, 0, 0, 0, 0, 0, 0, 0], sport := 0, dport := 7021, v4 := false, ecn := 0, body := [0, 0, 27, 109, 0, 8, 0, 0] }, by decide +kernel⟩,
   ⟨running [pgPLINK 3], 3, [], by decide +kernel⟩,
   ⟨addressed [], 31, udpTo 319, by decide +kernel⟩,
   ⟨{ live [pgLDT] with sec.assocKeys := [(1, { cur := { rx := some zeroKey } })] }, 0, 1, 3, [], sealedPkt, pktPlain, zeroKey, by decide +kernel, by decide +kernel, by decide, by decide +kernel, by decide +kernel, by decide +kernel, by rw [sealedPkt_split.1, sealedPkt_split.2.1, sealedPkt_split.2.2.1, sealedPkt_split.2.2.2]; exact gcmOpen_seals, by decide +kernel⟩,
   ⟨{ live [pgLDT] with sec.assocKeys := [(1, { cur := { rx := some zeroKey } })] }, 0, 1, 3, [], pktHead ++ List.replicate 16 0, zeroKey, by decide +kernel, by decide +kernel, by decide, by decide +kernel, by decide +kernel, by decide +kernel, gcmOpen_refuses _ _ _ _ _ (by decide +kernel)⟩,
   ⟨running [pgLDT], 31, 3, udpTo 319, [0x10, 0, 0, 1], by decide +kernel⟩,
   ⟨running [pgLDT], 31, 3, udpTo 319, [0, 0, 0x10, 0], by decide +kernel⟩⟩

theorem witness_Handshakes :
    (∃ (s : State) (_port _udp : Nat) (_ip pl : List Byte), s.blk pgLDT = .run ∧ pl.length ≤ 2048 ∧ s.ldt.hsCount < 256) ∧
    (∃ (s : State) (_port _udp : Nat) (_ip pl : List Byte), s.blk pgLDT = .run ∧ (2048 < pl.length ∨ 256 ≤ s.ldt.hsCount)) ∧
    (∃ (s : State) (_port _udp : Nat) (_ip _pl : List Byte), s.ldtOn = false) ∧
    (∃ (s : State) (h : CmdHdr) (port len addr : Nat) (_ip : List Byte), Ready s h pgLDT pgLDT .work ∧ 12 ≤ len ∧ len ≤ 2048 ∧ port < 0x20 ∧ s.hbmErr addr len = false) ∧
    (∃ (s : State) (h : CmdHdr) (len addr : Nat) (_ip : List Byte), Ready s h pgLDT pgLDT .work ∧ 12 ≤ len ∧ len ≤ 2048 ∧ s.hbmErr addr len = false) ∧
    (∃ (s : State) (h : CmdHdr) (port len addr : Nat) (_ip : List Byte), Ready s h pgLDT pgLDT .work ∧ (len < 12 ∨ 2048 < len ∨ 0x20 < port ∨ s.hbmErr addr len = true)) :=
  ⟨⟨running [pgLDT], 0, 0, [], [], by decide +kernel⟩,
   ⟨{ running [pgLDT] with ldt.hsCount := 256 }, 0, 0, [], [], by decide +kernel⟩,
   ⟨State.reset, 0, 0, [], [], by decide +kernel⟩,
   ⟨running [pgEVT, pgLDT], hdr 0, 0, 31, 0, [], by decide +kernel⟩,
   ⟨running [pgEVT, pgLDT], hdr 0, 31, 0, [], by decide +kernel⟩,
   ⟨running [pgEVT, pgLDT], hdr 0, 0, 0, 0, [], by decide +kernel⟩⟩

theorem witness_OperationPackets :
    (∃ (s : State) (p : LdtPkt) (base : Nat) (nq : Option Nat), Fresh s p ∧ s.tgtOp p = none ∧ s.runs pgRGN = true ∧ (s.countRx p).regionCheck p.assoc p.target p.addr p.msgLen 1 = .ok base nq) ∧
    (∃ (s : State) (p : LdtPkt) (base : Nat) (nq : Option Nat), Fresh s p ∧ s.tgtOp p = none ∧ s.runs pgRGN = true ∧ (s.countRx p).regionCheck p.assoc p.target p.addr p.msgLen 5 = .ok base nq) ∧
    (∃ (s : State) (p : LdtPkt) (base : Nat) (nq : Option Nat), Fresh s p ∧ s.tgtOp p = none ∧ s.runs pgRGN = true ∧ (s.countRx p).regionCheck p.assoc p.target p.addr p.msgLen 2 = .ok base nq) ∧
    (∃ (s : State) (p : LdtPkt), Fresh s p ∧ s.tgtOp p = none ∧ s.runs pgRGN = true ∧ p.msgLen ≤ 16777216 ∧ p.target ≤ 63 ∧ s.fld (fRGN_RQ_CFG_SIZE_LOG2 p.target) ≠ 0 ∧ s.fld (fRGN_RQ_CFG_ASSOC p.target) = 0xFFFF ∧ s.rqPosted p.target = 0) ∧
    (∃ (s : State) (p : LdtPkt), Fresh s p ∧ s.tgtOp p = none ∧ s.runs pgRGN = true ∧ p.msgLen ≤ 16777216 ∧ p.target ≤ 63 ∧ s.fld (fRGN_RQ_CFG_SIZE_LOG2 p.target) ≠ 0 ∧ (s.fld (fRGN_RQ_CFG_ASSOC p.target) = 0xFFFF ∨ s.fld (fRGN_RQ_CFG_ASSOC p.target) = p.assoc) ∧ s.rqPosted p.target ≠ 0 ∧ p.msgLen ≤ s.hbmNat (rqSlot s p.target + 8) 4 ∧ s.nqFree (s.fld (fRGN_RQ_CFG_NQ p.target)) = true) ∧
    (∃ (s : State) (p : LdtPkt) (o : TgtOp) (c : Instr), c ∈ [.ldtWriteReceive p, .ldtWriteNotifyReceive p, .ldtSendReceive p] ∧ Fresh s p ∧ s.tgtOp p = some o ∧ opMalformed o p = false ∧ o.refused = false) ∧
    (∃ (s : State) (p : LdtPkt) (o : TgtOp) (c : Instr), c ∈ [.ldtWriteReceive p, .ldtWriteNotifyReceive p, .ldtSendReceive p, .ldtReadReqReceive p, .ldtCapsuleReceive p] ∧ Fresh s p ∧ s.tgtOp p = some o ∧ opMalformed o p = true) ∧
    (∃ (s : State) (p : LdtPkt) (k info : Nat) (c : Instr) (kind perm : Nat), (c, kind, perm) ∈ [(.ldtWriteReceive p, 0x10, 1), (.ldtWriteNotifyReceive p, 0x11, 5), (.ldtReadReqReceive p, 0x13, 2)] ∧ Fresh s p ∧ s.tgtOp p = none ∧ s.runs pgRGN = true ∧ (s.countRx p).regionCheck p.assoc p.target p.addr p.msgLen perm = .nak k info) ∧
    (∃ (s : State) (p : LdtPkt) (c : Instr) (kind perm : Nat), (c, kind, perm) ∈ [(.ldtWriteReceive p, 0x10, 1), (.ldtWriteNotifyReceive p, 0x11, 5), (.ldtReadReqReceive p, 0x13, 2)] ∧ Fresh s p ∧ s.tgtOp p = none ∧ s.runs pgRGN = true ∧ (s.countRx p).regionCheck p.assoc p.target p.addr p.msgLen perm = .drop) ∧
    (∃ (s : State) (p : LdtPkt) (c : Instr), c ∈ [.ldtWriteReceive p, .ldtWriteNotifyReceive p, .ldtSendReceive p, .ldtReadReqReceive p] ∧ Fresh s p ∧ s.tgtOp p = none ∧ s.runs pgRGN = false) ∧
    (∃ (s : State) (p : LdtPkt), Fresh s p ∧ s.tgtOp p = none ∧ 64 ≤ p.msgLen ∧ p.msgLen ≤ 16777216 ∧ s.runs pgNVF = true ∧ p.target.testBit 31 = false ∧ (s.dom (14 + p.target % 2)).st ≠ .draining) ∧
    (∃ (s : State) (p : LdtPkt) (code info : Nat) (c : Instr), c ∈ sequencedCmds p code info ∧ s.ldtOn = true ∧ s.assocLive p.assoc = true ∧ (s.countRx p).rxSort p.assoc p.psn = .dup) ∧
    (∃ (s : State) (p : LdtPkt) (code info : Nat) (c : Instr), c ∈ sequencedCmds p code info ∧ s.ldtOn = true ∧ s.assocLive p.assoc = true ∧ (s.countRx p).rxSort p.assoc p.psn = .outside) ∧
    (∃ (s : State) (p : LdtPkt) (code info : Nat) (c : Instr), c ∈ sequencedCmds p code info ∧ s.ldtOn = true ∧ s.assocLive p.assoc = false) ∧
    (∃ (s : State) (p : LdtPkt) (code info : Nat) (c : Instr), c ∈ sequencedCmds p code info ∧ s.ldtOn = false) ∧
    (∃ (s : State) (p : LdtPkt) (c : Instr), c ∈ [.ldtWriteReceive p, .ldtWriteNotifyReceive p, .ldtSendReceive p, .ldtReadReqReceive p, .ldtCapsuleReceive p] ∧ s.ldtOn = true ∧ s.blk pgLDT ≠ .run ∧ s.assocLive p.assoc = true ∧ (s.countRx p).rxSort p.assoc p.psn = .fresh ∧ s.tgtOp p = none) ∧
    (∃ (s : State) (_p : LdtPkt) (o : TgtOp) (a : _), (∀ i, o.holds = some i → a < s.regionAddr i ∨ s.regionAddr i + 32 ≤ a)) ∧
    (∃ (_s : State) (_p : LdtPkt) (o : TgtOp), (o.kind ≠ 0x10 ∨ o.holds = none)) :=
  ⟨⟨regionOpen (live [pgLDT, pgRGN]), pkt, 64, none, by decide +kernel⟩,
   ⟨regionOpen (live [pgLDT, pgRGN]), pkt, 64, some 0x41, by decide +kernel⟩,
   ⟨regionOpen (live [pgLDT, pgRGN]), pkt, 64, none, by decide +kernel⟩,
   ⟨((live [pgLDT, pgRGN]).setFld (fRGN_RQ_CFG_SIZE_LOG2 63) 1).setFld (fRGN_RQ_CFG_ASSOC 63) 0xFFFF, { pkt with target := 63 }, by decide +kernel⟩,
   ⟨{ ((((live [pgLDT, pgRGN]).setFld (fRGN_RQ_CFG_SIZE_LOG2 63) 1).setFld (fRGN_RQ_CFG_ASSOC 63) 0xFFFF).setReg (rRGN_RQ_PROD 63) 1).setFld (fRGN_NQ_CFG_SIZE_LOG2 0) 10 with mem.cells := [(8, 64)] }, { pkt with target := 63 }, by decide +kernel⟩,
   ⟨withExt (live [pgLDT, pgRGN]) { tgtOps := [(0, { kind := 0x12, target := 0, msgLen := 8 })] }, pkt, { kind := 0x12, target := 0, msgLen := 8 }, .ldtWriteReceive pkt, by decide +kernel⟩,
   ⟨withExt (live [pgLDT, pgRGN]) { tgtOps := [(0, { kind := 0x12, target := 0, msgLen := 8 })] }, { pkt with msgLen := 64 }, { kind := 0x12, target := 0, msgLen := 8 }, .ldtWriteReceive ({ pkt with msgLen := 64 } : LdtPkt), by decide +kernel⟩,
   ⟨regionOpen (live [pgLDT, pgRGN]), { pkt with msgLen := 64 }, 0x13, 8, .ldtWriteReceive ({ pkt with msgLen := 64 } : LdtPkt), 0x10, 1, by decide +kernel⟩,
   ⟨{ regionOpen (live [pgLDT, pgRGN]) with rgn.regions := [(0, { base := 64, length := 8, assoc := 0xFFFF, perm := 7, notifyTgt := 5, state := .valid })] }, pkt, .ldtWriteNotifyReceive pkt, 0x11, 5, by decide +kernel⟩,
   ⟨live [pgLDT, pgNVF], pkt, .ldtWriteReceive pkt, by decide +kernel⟩,
   ⟨live [pgLDT, pgNVF], { pkt with msgLen := 64 }, by decide +kernel⟩,
   ⟨regionOpen (live [pgLDT, pgRGN]), { pkt with psn := 0 }, 0, 0, .ldtWriteReceive ({ pkt with psn := 0 } : LdtPkt), by decide +kernel⟩,
   ⟨regionOpen (live [pgLDT, pgRGN]), { pkt with psn := 2 ^ 23 }, 0, 0, .ldtWriteReceive ({ pkt with psn := 2 ^ 23 } : LdtPkt), by decide +kernel⟩,
   ⟨running [pgLDT], pkt, 0, 0, .ldtWriteReceive pkt, by decide +kernel⟩,
   ⟨{ State.reset with pages := [(pgLDT, { st := .fault })] }, pkt, 0, 0, .ldtWriteReceive pkt, by decide +kernel⟩,
   ⟨{ live [pgRGN] with pages := [(pgLDT, { st := .quiescing })] }, pkt, .ldtWriteReceive pkt, by decide +kernel⟩,
   ⟨State.reset, pkt, opHolds, 32, by intro i hi; cases hi; decide +kernel⟩,
   ⟨regionOpen (live [pgLDT, pgRGN]), pkt, { kind := 0x12, target := 0, msgLen := 8 }, by decide +kernel⟩⟩

theorem witness_ControlPackets :
    (∃ (s : State) (p : LdtPkt) (_code _info : Nat) (o : InitOp), Fresh s p ∧ (s.ax p.assoc).initOps.find p.msgId = some o) ∧
    (∃ (s : State) (p : LdtPkt) (_code _info : Nat), Fresh s p ∧ (s.ax p.assoc).initOps.find p.msgId = none) ∧
    (∃ (s : State) (p : LdtPkt), s.ldtOn = true ∧ s.assocLive p.assoc = false) ∧
    (∃ (s : State) (_p : LdtPkt), s.ldtOn = false) ∧
    (∃ (s : State) (p : LdtPkt), s.assocLive p.assoc = true ∧ s.ldtOn = true) ∧
    (∃ (s : State) (p : LdtPkt), Fresh s p) ∧
    (∃ (s : State) (p : LdtPkt) (o : InitOp), Fresh s p ∧ (s.ax p.assoc).initOps.find p.msgId = some o ∧ o.kind = 0x13 ∧ o.msgLen = p.msgLen ∧ o.user ≠ pgNVF ∧ overlapsGot o.got p.msgOffset p.payload.length p.psn = false ∧ gotBytes (o.got ++ [(p.msgOffset, p.payload.length, p.psn)]) = o.msgLen) ∧
    (∃ (s : State) (p : LdtPkt) (o : InitOp), Fresh s p ∧ (s.ax p.assoc).initOps.find p.msgId = some o ∧ o.kind = 0x13 ∧ o.msgLen = p.msgLen ∧ o.user ≠ pgNVF ∧ overlapsGot o.got p.msgOffset p.payload.length p.psn = false ∧ gotBytes (o.got ++ [(p.msgOffset, p.payload.length, p.psn)]) ≠ o.msgLen) ∧
    (∃ (s : State) (p : LdtPkt), Fresh s p ∧ (s.ax p.assoc).initOps.find p.msgId = none) ∧
    (∃ (s : State) (_a : Nat) (_k : AckInfo), s.ldtOn = false) ∧
    (∃ (s : State) (a : Nat) (_k : AckInfo), s.ldtOn = true ∧ s.assocLive a = false) ∧
    (∃ (s : State) (a : Nat) (k : AckInfo), s.assocLive a = true ∧ s.ldtOn = true ∧ psnLe (s.assoc a).txNext k.cumAck = true) ∧
    (∃ (s : State) (a : Nat) (k : AckInfo), s.assocLive a = true ∧ s.ldtOn = true ∧ psnLe (s.assoc a).txNext k.cumAck = false ∧ psnLe (s.assoc a).txUna k.cumAck = true ∧ (∀ f, f ∈ (s.ax a).sent → psnLe f.psn k.cumAck = true) ∧ (s.ax a).initOps = [] ∧ (s.ax a).tgtOps = [] ∧ (s.ax a).closeSent = none) ∧
    (∃ (s : State) (a c : Nat) (k : AckInfo), s.assocLive a = true ∧ s.ldtOn = true ∧ psnLe (s.assoc a).txNext k.cumAck = false ∧ (∀ f, f ∈ (s.ax a).sent → psnLe f.psn k.cumAck = true) ∧ (s.ax a).initOps = [] ∧ (s.ax a).tgtOps = [] ∧ (s.ax a).closeSent = some c ∧ ackCovers k c = true) :=
  ⟨⟨withExt (live [pgLDT]) { initOps := [(0, { kind := 0x13, msgLen := 8 })] }, pkt, 0, 0, { kind := 0x13, msgLen := 8 }, by decide +kernel⟩,
   ⟨live [pgLDT], pkt, 0, 0, by decide +kernel⟩,
   ⟨running [pgLDT], pkt, by decide +kernel⟩,
   ⟨{ State.reset with pages := [(pgLDT, { st := .fault })] }, pkt, by decide +kernel⟩,
   ⟨withExt (live [pgLDT]) { initOps := [(0, { kind := 0x13, msgLen := 8 })] }, pkt, by decide +kernel⟩,
   ⟨withExt (live [pgLDT]) { initOps := [(0, { kind := 0x13, msgLen := 8 })] }, pkt, by decide +kernel⟩,
   ⟨withExt (live [pgLDT]) { initOps := [(0, { kind := 0x13, msgLen := 8 })] }, pkt, { kind := 0x13, msgLen := 8 }, by decide +kernel⟩,
   ⟨withExt (live [pgLDT]) { initOps := [(0, { kind := 0x13, msgLen := 8 })] }, { pkt with payload := [1] }, { kind := 0x13, msgLen := 8 }, by decide +kernel⟩,
   ⟨live [pgLDT], pkt, by decide +kernel⟩,
   ⟨{ State.reset with pages := [(pgLDT, { st := .fault })] }, 1, ⟨0, 0, 0, 0, 0, true⟩, by decide +kernel⟩,
   ⟨withExt (live [pgLDT]) { initOps := [(0, { kind := 0x13, msgLen := 8 })] }, 2, ⟨0, 0, 0, 0, 0, true⟩, by decide +kernel⟩,
   ⟨withExt (live [pgLDT]) { initOps := [(0, { kind := 0x13, msgLen := 8 })] }, 1, ⟨0, 0, 0, 0, 0, true⟩, by decide +kernel⟩,
   ⟨{ running [pgLDT] with ldt.assoc := [(1, { state := .isOpen, txNext := 1 })] }, 1, ⟨0, 0, 0, 0, 0, true⟩, by decide +kernel⟩,
   ⟨{ running [pgLDT] with ldt.assoc := [(1, { state := .isOpen, txNext := 1 })], ldt.ext := [(1, { closeSent := some 0 })] }, 1, 0, ⟨0, 0, 0, 0, 0, true⟩, by decide +kernel⟩⟩

theorem witness_TransportTimers :
    (∃ (s : State) (a : Nat), s.assocLive a = true ∧ (s.ax a).ackPend ≠ 0 ∧ s.ldtOn = true) ∧
    (∃ (s : State) (a : Nat), (s.assoc a).state = .isOpen ∧ s.ldtSends a = true ∧ s.fld fLDT_KA_CFG_KA_INTERVAL_MS ≠ 0) ∧
    (∃ (s : State) (a : Nat) (p : TxPkt) (q : List TxPkt), s.ldtSends a = true ∧ (s.assoc a).txPktNum < 2 ^ 48 ∧ (s.ax a).sent = [] ∧ (s.ax a).txq = p :: q ∧ psnSub (s.assoc a).txNext (s.assoc a).txUna < 128) ∧
    (∃ (s : State) (a : Nat), ((s.ax a).ackPend = 0 ∨ s.ldtSends a = false)) ∧
    (∃ (s : State) (a : Nat), ((s.assoc a).state ≠ .isOpen ∨ s.ldtOn = false ∨ s.fld fLDT_KA_CFG_KA_INTERVAL_MS = 0)) ∧
    (∃ (s : State) (a : Nat) (f : Sent), s.ldtSends a = true ∧ (s.assoc a).txPktNum < 2 ^ 48 ∧ (s.ax a).sent.find? (fun x => x.lost) = some f) ∧
    (∃ (s : State) (a : Nat), (s.ldtSends a = false ∨ 2 ^ 48 ≤ (s.assoc a).txPktNum ∨ ((s.ax a).sent.find? (fun x => x.lost) = none ∧ ((s.ax a).txq = [] ∨ 128 ≤ psnSub (s.assoc a).txNext (s.assoc a).txUna)))) ∧
    (∃ (s : State) (a : Nat), (s.ldtSends a = false ∨ s.fld fLDT_KA_CFG_KA_TIMEOUT_MS = 0)) ∧
    (∃ (s : State) (a : Nat) (f : Sent), (s.ax a).sent.find? (fun f => f.psn = (s.assoc a).txUna) = some f ∧ s.ldtSends a = true ∧ (s.assoc a).rtoCount + 1 < s.fld fLDT_LOSS_CFG_RETX_LIMIT ∧ s.runs pgEVT = false ∧ (s.assoc a).txPktNum < 2 ^ 40) ∧
    (∃ (s : State) (a : Nat), ((s.ax a).sent.find? (fun f => f.psn = (s.assoc a).txUna) = none ∨ s.ldtSends a = false)) ∧
    (∃ (s : State) (a : Nat), s.ldtSends a = true ∧ s.fld fLDT_KA_CFG_KA_TIMEOUT_MS ≠ 0) ∧
    (∃ (s : State) (a : Nat) (f : Sent), (s.ax a).sent.find? (fun f => f.psn = (s.assoc a).txUna) = some f ∧ s.ldtSends a = true ∧ s.fld fLDT_LOSS_CFG_RETX_LIMIT ≤ (s.assoc a).rtoCount + 1) ∧
    (∃ (s : State) (a path : Nat), s.ldtSends a = true ∧ (s.ax a).removed.testBit path = true ∧ path < 16 ∧ s.runs pgEVT = false) ∧
    (∃ (s : State) (a path : Nat), (s.ldtSends a = false ∨ (s.ax a).removed.testBit path = false ∨ 16 ≤ path)) ∧
    (∃ (s : State) (a : Nat), s.ldtSends a = true ∧ (s.ax a).ackSeen = true ∧ (s.ax a).sumRx ≠ 0 ∧ s.fld fLDT_CTRL_ECN_EN = 1 ∧ 0 < 65536 * (s.ax a).sumCe / (s.ax a).sumRx ∧ (s.assoc a).lossCut = false) ∧
    (∃ (s : State) (a : Nat), s.ldtSends a = false) ∧
    (∃ (s : State) (a : Nat), (s.ldtSends a = false ∨ (s.ax a).txSwitched = false ∨ (s.ax a).rxSwitched = false)) ∧
    (∃ (s : State) (a : Nat), s.ldtSends a = true ∧ (s.ax a).ackSeen = false) ∧
    (∃ (s : State) (a : Nat), s.ldtSends a = true ∧ (s.ax a).txSwitched = true ∧ (s.ax a).rxSwitched = true) :=
  ⟨⟨withExt (live [pgLDT]) { ackPend := 1 }, 1, by decide +kernel⟩,
   ⟨withExt (live [pgLDT]) { ackPend := 1 }, 1, by decide +kernel⟩,
   ⟨withExt (live [pgLDT]) { txq := [{ type := 0x10 }] }, 1, { type := 16, first := false, last := false, ackReq := false, msgId := 0, msgLen := 0, msgOff := 0, target := 0, addr := 0, imm := 0, src := none, len := 0, bytes := [], cls := 7 }, [], by decide +kernel⟩,
   ⟨withExt (live [pgLDT]) { ackPend := 1 }, 2, by decide +kernel⟩,
   ⟨withExt (live [pgLDT]) { ackPend := 1 }, 2, by decide +kernel⟩,
   ⟨withExt (live [pgLDT]) { sent := [{ psn := 0, path := 0, pkt := { type := 0x10 }, order := 0, lost := true }] }, 1, { psn := 0, path := 0, pkt := { type := 16, first := false, last := false, ackReq := false, msgId := 0, msgLen := 0, msgOff := 0, target := 0, addr := 0, imm := 0, src := none, len := 0, bytes := [], cls := 7 }, order := 0, sacked := false, dups := 0, lost := true }, by decide +kernel⟩,
   ⟨withExt (live [pgLDT]) { ackPend := 1 }, 1, by decide +kernel⟩,
   ⟨withExt (live [pgLDT]) { ackPend := 1 }, 2, by decide +kernel⟩,
   ⟨withExt (live [pgLDT]) { sent := [{ psn := 0, path := 0, pkt := { type := 0x10 }, order := 0, lost := true }] }, 1, { psn := 0, path := 0, pkt := { type := 16, first := false, last := false, ackReq := false, msgId := 0, msgLen := 0, msgOff := 0, target := 0, addr := 0, imm := 0, src := none, len := 0, bytes := [], cls := 7 }, order := 0, sacked := false, dups := 0, lost := true }, by decide +kernel⟩,
   ⟨withExt (live [pgLDT]) { ackPend := 1 }, 1, by decide +kernel⟩,
   ⟨withExt (live [pgLDT]) { ackPend := 1 }, 1, by decide +kernel⟩,
   ⟨{ running [pgLDT] with ldt.assoc := [(1, { state := .isOpen, rtoCount := 255 })], ldt.ext := [(1, { sent := [{ psn := 0, path := 0, pkt := { type := 0x10 }, order := 0 }] })] }, 1, { psn := 0, path := 0, pkt := { type := 16, first := false, last := false, ackReq := false, msgId := 0, msgLen := 0, msgOff := 0, target := 0, addr := 0, imm := 0, src := none, len := 0, bytes := [], cls := 7 }, order := 0, sacked := false, dups := 0, lost := false }, by decide +kernel⟩,
   ⟨withExt (live [pgLDT]) { removed := 2 ^ 15 }, 1, 15, by decide +kernel⟩,
   ⟨withExt (live [pgLDT]) { ackPend := 1 }, 1, 15, by decide +kernel⟩,
   ⟨(withExt (live [pgLDT]) { ackSeen := true, sumRx := 2, sumCe := 1 }).setFld fLDT_CTRL_ECN_EN 1, 1, by decide +kernel⟩,
   ⟨withExt (live [pgLDT]) { ackPend := 1 }, 2, by decide +kernel⟩,
   ⟨withExt (live [pgLDT]) { ackPend := 1 }, 1, by decide +kernel⟩,
   ⟨withExt (live [pgLDT]) { ackPend := 1 }, 1, by decide +kernel⟩,
   ⟨withExt (live [pgLDT]) { txSwitched := true, rxSwitched := true }, 1, by decide +kernel⟩⟩

theorem witness_AssociationCommands :
    (∃ (s : State) (h : CmdHdr) (a _peer _tx _rx port descr : Nat), Ready s h pgLDT pgLDT .work ∧ a < 4096 ∧ port ≤ 0x20 ∧ descr % 64 = 0 ∧ (s.assoc a).state = .free ∧ (s.akey a).cur.full = true ∧ s.hbmErr descr 64 = false ∧ s.localAddr port (slice (s.hbmRead descr 64) 0x10 16) = true) ∧
    (∃ (s : State) (h : CmdHdr) (a : Nat), Ready s h pgLDT pgLDT .release ∧ a < 4096 ∧ ((s.assoc a).state = .isOpen ∨ (s.assoc a).state = .closing)) ∧
    (∃ (s : State) (h : CmdHdr) (a _peer _tx _rx port descr : Nat), Ready s h pgLDT pgLDT .work ∧ (4096 ≤ a ∨ 0x20 < port ∨ descr % 64 ≠ 0)) ∧
    (∃ (s : State) (h : CmdHdr) (a _peer _tx _rx port descr : Nat), Ready s h pgLDT pgLDT .work ∧ a < 4096 ∧ port ≤ 0x20 ∧ descr % 64 = 0 ∧ (s.assoc a).state ≠ .free) ∧
    (∃ (s : State) (h : CmdHdr) (a _peer _tx _rx port descr : Nat), Ready s h pgLDT pgLDT .work ∧ a < 4096 ∧ port ≤ 0x20 ∧ descr % 64 = 0 ∧ (s.assoc a).state = .free ∧ (s.akey a).cur.full = false) ∧
    (∃ (s : State) (h : CmdHdr) (a : Nat), Ready s h pgLDT pgLDT .release ∧ a < 4096 ∧ (s.assoc a).state = .failed) ∧
    (∃ (s : State) (h : CmdHdr) (a : Nat), Ready s h pgLDT pgLDT .release ∧ (4096 ≤ a ∨ (s.assoc a).state = .free)) ∧
    (∃ (s : State) (a : Nat), ((s.assoc a).state ≠ .closing ∨ (s.ax a).initOps ≠ [] ∨ (s.ax a).closeSent ≠ none ∨ (s.ax a).txq.any (fun p => p.type = 0x04) = true)) ∧
    (∃ (s : State) (h : CmdHdr) (a : Nat) (_arm : Bool), Ready s h pgLDT pgLDT .work ∧ a < 4096 ∧ s.assocLive a = true ∧ ((s.assoc a).rxNextArmed = false ∧ (s.akey a).next.full = true ∨ (s.assoc a).rxNextArmed = true ∧ (s.ax a).txSwitched = false)) ∧
    (∃ (s : State) (h : CmdHdr) (a : Nat) (arm tx : Bool), Ready s h pgLDT pgLDT .work ∧ (4096 ≤ a ∨ s.assocLive a = false ∨ (arm = false ∧ tx = false))) ∧
    (∃ (s : State) (h : CmdHdr) (a : Nat) (arm tx : Bool), Ready s h pgLDT pgLDT .work ∧ a < 4096 ∧ s.assocLive a = true ∧ (arm || tx) = true ∧ (s.assoc a).rxNextArmed = false ∧ (s.akey a).next.full = false) ∧
    (∃ (s : State) (h : CmdHdr) (a : Nat), Ready s h pgLDT pgLDT .work ∧ a < 4096 ∧ s.assocLive a = true ∧ (s.assoc a).rxNextArmed = true) ∧
    (∃ (s : State) (h : CmdHdr) (a : Nat), Ready s h pgLDT pgLDT .release ∧ (4096 ≤ a ∨ (s.assoc a).state ≠ .failed)) ∧
    (∃ (s : State) (a : Nat), (s.assoc a).state = .closing ∧ (s.ax a).initOps = [] ∧ (s.ax a).closeSent = none ∧ (s.ax a).txq.any (fun p => p.type = 0x04) = false) ∧
    (∃ (s : State) (h : CmdHdr) (a : Nat), Ready s h pgLDT pgLDT .work ∧ a < 4096 ∧ s.assocLive a = true ∧ (s.assoc a).rxNextArmed = false ∧ (s.akey a).next.full = true) ∧
    (∃ (s : State) (h : CmdHdr) (a : Nat), Ready s h pgLDT pgLDT .release ∧ a < 4096 ∧ (s.assoc a).state = .failed) :=
  ⟨⟨{ (running [pgEVT, pgLDT]).setReg (rHPORT_IP_ADDR 0 0 0) 1 with mem.cells := [(0x10, 1)], sec.assocKeys := [(4095, { cur := { tx := some zeroKey, rx := some zeroKey } })] }, hdr 0, 4095, 4095, 4095, 4095, 0, 0, by decide +kernel⟩,
   ⟨{ live [pgEVT, pgLDT] with sec.assocKeys := [(1, { next := { tx := some zeroKey, rx := some zeroKey } })] }, hdr 0, 1, by decide +kernel⟩,
   ⟨{ live [pgEVT, pgLDT] with sec.assocKeys := [(1, { next := { tx := some zeroKey, rx := some zeroKey } })] }, hdr 0, 4095, 4095, 4095, 4095, 4095, 4095, by decide +kernel⟩,
   ⟨{ live [pgEVT, pgLDT] with sec.assocKeys := [(1, { next := { tx := some zeroKey, rx := some zeroKey } })] }, hdr 0, 1, 4095, 4095, 4095, 0, 0, by decide +kernel⟩,
   ⟨{ live [pgEVT, pgLDT] with sec.assocKeys := [(1, { next := { tx := some zeroKey, rx := some zeroKey } })] }, hdr 0, 4095, 4095, 4095, 4095, 0, 0, by decide +kernel⟩,
   ⟨{ running [pgEVT, pgLDT] with ldt.assoc := [(1, { state := .failed })] }, hdr 0, 1, by decide +kernel⟩,
   ⟨{ live [pgEVT, pgLDT] with sec.assocKeys := [(1, { next := { tx := some zeroKey, rx := some zeroKey } })] }, hdr 0, 4095, by decide +kernel⟩,
   ⟨{ live [pgEVT, pgLDT] with sec.assocKeys := [(1, { next := { tx := some zeroKey, rx := some zeroKey } })] }, 4095, by decide +kernel⟩,
   ⟨{ live [pgEVT, pgLDT] with sec.assocKeys := [(1, { next := { tx := some zeroKey, rx := some zeroKey } })] }, hdr 0, 1, true, by decide +kernel⟩,
   ⟨{ live [pgEVT, pgLDT] with sec.assocKeys := [(1, { next := { tx := some zeroKey, rx := some zeroKey } })] }, hdr 0, 4095, true, true, by decide +kernel⟩,
   ⟨live [pgEVT, pgLDT], hdr 0, 1, true, true, by decide +kernel⟩,
   ⟨{ running [pgEVT, pgLDT] with ldt.assoc := [(1, { state := .isOpen, rxNextArmed := true })] }, hdr 0, 1, by decide +kernel⟩,
   ⟨{ live [pgEVT, pgLDT] with sec.assocKeys := [(1, { next := { tx := some zeroKey, rx := some zeroKey } })] }, hdr 0, 4095, by decide +kernel⟩,
   ⟨{ running [pgLDT] with ldt.assoc := [(1, { state := .closing })] }, 1, by decide +kernel⟩,
   ⟨{ live [pgEVT, pgLDT] with sec.assocKeys := [(1, { next := { tx := some zeroKey, rx := some zeroKey } })] }, hdr 0, 1, by decide +kernel⟩,
   ⟨{ running [pgEVT, pgLDT] with ldt.assoc := [(1, { state := .failed })] }, hdr 0, 1, by decide +kernel⟩⟩

theorem witness_ContextCache :
    (∃ (s : State) (h : CmdHdr) (c : Nat), Ready s h pgCTX pgCTX .work ∧ c < 2 ^ 20 ∧ (s.qctx c).pinned = false ∧ s.pinnedCount < 8192) ∧
    (∃ (s : State) (h : CmdHdr) (c : Nat), Ready s h pgCTX pgCTX .work ∧ c < 2 ^ 20 ∧ (s.qctx c).pinned = true) ∧
    (∃ (s : State) (h : CmdHdr) (c : Nat), Ready s h pgCTX pgCTX .work ∧ c < 2 ^ 20 ∧ (s.qctx c).pinned = false ∧ 8192 ≤ s.pinnedCount) ∧
    (∃ (s : State) (h : CmdHdr) (c : Nat), Ready s h pgCTX pgCTX .release ∧ c < 2 ^ 20) ∧
    (∃ (s : State) (h : CmdHdr) (c : Nat), Ready s h pgCTX pgCTX .release ∧ c < 2 ^ 20) ∧
    (∃ (s : State) (c : Nat) (l : List MissPkt), s.ctx.missq.find c = some l ∧ s.hbmErr (s.reg64 rCTX_BACK_BASE + 384 * c) 384 = false) ∧
    (∃ (s : State) (c : Nat) (l : List MissPkt), s.ctx.missq.find c = some l ∧ s.hbmErr (s.reg64 rCTX_BACK_BASE + 384 * c) 384 = false) ∧
    (∃ (s : State) (c : Nat) (_u : Bool), s.ctx.missq.find c = none) ∧
    (∃ (s : State) (c : Nat), s.ctx.missq.find c = some [] ∧ s.hbmErr (s.reg64 rCTX_BACK_BASE + 384 * c) 384 = false) ∧
    (∃ (s : State) (h : CmdHdr) (i a perm tgt base len : Nat), Ready s h pgRGN pgRGN .work ∧ i < 65536 ∧ rgnBadArg a perm tgt base len = false ∧ s.regionBad i = false ∧ (s.region i).state = .free) ∧
    (∃ (s : State) (h : CmdHdr) (i _g : Nat), Ready s h pgRGN pgRGN .release ∧ i < 65536 ∧ s.regionBad i = false ∧ (s.region i).state = .valid ∧ (s.region i).lost = false) ∧
    (∃ (s : State) (i q g : Nat), s.rgn.revokes.find i = some (q, g) ∧ (s.region i).state = .revoking ∧ (s.region i).lost = false ∧ (s.region i).pins = 0) ∧
    (∃ (s : State) (h : CmdHdr) (i _a _perm _tgt _base _len : Nat), Ready s h pgRGN pgRGN .work ∧ 65536 ≤ i) ∧
    (∃ (s : State) (h : CmdHdr) (i a perm tgt base len : Nat), Ready s h pgRGN pgRGN .work ∧ i < 65536 ∧ rgnBadArg a perm tgt base len = true) ∧
    (∃ (s : State) (h : CmdHdr) (i a perm tgt base len : Nat), Ready s h pgRGN pgRGN .work ∧ i < 65536 ∧ rgnBadArg a perm tgt base len = false ∧ s.regionBad i = false ∧ (s.region i).state ≠ .free) ∧
    (∃ (s : State) (h : CmdHdr) (i _g : Nat), Ready s h pgRGN pgRGN .release ∧ 65536 ≤ i) ∧
    (∃ (s : State) (h : CmdHdr) (i _g : Nat), Ready s h pgRGN pgRGN .release ∧ i < 65536 ∧ s.regionBad i = false ∧ ((s.region i).state = .free ∨ ((s.region i).state = .revoking ∧ (s.region i).lost = false))) ∧
    (∃ (s : State) (i q g : Nat), s.rgn.revokes.find i = some (q, g) ∧ (s.region i).state = .revoking ∧ (s.region i).lost = true ∧ s.rgn.held.get 0 i = 0) ∧
    (∃ (s : State) (i : Nat), s.rgn.revokes.find i = none) ∧
    (∃ (s : State) (i q g : Nat), s.rgn.revokes.find i = some (q, g) ∧ (s.region i).lost = false ∧ (s.region i).pins ≠ 0) :=
  ⟨⟨running [pgEVT, pgCTX], hdr 0, 2 ^ 20 - 1, by decide +kernel⟩,
   ⟨{ running [pgEVT, pgCTX] with ctx.ctxs := [(0, { pinned := true })] }, hdr 0, 0, by decide +kernel⟩,
   ⟨{ running [pgEVT, pgCTX] with ctx.ctxs := (List.range 8192).map (fun i => (i, { pinned := true })) }, hdr 0, 2 ^ 20 - 1, by decide +kernel⟩,
   ⟨running [pgEVT, pgCTX], hdr 0, 2 ^ 20 - 1, by decide +kernel⟩,
   ⟨running [pgEVT, pgCTX], hdr 0, 2 ^ 20 - 1, by decide +kernel⟩,
   ⟨{ State.reset with ctx.missq := [(5, [])] }, 5, [], by decide +kernel⟩,
   ⟨{ State.reset with ctx.missq := [(5, [])] }, 5, [], by decide +kernel⟩,
   ⟨running [pgEVT, pgCTX], 2 ^ 20 - 1, true, by decide +kernel⟩,
   ⟨{ State.reset with ctx.missq := [(5, [])] }, 5, by decide +kernel⟩,
   ⟨running [pgEVT, pgRGN], hdr 0, 0, 0, 0, 0, 0, 2 ^ 20 - 1, by decide +kernel⟩,
   ⟨{ running [pgEVT, pgRGN] with rgn.regions := [(3, { state := .valid })] }, hdr 0, 3, 2 ^ 20 - 1, by decide +kernel⟩,
   ⟨{ State.reset with rgn.revokes := [(3, (1, 0))], rgn.regions := [(3, { state := .revoking })] }, 3, 1, 0, by decide +kernel⟩,
   ⟨running [pgEVT, pgRGN], hdr 0, 2 ^ 20 - 1, 2 ^ 20 - 1, 2 ^ 20 - 1, 2 ^ 20 - 1, 2 ^ 20 - 1, 2 ^ 20 - 1, by decide +kernel⟩,
   ⟨running [pgEVT, pgRGN], hdr 0, 0, 2 ^ 20 - 1, 2 ^ 20 - 1, 2 ^ 20 - 1, 2 ^ 20 - 1, 2 ^ 20 - 1, by decide +kernel⟩,
   ⟨{ running [pgEVT, pgRGN] with rgn.regions := [(3, { state := .valid })] }, hdr 0, 3, 0, 0, 0, 0, 2 ^ 20 - 1, by decide +kernel⟩,
   ⟨running [pgEVT, pgRGN], hdr 0, 2 ^ 20 - 1, 2 ^ 20 - 1, by decide +kernel⟩,
   ⟨running [pgEVT, pgRGN], hdr 0, 0, 2 ^ 20 - 1, by decide +kernel⟩,
   ⟨{ State.reset with rgn.revokes := [(3, (1, 0))], rgn.regions := [(3, { state := .revoking, lost := true })] }, 3, 1, 0, by decide +kernel⟩,
   ⟨running [pgEVT, pgCTX], 2 ^ 20 - 1, by decide +kernel⟩,
   ⟨{ State.reset with rgn.revokes := [(3, (1, 0))], rgn.regions := [(3, { state := .revoking, pins := 1 })] }, 3, 1, 0, by decide +kernel⟩⟩

theorem witness_NvmeAdmission :
    (∃ (s t : State) (k : Nat) (q : List Nat), s.runs pgNVF = true ∧ s.plat.chip.admissionStopped = false ∧ s.nvf.waitWrite = none ∧ s.urgentOver = false ∧ s.classQueue 0 = k :: q ∧ s.tryAdmit k = (t, .admitted)) ∧
    (∃ (s t : State) (k : Nat), s.runs pgNVF = true ∧ s.plat.chip.admissionStopped = false ∧ s.nvf.waitWrite = some k ∧ s.tryAdmit k = (t, .admitted)) ∧
    (∃ (s : State) (k : Nat) (q : List Nat) (c : NvCmd), s.runs pgNVF = true ∧ s.plat.chip.admissionStopped = false ∧ s.nvf.waitWrite = none ∧ s.urgentOver = false ∧ s.classQueue 0 = k :: q ∧ s.nvCmd k = c ∧ c.apply = none ∧ c.opc = ocFlush ∧ c.host = [] ∧ c.paid = true ∧ s.nsCheck c = (s, none) ∧ (s.ns c.nsid).ana ≠ 4 ∧ s.sw.cfg.lowered = [] ∧ s.ovlUsed ≤ 131072) ∧
    (∃ (s : State), (s.runs pgNVF = false ∨ s.plat.chip.admissionStopped = true)) ∧
    (∃ (s : State), s.nvf.waitWrite = none ∧ s.nvf.queues = []) ∧
    (∃ (s : State) (_k : Nat) (c : NvCmd), c.writes = false ∧ c.opc ≠ ocWrite ∧ c.opc ≠ ocDsm ∧ c.apply = none ∧ s.peerState ≠ psPaired) ∧
    (∃ (s : State) (ten k : Nat), (s.limBad ten = true ∨ ((s.lim ten).refilled s.now).open_ = true) ∧ s.nvf.held = [k] ∧ (s.nvCmd k).tenant = ten) ∧
    (∃ (s : State) (ten : Nat), s.limBad ten = false ∧ ((s.lim ten).refilled s.now).open_ = false) :=
  ⟨⟨flushWaits, (flushWaits.tryAdmit 7).1, 7, [], by decide +kernel, by decide +kernel, by decide +kernel, by decide +kernel, by decide +kernel, rfl⟩,
   ⟨{ withCmd [pgNVF] 7 { sqe := 0 :: [0, 0, 0, 1] ++ List.replicate 59 0 } with nvf.waitWrite := some 7 }, (({ withCmd [pgNVF] 7 { sqe := 0 :: [0, 0, 0, 1] ++ List.replicate 59 0 } with nvf.waitWrite := some 7 } : State).tryAdmit 7).1, 7, by decide +kernel, by decide +kernel, by decide +kernel, rfl⟩,
   ⟨{ withCmd [pgNVF] 7 { sqe := 0 :: [0, 0, 0, 1] ++ List.replicate 59 0, paid := true } with nvf.queues := [(0, [7])] }, 7, [], ({ withCmd [pgNVF] 7 { sqe := 0 :: [0, 0, 0, 1] ++ List.replicate 59 0, paid := true } with nvf.queues := [(0, [7])] } : State).nvCmd 7, by decide +kernel⟩,
   ⟨State.reset, by decide +kernel⟩,
   ⟨State.reset, by decide +kernel⟩,
   ⟨flushWaits, 7, {}, by decide +kernel⟩,
   ⟨{ State.reset with mem.bad := [State.reset.limAddr 0 / 64], nvf.held := [7] }, (({ State.reset with mem.bad := [State.reset.limAddr 0 / 64], nvf.held := [7] } : State).nvCmd 7).tenant, 7, by decide +kernel⟩,
   ⟨{ State.reset with ten.limits := [(0, { iopsRate := 1 })] }, 0, by decide +kernel⟩⟩

theorem witness_NvmeCommands :
    (∃ (s : State) (k : Nat) (c : NvCmd), s.admittedCmd k ocFlush = some c) ∧
    (∃ (s : State) (k : Nat), s.admittedCmd k ocFlush = none) ∧
    (∃ (s : State) (k : Nat), s.admittedCmd k ocWrite = none) ∧
    (∃ (s : State) (k : Nat) (_l : List (Nat × List Byte)), s.admittedCmd k ocRead = none) ∧
    (∃ (s : State) (k : Nat), s.admittedCmd k ocCompare = none) ∧
    (∃ (s : State) (k : Nat), s.admittedCmd k ocWriteZeroes = none) ∧
    (∃ (s : State) (k : Nat), s.admittedCmd k ocDsm = none) ∧
    (∃ (s : State) (k : Nat), s.admittedCmd k ocVerify = none) ∧
    (∃ (_s : State) (_k : Nat) (c : NvCmd), c.xfer = 0 ∧ c.inCapsule = true) ∧
    (∃ (_s : State) (_k : Nat) (c : NvCmd), c.xfer = 0 ∧ c.inCapsule = false) ∧
    (∃ (s : State) (k : Nat) (c : NvCmd), c.xfer = 1 ∧ c.tcp = false ∧ s.opEnded pgNVF k = none) ∧
    (∃ (s : State) (k : Nat) (c : NvCmd) (e : OpEnd), c.xfer = 1 ∧ c.tcp = false ∧ s.opEnded pgNVF k = some e ∧ e.status = 0) ∧
    (∃ (s : State) (k : Nat) (c : NvCmd) (e : OpEnd), c.xfer = 1 ∧ c.tcp = false ∧ s.opEnded pgNVF k = some e ∧ e.status ≠ 0) ∧
    (∃ (_s : State) (_k : Nat) (c : NvCmd), c.xfer = 1 ∧ c.tcp = true ∧ c.host.length = c.declared) ∧
    (∃ (s t : State) (k : Nat) (c : NvCmd) (bs : List Byte), s.admittedCmd k ocWrite = some c ∧ s.fetchData k c = (t, some bs) ∧ c.ingestFault bs = none) ∧
    (∃ (s t : State) (k st : Nat) (c : NvCmd) (bs : List Byte), s.admittedCmd k ocWrite = some c ∧ s.fetchData k c = (t, some bs) ∧ c.ingestFault bs = some st) ∧
    (∃ (s t : State) (k : Nat) (c : NvCmd), s.admittedCmd k ocWrite = some c ∧ s.fetchData k c = (t, none)) ∧
    (∃ (s : State) (_k : Nat) (c : NvCmd), s.readWaits c = true) ∧
    (∃ (s : State) (_k m : Nat) (c : NvCmd), s.readWaits c = false ∧ (List.range c.nlb).findSome? (fun i => s.readAbsent c.vol (c.slba + i)) = some m) ∧
    (∃ (s : State) (_k q : Nat) (c : NvCmd), s.readWaits c = false ∧ (List.range c.nlb).findSome? (fun i => s.readAbsent c.vol (c.slba + i)) = none ∧ s.openLane c = some q) ∧
    (∃ (s : State) (k : Nat) (c : NvCmd) (_l : List (Nat × List Byte)), s.admittedCmd k ocRead = some c ∧ c.xfer = 0) ∧
    (∃ (s : State) (k : Nat) (c : NvCmd) (rs : List ReadUnit) (l : List (Nat × List Byte)), s.admittedCmd k ocRead = some c ∧ c.xfer = 3 ∧ s.readEnd k c l = .ok rs) ∧
    (∃ (s : State) (k st : Nat) (c : NvCmd) (l : List (Nat × List Byte)), s.admittedCmd k ocRead = some c ∧ c.xfer = 3 ∧ s.readEnd k c l = .fails st) ∧
    (∃ (s : State) (k : Nat) (c : NvCmd) (e : OpEnd) (_l : List (Nat × List Byte)), s.admittedCmd k ocRead = some c ∧ c.xfer = 4 ∧ s.opEnded pgNVF k = some e ∧ e.status = 0) ∧
    (∃ (s : State) (k : Nat) (c : NvCmd), s.admittedCmd k ocVerify = some c ∧ c.xfer = 0) ∧
    (∃ (s : State) (k : Nat) (c : NvCmd) (rs : List ReadUnit), s.admittedCmd k ocVerify = some c ∧ c.xfer = 3 ∧ s.readEnd k c = .ok rs) ∧
    (∃ (s : State) (k st : Nat) (c : NvCmd), s.admittedCmd k ocVerify = some c ∧ c.xfer = 3 ∧ s.readEnd k c = .fails st) ∧
    (∃ (s t : State) (k : Nat) (c : NvCmd) (bs : List Byte), s.admittedCmd k ocCompare = some c ∧ c.xfer < 2 ∧ s.fetchData k c = (t, some bs) ∧ c.ingestFault bs = none) ∧
    (∃ (s : State) (k : Nat) (c : NvCmd), s.admittedCmd k ocCompare = some c ∧ c.xfer = 2) ∧
    (∃ (s : State) (k : Nat) (c : NvCmd) (rs : List ReadUnit), s.admittedCmd k ocCompare = some c ∧ c.xfer = 3 ∧ s.readEnd k c = .ok rs ∧ (∀ r ∈ rs, r.data = c.blockData c.host r.idx)) ∧
    (∃ (s : State) (k : Nat) (c : NvCmd) (rs : List ReadUnit), s.admittedCmd k ocCompare = some c ∧ c.xfer = 3 ∧ s.readEnd k c = .ok rs ∧ (∃ r ∈ rs, r.data ≠ c.blockData c.host r.idx)) ∧
    (∃ (s : State) (k : Nat) (c : NvCmd), s.admittedCmd k ocWriteZeroes = some c ∧ c.xfer = 0) ∧
    (∃ (s : State) (k : Nat) (c : NvCmd), s.admittedCmd k ocDsm = some c ∧ c.dealloc = false) ∧
    (∃ (s t : State) (k : Nat) (c : NvCmd) (bs : List Byte), s.admittedCmd k ocDsm = some c ∧ c.dealloc = true ∧ s.fetchData k c = (t, some bs) ∧ (dsmParse c.dsmRanges bs).any (fun g => decide ((t.vol c.vol).size < g.1 + g.2)) = true) ∧
    (∃ (s t u : State) (k : Nat) (c : NvCmd) (bs : List Byte), s.admittedCmd k ocDsm = some c ∧ c.dealloc = true ∧ s.fetchData k c = (t, some bs) ∧ (dsmParse c.dsmRanges bs).any (fun g => decide ((t.vol c.vol).size < g.1 + g.2)) = false ∧ u = (t.setNvCmd k { c with host := bs, ranges := dsmParse c.dsmRanges bs, xfer := 3 }).slipRanges k) ∧
    (∃ (s : State) (k : Nat) (c : NvCmd), s.nvf.cmds.find k = some c ∧ c.phase = .admitted ∧ c.writes = true ∧ c.xfer = 3 ∧ (c.committed = true ∨ s.plat.pwr.powerFail = false)) ∧
    (∃ (s : State) (k : Nat) (c : NvCmd), s.nvf.cmds.find k = some c ∧ c.phase = .admitted ∧ c.opc = ocWriteZeroes ∧ c.admin = false ∧ c.xfer = 3 ∧ c.committed = true ∧ c.resL = some true ∧ c.wantP = false ∧ c.wantS = false ∧ s.pollMirror = s ∧ s.pollSlipFail = s ∧ s.durable k c = true) ∧
    (∃ (s : State) (k : Nat) (c : NvCmd), s.nvf.cmds.find k = some c ∧ c.phase = .admitted ∧ c.opc = ocWrite ∧ c.admin = false ∧ c.xfer = 3 ∧ c.committed = true ∧ c.resL = some true ∧ c.wantP = false ∧ c.wantS = false ∧ s.pollMirror = s ∧ s.pollSlipFail = s ∧ s.durable k c = true) ∧
    (∃ (s : State) (k : Nat) (c : NvCmd), s.nvf.cmds.find k = some c ∧ c.phase = .admitted ∧ c.writes = true ∧ c.xfer = 3 ∧ c.committed = true ∧ c.resL = some true ∧ c.wantP = false ∧ c.wantS = false ∧ s.pollMirror = s ∧ s.pollSlipFail = s ∧ s.durable k c = false) ∧
    (∃ (s : State) (k : Nat) (c : NvCmd), s.nvf.cmds.find k = some c ∧ (c.phase ≠ .admitted ∨ c.writes = false ∨ c.xfer ≠ 3 ∨ (c.committed = false ∧ s.plat.pwr.powerFail = true))) ∧
    (∃ (s : State) (k : Nat), s.nvf.cmds.find k = none) ∧
    (∃ (_s : State) (_k : Nat) (c : NvCmd), c.committed = false) ∧
    (∃ (_s : State) (_k : Nat) (c : NvCmd), c.committed = true ∧ c.medium = false) ∧
    (∃ (_s : State) (_k : Nat) (c : NvCmd), c.committed = true ∧ c.medium = true) ∧
    (∃ (s : State) (k : Nat) (c : NvCmd), s.nvf.cmds.find k = some c ∧ c.phase = .toSoftware ∧ c.host = [] ∧ s.swqUsed < s.swqSize) ∧
    (∃ (s : State) (k : Nat) (c : NvCmd), s.nvf.cmds.find k = some c ∧ c.phase = .toSoftware ∧ c.host ≠ [] ∧ s.swqUsed < s.swqSize) ∧
    (∃ (s : State) (k : Nat) (c : NvCmd), s.nvf.cmds.find k = some c ∧ c.phase = .toSoftware ∧ s.swqSize ≤ s.swqUsed) ∧
    (∃ (s : State) (k : Nat) (c : NvCmd), s.nvf.cmds.find k = some c ∧ c.phase ≠ .toSoftware) :=
  ⟨⟨withCmd [pgNVF] 7 (admitted ocFlush 0), 7, { sqe := [0, 0, 0, 0, 1, 0, 0, 0, 0, 0, 0, 0, 0, 0, 0, 0, 0, 0, 0, 0, 0, 0, 0, 0, 0, 0, 0, 0, 0, 0, 0, 0, 0, 0, 0, 0, 0, 0, 0, 1, 0, 0, 0, 0, 0, 0, 0, 0, 0, 0, 0, 0, 0, 0, 0, 0, 0, 0, 0, 0, 0, 0, 0, 0], phase := .admitted }, by decide +kernel⟩,
   ⟨State.reset, 7, by decide +kernel⟩,
   ⟨State.reset, 7, by decide +kernel⟩,
   ⟨State.reset, 7, [], by decide +kernel⟩,
   ⟨State.reset, 7, by decide +kernel⟩,
   ⟨State.reset, 7, by decide +kernel⟩,
   ⟨State.reset, 7, by decide +kernel⟩,
   ⟨State.reset, 7, by decide +kernel⟩,
   ⟨State.reset, 7, admitted ocWrite 0, by decide +kernel⟩,
   ⟨State.reset, 7, {}, by decide +kernel⟩,
   ⟨State.reset, 7, admitted ocWrite 1, by decide +kernel⟩,
   ⟨{ running [pgNVF] with ldt.ended := [⟨pgNVF, 7, 0, 0, [1]⟩] }, 7, admitted ocWrite 1, { user := 64, ref := 7, status := 0, info := 0, data := [1] }, by decide +kernel⟩,
   ⟨{ running [pgNVF] with ldt.ended := [⟨pgNVF, 7, 1, 0, []⟩] }, 7, admitted ocWrite 1, { user := 64, ref := 7, status := 1, info := 0, data := [] }, by decide +kernel⟩,
   ⟨State.reset, 7, { admitted ocWrite 1 with tcp := true, host := List.replicate 4096 0 }, by decide +kernel⟩,
   ⟨withCmd [pgNVF] 7 (admitted ocWrite 0), ((withCmd [pgNVF] 7 (admitted ocWrite 0) : State).fetchData 7 ({ sqe := [1, 0, 0, 0, 1, 0, 0, 0, 0, 0, 0, 0, 0, 0, 0, 0, 0, 0, 0, 0, 0, 0, 0, 0, 0, 0, 0, 0, 0, 0, 0, 0, 0, 0, 0, 0, 0, 0, 0, 1, 0, 0, 0, 0, 0, 0, 0, 0, 0, 0, 0, 0, 0, 0, 0, 0, 0, 0, 0, 0, 0, 0, 0, 0], phase := .admitted } : NvCmd)).1, 7, { sqe := [1, 0, 0, 0, 1, 0, 0, 0, 0, 0, 0, 0, 0, 0, 0, 0, 0, 0, 0, 0, 0, 0, 0, 0, 0, 0, 0, 0, 0, 0, 0, 0, 0, 0, 0, 0, 0, 0, 0, 1, 0, 0, 0, 0, 0, 0, 0, 0, 0, 0, 0, 0, 0, 0, 0, 0, 0, 0, 0, 0, 0, 0, 0, 0], phase := .admitted }, [], by decide +kernel, rfl, by decide +kernel⟩,
   ⟨withCmd [pgNVF] 7 ({ sqe := guardSqe ocWrite, phase := .admitted, format := true, host := [1] }), ((withCmd [pgNVF] 7 ({ sqe := guardSqe ocWrite, phase := .admitted, format := true, host := [1] }) : State).fetchData 7 ({ sqe := [1, 0, 0, 0, 1, 0, 0, 0, 0, 0, 0, 0, 0, 0, 0, 0, 0, 0, 0, 0, 0, 0, 0, 0, 0, 0, 0, 0, 0, 0, 0, 0, 0, 0, 0, 0, 0, 0, 0, 1, 0, 0, 0, 0, 0, 0, 0, 0, 0, 0, 0, 16, 0, 0, 0, 0, 0, 0, 0, 0, 0, 0, 0, 0], host := [1], phase := .admitted, format := true } : NvCmd)).1, 7, 642, { sqe := [1, 0, 0, 0, 1, 0, 0, 0, 0, 0, 0, 0, 0, 0, 0, 0, 0, 0, 0, 0, 0, 0, 0, 0, 0, 0, 0, 0, 0, 0, 0, 0, 0, 0, 0, 0, 0, 0, 0, 1, 0, 0, 0, 0, 0, 0, 0, 0, 0, 0, 0, 16, 0, 0, 0, 0, 0, 0, 0, 0, 0, 0, 0, 0], host := [1], phase := .admitted, format := true }, [1], by decide +kernel, rfl, by decide +kernel⟩,
   ⟨withCmd [pgNVF] 7 (admitted ocWrite 3), ((withCmd [pgNVF] 7 (admitted ocWrite 3) : State).fetchData 7 ({ sqe := [1, 0, 0, 0, 1, 0, 0, 0, 0, 0, 0, 0, 0, 0, 0, 0, 0, 0, 0, 0, 0, 0, 0, 0, 0, 0, 0, 0, 0, 0, 0, 0, 0, 0, 0, 0, 0, 0, 0, 1, 0, 0, 0, 0, 0, 0, 0, 0, 0, 0, 0, 0, 0, 0, 0, 0, 0, 0, 0, 0, 0, 0, 0, 0], phase := .admitted, xfer := 3 } : NvCmd)).1, 7, { sqe := [1, 0, 0, 0, 1, 0, 0, 0, 0, 0, 0, 0, 0, 0, 0, 0, 0, 0, 0, 0, 0, 0, 0, 0, 0, 0, 0, 0, 0, 0, 0, 0, 0, 0, 0, 0, 0, 0, 0, 1, 0, 0, 0, 0, 0, 0, 0, 0, 0, 0, 0, 0, 0, 0, 0, 0, 0, 0, 0, 0, 0, 0, 0, 0], phase := .admitted, xfer := 3 }, by decide +kernel, rfl⟩,
   ⟨{ running [pgNVF] with nvf.cmds := [(3, { phase := .admitted, sqe := sqeOf ocWrite, ranges := [(0, 1)] })] }, 7, { admitted ocRead 0 with order := 2, ranges := [(0, 1)] }, by decide +kernel⟩,
   ⟨{ running [pgNVF] with lmap.vols := [(0, { kind := 1, size := 8, levels := 1, root := 7 })] }, 7, 7, {}, by decide +kernel⟩,
   ⟨State.reset, 7, 0, { admitted ocRead 0 with lane := some 0 }, by decide +kernel⟩,
   ⟨withCmd [pgNVF] 7 (admitted ocRead 0), 7, { sqe := [2, 0, 0, 0, 1, 0, 0, 0, 0, 0, 0, 0, 0, 0, 0, 0, 0, 0, 0, 0, 0, 0, 0, 0, 0, 0, 0, 0, 0, 0, 0, 0, 0, 0, 0, 0, 0, 0, 0, 1, 0, 0, 0, 0, 0, 0, 0, 0, 0, 0, 0, 0, 0, 0, 0, 0, 0, 0, 0, 0, 0, 0, 0, 0], phase := .admitted }, [], by decide +kernel⟩,
   ⟨withCmd [pgNVF] 7 (admitted ocRead 3), 7, { sqe := [2, 0, 0, 0, 1, 0, 0, 0, 0, 0, 0, 0, 0, 0, 0, 0, 0, 0, 0, 0, 0, 0, 0, 0, 0, 0, 0, 0, 0, 0, 0, 0, 0, 0, 0, 0, 0, 0, 0, 1, 0, 0, 0, 0, 0, 0, 0, 0, 0, 0, 0, 0, 0, 0, 0, 0, 0, 0, 0, 0, 0, 0, 0, 0], phase := .admitted, xfer := 3 }, [], [], by decide +kernel⟩,
   ⟨{ withCmd [pgNVF] 7 (admitted ocRead 3) with ware.reads := [(1, { readDone [] with phase := .failed scUnrecovered })] }, 7, 641, { sqe := [2, 0, 0, 0, 1, 0, 0, 0, 0, 0, 0, 0, 0, 0, 0, 0, 0, 0, 0, 0, 0, 0, 0, 0, 0, 0, 0, 0, 0, 0, 0, 0, 0, 0, 0, 0, 0, 0, 0, 1, 0, 0, 0, 0, 0, 0, 0, 0, 0, 0, 0, 0, 0, 0, 0, 0, 0, 0, 0, 0, 0, 0, 0, 0], phase := .admitted, xfer := 3 }, [], by decide +kernel⟩,
   ⟨{ withCmd [pgNVF] 7 (admitted ocRead 4) with ldt.ended := [⟨pgNVF, 7, 0, 0, [1]⟩] }, 7, { sqe := [2, 0, 0, 0, 1, 0, 0, 0, 0, 0, 0, 0, 0, 0, 0, 0, 0, 0, 0, 0, 0, 0, 0, 0, 0, 0, 0, 0, 0, 0, 0, 0, 0, 0, 0, 0, 0, 0, 0, 1, 0, 0, 0, 0, 0, 0, 0, 0, 0, 0, 0, 0, 0, 0, 0, 0, 0, 0, 0, 0, 0, 0, 0, 0], phase := .admitted, xfer := 4 }, { user := 64, ref := 7, status := 0, info := 0, data := [1] }, [], by decide +kernel⟩,
   ⟨withCmd [pgNVF] 7 (admitted ocVerify 0), 7, { sqe := [12, 0, 0, 0, 1, 0, 0, 0, 0, 0, 0, 0, 0, 0, 0, 0, 0, 0, 0, 0, 0, 0, 0, 0, 0, 0, 0, 0, 0, 0, 0, 0, 0, 0, 0, 0, 0, 0, 0, 1, 0, 0, 0, 0, 0, 0, 0, 0, 0, 0, 0, 0, 0, 0, 0, 0, 0, 0, 0, 0, 0, 0, 0, 0], phase := .admitted }, by decide +kernel⟩,
   ⟨withCmd [pgNVF] 7 (admitted ocVerify 3), 7, { sqe := [12, 0, 0, 0, 1, 0, 0, 0, 0, 0, 0, 0, 0, 0, 0, 0, 0, 0, 0, 0, 0, 0, 0, 0, 0, 0, 0, 0, 0, 0, 0, 0, 0, 0, 0, 0, 0, 0, 0, 1, 0, 0, 0, 0, 0, 0, 0, 0, 0, 0, 0, 0, 0, 0, 0, 0, 0, 0, 0, 0, 0, 0, 0, 0], phase := .admitted, xfer := 3 }, [], by decide +kernel⟩,
   ⟨{ withCmd [pgNVF] 7 (admitted ocVerify 3) with ware.reads := [(1, { readDone [] with phase := .failed scUnrecovered })] }, 7, 641, { sqe := [12, 0, 0, 0, 1, 0, 0, 0, 0, 0, 0, 0, 0, 0, 0, 0, 0, 0, 0, 0, 0, 0, 0, 0, 0, 0, 0, 0, 0, 0, 0, 0, 0, 0, 0, 0, 0, 0, 0, 1, 0, 0, 0, 0, 0, 0, 0, 0, 0, 0, 0, 0, 0, 0, 0, 0, 0, 0, 0, 0, 0, 0, 0, 0], phase := .admitted, xfer := 3 }, by decide +kernel⟩,
   ⟨withCmd [pgNVF] 7 (admitted ocCompare 0), ((withCmd [pgNVF] 7 (admitted ocCompare 0) : State).fetchData 7 ({ sqe := [5, 0, 0, 0, 1, 0, 0, 0, 0, 0, 0, 0, 0, 0, 0, 0, 0, 0, 0, 0, 0, 0, 0, 0, 0, 0, 0, 0, 0, 0, 0, 0, 0, 0, 0, 0, 0, 0, 0, 1, 0, 0, 0, 0, 0, 0, 0, 0, 0, 0, 0, 0, 0, 0, 0, 0, 0, 0, 0, 0, 0, 0, 0, 0], phase := .admitted } : NvCmd)).1, 7, { sqe := [5, 0, 0, 0, 1, 0, 0, 0, 0, 0, 0, 0, 0, 0, 0, 0, 0, 0, 0, 0, 0, 0, 0, 0, 0, 0, 0, 0, 0, 0, 0, 0, 0, 0, 0, 0, 0, 0, 0, 1, 0, 0, 0, 0, 0, 0, 0, 0, 0, 0, 0, 0, 0, 0, 0, 0, 0, 0, 0, 0, 0, 0, 0, 0], phase := .admitted }, [], by decide +kernel, by decide +kernel, rfl, by decide +kernel⟩,
   ⟨withCmd [pgNVF] 7 (admitted ocCompare 2), 7, { sqe := [5, 0, 0, 0, 1, 0, 0, 0, 0, 0, 0, 0, 0, 0, 0, 0, 0, 0, 0, 0, 0, 0, 0, 0, 0, 0, 0, 0, 0, 0, 0, 0, 0, 0, 0, 0, 0, 0, 0, 1, 0, 0, 0, 0, 0, 0, 0, 0, 0, 0, 0, 0, 0, 0, 0, 0, 0, 0, 0, 0, 0, 0, 0, 0], phase := .admitted, xfer := 2 }, by decide +kernel⟩,
   ⟨{ withCmd [pgNVF] 7 (admitted ocCompare 3) with ware.reads := [(1, readDone [])] }, 7, { sqe := [5, 0, 0, 0, 1, 0, 0, 0, 0, 0, 0, 0, 0, 0, 0, 0, 0, 0, 0, 0, 0, 0, 0, 0, 0, 0, 0, 0, 0, 0, 0, 0, 0, 0, 0, 0, 0, 0, 0, 1, 0, 0, 0, 0, 0, 0, 0, 0, 0, 0, 0, 0, 0, 0, 0, 0, 0, 0, 0, 0, 0, 0, 0, 0], phase := .admitted, xfer := 3 }, [{ cmd := 7, idx := 0, lba := 0, cid := 0, app := 0, quad := 0, phase := .done, form := [], data := [], ffPi := false, loc := 0, grains := 0, ops := [], erased := [], tries := 0, eng := none, failed := none }], by decide +kernel⟩,
   ⟨{ withCmd [pgNVF] 7 (admitted ocCompare 3) with ware.reads := [(1, readDone [1])] }, 7, { sqe := [5, 0, 0, 0, 1, 0, 0, 0, 0, 0, 0, 0, 0, 0, 0, 0, 0, 0, 0, 0, 0, 0, 0, 0, 0, 0, 0, 0, 0, 0, 0, 0, 0, 0, 0, 0, 0, 0, 0, 1, 0, 0, 0, 0, 0, 0, 0, 0, 0, 0, 0, 0, 0, 0, 0, 0, 0, 0, 0, 0, 0, 0, 0, 0], phase := .admitted, xfer := 3 }, [{ cmd := 7, idx := 0, lba := 0, cid := 0, app := 0, quad := 0, phase := .done, form := [], data := [1], ffPi := false, loc := 0, grains := 0, ops := [], erased := [], tries := 0, eng := none, failed := none }], by decide +kernel⟩,
   ⟨withCmd [pgNVF] 7 (admitted ocWriteZeroes 0), 7, { sqe := [8, 0, 0, 0, 1, 0, 0, 0, 0, 0, 0, 0, 0, 0, 0, 0, 0, 0, 0, 0, 0, 0, 0, 0, 0, 0, 0, 0, 0, 0, 0, 0, 0, 0, 0, 0, 0, 0, 0, 1, 0, 0, 0, 0, 0, 0, 0, 0, 0, 0, 0, 0, 0, 0, 0, 0, 0, 0, 0, 0, 0, 0, 0, 0], phase := .admitted }, by decide +kernel⟩,
   ⟨withCmd [pgNVF] 7 (admitted ocDsm 0), 7, { sqe := [9, 0, 0, 0, 1, 0, 0, 0, 0, 0, 0, 0, 0, 0, 0, 0, 0, 0, 0, 0, 0, 0, 0, 0, 0, 0, 0, 0, 0, 0, 0, 0, 0, 0, 0, 0, 0, 0, 0, 1, 0, 0, 0, 0, 0, 0, 0, 0, 0, 0, 0, 0, 0, 0, 0, 0, 0, 0, 0, 0, 0, 0, 0, 0], phase := .admitted }, by decide +kernel⟩,
   ⟨withCmd [pgNVF] 7 (dsmTo 9), ((withCmd [pgNVF] 7 (dsmTo 9) : State).fetchData 7 ({ sqe := [9, 0, 0, 0, 1, 0, 0, 0, 0, 0, 0, 0, 0, 0, 0, 0, 0, 0, 0, 0, 0, 0, 0, 0, 0, 0, 0, 0, 0, 0, 0, 0, 0, 0, 0, 0, 0, 0, 0, 1, 0, 0, 0, 0, 4, 0, 0, 0, 0, 0, 0, 0, 0, 0, 0, 0, 0, 0, 0, 0, 0, 0, 0, 0], host := [0, 0, 0, 0, 9, 0, 0, 0, 0, 0, 0, 0, 0, 0, 0, 0], phase := .admitted } : NvCmd)).1, 7, { sqe := [9, 0, 0, 0, 1, 0, 0, 0, 0, 0, 0, 0, 0, 0, 0, 0, 0, 0, 0, 0, 0, 0, 0, 0, 0, 0, 0, 0, 0, 0, 0, 0, 0, 0, 0, 0, 0, 0, 0, 1, 0, 0, 0, 0, 4, 0, 0, 0, 0, 0, 0, 0, 0, 0, 0, 0, 0, 0, 0, 0, 0, 0, 0, 0], host := [0, 0, 0, 0, 9, 0, 0, 0, 0, 0, 0, 0, 0, 0, 0, 0], phase := .admitted }, [0, 0, 0, 0, 9, 0, 0, 0, 0, 0, 0, 0, 0, 0, 0, 0], by decide +kernel, by decide +kernel, rfl, by decide +kernel⟩,
   ⟨withCmd [pgNVF] 7 (dsmTo 1), ((withCmd [pgNVF] 7 (dsmTo 1) : State).fetchData 7 ({ sqe := [9, 0, 0, 0, 1, 0, 0, 0, 0, 0, 0, 0, 0, 0, 0, 0, 0, 0, 0, 0, 0, 0, 0, 0, 0, 0, 0, 0, 0, 0, 0, 0, 0, 0, 0, 0, 0, 0, 0, 1, 0, 0, 0, 0, 4, 0, 0, 0, 0, 0, 0, 0, 0, 0, 0, 0, 0, 0, 0, 0, 0, 0, 0, 0], host := [0, 0, 0, 0, 1, 0, 0, 0, 0, 0, 0, 0, 0, 0, 0, 0], phase := .admitted } : NvCmd)).1, ((((withCmd [pgNVF] 7 (dsmTo 1) : State).fetchData 7 ({ sqe := [9, 0, 0, 0, 1, 0, 0, 0, 0, 0, 0, 0, 0, 0, 0, 0, 0, 0, 0, 0, 0, 0, 0, 0, 0, 0, 0, 0, 0, 0, 0, 0, 0, 0, 0, 0, 0, 0, 0, 1, 0, 0, 0, 0, 4, 0, 0, 0, 0, 0, 0, 0, 0, 0, 0, 0, 0, 0, 0, 0, 0, 0, 0, 0], host := [0, 0, 0, 0, 1, 0, 0, 0, 0, 0, 0, 0, 0, 0, 0, 0], phase := .admitted } : NvCmd)).1 : State).setNvCmd 7 { ({ sqe := [9, 0, 0, 0, 1, 0, 0, 0, 0, 0, 0, 0, 0, 0, 0, 0, 0, 0, 0, 0, 0, 0, 0, 0, 0, 0, 0, 0, 0, 0, 0, 0, 0, 0, 0, 0, 0, 0, 0, 1, 0, 0, 0, 0, 4, 0, 0, 0, 0, 0, 0, 0, 0, 0, 0, 0, 0, 0, 0, 0, 0, 0, 0, 0], host := [0, 0, 0, 0, 1, 0, 0, 0, 0, 0, 0, 0, 0, 0, 0, 0], phase := .admitted } : NvCmd) with host := ([0, 0, 0, 0, 1, 0, 0, 0, 0, 0, 0, 0, 0, 0, 0, 0] : List Byte), ranges := dsmParse ({ sqe := [9, 0, 0, 0, 1, 0, 0, 0, 0, 0, 0, 0, 0, 0, 0, 0, 0, 0, 0, 0, 0, 0, 0, 0, 0, 0, 0, 0, 0, 0, 0, 0, 0, 0, 0, 0, 0, 0, 0, 1, 0, 0, 0, 0, 4, 0, 0, 0, 0, 0, 0, 0, 0, 0, 0, 0, 0, 0, 0, 0, 0, 0, 0, 0], host := [0, 0, 0, 0, 1, 0, 0, 0, 0, 0, 0, 0, 0, 0, 0, 0], phase := .admitted } : NvCmd).dsmRanges ([0, 0, 0, 0, 1, 0, 0, 0, 0, 0, 0, 0, 0, 0, 0, 0] : List Byte), xfer := 3 }).slipRanges 7, 7, { sqe := [9, 0, 0, 0, 1, 0, 0, 0, 0, 0, 0, 0, 0, 0, 0, 0, 0, 0, 0, 0, 0, 0, 0, 0, 0, 0, 0, 0, 0, 0, 0, 0, 0, 0, 0, 0, 0, 0, 0, 1, 0, 0, 0, 0, 4, 0, 0, 0, 0, 0, 0, 0, 0, 0, 0, 0, 0, 0, 0, 0, 0, 0, 0, 0], host := [0, 0, 0, 0, 1, 0, 0, 0, 0, 0, 0, 0, 0, 0, 0, 0], phase := .admitted }, [0, 0, 0, 0, 1, 0, 0, 0, 0, 0, 0, 0, 0, 0, 0, 0], by decide +kernel, by decide +kernel, rfl, by decide +kernel, rfl⟩,
   ⟨withCmd [pgNVF] 7 (admitted ocWrite 3), 7, { sqe := [1, 0, 0, 0, 1, 0, 0, 0, 0, 0, 0, 0, 0, 0, 0, 0, 0, 0, 0, 0, 0, 0, 0, 0, 0, 0, 0, 0, 0, 0, 0, 0, 0, 0, 0, 0, 0, 0, 0, 1, 0, 0, 0, 0, 0, 0, 0, 0, 0, 0, 0, 0, 0, 0, 0, 0, 0, 0, 0, 0, 0, 0, 0, 0], phase := .admitted, xfer := 3 }, by decide +kernel⟩,
   ⟨withCmd [pgNVF] 7 ({ admitted ocWriteZeroes 3 with committed := true, resL := some true }), 7, { sqe := [8, 0, 0, 0, 1, 0, 0, 0, 0, 0, 0, 0, 0, 0, 0, 0, 0, 0, 0, 0, 0, 0, 0, 0, 0, 0, 0, 0, 0, 0, 0, 0, 0, 0, 0, 0, 0, 0, 0, 1, 0, 0, 0, 0, 0, 0, 0, 0, 0, 0, 0, 0, 0, 0, 0, 0, 0, 0, 0, 0, 0, 0, 0, 0], phase := .admitted, xfer := 3, resL := some true, committed := true }, by decide +kernel⟩,
   ⟨withCmd [pgNVF] 7 ({ admitted ocWrite 3 with committed := true, resL := some true }), 7, { sqe := [1, 0, 0, 0, 1, 0, 0, 0, 0, 0, 0, 0, 0, 0, 0, 0, 0, 0, 0, 0, 0, 0, 0, 0, 0, 0, 0, 0, 0, 0, 0, 0, 0, 0, 0, 0, 0, 0, 0, 1, 0, 0, 0, 0, 0, 0, 0, 0, 0, 0, 0, 0, 0, 0, 0, 0, 0, 0, 0, 0, 0, 0, 0, 0], phase := .admitted, xfer := 3, resL := some true, committed := true }, by decide +kernel⟩,
   ⟨{ withCmd [pgNVF] 7 ({ admitted ocWrite 3 with committed := true, resL := some true }) with peer.writes := [(5, 7)] }, 7, { sqe := [1, 0, 0, 0, 1, 0, 0, 0, 0, 0, 0, 0, 0, 0, 0, 0, 0, 0, 0, 0, 0, 0, 0, 0, 0, 0, 0, 0, 0, 0, 0, 0, 0, 0, 0, 0, 0, 0, 0, 1, 0, 0, 0, 0, 0, 0, 0, 0, 0, 0, 0, 0, 0, 0, 0, 0, 0, 0, 0, 0, 0, 0, 0, 0], phase := .admitted, xfer := 3, resL := some true, committed := true }, by decide +kernel⟩,
   ⟨withCmd [pgNVF] 7 (admitted ocFlush 0), 7, { sqe := [0, 0, 0, 0, 1, 0, 0, 0, 0, 0, 0, 0, 0, 0, 0, 0, 0, 0, 0, 0, 0, 0, 0, 0, 0, 0, 0, 0, 0, 0, 0, 0, 0, 0, 0, 0, 0, 0, 0, 1, 0, 0, 0, 0, 0, 0, 0, 0, 0, 0, 0, 0, 0, 0, 0, 0, 0, 0, 0, 0, 0, 0, 0, 0], phase := .admitted }, by decide +kernel⟩,
   ⟨State.reset, 7, by decide +kernel⟩,
   ⟨State.reset, 7, {}, by decide +kernel⟩,
   ⟨State.reset, 7, { committed := true }, by decide +kernel⟩,
   ⟨State.reset, 7, { committed := true, medium := true }, by decide +kernel⟩,
   ⟨withCmd [pgNVF] 7 { phase := .toSoftware }, 7, { phase := .toSoftware }, by decide +kernel⟩,
   ⟨withCmd [pgNVF] 7 { phase := .toSoftware, host := [1] }, 7, { host := [1], phase := .toSoftware }, by decide +kernel⟩,
   ⟨((withCmd [pgNVF] 7 { phase := .toSoftware }).setReg rNVF_SWQ_PROD 1).setFld fNVF_SWQ_CFG_SIZE_LOG2 0, 7, { phase := .toSoftware }, by decide +kernel⟩,
   ⟨withCmd [pgNVF] 7 (admitted ocFlush 0), 7, { sqe := [0, 0, 0, 0, 1, 0, 0, 0, 0, 0, 0, 0, 0, 0, 0, 0, 0, 0, 0, 0, 0, 0, 0, 0, 0, 0, 0, 0, 0, 0, 0, 0, 0, 0, 0, 0, 0, 0, 0, 1, 0, 0, 0, 0, 0, 0, 0, 0, 0, 0, 0, 0, 0, 0, 0, 0, 0, 0, 0, 0, 0, 0, 0, 0], phase := .admitted }, by decide +kernel⟩⟩

theorem witness_NvfCommands :
    (∃ (s : State) (h : CmdHdr) (ctx assoc _ten _qid cls flags _cntlid size : Nat), Ready s h pgNVF pgNVF .work ∧ 0 < size ∧ size ≤ 4095 ∧ cls ≤ 4 ∧ (flags.testBit 0 = true ∨ hostQueues s assoc (flags.testBit 2) < 256) ∧ (s.qctx (ctx % 2 ^ 20)).valid = false ∧ (s.qctx (ctx % 2 ^ 20)).deleting = none) ∧
    (∃ (s : State) (h : CmdHdr) (_ctx assoc _ten _qid cls flags _cntlid size : Nat), Ready s h pgNVF pgNVF .work ∧ (size = 0 ∨ 4095 < size ∨ 4 < cls ∨ (flags.testBit 0 = false ∧ 256 ≤ hostQueues s assoc (flags.testBit 2)))) ∧
    (∃ (s : State) (h : CmdHdr) (ctx assoc _ten _qid cls flags _cntlid size : Nat), Ready s h pgNVF pgNVF .work ∧ 0 < size ∧ size ≤ 4095 ∧ cls ≤ 4 ∧ (flags.testBit 0 = true ∨ hostQueues s assoc (flags.testBit 2) < 256) ∧ ((s.qctx (ctx % 2 ^ 20)).valid = true ∨ (s.qctx (ctx % 2 ^ 20)).deleting ≠ none)) ∧
    (∃ (s : State) (h : CmdHdr) (ctx : Nat), Ready s h pgNVF pgNVF .release ∧ (s.qctx (ctx % 2 ^ 20)).valid = true ∧ (s.qctx (ctx % 2 ^ 20)).deleting = none ∧ (s.nvf.cmds.any fun e => e.2.ctx = ctx % 2 ^ 20) = false) ∧
    (∃ (s : State) (h : CmdHdr) (ctx : Nat), Ready s h pgNVF pgNVF .release ∧ (s.qctx (ctx % 2 ^ 20)).valid = true ∧ (s.qctx (ctx % 2 ^ 20)).deleting = none ∧ (∀ e, e ∈ s.nvf.cmds → e.2.ctx = ctx % 2 ^ 20 → e.2.phase = .admitted) ∧ (s.nvf.cmds.any fun e => e.2.ctx = ctx % 2 ^ 20 && !e.2.connect) = true) ∧
    (∃ (s : State) (h : CmdHdr) (ctx : Nat), Ready s h pgNVF pgNVF .release ∧ ((s.qctx (ctx % 2 ^ 20)).valid = false ∨ (s.qctx (ctx % 2 ^ 20)).deleting ≠ none)) ∧
    (∃ (s : State) (h : CmdHdr) (n : Nat) (_e : List Byte), Ready s h pgNVF pgNVF .work ∧ 1 ≤ n ∧ n ≤ 65536) ∧
    (∃ (s : State) (h : CmdHdr) (n : Nat) (_e : List Byte), Ready s h pgNVF pgNVF .work ∧ (n = 0 ∨ 65536 < n)) ∧
    (∃ (s : State) (h : CmdHdr) (ctx cid _st _d0 _d1 a k : Nat), Ready s h pgNVF pgNVF .release ∧ State.handedKey ctx cid a s = some k) ∧
    (∃ (s : State) (h : CmdHdr) (ctx cid _st _d0 _d1 a : Nat), Ready s h pgNVF pgNVF .release ∧ State.handedKey ctx cid a s = none) ∧
    (∃ (s : State) (h : CmdHdr) (ctx cid : Nat) (c : NvCmd), Ready s h pgNVF pgNVF .release ∧ s.nvf.cmds.find (cmdKey (ctx % 2 ^ 20) cid) = some c ∧ (c.phase = .waiting ∨ c.phase = .held)) ∧
    (∃ (s : State) (h : CmdHdr) (ctx cid : Nat), Ready s h pgNVF pgNVF .release ∧ (∀ c, s.nvf.cmds.find (cmdKey (ctx % 2 ^ 20) cid) = some c → c.phase ≠ .waiting ∧ c.phase ≠ .held)) :=
  ⟨⟨running [pgEVT, pgNVF], hdr 0, 3, 0, 0, 0, 0, 0, 0, 4, by decide +kernel⟩,
   ⟨running [pgEVT, pgNVF], hdr 0, 3, 0, 0, 0, 0, 0, 0, 0, by decide +kernel⟩,
   ⟨{ running [pgEVT, pgNVF] with ctx.ctxs := [(3, { valid := true })] }, hdr 0, 3, 0, 0, 0, 0, 0, 0, 4, by decide +kernel⟩,
   ⟨{ running [pgEVT, pgNVF] with ctx.ctxs := [(3, { valid := true })] }, hdr 0, 3, by decide +kernel⟩,
   ⟨{ withCmd [pgEVT, pgNVF] 7 { ctx := 3, phase := .admitted } with ctx.ctxs := [(3, { valid := true })] }, hdr 0, 3, by decide +kernel⟩,
   ⟨running [pgEVT, pgNVF], hdr 0, 3, by decide +kernel⟩,
   ⟨running [pgEVT, pgNVF], hdr 0, 4, [], by decide +kernel⟩,
   ⟨running [pgEVT, pgNVF], hdr 0, 0, [], by decide +kernel⟩,
   ⟨withCmd [pgEVT, pgNVF] (cmdKey 3 4) { phase := .software }, hdr 0, 3, 4, 0, 0, 0, 0, 196612, by decide +kernel⟩,
   ⟨running [pgEVT, pgNVF], hdr 0, 3, 0, 0, 0, 0, 0, by decide +kernel⟩,
   ⟨withCmd [pgEVT, pgNVF] (cmdKey 3 4) {}, hdr 0, 3, 4, {}, by decide +kernel⟩,
   ⟨running [pgEVT, pgNVF], hdr 0, 3, 0, by decide +kernel, (by intro x h; cases h)⟩⟩

theorem witness_NvmeTcp :
    (∃ (s : State) (port rp _iss : Nat) (rip lip : List Byte) (_syn : SynFrom), s.runs pgNVTCP = true ∧ s.localAddr port lip = true ∧ s.conns.find? (fun e => e.2.isOpen && e.2.port = port && e.2.remoteIp = rip && e.2.localIp = lip && e.2.remotePort = rp) = none ∧ Tab.firstGap 0 s.conns < 4096) ∧
    (∃ (s : State) (port rp _iss : Nat) (rip lip : List Byte) (_syn : SynFrom) (e : Nat × Conn), s.runs pgNVTCP = true ∧ s.localAddr port lip = true ∧ s.conns.find? (fun e => e.2.isOpen && e.2.port = port && e.2.remoteIp = rip && e.2.localIp = lip && e.2.remotePort = rp) = some e) ∧
    (∃ (s : State) (port rp _iss : Nat) (rip lip : List Byte) (_syn : SynFrom), s.runs pgNVTCP = true ∧ s.localAddr port lip = true ∧ s.conns.find? (fun e => e.2.isOpen && e.2.port = port && e.2.remoteIp = rip && e.2.localIp = lip && e.2.remotePort = rp) = none ∧ 4096 ≤ Tab.firstGap 0 s.conns) ∧
    (∃ (s : State) (port _rp _iss : Nat) (_rip lip : List Byte) (_syn : SynFrom), (s.runs pgNVTCP = false ∨ s.localAddr port lip = false)) ∧
    (∃ (s : State) (c : Nat) (b : SegBody) (_cwr : Bool), s.working pgNVTCP = true ∧ (s.conn c).isOpen = true ∧ (s.conn c).unacked = [] ∧ (s.conn c).ooo = [] ∧ (s.conn c).sndNxt = (s.conn c).sndUna ∧ b.payload ≠ [] ∧ (s.conn c).stream.length + b.payload.length ≤ 2 ^ 20 ∧ (s.conn c).rcvNxt < 2 ^ 32 ∧ ({ s.conn c with stream := (s.conn c).stream ++ b.payload } : Conn).headFault = none) ∧
    (∃ (s : State) (c _seq _ack : Nat) (_ce _cwr _ece : Bool) (_b : SegBody), (s.working pgNVTCP = false ∨ (s.conn c).isOpen = false)) ∧
    (∃ (s : State) (c : Nat), s.pduReady c 0 = true ∧ (s.conn c).stream.length = 128 ∧ unLe (slice (s.conn c).stream 8 2) = 0 ∧ unLe (slice (s.conn c).stream 10 1) ≤ 31) ∧
    (∃ (s : State) (c : Nat), s.pduReady c 0 = true ∧ unLe (slice (s.conn c).stream 8 2) ≠ 0) ∧
    (∃ (s : State) (c : Nat), s.pduReady c 0 = true ∧ unLe (slice (s.conn c).stream 8 2) = 0 ∧ 31 < unLe (slice (s.conn c).stream 10 1)) ∧
    (∃ (s : State) (c : Nat), s.pduReady c 4 = true ∧ s.runs pgNVF = true ∧ s.connCtx c = none ∧ s.swqFull = false ∧ (s.dom 14).st ≠ .draining ∧ (s.conn c).badData (pduHead (s.conn c).stream) = false) ∧
    (∃ (s : State) (c q : Nat), s.pduReady c 4 = true ∧ s.runs pgNVF = true ∧ s.connCtx c = some q ∧ s.ctxResident q = true ∧ s.sqOverflow q = false ∧ s.swqFull = false ∧ (s.dom (14 + q % 2)).st ≠ .draining ∧ (s.conn c).badData (pduHead (s.conn c).stream) = false) ∧
    (∃ (s : State) (c q : Nat), s.pduReady c 4 = true ∧ s.runs pgNVF = true ∧ s.connCtx c = some q ∧ s.ctxResident q = true ∧ s.sqOverflow q = true) ∧
    (∃ (s : State) (c : Nat), s.pduReady c 4 = true ∧ s.runs pgNVF = true ∧ s.connCtx c = none ∧ s.swqFull = true) ∧
    (∃ (s : State) (c : Nat), s.pduReady c 4 = true ∧ s.runs pgNVF = false) ∧
    (∃ (s : State) (c : Nat), s.pduReady c 4 = true ∧ s.runs pgNVF = true ∧ s.connCtx c = none ∧ s.swqFull = false ∧ (s.conn c).badData (pduHead (s.conn c).stream) = true) ∧
    (∃ (s : State) (c cid tag k q : Nat) (x : NvCmd), s.pduReady c 6 = true ∧ (s.conn c).xfers = [(cid, tag, k, 0)] ∧ unLe (slice (s.conn c).stream 8 2) = cid ∧ unLe (slice (s.conn c).stream 10 2) = tag ∧ unLe (slice (s.conn c).stream 12 4) = 0 ∧ ((s.conn c).dataOf (pduHead (s.conn c).stream)).length = k ∧ unLe (slice (s.conn c).stream 16 4) = k ∧ s.connCtx c = some q ∧ s.nvf.cmds.find (cmdKey q cid) = some x ∧ x.tcp = true ∧ x.xfer = 1 ∧ (s.conn c).badData (pduHead (s.conn c).stream) = false) ∧
    (∃ (s : State) (c cid tag k q n : Nat) (x : NvCmd), s.pduReady c 6 = true ∧ (s.conn c).xfers = [(cid, tag, k, 0)] ∧ unLe (slice (s.conn c).stream 8 2) = cid ∧ unLe (slice (s.conn c).stream 10 2) = tag ∧ unLe (slice (s.conn c).stream 12 4) = 0 ∧ ((s.conn c).dataOf (pduHead (s.conn c).stream)).length = n ∧ n < k ∧ (unLe (slice (s.conn c).stream 1 1)).testBit 2 = false ∧ unLe (slice (s.conn c).stream 16 4) = n ∧ s.connCtx c = some q ∧ s.nvf.cmds.find (cmdKey q cid) = some x ∧ x.tcp = true ∧ x.xfer = 1 ∧ (s.conn c).badData (pduHead (s.conn c).stream) = false) ∧
    (∃ (s : State) (c cid tag k q n : Nat) (x : NvCmd), s.pduReady c 6 = true ∧ (s.conn c).xfers = [(cid, tag, k, 0)] ∧ unLe (slice (s.conn c).stream 8 2) = cid ∧ unLe (slice (s.conn c).stream 10 2) = tag ∧ unLe (slice (s.conn c).stream 12 4) = 0 ∧ ((s.conn c).dataOf (pduHead (s.conn c).stream)).length = n ∧ n ≠ k ∧ (unLe (slice (s.conn c).stream 1 1)).testBit 2 = true ∧ unLe (slice (s.conn c).stream 16 4) = n ∧ s.connCtx c = some q ∧ s.nvf.cmds.find (cmdKey q cid) = some x ∧ x.tcp = true ∧ x.xfer = 1 ∧ (s.conn c).badData (pduHead (s.conn c).stream) = false) ∧
    (∃ (s : State) (c : Nat), s.pduReady c 6 = true ∧ (s.conn c).xfers = []) ∧
    (∃ (s : State) (c : Nat), s.pduReady c 2 = true) ∧
    (∃ (s : State) (c : Nat), s.pduReady c 0 = false) ∧
    (∃ (s : State) (c : Nat), s.pduReady c 4 = false) ∧
    (∃ (s : State) (c : Nat), s.pduReady c 6 = false) ∧
    (∃ (s : State) (c : Nat), s.pduReady c 2 = false) ∧
    (∃ (s : State) (c : Nat), (s.conn c).isOpen = true ∧ (s.conn c).unacked ≠ [] ∧ (s.conn c).expiries < 11) ∧
    (∃ (s : State) (c : Nat), (s.conn c).isOpen = true ∧ (s.conn c).unacked ≠ [] ∧ 11 ≤ (s.conn c).expiries) ∧
    (∃ (s : State) (c : Nat), ((s.conn c).isOpen = false ∨ (s.conn c).unacked = [])) :=
  ⟨⟨(running [pgNVTCP]).setReg (rHPORT_IP_ADDR 0 0 0) 1, 0, 65535, 2 ^ 32 - 1, [], 1 :: List.replicate 15 0, { irs := 0, tsval := none }, by decide +kernel⟩,
   ⟨{ (running [pgNVTCP]).setReg (rHPORT_IP_ADDR 0 0 0) 1 with conns := [(0, { isOpen := true, port := 0, remotePort := 65535, localIp := 1 :: List.replicate 15 0 })] }, 0, 65535, 2 ^ 32 - 1, [], 1 :: List.replicate 15 0, { irs := 0, tsval := none }, (0, { isOpen := true, localIp := [1, 0, 0, 0, 0, 0, 0, 0, 0, 0, 0, 0, 0, 0, 0, 0], remotePort := 65535 }), by decide +kernel⟩,
   ⟨{ (running [pgNVTCP]).setReg (rHPORT_IP_ADDR 0 0 0) 1 with conns := (List.range 4096).map (fun i => (i, {})) }, 0, 65535, 2 ^ 32 - 1, [], 1 :: List.replicate 15 0, { irs := 0, tsval := none }, by decide +kernel⟩,
   ⟨running [], 0, 65535, 2 ^ 32 - 1, [], 1 :: List.replicate 15 0, { irs := 0, tsval := none }, by decide +kernel⟩,
   ⟨{ running [pgNVTCP] with conns := [(5, { isOpen := true, icDone := true })] }, 5, { ts := none, payload := [0] }, false, by decide +kernel⟩,
   ⟨(running [pgNVTCP]).setReg (rHPORT_IP_ADDR 0 0 0) 1, 5, 0, 0, false, false, false, { ts := none, payload := [0] }, by decide +kernel⟩,
   ⟨{ running [pgNVTCP] with conns := [(5, { isOpen := true, stream := icReq 0 31 })] }, 5, by decide +kernel⟩,
   ⟨{ running [pgNVTCP] with conns := [(5, { isOpen := true, stream := icReq 1 0 })] }, 5, by decide +kernel⟩,
   ⟨{ running [pgNVTCP] with conns := [(5, { isOpen := true, stream := icReq 0 32 })] }, 5, by decide +kernel⟩,
   ⟨{ running [pgNVTCP, pgNVF] with conns := [(5, { isOpen := true, icDone := true, stream := capsule0 })] }, 5, by decide +kernel⟩,
   ⟨{ running [pgNVTCP, pgNVF] with conns := [(5, { isOpen := true, icDone := true, stream := capsule0 })], ctx.ctxs := [(5, { valid := true, tcp := true, assoc := 5, size := 4 })], ctx.resident := [5] }, 5, 5, by decide +kernel⟩,
   ⟨{ running [pgNVTCP, pgNVF] with conns := [(5, { isOpen := true, icDone := true, stream := capsule0 })], ctx.ctxs := [(5, { valid := true, tcp := true, assoc := 5, size := 0, inSlots := 1 })], ctx.resident := [5] }, 5, 5, by decide +kernel⟩,
   ⟨(({ running [pgNVTCP, pgNVF] with conns := [(5, { isOpen := true, icDone := true, stream := capsule0 })] }).setReg rNVF_SWQ_PROD 1).setFld fNVF_SWQ_CFG_SIZE_LOG2 0, 5, by decide +kernel⟩,
   ⟨{ running [pgNVTCP] with conns := [(5, { isOpen := true, icDone := true, stream := capsule0 })] }, 5, by decide +kernel⟩,
   ⟨{ running [pgNVTCP, pgNVF] with conns := [(5, { isOpen := true, icDone := true, ddgst := true, stream := [4, 0, 72, 72, 77, 0, 0, 0] ++ List.replicate 69 0 })] }, 5, by decide +kernel⟩,
   ⟨{ running [pgNVTCP] with conns := [(5, { isOpen := true, icDone := true, stream := h2cData, xfers := [(7, 9, 4, 0)] })], ctx.ctxs := [(5, { valid := true, tcp := true, assoc := 5 })], nvf.cmds := [(cmdKey 5 7, { tcp := true, xfer := 1 })] }, 5, unLe (slice (({ running [pgNVTCP] with conns := [(5, { isOpen := true, icDone := true, stream := h2cData, xfers := [(7, 9, 4, 0)] })], ctx.ctxs := [(5, { valid := true, tcp := true, assoc := 5 })], nvf.cmds := [(cmdKey 5 7, { tcp := true, xfer := 1 })] } : State).conn 5).stream 8 2), unLe (slice (({ running [pgNVTCP] with conns := [(5, { isOpen := true, icDone := true, stream := h2cData, xfers := [(7, 9, 4, 0)] })], ctx.ctxs := [(5, { valid := true, tcp := true, assoc := 5 })], nvf.cmds := [(cmdKey 5 7, { tcp := true, xfer := 1 })] } : State).conn 5).stream 10 2), ((({ running [pgNVTCP] with conns := [(5, { isOpen := true, icDone := true, stream := h2cData, xfers := [(7, 9, 4, 0)] })], ctx.ctxs := [(5, { valid := true, tcp := true, assoc := 5 })], nvf.cmds := [(cmdKey 5 7, { tcp := true, xfer := 1 })] } : State).conn 5).dataOf (pduHead (({ running [pgNVTCP] with conns := [(5, { isOpen := true, icDone := true, stream := h2cData, xfers := [(7, 9, 4, 0)] })], ctx.ctxs := [(5, { valid := true, tcp := true, assoc := 5 })], nvf.cmds := [(cmdKey 5 7, { tcp := true, xfer := 1 })] } : State).conn 5).stream)).length, 5, { tcp := true, xfer := 1 }, by decide +kernel⟩,
   ⟨{ running [pgNVTCP] with conns := [(5, { isOpen := true, icDone := true, stream := h2cData, xfers := [(7, 9, 8, 0)] })], ctx.ctxs := [(5, { valid := true, tcp := true, assoc := 5 })], nvf.cmds := [(cmdKey 5 7, { tcp := true, xfer := 1 })] }, 5, 7, 9, 8, 5, ((({ running [pgNVTCP] with conns := [(5, { isOpen := true, icDone := true, stream := h2cData, xfers := [(7, 9, 8, 0)] })], ctx.ctxs := [(5, { valid := true, tcp := true, assoc := 5 })], nvf.cmds := [(cmdKey 5 7, { tcp := true, xfer := 1 })] } : State).conn 5).dataOf (pduHead (({ running [pgNVTCP] with conns := [(5, { isOpen := true, icDone := true, stream := h2cData, xfers := [(7, 9, 8, 0)] })], ctx.ctxs := [(5, { valid := true, tcp := true, assoc := 5 })], nvf.cmds := [(cmdKey 5 7, { tcp := true, xfer := 1 })] } : State).conn 5).stream)).length, { tcp := true, xfer := 1 }, by decide +kernel⟩,
   ⟨{ running [pgNVTCP] with conns := [(5, { isOpen := true, icDone := true, stream := 6 :: 4 :: h2cData.drop 2, xfers := [(7, 9, 8, 0)] })], ctx.ctxs := [(5, { valid := true, tcp := true, assoc := 5 })], nvf.cmds := [(cmdKey 5 7, { tcp := true, xfer := 1 })] }, 5, 7, 9, 8, 5, ((({ running [pgNVTCP] with conns := [(5, { isOpen := true, icDone := true, stream := 6 :: 4 :: h2cData.drop 2, xfers := [(7, 9, 8, 0)] })], ctx.ctxs := [(5, { valid := true, tcp := true, assoc := 5 })], nvf.cmds := [(cmdKey 5 7, { tcp := true, xfer := 1 })] } : State).conn 5).dataOf (pduHead (({ running [pgNVTCP] with conns := [(5, { isOpen := true, icDone := true, stream := 6 :: 4 :: h2cData.drop 2, xfers := [(7, 9, 8, 0)] })], ctx.ctxs := [(5, { valid := true, tcp := true, assoc := 5 })], nvf.cmds := [(cmdKey 5 7, { tcp := true, xfer := 1 })] } : State).conn 5).stream)).length, { tcp := true, xfer := 1 }, by decide +kernel⟩,
   ⟨{ running [pgNVTCP] with conns := [(5, { isOpen := true, icDone := true, stream := h2cData })] }, 5, by decide +kernel⟩,
   ⟨{ running [pgNVTCP] with conns := [(5, { isOpen := true, icDone := true, stream := [2, 0, 24, 0, 24, 0, 0, 0] ++ List.replicate 16 0 })] }, 5, by decide +kernel⟩,
   ⟨(running [pgNVTCP]).setReg (rHPORT_IP_ADDR 0 0 0) 1, 5, by decide +kernel⟩,
   ⟨(running [pgNVTCP]).setReg (rHPORT_IP_ADDR 0 0 0) 1, 5, by decide +kernel⟩,
   ⟨(running [pgNVTCP]).setReg (rHPORT_IP_ADDR 0 0 0) 1, 5, by decide +kernel⟩,
   ⟨(running [pgNVTCP]).setReg (rHPORT_IP_ADDR 0 0 0) 1, 5, by decide +kernel⟩,
   ⟨{ running [pgNVTCP] with conns := [(5, { isOpen := true, unacked := [1], expiries := 10 })] }, 5, by decide +kernel⟩,
   ⟨{ running [pgNVTCP] with conns := [(5, { isOpen := true, unacked := [1], expiries := 11 })] }, 5, by decide +kernel⟩,
   ⟨(running [pgNVTCP]).setReg (rHPORT_IP_ADDR 0 0 0) 1, 5, by decide +kernel⟩⟩

theorem witness_CellsOfFrame :
    (∃ (f : SwFrame), f.payload = []) ∧
    (∃ (f : SwFrame), f.payload ≠ []) :=
  ⟨⟨noFrame.frame, by decide +kernel⟩,
   ⟨{ noFrame.frame with payload := [0] }, by decide +kernel⟩⟩

theorem witness_Switch :
    (∃ (s : State) (f : SwFrame), f.cls < 8 ∧ f.src < 21 ∧ s.runs pgSW = true ∧ f.mask % 2 ^ 21 = 0) ∧
    (∃ (s : State) (f : SwFrame), f.cls < 8 ∧ f.src < 21 ∧ isExternal f.src = true ∧ s.runs pgSW = false) ∧
    (∃ (s : State) (f : SwFrame), f.cls < 8 ∧ f.src < 21 ∧ isExternal f.src = false ∧ s.runs pgSW = false) ∧
    (∃ (_s : State) (f : SwFrame), (8 ≤ f.cls ∨ 21 ≤ f.src)) ∧
    (∃ (s : State) (f : SwFrame) (e : Nat), f.cls < 8 ∧ f.src < 21 ∧ s.runs pgSW = true ∧ f.mask = 2 ^ e ∧ e < 21 ∧ ¬ (8 ≤ e ∧ e < 12) ∧ s.epOn e = false ∧ f.cmd = none) ∧
    (∃ (s : State) (f : SwFrame) (e : Nat), f.cls < 8 ∧ f.src < 21 ∧ s.runs pgSW = true ∧ f.mask = 2 ^ e ∧ e < 21 ∧ ¬ (8 ≤ e ∧ e < 12) ∧ s.epOn e = true ∧ f.cmd = none ∧ f.corr = 0 ∧ s.sw.cfg.ovfEn.testBit f.cls = false ∧ headroomOf (s.bufRes f.cls) f.cls ≤ s.headUse f.cls ∧ s.sharedFree < frameCells f) ∧
    (∃ (s : State) (f : SwFrame) (e : Nat), f.cls < 8 ∧ f.src < 21 ∧ s.runs pgSW = true ∧ f.mask = 2 ^ e ∧ e < 21 ∧ ¬ (8 ≤ e ∧ e < 12) ∧ s.epOn e = true ∧ f.cmd = none ∧ f.bad = 0 ∧ f.corr = 0 ∧ f.payload.length < f.len ∧ s.sw.cfg.ovfEn.testBit f.cls = false ∧ frameCells f ≤ headroomOf (s.bufRes f.cls) f.cls - s.headUse f.cls) ∧
    (∃ (s : State) (f : SwFrame) (e : Nat), f.cls < 8 ∧ f.src < 12 ∧ s.runs pgSW = true ∧ f.mask = 2 ^ e ∧ e < 21 ∧ ¬ (8 ≤ e ∧ e < 12) ∧ s.epOn e = true ∧ f.cmd = none ∧ f.bad = 0 ∧ f.corr = 0 ∧ f.len ≤ f.payload.length ∧ s.epLive f.src = true ∧ (isExternal e = true ∨ s.fld fSW_CTRL_CT_EN = 0) ∧ (s.sw.cfg.ovfEn.testBit f.cls = false) ∧ frameCells f ≤ headroomOf (s.bufRes f.cls) f.cls - s.headUse f.cls ∧ s.fld (fSW_ECN_MARK_CELLS f.cls) = 0) ∧
    (∃ (s : State) (k d : Nat) (c : NvCmd), s.nvf.cmds.find k = some c ∧ d < 3 ∧ c.wants d = true ∧ c.result d = none ∧ c.xfer ≠ 0) ∧
    (∃ (s : State) (k d : Nat) (c : NvCmd), s.nvf.cmds.find k = some c ∧ (c.wants d = false ∨ c.result d ≠ none ∨ c.xfer = 0)) ∧
    (∃ (s : State) (m n : Nat), m < 4 ∧ n < 4 ∧ n ≠ m ∧ (s.setFld (fPLINK_STAT_LINK_UP m) 0).servingMember m = some n) ∧
    (∃ (_s : State) (m : Nat), 4 ≤ m) ∧
    (∃ (s : State) (m : Nat), m < 4 ∧ s.domOn 20 = true ∧ s.fld (fPLINK_CTRL_LINK_EN m) = 1) ∧
    (∃ (s : State) (m : Nat), (4 ≤ m ∨ s.domOn 20 = false ∨ s.fld (fPLINK_CTRL_LINK_EN m) = 0)) :=
  ⟨⟨running [pgSW], noFrame.frame, by decide +kernel⟩,
   ⟨State.reset, { noFrame.frame with cls := 5, mask := 2 ^ 20 }, by decide +kernel⟩,
   ⟨State.reset, { noFrame.frame with src := 12 }, by decide +kernel⟩,
   ⟨running [pgSW], { noFrame.frame with src := 21 }, by decide +kernel⟩,
   ⟨{ running [pgSW] with plat.pwr.doms := [(16, { st := .banked })] }, { noFrame.frame with cls := 5, mask := 1 }, 0, by decide +kernel⟩,
   ⟨{ running [pgSW] with sw.cfg.res := [10 ^ 7] }, { noFrame.frame with cls := 5, mask := 2 ^ 20 }, 20, by decide +kernel⟩,
   ⟨running [pgSW], { noFrame.frame with cls := 5, mask := 2 ^ 20, len := 1 }, 20, by decide +kernel⟩,
   ⟨(running [pgSW]).setFld (fSW_ECN_MARK_CELLS 5) 0, { noFrame.frame with cls := 5, mask := 2 ^ 20 }, 20, by decide +kernel⟩,
   ⟨{ State.reset with nvf.cmds := [(7, { wantP := true, xfer := 1 })] }, 7, 0, { xfer := 1, wantP := true }, by decide +kernel⟩,
   ⟨{ State.reset with nvf.cmds := [(7, { wantP := true, xfer := 1 })] }, 7, 20, { xfer := 1, wantP := true }, by decide +kernel⟩,
   ⟨(running [pgPLINK 3]).setFld (fPLINK_STAT_LINK_UP 3) 1, 0, 3, by decide +kernel⟩,
   ⟨running [pgSW], 20, by decide +kernel⟩,
   ⟨running [pgSW], 0, by decide +kernel⟩,
   ⟨running [pgSW], 20, by decide +kernel⟩⟩

theorem witness_MarkEngine :
    (∃ (s : State) (h : CmdHdr) (slot alg ks p : Nat) (key : List Byte), Ready s h pgMARK p .work ∧ h.inst = 0xFF ∧ slot ≤ 4095 ∧ alg ≤ 1 ∧ s.refilling = false ∧ (s.markSlot slot).st = 0 ∧ s.zeroized = false ∧ (s.keyRec ks).type = 2 ∧ s.kekValid (s.keyRec ks).kek = true ∧ s.hbmErr (s.reg64 rKEYS_WRAP_BASE + 128 * ks) 128 = false ∧ keyUnwrap (s.kek (s.keyRec ks).kek) ((s.keyRec ks).wrapped.take ((s.keyRec ks).len + 8)) = some key) ∧
    (∃ (s : State) (h : CmdHdr) (slot alg _ks p : Nat), Ready s h pgMARK p .work ∧ (h.inst ≠ 0xFF ∨ 4095 < slot ∨ 1 < alg)) ∧
    (∃ (s : State) (h : CmdHdr) (slot alg _ks p : Nat), Ready s h pgMARK p .work ∧ h.inst = 0xFF ∧ slot ≤ 4095 ∧ alg ≤ 1 ∧ s.refilling = true) ∧
    (∃ (s : State) (h : CmdHdr) (slot alg _ks p : Nat), Ready s h pgMARK p .work ∧ h.inst = 0xFF ∧ slot ≤ 4095 ∧ alg ≤ 1 ∧ s.refilling = false ∧ (s.markSlot slot).st ≠ 0) ∧
    (∃ (s : State) (h : CmdHdr) (slot alg ks p : Nat), Ready s h pgMARK p .work ∧ h.inst = 0xFF ∧ slot ≤ 4095 ∧ alg ≤ 1 ∧ s.refilling = false ∧ (s.markSlot slot).st = 0 ∧ (s.zeroized = true ∨ (s.keyRec ks).type ≠ 2 ∨ s.kekValid (s.keyRec ks).kek = false ∨ s.hbmErr (s.reg64 rKEYS_WRAP_BASE + 128 * ks) 128 = true ∨ keyUnwrap (s.kek (s.keyRec ks).kek) ((s.keyRec ks).wrapped.take ((s.keyRec ks).len + 8)) = none)) ∧
    (∃ (s : State) (h : CmdHdr) (slot p : Nat), Ready s h pgMARK p .release ∧ (h.inst ≠ 0xFF ∨ 4095 < slot)) ∧
    (∃ (s : State) (h : CmdHdr) (slot p : Nat), Ready s h pgMARK p .release ∧ h.inst = 0xFF ∧ slot ≤ 4095 ∧ s.refilling = true) ∧
    (∃ (s : State) (h : CmdHdr) (slot p : Nat), Ready s h pgMARK p .release ∧ h.inst = 0xFF ∧ slot ≤ 4095 ∧ s.refilling = false ∧ (s.markSlot slot).st ≠ 1) ∧
    (∃ (s : State) (h : CmdHdr) (slot p : Nat), Ready s h pgMARK p .release ∧ h.inst = 0xFF ∧ slot ≤ 4095 ∧ s.refilling = false ∧ (s.markSlot slot).st = 1 ∧ s.markHolds slot = 0) ∧
    (∃ (s : State) (h : CmdHdr) (slot p : Nat), Ready s h pgMARK p .release ∧ h.inst = 0xFF ∧ slot ≤ 4095 ∧ s.refilling = false ∧ (s.markSlot slot).st = 1 ∧ 0 < s.markHolds slot) ∧
    (∃ (s : State) (slot q : Nat), (s.markSlot slot).st = 2 ∧ s.markHolds slot = 0 ∧ (s.markSlot slot).clear = some q) ∧
    (∃ (s : State) (slot : Nat), ((s.markSlot slot).st ≠ 2 ∨ 0 < s.markHolds slot)) ∧
    (∃ (s : State) (h : CmdHdr) (q fl slot src len res k : Nat) (_ecc : Bool), DigestArgs h q fl slot src len res ∧ Ready s h pgMARK (quadPage pgMARK q) .work ∧ (len = 0 ∨ s.hbmErr src len = false) ∧ s.jobLane q = some k ∧ fl.testBit 1 = false) ∧
    (∃ (s : State) (h : CmdHdr) (q fl slot src len res k : Nat) (key : List Byte), DigestArgs h q fl slot src len res ∧ Ready s h pgMARK (quadPage pgMARK q) .work ∧ (len = 0 ∨ s.hbmErr src len = false) ∧ s.jobLane q = some k ∧ fl.testBit 1 = true ∧ s.markKey q slot (decide (fl % 2 = 1)) = some key) ∧
    (∃ (s : State) (h : CmdHdr) (q fl slot src len res k : Nat) (_ecc : Bool), DigestArgs h q fl slot src len res ∧ Ready s h pgMARK (quadPage pgMARK q) .work ∧ s.jobLane q = some k ∧ fl.testBit 1 = true ∧ s.markKey q slot (decide (fl % 2 = 1)) = none) ∧
    (∃ (s : State) (h : CmdHdr) (q fl slot src len res k : Nat), DigestArgs h q fl slot src len res ∧ Ready s h pgMARK (quadPage pgMARK q) .work ∧ s.jobLane q = some k ∧ fl.testBit 1 = true ∧ s.markKey q slot (decide (fl % 2 = 1)) ≠ none) ∧
    (∃ (s : State) (h : CmdHdr) (q fl slot src len res k : Nat), DigestArgs h q fl slot src len res ∧ Ready s h pgMARK (quadPage pgMARK q) .work ∧ s.jobLane q = some k ∧ 0 < len ∧ s.hbmErr src len = true ∧ fl.testBit 1 = false) ∧
    (∃ (s : State) (h : CmdHdr) (fl slot src len res p : Nat) (_ecc : Bool), Ready s h pgMARK p .work ∧ (3 < h.inst ∨ 4095 < slot ∨ 2 ^ 40 < len ∨ res % 64 ≠ 0 ∨ hbmEnd < src + len ∨ hbmEnd < res + (if fl % 2 = 0 then 32 else 64))) ∧
    (∃ (s : State) (h : CmdHdr) (q fl slot src len res : Nat) (_ecc : Bool), DigestArgs h q fl slot src len res ∧ Ready s h pgMARK (quadPage pgMARK q) .work ∧ s.jobLane q = none) ∧
    (∃ (s : State) (q : Nat), q < 4 ∧ Reaches s (pgMarkQ q) ∧ s.runs (pgMarkQ q) = true ∧ (s.markQuad q).pio = none ∧ (s.fld (fMARK_PIO_CTRL_HMAC q) = 0 ∨ (s.markKey q (s.fld (fMARK_PIO_CTRL_SLOT q)) (decide (s.fld (fMARK_PIO_CTRL_ALG q) = 1))).isSome = true)) ∧
    (∃ (s : State) (q : Nat), q < 4 ∧ Reaches s (pgMarkQ q) ∧ s.runs (pgMarkQ q) = true ∧ (s.markQuad q).pio = none ∧ s.fld (fMARK_PIO_CTRL_HMAC q) = 1 ∧ s.markKey q (s.fld (fMARK_PIO_CTRL_SLOT q)) (decide (s.fld (fMARK_PIO_CTRL_ALG q) = 1)) = none) ∧
    (∃ (s : State) (q : Nat), q < 4 ∧ Reaches s (pgMarkQ q) ∧ s.runs (pgMarkQ q) = false) ∧
    (∃ (s : State) (q : Nat), q < 4 ∧ Reaches s (pgMarkQ q) ∧ s.runs (pgMarkQ q) = true ∧ (s.markQuad q).pio ≠ none) ∧
    (∃ (s : State) (q _d : Nat) (ecc : Bool) (m : MarkPio), q < 4 ∧ Reaches s (pgMarkQ q) ∧ (s.markQuad q).pio = some m ∧ m.ended = false ∧ m.data.length + 8 < 2 ^ 56 ∧ (ecc = false ∨ m.hmac = false)) ∧
    (∃ (s : State) (q _d : Nat) (m : MarkPio), q < 4 ∧ Reaches s (pgMarkQ q) ∧ (s.markQuad q).pio = some m ∧ m.ended = false ∧ m.data.length + min 8 (s.fld (fMARK_PIO_CTRL_LAST_VALID q)) < 2 ^ 56) ∧
    (∃ (s : State) (q size _d : Nat) (_ecc : Bool), q < 4 ∧ Reaches s (pgMarkQ q) ∧ ((s.markQuad q).pio = none ∨ size ≠ 64 ∨ ∃ m, (s.markQuad q).pio = some m ∧ m.ended = true)) ∧
    (∃ (s : State) (q _d : Nat) (m : MarkPio), q < 4 ∧ Reaches s (pgMarkQ q) ∧ (s.markQuad q).pio = some m ∧ m.ended = false ∧ m.hmac = true) ∧
    (∃ (s : State) (q _d : Nat) (m : MarkPio), q < 4 ∧ Reaches s (pgMarkQ q) ∧ (s.markQuad q).pio = some m ∧ m.ended = false ∧ 2 ^ 56 ≤ m.data.length + 8) ∧
    (∃ (s : State) (q _d : Nat) (m : MarkPio), q < 4 ∧ Reaches s (pgMarkQ q) ∧ (s.markQuad q).pio = some m ∧ m.ended = false ∧ 2 ^ 56 ≤ m.data.length + min 8 (s.fld (fMARK_PIO_CTRL_LAST_VALID q))) ∧
    (∃ (s : State) (q _size _d : Nat) (_ecc : Bool), q < 4 ∧ s.pageOn (pgMarkQ q) = false) ∧
    (∃ (s : State) (q : Nat) (m : MarkPio), q < 4 ∧ (s.markQuad q).pio = some m ∧ m.ended = true ∧ m.lane.isSome = true) ∧
    (∃ (s : State) (q : Nat), q < 4 ∧ (∀ m, (s.markQuad q).pio = some m → m.ended = false ∨ m.lane = none)) ∧
    (∃ (s : State) (q : Nat), q < 4 ∧ (s.markQuad q).refill = true ∧ s.domOn (27 + q) = true) ∧
    (∃ (s : State) (q : Nat), ((s.markQuad q).refill = false ∨ s.domOn (27 + q) = false)) ∧
    (∃ (_s : State) (q _size _d : Nat) (_ecc : Bool), 4 ≤ q) ∧
    (∃ (s : State) (u : Nat) (w : WareUnit), s.wareUnit u = some w ∧ w.phase = .mark ∧ w.lane.isSome = true ∧ w.held = true ∧ s.working (pgMarkQ w.quad) = true) ∧
    (∃ (s : State) (u : Nat) (w : WareUnit) (_ecc : Bool), s.wareUnit u = some w ∧ w.phase = .mark ∧ w.lane.isSome = true ∧ s.working (pgMarkQ w.quad) = true ∧ w.held = false) ∧
    (∃ (s : State) (u : Nat) (w : WareUnit) (_ecc : Bool), s.wareUnit u = some w ∧ w.phase = .mark ∧ w.lane.isSome = true ∧ s.working (pgMarkQ w.quad) = true ∧ w.held = true) ∧
    (∃ (s : State) (u : Nat) (_crazed _ecc : Bool), (∀ w, s.wareUnit u = some w → w.phase ≠ .mark ∨ w.lane = none ∨ s.working (pgMarkQ w.quad) = false)) :=
  ⟨⟨{ running [pgEVT, quadPage pgMARK 0] with sec.recs := [(9, keyRec0 2)], sec.keks := [(1, [1])] }, hdr 0xFF, 4095, 1, 9, quadPage pgMARK 0, [], by decide +kernel⟩,
   ⟨{ running [pgEVT, quadPage pgMARK 0] with sec.recs := [(9, keyRec0 2)], sec.keks := [(1, [1])] }, hdr 0xFF, 4095, 2, 9, quadPage pgMARK 0, by decide +kernel⟩,
   ⟨{ running [pgEVT, quadPage pgMARK 0] with mark.quads := [(0, { refill := true })] }, hdr 0xFF, 4095, 1, 9, quadPage pgMARK 0, by decide +kernel⟩,
   ⟨{ running [pgEVT, quadPage pgMARK 0] with mark.slots := [(4095, { st := 1 })] }, hdr 0xFF, 4095, 1, 9, quadPage pgMARK 0, by decide +kernel⟩,
   ⟨{ running [pgEVT, quadPage pgMARK 0] with mark.slots := [(4095, { st := 1 })] }, hdr 0xFF, 0, 1, 9, quadPage pgMARK 0, by decide +kernel⟩,
   ⟨{ running [pgEVT, quadPage pgMARK 0] with sec.recs := [(9, keyRec0 2)], sec.keks := [(1, [1])] }, hdr 0xFF, 4096, quadPage pgMARK 0, by decide +kernel⟩,
   ⟨{ running [pgEVT, quadPage pgMARK 0] with mark.quads := [(0, { refill := true })] }, hdr 0xFF, 4095, quadPage pgMARK 0, by decide +kernel⟩,
   ⟨{ running [pgEVT, quadPage pgMARK 0] with sec.recs := [(9, keyRec0 2)], sec.keks := [(1, [1])] }, hdr 0xFF, 4095, quadPage pgMARK 0, by decide +kernel⟩,
   ⟨{ running [pgEVT, quadPage pgMARK 0] with mark.slots := [(4095, { st := 1 })] }, hdr 0xFF, 4095, quadPage pgMARK 0, by decide +kernel⟩,
   ⟨{ running [pgEVT, quadPage pgMARK 0] with mark.slots := [(4095, { st := 1 })], mark.quads := [(0, { pio := some { noPio with hmac := true, slot := 4095 } })] }, hdr 0xFF, 4095, quadPage pgMARK 0, by decide +kernel⟩,
   ⟨{ State.reset with mark.slots := [(4095, { st := 2, clear := some 3 })] }, 4095, 3, by decide +kernel⟩,
   ⟨{ running [pgEVT, quadPage pgMARK 0] with sec.recs := [(9, keyRec0 2)], sec.keks := [(1, [1])] }, 4095, by decide +kernel⟩,
   ⟨{ running [pgEVT, quadPage pgMARK 0] with sec.recs := [(9, keyRec0 2)], sec.keks := [(1, [1])] }, hdr 0, 0, 1, 4095, 0, 64, hbmEnd - 64, 30, true, by decide +kernel⟩,
   ⟨{ running [pgEVT, quadPage pgMARK 3] with mark.slots := [(4095, { st := 1, alg512 := true, key := [1] })] }, hdr 3, 3, 3, 4095, 0, 64, hbmEnd - 64, 30, [1], by decide +kernel⟩,
   ⟨{ running [pgEVT, quadPage pgMARK 0] with sec.recs := [(9, keyRec0 2)], sec.keks := [(1, [1])] }, hdr 0, 0, 3, 4095, 0, 64, hbmEnd - 64, 30, true, by decide +kernel⟩,
   ⟨{ running [pgEVT, quadPage pgMARK 3] with mark.slots := [(4095, { st := 1, alg512 := true, key := [1] })] }, hdr 3, 3, 3, 4095, 0, 64, hbmEnd - 64, 30, by decide +kernel⟩,
   ⟨{ running [pgEVT, quadPage pgMARK 3] with mem.bad := [0] }, hdr 3, 3, 1, 4095, 0, 64, hbmEnd - 64, 30, by decide +kernel⟩,
   ⟨{ running [pgEVT, quadPage pgMARK 0] with sec.recs := [(9, keyRec0 2)], sec.keks := [(1, [1])] }, hdr 0xFF, 1, 4095, 0, 64, hbmEnd - 64, quadPage pgMARK 0, true, by decide +kernel⟩,
   ⟨{ (running [pgEVT, quadPage pgMARK 3]).setFld (fMARK_CTRL_JOB_LANES 3) 1 with mark.quads := [(3, { pio := some { noPio with lane := some 30 } })] }, hdr 3, 3, 1, 4095, 0, 64, hbmEnd - 64, true, by decide +kernel⟩,
   ⟨{ running [pgEVT, quadPage pgMARK 0] with sec.recs := [(9, keyRec0 2)], sec.keks := [(1, [1])] }, 0, by decide +kernel⟩,
   ⟨(running [pgMarkQ 3]).setFld (fMARK_PIO_CTRL_HMAC 3) 1, 3, by decide +kernel⟩,
   ⟨{ running [pgEVT, quadPage pgMARK 0] with sec.recs := [(9, keyRec0 2)], sec.keks := [(1, [1])] }, 3, by decide +kernel⟩,
   ⟨{ running [pgEVT, quadPage pgMARK 0] with mark.slots := [(4095, { st := 1 })], mark.quads := [(0, { pio := some { noPio with hmac := true, slot := 4095 } })] }, 0, by decide +kernel⟩,
   ⟨{ running [pgEVT, quadPage pgMARK 0] with mark.slots := [(4095, { st := 1 })], mark.quads := [(0, { pio := some { noPio with hmac := true, slot := 4095 } })] }, 0, 2 ^ 64 - 1, false, { alg512 := false, hmac := true, slot := 4095, data := [], ended := false, lane := none }, by decide +kernel⟩,
   ⟨{ running [pgEVT, quadPage pgMARK 0] with mark.slots := [(4095, { st := 1 })], mark.quads := [(0, { pio := some { noPio with hmac := true, slot := 4095 } })] }, 0, 2 ^ 64 - 1, { alg512 := false, hmac := true, slot := 4095, data := [], ended := false, lane := none }, by decide +kernel⟩,
   ⟨{ running [pgEVT, quadPage pgMARK 0] with sec.recs := [(9, keyRec0 2)], sec.keks := [(1, [1])] }, 3, 64, 2 ^ 64 - 1, true, by decide +kernel, by decide +kernel, (Or.inl (by decide +kernel))⟩,
   ⟨{ running [pgEVT, quadPage pgMARK 0] with mark.slots := [(4095, { st := 1 })], mark.quads := [(0, { pio := some { noPio with hmac := true, slot := 4095 } })] }, 0, 2 ^ 64 - 1, { alg512 := false, hmac := true, slot := 4095, data := [], ended := false, lane := none }, by decide +kernel⟩,
   ⟨longMark 0, 3, 0, longPio, by decide, by decide +kernel, longMark_pio 0, rfl, by rw [longPio_length]; exact Nat.le_add_right _ _⟩,
   ⟨longMark 8, 3, 0, longPio, by decide, by decide +kernel, longMark_pio 8, rfl, by rw [longPio_length]; exact Nat.le_add_right _ _⟩,
   ⟨{ State.reset with plat.pwr.doms := [(30, { st := .banked })] }, 3, 64, 2 ^ 64 - 1, true, by decide +kernel⟩,
   ⟨{ running [pgMarkQ 3] with mark.quads := [(3, { pio := some { noPio with ended := true, lane := some 31 } })] }, 3, { alg512 := false, hmac := false, slot := 0, data := [], ended := true, lane := some 31 }, by decide +kernel⟩,
   ⟨{ running [pgMarkQ 3] with mark.quads := [(3, { pio := some noPio })] }, 3, by decide, by intro m hm; cases hm; exact Or.inl rfl⟩,
   ⟨{ running [pgEVT, quadPage pgMARK 0] with mark.quads := [(0, { refill := true })] }, 0, by decide +kernel⟩,
   ⟨{ running [pgEVT, quadPage pgMARK 0] with sec.recs := [(9, keyRec0 2)], sec.keks := [(1, [1])] }, 3, by decide +kernel⟩,
   ⟨{ running [pgEVT, quadPage pgMARK 0] with sec.recs := [(9, keyRec0 2)], sec.keks := [(1, [1])] }, 4, 64, 2 ^ 64 - 1, true, by decide +kernel⟩,
   ⟨{ withUnit [pgMarkQ 0] { unit0 .mark with lane := some 0, held := true } with mark.slots := [(0, { st := 1, key := [1] })] }, 1, { cmd := 0, lba := 0, quad := 0, data := [], app := 0, dom := 0, tenant := 0, keySlot := 0, phase := .mark, lane := some 0, held := true, fp := [], way := none, hotOnly := false, verify := false, cands := [], tried := [], probed := false, indexed := false, hit := false, cid := 0, createSeq := 0, form := [], guard := 0, stored := false, tries := 0, eng := none, comp := none }, by decide +kernel⟩,
   ⟨withUnit [pgMarkQ 0] { unit0 .mark with lane := some 0 }, 1, { cmd := 0, lba := 0, quad := 0, data := [], app := 0, dom := 0, tenant := 0, keySlot := 0, phase := .mark, lane := some 0, held := false, fp := [], way := none, hotOnly := false, verify := false, cands := [], tried := [], probed := false, indexed := false, hit := false, cid := 0, createSeq := 0, form := [], guard := 0, stored := false, tries := 0, eng := none, comp := none }, true, by decide +kernel⟩,
   ⟨{ withUnit [pgMarkQ 0] { unit0 .mark with lane := some 0, held := true } with mark.slots := [(0, { st := 1, key := [1] })] }, 1, { cmd := 0, lba := 0, quad := 0, data := [], app := 0, dom := 0, tenant := 0, keySlot := 0, phase := .mark, lane := some 0, held := true, fp := [], way := none, hotOnly := false, verify := false, cands := [], tried := [], probed := false, indexed := false, hit := false, cid := 0, createSeq := 0, form := [], guard := 0, stored := false, tries := 0, eng := none, comp := none }, true, by decide +kernel⟩,
   ⟨withUnit [pgMarkQ 0] (unit0 .mark), 1, false, true, by intro w hw; cases hw; exact Or.inr (Or.inl rfl)⟩⟩

theorem witness_GrogLookups :
    (∃ (s : State) (u : Nat) (w0 w : WareUnit) (nk : Bool), s.grogUnit u = some w0 ∧ ((w0.phase = .lookup nk ∧ w = { w0 with hotOnly := (s.domEnt w0.dom).hotOnly, verify := (s.domEnt w0.dom).verify }) ∨ (w0.phase = .pinned ∧ w = w0 ∧ nk = false)) ∧ s.hbmErr (s.reg64 (rGROG_DOM_BASE 0) + 16 * w.dom) 16 = true) ∧
    (∃ (s : State) (u : Nat) (w0 w : WareUnit) (nk : Bool), s.grogUnit u = some w0 ∧ ((w0.phase = .lookup nk ∧ w = { w0 with hotOnly := (s.domEnt w0.dom).hotOnly, verify := (s.domEnt w0.dom).verify }) ∨ (w0.phase = .pinned ∧ w = w0 ∧ nk = false)) ∧ s.hbmErr (s.reg64 (rGROG_DOM_BASE 0) + 16 * w.dom) 16 = false ∧ (s.domEnt w.dom).st = 1 ∧ (s.domEnt w.dom).tenant ≠ w.tenant) ∧
    (∃ (s : State) (u : Nat) (w0 w : WareUnit) (nk : Bool), s.grogUnit u = some w0 ∧ ((w0.phase = .lookup nk ∧ w = { w0 with hotOnly := (s.domEnt w0.dom).hotOnly, verify := (s.domEnt w0.dom).verify }) ∨ (w0.phase = .pinned ∧ w = w0 ∧ nk = false)) ∧ s.hbmErr (s.reg64 (rGROG_DOM_BASE 0) + 16 * w.dom) 16 = false ∧ ((s.domEnt w.dom).st ≠ 1 ∨ ((s.domEnt w.dom).tenant = w.tenant ∧ nk = true))) ∧
    (∃ (s : State) (u : Nat) (w0 w : WareUnit) (nk : Bool), s.grogUnit u = some w0 ∧ ((w0.phase = .lookup nk ∧ w = { w0 with hotOnly := (s.domEnt w0.dom).hotOnly, verify := (s.domEnt w0.dom).verify }) ∨ (w0.phase = .pinned ∧ w = w0 ∧ nk = false)) ∧ s.hbmErr (s.reg64 (rGROG_DOM_BASE 0) + 16 * w.dom) 16 = false ∧ (s.domEnt w.dom).st = 1 ∧ (s.domEnt w.dom).tenant = w.tenant ∧ nk = false ∧ s.hbmErr (s.reg64 (rGROG_HOT_BASE 0) + 64 * fpH w.fp) 64 = false ∧ s.untried w = []) ∧
    (∃ (s : State) (u : Nat) (w0 w : WareUnit) (nk : Bool), s.grogUnit u = some w0 ∧ ((w0.phase = .lookup nk ∧ w = { w0 with hotOnly := (s.domEnt w0.dom).hotOnly, verify := (s.domEnt w0.dom).verify }) ∨ (w0.phase = .pinned ∧ w = w0 ∧ nk = false)) ∧ s.hbmErr (s.reg64 (rGROG_DOM_BASE 0) + 16 * w.dom) 16 = false ∧ (s.domEnt w.dom).st = 1 ∧ (s.domEnt w.dom).tenant = w.tenant ∧ nk = false ∧ s.hbmErr (s.reg64 (rGROG_HOT_BASE 0) + 64 * fpH w.fp) 64 = false ∧ s.untried w ≠ []) ∧
    (∃ (s : State) (u : Nat) (w0 w : WareUnit) (nk : Bool), s.grogUnit u = some w0 ∧ ((w0.phase = .lookup nk ∧ w = { w0 with hotOnly := (s.domEnt w0.dom).hotOnly, verify := (s.domEnt w0.dom).verify }) ∨ (w0.phase = .pinned ∧ w = w0 ∧ nk = false)) ∧ s.hbmErr (s.reg64 (rGROG_DOM_BASE 0) + 16 * w.dom) 16 = false ∧ (s.domEnt w.dom).st = 1 ∧ (s.domEnt w.dom).tenant = w.tenant ∧ nk = false ∧ s.hbmErr (s.reg64 (rGROG_HOT_BASE 0) + 64 * fpH w.fp) 64 = true) ∧
    (∃ (s : State) (u : Nat), (∀ w, s.grogUnit u = some w → w.phase ≠ .lookup true ∧ w.phase ≠ .lookup false ∧ w.phase ≠ .pinned)) ∧
    (∃ (s : State) (u k : Nat) (w : WareUnit) (e : HotWay), s.grogUnit u = some w ∧ w.phase = .pend k ∧ e = s.hotWay (k / 4) (k % 4) ∧ e.valid = true ∧ e.dom = w.dom ∧ e.tag = fpT w.fp / 4 ∧ e.pend = true) ∧
    (∃ (s : State) (u k : Nat) (w : WareUnit) (e : HotWay), s.grogUnit u = some w ∧ w.phase = .pend k ∧ e = s.hotWay (k / 4) (k % 4) ∧ e.valid = true ∧ e.dom = w.dom ∧ e.tag = fpT w.fp / 4 ∧ e.pend = false) ∧
    (∃ (s : State) (u k : Nat) (w : WareUnit) (e : HotWay), s.grogUnit u = some w ∧ w.phase = .pend k ∧ e = s.hotWay (k / 4) (k % 4) ∧ (e.valid = false ∨ e.dom ≠ w.dom ∨ e.tag ≠ fpT w.fp / 4)) ∧
    (∃ (s : State) (u : Nat), (∀ w k, s.grogUnit u = some w → w.phase ≠ .pend k)) ∧
    (∃ (s : State) (u : Nat) (w : WareUnit) (es : List FidxEnt), s.grogUnit u = some w ∧ w.phase = .probe ∧ s.fidxDir (fpB w.fp) ≠ dirRebuilding ∧ es = (s.fidxPage (s.fidxOf w.fp)).ents.filter (fun e => e.tag = fpT w.fp && e.dom = w.dom) ∧ es = []) ∧
    (∃ (s : State) (u : Nat) (w : WareUnit) (es : List FidxEnt), s.grogUnit u = some w ∧ w.phase = .probe ∧ s.fidxDir (fpB w.fp) ≠ dirRebuilding ∧ es = (s.fidxPage (s.fidxOf w.fp)).ents.filter (fun e => e.tag = fpT w.fp && e.dom = w.dom) ∧ es ≠ []) ∧
    (∃ (s : State) (u : Nat) (w : WareUnit) (_bad : Bool), s.grogUnit u = some w ∧ w.phase = .probe ∧ s.fidxDir (fpB w.fp) = dirRebuilding) ∧
    (∃ (s : State) (u : Nat) (_bad : Bool), (∀ w, s.grogUnit u = some w → w.phase ≠ .probe)) ∧
    (∃ (s : State) (u cid : Nat) (w : WareUnit) (way : Option Nat) (x : Bool) (rest : List (Nat × Option Nat × Bool)), s.grogUnit u = some w ∧ w.phase = .confirm ∧ w.cands = (cid, way, x) :: rest ∧ (s.resident (contentMpa cid) = true ∨ s.back.pageLoc.find (contentMpa cid) = none) ∧ (cid < 16 ∨ (s.cont cid).refs = 0 ∨ (s.cont cid).dom ≠ w.dom)) ∧
    (∃ (s : State) (u cid : Nat) (w : WareUnit) (way : Option Nat) (x : Bool) (rest : List (Nat × Option Nat × Bool)), s.grogUnit u = some w ∧ w.phase = .confirm ∧ w.cands = (cid, way, x) :: rest ∧ (s.resident (contentMpa cid) = true ∨ s.back.pageLoc.find (contentMpa cid) = none) ∧ 16 ≤ cid ∧ (s.cont cid).refs ≠ 0 ∧ (s.cont cid).dom = w.dom ∧ (s.cont cid).fp ≠ w.fp) ∧
    (∃ (s : State) (u cid : Nat) (w : WareUnit) (way : Option Nat) (x : Bool) (rest : List (Nat × Option Nat × Bool)), s.grogUnit u = some w ∧ w.phase = .confirm ∧ w.cands = (cid, way, x) :: rest ∧ (s.resident (contentMpa cid) = true ∨ s.back.pageLoc.find (contentMpa cid) = none) ∧ 16 ≤ cid ∧ (s.cont cid).refs = 0xFFFFFFFF ∧ (s.cont cid).dom = w.dom ∧ (s.cont cid).fp = w.fp) ∧
    (∃ (s : State) (u cid : Nat) (w : WareUnit) (way : Option Nat) (x : Bool) (rest : List (Nat × Option Nat × Bool)), s.grogUnit u = some w ∧ w.phase = .confirm ∧ w.cands = (cid, way, x) :: rest ∧ (s.resident (contentMpa cid) = true ∨ s.back.pageLoc.find (contentMpa cid) = none) ∧ 16 ≤ cid ∧ (s.cont cid).refs ≠ 0 ∧ (s.cont cid).refs ≠ 0xFFFFFFFF ∧ (s.cont cid).dom = w.dom ∧ (s.cont cid).fp = w.fp ∧ w.verify = false) ∧
    (∃ (s : State) (u cid : Nat) (w : WareUnit) (way : Option Nat) (x : Bool) (rest : List (Nat × Option Nat × Bool)), s.grogUnit u = some w ∧ w.phase = .confirm ∧ w.cands = (cid, way, x) :: rest ∧ (s.resident (contentMpa cid) = true ∨ s.back.pageLoc.find (contentMpa cid) = none) ∧ 16 ≤ cid ∧ (s.cont cid).refs ≠ 0 ∧ (s.cont cid).refs ≠ 0xFFFFFFFF ∧ (s.cont cid).dom = w.dom ∧ (s.cont cid).fp = w.fp ∧ w.verify = true ∧ ((s.cont cid).poisoned = true ∨ (s.cont cid).indet = true)) ∧
    (∃ (s : State) (u cid : Nat) (w : WareUnit) (way : Option Nat) (x : Bool) (rest : List (Nat × Option Nat × Bool)), s.grogUnit u = some w ∧ w.phase = .confirm ∧ w.cands = (cid, way, x) :: rest ∧ (s.resident (contentMpa cid) = true ∨ s.back.pageLoc.find (contentMpa cid) = none) ∧ 16 ≤ cid ∧ (s.cont cid).refs ≠ 0 ∧ (s.cont cid).refs ≠ 0xFFFFFFFF ∧ (s.cont cid).dom = w.dom ∧ (s.cont cid).fp = w.fp ∧ w.verify = true ∧ (s.cont cid).poisoned = false ∧ (s.cont cid).indet = false) ∧
    (∃ (s : State) (u cid : Nat) (w : WareUnit) (way : Option Nat) (x : Bool) (rest : List (Nat × Option Nat × Bool)), s.grogUnit u = some w ∧ w.phase = .confirm ∧ w.cands = (cid, way, x) :: rest ∧ s.resident (contentMpa cid) = false ∧ s.back.pageLoc.find (contentMpa cid) ≠ none) ∧
    (∃ (s : State) (u : Nat) (w : WareUnit), s.grogUnit u = some w ∧ w.phase = .confirm ∧ w.cands = []) ∧
    (∃ (s : State) (u : Nat), (∀ w, s.grogUnit u = some w → w.phase ≠ .confirm)) ∧
    (∃ (s v : State) (u cid id : Nat) (w : WareUnit) (way : Option Nat) (x : Bool) (rest : List (Nat × Option Nat × Bool)) (r : ReadUnit), s.grogUnit u = some w ∧ w.phase = .verify ∧ w.cands = (cid, way, x) :: rest ∧ s.verifyRead u = some (id, r) ∧ v = { s with ware.reads := s.ware.reads.del id } ∧ r.phase = .done ∧ (s.cont cid).refs ≠ 0 ∧ (s.cont cid).refs ≠ 0xFFFFFFFF ∧ (s.cont cid).dom = w.dom ∧ (s.cont cid).fp = w.fp) ∧
    (∃ (s v : State) (u cid id : Nat) (w : WareUnit) (way : Option Nat) (x : Bool) (rest : List (Nat × Option Nat × Bool)) (r : ReadUnit), s.grogUnit u = some w ∧ w.phase = .verify ∧ w.cands = (cid, way, x) :: rest ∧ s.verifyRead u = some (id, r) ∧ v = { s with ware.reads := s.ware.reads.del id } ∧ r.phase = .done ∧ ((s.cont cid).refs = 0 ∨ (s.cont cid).dom ≠ w.dom ∨ (s.cont cid).fp ≠ w.fp)) ∧
    (∃ (s v : State) (u cid id : Nat) (w : WareUnit) (way : Option Nat) (x : Bool) (rest : List (Nat × Option Nat × Bool)) (r : ReadUnit), s.grogUnit u = some w ∧ w.phase = .verify ∧ w.cands = (cid, way, x) :: rest ∧ s.verifyRead u = some (id, r) ∧ v = { s with ware.reads := s.ware.reads.del id } ∧ r.phase = .done ∧ (s.cont cid).refs = 0xFFFFFFFF ∧ (s.cont cid).dom = w.dom ∧ (s.cont cid).fp = w.fp) ∧
    (∃ (s v : State) (u cid id : Nat) (w : WareUnit) (way : Option Nat) (x : Bool) (rest : List (Nat × Option Nat × Bool)) (r : ReadUnit) (st : _), s.grogUnit u = some w ∧ w.phase = .verify ∧ w.cands = (cid, way, x) :: rest ∧ s.verifyRead u = some (id, r) ∧ v = { s with ware.reads := s.ware.reads.del id } ∧ r.phase = .failed st) ∧
    (∃ (s v : State) (u cid id : Nat) (w : WareUnit) (way : Option Nat) (x : Bool) (rest : List (Nat × Option Nat × Bool)) (r : ReadUnit), s.grogUnit u = some w ∧ w.phase = .verify ∧ w.cands = (cid, way, x) :: rest ∧ s.verifyRead u = some (id, r) ∧ v = { s with ware.reads := s.ware.reads.del id } ∧ r.phase ≠ .done ∧ (∀ st, r.phase ≠ .failed st)) ∧
    (∃ (s : State) (u : Nat), (∀ w, s.grogUnit u = some w → w.phase ≠ .verify ∨ w.cands = [] ∨ s.verifyRead u = none)) ∧
    (∃ (s : State) (_b : Bool), (s.working (pgGrogQ 0) = false ∨ (∀ r ∈ s.grog.ilog, r.merged = true))) ∧
    (∃ (s : State) (i : Nat) (_b : Bool), s.working (pgGrogQ 0) = true ∧ s.grog.ilog.findIdx? (fun r => !r.merged && (r.remove || !s.grog.indexFull.contains (fpB r.fp))) = some i) ∧
    (∃ (s : State) (i : Nat) (_b : Bool), s.working (pgGrogQ 0) = true ∧ s.grog.ilog.findIdx? (fun r => !r.merged && (r.remove || !s.grog.indexFull.contains (fpB r.fp))) = none ∧ s.grog.ilog.findIdx? (fun r => !r.merged) = some i) ∧
    (∃ (s : State) (r : ILogRec), s.working (pgGrogQ 0) = true ∧ s.grog.ilog = [r] ∧ r.merged = false ∧ r.remove = false ∧ s.grog.indexFull = [] ∧ s.grog.logWait = [] ∧ s.hbmErr (s.ilogAddr 0) 64 = false ∧ s.fidxDir (fpB r.fp) ≤ maxDepth ∧ s.grog.splitting = [] ∧ (s.fidxPage (s.fidxOf r.fp)).ents.any (fun e => e.dom = r.dom && e.tag = fpT r.fp && (s.cont e.cid).fp = r.fp) = false ∧ (s.fidxPage (s.fidxOf r.fp)).ents.length < 255) ∧
    (∃ (s : State) (h : CmdHdr) (d ten mode v p : Nat), Ready s h pgGROG p .work ∧ h.inst = 0xFF ∧ d < 4096 ∧ ten < 16384 ∧ mode ≤ 1 ∧ v ≤ 1 ∧ (s.domEnt d).st ≠ 2 ∧ ((s.domEnt d).st ≠ 1 ∨ (s.domEnt d).tenant = ten)) ∧
    (∃ (s : State) (h : CmdHdr) (d ten mode v p : Nat), Ready s h pgGROG p .work ∧ h.inst = 0xFF ∧ (4096 ≤ d ∨ 16384 ≤ ten ∨ 1 < mode ∨ 1 < v)) ∧
    (∃ (s : State) (h : CmdHdr) (d ten mode v p : Nat), Ready s h pgGROG p .work ∧ h.inst = 0xFF ∧ d < 4096 ∧ ten < 16384 ∧ mode ≤ 1 ∧ v ≤ 1 ∧ (s.domEnt d).st = 2) ∧
    (∃ (s : State) (h : CmdHdr) (d ten mode v p : Nat), Ready s h pgGROG p .work ∧ h.inst = 0xFF ∧ d < 4096 ∧ ten < 16384 ∧ mode ≤ 1 ∧ v ≤ 1 ∧ (s.domEnt d).st = 1 ∧ (s.domEnt d).tenant ≠ ten) ∧
    (∃ (s : State) (h : CmdHdr) (d p : Nat), Ready s h pgGROG p .work ∧ h.inst = 0xFF ∧ d < 4096 ∧ (s.domEnt d).st = 1) ∧
    (∃ (s : State) (h : CmdHdr) (d p : Nat), Ready s h pgGROG p .work ∧ h.inst = 0xFF ∧ 4096 ≤ d) ∧
    (∃ (s : State) (h : CmdHdr) (d p : Nat), Ready s h pgGROG p .work ∧ h.inst = 0xFF ∧ d < 4096 ∧ (s.domEnt d).st = 2) ∧
    (∃ (s : State) (h : CmdHdr) (d p : Nat), Ready s h pgGROG p .work ∧ h.inst = 0xFF ∧ d < 4096 ∧ (s.domEnt d).st ≠ 1 ∧ (s.domEnt d).st ≠ 2) ∧
    (∃ (s : State) (h : CmdHdr) (_d _ten _mode _v _b p : Nat), Ready s h pgGROG p .work ∧ h.inst ≠ 0xFF) ∧
    (∃ (s : State) (d : Nat) (q : _), (s.domEnt d).st = 2 ∧ (s.domEnt d).purge = some q) ∧
    (∃ (s : State) (d : Nat), (s.domEnt d).st ≠ 2) ∧
    (∃ (s : State) (h : CmdHdr) (p : Nat), Ready s h pgGROG p .work ∧ h.inst = 0xFF ∧ s.grog.reconcile = none) ∧
    (∃ (s : State) (h : CmdHdr) (p : Nat), Ready s h pgGROG p .work ∧ h.inst = 0xFF ∧ s.grog.reconcile ≠ none) ∧
    (∃ (s t v : State) (q : Nat) (done : Bool), s.grog.reconcile = some q ∧ s.reinsert ((s.lmap.cids.filter (fun e => decide (s.grog.reconSeq < e.2.createSeq) && s.indexable e.2)).foldl (fun l e => insertCreate e l) []) = (t, done) ∧ v = { t with grog.reconcile := none, grog.mergeCap := t.grog.capNext }) ∧
    (∃ (s : State), s.grog.reconcile = none) ∧
    (∃ (s : State) (h : CmdHdr) (b p : Nat), Ready s h pgGROG p .work ∧ h.inst = 0xFF ∧ b < 2 ^ 26 ∧ s.fidxDir b = dirRebuilding ∧ s.grog.rebuild.find b = none) ∧
    (∃ (s : State) (h : CmdHdr) (b p : Nat), Ready s h pgGROG p .work ∧ h.inst = 0xFF ∧ 2 ^ 26 ≤ b) ∧
    (∃ (s : State) (h : CmdHdr) (b p : Nat), Ready s h pgGROG p .work ∧ h.inst = 0xFF ∧ b < 2 ^ 26 ∧ (s.fidxDir b ≠ dirRebuilding ∨ (s.grog.rebuild.find b).isSome = true)) ∧
    (∃ (s : State) (b q : Nat), s.grog.rebuild.find b = some q ∧ s.lmap.cids = []) ∧
    (∃ (s : State) (b : Nat) (q : _), s.grog.rebuild.find b = some q) ∧
    (∃ (s : State) (b : Nat), s.grog.rebuild.find b = none) :=
  ⟨⟨{ withUnit [pgGrogQ 0] (unit0 (.lookup false)) with mem.bad := [0] }, 1, { cmd := 0, lba := 0, quad := 0, data := [], app := 0, dom := 0, tenant := 0, keySlot := 0, phase := .lookup false, lane := none, held := false, fp := [], way := none, hotOnly := false, verify := false, cands := [], tried := [], probed := false, indexed := false, hit := false, cid := 0, createSeq := 0, form := [], guard := 0, stored := false, tries := 0, eng := none, comp := none }, (unit0 (.lookup false)), false, by decide +kernel⟩,
   ⟨{ withUnit [pgGrogQ 0] (unit0 (.lookup false)) with grog.doms := [(0, { st := 1, tenant := 1 })] }, 1, { cmd := 0, lba := 0, quad := 0, data := [], app := 0, dom := 0, tenant := 0, keySlot := 0, phase := .lookup false, lane := none, held := false, fp := [], way := none, hotOnly := false, verify := false, cands := [], tried := [], probed := false, indexed := false, hit := false, cid := 0, createSeq := 0, form := [], guard := 0, stored := false, tries := 0, eng := none, comp := none }, (unit0 (.lookup false)), false, by decide +kernel⟩,
   ⟨withUnit [pgGrogQ 0] (unit0 (.lookup false)), 1, { cmd := 0, lba := 0, quad := 0, data := [], app := 0, dom := 0, tenant := 0, keySlot := 0, phase := .lookup false, lane := none, held := false, fp := [], way := none, hotOnly := false, verify := false, cands := [], tried := [], probed := false, indexed := false, hit := false, cid := 0, createSeq := 0, form := [], guard := 0, stored := false, tries := 0, eng := none, comp := none }, (unit0 (.lookup false)), false, by decide +kernel⟩,
   ⟨{ withUnit [pgGrogQ 0] (unit0 (.lookup false)) with grog.doms := [(0, { st := 1 })] }, 1, { cmd := 0, lba := 0, quad := 0, data := [], app := 0, dom := 0, tenant := 0, keySlot := 0, phase := .lookup false, lane := none, held := false, fp := [], way := none, hotOnly := false, verify := false, cands := [], tried := [], probed := false, indexed := false, hit := false, cid := 0, createSeq := 0, form := [], guard := 0, stored := false, tries := 0, eng := none, comp := none }, (unit0 (.lookup false)), false, by decide +kernel⟩,
   ⟨{ withUnit [pgGrogQ 0] (unit0 (.lookup false)) with grog.doms := [(0, { st := 1 })], grog.hot := [(0, { valid := true })] }, 1, { cmd := 0, lba := 0, quad := 0, data := [], app := 0, dom := 0, tenant := 0, keySlot := 0, phase := .lookup false, lane := none, held := false, fp := [], way := none, hotOnly := false, verify := false, cands := [], tried := [], probed := false, indexed := false, hit := false, cid := 0, createSeq := 0, form := [], guard := 0, stored := false, tries := 0, eng := none, comp := none }, (unit0 (.lookup false)), false, by decide +kernel⟩,
   ⟨{ withUnit [pgGrogQ 0] { unit0 (.lookup false) with dom := 4 } with mem.bad := [0], grog.doms := [(4, { st := 1 })] }, 1, { cmd := 0, lba := 0, quad := 0, data := [], app := 0, dom := 4, tenant := 0, keySlot := 0, phase := .lookup false, lane := none, held := false, fp := [], way := none, hotOnly := false, verify := false, cands := [], tried := [], probed := false, indexed := false, hit := false, cid := 0, createSeq := 0, form := [], guard := 0, stored := false, tries := 0, eng := none, comp := none }, { unit0 (.lookup false) with dom := 4 }, false, by decide +kernel⟩,
   ⟨State.reset, 1, (by intro w hw; cases hw)⟩,
   ⟨{ withUnit [pgGrogQ 0] (unit0 (.pend 5)) with grog.hot := [(5, { valid := true, pend := true })] }, 1, 5, { cmd := 0, lba := 0, quad := 0, data := [], app := 0, dom := 0, tenant := 0, keySlot := 0, phase := .pend 5, lane := none, held := false, fp := [], way := none, hotOnly := false, verify := false, cands := [], tried := [], probed := false, indexed := false, hit := false, cid := 0, createSeq := 0, form := [], guard := 0, stored := false, tries := 0, eng := none, comp := none }, ({ withUnit [pgGrogQ 0] (unit0 (.pend 5)) with grog.hot := [(5, { valid := true, pend := true })] } : State).hotWay (5 / 4) (5 % 4), by decide +kernel⟩,
   ⟨{ withUnit [pgGrogQ 0] (unit0 (.pend 5)) with grog.hot := [(5, { valid := true })] }, 1, 5, { cmd := 0, lba := 0, quad := 0, data := [], app := 0, dom := 0, tenant := 0, keySlot := 0, phase := .pend 5, lane := none, held := false, fp := [], way := none, hotOnly := false, verify := false, cands := [], tried := [], probed := false, indexed := false, hit := false, cid := 0, createSeq := 0, form := [], guard := 0, stored := false, tries := 0, eng := none, comp := none }, ({ withUnit [pgGrogQ 0] (unit0 (.pend 5)) with grog.hot := [(5, { valid := true })] } : State).hotWay (5 / 4) (5 % 4), by decide +kernel⟩,
   ⟨withUnit [pgGrogQ 0] (unit0 (.pend 5)), 1, 5, { cmd := 0, lba := 0, quad := 0, data := [], app := 0, dom := 0, tenant := 0, keySlot := 0, phase := .pend 5, lane := none, held := false, fp := [], way := none, hotOnly := false, verify := false, cands := [], tried := [], probed := false, indexed := false, hit := false, cid := 0, createSeq := 0, form := [], guard := 0, stored := false, tries := 0, eng := none, comp := none }, (withUnit [pgGrogQ 0] (unit0 (.pend 5)) : State).hotWay (5 / 4) (5 % 4), by decide +kernel⟩,
   ⟨State.reset, 1, (by intro w k hw; cases hw)⟩,
   ⟨withUnit [pgGrogQ 0] (unit0 .probe), 1, { cmd := 0, lba := 0, quad := 0, data := [], app := 0, dom := 0, tenant := 0, keySlot := 0, phase := .probe, lane := none, held := false, fp := [], way := none, hotOnly := false, verify := false, cands := [], tried := [], probed := false, indexed := false, hit := false, cid := 0, createSeq := 0, form := [], guard := 0, stored := false, tries := 0, eng := none, comp := none }, [], by decide +kernel⟩,
   ⟨{ withUnit [pgGrogQ 0] (unit0 .probe) with grog.fidx := [(0, { ents := [⟨0, 0, 16⟩] })] }, 1, { cmd := 0, lba := 0, quad := 0, data := [], app := 0, dom := 0, tenant := 0, keySlot := 0, phase := .probe, lane := none, held := false, fp := [], way := none, hotOnly := false, verify := false, cands := [], tried := [], probed := false, indexed := false, hit := false, cid := 0, createSeq := 0, form := [], guard := 0, stored := false, tries := 0, eng := none, comp := none }, (({ withUnit [pgGrogQ 0] (unit0 .probe) with grog.fidx := [(0, { ents := [⟨0, 0, 16⟩] })] } : State).fidxPage (({ withUnit [pgGrogQ 0] (unit0 .probe) with grog.fidx := [(0, { ents := [⟨0, 0, 16⟩] })] } : State).fidxOf ({ cmd := 0, lba := 0, quad := 0, data := [], app := 0, dom := 0, tenant := 0, keySlot := 0, phase := .probe, lane := none, held := false, fp := [], way := none, hotOnly := false, verify := false, cands := [], tried := [], probed := false, indexed := false, hit := false, cid := 0, createSeq := 0, form := [], guard := 0, stored := false, tries := 0, eng := none, comp := none } : WareUnit).fp)).ents.filter (fun e => e.tag = fpT ({ cmd := 0, lba := 0, quad := 0, data := [], app := 0, dom := 0, tenant := 0, keySlot := 0, phase := .probe, lane := none, held := false, fp := [], way := none, hotOnly := false, verify := false, cands := [], tried := [], probed := false, indexed := false, hit := false, cid := 0, createSeq := 0, form := [], guard := 0, stored := false, tries := 0, eng := none, comp := none } : WareUnit).fp && e.dom = ({ cmd := 0, lba := 0, quad := 0, data := [], app := 0, dom := 0, tenant := 0, keySlot := 0, phase := .probe, lane := none, held := false, fp := [], way := none, hotOnly := false, verify := false, cands := [], tried := [], probed := false, indexed := false, hit := false, cid := 0, createSeq := 0, form := [], guard := 0, stored := false, tries := 0, eng := none, comp := none } : WareUnit).dom), by decide +kernel⟩,
   ⟨{ withUnit [pgGrogQ 0] (unit0 .probe) with grog.dir := [(0, dirRebuilding)] }, 1, { cmd := 0, lba := 0, quad := 0, data := [], app := 0, dom := 0, tenant := 0, keySlot := 0, phase := .probe, lane := none, held := false, fp := [], way := none, hotOnly := false, verify := false, cands := [], tried := [], probed := false, indexed := false, hit := false, cid := 0, createSeq := 0, form := [], guard := 0, stored := false, tries := 0, eng := none, comp := none }, true, by decide +kernel⟩,
   ⟨State.reset, 1, true, (by intro w hw; cases hw)⟩,
   ⟨withUnit [pgGrogQ 0] { unit0 .confirm with cands := [(16, none, false)] }, 1, 16, { cmd := 0, lba := 0, quad := 0, data := [], app := 0, dom := 0, tenant := 0, keySlot := 0, phase := .confirm, lane := none, held := false, fp := [], way := none, hotOnly := false, verify := false, cands := [(16, none, false)], tried := [], probed := false, indexed := false, hit := false, cid := 0, createSeq := 0, form := [], guard := 0, stored := false, tries := 0, eng := none, comp := none }, none, false, [], by decide +kernel⟩,
   ⟨{ withUnit [pgGrogQ 0] { unit0 .confirm with cands := [(16, none, false)] } with lmap.cids := [(16, { refs := 1, fp := [1] })] }, 1, 16, { cmd := 0, lba := 0, quad := 0, data := [], app := 0, dom := 0, tenant := 0, keySlot := 0, phase := .confirm, lane := none, held := false, fp := [], way := none, hotOnly := false, verify := false, cands := [(16, none, false)], tried := [], probed := false, indexed := false, hit := false, cid := 0, createSeq := 0, form := [], guard := 0, stored := false, tries := 0, eng := none, comp := none }, none, false, [], by decide +kernel⟩,
   ⟨{ withUnit [pgGrogQ 0] { unit0 .confirm with cands := [(16, none, false)] } with lmap.cids := [(16, { refs := 0xFFFFFFFF })] }, 1, 16, { cmd := 0, lba := 0, quad := 0, data := [], app := 0, dom := 0, tenant := 0, keySlot := 0, phase := .confirm, lane := none, held := false, fp := [], way := none, hotOnly := false, verify := false, cands := [(16, none, false)], tried := [], probed := false, indexed := false, hit := false, cid := 0, createSeq := 0, form := [], guard := 0, stored := false, tries := 0, eng := none, comp := none }, none, false, [], by decide +kernel⟩,
   ⟨{ withUnit [pgGrogQ 0] { unit0 .confirm with cands := [(16, none, false)] } with lmap.cids := [(16, { refs := 1 })] }, 1, 16, { cmd := 0, lba := 0, quad := 0, data := [], app := 0, dom := 0, tenant := 0, keySlot := 0, phase := .confirm, lane := none, held := false, fp := [], way := none, hotOnly := false, verify := false, cands := [(16, none, false)], tried := [], probed := false, indexed := false, hit := false, cid := 0, createSeq := 0, form := [], guard := 0, stored := false, tries := 0, eng := none, comp := none }, none, false, [], by decide +kernel⟩,
   ⟨{ withUnit [pgGrogQ 0] { unit0 .confirm with cands := [(16, none, false)], verify := true } with lmap.cids := [(16, { refs := 1, poisoned := true })] }, 1, 16, { cmd := 0, lba := 0, quad := 0, data := [], app := 0, dom := 0, tenant := 0, keySlot := 0, phase := .confirm, lane := none, held := false, fp := [], way := none, hotOnly := false, verify := true, cands := [(16, none, false)], tried := [], probed := false, indexed := false, hit := false, cid := 0, createSeq := 0, form := [], guard := 0, stored := false, tries := 0, eng := none, comp := none }, none, false, [], by decide +kernel⟩,
   ⟨{ withUnit [pgGrogQ 0] { unit0 .confirm with cands := [(16, none, false)], verify := true } with lmap.cids := [(16, { refs := 1 })] }, 1, 16, { cmd := 0, lba := 0, quad := 0, data := [], app := 0, dom := 0, tenant := 0, keySlot := 0, phase := .confirm, lane := none, held := false, fp := [], way := none, hotOnly := false, verify := true, cands := [(16, none, false)], tried := [], probed := false, indexed := false, hit := false, cid := 0, createSeq := 0, form := [], guard := 0, stored := false, tries := 0, eng := none, comp := none }, none, false, [], by decide +kernel⟩,
   ⟨{ withUnit [pgGrogQ 0] { unit0 .confirm with cands := [(16, none, false)] } with back.pageLoc := [(contentMpa 16, 5)] }, 1, 16, { cmd := 0, lba := 0, quad := 0, data := [], app := 0, dom := 0, tenant := 0, keySlot := 0, phase := .confirm, lane := none, held := false, fp := [], way := none, hotOnly := false, verify := false, cands := [(16, none, false)], tried := [], probed := false, indexed := false, hit := false, cid := 0, createSeq := 0, form := [], guard := 0, stored := false, tries := 0, eng := none, comp := none }, none, false, [], by decide +kernel⟩,
   ⟨withUnit [pgGrogQ 0] (unit0 .confirm), 1, { cmd := 0, lba := 0, quad := 0, data := [], app := 0, dom := 0, tenant := 0, keySlot := 0, phase := .confirm, lane := none, held := false, fp := [], way := none, hotOnly := false, verify := false, cands := [], tried := [], probed := false, indexed := false, hit := false, cid := 0, createSeq := 0, form := [], guard := 0, stored := false, tries := 0, eng := none, comp := none }, by decide +kernel⟩,
   ⟨State.reset, 1, (by intro w hw; cases hw)⟩,
   ⟨{ withUnit [pgGrogQ 0] { unit0 .verify with cands := [(16, none, false)] } with lmap.cids := [(16, { refs := 1 })], ware.reads := [(3, { read0 .done with cmd := 2 ^ 50 + 1 })] }, { ({ withUnit [pgGrogQ 0] { unit0 .verify with cands := [(16, none, false)] } with lmap.cids := [(16, { refs := 1 })], ware.reads := [(3, { read0 .done with cmd := 2 ^ 50 + 1 })] } : State) with ware.reads := ({ withUnit [pgGrogQ 0] { unit0 .verify with cands := [(16, none, false)] } with lmap.cids := [(16, { refs := 1 })], ware.reads := [(3, { read0 .done with cmd := 2 ^ 50 + 1 })] } : State).ware.reads.del 3 }, 1, 16, 3, { cmd := 0, lba := 0, quad := 0, data := [], app := 0, dom := 0, tenant := 0, keySlot := 0, phase := .verify, lane := none, held := false, fp := [], way := none, hotOnly := false, verify := false, cands := [(16, none, false)], tried := [], probed := false, indexed := false, hit := false, cid := 0, createSeq := 0, form := [], guard := 0, stored := false, tries := 0, eng := none, comp := none }, none, false, [], { cmd := 1125899906842625, idx := 0, lba := 0, cid := 0, app := 0, quad := 0, phase := .done, form := [], data := [], ffPi := false, loc := 0, grains := 0, ops := [], erased := [], tries := 0, eng := none, failed := none }, by decide +kernel, by decide +kernel, by decide +kernel, by decide +kernel, rfl, by decide +kernel, by decide +kernel, by decide +kernel, by decide +kernel, by decide +kernel⟩,
   ⟨{ withUnit [pgGrogQ 0] { unit0 .verify with cands := [(16, none, false)] } with ware.reads := [(3, { read0 .done with cmd := 2 ^ 50 + 1 })] }, { ({ withUnit [pgGrogQ 0] { unit0 .verify with cands := [(16, none, false)] } with ware.reads := [(3, { read0 .done with cmd := 2 ^ 50 + 1 })] } : State) with ware.reads := ({ withUnit [pgGrogQ 0] { unit0 .verify with cands := [(16, none, false)] } with ware.reads := [(3, { read0 .done with cmd := 2 ^ 50 + 1 })] } : State).ware.reads.del 3 }, 1, 16, 3, { cmd := 0, lba := 0, quad := 0, data := [], app := 0, dom := 0, tenant := 0, keySlot := 0, phase := .verify, lane := none, held := false, fp := [], way := none, hotOnly := false, verify := false, cands := [(16, none, false)], tried := [], probed := false, indexed := false, hit := false, cid := 0, createSeq := 0, form := [], guard := 0, stored := false, tries := 0, eng := none, comp := none }, none, false, [], { cmd := 1125899906842625, idx := 0, lba := 0, cid := 0, app := 0, quad := 0, phase := .done, form := [], data := [], ffPi := false, loc := 0, grains := 0, ops := [], erased := [], tries := 0, eng := none, failed := none }, by decide +kernel, by decide +kernel, by decide +kernel, by decide +kernel, rfl, by decide +kernel, by decide +kernel⟩,
   ⟨{ withUnit [pgGrogQ 0] { unit0 .verify with cands := [(16, none, false)] } with lmap.cids := [(16, { refs := 0xFFFFFFFF })], ware.reads := [(3, { read0 .done with cmd := 2 ^ 50 + 1 })] }, { ({ withUnit [pgGrogQ 0] { unit0 .verify with cands := [(16, none, false)] } with lmap.cids := [(16, { refs := 0xFFFFFFFF })], ware.reads := [(3, { read0 .done with cmd := 2 ^ 50 + 1 })] } : State) with ware.reads := ({ withUnit [pgGrogQ 0] { unit0 .verify with cands := [(16, none, false)] } with lmap.cids := [(16, { refs := 0xFFFFFFFF })], ware.reads := [(3, { read0 .done with cmd := 2 ^ 50 + 1 })] } : State).ware.reads.del 3 }, 1, 16, 3, { cmd := 0, lba := 0, quad := 0, data := [], app := 0, dom := 0, tenant := 0, keySlot := 0, phase := .verify, lane := none, held := false, fp := [], way := none, hotOnly := false, verify := false, cands := [(16, none, false)], tried := [], probed := false, indexed := false, hit := false, cid := 0, createSeq := 0, form := [], guard := 0, stored := false, tries := 0, eng := none, comp := none }, none, false, [], { cmd := 1125899906842625, idx := 0, lba := 0, cid := 0, app := 0, quad := 0, phase := .done, form := [], data := [], ffPi := false, loc := 0, grains := 0, ops := [], erased := [], tries := 0, eng := none, failed := none }, by decide +kernel, by decide +kernel, by decide +kernel, by decide +kernel, rfl, by decide +kernel, by decide +kernel, by decide +kernel, by decide +kernel⟩,
   ⟨{ withUnit [pgGrogQ 0] { unit0 .verify with cands := [(16, none, false)] } with ware.reads := [(3, { read0 (.failed scUnrecovered) with cmd := 2 ^ 50 + 1 })] }, { ({ withUnit [pgGrogQ 0] { unit0 .verify with cands := [(16, none, false)] } with ware.reads := [(3, { read0 (.failed scUnrecovered) with cmd := 2 ^ 50 + 1 })] } : State) with ware.reads := ({ withUnit [pgGrogQ 0] { unit0 .verify with cands := [(16, none, false)] } with ware.reads := [(3, { read0 (.failed scUnrecovered) with cmd := 2 ^ 50 + 1 })] } : State).ware.reads.del 3 }, 1, 16, 3, { cmd := 0, lba := 0, quad := 0, data := [], app := 0, dom := 0, tenant := 0, keySlot := 0, phase := .verify, lane := none, held := false, fp := [], way := none, hotOnly := false, verify := false, cands := [(16, none, false)], tried := [], probed := false, indexed := false, hit := false, cid := 0, createSeq := 0, form := [], guard := 0, stored := false, tries := 0, eng := none, comp := none }, none, false, [], { cmd := 1125899906842625, idx := 0, lba := 0, cid := 0, app := 0, quad := 0, phase := .failed 641, form := [], data := [], ffPi := false, loc := 0, grains := 0, ops := [], erased := [], tries := 0, eng := none, failed := none }, 641, by decide +kernel, by decide +kernel, by decide +kernel, by decide +kernel, rfl, by decide +kernel⟩,
   ⟨{ withUnit [pgGrogQ 0] { unit0 .verify with cands := [(16, none, false)] } with ware.reads := [(3, { read0 .decode with cmd := 2 ^ 50 + 1 })] }, { ({ withUnit [pgGrogQ 0] { unit0 .verify with cands := [(16, none, false)] } with ware.reads := [(3, { read0 .decode with cmd := 2 ^ 50 + 1 })] } : State) with ware.reads := ({ withUnit [pgGrogQ 0] { unit0 .verify with cands := [(16, none, false)] } with ware.reads := [(3, { read0 .decode with cmd := 2 ^ 50 + 1 })] } : State).ware.reads.del 3 }, 1, 16, 3, { cmd := 0, lba := 0, quad := 0, data := [], app := 0, dom := 0, tenant := 0, keySlot := 0, phase := .verify, lane := none, held := false, fp := [], way := none, hotOnly := false, verify := false, cands := [(16, none, false)], tried := [], probed := false, indexed := false, hit := false, cid := 0, createSeq := 0, form := [], guard := 0, stored := false, tries := 0, eng := none, comp := none }, none, false, [], { cmd := 1125899906842625, idx := 0, lba := 0, cid := 0, app := 0, quad := 0, phase := .decode, form := [], data := [], ffPi := false, loc := 0, grains := 0, ops := [], erased := [], tries := 0, eng := none, failed := none }, by decide +kernel, by decide +kernel, by decide +kernel, by decide +kernel, rfl, by decide +kernel, (by intro st h; cases h)⟩,
   ⟨State.reset, 1, (by intro w hw; cases hw)⟩,
   ⟨running [pgGrogQ 0], true, (Or.inr (by intro r h; cases h))⟩,
   ⟨{ running [pgGrogQ 0] with grog.ilog := [{ fp := [], cid := 16, dom := 0, createSeq := 0, remove := true }] }, 0, true, by decide +kernel⟩,
   ⟨{ running [pgGrogQ 0] with grog.ilog := [{ fp := [], cid := 16, dom := 0, createSeq := 0 }], grog.indexFull := [0] }, 0, true, by decide +kernel⟩,
   ⟨{ running [pgGrogQ 0] with grog.ilog := [{ fp := [], cid := 16, dom := 0, createSeq := 0 }] }, { fp := [], cid := 16, dom := 0, createSeq := 0, remove := false, merged := false }, by decide +kernel⟩,
   ⟨running [pgEVT, quadPage pgGROG 0], hdr 0xFF, 4095, 16383, 1, 1, quadPage pgGROG 0, by decide +kernel⟩,
   ⟨running [pgEVT, quadPage pgGROG 0], hdr 0xFF, 4095, 16383, 2, 1, quadPage pgGROG 0, by decide +kernel⟩,
   ⟨{ running [pgEVT, quadPage pgGROG 0] with grog.doms := [(4095, { st := 2 })] }, hdr 0xFF, 4095, 16383, 1, 1, quadPage pgGROG 0, by decide +kernel⟩,
   ⟨{ running [pgEVT, quadPage pgGROG 0] with grog.doms := [(4095, { st := 1 })] }, hdr 0xFF, 4095, 16383, 1, 1, quadPage pgGROG 0, by decide +kernel⟩,
   ⟨{ running [pgEVT, quadPage pgGROG 0] with grog.doms := [(4095, { st := 1 })] }, hdr 0xFF, 4095, quadPage pgGROG 0, by decide +kernel⟩,
   ⟨running [pgEVT, quadPage pgGROG 0], hdr 0xFF, 4096, quadPage pgGROG 0, by decide +kernel⟩,
   ⟨{ running [pgEVT, quadPage pgGROG 0] with grog.doms := [(4095, { st := 2 })] }, hdr 0xFF, 4095, quadPage pgGROG 0, by decide +kernel⟩,
   ⟨running [pgEVT, quadPage pgGROG 0], hdr 0xFF, 4095, quadPage pgGROG 0, by decide +kernel⟩,
   ⟨running [pgEVT, quadPage pgGROG 0], hdr 0, 4095, 16383, 1, 1, 2 ^ 26 - 1, quadPage pgGROG 0, by decide +kernel⟩,
   ⟨{ State.reset with grog.doms := [(4095, { st := 2, purge := some 3 })] }, 4095, 3, by decide +kernel⟩,
   ⟨{ withUnit [pgGrogQ 0] (unit0 (.lookup false)) with mem.bad := [0] }, 4095, by decide +kernel⟩,
   ⟨running [pgEVT, quadPage pgGROG 0], hdr 0xFF, quadPage pgGROG 0, by decide +kernel⟩,
   ⟨{ running [pgEVT, quadPage pgGROG 0] with grog.reconcile := some 5 }, hdr 0xFF, quadPage pgGROG 0, by decide +kernel⟩,
   ⟨{ running [pgEVT, quadPage pgGROG 0] with grog.reconcile := some 5 }, (({ running [pgEVT, quadPage pgGROG 0] with grog.reconcile := some 5 } : State).reinsert ((({ running [pgEVT, quadPage pgGROG 0] with grog.reconcile := some 5 } : State).lmap.cids.filter (fun e => decide (({ running [pgEVT, quadPage pgGROG 0] with grog.reconcile := some 5 } : State).grog.reconSeq < e.2.createSeq) && ({ running [pgEVT, quadPage pgGROG 0] with grog.reconcile := some 5 } : State).indexable e.2)).foldl (fun l e => insertCreate e l) [])).1, { ((({ running [pgEVT, quadPage pgGROG 0] with grog.reconcile := some 5 } : State).reinsert ((({ running [pgEVT, quadPage pgGROG 0] with grog.reconcile := some 5 } : State).lmap.cids.filter (fun e => decide (({ running [pgEVT, quadPage pgGROG 0] with grog.reconcile := some 5 } : State).grog.reconSeq < e.2.createSeq) && ({ running [pgEVT, quadPage pgGROG 0] with grog.reconcile := some 5 } : State).indexable e.2)).foldl (fun l e => insertCreate e l) [])).1 : State) with grog.reconcile := none, grog.mergeCap := ((({ running [pgEVT, quadPage pgGROG 0] with grog.reconcile := some 5 } : State).reinsert ((({ running [pgEVT, quadPage pgGROG 0] with grog.reconcile := some 5 } : State).lmap.cids.filter (fun e => decide (({ running [pgEVT, quadPage pgGROG 0] with grog.reconcile := some 5 } : State).grog.reconSeq < e.2.createSeq) && ({ running [pgEVT, quadPage pgGROG 0] with grog.reconcile := some 5 } : State).indexable e.2)).foldl (fun l e => insertCreate e l) [])).1 : State).grog.capNext }, 5, (({ running [pgEVT, quadPage pgGROG 0] with grog.reconcile := some 5 } : State).reinsert ((({ running [pgEVT, quadPage pgGROG 0] with grog.reconcile := some 5 } : State).lmap.cids.filter (fun e => decide (({ running [pgEVT, quadPage pgGROG 0] with grog.reconcile := some 5 } : State).grog.reconSeq < e.2.createSeq) && ({ running [pgEVT, quadPage pgGROG 0] with grog.reconcile := some 5 } : State).indexable e.2)).foldl (fun l e => insertCreate e l) [])).2, by decide +kernel, rfl, rfl⟩,
   ⟨{ withUnit [pgGrogQ 0] (unit0 (.lookup false)) with mem.bad := [0] }, by decide +kernel⟩,
   ⟨{ running [pgEVT, quadPage pgGROG 0] with grog.dir := [(2 ^ 26 - 1, dirRebuilding)] }, hdr 0xFF, 2 ^ 26 - 1, quadPage pgGROG 0, by decide +kernel⟩,
   ⟨running [pgEVT, quadPage pgGROG 0], hdr 0xFF, 2 ^ 26, quadPage pgGROG 0, by decide +kernel⟩,
   ⟨running [pgEVT, quadPage pgGROG 0], hdr 0xFF, 2 ^ 26 - 1, quadPage pgGROG 0, by decide +kernel⟩,
   ⟨{ State.reset with grog.rebuild := [(2 ^ 26 - 1, 3)] }, 2 ^ 26 - 1, 3, by decide +kernel⟩,
   ⟨{ State.reset with grog.rebuild := [(2 ^ 26 - 1, 3)] }, 2 ^ 26 - 1, 3, by decide +kernel⟩,
   ⟨{ withUnit [pgGrogQ 0] (unit0 (.lookup false)) with mem.bad := [0] }, 2 ^ 26 - 1, by decide +kernel⟩⟩

theorem witness_WedgeUnits :
    (∃ (s v : State) (u : Nat) (w : WareUnit) (_bs : List Byte), s.wareUnit u = some w ∧ w.phase = .compress ∧ w.eng.isSome = true ∧ s.working (pgWedgeQ w.quad) = true ∧ s.saggarRead u w = (v, true)) ∧
    (∃ (s v : State) (u : Nat) (w : WareUnit) (_bs : List Byte), s.wareUnit u = some w ∧ w.phase = .compress ∧ w.eng.isSome = true ∧ s.working (pgWedgeQ w.quad) = true ∧ s.saggarRead u w = (v, false)) ∧
    (∃ (s : State) (u : Nat) (_bs : List Byte), (∀ w, s.wareUnit u = some w → w.phase ≠ .compress ∨ w.eng = none ∨ s.working (pgWedgeQ w.quad) = false)) ∧
    (∃ (s : State) (u : Nat) (w : WareUnit) (o : _), s.wareUnit u = some w ∧ w.phase = .check ∧ w.eng.isSome = true ∧ s.working (pgWedgeQ w.quad) = true ∧ pathDecode w.form (guard64 w.data) = .ok o) ∧
    (∃ (s : State) (u : Nat) (w : WareUnit) (e : _), s.wareUnit u = some w ∧ w.phase = .check ∧ w.eng.isSome = true ∧ s.working (pgWedgeQ w.quad) = true ∧ pathDecode w.form (guard64 w.data) = .error e ∧ w.tries = 0) ∧
    (∃ (s : State) (u : Nat) (w : WareUnit) (e : _), s.wareUnit u = some w ∧ w.phase = .check ∧ w.eng.isSome = true ∧ s.working (pgWedgeQ w.quad) = true ∧ pathDecode w.form (guard64 w.data) = .error e ∧ w.tries ≠ 0) ∧
    (∃ (s : State) (u : Nat), (∀ w, s.wareUnit u = some w → w.phase ≠ .check ∨ w.eng = none ∨ s.working (pgWedgeQ w.quad) = false)) ∧
    (∃ (s : State) (k : Nat) (r : ReadUnit) (o : _), s.readUnit k = some r ∧ r.phase = .decode ∧ r.eng.isSome = true ∧ s.working (pgWedgeQ r.quad) = true ∧ pathDecode r.form (s.cont r.cid).guard = .ok o) ∧
    (∃ (s : State) (k : Nat) (r : ReadUnit) (e : _), s.readUnit k = some r ∧ r.phase = .decode ∧ r.eng.isSome = true ∧ s.working (pgWedgeQ r.quad) = true ∧ pathDecode r.form (s.cont r.cid).guard = .error e ∧ r.tries = 0) ∧
    (∃ (s : State) (k : Nat) (r : ReadUnit) (e : _), s.readUnit k = some r ∧ r.phase = .decode ∧ r.eng.isSome = true ∧ s.working (pgWedgeQ r.quad) = true ∧ pathDecode r.form (s.cont r.cid).guard = .error e ∧ r.tries ≠ 0) ∧
    (∃ (s : State) (k : Nat), (∀ r, s.readUnit k = some r → r.phase ≠ .decode ∨ r.eng = none ∨ s.working (pgWedgeQ r.quad) = false)) ∧
    (∃ (s : State) (h : CmdHdr) (desc q : Nat) (_l : List (List Byte)) (o : List Byte), q < 4 ∧ h.inst = q ∧ Ready s h pgWEDGE (quadPage pgWEDGE q) .work ∧ desc % 64 = 0 ∧ (s.wedgeQuad q).jobs = [] ∧ s.jobEngine q desc = true ∧ s.hbmErr desc 64 = false ∧ (s.wedgeDesc desc).bad = false ∧ (s.wedgeDesc desc).op = 2 ∧ (s.wedgeDesc desc).flags = 0 ∧ ((s.wedgeDesc desc).srcLen = 0 ∨ s.hbmErr (s.wedgeDesc desc).src (s.wedgeDesc desc).srcLen = false) ∧ decompress (s.wedgeDesc desc).dstLen (s.hbmRead (s.wedgeDesc desc).src (s.wedgeDesc desc).srcLen) = .ok o) ∧
    (∃ (s : State) (h : CmdHdr) (desc q : Nat) (l : List (List Byte)) (us : List (List Byte × Bool)), q < 4 ∧ h.inst = q ∧ Ready s h pgWEDGE (quadPage pgWEDGE q) .work ∧ desc % 64 = 0 ∧ (s.wedgeQuad q).jobs = [] ∧ s.jobEngine q desc = true ∧ s.hbmErr desc 64 = false ∧ (s.wedgeDesc desc).bad = false ∧ (s.wedgeDesc desc).op = 1 ∧ ((s.wedgeDesc desc).srcLen = 0 ∨ s.hbmErr (s.wedgeDesc desc).src (s.wedgeDesc desc).srcLen = false) ∧ us = jobUnits (s.wedgeDesc desc) (s.hbmRead (s.wedgeDesc desc).src (s.wedgeDesc desc).srcLen) l ∧ (us.flatMap Prod.fst).length ≤ (s.wedgeDesc desc).dstLen) ∧
    (∃ (s t : State) (h : CmdHdr) (desc q st : Nat) (l : List (List Byte)), q < 4 ∧ h.inst = q ∧ Ready s h pgWEDGE (quadPage pgWEDGE q) .work ∧ desc % 64 = 0 ∧ (s.wedgeQuad q).jobs = [] ∧ s.jobEngine q desc = true ∧ (s.consume.bump (fWEDGE_JOBS q)).jobRun desc l = (t, st) ∧ s.hbmErr desc 64 = true) ∧
    (∃ (s t : State) (h : CmdHdr) (desc q st : Nat) (l : List (List Byte)), q < 4 ∧ h.inst = q ∧ Ready s h pgWEDGE (quadPage pgWEDGE q) .work ∧ desc % 64 = 0 ∧ (s.wedgeQuad q).jobs = [] ∧ s.jobEngine q desc = true ∧ (s.consume.bump (fWEDGE_JOBS q)).jobRun desc l = (t, st) ∧ s.hbmErr desc 64 = false ∧ (s.wedgeDesc desc).bad = true) ∧
    (∃ (s : State) (h : CmdHdr) (_desc p : Nat) (_l : List (List Byte)), 4 ≤ h.inst ∧ Ready s { h with inst := 0xFF } pgWEDGE p .work) ∧
    (∃ (s : State) (h : CmdHdr) (desc q : Nat) (_l : List (List Byte)), q < 4 ∧ h.inst = q ∧ Ready s h pgWEDGE (quadPage pgWEDGE q) .work ∧ desc % 64 ≠ 0) ∧
    (∃ (s : State) (h : CmdHdr) (desc q : Nat) (_l : List (List Byte)), q < 4 ∧ h.inst = q ∧ Ready s h pgWEDGE (quadPage pgWEDGE q) .work ∧ desc % 64 = 0 ∧ ((s.wedgeQuad q).jobs ≠ [] ∨ s.jobEngine q desc = false)) :=
  ⟨⟨withUnit [pgWedgeQ 0] (busy (unit0 .compress)), ((withUnit [pgWedgeQ 0] (busy (unit0 .compress)) : State).saggarRead 1 ({ cmd := 0, lba := 0, quad := 0, data := [], app := 0, dom := 0, tenant := 0, keySlot := 0, phase := .compress, lane := none, held := false, fp := [], way := none, hotOnly := false, verify := false, cands := [], tried := [], probed := false, indexed := false, hit := false, cid := 0, createSeq := 0, form := [], guard := 0, stored := false, tries := 0, eng := some 0, comp := none } : WareUnit)).1, 1, { cmd := 0, lba := 0, quad := 0, data := [], app := 0, dom := 0, tenant := 0, keySlot := 0, phase := .compress, lane := none, held := false, fp := [], way := none, hotOnly := false, verify := false, cands := [], tried := [], probed := false, indexed := false, hit := false, cid := 0, createSeq := 0, form := [], guard := 0, stored := false, tries := 0, eng := some 0, comp := none }, List.replicate 4080 0, by decide +kernel, by decide +kernel, by decide +kernel, by decide +kernel, pair_snd _ _ (by decide +kernel)⟩,
   ⟨{ withUnit [pgWedgeQ 0] (busy (unit0 .compress)) with nvf.cmds := [(0, { sqe := sqeOf ocWrite, stageAt := [(0, 1)] })], mem.bad := [0] }, (({ withUnit [pgWedgeQ 0] (busy (unit0 .compress)) with nvf.cmds := [(0, { sqe := sqeOf ocWrite, stageAt := [(0, 1)] })], mem.bad := [0] } : State).saggarRead 1 ({ cmd := 0, lba := 0, quad := 0, data := [], app := 0, dom := 0, tenant := 0, keySlot := 0, phase := .compress, lane := none, held := false, fp := [], way := none, hotOnly := false, verify := false, cands := [], tried := [], probed := false, indexed := false, hit := false, cid := 0, createSeq := 0, form := [], guard := 0, stored := false, tries := 0, eng := some 0, comp := none } : WareUnit)).1, 1, { cmd := 0, lba := 0, quad := 0, data := [], app := 0, dom := 0, tenant := 0, keySlot := 0, phase := .compress, lane := none, held := false, fp := [], way := none, hotOnly := false, verify := false, cands := [], tried := [], probed := false, indexed := false, hit := false, cid := 0, createSeq := 0, form := [], guard := 0, stored := false, tries := 0, eng := some 0, comp := none }, List.replicate 4080 0, by decide +kernel, by decide +kernel, by decide +kernel, by decide +kernel, pair_snd _ _ (by decide +kernel)⟩,
   ⟨State.reset, 1, [], by intro w hw; cases hw⟩,
   ⟨withUnit [pgWedgeQ 0] (busy { unit0 .check with form := zForm, data := zData }), 1, busy { unit0 .check with form := zForm, data := zData }, zData, rfl, rfl, rfl, by decide +kernel, zForm_path⟩,
   ⟨withUnit [pgWedgeQ 0] (busy (unit0 .check)), 1, busy (unit0 .check), weTruncated, rfl, rfl, rfl, by decide +kernel, rfl, rfl⟩,
   ⟨withUnit [pgWedgeQ 0] (busy { unit0 .check with tries := 1 }), 1, busy { unit0 .check with tries := 1 }, weTruncated, rfl, rfl, rfl, by decide +kernel, rfl, by decide⟩,
   ⟨State.reset, 1, by intro w hw; cases hw⟩,
   ⟨{ withRead [pgWedgeQ 0] (reads { read0 .decode with form := zForm }) with lmap.cids := [(0, { refs := 1, guard := guard64 zData })] }, 1, reads { read0 .decode with form := zForm }, zData, rfl, rfl, rfl, by decide +kernel, zForm_path⟩,
   ⟨withRead [pgWedgeQ 0] (reads (read0 .decode)), 1, reads (read0 .decode), weTruncated, rfl, rfl, rfl, by decide +kernel, rfl, rfl⟩,
   ⟨withRead [pgWedgeQ 0] (reads { read0 .decode with tries := 1 }), 1, reads { read0 .decode with tries := 1 }, weTruncated, rfl, rfl, rfl, by decide +kernel, rfl, by decide⟩,
   ⟨State.reset, 1, by intro w hw; cases hw⟩,
   ⟨{ running [pgEVT, quadPage pgWEDGE 3] with mem.cells := [(0, 2), (4, 6), (8, 64), (0x18, 1), (64, 1), (65, 1), (67, 0xFE), (68, 0xFF), (69, 0x41)] }, hdr 3, 0, 3, [], [0x41], by decide, rfl, by decide +kernel, by decide, rfl, by decide +kernel, by decide +kernel, by decide +kernel, by decide +kernel, by decide +kernel, by decide +kernel, gives_eq _ _ (by decide +kernel)⟩,
   ⟨{ running [pgEVT, quadPage pgWEDGE 3] with mem.cells := [(0, 1), (4, 6), (8, 64), (0x18, 255), (64, 1), (65, 1), (67, 0xFE), (68, 0xFF), (69, 0x41)] }, hdr 3, 0, (hdr 3 : CmdHdr).inst, [], jobUnits (({ running [pgEVT, quadPage pgWEDGE 3] with mem.cells := [(0, 1), (4, 6), (8, 64), (0x18, 255), (64, 1), (65, 1), (67, 0xFE), (68, 0xFF), (69, 0x41)] } : State).wedgeDesc 0) (({ running [pgEVT, quadPage pgWEDGE 3] with mem.cells := [(0, 1), (4, 6), (8, 64), (0x18, 255), (64, 1), (65, 1), (67, 0xFE), (68, 0xFF), (69, 0x41)] } : State).hbmRead (({ running [pgEVT, quadPage pgWEDGE 3] with mem.cells := [(0, 1), (4, 6), (8, 64), (0x18, 255), (64, 1), (65, 1), (67, 0xFE), (68, 0xFF), (69, 0x41)] } : State).wedgeDesc 0).src (({ running [pgEVT, quadPage pgWEDGE 3] with mem.cells := [(0, 1), (4, 6), (8, 64), (0x18, 255), (64, 1), (65, 1), (67, 0xFE), (68, 0xFF), (69, 0x41)] } : State).wedgeDesc 0).srcLen) ([] : List (List Byte)), by decide +kernel⟩,
   ⟨{ running [pgEVT, quadPage pgWEDGE 3] with mem.bad := [0] }, ((({ running [pgEVT, quadPage pgWEDGE 3] with mem.bad := [0] } : State).consume.bump (fWEDGE_JOBS ((hdr 3 : CmdHdr).inst : Nat))).jobRun 0 ([] : List (List Byte))).1, hdr 3, 0, (hdr 3 : CmdHdr).inst, ((({ running [pgEVT, quadPage pgWEDGE 3] with mem.bad := [0] } : State).consume.bump (fWEDGE_JOBS ((hdr 3 : CmdHdr).inst : Nat))).jobRun 0 ([] : List (List Byte))).2, [], by decide +kernel, by decide +kernel, by decide +kernel, by decide +kernel, by decide +kernel, by decide +kernel, rfl, by decide +kernel⟩,
   ⟨running [pgEVT, quadPage pgWEDGE 3], (((running [pgEVT, quadPage pgWEDGE 3] : State).consume.bump (fWEDGE_JOBS ((hdr 3 : CmdHdr).inst : Nat))).jobRun 0 ([] : List (List Byte))).1, hdr 3, 0, (hdr 3 : CmdHdr).inst, (((running [pgEVT, quadPage pgWEDGE 3] : State).consume.bump (fWEDGE_JOBS ((hdr 3 : CmdHdr).inst : Nat))).jobRun 0 ([] : List (List Byte))).2, [], by decide +kernel, by decide +kernel, by decide +kernel, by decide +kernel, by decide +kernel, by decide +kernel, rfl, by decide +kernel, by decide +kernel⟩,
   ⟨running [pgEVT, quadPage pgWEDGE 0], hdr 4, 0, quadPage pgWEDGE 0, [], by decide +kernel⟩,
   ⟨{ running [pgEVT, quadPage pgWEDGE 3] with mem.bad := [0] }, hdr 3, 1, (hdr 3 : CmdHdr).inst, [], by decide +kernel⟩,
   ⟨{ running [pgEVT, quadPage pgWEDGE 3] with ware.wedge := [(3, { jobs := [⟨9, 0, []⟩] })] }, hdr 3, 0, (hdr 3 : CmdHdr).inst, [], by decide +kernel⟩⟩

theorem witness_KeysAndDciph :
    (∃ (s : State) (h : CmdHdr) (cls form kek type slot src len flags _ten p : Nat) (key : List Byte), Ready s h pgKEYS p .work ∧ KeysArgs s cls form kek type slot len flags ∧ s.hbmErr src (if form = 0 then len + 8 else len) = false ∧ (if form = 0 then keyUnwrap (s.kek kek) (s.hbmRead src (len + 8)) else some (s.hbmRead src len)) = some key ∧ cls = 0) ∧
    (∃ (s : State) (h : CmdHdr) (cls form kek type slot src len flags _ten p : Nat) (key : List Byte), Ready s h pgKEYS p .work ∧ KeysArgs s cls form kek type slot len flags ∧ s.hbmErr src (if form = 0 then len + 8 else len) = false ∧ (if form = 0 then keyUnwrap (s.kek kek) (s.hbmRead src (len + 8)) else some (s.hbmRead src len)) = some key ∧ cls = 1) ∧
    (∃ (s : State) (h : CmdHdr) (cls form kek type slot src len flags _ten p : Nat) (key : List Byte), Ready s h pgKEYS p .work ∧ KeysArgs s cls form kek type slot len flags ∧ s.hbmErr src (if form = 0 then len + 8 else len) = false ∧ (if form = 0 then keyUnwrap (s.kek kek) (s.hbmRead src (len + 8)) else some (s.hbmRead src len)) = some key ∧ 2 ≤ cls) ∧
    (∃ (s : State) (h : CmdHdr) (cls form kek type slot src len flags _ten p : Nat), Ready s h pgKEYS p .work ∧ KeysArgs s cls form kek type slot len flags ∧ s.hbmErr src (if form = 0 then len + 8 else len) = true) ∧
    (∃ (s : State) (h : CmdHdr) (cls form kek type slot src len flags _ten p : Nat), Ready s h pgKEYS p .work ∧ KeysArgs s cls form kek type slot len flags ∧ s.hbmErr src (len + 8) = false ∧ form = 0 ∧ keyUnwrap (s.kek kek) (s.hbmRead src (len + 8)) = none) ∧
    (∃ (s : State) (h : CmdHdr) (_cls _form _kek _type _slot _src _len _flags _ten p : Nat), Ready s h pgKEYS p .work ∧ s.zeroized = true) ∧
    (∃ (s : State) (h : CmdHdr) (cls form kek type slot _src len _flags _ten p : Nat), Ready s h pgKEYS p .work ∧ s.zeroized = false ∧ (keysBadTarget cls form type slot len = true ∨ s.keysBadKek cls form kek = true)) ∧
    (∃ (s : State) (h : CmdHdr) (cls form kek type slot _src len _flags _ten p : Nat), Ready s h pgKEYS p .work ∧ s.zeroized = false ∧ keysBadTarget cls form type slot len = false ∧ s.keysBadKek cls form kek = false ∧ form = 1 ∧ s.fld fKEYS_CTRL_PLAIN_EN = 0) ∧
    (∃ (s : State) (h : CmdHdr) (cls form kek type slot _src len _flags _ten p : Nat), Ready s h pgKEYS p .work ∧ s.zeroized = false ∧ keysBadTarget cls form type slot len = false ∧ s.keysBadKek cls form kek = false ∧ (form = 1 → s.fld fKEYS_CTRL_PLAIN_EN ≠ 0) ∧ ((cls = 1 ∧ ((s.keyRec slot).type ≠ 0 ∨ (s.sec.clearing.find slot).isSome = true)) ∨ (cls = 0 ∧ s.kekValid slot = true))) ∧
    (∃ (s : State) (h : CmdHdr) (cls form kek type slot _src len flags _ten p : Nat), Ready s h pgKEYS p .work ∧ s.zeroized = false ∧ keysBadTarget cls form type slot len = false ∧ s.keysBadKek cls form kek = false ∧ (form = 1 → s.fld fKEYS_CTRL_PLAIN_EN ≠ 0) ∧ cls = 1 ∧ (s.keyRec slot).type = 0 ∧ s.sec.clearing.find slot = none ∧ flags.testBit 0 = true ∧ 1024 ≤ s.pinnedKeys) ∧
    (∃ (s : State) (h : CmdHdr) (cls k p : Nat), Ready s h pgKEYS p .release ∧ cls = 0 ∧ 1 ≤ k ∧ k ≤ 7) ∧
    (∃ (s : State) (h : CmdHdr) (cls k p : Nat), Ready s h pgKEYS p .release ∧ cls = 1 ∧ k < 65536 ∧ s.slotHeld k = false) ∧
    (∃ (s : State) (h : CmdHdr) (cls k p : Nat), Ready s h pgKEYS p .release ∧ cls = 1 ∧ k < 65536 ∧ s.slotHeld k = true) ∧
    (∃ (s : State) (h : CmdHdr) (cls k p : Nat), Ready s h pgKEYS p .release ∧ cls = 2 ∧ k < 4096) ∧
    (∃ (s : State) (h : CmdHdr) (cls k p : Nat), Ready s h pgKEYS p .release ∧ cls = 3 ∧ k < 4096) ∧
    (∃ (s : State) (h : CmdHdr) (cls k p : Nat), Ready s h pgKEYS p .release ∧ ((cls = 0 ∧ (k = 0 ∨ 7 < k)) ∨ (cls = 1 ∧ 65536 ≤ k) ∨ ((cls = 2 ∨ cls = 3) ∧ 4096 ≤ k) ∨ 3 < cls)) ∧
    (∃ (s : State) (k : Nat) (l : List Nat), s.sec.clearing.find k = some l ∧ s.slotHeld k = false) ∧
    (∃ (s : State) (cls k : Nat), (cls ≠ 1 ∨ s.sec.clearing.find k = none ∨ s.slotHeld k = true)) ∧
    (∃ (s : State) (k : Nat) (key : List Byte), s.sec.bringIn = [k] ∧ s.working pgKEYS = true ∧ s.keyRoom = true ∧ s.zeroized = false ∧ (s.keyRec k).type ≠ 0 ∧ s.hbmErr (s.reg64 rKEYS_WRAP_BASE + 128 * k) 128 = false ∧ s.kekValid (s.keyRec k).kek = true ∧ keyUnwrap (s.kek (s.keyRec k).kek) ((s.keyRec k).wrapped.take ((s.keyRec k).len + 8)) = some key ∧ s.ware.units = [] ∧ s.ware.reads = [] ∧ s.sec.gciph.seg = none) ∧
    (∃ (s v : State) (k : Nat) (b : BringRes), s.sec.bringIn.contains k = true ∧ s.working pgKEYS = true ∧ s.keyRoom = true ∧ s.bringInKey k = (v, b) ∧ b = .active) ∧
    (∃ (s v : State) (k : Nat) (b : BringRes), s.sec.bringIn.contains k = true ∧ s.working pgKEYS = true ∧ s.keyRoom = true ∧ s.bringInKey k = (v, b) ∧ (v.slotWaiters k b).sec.gciph.seg = none) ∧
    (∃ (s v : State) (k : Nat) (b : BringRes) (g : _), s.sec.bringIn.contains k = true ∧ s.working pgKEYS = true ∧ s.keyRoom = true ∧ s.bringInKey k = (v, b) ∧ (v.slotWaiters k b).sec.gciph.seg = some g) ∧
    (∃ (s : State) (k : Nat), (s.sec.bringIn.contains k = false ∨ s.working pgKEYS = false ∨ s.keyRoom = false)) ∧
    (∃ (s : State) (u : Nat) (w : WareUnit) (_a : Option (List Byte)), s.wareUnit u = some w ∧ w.phase = .encrypt ∧ s.working (pgDciphQ w.quad) = true ∧ s.zeroized = true) ∧
    (∃ (s : State) (u : Nat) (w : WareUnit) (a : Option (List Byte)), s.wareUnit u = some w ∧ w.phase = .encrypt ∧ s.working (pgDciphQ w.quad) = true ∧ s.zeroized = false ∧ guard64 (a.getD w.form) ≠ w.guard) ∧
    (∃ (s : State) (u : Nat) (w : WareUnit) (a : Option (List Byte)), s.wareUnit u = some w ∧ w.phase = .encrypt ∧ s.working (pgDciphQ w.quad) = true ∧ s.zeroized = false ∧ guard64 (a.getD w.form) = w.guard ∧ ((s.keyRec w.keySlot).type ≠ 1 ∨ (s.sec.clearing.find w.keySlot).isSome = true)) ∧
    (∃ (s : State) (u : Nat) (w : WareUnit) (a : Option (List Byte)), s.wareUnit u = some w ∧ w.phase = .encrypt ∧ s.working (pgDciphQ w.quad) = true ∧ s.zeroized = false ∧ guard64 (a.getD w.form) = w.guard ∧ (s.keyRec w.keySlot).type = 1 ∧ s.sec.clearing.find w.keySlot = none ∧ (s.keyRec w.keySlot).tenant ≠ w.tenant) ∧
    (∃ (s : State) (u : Nat) (w : WareUnit) (a : Option (List Byte)), s.wareUnit u = some w ∧ w.phase = .encrypt ∧ s.working (pgDciphQ w.quad) = true ∧ s.zeroized = false ∧ guard64 (a.getD w.form) = w.guard ∧ (s.keyRec w.keySlot).type = 1 ∧ s.sec.clearing.find w.keySlot = none ∧ (s.keyRec w.keySlot).tenant = w.tenant ∧ s.activeKey w.keySlot = none) ∧
    (∃ (s : State) (u : Nat) (w : WareUnit) (a : Option (List Byte)) (key : _), s.wareUnit u = some w ∧ w.phase = .encrypt ∧ s.working (pgDciphQ w.quad) = true ∧ s.zeroized = false ∧ guard64 (a.getD w.form) = w.guard ∧ (s.keyRec w.keySlot).type = 1 ∧ s.sec.clearing.find w.keySlot = none ∧ (s.keyRec w.keySlot).tenant = w.tenant ∧ s.activeKey w.keySlot = some key) ∧
    (∃ (s : State) (u : Nat) (_a : Option (List Byte)), (∀ w, s.wareUnit u = some w → w.phase ≠ .encrypt ∨ s.working (pgDciphQ w.quad) = false)) ∧
    (∃ (s : State) (k : Nat) (r : ReadUnit), s.readUnit k = some r ∧ r.phase = .decrypt ∧ s.working (pgDciphQ r.quad) = true ∧ s.zeroized = true) ∧
    (∃ (s : State) (k : Nat) (r : ReadUnit), s.readUnit k = some r ∧ r.phase = .decrypt ∧ s.working (pgDciphQ r.quad) = true ∧ s.zeroized = false ∧ ((s.keyRec (s.cont r.cid).keySlot).type ≠ 1 ∨ (s.sec.clearing.find (s.cont r.cid).keySlot).isSome = true)) ∧
    (∃ (s : State) (k : Nat) (r : ReadUnit), s.readUnit k = some r ∧ r.phase = .decrypt ∧ s.working (pgDciphQ r.quad) = true ∧ s.zeroized = false ∧ (s.keyRec (s.cont r.cid).keySlot).type = 1 ∧ s.sec.clearing.find (s.cont r.cid).keySlot = none ∧ s.activeKey (s.cont r.cid).keySlot = none) ∧
    (∃ (s : State) (k : Nat) (r : ReadUnit) (key : _), s.readUnit k = some r ∧ r.phase = .decrypt ∧ s.working (pgDciphQ r.quad) = true ∧ s.zeroized = false ∧ (s.keyRec (s.cont r.cid).keySlot).type = 1 ∧ s.sec.clearing.find (s.cont r.cid).keySlot = none ∧ s.activeKey (s.cont r.cid).keySlot = some key) ∧
    (∃ (s : State) (k : Nat), (∀ r, s.readUnit k = some r → r.phase ≠ .decrypt ∨ s.working (pgDciphQ r.quad) = false)) :=
  ⟨⟨(running [pgEVT, pgKEYS]).setFld fKEYS_CTRL_PLAIN_EN 1, hdr 0, 0, 1, 1, 1, 7, 0, 32, 0, 65535, pgKEYS, [0, 0, 0, 0, 0, 0, 0, 0, 0, 0, 0, 0, 0, 0, 0, 0, 0, 0, 0, 0, 0, 0, 0, 0, 0, 0, 0, 0, 0, 0, 0, 0], by decide +kernel⟩,
   ⟨{ (running [pgEVT, pgKEYS]).setFld fKEYS_CTRL_PLAIN_EN 1 with sec.keks := [(1, [1])] }, hdr 0, 1, 1, 1, 1, 4095, 0, 64, 0, 65535, pgKEYS, [0, 0, 0, 0, 0, 0, 0, 0, 0, 0, 0, 0, 0, 0, 0, 0, 0, 0, 0, 0, 0, 0, 0, 0, 0, 0, 0, 0, 0, 0, 0, 0, 0, 0, 0, 0, 0, 0, 0, 0, 0, 0, 0, 0, 0, 0, 0, 0, 0, 0, 0, 0, 0, 0, 0, 0, 0, 0, 0, 0, 0, 0, 0, 0], by decide +kernel⟩,
   ⟨(running [pgEVT, pgKEYS]).setFld fKEYS_CTRL_PLAIN_EN 1, hdr 0, 2, 1, 1, 1, 4095, 0, 40, 0, 65535, pgKEYS, [0, 0, 0, 0, 0, 0, 0, 0, 0, 0, 0, 0, 0, 0, 0, 0, 0, 0, 0, 0, 0, 0, 0, 0, 0, 0, 0, 0, 0, 0, 0, 0, 0, 0, 0, 0, 0, 0, 0, 0], by decide +kernel⟩,
   ⟨(running [pgEVT, pgKEYS]).setFld fKEYS_CTRL_PLAIN_EN 1, hdr 0, 0, 1, 1, 1, 7, hbmEnd, 32, 0, 65535, pgKEYS, by decide +kernel⟩,
   ⟨{ (running [pgEVT, pgKEYS]).setFld fKEYS_CTRL_PLAIN_EN 1 with sec.keks := [(1, [1])] }, hdr 0, 1, 0, 1, 3, 65535, 0, 16, 0, 65535, pgKEYS, by decide +kernel, by decide +kernel, by decide +kernel, rfl, unwrap_fails⟩,
   ⟨{ running [pgEVT, pgKEYS] with sec.tamp.zeroized := true }, hdr 0, 0, 1, 1, 1, 4095, 0, 40, 0, 65535, pgKEYS, by decide +kernel⟩,
   ⟨(running [pgEVT, pgKEYS]).setFld fKEYS_CTRL_PLAIN_EN 1, hdr 0, 0, 1, 1, 1, 4095, 0, 40, 0, 65535, pgKEYS, by decide +kernel⟩,
   ⟨(running [pgEVT, pgKEYS]).setFld fKEYS_CTRL_PLAIN_EN 0, hdr 0, 0, 1, 1, 1, 7, 0, 32, 0, 65535, pgKEYS, by decide +kernel⟩,
   ⟨{ (running [pgEVT, pgKEYS]).setFld fKEYS_CTRL_PLAIN_EN 1 with sec.keks := [(7, [1])] }, hdr 0, 0, 1, 1, 1, 7, 0, 32, 0, 65535, pgKEYS, by decide +kernel⟩,
   ⟨{ (running [pgEVT, pgKEYS]).setFld fKEYS_CTRL_PLAIN_EN 1 with sec.keks := [(1, [1])], sec.recs := (List.range 1024).map (fun i => (i, { type := 1, pin := true })) }, hdr 0, 1, 1, 1, 1, 4095, 0, 64, 1, 65535, pgKEYS, by decide +kernel⟩,
   ⟨(running [pgEVT, pgKEYS]).setFld fKEYS_CTRL_PLAIN_EN 1, hdr 0, 0, 5, pgKEYS, by decide +kernel⟩,
   ⟨(running [pgEVT, pgKEYS]).setFld fKEYS_CTRL_PLAIN_EN 1, hdr 0, 1, 5, pgKEYS, by decide +kernel⟩,
   ⟨{ running [pgEVT, pgKEYS] with sec.gciph.msg := some ⟨3, 1, 65535, [], [], [], [], []⟩ }, hdr 0, 1, 65535, pgKEYS, by decide +kernel⟩,
   ⟨(running [pgEVT, pgKEYS]).setFld fKEYS_CTRL_PLAIN_EN 1, hdr 0, 2, 5, pgKEYS, by decide +kernel⟩,
   ⟨(running [pgEVT, pgKEYS]).setFld fKEYS_CTRL_PLAIN_EN 1, hdr 0, 3, 5, pgKEYS, by decide +kernel⟩,
   ⟨(running [pgEVT, pgKEYS]).setFld fKEYS_CTRL_PLAIN_EN 1, hdr 0, 0, 65535, pgKEYS, by decide +kernel⟩,
   ⟨{ State.reset with sec.clearing := [(5, [2])] }, 5, [2], by decide +kernel⟩,
   ⟨(running [pgEVT, pgKEYS]).setFld fKEYS_CTRL_PLAIN_EN 1, 0, 5, by decide +kernel⟩,
   ⟨{ running [pgKEYS] with sec.bringIn := [5], sec.recs := [(5, keyRec0 1)], sec.keks := [(1, [1])] }, 5, [], by decide +kernel⟩,
   ⟨{ running [pgKEYS] with sec.bringIn := [5], sec.recs := [(5, keyRec0 1)], sec.keks := [(1, [1])] }, (({ running [pgKEYS] with sec.bringIn := [5], sec.recs := [(5, keyRec0 1)], sec.keks := [(1, [1])] } : State).bringInKey 5).1, 5, .active, by decide +kernel, by decide +kernel, by decide +kernel, rfl, by decide +kernel⟩,
   ⟨{ running [pgKEYS] with sec.bringIn := [5], sec.recs := [(5, keyRec0 1)], sec.keks := [(1, [1])] }, (({ running [pgKEYS] with sec.bringIn := [5], sec.recs := [(5, keyRec0 1)], sec.keks := [(1, [1])] } : State).bringInKey 5).1, 5, (({ running [pgKEYS] with sec.bringIn := [5], sec.recs := [(5, keyRec0 1)], sec.keks := [(1, [1])] } : State).bringInKey 5).2, by decide +kernel, by decide +kernel, by decide +kernel, rfl, by decide +kernel⟩,
   ⟨{ running [pgKEYS] with sec.bringIn := [5], sec.gciph.seg := some ⟨3, 0, 5⟩ }, (({ running [pgKEYS] with sec.bringIn := [5], sec.gciph.seg := some ⟨3, 0, 5⟩ } : State).bringInKey 5).1, 5, (({ running [pgKEYS] with sec.bringIn := [5], sec.gciph.seg := some ⟨3, 0, 5⟩ } : State).bringInKey 5).2, { cseq := 3, desc := 0, slot := 5 }, by decide +kernel, by decide +kernel, by decide +kernel, rfl, by decide +kernel⟩,
   ⟨(running [pgEVT, pgKEYS]).setFld fKEYS_CTRL_PLAIN_EN 1, 5, by decide +kernel⟩,
   ⟨{ withUnit [pgDciphQ 0] (unit0 .encrypt) with sec.tamp.zeroized := true }, 1, { cmd := 0, lba := 0, quad := 0, data := [], app := 0, dom := 0, tenant := 0, keySlot := 0, phase := .encrypt, lane := none, held := false, fp := [], way := none, hotOnly := false, verify := false, cands := [], tried := [], probed := false, indexed := false, hit := false, cid := 0, createSeq := 0, form := [], guard := 0, stored := false, tries := 0, eng := none, comp := none }, none, by decide +kernel⟩,
   ⟨withUnit [pgDciphQ 0] (unit0 .encrypt), 1, { cmd := 0, lba := 0, quad := 0, data := [], app := 0, dom := 0, tenant := 0, keySlot := 0, phase := .encrypt, lane := none, held := false, fp := [], way := none, hotOnly := false, verify := false, cands := [], tried := [], probed := false, indexed := false, hit := false, cid := 0, createSeq := 0, form := [], guard := 0, stored := false, tries := 0, eng := none, comp := none }, some [1], by decide +kernel⟩,
   ⟨withUnit [pgDciphQ 0] (unit0 .encrypt), 1, { cmd := 0, lba := 0, quad := 0, data := [], app := 0, dom := 0, tenant := 0, keySlot := 0, phase := .encrypt, lane := none, held := false, fp := [], way := none, hotOnly := false, verify := false, cands := [], tried := [], probed := false, indexed := false, hit := false, cid := 0, createSeq := 0, form := [], guard := 0, stored := false, tries := 0, eng := none, comp := none }, none, by decide +kernel⟩,
   ⟨{ withUnit [pgDciphQ 0] { unit0 .encrypt with guard := guard64 [] } with sec.recs := [(0, { type := 1, tenant := 65535 })] }, 1, { cmd := 0, lba := 0, quad := 0, data := [], app := 0, dom := 0, tenant := 0, keySlot := 0, phase := .encrypt, lane := none, held := false, fp := [], way := none, hotOnly := false, verify := false, cands := [], tried := [], probed := false, indexed := false, hit := false, cid := 0, createSeq := 0, form := [], guard := 0, stored := false, tries := 0, eng := none, comp := none }, none, by decide +kernel⟩,
   ⟨{ withUnit [pgDciphQ 0] { unit0 .encrypt with guard := guard64 [] } with sec.recs := [(0, keyRec0 1)] }, 1, { cmd := 0, lba := 0, quad := 0, data := [], app := 0, dom := 0, tenant := 0, keySlot := 0, phase := .encrypt, lane := none, held := false, fp := [], way := none, hotOnly := false, verify := false, cands := [], tried := [], probed := false, indexed := false, hit := false, cid := 0, createSeq := 0, form := [], guard := 0, stored := false, tries := 0, eng := none, comp := none }, none, by decide +kernel⟩,
   ⟨{ withUnit [pgDciphQ 0] { unit0 .encrypt with guard := guard64 [] } with sec.recs := [(0, keyRec0 1)], sec.active := [(0, [1])] }, 1, { cmd := 0, lba := 0, quad := 0, data := [], app := 0, dom := 0, tenant := 0, keySlot := 0, phase := .encrypt, lane := none, held := false, fp := [], way := none, hotOnly := false, verify := false, cands := [], tried := [], probed := false, indexed := false, hit := false, cid := 0, createSeq := 0, form := [], guard := 0, stored := false, tries := 0, eng := none, comp := none }, none, [1], by decide +kernel⟩,
   ⟨(running [pgEVT, pgKEYS]).setFld fKEYS_CTRL_PLAIN_EN 1, 1, none, (by intro w hw; cases hw)⟩,
   ⟨{ withRead [pgDciphQ 0] (read0 .decrypt) with sec.tamp.zeroized := true }, 1, { cmd := 0, idx := 0, lba := 0, cid := 0, app := 0, quad := 0, phase := .decrypt, form := [], data := [], ffPi := false, loc := 0, grains := 0, ops := [], erased := [], tries := 0, eng := none, failed := none }, by decide +kernel⟩,
   ⟨withRead [pgDciphQ 0] (read0 .decrypt), 1, { cmd := 0, idx := 0, lba := 0, cid := 0, app := 0, quad := 0, phase := .decrypt, form := [], data := [], ffPi := false, loc := 0, grains := 0, ops := [], erased := [], tries := 0, eng := none, failed := none }, by decide +kernel⟩,
   ⟨{ withRead [pgDciphQ 0] (read0 .decrypt) with sec.recs := [(0, keyRec0 1)] }, 1, { cmd := 0, idx := 0, lba := 0, cid := 0, app := 0, quad := 0, phase := .decrypt, form := [], data := [], ffPi := false, loc := 0, grains := 0, ops := [], erased := [], tries := 0, eng := none, failed := none }, by decide +kernel⟩,
   ⟨{ withRead [pgDciphQ 0] (read0 .decrypt) with sec.recs := [(0, keyRec0 1)], sec.active := [(0, [1])] }, 1, { cmd := 0, idx := 0, lba := 0, cid := 0, app := 0, quad := 0, phase := .decrypt, form := [], data := [], ffPi := false, loc := 0, grains := 0, ops := [], erased := [], tries := 0, eng := none, failed := none }, [1], by decide +kernel⟩,
   ⟨(running [pgEVT, pgKEYS]).setFld fKEYS_CTRL_PLAIN_EN 1, 5, (by intro w hw; cases hw)⟩⟩

theorem witness_Tamper :
    (∃ (s : State) (n v : Nat) (alarm : Bool), n < 6 ∧ v < 2 ^ 16 ∧ (alarm = true → (s.fld fTAMP_CLASS).testBit n = false) ∧ (if alarm then tampAlarms n v else tampWarns n v) = true) ∧
    (∃ (_s : State) (n v : Nat), (6 ≤ n ∨ tampWarns n v = false)) ∧
    (∃ (s : State) (n v : Nat), (6 ≤ n ∨ (s.fld fTAMP_CLASS).testBit n = true ∨ tampAlarms n v = false)) ∧
    (∃ (s : State) (n v _z : Nat), n < 6 ∧ (s.fld fTAMP_CLASS).testBit n = true ∧ tampAlarms n v = true ∧ s.sec.tamp.zeroEnd ≤ s.now) ∧
    (∃ (s : State) (n v _z : Nat), n < 6 ∧ (s.fld fTAMP_CLASS).testBit n = true ∧ tampAlarms n v = true ∧ s.now < s.sec.tamp.zeroEnd) ∧
    (∃ (s : State) (n v _z : Nat), (6 ≤ n ∨ (s.fld fTAMP_CLASS).testBit n = false ∨ tampAlarms n v = false)) ∧
    (∃ (s : State) (id : Nat) (core : Bool), Reaches s pgGCIPH ∧ id < 256 ∧ (core = false ∨ (1 ≤ id ∧ id < 0xF0)) ∧ s.sec.gciph.lock = .free) ∧
    (∃ (s : State) (id : Nat) (core : Bool), Reaches s pgGCIPH ∧ id < 256 ∧ (core = false ∨ (1 ≤ id ∧ id < 0xF0)) ∧ s.sec.gciph.lock = .held ∧ s.sec.gciph.owner = id) ∧
    (∃ (s : State) (id : Nat) (core : Bool), Reaches s pgGCIPH ∧ id < 256 ∧ (core = false ∨ (1 ≤ id ∧ id < 0xF0)) ∧ s.sec.gciph.lock = .held ∧ s.sec.gciph.owner ≠ id) ∧
    (∃ (s : State) (id : Nat) (core : Bool), Reaches s pgGCIPH ∧ id < 256 ∧ (core = false ∨ (1 ≤ id ∧ id < 0xF0)) ∧ s.sec.gciph.lock = .locked) ∧
    (∃ (s : State) (id : Nat) (core : Bool), Reaches s pgGCIPH ∧ id < 256 ∧ (core = false ∨ (1 ≤ id ∧ id < 0xF0)) ∧ s.sec.gciph.lock = .held ∧ s.sec.gciph.owner = id) ∧
    (∃ (s : State) (id : Nat) (core : Bool), Reaches s pgGCIPH ∧ id < 256 ∧ (core = false ∨ (1 ≤ id ∧ id < 0xF0)) ∧ s.sec.gciph.lock = .held ∧ s.sec.gciph.owner = id ∧ s.sec.gciph.msg = none ∧ s.sec.gciph.seg = none ∧ s.sec.gciph.arm = false) ∧
    (∃ (s : State) (id : Nat) (core : Bool), Reaches s pgGCIPH ∧ id < 256 ∧ (core = false ∨ (1 ≤ id ∧ id < 0xF0)) ∧ (s.sec.gciph.lock ≠ .held ∨ s.sec.gciph.owner ≠ id)) ∧
    (∃ (s : State) (id : Nat), Reaches s pgGCIPH ∧ (id = 0 ∨ 0xF0 ≤ id)) ∧
    (∃ (_s : State) (id : Nat) (_core : Bool), 256 ≤ id) ∧
    (∃ (s : State) (id : Nat) (_core : Bool), s.pageOn pgGCIPH = false ∧ id < 256) ∧
    (∃ (s : State), s.sec.gciph.lock = .held ∧ Reaches s pgGCIPH) ∧
    (∃ (s : State), s.sec.gciph.lock ≠ .held ∧ Reaches s pgGCIPH) ∧
    (∃ (_s : State) (n : Nat), n ≠ 0) ∧
    (∃ (s : State) (h : CmdHdr) (d p : Nat), Ready s h pgGCIPH p (s.gcClass d) ∧ s.sec.gciph.lock = .locked) ∧
    (∃ (s : State) (h : CmdHdr) (d p : Nat), Ready s h pgGCIPH p (s.gcClass d) ∧ s.sec.gciph.lock ≠ .locked ∧ d % 128 ≠ 0) ∧
    (∃ (s : State) (h : CmdHdr) (d p : Nat), Ready s h pgGCIPH p (s.gcClass d) ∧ s.sec.gciph.lock ≠ .locked ∧ d % 128 = 0 ∧ s.hbmErr d 128 = true) ∧
    (∃ (s : State) (h : CmdHdr) (d p : Nat), Ready s h pgGCIPH p (s.gcClass d) ∧ s.sec.gciph.lock ≠ .locked ∧ d % 128 = 0 ∧ s.hbmErr d 128 = false ∧ (s.sec.gciph.lock = .free ∨ s.hbmNat d 1 ≠ s.sec.gciph.owner)) ∧
    (∃ (s : State) (h : CmdHdr) (d p : Nat), Ready s h pgGCIPH p (s.gcClass d) ∧ s.sec.gciph.lock = .held ∧ s.hbmNat d 1 = s.sec.gciph.owner ∧ d % 128 = 0 ∧ s.hbmErr d 128 = false ∧ s.sec.gciph.seg.isSome = true) ∧
    (∃ (s : State) (h : CmdHdr) (d p : Nat) (u : State) (n st : Nat), Ready s h pgGCIPH p (s.gcClass d) ∧ s.sec.gciph.lock = .held ∧ s.hbmNat d 1 = s.sec.gciph.owner ∧ d % 128 = 0 ∧ s.hbmErr d 128 = false ∧ s.sec.gciph.seg = none ∧ s.consume.gcSegment d = (u, .ended n st)) ∧
    (∃ (s : State) (h : CmdHdr) (d p : Nat) (u : State) (k : Nat), Ready s h pgGCIPH p (s.gcClass d) ∧ s.sec.gciph.lock = .held ∧ s.hbmNat d 1 = s.sec.gciph.owner ∧ d % 128 = 0 ∧ s.hbmErr d 128 = false ∧ s.sec.gciph.seg = none ∧ s.consume.gcSegment d = (u, .waits k)) ∧
    (∃ (s : State) (h : CmdHdr) (d p : Nat) (g : GcDesc), Ready s h pgGCIPH p .work ∧ s.sec.gciph.lock = .held ∧ s.hbmNat d 1 = s.sec.gciph.owner ∧ d % 128 = 0 ∧ s.hbmErr d 128 = false ∧ s.sec.gciph.seg = none ∧ s.sec.gciph.msg = none ∧ g = s.gcDesc d ∧ g.mode = 1 ∧ g.first = true ∧ g.last = true ∧ g.cls = 0 ∧ 1 ≤ g.key ∧ g.key ≤ 7 ∧ s.kekValid g.key = true ∧ 16 ≤ g.len ∧ g.len ≤ 4096 ∧ g.len % 8 = 0 ∧ s.hbmErr g.src g.len = false ∧ g.dst + g.len + 8 ≤ hbmEnd) :=
  ⟨⟨State.reset, 4, 1101, false, by decide +kernel⟩,
   ⟨State.reset, 4, 65535, by decide +kernel⟩,
   ⟨State.reset, 4, 1101, by decide +kernel⟩,
   ⟨State.reset, 4, 1251, 0, by decide +kernel⟩,
   ⟨{ State.reset.setFld fTAMP_CLASS 32 with sec.tamp.zeroEnd := 1 }, 5, 0, 0, by decide +kernel⟩,
   ⟨State.reset, 4, 1101, 0, by decide +kernel⟩,
   ⟨State.reset, 0xEF, true, by decide +kernel⟩,
   ⟨{ State.reset with sec.gciph := { lock := .held, owner := 0xEF } }, ({ State.reset with sec.gciph := { lock := .held, owner := 0xEF } } : State).sec.gciph.owner, true, by decide +kernel⟩,
   ⟨{ State.reset with sec.gciph := { lock := .held, owner := 0xEF } }, 1, true, by decide +kernel⟩,
   ⟨{ State.reset with sec.gciph := { lock := .locked } }, 0xEF, true, by decide +kernel⟩,
   ⟨{ State.reset with sec.gciph := { lock := .held, owner := 0xEF } }, ({ State.reset with sec.gciph := { lock := .held, owner := 0xEF } } : State).sec.gciph.owner, true, by decide +kernel⟩,
   ⟨{ State.reset with sec.gciph := { lock := .held, owner := 0xEF } }, ({ State.reset with sec.gciph := { lock := .held, owner := 0xEF } } : State).sec.gciph.owner, true, by decide +kernel⟩,
   ⟨State.reset, 0xEF, true, by decide +kernel⟩,
   ⟨State.reset, 0xF0, by decide +kernel⟩,
   ⟨State.reset, 256, true, by decide +kernel⟩,
   ⟨{ State.reset with plat.pwr.doms := [(1, { st := .banked })] }, 0xEF, true, by decide +kernel⟩,
   ⟨{ State.reset with sec.gciph := { lock := .held, owner := 0xEF } }, by decide +kernel⟩,
   ⟨State.reset, by decide +kernel⟩,
   ⟨State.reset, 4, by decide +kernel⟩,
   ⟨{ running [pgEVT, pgGCIPH] with sec.gciph := { lock := .locked } }, hdr 0, 128, pgGCIPH, by decide +kernel⟩,
   ⟨{ running [pgEVT, pgGCIPH] with sec.gciph := { lock := .held } }, hdr 0, 1, pgGCIPH, by decide +kernel⟩,
   ⟨{ running [pgEVT, pgGCIPH] with sec.gciph := { lock := .held } }, hdr 0, hbmEnd, pgGCIPH, by decide +kernel⟩,
   ⟨{ running [pgEVT, pgGCIPH] with sec.gciph := { lock := .free } }, hdr 0, 128, pgGCIPH, by decide +kernel⟩,
   ⟨{ running [pgEVT, pgGCIPH] with sec.gciph := { lock := .held, seg := some ⟨5, 0, 5⟩ } }, hdr 0, 128, pgGCIPH, by decide +kernel⟩,
   ⟨{ running [pgEVT, pgGCIPH] with sec.gciph := { lock := .held } }, hdr 0, 128, pgGCIPH, (({ running [pgEVT, pgGCIPH] with sec.gciph := { lock := .held } } : State).consume.gcSegment 128).1, 0, 1, by decide +kernel, by decide +kernel, by decide +kernel, by decide +kernel, by decide +kernel, by decide +kernel, rfl⟩,
   ⟨{ running [pgEVT, pgGCIPH] with sec.gciph := { lock := .held }, mem.cells := [(1, 3), (2, 3), (3, 1), (4, 5)], sec.recs := [(5, keyRec0 3)] }, hdr 0, 0, pgGCIPH, (({ running [pgEVT, pgGCIPH] with sec.gciph := { lock := .held }, mem.cells := [(1, 3), (2, 3), (3, 1), (4, 5)], sec.recs := [(5, keyRec0 3)] } : State).consume.gcSegment 0).1, 5, by decide +kernel, by decide +kernel, by decide +kernel, by decide +kernel, by decide +kernel, by decide +kernel, rfl⟩,
   ⟨{ running [pgEVT, pgGCIPH] with sec.gciph := { lock := .held, owner := 1 }, mem.cells := [(128, 1), (129, 1), (130, 3), (132, 1), (136, 16)], sec.keks := [(1, [1])] }, hdr 0, 128, pgGCIPH, ({ running [pgEVT, pgGCIPH] with sec.gciph := { lock := .held, owner := 1 }, mem.cells := [(128, 1), (129, 1), (130, 3), (132, 1), (136, 16)], sec.keks := [(1, [1])] } : State).gcDesc 128, by decide +kernel⟩⟩

theorem witness_Volumes :
    (∃ (s : State) (h : CmdHdr) (v ten d k size p : Nat), Ready s h pgLMAP p .work ∧ 0 < size ∧ size ≤ 2 ^ 36 ∧ v < 65536 ∧ ten < 16384 ∧ (s.plat.chip.shelf = true ∨ (d < 4096 ∧ s.foreignDomain d ten = false ∧ s.foreignSlot k ten = false)) ∧ s.homeless ten = false ∧ (s.vol v).kind = 0) ∧
    (∃ (s : State) (h : CmdHdr) (v ten d _k size p : Nat), Ready s h pgLMAP p .work ∧ (size = 0 ∨ 2 ^ 36 < size ∨ 65536 ≤ v ∨ 16384 ≤ ten ∨ (s.plat.chip.shelf = false ∧ 4096 ≤ d) ∨ s.homeless ten = true)) ∧
    (∃ (s : State) (h : CmdHdr) (v ten d _k size p : Nat), Ready s h pgLMAP p .work ∧ 0 < size ∧ size ≤ 2 ^ 36 ∧ v < 65536 ∧ ten < 16384 ∧ (s.plat.chip.shelf = true ∨ d < 4096) ∧ s.homeless ten = false ∧ (s.vol v).kind ≠ 0) ∧
    (∃ (s : State) (h : CmdHdr) (v ten d k size p : Nat), Ready s h pgLMAP p .work ∧ 0 < size ∧ size ≤ 2 ^ 36 ∧ v < 65536 ∧ ten < 16384 ∧ (s.plat.chip.shelf = true ∨ d < 4096) ∧ s.homeless ten = false ∧ (s.vol v).kind = 0 ∧ s.plat.chip.shelf = false ∧ (s.foreignDomain d ten = true ∨ s.foreignSlot k ten = true)) ∧
    (∃ (s : State) (h : CmdHdr) (v size p : Nat), Ready s h pgLMAP p .work ∧ VolOpen s v ∧ (s.vol v).kind ≠ 3 ∧ s.resizeNeed v size = none ∧ (s.vol v).size ≤ size ∧ size ≤ 2 ^ 36 ∧ 0 < size ∧ s.levelsFor size ≤ (s.vol v).levels) ∧
    (∃ (s t : State) (h : CmdHdr) (v size st p : Nat), Ready s h pgLMAP p .work ∧ VolOpen s v ∧ (s.vol v).kind ≠ 3 ∧ 0 < size ∧ size ≤ 2 ^ 36 ∧ s.resizeNeed v size = none ∧ s.consume.resize v size = (t, st)) ∧
    (∃ (s : State) (h : CmdHdr) (v size p m : Nat), Ready s h pgLMAP p .work ∧ VolOpen s v ∧ (s.vol v).kind ≠ 3 ∧ 0 < size ∧ size ≤ 2 ^ 36 ∧ s.resizeNeed v size = some m) ∧
    (∃ (s : State) (h : CmdHdr) (v size p : Nat), Ready s h pgLMAP p .work ∧ (size = 0 ∨ 2 ^ 36 < size ∨ 65536 ≤ v ∨ (s.vol v).kind = 0 ∨ (s.vol v).deleting.isSome = true)) ∧
    (∃ (s : State) (h : CmdHdr) (v size p : Nat), Ready s h pgLMAP p .work ∧ 0 < size ∧ size ≤ 2 ^ 36 ∧ v < 65536 ∧ (s.vol v).kind ≠ 0 ∧ (s.vol v).deleting = none ∧ s.volBad v = true) ∧
    (∃ (s : State) (h : CmdHdr) (v size p : Nat), Ready s h pgLMAP p .work ∧ 0 < size ∧ size ≤ 2 ^ 36 ∧ v < 65536 ∧ (s.vol v).kind ≠ 0 ∧ (s.vol v).deleting = none ∧ s.volBad v = false ∧ ((s.slip.reps.get {} v).role ≠ 0 ∨ (s.lmap.resizes.find v).isSome = true)) ∧
    (∃ (s : State) (h : CmdHdr) (v size p : Nat), Ready s h pgLMAP p .work ∧ 0 < size ∧ size ≤ 2 ^ 36 ∧ v < 65536 ∧ (s.vol v).kind ≠ 0 ∧ (s.vol v).deleting = none ∧ VolOpen s v ∧ (s.vol v).kind = 3) ∧
    (∃ (s : State) (h : CmdHdr) (v p : Nat), Ready s h pgLMAP p .work ∧ VolOpen s v ∧ (s.vol v).moulds = 0 ∧ (s.volInUse v = true ∨ (s.freeNeed (s.ownedPages v)).isSome = true)) ∧
    (∃ (s : State) (h : CmdHdr) (v p : Nat), Ready s h pgLMAP p .work ∧ VolOpen s v ∧ (s.vol v).moulds = 0 ∧ s.volInUse v = false ∧ s.freeNeed (s.ownedPages v) = none) ∧
    (∃ (s : State) (h : CmdHdr) (v p : Nat), Ready s h pgLMAP p .work ∧ (65536 ≤ v ∨ (s.vol v).kind = 0 ∨ (s.vol v).deleting.isSome = true)) ∧
    (∃ (s : State) (h : CmdHdr) (v p : Nat), Ready s h pgLMAP p .work ∧ v < 65536 ∧ (s.vol v).kind ≠ 0 ∧ (s.vol v).deleting = none ∧ s.volBad v = true) ∧
    (∃ (s : State) (h : CmdHdr) (v p : Nat), Ready s h pgLMAP p .work ∧ v < 65536 ∧ (s.vol v).kind ≠ 0 ∧ (s.vol v).deleting = none ∧ s.volBad v = false ∧ ((s.slip.reps.get {} v).role ≠ 0 ∨ (s.lmap.resizes.find v).isSome = true)) ∧
    (∃ (s : State) (h : CmdHdr) (v p : Nat), Ready s h pgLMAP p .work ∧ v < 65536 ∧ (s.vol v).kind ≠ 0 ∧ (s.vol v).deleting = none ∧ VolOpen s v ∧ (s.vol v).moulds ≠ 0) ∧
    (∃ (s : State) (h : CmdHdr) (ten _cap p : Nat), Ready s h pgLMAP p .work ∧ ten < 16384) ∧
    (∃ (s : State) (h : CmdHdr) (ten _cap p : Nat), Ready s h pgLMAP p .work ∧ 16384 ≤ ten) ∧
    (∃ (s : State) (m : Nat) (_f : CodewordTry), s.lmap.wanted = [m] ∧ s.lmap.fetchLoc = [] ∧ s.dirAbsent m = false ∧ s.nvf.cmds = [] ∧ s.lmap.resizes = [] ∧ s.lmap.vols = [] ∧ s.resident m = false ∧ s.lmap.frames.length < 10485760) ∧
    (∃ (s t u : State) (m : Nat) (f : CodewordTry) (there : Bool), s.lmap.wanted.contains m = true ∧ s.dirAbsent m = false ∧ s.fetchPage m f = (t, there) ∧ u = { t.bump fFTL_MAP_READS with lmap.wanted := t.lmap.wanted.filter (· ≠ m) }) ∧
    (∃ (s : State) (m : Nat) (_f : CodewordTry), (s.lmap.wanted.contains m = false ∨ s.dirAbsent m = true)) ∧
    (∃ (s u : State) (m : Nat) (x : Nat × Nat × Nat), s.lmap.dirty.contains m = true ∧ s.working pgLMAP = true ∧ s.placePage m = (u, some x)) ∧
    (∃ (s u : State) (m : Nat), s.lmap.dirty.contains m = true ∧ s.working pgLMAP = true ∧ s.placePage m = (u, none)) ∧
    (∃ (s : State) (m : Nat), (s.lmap.dirty.contains m = false ∨ s.working pgLMAP = false)) :=
  ⟨⟨{ running [pgEVT, pgLMAP] with grog.doms := [(4095, { st := 1 })], plat.chip.heads := 1 }, hdr 0, 65535, 16383, 0, 0, 2 ^ 36, pgLMAP, by decide +kernel⟩,
   ⟨running [pgEVT, pgLMAP], hdr 0, 65535, 16383, 4095, 0, 2 ^ 36, pgLMAP, by decide +kernel⟩,
   ⟨{ running [pgEVT, pgLMAP] with lmap.vols := [(65535, { kind := 1 })], plat.chip.heads := 1 }, hdr 0, 65535, 16383, 4095, 0, 2 ^ 36, pgLMAP, by decide +kernel⟩,
   ⟨{ running [pgEVT, pgLMAP] with grog.doms := [(4095, { st := 1 })], plat.chip.heads := 1 }, hdr 0, 65535, 16383, 4095, 0, 2 ^ 36, pgLMAP, by decide +kernel⟩,
   ⟨{ running [pgEVT, pgLMAP] with lmap.vols := [(65535, { kind := 1, size := 8, levels := 1 })] }, hdr 0, 65535, 8, pgLMAP, by decide +kernel⟩,
   ⟨{ running [pgEVT, pgLMAP] with lmap.vols := [(65535, { kind := 1, size := 8, levels := 1 })] }, (({ running [pgEVT, pgLMAP] with lmap.vols := [(65535, { kind := 1, size := 8, levels := 1 })] } : State).consume.resize 65535 (2 ^ 36 : Nat)).1, hdr 0, 65535, 2 ^ 36, (({ running [pgEVT, pgLMAP] with lmap.vols := [(65535, { kind := 1, size := 8, levels := 1 })] } : State).consume.resize 65535 (2 ^ 36 : Nat)).2, pgLMAP, by decide +kernel, by decide +kernel, by decide +kernel, by decide +kernel, by decide +kernel, by decide +kernel, rfl⟩,
   ⟨{ running [pgEVT, pgLMAP] with lmap.vols := [(65535, { kind := 1, size := 8, levels := 1, root := 7 })], lmap.pages := [(7, { owner := 65535, level := 1, ents := [(5, { a := 16 })] })], back.pageLoc := [(7, 9)] }, hdr 0, 65535, 4, pgLMAP, 7, by decide +kernel⟩,
   ⟨running [pgEVT, pgLMAP], hdr 0, 65535, 2 ^ 36, pgLMAP, by decide +kernel⟩,
   ⟨{ running [pgEVT, pgLMAP] with lmap.vols := [(65535, { kind := 1, size := 8, levels := 1 })], mem.bad := [65535, 65536, 65534, 0] }, hdr 0, 65535, 2 ^ 36, pgLMAP, by decide +kernel⟩,
   ⟨{ running [pgEVT, pgLMAP] with lmap.vols := [(65535, { kind := 1, size := 8, levels := 1 })], slip.reps := [(65535, { role := 1 })] }, hdr 0, 65535, 2 ^ 36, pgLMAP, by decide +kernel⟩,
   ⟨{ running [pgEVT, pgLMAP] with lmap.vols := [(65535, { kind := 3, size := 8, levels := 1 })] }, hdr 0, 65535, 2 ^ 36, pgLMAP, by decide +kernel⟩,
   ⟨{ running [pgEVT, pgLMAP] with lmap.vols := [(65535, { kind := 1, size := 8, levels := 1, root := 7 })], lmap.pages := [(7, { owner := 65535, level := 1, ents := [(5, { a := 16 })] })], back.pageLoc := [(7, 9)] }, hdr 0, 65535, pgLMAP, by decide +kernel⟩,
   ⟨{ running [pgEVT, pgLMAP] with lmap.vols := [(65535, { kind := 1, size := 8, levels := 1 })] }, hdr 0, 65535, pgLMAP, by decide +kernel⟩,
   ⟨running [pgEVT, pgLMAP], hdr 0, 65535, pgLMAP, by decide +kernel⟩,
   ⟨{ running [pgEVT, pgLMAP] with lmap.vols := [(65535, { kind := 1, size := 8, levels := 1 })], mem.bad := [65535, 65536, 65534, 0] }, hdr 0, 65535, pgLMAP, by decide +kernel⟩,
   ⟨{ running [pgEVT, pgLMAP] with lmap.vols := [(65535, { kind := 1, size := 8, levels := 1 })], slip.reps := [(65535, { role := 1 })] }, hdr 0, 65535, pgLMAP, by decide +kernel⟩,
   ⟨{ running [pgEVT, pgLMAP] with lmap.vols := [(65535, { kind := 1, size := 8, levels := 1, moulds := 1 })] }, hdr 0, 65535, pgLMAP, by decide +kernel⟩,
   ⟨running [pgEVT, pgLMAP], hdr 0, 16383, 2 ^ 64 - 1, pgLMAP, by decide +kernel⟩,
   ⟨running [pgEVT, pgLMAP], hdr 0, 16384, 2 ^ 64 - 1, pgLMAP, by decide +kernel⟩,
   ⟨{ State.reset with lmap.wanted := [5] }, 5, ⟨[], []⟩, by decide +kernel⟩,
   ⟨{ State.reset with lmap.wanted := [5] }, (({ State.reset with lmap.wanted := [5] } : State).fetchPage 5 (⟨[], []⟩ : CodewordTry)).1, { ((({ State.reset with lmap.wanted := [5] } : State).fetchPage 5 (⟨[], []⟩ : CodewordTry)).1 : State).bump fFTL_MAP_READS with lmap.wanted := ((({ State.reset with lmap.wanted := [5] } : State).fetchPage 5 (⟨[], []⟩ : CodewordTry)).1 : State).lmap.wanted.filter (· ≠ 5) }, 5, ⟨[], []⟩, (({ State.reset with lmap.wanted := [5] } : State).fetchPage 5 (⟨[], []⟩ : CodewordTry)).2, by decide +kernel, by decide +kernel, rfl, rfl⟩,
   ⟨running [pgEVT, pgLMAP], 5, ⟨[], []⟩, by decide +kernel⟩,
   ⟨{ withSeg [pgLMAP] 0 { st := 1, stream := 2, rows := 4, blocks := [(0, 2), (1, 2), (2, 2)] } with lmap.dirty := [5] }, (({ withSeg [pgLMAP] 0 { st := 1, stream := 2, rows := 4, blocks := [(0, 2), (1, 2), (2, 2)] } with lmap.dirty := [5] } : State).placePage 5).1, 5, (0, 0, 0), by decide +kernel, by decide +kernel, pair_snd _ _ (by decide +kernel)⟩,
   ⟨{ running [pgEVT, pgLMAP] with lmap.dirty := [5] }, (({ running [pgEVT, pgLMAP] with lmap.dirty := [5] } : State).placePage 5).1, 5, by decide +kernel, by decide +kernel, pair_snd _ _ (by decide +kernel)⟩,
   ⟨running [pgEVT, pgLMAP], 5, by decide +kernel⟩⟩

theorem witness_Moulds :
    (∃ (s : State) (h : CmdHdr) (v m p : Nat), Ready s h pgMOULD p .work ∧ s.plat.chip.shelf = false ∧ s.mouldRefused v m = none ∧ s.volBad v = false ∧ s.mouldBad m = false) ∧
    (∃ (s : State) (h : CmdHdr) (v m p : Nat) (st : _), Ready s h pgMOULD p .work ∧ s.plat.chip.shelf = false ∧ s.mouldRefused v m = some st) ∧
    (∃ (s : State) (h : CmdHdr) (v m p : Nat), Ready s h pgMOULD p .work ∧ s.plat.chip.shelf = false ∧ s.mouldRefused v m = none ∧ s.volBad v = true) ∧
    (∃ (s : State) (h : CmdHdr) (v m p : Nat), Ready s h pgMOULD p .work ∧ s.plat.chip.shelf = false ∧ s.mouldRefused v m = none ∧ s.volBad v = false ∧ s.mouldBad m = true) ∧
    (∃ (s : State) (v m : Nat), v < 65536 ∧ m < 1048576 ∧ (s.vol v).kind ≠ 0 ∧ (s.vol v).kind ≠ 3 ∧ (s.vol v).deleting = none ∧ (s.mould m).st = 0 ∧ (s.vol v).moulds < 4096 ∧ (s.vol v).epoch < 0xFFFFFFFF) ∧
    (∃ (s : State) (v m : Nat), (65536 ≤ v ∨ 1048576 ≤ m ∨ (s.vol v).kind = 0 ∨ (s.vol v).kind = 3)) ∧
    (∃ (s : State) (v m : Nat), v < 65536 ∧ m < 1048576 ∧ (s.vol v).kind ≠ 0 ∧ (s.vol v).kind ≠ 3 ∧ (s.vol v).deleting = none ∧ (s.mould m).st ≠ 0) ∧
    (∃ (s : State) (m : Nat), (s.mould m).st = 1 ∧ s.sealWaits (s.mould m) = false) ∧
    (∃ (s : State) (m : Nat), ((s.mould m).st ≠ 1 ∨ s.sealWaits (s.mould m) = true)) ∧
    (∃ (s : State) (h : CmdHdr) (n a p : Nat), Ready s h pgMOULD p .work ∧ s.plat.chip.shelf = false ∧ 1 ≤ n ∧ n ≤ 1024 ∧ s.hbmErr a (8 * n) = false ∧ (∀ e ∈ s.cgList n a, s.mouldBad e.2 = false ∧ s.volBad e.1 = false) ∧ s.cgRefused (s.cgList n a) = none) ∧
    (∃ (s : State) (h : CmdHdr) (n _a p : Nat), Ready s h pgMOULD p .work ∧ s.plat.chip.shelf = false ∧ (n = 0 ∨ 1024 < n)) ∧
    (∃ (s : State) (h : CmdHdr) (n a p : Nat), Ready s h pgMOULD p .work ∧ s.plat.chip.shelf = false ∧ 1 ≤ n ∧ n ≤ 1024 ∧ s.hbmErr a (8 * n) = true) ∧
    (∃ (s : State) (h : CmdHdr) (n a p : Nat) (st : _), Ready s h pgMOULD p .work ∧ s.plat.chip.shelf = false ∧ 1 ≤ n ∧ n ≤ 1024 ∧ s.hbmErr a (8 * n) = false ∧ (∀ e ∈ s.cgList n a, s.mouldBad e.2 = false ∧ s.volBad e.1 = false) ∧ s.cgRefused (s.cgList n a) = some st) ∧
    (∃ (s : State) (h : CmdHdr) (n a p : Nat) (e : _), Ready s h pgMOULD p .work ∧ s.plat.chip.shelf = false ∧ 1 ≤ n ∧ n ≤ 1024 ∧ s.hbmErr a (8 * n) = false ∧ (s.cgList n a).find? (fun x => s.mouldBad x.2) = some e) ∧
    (∃ (s : State) (h : CmdHdr) (n a p : Nat) (e : _), Ready s h pgMOULD p .work ∧ s.plat.chip.shelf = false ∧ 1 ≤ n ∧ n ≤ 1024 ∧ s.hbmErr a (8 * n) = false ∧ (∀ x ∈ s.cgList n a, s.mouldBad x.2 = false) ∧ (s.cgList n a).find? (fun x => s.volBad x.1) = some e) ∧
    (∃ (s : State) (h : CmdHdr) (m p : Nat), Ready s h pgMOULD p .work ∧ s.plat.chip.shelf = false ∧ m < 1048576 ∧ s.mouldBad m = false ∧ (s.mould m).st ≠ 0 ∧ (s.mould m).st ≠ 3 ∧ (s.mould m).clones = 0) ∧
    (∃ (s : State) (h : CmdHdr) (m p : Nat), Ready s h pgMOULD p .work ∧ s.plat.chip.shelf = false ∧ (1048576 ≤ m ∨ (s.mould m).st = 0)) ∧
    (∃ (s : State) (h : CmdHdr) (m p : Nat), Ready s h pgMOULD p .work ∧ s.plat.chip.shelf = false ∧ m < 1048576 ∧ (s.mould m).st ≠ 0 ∧ s.mouldBad m = true) ∧
    (∃ (s : State) (h : CmdHdr) (m p : Nat), Ready s h pgMOULD p .work ∧ s.plat.chip.shelf = false ∧ m < 1048576 ∧ s.mouldBad m = false ∧ (s.mould m).st = 3) ∧
    (∃ (s : State) (h : CmdHdr) (m p : Nat), Ready s h pgMOULD p .work ∧ s.plat.chip.shelf = false ∧ m < 1048576 ∧ s.mouldBad m = false ∧ (s.mould m).st ≠ 0 ∧ (s.mould m).st ≠ 3 ∧ (s.mould m).clones ≠ 0) ∧
    (∃ (s : State) (m : Nat) (gone : List Nat), gone = (s.toExamine m).filter (fun p => !(s.reached none (some m)).contains p && (s.lmap.pages.find p).isSome) ∧ (s.mould m).st ≠ 3) ∧
    (∃ (s : State) (m : Nat) (gone : List Nat), gone = (s.toExamine m).filter (fun p => !(s.reached none (some m)).contains p && (s.lmap.pages.find p).isSome) ∧ (s.mould m).st = 3 ∧ (s.freeNeed gone).isSome = true) ∧
    (∃ (s : State) (m : Nat) (gone : List Nat), gone = (s.toExamine m).filter (fun p => !(s.reached none (some m)).contains p && (s.lmap.pages.find p).isSome) ∧ (s.mould m).st = 3 ∧ s.freeNeed gone = none ∧ (s.mould m).delCmd = none) ∧
    (∃ (s : State) (m : Nat) (gone : List Nat) (q : _), gone = (s.toExamine m).filter (fun p => !(s.reached none (some m)).contains p && (s.lmap.pages.find p).isSome) ∧ (s.mould m).st = 3 ∧ s.freeNeed gone = none ∧ (s.mould m).delCmd = some q) ∧
    (∃ (s : State) (h : CmdHdr) (m v view k p : Nat), Ready s h pgMOULD p .work ∧ s.plat.chip.shelf = false ∧ m < 1048576 ∧ v < 65536 ∧ view ≤ 1 ∧ s.mouldBad m = false ∧ s.volBad (s.mould m).vol = false ∧ (s.mould m).st = 2 ∧ (s.vol v).kind = 0 ∧ s.foreignSlot k (s.vol (s.mould m).vol).tenant = false ∧ s.foreignDomain (s.vol (s.mould m).vol).domain (s.vol (s.mould m).vol).tenant = false ∧ (s.mould m).clones < 0xFFFF) ∧
    (∃ (s : State) (h : CmdHdr) (m v view _k p : Nat), Ready s h pgMOULD p .work ∧ s.plat.chip.shelf = false ∧ m < 1048576 ∧ v < 65536 ∧ view ≤ 1 ∧ s.mouldBad m = false ∧ s.volBad (s.mould m).vol = false ∧ (s.mould m).st ≠ 2) ∧
    (∃ (s : State) (h : CmdHdr) (m v view _k p : Nat), Ready s h pgMOULD p .work ∧ s.plat.chip.shelf = false ∧ m < 1048576 ∧ v < 65536 ∧ view ≤ 1 ∧ s.mouldBad m = false ∧ s.volBad (s.mould m).vol = false ∧ (s.mould m).st = 2 ∧ (s.vol v).kind ≠ 0) ∧
    (∃ (s : State) (h : CmdHdr) (m v view k p : Nat), Ready s h pgMOULD p .work ∧ s.plat.chip.shelf = false ∧ m < 1048576 ∧ v < 65536 ∧ view ≤ 1 ∧ s.mouldBad m = false ∧ s.volBad (s.mould m).vol = false ∧ (s.mould m).st = 2 ∧ (s.vol v).kind = 0 ∧ (s.foreignSlot k (s.vol (s.mould m).vol).tenant = true ∨ s.foreignDomain (s.vol (s.mould m).vol).domain (s.vol (s.mould m).vol).tenant = true)) ∧
    (∃ (s : State) (h : CmdHdr) (m v view k p : Nat), Ready s h pgMOULD p .work ∧ s.plat.chip.shelf = false ∧ m < 1048576 ∧ v < 65536 ∧ view ≤ 1 ∧ s.mouldBad m = false ∧ s.volBad (s.mould m).vol = false ∧ (s.mould m).st = 2 ∧ (s.vol v).kind = 0 ∧ s.foreignSlot k (s.vol (s.mould m).vol).tenant = false ∧ s.foreignDomain (s.vol (s.mould m).vol).domain (s.vol (s.mould m).vol).tenant = false ∧ 0xFFFF ≤ (s.mould m).clones) ∧
    (∃ (s : State) (h : CmdHdr) (m v view _k p : Nat), Ready s h pgMOULD p .work ∧ s.plat.chip.shelf = false ∧ (1048576 ≤ m ∨ 65536 ≤ v ∨ 1 < view)) ∧
    (∃ (s : State) (h : CmdHdr) (m v view _k p : Nat), Ready s h pgMOULD p .work ∧ s.plat.chip.shelf = false ∧ m < 1048576 ∧ v < 65536 ∧ view ≤ 1 ∧ s.mouldBad m = true) ∧
    (∃ (s : State) (h : CmdHdr) (m v view _k p : Nat), Ready s h pgMOULD p .work ∧ s.plat.chip.shelf = false ∧ m < 1048576 ∧ v < 65536 ∧ view ≤ 1 ∧ s.mouldBad m = false ∧ s.volBad (s.mould m).vol = true) ∧
    (∃ (s : State) (h : CmdHdr) (_v _m _n _view _k p : Nat), Ready s h pgMOULD p .work ∧ s.plat.chip.shelf = true) :=
  ⟨⟨{ running [pgEVT, pgMOULD] with lmap.vols := [(65535, { kind := 1 })] }, hdr 0, 65535, 1048575, pgMOULD, by decide +kernel⟩,
   ⟨running [pgEVT, pgMOULD], hdr 0, 65535, 1048575, pgMOULD, 1, by decide +kernel⟩,
   ⟨{ running [pgEVT, pgMOULD] with lmap.vols := [(65535, { kind := 1 })], mem.bad := [65535] }, hdr 0, 65535, 1048575, pgMOULD, by decide +kernel⟩,
   ⟨{ running [pgEVT, pgMOULD] with lmap.vols := [(65535, { kind := 1 })], mem.bad := [524287] }, hdr 0, 65535, 1048575, pgMOULD, by decide +kernel⟩,
   ⟨{ running [pgEVT, pgMOULD] with lmap.vols := [(65535, { kind := 1 })] }, 65535, 1048575, by decide +kernel⟩,
   ⟨running [pgEVT, pgMOULD], 65535, 1048575, by decide +kernel⟩,
   ⟨{ running [pgEVT, pgMOULD] with lmap.vols := [(65535, { kind := 1 })], lmap.moulds := [(1048575, { st := 1 })] }, 65535, 1048575, by decide +kernel⟩,
   ⟨{ running [pgEVT, pgMOULD] with lmap.vols := [(65535, { kind := 1 })], lmap.moulds := [(1048575, { st := 1 })] }, 1048575, by decide +kernel⟩,
   ⟨running [pgEVT, pgMOULD], 1048575, by decide +kernel⟩,
   ⟨{ running [pgEVT, pgMOULD] with lmap.vols := [(0, { kind := 1 })] }, hdr 0, 1, 64, pgMOULD, by decide +kernel⟩,
   ⟨running [pgEVT, pgMOULD], hdr 0, 1025, 64, pgMOULD, by decide +kernel⟩,
   ⟨running [pgEVT, pgMOULD], hdr 0, 1, hbmEnd, pgMOULD, by decide +kernel⟩,
   ⟨running [pgEVT, pgMOULD], hdr 0, 1, 64, pgMOULD, 1, by decide +kernel⟩,
   ⟨{ running [pgEVT, pgMOULD] with lmap.vols := [(0, { kind := 1 })], mem.bad := [0] }, hdr 0, 1, 64, pgMOULD, (0, 0), by decide +kernel⟩,
   ⟨{ running [pgEVT, pgMOULD] with lmap.vols := [(5, { kind := 1 })], mem.cells := [(64, 5)], mem.bad := [5] }, hdr 0, 1, 64, pgMOULD, (5, 0), by decide +kernel⟩,
   ⟨{ running [pgEVT, pgMOULD] with lmap.vols := [(65535, { kind := 1 })], lmap.moulds := [(1048575, { st := 1 })] }, hdr 0, 1048575, pgMOULD, by decide +kernel⟩,
   ⟨running [pgEVT, pgMOULD], hdr 0, 1048575, pgMOULD, by decide +kernel⟩,
   ⟨{ running [pgEVT, pgMOULD] with lmap.moulds := [(1048575, { st := 2 })], mem.bad := [524287] }, hdr 0, 1048575, pgMOULD, by decide +kernel⟩,
   ⟨{ running [pgEVT, pgMOULD] with lmap.moulds := [(1048575, { st := 3 })] }, hdr 0, 1048575, pgMOULD, by decide +kernel⟩,
   ⟨{ running [pgEVT, pgMOULD] with lmap.moulds := [(1048575, { st := 2, clones := 1 })] }, hdr 0, 1048575, pgMOULD, by decide +kernel⟩,
   ⟨running [pgEVT, pgMOULD], 1048575, ((running [pgEVT, pgMOULD] : State).toExamine 1048575).filter (fun p => !((running [pgEVT, pgMOULD] : State).reached none (some 1048575)).contains p && ((running [pgEVT, pgMOULD] : State).lmap.pages.find p).isSome), by decide +kernel⟩,
   ⟨{ running [pgEVT, pgMOULD] with lmap.moulds := [(1048575, { st := 3, root := 7 })], lmap.vols := [(0, { replaced := [(7, 0, 1)] })], lmap.pages := [(7, {})], back.pageLoc := [(7, 9)] }, 1048575, (({ running [pgEVT, pgMOULD] with lmap.moulds := [(1048575, { st := 3, root := 7 })], lmap.vols := [(0, { replaced := [(7, 0, 1)] })], lmap.pages := [(7, {})], back.pageLoc := [(7, 9)] } : State).toExamine 1048575).filter (fun p => !(({ running [pgEVT, pgMOULD] with lmap.moulds := [(1048575, { st := 3, root := 7 })], lmap.vols := [(0, { replaced := [(7, 0, 1)] })], lmap.pages := [(7, {})], back.pageLoc := [(7, 9)] } : State).reached none (some 1048575)).contains p && (({ running [pgEVT, pgMOULD] with lmap.moulds := [(1048575, { st := 3, root := 7 })], lmap.vols := [(0, { replaced := [(7, 0, 1)] })], lmap.pages := [(7, {})], back.pageLoc := [(7, 9)] } : State).lmap.pages.find p).isSome), by decide +kernel⟩,
   ⟨{ running [pgEVT, pgMOULD] with lmap.moulds := [(1048575, { st := 3 })] }, 1048575, (({ running [pgEVT, pgMOULD] with lmap.moulds := [(1048575, { st := 3 })] } : State).toExamine 1048575).filter (fun p => !(({ running [pgEVT, pgMOULD] with lmap.moulds := [(1048575, { st := 3 })] } : State).reached none (some 1048575)).contains p && (({ running [pgEVT, pgMOULD] with lmap.moulds := [(1048575, { st := 3 })] } : State).lmap.pages.find p).isSome), by decide +kernel⟩,
   ⟨{ running [pgEVT, pgMOULD] with lmap.moulds := [(1048575, { st := 3, delCmd := some 3 })] }, 1048575, (({ running [pgEVT, pgMOULD] with lmap.moulds := [(1048575, { st := 3, delCmd := some 3 })] } : State).toExamine 1048575).filter (fun p => !(({ running [pgEVT, pgMOULD] with lmap.moulds := [(1048575, { st := 3, delCmd := some 3 })] } : State).reached none (some 1048575)).contains p && (({ running [pgEVT, pgMOULD] with lmap.moulds := [(1048575, { st := 3, delCmd := some 3 })] } : State).lmap.pages.find p).isSome), 3, by decide +kernel⟩,
   ⟨{ running [pgEVT, pgMOULD] with lmap.moulds := [(1048575, { st := 2 })] }, hdr 0, 1048575, 65535, 1, 65535, pgMOULD, by decide +kernel⟩,
   ⟨running [pgEVT, pgMOULD], hdr 0, 1048575, 65535, 1, 65535, pgMOULD, by decide +kernel⟩,
   ⟨{ running [pgEVT, pgMOULD] with lmap.vols := [(65535, { kind := 1 })], lmap.moulds := [(1048575, { st := 2 })] }, hdr 0, 1048575, 65535, 1, 65535, pgMOULD, by decide +kernel⟩,
   ⟨{ running [pgEVT, pgMOULD] with lmap.moulds := [(1048575, { st := 2 })], grog.doms := [(0, { st := 1, tenant := 1 })] }, hdr 0, 1048575, 65535, 1, 65535, pgMOULD, by decide +kernel⟩,
   ⟨{ running [pgEVT, pgMOULD] with lmap.moulds := [(1048575, { st := 2, clones := 0xFFFF })] }, hdr 0, 1048575, 65535, 1, 65535, pgMOULD, by decide +kernel⟩,
   ⟨running [pgEVT, pgMOULD], hdr 0, 1048575, 65535, 2, 65535, pgMOULD, by decide +kernel⟩,
   ⟨{ running [pgEVT, pgMOULD] with lmap.vols := [(65535, { kind := 1 })], mem.bad := [524287] }, hdr 0, 1048575, 65535, 1, 65535, pgMOULD, by decide +kernel⟩,
   ⟨{ running [pgEVT, pgMOULD] with lmap.moulds := [(1048575, { st := 2, vol := 5 })], mem.bad := [5] }, hdr 0, 1048575, 65535, 1, 65535, pgMOULD, by decide +kernel⟩,
   ⟨{ running [pgEVT, pgMOULD] with plat.chip.shelf := true }, hdr 0, 65535, 1048575, 1, 1, 65535, pgMOULD, by decide +kernel⟩⟩

theorem witness_Replicas :
    (∃ (s : State) (v : Nat), ((s.rep v).role = 0 ∨ s.hbmErr (s.repAddr v) 64 = false)) ∧
    (∃ (s : State) (v : Nat), (s.rep v).role ≠ 0 ∧ s.hbmErr (s.repAddr v) 64 = true) ∧
    (∃ (s : State) (h : CmdHdr) (v role mode pol n _a _tv _land _st b p : Nat), Ready s h pgSLIP p .work ∧ v < 65536 ∧ (s.vol v).kind ≠ 0 ∧ (role = 1 ∨ role = 2) ∧ mode ≤ 1 ∧ pol ≤ 1 ∧ 1 ≤ n ∧ n ≤ 8 ∧ (mode = 0 ∨ pol = 0 ∨ b ≠ 0) ∧ (s.rep v).role = 0) ∧
    (∃ (s : State) (h : CmdHdr) (v role mode pol n _a _tv _land _st b p : Nat), Ready s h pgSLIP p .work ∧ v < 65536 ∧ (s.vol v).kind ≠ 0 ∧ (role = 1 ∨ role = 2) ∧ mode ≤ 1 ∧ pol ≤ 1 ∧ 1 ≤ n ∧ n ≤ 8 ∧ (mode = 0 ∨ pol = 0 ∨ b ≠ 0) ∧ (s.rep v).role ≠ 0) ∧
    (∃ (s : State) (h : CmdHdr) (v role mode pol n _a _tv _land _st b p : Nat), Ready s h pgSLIP p .work ∧ (65536 ≤ v ∨ (s.vol v).kind = 0 ∨ (role ≠ 1 ∧ role ≠ 2) ∨ 1 < mode ∨ 1 < pol ∨ n = 0 ∨ 8 < n ∨ (mode = 1 ∧ pol = 1 ∧ b = 0))) ∧
    (∃ (s t : State) (h : CmdHdr) (v p : Nat), Ready s h pgSLIP p .work ∧ t = s.consume.slipRead v ∧ Unpairs (t.rep v)) ∧
    (∃ (s t : State) (h : CmdHdr) (v p : Nat), Ready s h pgSLIP p .work ∧ t = s.consume.slipRead v ∧ (t.rep v).role = 0) ∧
    (∃ (s t : State) (h : CmdHdr) (v p : Nat), Ready s h pgSLIP p .work ∧ t = s.consume.slipRead v ∧ (t.rep v).role ≠ 0 ∧ ¬ Unpairs (t.rep v)) ∧
    (∃ (s t : State) (h : CmdHdr) (v b n p : Nat), Ready s h pgSLIP p .work ∧ t = s.consume.slipRead v ∧ (t.rep v).role = 1 ∧ (t.rep v).sync = false ∧ (t.rep v).st = rsIdle ∧ (b = noMould ∨ t.sealedOf v b = true) ∧ t.sealedOf v n = true) ∧
    (∃ (s t : State) (h : CmdHdr) (v _b _n p : Nat), Ready s h pgSLIP p .work ∧ t = s.consume.slipRead v ∧ (t.rep v).role = 0) ∧
    (∃ (s t : State) (h : CmdHdr) (v _b _n p : Nat), Ready s h pgSLIP p .work ∧ t = s.consume.slipRead v ∧ (t.rep v).role ≠ 0 ∧ ((t.rep v).role ≠ 1 ∨ (t.rep v).sync = true ∨ (t.rep v).st ≠ rsIdle)) ∧
    (∃ (s t : State) (h : CmdHdr) (v b n p : Nat), Ready s h pgSLIP p .work ∧ t = s.consume.slipRead v ∧ (t.rep v).role = 1 ∧ (t.rep v).sync = false ∧ (t.rep v).st = rsIdle ∧ ((b ≠ noMould ∧ t.sealedOf v b = false) ∨ t.sealedOf v n = false)) ∧
    (∃ (s t : State) (h : CmdHdr) (v _a p : Nat), Ready s h pgSLIP p .work ∧ t = (s.consume.slipRead v).dropShipReads v ∧ (t.rep v).role = 1 ∧ (t.rep v).st = rsPaused) ∧
    (∃ (s t : State) (h : CmdHdr) (v _a p : Nat), Ready s h pgSLIP p .work ∧ t = (s.consume.slipRead v).dropShipReads v ∧ (t.rep v).role = 1 ∧ ((t.rep v).st = rsDegraded ∨ (t.rep v).st = rsFenced)) ∧
    (∃ (s t : State) (h : CmdHdr) (v _a p : Nat), Ready s h pgSLIP p .work ∧ t = (s.consume.slipRead v).dropShipReads v ∧ (t.rep v).role = 0) ∧
    (∃ (s t : State) (h : CmdHdr) (v _a p : Nat), Ready s h pgSLIP p .work ∧ t = (s.consume.slipRead v).dropShipReads v ∧ (t.rep v).role ≠ 0 ∧ ((t.rep v).role ≠ 1 ∨ ((t.rep v).st ≠ rsPaused ∧ (t.rep v).st ≠ rsDegraded ∧ (t.rep v).st ≠ rsFenced))) ∧
    (∃ (s t : State) (h : CmdHdr) (v m p : Nat), Ready s h pgSLIP p .work ∧ t = s.consume.slipRead v ∧ (t.rep v).role = 2 ∧ (m < 1048576 ∨ m = noMould)) ∧
    (∃ (s t : State) (h : CmdHdr) (v m p : Nat), Ready s h pgSLIP p .work ∧ t = s.consume.slipRead v ∧ (t.rep v).role = 2 ∧ 1048576 ≤ m ∧ m ≠ noMould) ∧
    (∃ (s t : State) (h : CmdHdr) (v _m p : Nat), Ready s h pgSLIP p .work ∧ t = s.consume.slipRead v ∧ (t.rep v).role = 0) ∧
    (∃ (s t : State) (h : CmdHdr) (v _m p : Nat), Ready s h pgSLIP p .work ∧ t = s.consume.slipRead v ∧ (t.rep v).role ≠ 0 ∧ (t.rep v).role ≠ 2) ∧
    (∃ (s t : State) (h : CmdHdr) (v p : Nat), Ready s h pgSLIP p .work ∧ t = s.consume.slipRead v ∧ (t.rep v).role = 2 ∧ (t.rep v).st ≠ rsPromoted ∧ (t.rep v).promote = none) ∧
    (∃ (s t : State) (h : CmdHdr) (v p : Nat), Ready s h pgSLIP p .work ∧ t = s.consume.slipRead v ∧ (t.rep v).role = 0) ∧
    (∃ (s t : State) (h : CmdHdr) (v p : Nat), Ready s h pgSLIP p .work ∧ t = s.consume.slipRead v ∧ (t.rep v).role ≠ 0 ∧ ((t.rep v).role ≠ 2 ∨ (t.rep v).st = rsPromoted ∨ (t.rep v).promote.isSome = true)) ∧
    (∃ (s t : State) (v : Nat), t = (s.slipRead v).slipPoll v ∧ s.working pgSLIP = true ∧ (s.rep v).ships = true ∧ (t.rep v).ships = false) ∧
    (∃ (s t : State) (v : Nat), t = (s.slipRead v).slipPoll v ∧ s.working pgSLIP = true ∧ (s.rep v).ships = true ∧ (t.rep v).ships = true ∧ (t.rep v).queue ≠ []) ∧
    (∃ (s t : State) (v : Nat), t = (s.slipRead v).slipPoll v ∧ s.working pgSLIP = true ∧ (s.rep v).ships = true ∧ (t.rep v).ships = true ∧ (t.rep v).queue = []) ∧
    (∃ (s : State) (v : Nat), (s.working pgSLIP = false ∨ (s.rep v).ships = false)) ∧
    (∃ (s : State) (v _q : Nat), ((s.rep v).role ≠ 2 ∨ (s.rep v).st ≠ rsIdle ∨ (s.rep v).promote.isSome = true ∨ s.working pgSLIP = false)) ∧
    (∃ (s : State) (v _q : Nat), (s.rep v).role = 2 ∧ (s.rep v).st = rsIdle ∧ (s.rep v).promote = none ∧ s.working pgSLIP = true ∧ s.hbmErr (s.repAddr v) 64 = true) ∧
    (∃ (s : State) (v q : Nat), (s.rep v).role = 2 ∧ (s.rep v).st = rsIdle ∧ (s.rep v).promote = none ∧ s.working pgSLIP = true ∧ s.hbmErr (s.repAddr v) 64 = false ∧ q ≤ (s.rep v).applied) ∧
    (∃ (s : State) (v q : Nat), (s.rep v).role = 2 ∧ (s.rep v).st = rsIdle ∧ (s.rep v).promote = none ∧ s.working pgSLIP = true ∧ s.hbmErr (s.repAddr v) 64 = false ∧ (s.rep v).applied < q ∧ s.hbmErr (s.landed v q) 64 = true) ∧
    (∃ (s : State) (v q : Nat) (hdr n : _), (s.rep v).role = 2 ∧ (s.rep v).st = rsIdle ∧ (s.rep v).promote = none ∧ s.working pgSLIP = true ∧ s.hbmErr (s.repAddr v) 64 = false ∧ (s.rep v).applied < q ∧ s.hbmErr (s.landed v q) 64 = false ∧ hdr = s.hbmRead (s.landed v q) 64 ∧ n = (if recKind hdr = 1 then 4112 * recNlb hdr else 0) ∧ (unLe (hdr.take 2) ≠ 0x534C ∨ unLe (slice hdr 8 8) ≠ q ∨ unLe (slice hdr 4 2) ≠ v ∨ slotBytes < 64 + n)) ∧
    (∃ (s : State) (v q : Nat) (hdr n : _), (s.rep v).role = 2 ∧ (s.rep v).st = rsIdle ∧ (s.rep v).promote = none ∧ s.working pgSLIP = true ∧ s.hbmErr (s.repAddr v) 64 = false ∧ (s.rep v).applied < q ∧ s.hbmErr (s.landed v q) 64 = false ∧ hdr = s.hbmRead (s.landed v q) 64 ∧ n = (if recKind hdr = 1 then 4112 * recNlb hdr else 0) ∧ unLe (hdr.take 2) = 0x534C ∧ unLe (slice hdr 8 8) = q ∧ unLe (slice hdr 4 2) = v ∧ 64 + n ≤ slotBytes ∧ s.hbmErr (s.landed v q + 64) n = true) ∧
    (∃ (s : State) (v q : Nat) (hdr n : _), (s.rep v).role = 2 ∧ (s.rep v).st = rsIdle ∧ (s.rep v).promote = none ∧ s.working pgSLIP = true ∧ s.hbmErr (s.repAddr v) 64 = false ∧ (s.rep v).applied < q ∧ s.hbmErr (s.landed v q) 64 = false ∧ hdr = s.hbmRead (s.landed v q) 64 ∧ n = (if recKind hdr = 1 then 4112 * recNlb hdr else 0) ∧ unLe (hdr.take 2) = 0x534C ∧ unLe (slice hdr 8 8) = q ∧ unLe (slice hdr 4 2) = v ∧ 64 + n ≤ slotBytes ∧ s.hbmErr (s.landed v q + 64) n = false) ∧
    (∃ (s : State) (v q : Nat), (s.rep v).role = 2 ∧ s.hbmErr (s.repAddr v) 64 = false ∧ (s.rep v).inAir = [q] ∧ (s.rep v).overs = [(q, true)] ∧ (s.rep v).st ≠ rsBroken ∧ (s.rep v).applied + 1 = q ∧ (s.rep v).kinds = []) ∧
    (∃ (s t : State) (v q : Nat) (ok : Bool), t = s.slipRead v ∧ (t.rep v).role = 2 ∧ (t.rep v).inAir.contains q = true ∧ (t.rep v).overs.find? (fun e => e.1 = q) = some (q, ok) ∧ (t.rep v).st = rsBroken) ∧
    (∃ (s t : State) (v q : Nat) (ok : Bool), t = s.slipRead v ∧ (t.rep v).role = 2 ∧ (t.rep v).inAir.contains q = true ∧ (t.rep v).overs.find? (fun e => e.1 = q) = some (q, ok) ∧ (t.rep v).st ≠ rsBroken ∧ ok = false) ∧
    (∃ (s t : State) (v q : Nat) (ok : Bool), t = s.slipRead v ∧ (t.rep v).role = 2 ∧ (t.rep v).inAir.contains q = true ∧ (t.rep v).overs.find? (fun e => e.1 = q) = some (q, ok) ∧ (t.rep v).st ≠ rsBroken ∧ ok = true) ∧
    (∃ (s t : State) (v q : Nat), t = s.slipRead v ∧ ((t.rep v).role ≠ 2 ∨ (t.rep v).inAir.contains q = false ∨ (t.rep v).overs.find? (fun e => e.1 = q) = none)) ∧
    (∃ (s : State) (v _a _st _rs : Nat), ((s.rep v).role ≠ 1 ∨ s.working pgSLIP = false ∨ (s.rep v).st = rsBroken)) ∧
    (∃ (s t : State) (v _a _st _rs : Nat), (s.rep v).role = 1 ∧ s.working pgSLIP = true ∧ (s.rep v).st ≠ rsBroken ∧ t = (s.slipRead v).slipPoll v ∧ (t.rep v).st = rsBroken) ∧
    (∃ (s t : State) (v _a st _rs : Nat), (s.rep v).role = 1 ∧ s.working pgSLIP = true ∧ (s.rep v).st ≠ rsBroken ∧ t = (s.slipRead v).slipPoll v ∧ (t.rep v).st ≠ rsBroken ∧ st = rsBroken) ∧
    (∃ (s t : State) (v _a st _rs : Nat), (s.rep v).role = 1 ∧ s.working pgSLIP = true ∧ (s.rep v).st ≠ rsBroken ∧ t = (s.slipRead v).slipPoll v ∧ (t.rep v).st ≠ rsBroken ∧ st ≠ rsBroken) ∧
    (∃ (s t : State) (v q : Nat) (k c : _), t = (s.slipRead v).slipPoll v ∧ (s.ackAwaited v q).isSome = true ∧ t.ackAwaited v q = some (k, c)) ∧
    (∃ (s t : State) (v q : Nat), t = (s.slipRead v).slipPoll v ∧ (s.ackAwaited v q).isSome = true ∧ t.ackAwaited v q = none) ∧
    (∃ (s : State) (v q : Nat), s.ackAwaited v q = none) ∧
    (∃ (s : State) (v _key _q : Nat) (_rg : List (Nat × Nat)), (s.rep v).st = rsInSync ∧ (s.rep v).bitmap = 0 ∧ s.nvf.cmds = []) ∧
    (∃ (s t : State) (v : Nat), t = s.slipRead v ∧ (t.rep v).role = 1 ∧ (t.rep v).st = rsResync ∧ (t.rep v).todo = [] ∧ (t.rep v).reading = none ∧ (t.rep v).hold = false ∧ t.working pgSLIP = true ∧ (t.rep v).backlog = [] ∧ t.dsmOpen v = false ∧ (t.rep v).nextSeq - 1 ≤ (t.rep v).applied) ∧
    (∃ (s t : State) (v : Nat), t = s.slipRead v ∧ ((t.rep v).role ≠ 1 ∨ (t.rep v).st ≠ rsResync ∨ (t.rep v).todo ≠ [] ∨ (t.rep v).reading.isSome = true ∨ (t.rep v).hold = true ∨ t.working pgSLIP = false)) :=
  ⟨⟨running [pgEVT, pgSLIP], 5, by decide +kernel⟩,
   ⟨{ running [pgEVT, pgSLIP] with slip.reps := [(5, { role := 1 })], mem.bad := [5] }, 5, by decide +kernel⟩,
   ⟨{ running [pgEVT, pgSLIP] with lmap.vols := [(5, { kind := 1 })] }, hdr 0, 5, 2, 1, 1, 8, 1, 65535, 65535, 6, 1, pgSLIP, by decide +kernel⟩,
   ⟨{ running [pgEVT, pgSLIP] with slip.reps := [(5, { role := 1 })], lmap.vols := [(5, { kind := 1 })] }, hdr 0, 5, 2, 1, 1, 8, 1, 65535, 65535, 6, 1, pgSLIP, by decide +kernel⟩,
   ⟨{ running [pgEVT, pgSLIP] with lmap.vols := [(5, { kind := 1 })] }, hdr 0, 5, 2, 1, 1, 8, 1, 65535, 65535, 6, 0, pgSLIP, by decide +kernel⟩,
   ⟨{ running [pgEVT, pgSLIP] with slip.reps := [(5, { role := 1 })] }, ({ running [pgEVT, pgSLIP] with slip.reps := [(5, { role := 1 })] } : State).consume.slipRead 5, hdr 0, 5, pgSLIP, by decide +kernel, rfl, by decide +kernel⟩,
   ⟨running [pgEVT, pgSLIP], (running [pgEVT, pgSLIP] : State).consume.slipRead 5, hdr 0, 5, pgSLIP, by decide +kernel, rfl, by decide +kernel⟩,
   ⟨{ running [pgEVT, pgSLIP] with slip.reps := [(5, { role := 2 })] }, ({ running [pgEVT, pgSLIP] with slip.reps := [(5, { role := 2 })] } : State).consume.slipRead 5, hdr 0, 5, pgSLIP, by decide +kernel, rfl, by decide +kernel, by decide +kernel⟩,
   ⟨{ running [pgEVT, pgSLIP] with slip.reps := [(5, { role := 1 })], lmap.moulds := [(1, { st := 2, vol := 5 }), (2, { st := 2, vol := 5 })] }, ({ running [pgEVT, pgSLIP] with slip.reps := [(5, { role := 1 })], lmap.moulds := [(1, { st := 2, vol := 5 }), (2, { st := 2, vol := 5 })] } : State).consume.slipRead 5, hdr 0, 5, 1, 2, pgSLIP, by decide +kernel, rfl, by decide +kernel, by decide +kernel, by decide +kernel, by decide +kernel, by decide +kernel⟩,
   ⟨running [pgEVT, pgSLIP], (running [pgEVT, pgSLIP] : State).consume.slipRead 5, hdr 0, 5, 1, 8, pgSLIP, by decide +kernel, rfl, by decide +kernel⟩,
   ⟨{ running [pgEVT, pgSLIP] with slip.reps := [(5, { role := 1 })], mem.bad := [5] }, ({ running [pgEVT, pgSLIP] with slip.reps := [(5, { role := 1 })], mem.bad := [5] } : State).consume.slipRead 5, hdr 0, 5, 1, 8, pgSLIP, by decide +kernel, rfl, by decide +kernel, by decide +kernel⟩,
   ⟨{ running [pgEVT, pgSLIP] with slip.reps := [(5, { role := 1 })] }, ({ running [pgEVT, pgSLIP] with slip.reps := [(5, { role := 1 })] } : State).consume.slipRead 5, hdr 0, 5, 1, 8, pgSLIP, by decide +kernel, rfl, by decide +kernel, by decide +kernel, by decide +kernel, by decide +kernel⟩,
   ⟨{ running [pgEVT, pgSLIP] with slip.reps := [(5, { role := 1, st := rsPaused })] }, (({ running [pgEVT, pgSLIP] with slip.reps := [(5, { role := 1, st := rsPaused })] } : State).consume.slipRead 5).dropShipReads 5, hdr 0, 5, 1, pgSLIP, by decide +kernel, rfl, by decide +kernel, by decide +kernel⟩,
   ⟨{ running [pgEVT, pgSLIP] with slip.reps := [(5, { role := 1, st := rsFenced })] }, (({ running [pgEVT, pgSLIP] with slip.reps := [(5, { role := 1, st := rsFenced })] } : State).consume.slipRead 5).dropShipReads 5, hdr 0, 5, 1, pgSLIP, by decide +kernel, rfl, by decide +kernel, by decide +kernel⟩,
   ⟨running [pgEVT, pgSLIP], ((running [pgEVT, pgSLIP] : State).consume.slipRead 5).dropShipReads 5, hdr 0, 5, 1, pgSLIP, by decide +kernel, rfl, by decide +kernel⟩,
   ⟨{ running [pgEVT, pgSLIP] with slip.reps := [(5, { role := 1 })] }, (({ running [pgEVT, pgSLIP] with slip.reps := [(5, { role := 1 })] } : State).consume.slipRead 5).dropShipReads 5, hdr 0, 5, 1, pgSLIP, by decide +kernel, rfl, by decide +kernel, by decide +kernel⟩,
   ⟨{ running [pgEVT, pgSLIP] with slip.reps := [(5, { role := 2 })] }, ({ running [pgEVT, pgSLIP] with slip.reps := [(5, { role := 2 })] } : State).consume.slipRead 5, hdr 0, 5, 1048575, pgSLIP, by decide +kernel, rfl, by decide +kernel, by decide +kernel⟩,
   ⟨{ running [pgEVT, pgSLIP] with slip.reps := [(5, { role := 2 })] }, ({ running [pgEVT, pgSLIP] with slip.reps := [(5, { role := 2 })] } : State).consume.slipRead 5, hdr 0, 5, 1048576, pgSLIP, by decide +kernel, rfl, by decide +kernel, by decide +kernel, by decide +kernel⟩,
   ⟨running [pgEVT, pgSLIP], (running [pgEVT, pgSLIP] : State).consume.slipRead 5, hdr 0, 5, 1048575, pgSLIP, by decide +kernel, rfl, by decide +kernel⟩,
   ⟨{ running [pgEVT, pgSLIP] with slip.reps := [(5, { role := 1 })] }, ({ running [pgEVT, pgSLIP] with slip.reps := [(5, { role := 1 })] } : State).consume.slipRead 5, hdr 0, 5, 1048575, pgSLIP, by decide +kernel, rfl, by decide +kernel, by decide +kernel⟩,
   ⟨{ running [pgEVT, pgSLIP] with slip.reps := [(5, { role := 2 })] }, ({ running [pgEVT, pgSLIP] with slip.reps := [(5, { role := 2 })] } : State).consume.slipRead 5, hdr 0, 5, pgSLIP, by decide +kernel, rfl, by decide +kernel, by decide +kernel, by decide +kernel⟩,
   ⟨running [pgEVT, pgSLIP], (running [pgEVT, pgSLIP] : State).consume.slipRead 5, hdr 0, 5, pgSLIP, by decide +kernel, rfl, by decide +kernel⟩,
   ⟨{ running [pgEVT, pgSLIP] with slip.reps := [(5, { role := 1 })] }, ({ running [pgEVT, pgSLIP] with slip.reps := [(5, { role := 1 })] } : State).consume.slipRead 5, hdr 0, 5, pgSLIP, by decide +kernel, rfl, by decide +kernel, by decide +kernel⟩,
   ⟨{ running [pgEVT, pgSLIP] with slip.reps := [(5, { role := 1, st := rsInSync, out := [1] })], ldt.ended := [⟨pgSLIP, shipRef 5 1, 0x10, 0, []⟩] }, (({ running [pgEVT, pgSLIP] with slip.reps := [(5, { role := 1, st := rsInSync, out := [1] })], ldt.ended := [⟨pgSLIP, shipRef 5 1, 0x10, 0, []⟩] } : State).slipRead 5).slipPoll 5, 5, rfl, by decide +kernel, by decide +kernel, by decide +kernel⟩,
   ⟨{ running [pgEVT, pgSLIP] with slip.reps := [(5, { role := 1, st := rsShipping, queue := [(1, [], none)] })], ldt.assoc := [(0, { state := .isOpen })] }, (({ running [pgEVT, pgSLIP] with slip.reps := [(5, { role := 1, st := rsShipping, queue := [(1, [], none)] })], ldt.assoc := [(0, { state := .isOpen })] } : State).slipRead 5).slipPoll 5, 5, rfl, by decide +kernel, by decide +kernel, by decide +kernel, by decide +kernel⟩,
   ⟨{ running [pgEVT, pgSLIP] with slip.reps := [(5, { role := 1, st := rsInSync })] }, (({ running [pgEVT, pgSLIP] with slip.reps := [(5, { role := 1, st := rsInSync })] } : State).slipRead 5).slipPoll 5, 5, rfl, by decide +kernel, by decide +kernel, by decide +kernel, by decide +kernel⟩,
   ⟨running [pgEVT, pgSLIP], 5, by decide +kernel⟩,
   ⟨running [pgEVT, pgSLIP], 5, 1, by decide +kernel⟩,
   ⟨{ running [pgEVT, pgSLIP] with slip.reps := [(5, { role := 2 })], mem.bad := [5] }, 5, 1, by decide +kernel⟩,
   ⟨{ running [pgEVT, pgSLIP] with slip.reps := [(5, { role := 2 })] }, 5, 0, by decide +kernel⟩,
   ⟨{ running [pgEVT, pgSLIP] with slip.reps := [(5, { role := 2 })], rgn.regions := [(0, { base := 2 ^ 20 })], mem.bad := [2 ^ 14] }, 5, 1, by decide +kernel⟩,
   ⟨{ running [pgEVT, pgSLIP] with slip.reps := [(5, { role := 2 })] }, 5, 1, ({ running [pgEVT, pgSLIP] with slip.reps := [(5, { role := 2 })] } : State).hbmRead (({ running [pgEVT, pgSLIP] with slip.reps := [(5, { role := 2 })] } : State).landed 5 1) 64, (if recKind (({ running [pgEVT, pgSLIP] with slip.reps := [(5, { role := 2 })] } : State).hbmRead (({ running [pgEVT, pgSLIP] with slip.reps := [(5, { role := 2 })] } : State).landed 5 1) 64 : _) = 1 then 4112 * recNlb (({ running [pgEVT, pgSLIP] with slip.reps := [(5, { role := 2 })] } : State).hbmRead (({ running [pgEVT, pgSLIP] with slip.reps := [(5, { role := 2 })] } : State).landed 5 1) 64 : _) else 0), by decide +kernel⟩,
   ⟨{ running [pgEVT, pgSLIP] with slip.reps := [(5, { role := 2 })], rgn.regions := [(0, { base := 2 ^ 20 })], mem.bad := [2 ^ 14 + 1], mem.cells := [(2 ^ 20, 0x4C), (2 ^ 20 + 1, 0x53), (2 ^ 20 + 2, 1), (2 ^ 20 + 4, 5), (2 ^ 20 + 8, 1), (2 ^ 20 + 24, 1)] }, 5, 1, ({ running [pgEVT, pgSLIP] with slip.reps := [(5, { role := 2 })], rgn.regions := [(0, { base := 2 ^ 20 })], mem.bad := [2 ^ 14 + 1], mem.cells := [(2 ^ 20, 0x4C), (2 ^ 20 + 1, 0x53), (2 ^ 20 + 2, 1), (2 ^ 20 + 4, 5), (2 ^ 20 + 8, 1), (2 ^ 20 + 24, 1)] } : State).hbmRead (({ running [pgEVT, pgSLIP] with slip.reps := [(5, { role := 2 })], rgn.regions := [(0, { base := 2 ^ 20 })], mem.bad := [2 ^ 14 + 1], mem.cells := [(2 ^ 20, 0x4C), (2 ^ 20 + 1, 0x53), (2 ^ 20 + 2, 1), (2 ^ 20 + 4, 5), (2 ^ 20 + 8, 1), (2 ^ 20 + 24, 1)] } : State).landed 5 1) 64, (if recKind (({ running [pgEVT, pgSLIP] with slip.reps := [(5, { role := 2 })], rgn.regions := [(0, { base := 2 ^ 20 })], mem.bad := [2 ^ 14 + 1], mem.cells := [(2 ^ 20, 0x4C), (2 ^ 20 + 1, 0x53), (2 ^ 20 + 2, 1), (2 ^ 20 + 4, 5), (2 ^ 20 + 8, 1), (2 ^ 20 + 24, 1)] } : State).hbmRead (({ running [pgEVT, pgSLIP] with slip.reps := [(5, { role := 2 })], rgn.regions := [(0, { base := 2 ^ 20 })], mem.bad := [2 ^ 14 + 1], mem.cells := [(2 ^ 20, 0x4C), (2 ^ 20 + 1, 0x53), (2 ^ 20 + 2, 1), (2 ^ 20 + 4, 5), (2 ^ 20 + 8, 1), (2 ^ 20 + 24, 1)] } : State).landed 5 1) 64 : _) = 1 then 4112 * recNlb (({ running [pgEVT, pgSLIP] with slip.reps := [(5, { role := 2 })], rgn.regions := [(0, { base := 2 ^ 20 })], mem.bad := [2 ^ 14 + 1], mem.cells := [(2 ^ 20, 0x4C), (2 ^ 20 + 1, 0x53), (2 ^ 20 + 2, 1), (2 ^ 20 + 4, 5), (2 ^ 20 + 8, 1), (2 ^ 20 + 24, 1)] } : State).hbmRead (({ running [pgEVT, pgSLIP] with slip.reps := [(5, { role := 2 })], rgn.regions := [(0, { base := 2 ^ 20 })], mem.bad := [2 ^ 14 + 1], mem.cells := [(2 ^ 20, 0x4C), (2 ^ 20 + 1, 0x53), (2 ^ 20 + 2, 1), (2 ^ 20 + 4, 5), (2 ^ 20 + 8, 1), (2 ^ 20 + 24, 1)] } : State).landed 5 1) 64 : _) else 0), by decide +kernel⟩,
   ⟨{ running [pgEVT, pgSLIP] with slip.reps := [(5, { role := 2 })], rgn.regions := [(0, { base := 2 ^ 20 })], mem.cells := [(2 ^ 20, 0x4C), (2 ^ 20 + 1, 0x53), (2 ^ 20 + 4, 5), (2 ^ 20 + 8, 1)] }, 5, 1, ({ running [pgEVT, pgSLIP] with slip.reps := [(5, { role := 2 })], rgn.regions := [(0, { base := 2 ^ 20 })], mem.cells := [(2 ^ 20, 0x4C), (2 ^ 20 + 1, 0x53), (2 ^ 20 + 4, 5), (2 ^ 20 + 8, 1)] } : State).hbmRead (({ running [pgEVT, pgSLIP] with slip.reps := [(5, { role := 2 })], rgn.regions := [(0, { base := 2 ^ 20 })], mem.cells := [(2 ^ 20, 0x4C), (2 ^ 20 + 1, 0x53), (2 ^ 20 + 4, 5), (2 ^ 20 + 8, 1)] } : State).landed 5 1) 64, (if recKind (({ running [pgEVT, pgSLIP] with slip.reps := [(5, { role := 2 })], rgn.regions := [(0, { base := 2 ^ 20 })], mem.cells := [(2 ^ 20, 0x4C), (2 ^ 20 + 1, 0x53), (2 ^ 20 + 4, 5), (2 ^ 20 + 8, 1)] } : State).hbmRead (({ running [pgEVT, pgSLIP] with slip.reps := [(5, { role := 2 })], rgn.regions := [(0, { base := 2 ^ 20 })], mem.cells := [(2 ^ 20, 0x4C), (2 ^ 20 + 1, 0x53), (2 ^ 20 + 4, 5), (2 ^ 20 + 8, 1)] } : State).landed 5 1) 64 : _) = 1 then 4112 * recNlb (({ running [pgEVT, pgSLIP] with slip.reps := [(5, { role := 2 })], rgn.regions := [(0, { base := 2 ^ 20 })], mem.cells := [(2 ^ 20, 0x4C), (2 ^ 20 + 1, 0x53), (2 ^ 20 + 4, 5), (2 ^ 20 + 8, 1)] } : State).hbmRead (({ running [pgEVT, pgSLIP] with slip.reps := [(5, { role := 2 })], rgn.regions := [(0, { base := 2 ^ 20 })], mem.cells := [(2 ^ 20, 0x4C), (2 ^ 20 + 1, 0x53), (2 ^ 20 + 4, 5), (2 ^ 20 + 8, 1)] } : State).landed 5 1) 64 : _) else 0), by decide +kernel⟩,
   ⟨{ running [pgEVT, pgSLIP] with slip.reps := [(5, { role := 2, inAir := [1], overs := [(1, true)] })] }, 5, 1, by decide +kernel⟩,
   ⟨{ running [pgEVT, pgSLIP] with slip.reps := [(5, { role := 2, inAir := [1], overs := [(1, true)], st := rsBroken })] }, ({ running [pgEVT, pgSLIP] with slip.reps := [(5, { role := 2, inAir := [1], overs := [(1, true)], st := rsBroken })] } : State).slipRead 5, 5, 1, true, rfl, by decide +kernel, by decide +kernel, by decide +kernel, by decide +kernel⟩,
   ⟨{ running [pgEVT, pgSLIP] with slip.reps := [(5, { role := 2, inAir := [1], overs := [(1, false)] })] }, ({ running [pgEVT, pgSLIP] with slip.reps := [(5, { role := 2, inAir := [1], overs := [(1, false)] })] } : State).slipRead 5, 5, 1, false, rfl, by decide +kernel, by decide +kernel, by decide +kernel, by decide +kernel, by decide +kernel⟩,
   ⟨{ running [pgEVT, pgSLIP] with slip.reps := [(5, { role := 2, inAir := [1], overs := [(1, true)] })] }, ({ running [pgEVT, pgSLIP] with slip.reps := [(5, { role := 2, inAir := [1], overs := [(1, true)] })] } : State).slipRead 5, 5, 1, true, rfl, by decide +kernel, by decide +kernel, by decide +kernel, by decide +kernel, by decide +kernel⟩,
   ⟨running [pgEVT, pgSLIP], (running [pgEVT, pgSLIP] : State).slipRead 5, 5, 1, rfl, by decide +kernel⟩,
   ⟨running [pgEVT, pgSLIP], 5, 1, 6, 1, by decide +kernel⟩,
   ⟨{ running [pgEVT, pgSLIP] with slip.reps := [(5, { role := 1 })], mem.bad := [5] }, (({ running [pgEVT, pgSLIP] with slip.reps := [(5, { role := 1 })], mem.bad := [5] } : State).slipRead 5).slipPoll 5, 5, 1, 6, 1, by decide +kernel, by decide +kernel, by decide +kernel, rfl, by decide +kernel⟩,
   ⟨{ running [pgEVT, pgSLIP] with slip.reps := [(5, { role := 1 })] }, (({ running [pgEVT, pgSLIP] with slip.reps := [(5, { role := 1 })] } : State).slipRead 5).slipPoll 5, 5, 1, rsBroken, 1, by decide +kernel, by decide +kernel, by decide +kernel, rfl, by decide +kernel, by decide +kernel⟩,
   ⟨{ running [pgEVT, pgSLIP] with slip.reps := [(5, { role := 1 })] }, (({ running [pgEVT, pgSLIP] with slip.reps := [(5, { role := 1 })] } : State).slipRead 5).slipPoll 5, 5, 1, 0, 1, by decide +kernel, by decide +kernel, by decide +kernel, rfl, by decide +kernel, by decide +kernel⟩,
   ⟨{ running [pgEVT, pgSLIP] with slip.reps := [(5, { role := 1, st := rsInSync })], nvf.cmds := [(7, { vol := 5, wantS := true, repSeq := some 1, xfer := 3 })], ldt.assoc := [(0, { state := .isOpen })] }, (({ running [pgEVT, pgSLIP] with slip.reps := [(5, { role := 1, st := rsInSync })], nvf.cmds := [(7, { vol := 5, wantS := true, repSeq := some 1, xfer := 3 })], ldt.assoc := [(0, { state := .isOpen })] } : State).slipRead 5).slipPoll 5, 5, 1, 7, { vol := 5, xfer := 3, wantS := true, repSeq := some 1 }, rfl, by decide +kernel, by decide +kernel⟩,
   ⟨{ running [pgEVT, pgSLIP] with slip.reps := [(5, { role := 1, st := rsInSync })], nvf.cmds := [(7, { vol := 5, wantS := true, repSeq := some 1, xfer := 3 })] }, (({ running [pgEVT, pgSLIP] with slip.reps := [(5, { role := 1, st := rsInSync })], nvf.cmds := [(7, { vol := 5, wantS := true, repSeq := some 1, xfer := 3 })] } : State).slipRead 5).slipPoll 5, 5, 1, rfl, by decide +kernel, by decide +kernel⟩,
   ⟨running [pgEVT, pgSLIP], 5, 1, by decide +kernel⟩,
   ⟨{ running [pgEVT, pgSLIP] with slip.reps := [(5, { role := 1, st := rsInSync, out := [1] })], ldt.ended := [⟨pgSLIP, shipRef 5 1, 0x10, 0, []⟩] }, 5, 7, 1, [(0, 1)], by decide +kernel⟩,
   ⟨{ running [pgEVT, pgSLIP] with slip.reps := [(5, { role := 1, st := rsResync, nextSeq := 1 })] }, ({ running [pgEVT, pgSLIP] with slip.reps := [(5, { role := 1, st := rsResync, nextSeq := 1 })] } : State).slipRead 5, 5, rfl, by decide +kernel, by decide +kernel, by decide +kernel, by decide +kernel, by decide +kernel, by decide +kernel, by decide +kernel, by decide +kernel, by decide +kernel⟩,
   ⟨running [pgEVT, pgSLIP], (running [pgEVT, pgSLIP] : State).slipRead 5, 5, rfl, by decide +kernel⟩⟩

theorem witness_FlashRows :
    (∃ (s : State) (g : Nat) (_l : List (Nat × Nat × List Byte)), (s.seg g).st = 1 ∧ s.rowFull (s.seg g) = true ∧ s.groupTakes (s.seg g).group = true) ∧
    (∃ (s : State) (g : Nat) (_l : List (Nat × Nat × List Byte)), ((s.seg g).st ≠ 1 ∨ s.rowFull (s.seg g) = false ∨ s.groupTakes (s.seg g).group = false)) ∧
    (∃ (s : State) (g : Nat) (l : List (Nat × Nat × List Byte)), s.badAtParity g l = []) ∧
    (∃ (s : State) (g : Nat) (l : List (Nat × Nat × List Byte)) (u : Placed), s.badAtParity g l = [u]) ∧
    (∃ (s : State) (g : Nat) (_l : List (Nat × Nat × List Byte)), MayPad s g) ∧
    (∃ (s : State) (g : Nat) (_l : List (Nat × Nat × List Byte)), ¬ MayPad s g) ∧
    (∃ (s t : State) (g r : Nat) (p : Program), (s.seg g).progs.find? (fun p => p.row = r && p.done = p.issued) = some p ∧ t = (s.writeLog g 2 p).endProgram g p ∧ t.settleRoom g ((s.seg g).progUnits p) = true) ∧
    (∃ (s t : State) (g r : Nat) (p : Program), (s.seg g).progs.find? (fun p => p.row = r && p.done = p.issued) = some p ∧ t = (s.writeLog g 2 p).endProgram g p ∧ t.settleRoom g ((s.seg g).progUnits p) = false ∧ p.ringWaits = true) ∧
    (∃ (s t : State) (g r : Nat) (p : Program), (s.seg g).progs.find? (fun p => p.row = r && p.done = p.issued) = some p ∧ t = (s.writeLog g 2 p).endProgram g p ∧ t.settleRoom g ((s.seg g).progUnits p) = false ∧ p.ringWaits = false) ∧
    (∃ (s : State) (g r : Nat), (s.seg g).progs.find? (fun p => p.row = r && p.done = p.issued) = none) ∧
    (∃ (s t : State) (g r m b pos : Nat) (p : Program), (s.seg g).progAt r = some p ∧ pos = (s.seg g).posBlocks.findIdx (fun b => b.1 = m) ∧ (s.seg g).posBlocks[pos]? = some (m, b) ∧ (p.done ||| p.failed).testBit pos = false ∧ t = (s.bump fFTL_PROG_FAIL).ftlError 0x01 (⟨m, b, r, 0⟩ : Loc).code) ∧
    (∃ (s : State) (g r m : Nat), ((s.seg g).progAt r = none ∨ (s.seg g).posBlocks.find? (fun b => b.1 = m) = none ∨ (∃ p, (s.seg g).progAt r = some p ∧ (p.done ||| p.failed).testBit ((s.seg g).posBlocks.findIdx (fun b => b.1 = m)) = true))) ∧
    (∃ (s : State) (g m b : Nat), (s.seg g).st = 5 ∧ (s.seg g).posBlocks = [(m, b)] ∧ (s.seg g).eraseFailed = []) ∧
    (∃ (s : State) (g m b : Nat), (s.seg g).posBlocks.find? (fun b => b.1 = m) = some (m, b) ∧ (s.seg g).st = 5 ∧ (s.seg g).eraseFailed.contains m = false) ∧
    (∃ (s : State) (g m : Nat), ((s.seg g).posBlocks.find? (fun b => b.1 = m) = none ∨ (s.seg g).st ≠ 5 ∨ (s.seg g).eraseFailed.contains m = true)) ∧
    (∃ (s t : State) (k : Nat) (r : ReadUnit) (f : CodewordTry) (id row i : Nat) (u : Placed), s.readUnit k = some r ∧ r.phase = .fetch ∧ s.working pgFTL = true ∧ s.rowGrain r.loc = some (id, row, i) ∧ s.placedAt r.loc = some u ∧ t = (s.endReads r.ops).readUnitWords id u f ∧ (t.unitWords id u).any (fun w => t.erased id u.row w.1 w.2 []) = true) ∧
    (∃ (s t : State) (k : Nat) (r : ReadUnit) (f : CodewordTry) (id row i : Nat) (u : Placed), s.readUnit k = some r ∧ r.phase = .fetch ∧ s.working pgFTL = true ∧ s.rowGrain r.loc = some (id, row, i) ∧ s.placedAt r.loc = some u ∧ t = (s.endReads r.ops).readUnitWords id u f ∧ (t.unitWords id u).any (fun w => t.erased id u.row w.1 w.2 []) = false) ∧
    (∃ (s : State) (k : Nat) (r : ReadUnit) (_f : CodewordTry), s.readUnit k = some r ∧ r.phase = .fetch ∧ s.working pgFTL = true ∧ (s.rowGrain r.loc = none ∨ s.placedAt r.loc = none)) ∧
    (∃ (s : State) (k : Nat) (_f : CodewordTry), (∀ r, s.readUnit k = some r → r.phase ≠ .fetch ∨ s.working pgFTL = false)) ∧
    (∃ (s t : State) (g r m c pos : Nat) (b : Nat × Nat) (tr : DecodeTry) (l : Ladder) (i : _), pos = (s.seg g).posBlocks.findIdx (fun b => b.1 = m) ∧ (s.seg g).posBlocks[pos]? = some b ∧ (s.seg g).st = 2 ∧ s.fld fFTL_CTRL_PATROL_EN = 1 ∧ s.runs pgFTL = true ∧ (s.member m).st = 1 ∧ r < (s.seg g).rows ∧ c < 4 ∧ (s.readOnce (s.readAddr g r pos (2 ^ c) 0)).ladder g r pos c tr = (t, l) ∧ l = .hard i) ∧
    (∃ (s t : State) (g r m c pos : Nat) (b : Nat × Nat) (tr : DecodeTry) (l : Ladder), pos = (s.seg g).posBlocks.findIdx (fun b => b.1 = m) ∧ (s.seg g).posBlocks[pos]? = some b ∧ (s.seg g).st = 2 ∧ s.fld fFTL_CTRL_PATROL_EN = 1 ∧ s.runs pgFTL = true ∧ (s.member m).st = 1 ∧ r < (s.seg g).rows ∧ c < 4 ∧ (s.readOnce (s.readAddr g r pos (2 ^ c) 0)).ladder g r pos c tr = (t, l) ∧ l = .soft) ∧
    (∃ (s t : State) (g r m c pos : Nat) (b : Nat × Nat) (tr : DecodeTry) (l : Ladder), pos = (s.seg g).posBlocks.findIdx (fun b => b.1 = m) ∧ (s.seg g).posBlocks[pos]? = some b ∧ (s.seg g).st = 2 ∧ s.fld fFTL_CTRL_PATROL_EN = 1 ∧ s.runs pgFTL = true ∧ (s.member m).st = 1 ∧ r < (s.seg g).rows ∧ c < 4 ∧ (s.readOnce (s.readAddr g r pos (2 ^ c) 0)).ladder g r pos c tr = (t, l) ∧ l = .lost) ∧
    (∃ (s : State) (g r m c : Nat) (_tr : DecodeTry), ((s.seg g).posBlocks.find? (fun b => b.1 = m) = none ∨ (s.seg g).st ≠ 2 ∨ s.fld fFTL_CTRL_PATROL_EN = 0 ∨ s.runs pgFTL = false ∨ (s.member m).st ≠ 1 ∨ (s.seg g).rows ≤ r ∨ 4 ≤ c)) ∧
    (∃ (s : State), s.working pgFTL = true ∧ s.back.ckpt = none) ∧
    (∃ (s : State), s.working pgFTL = true ∧ s.back.ckpt.isSome = true) ∧
    (∃ (s : State), s.working pgFTL = false) ∧
    (∃ (s : State) (h : CmdHdr) (p : Nat), Ready s h pgFTL p .work ∧ s.back.ckpt.isSome = true) ∧
    (∃ (s : State) (h : CmdHdr) (p : Nat), Ready s h pgFTL p .work ∧ s.back.ckpt = none ∧ (List.range 4).any s.groupTakes = true) ∧
    (∃ (s : State) (h : CmdHdr) (p : Nat), Ready s h pgFTL p .work ∧ s.back.ckpt = none ∧ (List.range 4).any s.groupTakes = false) ∧
    (∃ (s : State) (h : CmdHdr) (m b p : Nat), Ready s h pgFTL p .work ∧ m < 24 ∧ s.blockExists m b = true ∧ (s.block (blockKey m b)).st = 1) ∧
    (∃ (s : State) (h : CmdHdr) (m b p : Nat), Ready s h pgFTL p .work ∧ m < 24 ∧ s.blockExists m b = true ∧ (s.block (blockKey m b)).st = 0) ∧
    (∃ (s : State) (h : CmdHdr) (m b p : Nat), Ready s h pgFTL p .work ∧ (24 ≤ m ∨ s.blockExists m b = false ∨ 1 < (s.block (blockKey m b)).st)) :=
  ⟨⟨withSeg [] 5 { st := 1 }, 5, [], by decide +kernel⟩,
   ⟨withSeg [] 5 { st := 1 }, 0, [], by decide +kernel⟩,
   ⟨withSeg [] 5 { st := 1 }, 5, [], by decide +kernel⟩,
   ⟨{ running [pgEVT, pgFTL] with back.segs := [(5, { st := 1, units := [fUnit] })] }, 5, [], { kind := 0, row := 0, grain := 0, grains := 9, ref := 16, app := 0, cid := 0, seq := 0, form := [], tag := [], src := none, verified := false, dead := false }, by decide +kernel⟩,
   ⟨withSeg [] 5 { st := 1, used := 1, medium := true }, 5, [], by decide +kernel⟩,
   ⟨withSeg [] 5 { st := 1 }, 5, [], by decide +kernel⟩,
   ⟨{ running [pgEVT, pgFTL] with back.segs := [(5, { st := 1, blocks := [(23, 2)], units := [fUnit], progs := [{ row := 0, rows := 1 }] })] }, (({ running [pgEVT, pgFTL] with back.segs := [(5, { st := 1, blocks := [(23, 2)], units := [fUnit], progs := [{ row := 0, rows := 1 }] })] } : State).writeLog 5 2 ({ row := 0, rows := 1, issued := 0, done := 0, failed := 0, logSeq := 0, lastCommit := 0, ringWaits := false } : Program)).endProgram 5 ({ row := 0, rows := 1, issued := 0, done := 0, failed := 0, logSeq := 0, lastCommit := 0, ringWaits := false } : Program), 5, 0, { row := 0, rows := 1, issued := 0, done := 0, failed := 0, logSeq := 0, lastCommit := 0, ringWaits := false }, by decide +kernel, rfl, by decide +kernel⟩,
   ⟨{ running [pgEVT, pgFTL] with back.segs := [(5, { st := 1, blocks := [(23, 2)], units := [fUnit], progs := [{ row := 0, rows := 1, ringWaits := true }] })], lmap.cids := [(16, { refs := 1, inFlight := true })], back.ring := [(0, 2 ^ 40)] }, (({ running [pgEVT, pgFTL] with back.segs := [(5, { st := 1, blocks := [(23, 2)], units := [fUnit], progs := [{ row := 0, rows := 1, ringWaits := true }] })], lmap.cids := [(16, { refs := 1, inFlight := true })], back.ring := [(0, 2 ^ 40)] } : State).writeLog 5 2 ({ row := 0, rows := 1, issued := 0, done := 0, failed := 0, logSeq := 0, lastCommit := 0, ringWaits := true } : Program)).endProgram 5 ({ row := 0, rows := 1, issued := 0, done := 0, failed := 0, logSeq := 0, lastCommit := 0, ringWaits := true } : Program), 5, 0, { row := 0, rows := 1, issued := 0, done := 0, failed := 0, logSeq := 0, lastCommit := 0, ringWaits := true }, by decide +kernel, rfl, by decide +kernel, by decide +kernel⟩,
   ⟨{ running [pgEVT, pgFTL] with back.segs := [(5, { st := 1, blocks := [(23, 2)], units := [fUnit], progs := [{ row := 0, rows := 1 }] })], lmap.cids := [(16, { refs := 1, inFlight := true })], back.ring := [(0, 2 ^ 40)] }, (({ running [pgEVT, pgFTL] with back.segs := [(5, { st := 1, blocks := [(23, 2)], units := [fUnit], progs := [{ row := 0, rows := 1 }] })], lmap.cids := [(16, { refs := 1, inFlight := true })], back.ring := [(0, 2 ^ 40)] } : State).writeLog 5 2 ({ row := 0, rows := 1, issued := 0, done := 0, failed := 0, logSeq := 0, lastCommit := 0, ringWaits := false } : Program)).endProgram 5 ({ row := 0, rows := 1, issued := 0, done := 0, failed := 0, logSeq := 0, lastCommit := 0, ringWaits := false } : Program), 5, 0, { row := 0, rows := 1, issued := 0, done := 0, failed := 0, logSeq := 0, lastCommit := 0, ringWaits := false }, by decide +kernel, rfl, by decide +kernel, by decide +kernel⟩,
   ⟨withSeg [] 5 { st := 1 }, 5, 0, by decide +kernel⟩,
   ⟨{ running [pgEVT, pgFTL] with back.segs := [(5, { st := 1, blocks := [(23, 2)], units := [fUnit], progs := [{ row := 0, rows := 1 }] })] }, (({ running [pgEVT, pgFTL] with back.segs := [(5, { st := 1, blocks := [(23, 2)], units := [fUnit], progs := [{ row := 0, rows := 1 }] })] } : State).bump fFTL_PROG_FAIL).ftlError 0x01 (⟨23, 2, 0, 0⟩ : Loc).code, 5, 0, 23, 2, 0, { row := 0, rows := 1, issued := 0, done := 0, failed := 0, logSeq := 0, lastCommit := 0, ringWaits := false }, by decide +kernel, by decide +kernel, by decide +kernel, by decide +kernel, rfl⟩,
   ⟨State.reset, 5, 0, 23, (Or.inl rfl)⟩,
   ⟨{ State.reset with back.segs := [(5, { st := 5, blocks := [(23, 2)] })] }, 5, 23, 2, by decide +kernel⟩,
   ⟨{ State.reset with back.segs := [(5, { st := 5, blocks := [(23, 2)] })] }, 5, 23, 2, by decide +kernel⟩,
   ⟨withSeg [] 5 { st := 1 }, 5, 23, by decide +kernel⟩,
   ⟨readAt [] [2] fWhole (read0 .fetch), ((readAt [] [2] fWhole (read0 .fetch) : State).endReads ({ cmd := 0, idx := 0, lba := 0, cid := 16, app := 0, quad := 0, phase := .fetch, form := [], data := [], ffPi := false, loc := 17592194433024, grains := 0, ops := [], erased := [], tries := 0, eng := none, failed := none } : ReadUnit).ops).readUnitWords 0 ({ kind := 0, row := 0, grain := 0, grains := 1, ref := 16, app := 0, cid := 0, seq := 0, form := [0, 0, 0, 0, 0, 0, 0, 0, 0, 0, 0, 0, 0, 0, 0, 0, 0, 0, 0, 0, 0, 0, 0, 0, 0, 0, 0, 0, 0, 0, 0, 0, 0, 0, 0, 0, 0, 0, 0, 0, 0, 0, 0, 0, 0, 0, 0, 0, 0, 0, 0, 0, 0, 0, 0, 0, 0, 0, 0, 0, 0, 0, 0, 0, 0, 0, 0, 0, 0, 0, 0, 0, 0, 0, 0, 0, 0, 0, 0, 0, 0, 0, 0, 0, 0, 0, 0, 0, 0, 0, 0, 0, 0, 0, 0, 0, 0, 0, 0, 0], tag := [135, 211, 227, 217, 158, 30, 15, 116, 0, 100, 0, 0, 0, 0, 0, 16], src := none, verified := false, dead := false } : Placed) (⟨[], []⟩ : CodewordTry), 1, { cmd := 0, idx := 0, lba := 0, cid := 16, app := 0, quad := 0, phase := .fetch, form := [], data := [], ffPi := false, loc := 17592194433024, grains := 0, ops := [], erased := [], tries := 0, eng := none, failed := none }, ⟨[], []⟩, 0, 0, 0, { kind := 0, row := 0, grain := 0, grains := 1, ref := 16, app := 0, cid := 0, seq := 0, form := [0, 0, 0, 0, 0, 0, 0, 0, 0, 0, 0, 0, 0, 0, 0, 0, 0, 0, 0, 0, 0, 0, 0, 0, 0, 0, 0, 0, 0, 0, 0, 0, 0, 0, 0, 0, 0, 0, 0, 0, 0, 0, 0, 0, 0, 0, 0, 0, 0, 0, 0, 0, 0, 0, 0, 0, 0, 0, 0, 0, 0, 0, 0, 0, 0, 0, 0, 0, 0, 0, 0, 0, 0, 0, 0, 0, 0, 0, 0, 0, 0, 0, 0, 0, 0, 0, 0, 0, 0, 0, 0, 0, 0, 0, 0, 0, 0, 0, 0, 0], tag := [135, 211, 227, 217, 158, 30, 15, 116, 0, 100, 0, 0, 0, 0, 0, 16], src := none, verified := false, dead := false }, by decide +kernel, by decide +kernel, by decide +kernel, by decide +kernel, by decide +kernel, rfl, by decide +kernel⟩,
   ⟨readAt [] [] fWhole (read0 .fetch), ((readAt [] [] fWhole (read0 .fetch) : State).endReads ({ cmd := 0, idx := 0, lba := 0, cid := 16, app := 0, quad := 0, phase := .fetch, form := [], data := [], ffPi := false, loc := 17592194433024, grains := 0, ops := [], erased := [], tries := 0, eng := none, failed := none } : ReadUnit).ops).readUnitWords 0 ({ kind := 0, row := 0, grain := 0, grains := 1, ref := 16, app := 0, cid := 0, seq := 0, form := [0, 0, 0, 0, 0, 0, 0, 0, 0, 0, 0, 0, 0, 0, 0, 0, 0, 0, 0, 0, 0, 0, 0, 0, 0, 0, 0, 0, 0, 0, 0, 0, 0, 0, 0, 0, 0, 0, 0, 0, 0, 0, 0, 0, 0, 0, 0, 0, 0, 0, 0, 0, 0, 0, 0, 0, 0, 0, 0, 0, 0, 0, 0, 0, 0, 0, 0, 0, 0, 0, 0, 0, 0, 0, 0, 0, 0, 0, 0, 0, 0, 0, 0, 0, 0, 0, 0, 0, 0, 0, 0, 0, 0, 0, 0, 0, 0, 0, 0, 0], tag := [135, 211, 227, 217, 158, 30, 15, 116, 0, 100, 0, 0, 0, 0, 0, 16], src := none, verified := false, dead := false } : Placed) (⟨[], []⟩ : CodewordTry), 1, { cmd := 0, idx := 0, lba := 0, cid := 16, app := 0, quad := 0, phase := .fetch, form := [], data := [], ffPi := false, loc := 17592194433024, grains := 0, ops := [], erased := [], tries := 0, eng := none, failed := none }, ⟨[], []⟩, 0, 0, 0, { kind := 0, row := 0, grain := 0, grains := 1, ref := 16, app := 0, cid := 0, seq := 0, form := [0, 0, 0, 0, 0, 0, 0, 0, 0, 0, 0, 0, 0, 0, 0, 0, 0, 0, 0, 0, 0, 0, 0, 0, 0, 0, 0, 0, 0, 0, 0, 0, 0, 0, 0, 0, 0, 0, 0, 0, 0, 0, 0, 0, 0, 0, 0, 0, 0, 0, 0, 0, 0, 0, 0, 0, 0, 0, 0, 0, 0, 0, 0, 0, 0, 0, 0, 0, 0, 0, 0, 0, 0, 0, 0, 0, 0, 0, 0, 0, 0, 0, 0, 0, 0, 0, 0, 0, 0, 0, 0, 0, 0, 0, 0, 0, 0, 0, 0, 0], tag := [135, 211, 227, 217, 158, 30, 15, 116, 0, 100, 0, 0, 0, 0, 0, 16], src := none, verified := false, dead := false }, by decide +kernel, by decide +kernel, by decide +kernel, by decide +kernel, by decide +kernel, rfl, by decide +kernel⟩,
   ⟨withFlash [] 2 [] .fetch, 1, { cmd := 0, idx := 0, lba := 0, cid := 16, app := 0, quad := 0, phase := .fetch, form := [], data := [], ffPi := false, loc := 0, grains := 0, ops := [], erased := [], tries := 0, eng := none, failed := none }, ⟨[], []⟩, by decide +kernel⟩,
   ⟨State.reset, 1, ⟨[], []⟩, (by intro r hr; cases hr)⟩,
   ⟨readAt [] [2] fWhole (read0 .fetch), (((readAt [] [2] fWhole (read0 .fetch) : State).readOnce ((readAt [] [2] fWhole (read0 .fetch) : State).readAddr 0 0 0 (2 ^ 3) 0)).ladder 0 0 0 3 (⟨[true], true⟩ : DecodeTry)).1, 0, 0, 0, 3, 0, (0, 2), ⟨[true], true⟩, .hard 0, 0, by decide +kernel, by decide +kernel, by decide +kernel, by decide +kernel, by decide +kernel, by decide +kernel, by decide +kernel, by decide +kernel, pair_snd _ _ (by decide +kernel), by decide +kernel⟩,
   ⟨readAt [] [2] fWhole (read0 .fetch), (((readAt [] [2] fWhole (read0 .fetch) : State).readOnce ((readAt [] [2] fWhole (read0 .fetch) : State).readAddr 0 0 0 (2 ^ 3) 0)).ladder 0 0 0 3 (⟨[], true⟩ : DecodeTry)).1, 0, 0, 0, 3, 0, (0, 2), ⟨[], true⟩, .soft, by decide +kernel, by decide +kernel, by decide +kernel, by decide +kernel, by decide +kernel, by decide +kernel, by decide +kernel, by decide +kernel, pair_snd _ _ (by decide +kernel), by decide +kernel⟩,
   ⟨readAt [] [2] fWhole (read0 .fetch), (((readAt [] [2] fWhole (read0 .fetch) : State).readOnce ((readAt [] [2] fWhole (read0 .fetch) : State).readAddr 0 0 0 (2 ^ 3) 0)).ladder 0 0 0 3 (⟨[], false⟩ : DecodeTry)).1, 0, 0, 0, 3, 0, (0, 2), ⟨[], false⟩, .lost, by decide +kernel, by decide +kernel, by decide +kernel, by decide +kernel, by decide +kernel, by decide +kernel, by decide +kernel, by decide +kernel, pair_snd _ _ (by decide +kernel), by decide +kernel⟩,
   ⟨withSeg [] 5 { st := 1 }, 5, 0, 23, 3, ⟨[true], true⟩, by decide +kernel⟩,
   ⟨withSeg [] 5 { st := 1 }, by decide +kernel⟩,
   ⟨{ running [pgEVT, pgFTL] with back.ckpt := some { seq := 0, full := true } }, by decide +kernel⟩,
   ⟨{ State.reset with back.segs := [(5, { st := 5, blocks := [(23, 2)] })] }, by decide +kernel⟩,
   ⟨{ running [pgEVT, pgFTL] with back.ckpt := some { seq := 0, full := true } }, hdr 0, pgFTL, by decide +kernel⟩,
   ⟨{ running [pgEVT, pgFTL] with plat.chip.heads := 1, back.groups := [(0, { exists_ := true }), (1, { exists_ := true }), (2, { exists_ := true }), (3, { exists_ := true })] }, hdr 0, pgFTL, by decide +kernel⟩,
   ⟨{ running [pgEVT, pgFTL] with back.segs := [(5, { st := 1, units := [fUnit] })] }, hdr 0, pgFTL, by decide +kernel⟩,
   ⟨{ running [pgEVT, pgFTL] with links := [(23, { dieType := 1, diesPerCh := 1, dieMap := 1 })], back.blocks := [(blockKey 23 2, { st := 1 })] }, hdr 0, 23, 2, pgFTL, by decide +kernel⟩,
   ⟨{ running [pgEVT, pgFTL] with links := [(23, { dieType := 1, diesPerCh := 1, dieMap := 1 })] }, hdr 0, 23, 2, pgFTL, by decide +kernel⟩,
   ⟨{ running [pgEVT, pgFTL] with back.segs := [(5, { st := 1, units := [fUnit] })] }, hdr 0, 23, 2, pgFTL, by decide +kernel⟩⟩

theorem witness_Reclaim :
    (∃ (s : State) (g id : Nat), s.runs pgPUG = true ∧ s.groupMoves g = true ∧ (s.group g).hold = false ∧ (s.group g).victims.length < s.fld fPUG_CTRL_ACTIVE_MAX ∧ s.pugVictim g = some id) ∧
    (∃ (s : State) (g : Nat), (s.runs pgPUG = false ∨ s.groupMoves g = false ∨ (s.group g).hold = true ∨ s.fld fPUG_CTRL_ACTIVE_MAX ≤ (s.group g).victims.length ∨ s.pugVictim g = none)) ∧
    (∃ (s : State), s.mem.bad.any Config.pugScratch = false) ∧
    (∃ (s s1 t v : State) (g r i e : Nat) (u : Placed) (f : CodewordTry), t = s.scratchRead ∧ MayMove t g r i u ∧ s1 = ((t.wordReads g r (t.unitWords g u)).foldl State.readOnce t).readUnitWords g u f ∧ e = s1.unitErasures g u [] ∧ v = (s1.repairReads g u []).foldl State.readOnce ((s1.bump fPUG_SRC_RECON).bump (if e = 1 then fPAR_REPAIR_1 else fPAR_REPAIR_2)) ∧ e = 0) ∧
    (∃ (s s1 t v : State) (g r i e : Nat) (u : Placed) (f : CodewordTry), t = s.scratchRead ∧ MayMove t g r i u ∧ s1 = ((t.wordReads g r (t.unitWords g u)).foldl State.readOnce t).readUnitWords g u f ∧ e = s1.unitErasures g u [] ∧ v = (s1.repairReads g u []).foldl State.readOnce ((s1.bump fPUG_SRC_RECON).bump (if e = 1 then fPAR_REPAIR_1 else fPAR_REPAIR_2)) ∧ 3 ≤ e) ∧
    (∃ (s s1 t v : State) (g r i e : Nat) (u : Placed) (f : CodewordTry), t = s.scratchRead ∧ MayMove t g r i u ∧ s1 = ((t.wordReads g r (t.unitWords g u)).foldl State.readOnce t).readUnitWords g u f ∧ e = s1.unitErasures g u [] ∧ v = (s1.repairReads g u []).foldl State.readOnce ((s1.bump fPUG_SRC_RECON).bump (if e = 1 then fPAR_REPAIR_1 else fPAR_REPAIR_2)) ∧ 1 ≤ e ∧ e ≤ 2 ∧ u.tagOk (v.readForm g u [] []) = true) ∧
    (∃ (s s1 t v : State) (g r i e : Nat) (u : Placed) (f : CodewordTry), t = s.scratchRead ∧ MayMove t g r i u ∧ s1 = ((t.wordReads g r (t.unitWords g u)).foldl State.readOnce t).readUnitWords g u f ∧ e = s1.unitErasures g u [] ∧ v = (s1.repairReads g u []).foldl State.readOnce ((s1.bump fPUG_SRC_RECON).bump (if e = 1 then fPAR_REPAIR_1 else fPAR_REPAIR_2)) ∧ 1 ≤ e ∧ e ≤ 2 ∧ u.tagOk (v.readForm g u [] []) = false) ∧
    (∃ (s t : State) (g r i : Nat) (_f : CodewordTry), t = s.scratchRead ∧ (∀ u, ¬ MayMove t g r i u)) ∧
    (∃ (s t : State) (g r : Nat) (u : Placed), t = s.scratchRead ∧ (t.seg g).units = [u] ∧ u.row = r ∧ u.src.isSome = true ∧ u.dead = false ∧ u.verified = false ∧ (t.seg g).rowDone r = true) ∧
    (∃ (s t s1 s2 : State) (g r : Nat) (bad : List Nat) (us : List Placed) (hit : Placed → Bool), t = s.scratchRead ∧ (t.seg g).rowDone r = true ∧ us = (t.seg g).units.filter (fun u => u.row = r && u.src.isSome && !u.dead && !u.verified) ∧ us ≠ [] ∧ hit = (fun u => (unitPos g (t.seg g).width u).any (fun p => bad.contains ((t.seg g).posBlocks.getD p (0, 0)).1)) ∧ s1 = (us.filter (fun u => !hit u)).foldl (fun v u => v.setUnit g u { u with verified := true }) t ∧ s2 = ((us.filter hit).foldl (fun v u => (v.killUnit g u).bump fPUG_DEST_FAIL) s1).pugError 0x03 g r ∧ us.any hit = false) ∧
    (∃ (s t s1 s2 : State) (g r : Nat) (bad : List Nat) (us : List Placed) (hit : Placed → Bool), t = s.scratchRead ∧ (t.seg g).rowDone r = true ∧ us = (t.seg g).units.filter (fun u => u.row = r && u.src.isSome && !u.dead && !u.verified) ∧ us ≠ [] ∧ hit = (fun u => (unitPos g (t.seg g).width u).any (fun p => bad.contains ((t.seg g).posBlocks.getD p (0, 0)).1)) ∧ s1 = (us.filter (fun u => !hit u)).foldl (fun v u => v.setUnit g u { u with verified := true }) t ∧ s2 = ((us.filter hit).foldl (fun v u => (v.killUnit g u).bump fPUG_DEST_FAIL) s1).pugError 0x03 g r ∧ us.any hit = true) ∧
    (∃ (s t : State) (g r : Nat) (_bad : List Nat), t = s.scratchRead ∧ ((t.seg g).rowDone r = false ∨ (∀ u ∈ (t.seg g).units, u.row = r → u.src = none ∨ u.dead = true ∨ u.verified = true))) ∧
    (∃ (s t : State) (g r i id : Nat) (d u : Placed), t = s.scratchRead ∧ t.moveOf g r i = some (id, d) ∧ t.unitAtGrain g r i = some u ∧ d.verified = true ∧ (t.seg id).rowDone d.row = true ∧ t.unitLive g u = true ∧ t.deltaRoom (t.withTables [locRec 0 0 0, segRec id, segRec g]) = true) ∧
    (∃ (s t : State) (g r i id : Nat) (d u : Placed), t = s.scratchRead ∧ t.moveOf g r i = some (id, d) ∧ t.unitAtGrain g r i = some u ∧ d.verified = true ∧ (t.seg id).rowDone d.row = true ∧ t.unitLive g u = true ∧ t.deltaRoom (t.withTables [locRec 0 0 0, segRec id, segRec g]) = false) ∧
    (∃ (s t : State) (g r i id : Nat) (d u : Placed), t = s.scratchRead ∧ t.moveOf g r i = some (id, d) ∧ t.unitAtGrain g r i = some u ∧ d.verified = true ∧ (t.seg id).rowDone d.row = true ∧ t.unitLive g u = false) ∧
    (∃ (s t : State) (g r i id : Nat) (d : Placed), t = s.scratchRead ∧ t.moveOf g r i = some (id, d) ∧ t.unitAtGrain g r i = none ∧ d.verified = true) ∧
    (∃ (s t : State) (g r i : Nat), t = s.scratchRead ∧ (∀ id d, t.moveOf g r i = some (id, d) → d.verified = false ∨ ((t.unitAtGrain g r i).isSome = true ∧ (t.seg id).rowDone d.row = false))) ∧
    (∃ (s : State) (g : Nat), ¬ EraseBarred s g ∧ ((s.seg g).st ≠ 4 ∨ s.reg64 rFTL_CKPT_SEQ < (s.seg g).releaseSeq ∨ s.readHolds g = true)) ∧
    (∃ (s : State) (g : Nat), ¬ EraseBarred s g ∧ (s.seg g).st = 4 ∧ (s.seg g).releaseSeq ≤ s.reg64 rFTL_CKPT_SEQ ∧ s.readHolds g = false) ∧
    (∃ (s : State) (g : Nat), EraseBarred s g) ∧
    (∃ (s : State) (g : Nat), (s.seg g).st ≠ 5) ∧
    (∃ (s s1 s2 : State) (g : Nat), (s.seg g).st = 5 ∧ s1 = (s.seg g).posBlocks.foldl (State.returnBlock (s.seg g)) (((s.eraseOps (s.seg g)).foldl (fun t a => t.endOp a.1 opErase a.2) s).freeCids g) ∧ s2 = ((((s1.commit [segRec g]).setSeg g {}).bump fPUG_SEGS_RECLAIMED).modGroup (s.seg g).group (fun x => { x with noSpare := false }))) ∧
    (∃ (s : State) (g : Nat) (x : Nat × Nat × Nat), (s.seg g).st = 3 ∧ (s.seg g).unparsed = [x] ∧ (s.seg g).units = []) ∧
    (∃ (s : State) (g : Nat) (l : List Placed), (s.seg g).st = 3 ∧ (s.seg g).unparsed ≠ [] ∧ l = (s.seg g).units.filter (fun u => s.unitLive g u && (s.seg g).unparsed.contains (u.row, grainPos g (s.seg g).width u.row u.grain, u.grain % 32 / 8))) ∧
    (∃ (s : State) (g : Nat), ((s.seg g).st ≠ 3 ∨ (s.seg g).unparsed = [])) ∧
    (∃ (s : State) (h : CmdHdr) (g p : Nat), Ready s h pgPUG p .work ∧ g < 2 ^ 23 ∧ (s.seg g).st = 2) ∧
    (∃ (s : State) (h : CmdHdr) (g p : Nat), Ready s h pgPUG p .work ∧ 2 ^ 23 ≤ g) ∧
    (∃ (s : State) (h : CmdHdr) (g p : Nat), Ready s h pgPUG p .work ∧ g < 2 ^ 23 ∧ (s.seg g).st ≠ 2) ∧
    (∃ (s : State) (h : CmdHdr) (g n p : Nat), Ready s h pgPUG p .release ∧ g < 4 ∧ (n = 0 ∨ (s.group g).level ≠ 2)) ∧
    (∃ (s : State) (h : CmdHdr) (g _n p : Nat), Ready s h pgPUG p .release ∧ 4 ≤ g) ∧
    (∃ (s : State) (h : CmdHdr) (g n p : Nat), Ready s h pgPUG p .release ∧ g < 4 ∧ n ≠ 0 ∧ (s.group g).level = 2) ∧
    (∃ (s : State), (s.back.segs.any fun e => decide (e.2.st = 4) && decide (s.reg64 rFTL_CKPT_SEQ < e.2.releaseSeq)) = true) ∧
    (∃ (s : State), (s.back.segs.any fun e => decide (e.2.st = 4) && decide (s.reg64 rFTL_CKPT_SEQ < e.2.releaseSeq)) = false) :=
  ⟨⟨{ withSeg [pgPUG] 5 { st := 2 } with back.groups := [(0, { exists_ := true, reclaim := [5] })] }, 0, 5, by decide +kernel⟩,
   ⟨unverified {}, 0, by decide +kernel⟩,
   ⟨unverified {}, by decide +kernel⟩,
   ⟨victim [] fVictim, ((((victim [] fVictim : State).scratchRead : State).wordReads 0 0 (((victim [] fVictim : State).scratchRead : State).unitWords 0 fGood)).foldl State.readOnce ((victim [] fVictim : State).scratchRead : State)).readUnitWords 0 fGood (⟨[], []⟩ : CodewordTry), (victim [] fVictim : State).scratchRead, ((((((victim [] fVictim : State).scratchRead : State).wordReads 0 0 (((victim [] fVictim : State).scratchRead : State).unitWords 0 fGood)).foldl State.readOnce ((victim [] fVictim : State).scratchRead : State)).readUnitWords 0 fGood (⟨[], []⟩ : CodewordTry) : State).repairReads 0 fGood []).foldl State.readOnce (((((((victim [] fVictim : State).scratchRead : State).wordReads 0 0 (((victim [] fVictim : State).scratchRead : State).unitWords 0 fGood)).foldl State.readOnce ((victim [] fVictim : State).scratchRead : State)).readUnitWords 0 fGood (⟨[], []⟩ : CodewordTry) : State).bump fPUG_SRC_RECON).bump (if 0 = 1 then fPAR_REPAIR_1 else fPAR_REPAIR_2)), 0, 0, 0, 0, fGood, ⟨[], []⟩, rfl, by decide +kernel, rfl, by decide +kernel, rfl, by decide +kernel⟩,
   ⟨victim [1, 2, 3] fVictim, ((((victim [1, 2, 3] fVictim : State).scratchRead : State).wordReads 0 0 (((victim [1, 2, 3] fVictim : State).scratchRead : State).unitWords 0 fGood)).foldl State.readOnce ((victim [1, 2, 3] fVictim : State).scratchRead : State)).readUnitWords 0 fGood (⟨[], []⟩ : CodewordTry), (victim [1, 2, 3] fVictim : State).scratchRead, ((((((victim [1, 2, 3] fVictim : State).scratchRead : State).wordReads 0 0 (((victim [1, 2, 3] fVictim : State).scratchRead : State).unitWords 0 fGood)).foldl State.readOnce ((victim [1, 2, 3] fVictim : State).scratchRead : State)).readUnitWords 0 fGood (⟨[], []⟩ : CodewordTry) : State).repairReads 0 fGood []).foldl State.readOnce (((((((victim [1, 2, 3] fVictim : State).scratchRead : State).wordReads 0 0 (((victim [1, 2, 3] fVictim : State).scratchRead : State).unitWords 0 fGood)).foldl State.readOnce ((victim [1, 2, 3] fVictim : State).scratchRead : State)).readUnitWords 0 fGood (⟨[], []⟩ : CodewordTry) : State).bump fPUG_SRC_RECON).bump (if 3 = 1 then fPAR_REPAIR_1 else fPAR_REPAIR_2)), 0, 0, 0, 3, fGood, ⟨[], []⟩, rfl, by decide +kernel, rfl, by decide +kernel, rfl, by decide +kernel⟩,
   ⟨victim [2] fGuarded, ((((victim [2] fGuarded : State).scratchRead : State).wordReads 0 0 (((victim [2] fGuarded : State).scratchRead : State).unitWords 0 fGood)).foldl State.readOnce ((victim [2] fGuarded : State).scratchRead : State)).readUnitWords 0 fGood (⟨[], []⟩ : CodewordTry), (victim [2] fGuarded : State).scratchRead, ((((((victim [2] fGuarded : State).scratchRead : State).wordReads 0 0 (((victim [2] fGuarded : State).scratchRead : State).unitWords 0 fGood)).foldl State.readOnce ((victim [2] fGuarded : State).scratchRead : State)).readUnitWords 0 fGood (⟨[], []⟩ : CodewordTry) : State).repairReads 0 fGood []).foldl State.readOnce (((((((victim [2] fGuarded : State).scratchRead : State).wordReads 0 0 (((victim [2] fGuarded : State).scratchRead : State).unitWords 0 fGood)).foldl State.readOnce ((victim [2] fGuarded : State).scratchRead : State)).readUnitWords 0 fGood (⟨[], []⟩ : CodewordTry) : State).bump fPUG_SRC_RECON).bump (if 1 = 1 then fPAR_REPAIR_1 else fPAR_REPAIR_2)), 0, 0, 0, 1, fGood, ⟨[], []⟩, rfl, by decide +kernel, rfl, by decide +kernel, rfl, by decide +kernel, by decide +kernel, by decide +kernel⟩,
   ⟨victim [2] fSpoilt, ((((victim [2] fSpoilt : State).scratchRead : State).wordReads 0 0 (((victim [2] fSpoilt : State).scratchRead : State).unitWords 0 fUnit)).foldl State.readOnce ((victim [2] fSpoilt : State).scratchRead : State)).readUnitWords 0 fUnit (⟨[], []⟩ : CodewordTry), (victim [2] fSpoilt : State).scratchRead, ((((((victim [2] fSpoilt : State).scratchRead : State).wordReads 0 0 (((victim [2] fSpoilt : State).scratchRead : State).unitWords 0 fUnit)).foldl State.readOnce ((victim [2] fSpoilt : State).scratchRead : State)).readUnitWords 0 fUnit (⟨[], []⟩ : CodewordTry) : State).repairReads 0 fUnit []).foldl State.readOnce (((((((victim [2] fSpoilt : State).scratchRead : State).wordReads 0 0 (((victim [2] fSpoilt : State).scratchRead : State).unitWords 0 fUnit)).foldl State.readOnce ((victim [2] fSpoilt : State).scratchRead : State)).readUnitWords 0 fUnit (⟨[], []⟩ : CodewordTry) : State).bump fPUG_SRC_RECON).bump (if 1 = 1 then fPAR_REPAIR_1 else fPAR_REPAIR_2)), 0, 0, 0, 1, fUnit, ⟨[], []⟩, rfl, by decide +kernel, rfl, by decide +kernel, rfl, by decide +kernel, by decide +kernel, by decide +kernel⟩,
   ⟨State.reset, (State.reset : State).scratchRead, 0, 0, 0, ⟨[], []⟩, rfl, (by intro u h; cases h.1)⟩,
   ⟨unverified {}, (unverified {} : State).scratchRead, 5, ({ kind := 0, row := 0, grain := 0, grains := 9, ref := 16, app := 0, cid := 0, seq := 0, form := [], tag := [], src := some (0, 0, 0), verified := false, dead := false } : Placed).row, { kind := 0, row := 0, grain := 0, grains := 9, ref := 16, app := 0, cid := 0, seq := 0, form := [], tag := [], src := some (0, 0, 0), verified := false, dead := false }, rfl, by decide +kernel, by decide +kernel, by decide +kernel, by decide +kernel, by decide +kernel, by decide +kernel⟩,
   ⟨unverified {}, (unverified {} : State).scratchRead, (((((unverified {} : State).scratchRead : State).seg 5).units.filter (fun u => u.row = 0 && u.src.isSome && !u.dead && !u.verified) : List Placed).filter (fun u => !((fun u => (unitPos 5 (((unverified {} : State).scratchRead : State).seg 5).width u).any (fun p => ([] : List Nat).contains ((((unverified {} : State).scratchRead : State).seg 5).posBlocks.getD p (0, 0)).1)) : Placed → Bool) u)).foldl (fun v u => v.setUnit 5 u { u with verified := true }) ((unverified {} : State).scratchRead : State), ((((((unverified {} : State).scratchRead : State).seg 5).units.filter (fun u => u.row = 0 && u.src.isSome && !u.dead && !u.verified) : List Placed).filter ((fun u => (unitPos 5 (((unverified {} : State).scratchRead : State).seg 5).width u).any (fun p => ([] : List Nat).contains ((((unverified {} : State).scratchRead : State).seg 5).posBlocks.getD p (0, 0)).1)) : Placed → Bool)).foldl (fun v u => (v.killUnit 5 u).bump fPUG_DEST_FAIL) ((((((unverified {} : State).scratchRead : State).seg 5).units.filter (fun u => u.row = 0 && u.src.isSome && !u.dead && !u.verified) : List Placed).filter (fun u => !((fun u => (unitPos 5 (((unverified {} : State).scratchRead : State).seg 5).width u).any (fun p => ([] : List Nat).contains ((((unverified {} : State).scratchRead : State).seg 5).posBlocks.getD p (0, 0)).1)) : Placed → Bool) u)).foldl (fun v u => v.setUnit 5 u { u with verified := true }) ((unverified {} : State).scratchRead : State) : State)).pugError 0x03 5 0, 5, 0, [], (((unverified {} : State).scratchRead : State).seg 5).units.filter (fun u => u.row = 0 && u.src.isSome && !u.dead && !u.verified), (fun u => (unitPos 5 (((unverified {} : State).scratchRead : State).seg 5).width u).any (fun p => ([] : List Nat).contains ((((unverified {} : State).scratchRead : State).seg 5).posBlocks.getD p (0, 0)).1)), rfl, by decide +kernel, by decide +kernel, by decide +kernel, rfl, rfl, rfl, by decide +kernel⟩,
   ⟨unverified (fSeg 2), unverified (fSeg 2), hitKept, hitState, 5, 0, [0, 1, 2, 3, 4, 5], hitUnits, hitBy, rfl, by decide +kernel, by decide +kernel, by decide +kernel, rfl, rfl, rfl, by decide +kernel⟩,
   ⟨State.reset, (State.reset : State).scratchRead, 0, 0, [], rfl, (Or.inr (by intro u h; cases h))⟩,
   ⟨moves fVictim fMoved, (moves fVictim fMoved : State).scratchRead, 0, 0, 0, 1, { kind := 0, row := 0, grain := 0, grains := 9, ref := 16, app := 0, cid := 0, seq := 0, form := [], tag := [], src := some (0, 0, 0), verified := true, dead := false }, { kind := 0, row := 0, grain := 0, grains := 1, ref := 16, app := 0, cid := 0, seq := 0, form := [0, 0, 0, 0, 0, 0, 0, 0, 0, 0, 0, 0, 0, 0, 0, 0, 0, 0, 0, 0, 0, 0, 0, 0, 0, 0, 0, 0, 0, 0, 0, 0, 0, 0, 0, 0, 0, 0, 0, 0, 0, 0, 0, 0, 0, 0, 0, 0, 0, 0, 0, 0, 0, 0, 0, 0, 0, 0, 0, 0, 0, 0, 0, 0, 0, 0, 0, 0, 0, 0, 0, 0, 0, 0, 0, 0, 0, 0, 0, 0, 0, 0, 0, 0, 0, 0, 0, 0, 0, 0, 0, 0, 0, 0, 0, 0, 0, 0, 0, 0], tag := [135, 211, 227, 217, 158, 30, 15, 116, 0, 100, 0, 0, 0, 0, 0, 16], src := none, verified := false, dead := false }, rfl, by decide +kernel, by decide +kernel, by decide +kernel, by decide +kernel, by decide +kernel, by decide +kernel⟩,
   ⟨{ moves fVictim fMoved with back.ring := [(0, 2 ^ 40)] }, ({ moves fVictim fMoved with back.ring := [(0, 2 ^ 40)] } : State).scratchRead, 0, 0, 0, 1, { kind := 0, row := 0, grain := 0, grains := 9, ref := 16, app := 0, cid := 0, seq := 0, form := [], tag := [], src := some (0, 0, 0), verified := true, dead := false }, { kind := 0, row := 0, grain := 0, grains := 1, ref := 16, app := 0, cid := 0, seq := 0, form := [0, 0, 0, 0, 0, 0, 0, 0, 0, 0, 0, 0, 0, 0, 0, 0, 0, 0, 0, 0, 0, 0, 0, 0, 0, 0, 0, 0, 0, 0, 0, 0, 0, 0, 0, 0, 0, 0, 0, 0, 0, 0, 0, 0, 0, 0, 0, 0, 0, 0, 0, 0, 0, 0, 0, 0, 0, 0, 0, 0, 0, 0, 0, 0, 0, 0, 0, 0, 0, 0, 0, 0, 0, 0, 0, 0, 0, 0, 0, 0, 0, 0, 0, 0, 0, 0, 0, 0, 0, 0, 0, 0, 0, 0, 0, 0, 0, 0, 0, 0], tag := [135, 211, 227, 217, 158, 30, 15, 116, 0, 100, 0, 0, 0, 0, 0, 16], src := none, verified := false, dead := false }, rfl, by decide +kernel, by decide +kernel, by decide +kernel, by decide +kernel, by decide +kernel, by decide +kernel⟩,
   ⟨{ moves fVictim fMoved with lmap.cids := [] }, ({ moves fVictim fMoved with lmap.cids := [] } : State).scratchRead, 0, 0, 0, 1, { kind := 0, row := 0, grain := 0, grains := 9, ref := 16, app := 0, cid := 0, seq := 0, form := [], tag := [], src := some (0, 0, 0), verified := true, dead := false }, { kind := 0, row := 0, grain := 0, grains := 1, ref := 16, app := 0, cid := 0, seq := 0, form := [0, 0, 0, 0, 0, 0, 0, 0, 0, 0, 0, 0, 0, 0, 0, 0, 0, 0, 0, 0, 0, 0, 0, 0, 0, 0, 0, 0, 0, 0, 0, 0, 0, 0, 0, 0, 0, 0, 0, 0, 0, 0, 0, 0, 0, 0, 0, 0, 0, 0, 0, 0, 0, 0, 0, 0, 0, 0, 0, 0, 0, 0, 0, 0, 0, 0, 0, 0, 0, 0, 0, 0, 0, 0, 0, 0, 0, 0, 0, 0, 0, 0, 0, 0, 0, 0, 0, 0, 0, 0, 0, 0, 0, 0, 0, 0, 0, 0, 0, 0], tag := [135, 211, 227, 217, 158, 30, 15, 116, 0, 100, 0, 0, 0, 0, 0, 16], src := none, verified := false, dead := false }, rfl, by decide +kernel, by decide +kernel, by decide +kernel, by decide +kernel, by decide +kernel⟩,
   ⟨moves { fVictim with units := [] } fMoved, (moves { fVictim with units := [] } fMoved : State).scratchRead, 0, 0, 0, 1, { kind := 0, row := 0, grain := 0, grains := 9, ref := 16, app := 0, cid := 0, seq := 0, form := [], tag := [], src := some (0, 0, 0), verified := true, dead := false }, rfl, by decide +kernel, by decide +kernel, by decide +kernel⟩,
   ⟨State.reset, (State.reset : State).scratchRead, 0, 0, 0, rfl, (by intro id d h; cases h)⟩,
   ⟨{ withSeg [pgPUG] 5 { st := 2 } with back.groups := [(0, { exists_ := true, reclaim := [5] })] }, 0, by decide +kernel⟩,
   ⟨withSeg [pgPUG] 5 { st := 4 }, 5, by decide +kernel⟩,
   ⟨unverified {}, 0, by decide +kernel⟩,
   ⟨unverified {}, 0, by decide +kernel⟩,
   ⟨withSeg [pgPUG] 5 { st := 5 }, ((withSeg [pgPUG] 5 { st := 5 } : State).seg 5).posBlocks.foldl (State.returnBlock ((withSeg [pgPUG] 5 { st := 5 } : State).seg 5)) ((((withSeg [pgPUG] 5 { st := 5 } : State).eraseOps ((withSeg [pgPUG] 5 { st := 5 } : State).seg 5)).foldl (fun t a => t.endOp a.1 opErase a.2) (withSeg [pgPUG] 5 { st := 5 } : State)).freeCids 5), (((((((withSeg [pgPUG] 5 { st := 5 } : State).seg 5).posBlocks.foldl (State.returnBlock ((withSeg [pgPUG] 5 { st := 5 } : State).seg 5)) ((((withSeg [pgPUG] 5 { st := 5 } : State).eraseOps ((withSeg [pgPUG] 5 { st := 5 } : State).seg 5)).foldl (fun t a => t.endOp a.1 opErase a.2) (withSeg [pgPUG] 5 { st := 5 } : State)).freeCids 5) : State).commit [segRec 5]).setSeg 5 {}).bump fPUG_SEGS_RECLAIMED).modGroup ((withSeg [pgPUG] 5 { st := 5 } : State).seg 5).group (fun x => { x with noSpare := false })), 5, by decide +kernel, rfl, rfl⟩,
   ⟨withSeg [pgPUG] 5 { st := 3, unparsed := [(0, 0, 0)] }, 5, (0, 0, 0), by decide +kernel⟩,
   ⟨withSeg [pgPUG] 5 { st := 3, unparsed := [(0, 0, 0)] }, 5, ((withSeg [pgPUG] 5 { st := 3, unparsed := [(0, 0, 0)] } : State).seg 5).units.filter (fun u => (withSeg [pgPUG] 5 { st := 3, unparsed := [(0, 0, 0)] } : State).unitLive 5 u && ((withSeg [pgPUG] 5 { st := 3, unparsed := [(0, 0, 0)] } : State).seg 5).unparsed.contains (u.row, grainPos 5 ((withSeg [pgPUG] 5 { st := 3, unparsed := [(0, 0, 0)] } : State).seg 5).width u.row u.grain, u.grain % 32 / 8)), by decide +kernel⟩,
   ⟨unverified {}, 0, by decide +kernel⟩,
   ⟨withSeg [pgEVT, pgPUG] (2 ^ 23 - 1) { st := 2 }, hdr 0, 2 ^ 23 - 1, pgPUG, by decide +kernel⟩,
   ⟨withSeg [pgEVT, pgPUG] (2 ^ 23 - 1) { st := 2 }, hdr 0, 2 ^ 23, pgPUG, by decide +kernel⟩,
   ⟨withSeg [pgEVT, pgPUG] (2 ^ 23 - 1) { st := 2 }, hdr 0, 0, pgPUG, by decide +kernel⟩,
   ⟨running [pgEVT, pgPUG], hdr 0, 3, 3, pgPUG, by decide +kernel⟩,
   ⟨withSeg [pgEVT, pgPUG] (2 ^ 23 - 1) { st := 2 }, hdr 0, 5, 0, pgPUG, by decide +kernel⟩,
   ⟨{ running [pgEVT, pgPUG] with back.groups := [(3, { level := 2 })] }, hdr 0, 3, 3, pgPUG, by decide +kernel⟩,
   ⟨withSeg [pgPUG] 5 { st := 4, releaseSeq := 1 }, by decide +kernel⟩,
   ⟨unverified {}, by decide +kernel⟩⟩

theorem witness_ParityRepairs :
    (∃ (ds : List (List Byte)) (x : Nat) (_q : Option (List Byte)), (∀ d ∈ ds, d.length = 4112) ∧ ds.length ≤ 22 ∧ x < ds.length) ∧
    (∃ (ds : List (List Byte)) (x : Nat), (∀ d ∈ ds, d.length = 4112) ∧ ds.length ≤ 22 ∧ x < ds.length) ∧
    (∃ (ds : List (List Byte)) (x y : Nat), (∀ d ∈ ds, d.length = 4112) ∧ ds.length ≤ 22 ∧ x < y ∧ y < ds.length) :=
  ⟨⟨List.replicate 22 (List.replicate 4112 0), 21, none, fun d h => by rw [List.eq_of_mem_replicate h]; exact List.length_replicate, by decide +kernel, by decide +kernel⟩,
   ⟨List.replicate 22 (List.replicate 4112 0), 0, fun d h => by rw [List.eq_of_mem_replicate h]; exact List.length_replicate, by decide +kernel, by decide +kernel⟩,
   ⟨List.replicate 22 (List.replicate 4112 0), 0, 21, fun d h => by rw [List.eq_of_mem_replicate h]; exact List.length_replicate, by decide +kernel, by decide, by decide +kernel⟩⟩

theorem witness_ParityAndRebuild :
    (∃ (s t : State) (k : Nat) (r : ReadUnit) (ar : Arrived) (id row i : Nat) (u : Placed), s.readUnit k = some r ∧ r.phase = .repair ∧ s.working pgPAR = true ∧ s.rowGrain r.loc = some (id, row, i) ∧ s.placedAt r.loc = some u ∧ t = s.endReads r.ops ∧ t.unitErasures id u r.erased = 0 ∧ u.tagOk (t.readForm id u ar r.erased) = true) ∧
    (∃ (s t : State) (k : Nat) (r : ReadUnit) (ar : Arrived) (id row i : Nat) (u : Placed), s.readUnit k = some r ∧ r.phase = .repair ∧ s.working pgPAR = true ∧ s.rowGrain r.loc = some (id, row, i) ∧ s.placedAt r.loc = some u ∧ t = s.endReads r.ops ∧ t.unitErasures id u r.erased = 0 ∧ u.tagOk (t.readForm id u ar r.erased) = false) ∧
    (∃ (s t : State) (k : Nat) (r : ReadUnit) (ar : Arrived) (id row i : Nat) (u : Placed), s.readUnit k = some r ∧ r.phase = .repair ∧ s.working pgPAR = true ∧ s.rowGrain r.loc = some (id, row, i) ∧ s.placedAt r.loc = some u ∧ t = s.endReads r.ops ∧ t.unitErasures id u r.erased = 1 ∧ u.tagOk (t.readForm id u ar r.erased) = true) ∧
    (∃ (s t : State) (k : Nat) (r : ReadUnit) (ar : Arrived) (id row i : Nat) (u : Placed), s.readUnit k = some r ∧ r.phase = .repair ∧ s.working pgPAR = true ∧ s.rowGrain r.loc = some (id, row, i) ∧ s.placedAt r.loc = some u ∧ t = s.endReads r.ops ∧ t.unitErasures id u r.erased = 1 ∧ u.tagOk (t.readForm id u ar r.erased) = false) ∧
    (∃ (s t : State) (k : Nat) (r : ReadUnit) (ar : Arrived) (id row i : Nat) (u : Placed), s.readUnit k = some r ∧ r.phase = .repair ∧ s.working pgPAR = true ∧ s.rowGrain r.loc = some (id, row, i) ∧ s.placedAt r.loc = some u ∧ t = s.endReads r.ops ∧ t.unitErasures id u r.erased = 2 ∧ u.tagOk (t.readForm id u ar r.erased) = true) ∧
    (∃ (s t : State) (k : Nat) (r : ReadUnit) (ar : Arrived) (id row i : Nat) (u : Placed), s.readUnit k = some r ∧ r.phase = .repair ∧ s.working pgPAR = true ∧ s.rowGrain r.loc = some (id, row, i) ∧ s.placedAt r.loc = some u ∧ t = s.endReads r.ops ∧ t.unitErasures id u r.erased = 2 ∧ u.tagOk (t.readForm id u ar r.erased) = false) ∧
    (∃ (s t : State) (k : Nat) (r : ReadUnit) (_ar : Arrived) (id row i : Nat) (u : Placed), s.readUnit k = some r ∧ r.phase = .repair ∧ s.working pgPAR = true ∧ s.rowGrain r.loc = some (id, row, i) ∧ s.placedAt r.loc = some u ∧ t = s.endReads r.ops ∧ 3 ≤ t.unitErasures id u r.erased) ∧
    (∃ (s : State) (k : Nat) (r : ReadUnit) (_ar : Arrived), s.readUnit k = some r ∧ r.phase = .repair ∧ s.working pgPAR = true ∧ (s.rowGrain r.loc = none ∨ s.placedAt r.loc = none)) ∧
    (∃ (s : State) (k : Nat) (_ar : Arrived), (∀ r, s.readUnit k = some r → r.phase ≠ .repair ∨ s.working pgPAR = false)) ∧
    (∃ (s : State) (h : CmdHdr) (g mode spare mask smask p : Nat) (sp : List Nat), Ready s h pgPAR p .work ∧ sp = (if mode = 1 then bitList 32 smask else []) ∧ GroupArgs s g mode spare (bitList 32 mask) sp ∧ (s.group g).exists_ = false ∧ s.oneDie (bitList 32 mask ++ sp) = true) ∧
    (∃ (s : State) (h : CmdHdr) (g mode spare mask smask p : Nat) (sp : List Nat), Ready s h pgPAR p .work ∧ sp = (if mode = 1 then bitList 32 smask else []) ∧ GroupArgs s g mode spare (bitList 32 mask) sp ∧ (s.group g).exists_ = true) ∧
    (∃ (s : State) (h : CmdHdr) (g mode spare mask smask p : Nat) (sp : List Nat), Ready s h pgPAR p .work ∧ sp = (if mode = 1 then bitList 32 smask else []) ∧ GroupArgs s g mode spare (bitList 32 mask) sp ∧ (s.group g).exists_ = false ∧ s.oneDie (bitList 32 mask ++ sp) = false) ∧
    (∃ (s : State) (h : CmdHdr) (g mode spare mask smask p : Nat) (sp : List Nat), Ready s h pgPAR p .work ∧ sp = (if mode = 1 then bitList 32 smask else []) ∧ ¬ GroupArgs s g mode spare (bitList 32 mask) sp) ∧
    (∃ (s : State) (h : CmdHdr) (g p : Nat), Ready s h pgPAR p .work ∧ g < 4 ∧ (s.group g).exists_ = true ∧ (∀ e ∈ s.back.segs, e.2.st = 0 ∨ e.2.group ≠ g)) ∧
    (∃ (s : State) (h : CmdHdr) (g p : Nat), Ready s h pgPAR p .work ∧ g < 4 ∧ (s.group g).exists_ = true ∧ (∃ e ∈ s.back.segs, e.2.st ≠ 0 ∧ e.2.group = g) ∧ (s.group g).foreign = none) ∧
    (∃ (s : State) (h : CmdHdr) (g p : Nat), Ready s h pgPAR p .work ∧ g < 4 ∧ (s.group g).exists_ = true ∧ (s.group g).foreign.isSome = true) ∧
    (∃ (s : State) (h : CmdHdr) (g p : Nat), Ready s h pgPAR p .work ∧ (4 ≤ g ∨ (s.group g).exists_ = false)) ∧
    (∃ (s : State), MayDump s) ∧
    (∃ (s : State), ¬ MayDump s) ∧
    (∃ (s t : State) (_us n : Nat), s.back.dumping = some n ∧ (s.plat.chip.shelf = true ∨ s.zeroized = false) ∧ t = ({ (s.ringTake s.ringUsed).1 with back.dumping := none, plat.chip.dumpDone := true } : State).modDump n (fun d => { d with final := true, lastComplete := s.lmap.commitSeq, image := some (s.committedMaps 0), units := s.dumpUnits, bytes := s.dumpBytes s.dumpUnits.length, log := s.logInUse, mirror := s.dumpMirror })) ∧
    (∃ (s t : State) (_us n : Nat), s.back.dumping = some n ∧ s.plat.chip.shelf = false ∧ s.zeroized = true ∧ t = ({ s with back.dumping := none, plat.chip.dumpDone := true } : State).modDump n (fun d => { d with final := true, bytes := 2 ^ 20 + 2 ^ 24, log := s.logInUse })) ∧
    (∃ (s : State) (_us : Nat), s.back.dumping = none) ∧
    (∃ (s : State) (h : CmdHdr) (p : Nat), Ready s h pgSAG p .work ∧ s.newestDump = none) ∧
    (∃ (s : State) (h : CmdHdr) (p : Nat) (d : _), Ready s h pgSAG p .work ∧ s.newestDump = some d ∧ d.shelf ≠ s.plat.chip.shelf) ∧
    (∃ (s : State) (h : CmdHdr) (p : Nat) (d : _), Ready s h pgSAG p .work ∧ s.newestDump = some d ∧ d.shelf = s.plat.chip.shelf ∧ s.back.replay.isSome = true) ∧
    (∃ (s : State) (h : CmdHdr) (p : Nat) (d : _), Ready s h pgSAG p .work ∧ s.newestDump = some d ∧ d.shelf = s.plat.chip.shelf ∧ s.back.replay = none) ∧
    (∃ (s : State) (m : Nat), (s.member m).st = 1 ∧ (s.link m).st ≠ lkUp ∧ (s.link m).owner = 1 ∧ s.working pgRBLD = true) ∧
    (∃ (s : State) (m : Nat), ((s.member m).st ≠ 1 ∨ (s.link m).st = lkUp ∨ (s.link m).owner ≠ 1 ∨ s.working pgRBLD = false)) ∧
    (∃ (s : State) (m : Nat), (s.member m).st = 2 ∧ s.fld fRBLD_CFG_OFFLINE_MAX_S ≠ 0 ∧ s.working pgRBLD = true) ∧
    (∃ (s : State) (m : Nat), ((s.member m).st ≠ 2 ∨ s.fld fRBLD_CFG_OFFLINE_MAX_S = 0 ∨ s.working pgRBLD = false)) ∧
    (∃ (s : State) (g : Nat) (id : _), s.runs pgRBLD = true ∧ s.groupMoves g = true ∧ (s.group g).rebuilding = none ∧ s.rebuildNext g = some id) ∧
    (∃ (s : State) (g : Nat), (s.runs pgRBLD = false ∨ s.groupMoves g = false ∨ (s.group g).rebuilding.isSome = true ∨ s.rebuildNext g = none)) ∧
    (∃ (s : State) (h : CmdHdr) (m p : Nat), Ready s h pgRBLD p .work ∧ ((s.member m).st = 1 ∨ (s.member m).st = 2)) ∧
    (∃ (s : State) (h : CmdHdr) (m p : Nat), Ready s h pgRBLD p .work ∧ (s.member m).st ≠ 1 ∧ (s.member m).st ≠ 2) ∧
    (∃ (s : State) (h : CmdHdr) (m p : Nat), Ready s h pgRBLD p .work ∧ (s.member m).st = 1 ∧ (s.group (s.member m).group).st = 0 ∧ (s.groupMembers (s.member m).group).any (fun k => (s.member k).offCmd.isSome) = false) ∧
    (∃ (s : State) (h : CmdHdr) (m p : Nat), Ready s h pgRBLD p .work ∧ (s.member m).st = 1 ∧ ((s.group (s.member m).group).st ≠ 0 ∨ (s.groupMembers (s.member m).group).any (fun k => (s.member k).offCmd.isSome) = true)) ∧
    (∃ (s : State) (h : CmdHdr) (m p : Nat), Ready s h pgRBLD p .work ∧ (s.member m).st ≠ 1) ∧
    (∃ (s : State) (h : CmdHdr) (m p : Nat), Ready s h pgRBLD p .work ∧ (s.member m).st = 2) ∧
    (∃ (s : State) (h : CmdHdr) (m p : Nat), Ready s h pgRBLD p .work ∧ (s.member m).st ≠ 2) ∧
    (∃ (s : State) (h : CmdHdr) (m g n p : Nat), Ready s h pgRBLD p .work ∧ MayJoin s m g ∧ n ≠ 0) ∧
    (∃ (s : State) (h : CmdHdr) (m g n p : Nat), Ready s h pgRBLD p .work ∧ MayJoin s m g ∧ n = 0) ∧
    (∃ (s : State) (h : CmdHdr) (m g _n p : Nat), Ready s h pgRBLD p .work ∧ ¬ MayJoin s m g) :=
  ⟨⟨repairIn [] (fParity fWhole), (repairIn [] (fParity fWhole) : State).endReads ({ cmd := 0, idx := 0, lba := 0, cid := 16, app := 0, quad := 0, phase := .repair, form := [], data := [], ffPi := false, loc := 17592194433024, grains := 0, ops := [], erased := [], tries := 0, eng := none, failed := none } : ReadUnit).ops, 1, { cmd := 0, idx := 0, lba := 0, cid := 16, app := 0, quad := 0, phase := .repair, form := [], data := [], ffPi := false, loc := 17592194433024, grains := 0, ops := [], erased := [], tries := 0, eng := none, failed := none }, [], 0, 0, 0, { kind := 0, row := 0, grain := 0, grains := 1, ref := 16, app := 0, cid := 0, seq := 0, form := [0, 0, 0, 0, 0, 0, 0, 0, 0, 0, 0, 0, 0, 0, 0, 0, 0, 0, 0, 0, 0, 0, 0, 0, 0, 0, 0, 0, 0, 0, 0, 0, 0, 0, 0, 0, 0, 0, 0, 0, 0, 0, 0, 0, 0, 0, 0, 0, 0, 0, 0, 0, 0, 0, 0, 0, 0, 0, 0, 0, 0, 0, 0, 0, 0, 0, 0, 0, 0, 0, 0, 0, 0, 0, 0, 0, 0, 0, 0, 0, 0, 0, 0, 0, 0, 0, 0, 0, 0, 0, 0, 0, 0, 0, 0, 0, 0, 0, 0, 0], tag := [135, 211, 227, 217, 158, 30, 15, 116, 0, 100, 0, 0, 0, 0, 0, 16], src := none, verified := false, dead := false }, by decide +kernel, by decide +kernel, by decide +kernel, by decide +kernel, by decide +kernel, rfl, by decide +kernel, by decide +kernel⟩,
   ⟨repairIn [] (fSeg 2), (repairIn [] (fSeg 2) : State).endReads ({ cmd := 0, idx := 0, lba := 0, cid := 16, app := 0, quad := 0, phase := .repair, form := [], data := [], ffPi := false, loc := 17592194433024, grains := 0, ops := [], erased := [], tries := 0, eng := none, failed := none } : ReadUnit).ops, 1, { cmd := 0, idx := 0, lba := 0, cid := 16, app := 0, quad := 0, phase := .repair, form := [], data := [], ffPi := false, loc := 17592194433024, grains := 0, ops := [], erased := [], tries := 0, eng := none, failed := none }, [], 0, 0, 0, { kind := 0, row := 0, grain := 0, grains := 9, ref := 16, app := 0, cid := 0, seq := 0, form := [], tag := [], src := none, verified := false, dead := false }, by decide +kernel, by decide +kernel, by decide +kernel, by decide +kernel, by decide +kernel, rfl, by decide +kernel, by decide +kernel⟩,
   ⟨repairIn [2] (fParity fWhole), (repairIn [2] (fParity fWhole) : State).endReads ({ cmd := 0, idx := 0, lba := 0, cid := 16, app := 0, quad := 0, phase := .repair, form := [], data := [], ffPi := false, loc := 17592194433024, grains := 0, ops := [], erased := [], tries := 0, eng := none, failed := none } : ReadUnit).ops, 1, { cmd := 0, idx := 0, lba := 0, cid := 16, app := 0, quad := 0, phase := .repair, form := [], data := [], ffPi := false, loc := 17592194433024, grains := 0, ops := [], erased := [], tries := 0, eng := none, failed := none }, [], 0, 0, 0, { kind := 0, row := 0, grain := 0, grains := 1, ref := 16, app := 0, cid := 0, seq := 0, form := [0, 0, 0, 0, 0, 0, 0, 0, 0, 0, 0, 0, 0, 0, 0, 0, 0, 0, 0, 0, 0, 0, 0, 0, 0, 0, 0, 0, 0, 0, 0, 0, 0, 0, 0, 0, 0, 0, 0, 0, 0, 0, 0, 0, 0, 0, 0, 0, 0, 0, 0, 0, 0, 0, 0, 0, 0, 0, 0, 0, 0, 0, 0, 0, 0, 0, 0, 0, 0, 0, 0, 0, 0, 0, 0, 0, 0, 0, 0, 0, 0, 0, 0, 0, 0, 0, 0, 0, 0, 0, 0, 0, 0, 0, 0, 0, 0, 0, 0, 0], tag := [135, 211, 227, 217, 158, 30, 15, 116, 0, 100, 0, 0, 0, 0, 0, 16], src := none, verified := false, dead := false }, by decide +kernel, by decide +kernel, by decide +kernel, by decide +kernel, by decide +kernel, rfl, by decide +kernel, by decide +kernel⟩,
   ⟨repairIn [2] (fParity (fSeg 2)), (repairIn [2] (fParity (fSeg 2)) : State).endReads ({ cmd := 0, idx := 0, lba := 0, cid := 16, app := 0, quad := 0, phase := .repair, form := [], data := [], ffPi := false, loc := 17592194433024, grains := 0, ops := [], erased := [], tries := 0, eng := none, failed := none } : ReadUnit).ops, 1, { cmd := 0, idx := 0, lba := 0, cid := 16, app := 0, quad := 0, phase := .repair, form := [], data := [], ffPi := false, loc := 17592194433024, grains := 0, ops := [], erased := [], tries := 0, eng := none, failed := none }, [], 0, 0, 0, { kind := 0, row := 0, grain := 0, grains := 9, ref := 16, app := 0, cid := 0, seq := 0, form := [], tag := [], src := none, verified := false, dead := false }, by decide +kernel, by decide +kernel, by decide +kernel, by decide +kernel, by decide +kernel, rfl, by decide +kernel, by decide +kernel⟩,
   ⟨repairIn [2, 3] (fParity fWhole), (repairIn [2, 3] (fParity fWhole) : State).endReads ({ cmd := 0, idx := 0, lba := 0, cid := 16, app := 0, quad := 0, phase := .repair, form := [], data := [], ffPi := false, loc := 17592194433024, grains := 0, ops := [], erased := [], tries := 0, eng := none, failed := none } : ReadUnit).ops, 1, { cmd := 0, idx := 0, lba := 0, cid := 16, app := 0, quad := 0, phase := .repair, form := [], data := [], ffPi := false, loc := 17592194433024, grains := 0, ops := [], erased := [], tries := 0, eng := none, failed := none }, [], 0, 0, 0, { kind := 0, row := 0, grain := 0, grains := 1, ref := 16, app := 0, cid := 0, seq := 0, form := [0, 0, 0, 0, 0, 0, 0, 0, 0, 0, 0, 0, 0, 0, 0, 0, 0, 0, 0, 0, 0, 0, 0, 0, 0, 0, 0, 0, 0, 0, 0, 0, 0, 0, 0, 0, 0, 0, 0, 0, 0, 0, 0, 0, 0, 0, 0, 0, 0, 0, 0, 0, 0, 0, 0, 0, 0, 0, 0, 0, 0, 0, 0, 0, 0, 0, 0, 0, 0, 0, 0, 0, 0, 0, 0, 0, 0, 0, 0, 0, 0, 0, 0, 0, 0, 0, 0, 0, 0, 0, 0, 0, 0, 0, 0, 0, 0, 0, 0, 0], tag := [135, 211, 227, 217, 158, 30, 15, 116, 0, 100, 0, 0, 0, 0, 0, 16], src := none, verified := false, dead := false }, by decide +kernel, by decide +kernel, by decide +kernel, by decide +kernel, by decide +kernel, rfl, by decide +kernel, by decide +kernel⟩,
   ⟨repairIn [2, 3] (fParity (fSeg 2)), (repairIn [2, 3] (fParity (fSeg 2)) : State).endReads ({ cmd := 0, idx := 0, lba := 0, cid := 16, app := 0, quad := 0, phase := .repair, form := [], data := [], ffPi := false, loc := 17592194433024, grains := 0, ops := [], erased := [], tries := 0, eng := none, failed := none } : ReadUnit).ops, 1, { cmd := 0, idx := 0, lba := 0, cid := 16, app := 0, quad := 0, phase := .repair, form := [], data := [], ffPi := false, loc := 17592194433024, grains := 0, ops := [], erased := [], tries := 0, eng := none, failed := none }, [], 0, 0, 0, { kind := 0, row := 0, grain := 0, grains := 9, ref := 16, app := 0, cid := 0, seq := 0, form := [], tag := [], src := none, verified := false, dead := false }, by decide +kernel, by decide +kernel, by decide +kernel, by decide +kernel, by decide +kernel, rfl, by decide +kernel, by decide +kernel⟩,
   ⟨repairIn [2, 3, 4] fWhole, (repairIn [2, 3, 4] fWhole : State).endReads ({ cmd := 0, idx := 0, lba := 0, cid := 16, app := 0, quad := 0, phase := .repair, form := [], data := [], ffPi := false, loc := 17592194433024, grains := 0, ops := [], erased := [], tries := 0, eng := none, failed := none } : ReadUnit).ops, 1, { cmd := 0, idx := 0, lba := 0, cid := 16, app := 0, quad := 0, phase := .repair, form := [], data := [], ffPi := false, loc := 17592194433024, grains := 0, ops := [], erased := [], tries := 0, eng := none, failed := none }, [], 0, 0, 0, { kind := 0, row := 0, grain := 0, grains := 1, ref := 16, app := 0, cid := 0, seq := 0, form := [0, 0, 0, 0, 0, 0, 0, 0, 0, 0, 0, 0, 0, 0, 0, 0, 0, 0, 0, 0, 0, 0, 0, 0, 0, 0, 0, 0, 0, 0, 0, 0, 0, 0, 0, 0, 0, 0, 0, 0, 0, 0, 0, 0, 0, 0, 0, 0, 0, 0, 0, 0, 0, 0, 0, 0, 0, 0, 0, 0, 0, 0, 0, 0, 0, 0, 0, 0, 0, 0, 0, 0, 0, 0, 0, 0, 0, 0, 0, 0, 0, 0, 0, 0, 0, 0, 0, 0, 0, 0, 0, 0, 0, 0, 0, 0, 0, 0, 0, 0], tag := [135, 211, 227, 217, 158, 30, 15, 116, 0, 100, 0, 0, 0, 0, 0, 16], src := none, verified := false, dead := false }, by decide +kernel, by decide +kernel, by decide +kernel, by decide +kernel, by decide +kernel, rfl, by decide +kernel⟩,
   ⟨withFlash [pgPAR] 2 [] .repair, 1, { cmd := 0, idx := 0, lba := 0, cid := 16, app := 0, quad := 0, phase := .repair, form := [], data := [], ffPi := false, loc := 0, grains := 0, ops := [], erased := [], tries := 0, eng := none, failed := none }, [], by decide +kernel⟩,
   ⟨State.reset, 1, [], (by intro r hr; cases hr)⟩,
   ⟨groupFrom (fun _ => 1), hdr 0, 3, 0, 2, 2 ^ 24 - 1, 0, pgPAR, (if 0 = 1 then bitList 32 0 else []), by decide +kernel⟩,
   ⟨{ groupFrom (fun _ => 1) with back.groups := [(3, { exists_ := true })] }, hdr 0, 3, 0, 2, 2 ^ 24 - 1, 0, pgPAR, (if 0 = 1 then bitList 32 0 else []), by decide +kernel⟩,
   ⟨groupFrom id, hdr 0, 3, 0, 2, 2 ^ 24 - 1, 0, pgPAR, (if 0 = 1 then bitList 32 0 else []), by decide +kernel⟩,
   ⟨groupFrom (fun _ => 1), hdr 0, 3, 0, 2, 31, 0, pgPAR, (if 0 = 1 then bitList 32 0 else []), by decide +kernel⟩,
   ⟨{ groupFrom (fun _ => 1) with back.groups := [(3, { exists_ := true })] }, hdr 0, 3, pgPAR, by decide +kernel⟩,
   ⟨{ running [pgEVT, pgPAR] with back.groups := [(3, { exists_ := true })], back.segs := [(5, { st := 2, group := 3 })] }, hdr 0, 3, pgPAR, by decide +kernel, by decide +kernel, by decide +kernel, ⟨(5, { st := 2, group := 3 }), by decide +kernel, by decide +kernel, by decide +kernel⟩, by decide +kernel⟩,
   ⟨{ running [pgEVT, pgPAR] with back.groups := [(3, { exists_ := true, foreign := some 1 })], back.segs := [(5, { st := 2, group := 3 })] }, hdr 0, 3, pgPAR, by decide +kernel⟩,
   ⟨groupFrom (fun _ => 1), hdr 0, 3, pgPAR, by decide +kernel⟩,
   ⟨{ running [pgSAG] with plat.pwr.powerFail := true }, by decide +kernel⟩,
   ⟨repairIn [] (fParity fWhole), by decide +kernel⟩,
   ⟨{ State.reset with back.dumping := some 3, back.dumps := [{ set := 3 }] }, ({ (({ State.reset with back.dumping := some 3, back.dumps := [{ set := 3 }] } : State).ringTake ({ State.reset with back.dumping := some 3, back.dumps := [{ set := 3 }] } : State).ringUsed).1 with back.dumping := none, plat.chip.dumpDone := true } : State).modDump 3 (fun d => { d with final := true, lastComplete := ({ State.reset with back.dumping := some 3, back.dumps := [{ set := 3 }] } : State).lmap.commitSeq, image := some (({ State.reset with back.dumping := some 3, back.dumps := [{ set := 3 }] } : State).committedMaps 0), units := ({ State.reset with back.dumping := some 3, back.dumps := [{ set := 3 }] } : State).dumpUnits, bytes := ({ State.reset with back.dumping := some 3, back.dumps := [{ set := 3 }] } : State).dumpBytes ({ State.reset with back.dumping := some 3, back.dumps := [{ set := 3 }] } : State).dumpUnits.length, log := ({ State.reset with back.dumping := some 3, back.dumps := [{ set := 3 }] } : State).logInUse, mirror := ({ State.reset with back.dumping := some 3, back.dumps := [{ set := 3 }] } : State).dumpMirror }), 1000, 3, by decide +kernel, by decide +kernel, rfl⟩,
   ⟨{ State.reset with sec.tamp.zeroized := true, back.dumping := some 3, back.dumps := [{ set := 3 }] }, ({ ({ State.reset with sec.tamp.zeroized := true, back.dumping := some 3, back.dumps := [{ set := 3 }] } : State) with back.dumping := none, plat.chip.dumpDone := true } : State).modDump 3 (fun d => { d with final := true, bytes := 2 ^ 20 + 2 ^ 24, log := ({ State.reset with sec.tamp.zeroized := true, back.dumping := some 3, back.dumps := [{ set := 3 }] } : State).logInUse }), 1000, 3, by decide +kernel, by decide +kernel, by decide +kernel, rfl⟩,
   ⟨repairIn [] (fParity fWhole), 1000, by decide +kernel⟩,
   ⟨running [pgEVT, pgSAG], hdr 0, pgSAG, by decide +kernel⟩,
   ⟨{ running [pgEVT, pgSAG] with back.dumps := [{ set := 3, shelf := true }] }, hdr 0, pgSAG, { set := 3, shelf := true }, by decide +kernel⟩,
   ⟨{ running [pgEVT, pgSAG] with back.replay := some 7, back.dumps := [{ set := 3 }] }, hdr 0, pgSAG, { set := 3 }, by decide +kernel⟩,
   ⟨{ running [pgEVT, pgSAG] with back.dumps := [{ set := 3 }] }, hdr 0, pgSAG, { set := 3 }, by decide +kernel⟩,
   ⟨{ running [pgEVT, pgRBLD] with back.mems := [(23, { st := 1 })], links := [(23, { owner := 1 })] }, 23, by decide +kernel⟩,
   ⟨repairIn [] (fParity fWhole), 23, by decide +kernel⟩,
   ⟨({ running [pgEVT, pgRBLD] with back.mems := [(23, { st := 2 })] }).setFld fRBLD_CFG_OFFLINE_MAX_S 1, 23, by decide +kernel⟩,
   ⟨repairIn [] (fParity fWhole), 23, by decide +kernel⟩,
   ⟨{ withSeg [pgRBLD] 5 { st := 2, blocks := [(0, 2)] } with back.mems := [(0, { st := 3 })] }, 0, 5, by decide +kernel⟩,
   ⟨State.reset, 0, by decide +kernel⟩,
   ⟨{ running [pgEVT, pgRBLD] with back.mems := [(23, { st := 1 })], links := [(23, { owner := 1 })] }, hdr 0, 23, pgRBLD, by decide +kernel⟩,
   ⟨{ running [pgEVT, pgRBLD] with back.mems := [(23, { st := 1 })], links := [(23, { owner := 1 })] }, hdr 0, 24, pgRBLD, by decide +kernel⟩,
   ⟨{ running [pgEVT, pgRBLD] with back.mems := [(23, { st := 1 })], links := [(23, { owner := 1 })] }, hdr 0, 23, pgRBLD, by decide +kernel⟩,
   ⟨{ running [pgEVT, pgRBLD] with back.mems := [(23, { st := 1 })], back.groups := [(0, { st := 1 })] }, hdr 0, 23, pgRBLD, by decide +kernel⟩,
   ⟨{ running [pgEVT, pgRBLD] with back.mems := [(23, { st := 1 })], links := [(23, { owner := 1 })] }, hdr 0, 24, pgRBLD, by decide +kernel⟩,
   ⟨({ running [pgEVT, pgRBLD] with back.mems := [(23, { st := 2 })] }).setFld fRBLD_CFG_OFFLINE_MAX_S 1, hdr 0, 23, pgRBLD, by decide +kernel⟩,
   ⟨{ running [pgEVT, pgRBLD] with back.mems := [(23, { st := 1 })], links := [(23, { owner := 1 })] }, hdr 0, 23, pgRBLD, by decide +kernel⟩,
   ⟨{ running [pgEVT, pgRBLD] with back.groups := [(3, { exists_ := true, members := 1 })], links := [(0, { dieType := 1 }), (23, { dieType := 1 })] }, hdr 0, 23, 3, 1, pgRBLD, by decide +kernel⟩,
   ⟨{ running [pgEVT, pgRBLD] with back.groups := [(3, { exists_ := true, members := 1 })], links := [(0, { dieType := 1 }), (23, { dieType := 1 })] }, hdr 0, 23, 3, 0, pgRBLD, by decide +kernel⟩,
   ⟨{ running [pgEVT, pgRBLD] with back.mems := [(23, { st := 1 })], links := [(23, { owner := 1 })] }, hdr 0, 23, 3, 0, pgRBLD, by decide +kernel⟩⟩

theorem witness_Links :
    (∃ (_s : State) (m : Nat) (_on : Bool), 24 ≤ m) ∧
    (∃ (s : State) (m : Nat) (_on : Bool), m < 24 ∧ s.pageOn (pgMLINK m) = false) ∧
    (∃ (s : State) (m : Nat) (_on : Bool), m < 24 ∧ s.pageOn (pgMLINK m) = true ∧ (s.blk (pgMLINK m) = .fault ∨ s.blk (pgMLINK m) = .off)) ∧
    (∃ (s : State) (m : Nat) (_on : Bool), m < 24 ∧ Reaches s (pgMLINK m)) ∧
    (∃ (s : State) (m : Nat), m < 24 ∧ Reaches s (pgMLINK m) ∧ (s.link m).st = lkDown ∧ s.domOn (21 + m / 4) = true ∧ (s.plat.islands.get {} (11 + m / 4)).clkRun = true ∧ (s.plat.islands.get {} (11 + m / 4)).inReset = false ∧ s.plat.chip.porstLow = false ∧ s.upd.job = none) ∧
    (∃ (s : State) (m : Nat), m < 24 ∧ Reaches s (pgMLINK m) ∧ s.upd.job = none ∧ (s.link m).st ≠ lkDown) ∧
    (∃ (s : State) (m : Nat), m < 24 ∧ Reaches s (pgMLINK m) ∧ s.upd.job = none ∧ (s.link m).st = lkUp) ∧
    (∃ (s : State) (m : Nat), m < 24 ∧ Reaches s (pgMLINK m) ∧ s.upd.job = none ∧ (s.link m).st ≠ lkUp) ∧
    (∃ (s : State) (m n : Nat), (s.link m).st = lkDetect ∧ 2 ≤ n ∧ n ≤ 4) ∧
    (∃ (s : State) (m n : Nat), ((s.link m).st ≠ lkDetect ∨ n < 2 ∨ 4 < n)) ∧
    (∃ (s : State) (m w : Nat), (s.link m).st = lkAlign ∧ (w = 2 ∨ w = 4)) ∧
    (∃ (s : State) (m v : Nat), (s.link m).st = lkConfig ∧ v = 1) ∧
    (∃ (s : State) (m v : Nat), (s.link m).st = lkConfig ∧ v ≠ 1) ∧
    (∃ (s : State) (m _v : Nat), (s.link m).st ≠ lkConfig) ∧
    (∃ (s : State) (m : Nat), (s.link m).st = lkConfig ∧ (s.link m).txWait = [] ∧ (s.link m).unacked = [] ∧ (s.link m).waitOps = [] ∧ s.upd.job = none) ∧
    (∃ (s : State) (m : Nat) (flit : List Byte), ((s.link m).st ≠ lkUp ∨ flit.length ≠ 256)) ∧
    (∃ (s : State) (m : Nat) (flit : List Byte), (s.link m).st = lkUp ∧ flit.length = 256 ∧ (3 < unBe (slice flit 0 1) ∨ unBe (slice flit 240 4) ≠ crc32c 0xFFFFFFFF (flit.take 240))) ∧
    (∃ (s : State) (m : Nat) (flit : List Byte), (s.link m).st = lkUp ∧ flit.length = 256 ∧ unBe (slice flit 240 4) = crc32c 0xFFFFFFFF (flit.take 240) ∧ unBe (slice flit 0 1) ≤ 3 ∧ unBe (slice flit 0 1) ≠ 1) ∧
    (∃ (s t : State) (m : Nat) (flit : List Byte), (s.link m).st = lkUp ∧ flit.length = 256 ∧ unBe (slice flit 240 4) = crc32c 0xFFFFFFFF (flit.take 240) ∧ unBe (slice flit 0 1) = 1 ∧ t = s.linkAck m (unBe (slice flit 2 1)) ((slice flit 3 1).any (fun b => b.toNat.testBit 7)) ∧ unBe (slice flit 1 1) ≠ (t.link m).rxSeq % 256) ∧
    (∃ (s t : State) (m : Nat) (flit : List Byte), (s.link m).st = lkUp ∧ flit.length = 256 ∧ unBe (slice flit 240 4) = crc32c 0xFFFFFFFF (flit.take 240) ∧ unBe (slice flit 0 1) = 1 ∧ t = s.linkAck m (unBe (slice flit 2 1)) ((slice flit 3 1).any (fun b => b.toNat.testBit 7)) ∧ unBe (slice flit 1 1) = (t.link m).rxSeq % 256) ∧
    (∃ (s : State) (m : Nat), ((s.link m).unacked = [] ∨ (s.link m).st ≠ lkUp)) ∧
    (∃ (s : State) (m : Nat), (s.link m).unacked ≠ [] ∧ (s.link m).st = lkUp ∧ (s.link m).replays < 15) ∧
    (∃ (s : State) (m : Nat), (s.link m).unacked ≠ [] ∧ (s.link m).st = lkUp ∧ 15 ≤ (s.link m).replays) ∧
    (∃ (s : State) (m : Nat), (s.link m).st = lkUp) ∧
    (∃ (s : State) (m : Nat), (s.link m).st ≠ lkUp) ∧
    (∃ (s : State) (m tag _page : Nat) (_bs : List Byte), ((s.link m).st ≠ lkUp ∨ (s.link m).ops.find tag = none)) ∧
    (∃ (s : State) (m tag _page : Nat) (_bs : List Byte) (o : LinkOp), (s.link m).st = lkUp ∧ (s.link m).ops.find tag = some o ∧ o.opcode = opRead) ∧
    (∃ (s : State) (m tag _page : Nat) (_bs : List Byte) (o : LinkOp), (s.link m).st = lkUp ∧ (s.link m).ops.find tag = some o ∧ o.opcode ≠ opRead) ∧
    (∃ (s : State) (m _tag _st : Nat) (_bs : List Byte), (s.link m).st ≠ lkUp) ∧
    (∃ (s : State) (m tag _st : Nat) (bs : List Byte), (s.link m).st = lkUp ∧ (s.link m).ops.find tag = none ∧ (bs.length = 16 ∨ bs.length = 48 ∨ bs.length = 96)) ∧
    (∃ (s : State) (m tag _st : Nat) (bs : List Byte), (s.link m).st = lkUp ∧ (s.link m).ops.find tag = none ∧ bs.length ≠ 16 ∧ bs.length ≠ 48 ∧ bs.length ≠ 96) ∧
    (∃ (s : State) (m tag _st : Nat) (_bs : List Byte) (o : LinkOp), (s.link m).st = lkUp ∧ (s.link m).ops.find tag = some o ∧ o.accepted = true) ∧
    (∃ (s : State) (m tag st : Nat) (bs : List Byte) (o : LinkOp), (s.link m).st = lkUp ∧ (s.link m).ops.find tag = some o ∧ o.accepted = false ∧ o.opcode ≠ 0 ∧ cplLenOk o.opcode st bs.length = false) ∧
    (∃ (s : State) (m tag st : Nat) (bs : List Byte) (o : LinkOp) (t : State), (s.link m).st = lkUp ∧ (s.link m).ops.find tag = some o ∧ t = s.setLink m { s.link m with ops := (s.link m).ops.del tag, opCredits := (s.link m).opCredits + unBe (slice bs 6 2), bufCredits := (s.link m).bufCredits + unBe (slice bs 8 2) } ∧ o.opcode = 0 ∧ st ≠ 4) ∧
    (∃ (s : State) (m tag st : Nat) (bs : List Byte) (o : LinkOp) (t : State), (s.link m).st = lkUp ∧ (s.link m).ops.find tag = some o ∧ t = s.setLink m { s.link m with ops := (s.link m).ops.del tag, opCredits := (s.link m).opCredits + unBe (slice bs 6 2), bufCredits := (s.link m).bufCredits + unBe (slice bs 8 2) } ∧ o.accepted = false ∧ o.opcode ≠ 0 ∧ o.opcode ≠ opIdentify ∧ o.opcode ≠ opFwActivate ∧ cplLenOk o.opcode st bs.length = true ∧ st = 0) ∧
    (∃ (s : State) (m tag st : Nat) (bs : List Byte) (o : LinkOp) (t : State), (s.link m).st = lkUp ∧ (s.link m).ops.find tag = some o ∧ t = s.setLink m { s.link m with ops := (s.link m).ops.del tag, opCredits := (s.link m).opCredits + unBe (slice bs 6 2), bufCredits := (s.link m).bufCredits + unBe (slice bs 8 2) } ∧ o.accepted = false ∧ o.opcode ≠ 0 ∧ o.opcode ≠ opIdentify ∧ cplLenOk o.opcode st bs.length = true ∧ st ≠ 0 ∧ st ≠ 4) ∧
    (∃ (s : State) (m tag st : Nat) (bs : List Byte) (o : LinkOp) (t : State), (s.link m).st = lkUp ∧ (s.link m).ops.find tag = some o ∧ t = s.setLink m { s.link m with ops := (s.link m).ops.del tag, opCredits := (s.link m).opCredits + unBe (slice bs 6 2), bufCredits := (s.link m).bufCredits + unBe (slice bs 8 2) } ∧ o.accepted = false ∧ o.opcode ≠ 0 ∧ o.opcode ≠ opIdentify ∧ cplLenOk o.opcode st bs.length = true ∧ st = 4) ∧
    (∃ (s : State) (m tag st : Nat) (bs : List Byte) (o : LinkOp), (s.link m).st = lkUp ∧ (s.link m).ops.find tag = some o ∧ o.opcode = opIdentify ∧ cplLenOk o.opcode 0 bs.length = true ∧ st = 0) ∧
    (∃ (s : State) (m tag st : Nat) (bs : List Byte) (o : LinkOp), (s.link m).st = lkUp ∧ (s.link m).ops.find tag = some o ∧ o.opcode = opFwActivate ∧ o.arg ≠ 1 ∧ bs.length = 16 ∧ st = 0) ∧
    (∃ (s : State) (m _r : Nat), (s.link m).st = lkUp) ∧
    (∃ (s : State) (m _r : Nat), (s.link m).st ≠ lkUp) ∧
    (∃ (s : State) (m tag : Nat), (s.link m).ops.find tag = none) ∧
    (∃ (s : State) (m tag : Nat) (o : LinkOp), (s.link m).ops.find tag = some o ∧ o.opcode = 0) ∧
    (∃ (s : State) (m tag : Nat) (o : LinkOp), (s.link m).ops.find tag = some o ∧ o.accepted = true) ∧
    (∃ (s : State) (m tag : Nat) (o : LinkOp), (s.link m).ops.find tag = some o ∧ o.opcode ≠ 0 ∧ o.accepted = false) ∧
    (∃ (s : State) (m i : Nat), s.presenceInput m = some i ∧ m < 24 ∧ s.gpio i = false) ∧
    (∃ (s : State) (m i : Nat), s.presenceInput m = some i ∧ m < 24 ∧ s.gpio i = true) ∧
    (∃ (s : State) (m i : Nat), s.presenceInput m = some i ∧ 24 ≤ m) ∧
    (∃ (s : State) (m : Nat), s.presenceInput m = none) :=
  ⟨⟨lnk 23 { st := lkUp }, 24, true, by decide +kernel⟩,
   ⟨{ State.reset with plat.pwr.cold := true }, 23, true, by decide +kernel⟩,
   ⟨{ State.reset with pages := [(pgMLINK 23, { st := .fault })] }, 23, true, by decide +kernel⟩,
   ⟨lnk 23 { st := lkUp }, 23, true, by decide +kernel⟩,
   ⟨lnk 23 { st := lkUp }, 0, by decide +kernel⟩,
   ⟨lnk 23 { st := lkUp }, 23, by decide +kernel⟩,
   ⟨lnk 23 { st := lkUp }, 23, by decide +kernel⟩,
   ⟨lnk 23 { st := lkUp }, 0, by decide +kernel⟩,
   ⟨lnk 23 { st := lkDetect }, 23, 4, by decide +kernel⟩,
   ⟨lnk 23 { st := lkUp }, 23, 4, by decide +kernel⟩,
   ⟨lnk 23 { st := lkAlign }, 23, 2, by decide +kernel⟩,
   ⟨lnk 23 { st := lkConfig }, 23, 1, by decide +kernel⟩,
   ⟨lnk 23 { st := lkConfig }, 23, 0, by decide +kernel⟩,
   ⟨lnk 23 { st := lkUp }, 23, 1, by decide +kernel⟩,
   ⟨lnk 23 { st := lkConfig }, 23, by decide +kernel⟩,
   ⟨lnk 23 { st := lkUp }, 23, [], by decide +kernel⟩,
   ⟨lnk 23 { st := lkUp }, 23, List.replicate 256 0, by decide +kernel⟩,
   ⟨lnk 23 { st := lkUp }, 23, goodFlit, by decide +kernel⟩,
   ⟨lnk 23 { st := lkUp }, (lnk 23 { st := lkUp } : State).linkAck 23 (unBe (slice (flitOf 1 1 : List Byte) 2 1)) ((slice (flitOf 1 1 : List Byte) 3 1).any (fun b => b.toNat.testBit 7)), 23, flitOf 1 1, by decide +kernel, by decide +kernel, by decide +kernel, by decide +kernel, rfl, by decide +kernel⟩,
   ⟨lnk 23 { st := lkUp }, (lnk 23 { st := lkUp } : State).linkAck 23 (unBe (slice (flitOf 1 0 : List Byte) 2 1)) ((slice (flitOf 1 0 : List Byte) 3 1).any (fun b => b.toNat.testBit 7)), 23, flitOf 1 0, by decide +kernel, by decide +kernel, by decide +kernel, by decide +kernel, rfl, by decide +kernel⟩,
   ⟨lnk 23 { st := lkUp }, 23, by decide +kernel⟩,
   ⟨lnk 23 { st := lkUp, unacked := [(0, [])] }, 23, by decide +kernel⟩,
   ⟨lnk 23 { st := lkUp, unacked := [(0, [])], replays := 15 }, 23, by decide +kernel⟩,
   ⟨lnk 23 { st := lkUp }, 23, by decide +kernel⟩,
   ⟨lnk 23 { st := lkUp }, 24, by decide +kernel⟩,
   ⟨lnk 23 { st := lkUp }, 23, 5, 0, List.replicate 16 0, by decide +kernel⟩,
   ⟨opOn (aOp opRead), 23, 5, 0, List.replicate 16 0, { opcode := 1, addr := 0, bufs := 0, cmd := none, got := [], arg := 0 }, by decide +kernel⟩,
   ⟨opOn (aOp 0), 23, 5, 0, List.replicate 16 0, { opcode := 0, addr := 0, bufs := 0, cmd := none, got := [], arg := 0 }, by decide +kernel⟩,
   ⟨lnk 23 { st := lkUp }, 24, 5, 0, List.replicate 16 0, by decide +kernel⟩,
   ⟨lnk 23 { st := lkUp }, 23, 5, 0, List.replicate 16 0, by decide +kernel⟩,
   ⟨lnk 23 { st := lkUp }, 23, 5, 0, [], by decide +kernel⟩,
   ⟨opOn { aOp opFwActivate with arg := 1 }, 23, 5, 0, List.replicate 16 0, { opcode := 34, addr := 0, bufs := 0, cmd := none, got := [], arg := 1 }, by decide +kernel⟩,
   ⟨opOn (aOp opRead), 23, 5, 0, List.replicate 48 0, { opcode := 1, addr := 0, bufs := 0, cmd := none, got := [], arg := 0 }, by decide +kernel⟩,
   ⟨opOn (aOp 0), 23, 5, 0, List.replicate 16 0, { opcode := 0, addr := 0, bufs := 0, cmd := none, got := [], arg := 0 }, (opOn (aOp 0) : State).setLink 23 { (opOn (aOp 0) : State).link 23 with ops := ((opOn (aOp 0) : State).link 23).ops.del 5, opCredits := ((opOn (aOp 0) : State).link 23).opCredits + unBe (slice (List.replicate 16 0 : List Byte) 6 2), bufCredits := ((opOn (aOp 0) : State).link 23).bufCredits + unBe (slice (List.replicate 16 0 : List Byte) 8 2) }, by decide +kernel, by decide +kernel, rfl, by decide +kernel, by decide +kernel⟩,
   ⟨opOn (aOp opRead), 23, 5, 0, List.replicate 16 0, { opcode := 1, addr := 0, bufs := 0, cmd := none, got := [], arg := 0 }, (opOn (aOp opRead) : State).setLink 23 { (opOn (aOp opRead) : State).link 23 with ops := ((opOn (aOp opRead) : State).link 23).ops.del 5, opCredits := ((opOn (aOp opRead) : State).link 23).opCredits + unBe (slice (List.replicate 16 0 : List Byte) 6 2), bufCredits := ((opOn (aOp opRead) : State).link 23).bufCredits + unBe (slice (List.replicate 16 0 : List Byte) 8 2) }, by decide +kernel, by decide +kernel, rfl, by decide +kernel, by decide +kernel, by decide +kernel, by decide +kernel, by decide +kernel, by decide +kernel⟩,
   ⟨opOn (aOp opRead), 23, 5, 1, List.replicate 16 0, { opcode := 1, addr := 0, bufs := 0, cmd := none, got := [], arg := 0 }, (opOn (aOp opRead) : State).setLink 23 { (opOn (aOp opRead) : State).link 23 with ops := ((opOn (aOp opRead) : State).link 23).ops.del 5, opCredits := ((opOn (aOp opRead) : State).link 23).opCredits + unBe (slice (List.replicate 16 0 : List Byte) 6 2), bufCredits := ((opOn (aOp opRead) : State).link 23).bufCredits + unBe (slice (List.replicate 16 0 : List Byte) 8 2) }, by decide +kernel, by decide +kernel, rfl, by decide +kernel, by decide +kernel, by decide +kernel, by decide +kernel, by decide +kernel, by decide +kernel⟩,
   ⟨opOn (aOp opRead), 23, 5, 4, List.replicate 16 0, { opcode := 1, addr := 0, bufs := 0, cmd := none, got := [], arg := 0 }, (opOn (aOp opRead) : State).setLink 23 { (opOn (aOp opRead) : State).link 23 with ops := ((opOn (aOp opRead) : State).link 23).ops.del 5, opCredits := ((opOn (aOp opRead) : State).link 23).opCredits + unBe (slice (List.replicate 16 0 : List Byte) 6 2), bufCredits := ((opOn (aOp opRead) : State).link 23).bufCredits + unBe (slice (List.replicate 16 0 : List Byte) 8 2) }, by decide +kernel, by decide +kernel, rfl, by decide +kernel, by decide +kernel, by decide +kernel, by decide +kernel, by decide +kernel⟩,
   ⟨opOn (aOp opIdentify), 23, 5, 0, List.replicate 96 0, { opcode := 5, addr := 0, bufs := 0, cmd := none, got := [], arg := 0 }, by decide +kernel⟩,
   ⟨opOn (aOp opFwActivate), 23, 5, 0, List.replicate 16 0, { opcode := 34, addr := 0, bufs := 0, cmd := none, got := [], arg := 0 }, by decide +kernel⟩,
   ⟨lnk 23 { st := lkUp }, 23, 0, by decide +kernel⟩,
   ⟨lnk 23 { st := lkUp }, 24, 0, by decide +kernel⟩,
   ⟨lnk 23 { st := lkUp }, 23, 5, by decide +kernel⟩,
   ⟨opOn (aOp 0), 23, 5, { opcode := 0, addr := 0, bufs := 0, cmd := none, got := [], arg := 0 }, by decide +kernel⟩,
   ⟨opOn { aOp opFwActivate with arg := 1 }, 23, 5, { opcode := 34, addr := 0, bufs := 0, cmd := none, got := [], arg := 1 }, by decide +kernel⟩,
   ⟨opOn (aOp opRead), 23, 5, { opcode := 1, addr := 0, bufs := 0, cmd := none, got := [], arg := 0 }, by decide +kernel⟩,
   ⟨{ (running [pgMLINK 23]).setFld (fMLINK_PRESENCE_INPUT 23) 31 with plat.pins.gpio := 0x7FFFFFFF }, 23, 31, by decide +kernel⟩,
   ⟨(running [pgMLINK 23]).setFld (fMLINK_PRESENCE_INPUT 23) 31, 23, 31, by decide +kernel⟩,
   ⟨lnk 23 { st := lkUp }, 24, 0, by decide +kernel⟩,
   ⟨lnk 23 { st := lkUp }, 23, by decide +kernel⟩⟩

theorem witness_LinkCommands :
    (∃ (s : State) (h : CmdHdr) (m kind _gen : Nat), Ready s h (pgMLINK 0) (pgMLINK m) .work ∧ m < 24 ∧ kind ≤ 2 ∧ (s.link m).st = lkUp) ∧
    (∃ (s : State) (h : CmdHdr) (m kind _gen : Nat), Ready s h (pgMLINK 0) (pgMLINK m) .work ∧ m < 24 ∧ kind ≤ 2 ∧ (s.link m).st ≠ lkUp) ∧
    (∃ (s : State) (h : CmdHdr) (m kind _gen : Nat), Ready s h (pgMLINK 0) (pgMLINK m) .work ∧ m < 24 ∧ 2 < kind) ∧
    (∃ (s : State) (h : CmdHdr) (m _off n src : Nat), Ready s h (pgMLINK 0) (pgMLINK m) .work ∧ m < 24 ∧ (16777216 < n ∨ s.hbmErr src n = true)) ∧
    (∃ (s : State) (h : CmdHdr) (m _off n src : Nat), Ready s h (pgMLINK 0) (pgMLINK m) .work ∧ m < 24 ∧ n = 0 ∧ s.hbmErr src n = false) ∧
    (∃ (s : State) (h : CmdHdr) (m _off n src : Nat), Ready s h (pgMLINK 0) (pgMLINK m) .work ∧ m < 24 ∧ 0 < n ∧ n ≤ 16777216 ∧ s.hbmErr src n = false ∧ (s.link m).st ≠ lkUp) ∧
    (∃ (s : State) (h : CmdHdr) (m _off n src : Nat), Ready s h (pgMLINK 0) (pgMLINK m) .work ∧ m < 24 ∧ 0 < n ∧ n ≤ 16777216 ∧ s.hbmErr src n = false ∧ (s.link m).st = lkUp) ∧
    (∃ (s : State) (h : CmdHdr) (m a : Nat), Ready s h (pgMLINK 0) (pgMLINK m) .work ∧ m < 24 ∧ a + 32 ≤ hbmEnd ∧ (s.link m).st = lkUp) ∧
    (∃ (s : State) (h : CmdHdr) (m a : Nat), Ready s h (pgMLINK 0) (pgMLINK m) .work ∧ m < 24 ∧ a + 32 ≤ hbmEnd ∧ (s.link m).st ≠ lkUp) ∧
    (∃ (s : State) (h : CmdHdr) (m a : Nat), Ready s h (pgMLINK 0) (pgMLINK m) .work ∧ m < 24 ∧ hbmEnd < a + 32) ∧
    (∃ (s : State) (h : CmdHdr) (m : Nat), Ready s h (pgMLINK 0) (pgMLINK m) .work ∧ m < 24 ∧ (s.member m).st ∈ [0, 2, 4, 5] ∧ (s.link m).st = lkUp) ∧
    (∃ (s : State) (h : CmdHdr) (m : Nat), Ready s h (pgMLINK 0) (pgMLINK m) .work ∧ m < 24 ∧ (s.member m).st ∈ [0, 2, 4, 5] ∧ (s.link m).st ≠ lkUp) ∧
    (∃ (s : State) (h : CmdHdr) (m : Nat), Ready s h (pgMLINK 0) (pgMLINK m) .work ∧ m < 24 ∧ (s.member m).st ∉ [0, 2, 4, 5]) ∧
    (∃ (s : State) (h : CmdHdr) (m : Nat), Ready s h (pgMLINK 0) (pgMLINK m) .work ∧ m < 24 ∧ (s.link m).st = lkUp) ∧
    (∃ (s : State) (h : CmdHdr) (m : Nat), Ready s h (pgMLINK 0) (pgMLINK m) .work ∧ m < 24 ∧ (s.link m).st ≠ lkUp) ∧
    (∃ (s : State) (m : Nat) (_o : LinkOp) (_bs : List Byte), (s.link m).waitOps = [] ∧ (s.link m).stopped = false ∧ (s.link m).opCredits = 0) ∧
    (∃ (s : State) (m : Nat) (o : LinkOp) (_bs : List Byte), (s.link m).stopped = true ∧ (o.opcode = opProgram ∨ o.opcode = opErase)) :=
  ⟨⟨lnk 23 { st := lkUp }, hdr 23, 23, 2, 0, by decide +kernel⟩,
   ⟨lnk 23 {  }, hdr 23, 23, 2, 0, by decide +kernel⟩,
   ⟨lnk 23 { st := lkUp }, hdr 23, 23, 3, 0, by decide +kernel⟩,
   ⟨lnk 23 { st := lkUp }, hdr 23, 23, 0, 16384, hbmEnd, by decide +kernel⟩,
   ⟨lnk 23 { st := lkUp }, hdr 23, 23, 0, 0, 0, by decide +kernel⟩,
   ⟨lnk 23 {  }, hdr 23, 23, 0, 16384, 0, by decide +kernel⟩,
   ⟨lnk 23 { st := lkUp }, hdr 23, 23, 0, 16384, 0, by decide +kernel⟩,
   ⟨lnk 23 { st := lkUp }, hdr 23, 23, hbmEnd - 32, by decide +kernel⟩,
   ⟨lnk 23 {  }, hdr 23, 23, hbmEnd - 32, by decide +kernel⟩,
   ⟨lnk 23 { st := lkUp }, hdr 23, 23, hbmEnd, by decide +kernel⟩,
   ⟨lnk 23 { st := lkUp }, hdr 23, 23, by decide +kernel⟩,
   ⟨lnk 23 {  }, hdr 23, 23, by decide +kernel⟩,
   ⟨{ lnk 23 {  } with back.mems := [(23, { st := 1 })] }, hdr 23, 23, by decide +kernel⟩,
   ⟨lnk 23 { st := lkUp }, hdr 23, 23, by decide +kernel⟩,
   ⟨lnk 23 {  }, hdr 23, 23, by decide +kernel⟩,
   ⟨lnk 23 { st := lkUp }, 23, aOp opErase, [], by decide +kernel⟩,
   ⟨lnk 23 { st := lkUp, stopped := true }, 23, aOp opErase, [], by decide +kernel⟩⟩

theorem witness_Pair :
    (∃ (s : State) (h : CmdHdr) (a _d _r _l _c _i : Nat), Ready s h pgPEERCTL pgPEERCTL .work ∧ 2 ≤ s.plat.chip.heads ∧ s.peerState = psUnpaired ∧ (s.assoc a).state = .isOpen ∧ (s.assoc a).port = 0x20) ∧
    (∃ (s : State) (h : CmdHdr) (_a _d _r _l _c _i : Nat), Ready s h pgPEERCTL pgPEERCTL .work ∧ (s.plat.chip.heads < 2 ∨ s.peerState ≠ psUnpaired)) ∧
    (∃ (s : State) (h : CmdHdr) (a _d _r _l _c _i : Nat), Ready s h pgPEERCTL pgPEERCTL .work ∧ 2 ≤ s.plat.chip.heads ∧ s.peerState = psUnpaired ∧ ((s.assoc a).state ≠ .isOpen ∨ (s.assoc a).port ≠ 0x20)) ∧
    (∃ (s : State) (h : CmdHdr) (a _d _r _l _c _i : Nat), Ready s h pgPEERCTL pgPEERCTL .work ∧ 2 ≤ s.plat.chip.heads ∧ s.peerState = psUnpaired ∧ (s.assoc a).state = .isOpen ∧ (s.assoc a).port = 0x20 ∧ s.nvf.ns = []) ∧
    (∃ (s : State) (h : CmdHdr), Ready s h pgPEERCTL pgPEERCTL .work ∧ (s.peerState = psPaired ∨ s.peerState = psPairing ∨ s.peerState = psFenced)) ∧
    (∃ (s : State) (h : CmdHdr), Ready s h pgPEERCTL pgPEERCTL .work ∧ s.peerState ≠ psPaired ∧ s.peerState ≠ psPairing ∧ s.peerState ≠ psFenced) ∧
    (∃ (s : State) (h : CmdHdr), Ready s h pgPEERCTL pgPEERCTL .work ∧ s.peerState = psPaired ∧ s.mirror = msBroken) ∧
    (∃ (s : State) (h : CmdHdr), Ready s h pgPEERCTL pgPEERCTL .work ∧ (s.peerState ≠ psPaired ∨ s.mirror ≠ msBroken)) ∧
    (∃ (s : State), s.mirror = msResync ∧ s.peer.resyncRef = none) ∧
    (∃ (s : State), (s.mirror ≠ msResync ∨ s.peer.resyncRef ≠ none)) ∧
    (∃ (s : State) (h : CmdHdr) (_f : Bool) (_a : Nat) (_ok : Bool), Ready s h pgPEERCTL pgPEERCTL .work ∧ (s.plat.chip.heads < 2 ∨ s.peerState ≠ psLost)) ∧
    (∃ (s : State) (h : CmdHdr) (f : Bool) (a : Nat) (_ok : Bool), Ready s h pgPEERCTL pgPEERCTL .work ∧ 2 ≤ s.plat.chip.heads ∧ s.peerState = psLost ∧ f = false ∧ (s.arbiterReach = false ∨ 2 ≤ a)) ∧
    (∃ (s : State) (h : CmdHdr) (f : Bool) (a : Nat) (_ok : Bool), Ready s h pgPEERCTL pgPEERCTL .work ∧ 2 ≤ s.plat.chip.heads ∧ s.peerState = psLost ∧ f = false ∧ s.arbiterReach = true ∧ a = 1) ∧
    (∃ (s : State) (h : CmdHdr) (f : Bool) (a : Nat) (ok : Bool), Ready s h pgPEERCTL pgPEERCTL .work ∧ 2 ≤ s.plat.chip.heads ∧ s.peerState = psLost ∧ (f = true ∨ (s.arbiterReach = true ∧ a = 0)) ∧ ok = false) ∧
    (∃ (s t : State) (h : CmdHdr) (f : Bool) (a : Nat), Ready s h pgPEERCTL pgPEERCTL .work ∧ 2 ≤ s.plat.chip.heads ∧ s.peerState = psLost ∧ (f = true ∨ (s.arbiterReach = true ∧ a = 0)) ∧ t = s.peer.ring.foldl (fun u e => u.applyUnit e.2) (({ (s.consume.arbiterTaken f).preempted (s.peerGroups.flatMap s.groupMembers) with peer.changing := s.peerGroups } : State).setAna)) ∧
    (∃ (s : State) (h : CmdHdr), Ready s h pgPEERCTL pgPEERCTL .work ∧ 2 ≤ s.plat.chip.heads ∧ s.peerState = psLost ∧ s.peerGroups = [] ∧ s.peer.ring = [] ∧ s.mirror = msAbsent ∧ s.nvf.ns = [] ∧ s.slip.reps = [] ∧ s.back.segs = []) ∧
    (∃ (s : State) (h : CmdHdr) (g _hv : Nat), Ready s h pgPEERCTL pgPEERCTL .work ∧ (s.plat.chip.heads < 2 ∨ 4 ≤ g ∨ s.owns g = false ∨ s.peer.handover ≠ none)) ∧
    (∃ (s : State) (h : CmdHdr) (g _hv : Nat), Ready s h pgPEERCTL pgPEERCTL .work ∧ 2 ≤ s.plat.chip.heads ∧ g < 4 ∧ s.owns g = true ∧ s.peer.handover = none ∧ s.mirrorBoth = false) ∧
    (∃ (s : State) (h : CmdHdr) (g _hv : Nat), Ready s h pgPEERCTL pgPEERCTL .work ∧ 2 ≤ s.plat.chip.heads ∧ g < 4 ∧ s.owns g = true ∧ s.peer.handover = none ∧ s.mirrorBoth = true) ∧
    (∃ (s : State) (q g hv : Nat), s.peer.handover = some (q, g, hv) ∧ s.peer.handoverStep < 2) ∧
    (∃ (s : State) (q g hv : Nat), s.peer.handover = some (q, g, hv) ∧ 2 ≤ s.peer.handoverStep) ∧
    (∃ (s : State), s.peer.handover = none) ∧
    (∃ (s : State) (h : CmdHdr) (ten g : Nat), Ready s h pgPEERCTL pgPEERCTL .work ∧ ten < 16384 ∧ (g < 4 ∨ g = 0xFF) ∧ (s.lmap.vols.any fun v => v.2.kind ≠ 0 && v.2.tenant = ten) = false) ∧
    (∃ (s : State) (h : CmdHdr) (ten g : Nat), Ready s h pgPEERCTL pgPEERCTL .work ∧ ten < 16384 ∧ (g < 4 ∨ g = 0xFF) ∧ (s.lmap.vols.any fun v => v.2.kind ≠ 0 && v.2.tenant = ten) = true) ∧
    (∃ (s : State) (h : CmdHdr) (ten g : Nat), Ready s h pgPEERCTL pgPEERCTL .work ∧ (16384 ≤ ten ∨ (4 ≤ g ∧ g ≠ 0xFF))) ∧
    (∃ (s : State), s.peerState = psPaired) ∧
    (∃ (s : State), s.peerState ≠ psPaired) :=
  ⟨⟨{ pairIn psUnpaired msAbsent with ldt.assoc := [(4095, { state := .isOpen, port := 0x20 })] }, hdr 0, 4095, 0, 0, 0, 0, 0, by decide +kernel⟩,
   ⟨pairIn psPaired msAbsent, hdr 0, 4095, 0, 0, 0, 0, 0, by decide +kernel⟩,
   ⟨{ pairIn psUnpaired msAbsent with ldt.assoc := [(4095, { state := .isOpen, port := 0x20 })] }, hdr 0, 0, 0, 0, 0, 0, 0, by decide +kernel⟩,
   ⟨{ pairIn psUnpaired msAbsent with ldt.assoc := [(4095, { state := .isOpen, port := 0x20 })] }, hdr 0, 4095, 0, 0, 0, 0, 0, by decide +kernel⟩,
   ⟨pairIn psPaired msAbsent, hdr 0, by decide +kernel⟩,
   ⟨{ pairIn psUnpaired msAbsent with ldt.assoc := [(4095, { state := .isOpen, port := 0x20 })] }, hdr 0, by decide +kernel⟩,
   ⟨pairIn psPaired msBroken, hdr 0, by decide +kernel⟩,
   ⟨{ pairIn psUnpaired msAbsent with ldt.assoc := [(4095, { state := .isOpen, port := 0x20 })] }, hdr 0, by decide +kernel⟩,
   ⟨pairIn psPaired msResync, by decide +kernel⟩,
   ⟨{ pairIn psUnpaired msAbsent with ldt.assoc := [(4095, { state := .isOpen, port := 0x20 })] }, by decide +kernel⟩,
   ⟨{ pairIn psUnpaired msAbsent with ldt.assoc := [(4095, { state := .isOpen, port := 0x20 })] }, hdr 0, true, 4095, true, by decide +kernel⟩,
   ⟨pairIn psLost msAbsent, hdr 0, false, 4095, true, by decide +kernel⟩,
   ⟨({ pairIn psLost msAbsent with links := [(0, { st := 4 })] } : State).setFld fPEERCTL_ARBITER_VALID 1, hdr 0, false, 1, true, by decide +kernel⟩,
   ⟨pairIn psLost msAbsent, hdr 0, true, 4095, false, by decide +kernel⟩,
   ⟨pairIn psLost msAbsent, (pairIn psLost msAbsent : State).peer.ring.foldl (fun u e => u.applyUnit e.2) (({ ((pairIn psLost msAbsent : State).consume.arbiterTaken true).preempted ((pairIn psLost msAbsent : State).peerGroups.flatMap (pairIn psLost msAbsent : State).groupMembers) with peer.changing := (pairIn psLost msAbsent : State).peerGroups } : State).setAna), hdr 0, true, 4095, by decide +kernel, by decide +kernel, by decide +kernel, by decide +kernel, rfl⟩,
   ⟨pairIn psLost msAbsent, hdr 0, by decide +kernel⟩,
   ⟨{ pairIn psUnpaired msAbsent with ldt.assoc := [(4095, { state := .isOpen, port := 0x20 })] }, hdr 0, 3, 0, by decide +kernel⟩,
   ⟨(pairIn psPaired msAbsent).setFld fPEERCTL_STATE_GROUP_OWNER 0, hdr 0, 3, 0, by decide +kernel⟩,
   ⟨((pairIn psPaired msHealthy).setFld fPEERCTL_STATE_PEER_MIRROR msHealthy).setFld fPEERCTL_STATE_GROUP_OWNER 0, hdr 0, 3, 0, by decide +kernel⟩,
   ⟨{ pairIn psPaired msAbsent with peer.handover := some (7, 3, 0), peer.handoverStep := 1 }, 7, 3, 0, by decide +kernel⟩,
   ⟨{ pairIn psPaired msAbsent with peer.handover := some (7, 3, 0), peer.handoverStep := 2 }, 7, 3, 0, by decide +kernel⟩,
   ⟨{ pairIn psUnpaired msAbsent with ldt.assoc := [(4095, { state := .isOpen, port := 0x20 })] }, by decide +kernel⟩,
   ⟨{ pairIn psUnpaired msAbsent with ldt.assoc := [(4095, { state := .isOpen, port := 0x20 })] }, hdr 0, 16383, 3, by decide +kernel⟩,
   ⟨{ pairIn psPaired msAbsent with lmap.vols := [(0, { kind := 1, tenant := 16383 })] }, hdr 0, 16383, 3, by decide +kernel⟩,
   ⟨{ pairIn psUnpaired msAbsent with ldt.assoc := [(4095, { state := .isOpen, port := 0x20 })] }, hdr 0, 16383, 4, by decide +kernel⟩,
   ⟨pairIn psPaired msAbsent, by decide +kernel⟩,
   ⟨{ pairIn psUnpaired msAbsent with ldt.assoc := [(4095, { state := .isOpen, port := 0x20 })] }, by decide +kernel⟩⟩

theorem witness_PeerMessages :
    (∃ (s : State) (q b n mc ic cs ck mi gr ar mo g hv loc : Nat) (rs : List Nat) (x : Instr), x ∈ [.cancel q b n, .runReq q n, .runGrant q rs, .resyncDone q n, .handover q g hv loc n, .handoverAck q g, .heartbeat q mc ic cs ck mi gr ar mo] ∧ OutOfTurn s q) ∧
    (∃ (s : State) (q b n mc ic cs ck mi gr ar mo g hv loc : Nat) (rs : List Nat) (x : Instr), x ∈ [.cancel q b n, .runReq q n, .runGrant q rs, .resyncDone q n, .handover q g hv loc n, .handoverAck q g, .heartbeat q mc ic cs ck mi gr ar mo] ∧ BadSlot s q) ∧
    (∃ (s : State) (q _b _n : Nat), InOrder s q) ∧
    (∃ (s : State) (q n : Nat), InOrder s q ∧ (n = 0 ∨ (s.tookMsg q).runsFree ≤ 2)) ∧
    (∃ (s : State) (q n : Nat) (k : Nat) (gs : List Nat), InOrder s q ∧ k = min (min n 8) ((s.tookMsg q).runsFree - 2) ∧ 0 < k ∧ gs = (s.tookMsg q).freeRuns.take k) ∧
    (∃ (s : State) (q : Nat) (_rs : List Nat), InOrder s q) ∧
    (∃ (s : State) (q _n : Nat), InOrder s q) ∧
    (∃ (s : State) (q g _hv _loc _n : Nat), InOrder s q ∧ 4 ≤ g) ∧
    (∃ (s : State) (q g _hv _loc n : Nat) (t : State), InOrder s q ∧ g < 4 ∧ t = ({ (s.tookMsg q) with peer.ring := s.peer.ring.filter (fun e => decide (n < e.1)) } : State).adopt [g]) ∧
    (∃ (s : State) (q _g : Nat), InOrder s q ∧ s.peer.handover = none) ∧
    (∃ (s : State) (q g : Nat) (c x hv : Nat), InOrder s q ∧ s.peer.handover = some (c, x, hv) ∧ (x ≠ g ∨ s.peer.handoverStep ≠ 2)) ∧
    (∃ (s t : State) (q c g hv : Nat), InOrder s q ∧ s.peer.handover = some (c, g, hv) ∧ s.peer.handoverStep = 2 ∧ t = ({ (s.tookMsg q) with peer.handover := none, peer.changing := s.peer.changing.filter (· ≠ g) } : State).setOwner g s.otherHead) ∧
    (∃ (s : State) (q _mc _ic _cs _ck _mi _gr _ar _mo : Nat), InOrder s q ∧ s.peerState ≠ psPairing ∧ s.peerState ≠ psLost) ∧
    (∃ (s : State) (q _mc _ic _cs _ck _mi _gr _ar _mo : Nat), InOrder s q ∧ s.peerState = psLost) ∧
    (∃ (s : State) (q _mc _ic _cs _ck _mi _gr ar mo : Nat), InOrder s q ∧ s.peerState = psPairing ∧ ar = (s.tookMsg q).arbiterCandidate ∧ mo = b2n s.plat.chip.shelf) ∧
    (∃ (s : State) (q _mc _ic _cs _ck _mi _gr ar mo : Nat), InOrder s q ∧ s.peerState = psPairing ∧ (ar ≠ (s.tookMsg q).arbiterCandidate ∨ mo ≠ b2n s.plat.chip.shelf)) ∧
    (∃ (s : State), s.working pgPEERCTL = true ∧ (s.peerState = psPairing ∨ s.peerState = psPaired ∨ s.peerState = psLost)) ∧
    (∃ (s : State), (s.working pgPEERCTL = false ∨ (s.peerState ≠ psPairing ∧ s.peerState ≠ psPaired ∧ s.peerState ≠ psLost))) ∧
    (∃ (s : State) (_c : Nat) (_bs : List Byte), (s.peerState = psUnpaired ∨ s.working pgPEERCTL = false)) ∧
    (∃ (s : State) (c : Nat) (bs : List Byte) (t : State), s.peerState ≠ psUnpaired ∧ s.working pgPEERCTL = true ∧ (s.peer.inboundHealthy = false ∨ c = s.peer.ringNext) ∧ t = (splitRecords (bs.length / 32 + 1) bs).foldl (fun t r => t.applyDir r) s) ∧
    (∃ (s : State) (c : Nat) (_bs : List Byte), s.peerState ≠ psUnpaired ∧ s.working pgPEERCTL = true ∧ s.peer.inboundHealthy = true ∧ c ≠ s.peer.ringNext) ∧
    (∃ (s : State) (bs : List Byte), s.peerState ≠ psUnpaired ∧ s.working pgPEERCTL = true ∧ bs.length < 32) ∧
    (∃ (s : State) (q : Nat) (_bs : List Byte), (s.peerState = psUnpaired ∨ q ≠ s.peer.batchRecv + 1 ∨ s.working pgPEERCTL = false)) ∧
    (∃ (s : State) (q : Nat) (bs : List Byte), s.peerState ≠ psUnpaired ∧ q = s.peer.batchRecv + 1 ∧ s.working pgPEERCTL = true ∧ s.hbmErr (s.peerRegion 4 + 16384 * (q % 16)) bs.length = true) ∧
    (∃ (s : State) (q : Nat) (bs : List Byte), s.peerState ≠ psUnpaired ∧ q = s.peer.batchRecv + 1 ∧ s.working pgPEERCTL = true ∧ s.hbmErr (s.peerRegion 4 + 16384 * (q % 16)) bs.length = false) ∧
    (∃ (s : State) (r : Nat), s.peer.writes.find? (fun w => w.1 = r) = none) ∧
    (∃ (s : State) (r : Nat) (w : Nat × Nat), s.peer.writes.find? (fun w => w.1 = r) = some w ∧ s.nvf.cmds.find w.2 = none) ∧
    (∃ (s : State) (r : Nat) (w : Nat × Nat) (c : NvCmd), s.peer.writes.find? (fun w => w.1 = r) = some w ∧ s.nvf.cmds.find w.2 = some c ∧ c.wantP = true ∧ c.resP = none) ∧
    (∃ (s : State) (r : Nat) (w : Nat × Nat) (c : NvCmd), s.peer.writes.find? (fun w => w.1 = r) = some w ∧ s.nvf.cmds.find w.2 = some c ∧ (c.wantP = false ∨ c.resP ≠ none)) :=
  ⟨⟨State.reset, 1, 0, 1, 0, 0, 0, 0, 0, 0, 1, 0, 3, 0, 0, [0], .cancel 1 0 1, by decide +kernel⟩,
   ⟨{ pairIn psPaired msAbsent with mem.bad := [1, 256] }, 1, 0, 1, 0, 0, 0, 0, 0, 0, 1, 0, 3, 0, 0, [0], .cancel 1 0 1, by decide +kernel⟩,
   ⟨pairIn psPaired msAbsent, 1, 0, 1, by decide +kernel⟩,
   ⟨pairIn psPaired msAbsent, 1, 0, by decide +kernel⟩,
   ⟨pairIn psPaired msAbsent, 1, 1, 1, ((pairIn psPaired msAbsent : State).tookMsg 1).freeRuns.take 1, by decide +kernel⟩,
   ⟨pairIn psPaired msAbsent, 1, [0], by decide +kernel⟩,
   ⟨pairIn psPaired msAbsent, 1, 1, by decide +kernel⟩,
   ⟨pairIn psPaired msAbsent, 1, 4, 0, 0, 1, by decide +kernel⟩,
   ⟨pairIn psPaired msAbsent, 1, 3, 0, 0, 1, ({ ((pairIn psPaired msAbsent : State).tookMsg 1) with peer.ring := (pairIn psPaired msAbsent : State).peer.ring.filter (fun e => decide (1 < e.1)) } : State).adopt [3], by decide +kernel, by decide +kernel, rfl⟩,
   ⟨pairIn psPaired msAbsent, 1, 3, by decide +kernel⟩,
   ⟨{ pairIn psPaired msAbsent with peer.handover := some (7, 3, 0), peer.handoverStep := 2 }, 1, 4, 7, 3, 0, by decide +kernel⟩,
   ⟨{ pairIn psPaired msAbsent with peer.handover := some (7, 3, 0), peer.handoverStep := 2 }, ({ (({ pairIn psPaired msAbsent with peer.handover := some (7, 3, 0), peer.handoverStep := 2 } : State).tookMsg 1) with peer.handover := none, peer.changing := ({ pairIn psPaired msAbsent with peer.handover := some (7, 3, 0), peer.handoverStep := 2 } : State).peer.changing.filter (· ≠ 3) } : State).setOwner 3 ({ pairIn psPaired msAbsent with peer.handover := some (7, 3, 0), peer.handoverStep := 2 } : State).otherHead, 1, 7, 3, 0, by decide +kernel, by decide +kernel, by decide +kernel, rfl⟩,
   ⟨pairIn psPaired msAbsent, 1, 0, 0, 0, 0, 0, 0, 1, 0, by decide +kernel⟩,
   ⟨pairIn psLost msAbsent, 1, 0, 0, 0, 0, 0, 0, 1, 0, by decide +kernel⟩,
   ⟨pairIn psPairing msAbsent, 1, 0, 0, 0, 0, 0, 0, 255, 0, by decide +kernel⟩,
   ⟨pairIn psPairing msAbsent, 1, 0, 0, 0, 0, 0, 0, 1, 0, by decide +kernel⟩,
   ⟨pairIn psPaired msAbsent, by decide +kernel⟩,
   ⟨State.reset, by decide +kernel⟩,
   ⟨State.reset, 1, List.replicate 63 0, by decide +kernel⟩,
   ⟨pairIn psPaired msAbsent, 1, List.replicate 63 0, (splitRecords ((List.replicate 63 0 : List Byte).length / 32 + 1) (List.replicate 63 0 : List Byte)).foldl (fun t r => t.applyDir r) (pairIn psPaired msAbsent : State), by decide +kernel, by decide +kernel, by decide +kernel, rfl⟩,
   ⟨{ pairIn psPaired msAbsent with peer.inboundHealthy := true }, 1, List.replicate 63 0, by decide +kernel⟩,
   ⟨pairIn psPaired msAbsent, List.replicate 31 0, by decide +kernel⟩,
   ⟨pairIn psPaired msAbsent, 0, List.replicate 63 0, by decide +kernel⟩,
   ⟨{ pairIn psPaired msAbsent with mem.bad := [1, 256] }, 1, List.replicate 63 0, by decide +kernel⟩,
   ⟨pairIn psPaired msAbsent, 1, List.replicate 63 0, by decide +kernel⟩,
   ⟨pairIn psPaired msAbsent, 5, by decide +kernel⟩,
   ⟨{ pairIn psPaired msAbsent with peer.writes := [(5, 0)] }, 5, (5, 0), by decide +kernel⟩,
   ⟨{ pairIn psPaired msAbsent with peer.writes := [(5, 0)], nvf.cmds := [(0, { wantP := true })] }, 5, (5, 0), { wantP := true }, by decide +kernel⟩,
   ⟨{ pairIn psPaired msAbsent with peer.writes := [(5, 0)], nvf.cmds := [(0, {})] }, 5, (5, 0), {}, by decide +kernel⟩⟩

theorem witness_LimitsAndTallies :
    (∃ (s : State) (h : CmdHdr) (ten _fl ir ib br bb : Nat), Ready s h pgQOS pgQOS .work ∧ ten < 16384 ∧ (ir = 0 ∨ ib ≠ 0) ∧ (br = 0 ∨ bb ≠ 0)) ∧
    (∃ (s : State) (h : CmdHdr) (ten _fl ir ib br bb : Nat), Ready s h pgQOS pgQOS .work ∧ (16384 ≤ ten ∨ (ir ≠ 0 ∧ ib = 0) ∨ (br ≠ 0 ∧ bb = 0))) ∧
    (∃ (s : State) (h : CmdHdr) (ten dst : Nat), Ready s h pgQOS pgQOS .work ∧ ten < 16384 ∧ dst % 4096 = 0 ∧ dst + 20480 ≤ hbmEnd ∧ s.hbmErr (s.histAddr ten 0) 20480 = false) ∧
    (∃ (s : State) (h : CmdHdr) (ten dst : Nat), Ready s h pgQOS pgQOS .work ∧ ten < 16384 ∧ dst % 4096 = 0 ∧ dst + 20480 ≤ hbmEnd ∧ s.hbmErr (s.histAddr ten 0) 20480 = true) ∧
    (∃ (s : State) (h : CmdHdr) (ten dst : Nat), Ready s h pgQOS pgQOS .work ∧ (16384 ≤ ten ∨ dst % 4096 ≠ 0 ∨ hbmEnd < dst + 20480)) ∧
    (∃ (s : State), s.runs pgTALLY = true ∧ s.ten.minute < s.nowMinute) ∧
    (∃ (s : State), (s.runs pgTALLY = false ∨ s.nowMinute ≤ s.ten.minute)) ∧
    (∃ (s : State), s.runs pgTALLY = true ∧ s.ten.minute < s.nowMinute ∧ s.ten.limits = []) :=
  ⟨⟨running [pgEVT, pgQOS], hdr 0, 16383, 0, 0, 1, 0, 0, by decide +kernel⟩,
   ⟨running [pgEVT, pgQOS], hdr 0, 16383, 0, 1, 0, 0, 0, by decide +kernel⟩,
   ⟨running [pgEVT, pgQOS], hdr 0, 16383, 4096, by decide +kernel⟩,
   ⟨{ running [pgEVT, pgQOS] with mem.bad := [4096 * 5 * 16383 / 64] }, hdr 0, 16383, 4096, by decide +kernel⟩,
   ⟨running [pgEVT, pgQOS], hdr 0, 16383, 1, by decide +kernel⟩,
   ⟨{ running [pgTALLY] with plat.time.now := 60000000000 }, by decide +kernel⟩,
   ⟨running [pgEVT, pgQOS], by decide +kernel⟩,
   ⟨{ running [pgTALLY] with plat.time.now := 60000000000 }, by decide +kernel⟩⟩

theorem witness_HistogramCounter :
    (∃ (v : Nat), v < 1024) ∧
    (∃ (v : Nat), 2 ^ 36 ≤ v) ∧
    (∃ (v e : Nat), 10 ≤ e ∧ e < 36 ∧ 2 ^ e ≤ v ∧ v < 2 ^ (e + 1)) ∧
    (∃ (v w : Nat), v ≤ w) :=
  ⟨⟨1023, by decide +kernel⟩,
   ⟨2 ^ 36, by decide +kernel⟩,
   ⟨2 ^ 36 - 1, 35, by decide +kernel⟩,
   ⟨0, 0, by decide +kernel⟩⟩

theorem witness_Stacks :
    (∃ (_s : State) (k : Nat), 3 ≤ k) ∧
    (∃ (s : State) (k : Nat), k < 3 ∧ s.pageOn (pgHBM k) = false) ∧
    (∃ (s : State) (k : Nat), k < 3 ∧ s.pageOn (pgHBM k) = true ∧ (s.blk (pgHBM k) = .fault ∨ s.blk (pgHBM k) = .off)) ∧
    (∃ (s : State) (k : Nat), k < 3 ∧ Reaches s (pgHBM k) ∧ (s.stack k).sr = .active) ∧
    (∃ (s : State) (k : Nat), k < 3 ∧ Reaches s (pgHBM k) ∧ (s.stack k).sr ≠ .active) ∧
    (∃ (s : State) (k : Nat), k < 3 ∧ Reaches s (pgHBM k) ∧ (s.stack k).sr = .entering) ∧
    (∃ (s : State) (k : Nat), k < 3 ∧ Reaches s (pgHBM k) ∧ (s.stack k).sr = .selfRefresh) ∧
    (∃ (s : State) (k : Nat), k < 3 ∧ Reaches s (pgHBM k) ∧ ((s.stack k).sr = .active ∨ (s.stack k).sr = .exiting)) ∧
    (∃ (s : State) (k : Nat), (s.stack k).sr = .entering ∧ s.stackQuiet k = true ∧ (s.stack k).exitNext = false) ∧
    (∃ (s : State) (k : Nat), (s.stack k).sr = .entering ∧ s.stackQuiet k = true ∧ (s.stack k).exitNext = true) ∧
    (∃ (s : State) (k : Nat), ((s.stack k).sr ≠ .entering ∨ s.stackQuiet k = false)) ∧
    (∃ (s : State) (k : Nat), (s.stack k).sr = .exiting) ∧
    (∃ (s : State) (k : Nat), (s.stack k).sr = .exiting ∧ s.mem.held = [] ∧ s.mem.jobs = []) ∧
    (∃ (s : State) (k : Nat), (s.stack k).sr ≠ .exiting) ∧
    (∃ (s t u : State) (k : Nat), k < 3 ∧ s.fld (fHBM_SCRUB_CFG_PERIOD_H k) ≠ 0 ∧ (s.stack k).sr = .active ∧ s.plat.pwr.cold = false ∧ t = (s.mem.soft.filter (fun x => stackOf (64 * x) = k)).foldl (fun t x => t.hbmCorr (64 * x)) s ∧ u = (s.mem.bad.filter (fun x => stackOf (64 * x) = k)).foldl (fun t x => t.hbmUncorr (64 * x)) t) ∧
    (∃ (s : State) (k x : Nat), k < 3 ∧ s.fld (fHBM_SCRUB_CFG_PERIOD_H k) ≠ 0 ∧ (s.stack k).sr = .active ∧ s.plat.pwr.cold = false ∧ s.mem.soft = [x] ∧ stackOf (64 * x) = k ∧ s.mem.bad = []) ∧
    (∃ (s : State) (k : Nat), (3 ≤ k ∨ s.fld (fHBM_SCRUB_CFG_PERIOD_H k) = 0 ∨ (s.stack k).sr ≠ .active ∨ s.plat.pwr.cold = true)) ∧
    (∃ (s : State) (h : CmdHdr) (a n r : Nat), Ready s h pgSYSC pgSYSC .work ∧ (syscBad a n = true ∨ r % 16 ≠ 0 ∨ hbmEnd < r + 16)) ∧
    (∃ (s : State) (h : CmdHdr) (a n r : Nat), Ready s h pgSYSC pgSYSC .work ∧ syscBad a n = false ∧ r % 16 = 0 ∧ r + 16 ≤ hbmEnd) ∧
    (∃ (s : State) (h : CmdHdr) (a n r k : Nat) (l : Line), Ready s h pgSYSC pgSYSC .work ∧ syscBad a n = false ∧ r % 16 = 0 ∧ r + 16 ≤ hbmEnd ∧ s.mem.jobs = [] ∧ (∀ j, (s.stack j).sr = .active) ∧ s.mem.lines = [(k, l)] ∧ l.phase = .valid ∧ a ≤ lineAddr k l.tag ∧ lineAddr k l.tag < a + n) ∧
    (∃ (s : State) (h : CmdHdr) (a n : Nat), Ready s h pgSYSC pgSYSC .work ∧ syscBad a n = true) ∧
    (∃ (s : State) (h : CmdHdr) (a n : Nat), Ready s h pgSYSC pgSYSC .work ∧ syscBad a n = false ∧ n = 0 ∧ s.mem.jobs = []) ∧
    (∃ (s : State) (h : CmdHdr) (a n : Nat), Ready s h pgSYSC pgSYSC .work ∧ syscBad a n = false ∧ (n ≠ 0 ∨ s.mem.jobs ≠ [])) ∧
    (∃ (s : State) (h : CmdHdr) (a : Nat), Ready s h pgSYSC pgSYSC .work ∧ syscBad a 256 = false ∧ s.mem.jobs = [] ∧ s.mem.lines = [] ∧ s.mem.mb = [] ∧ (∀ j, (s.stack j).sr = .active)) ∧
    (∃ (s : State) (h : CmdHdr) (w a n : Nat), Ready s h pgSYSC pgSYSC .work ∧ (syscBad a n = true ∨ 6 * 2 ^ 20 < n ∨ 16 ≤ w ∨ s.locked w = false ∨ s.way w ≠ .powered)) ∧
    (∃ (s : State) (h : CmdHdr) (w a n : Nat), Ready s h pgSYSC pgSYSC .work ∧ syscBad a n = false ∧ n ≤ 6 * 2 ^ 20 ∧ w < 16 ∧ s.locked w = true ∧ s.way w = .powered ∧ n = 0 ∧ s.mem.jobs = []) ∧
    (∃ (s : State) (h : CmdHdr) (w a n : Nat), Ready s h pgSYSC pgSYSC .work ∧ syscBad a n = false ∧ n ≤ 6 * 2 ^ 20 ∧ w < 16 ∧ s.locked w = true ∧ s.way w = .powered ∧ (n ≠ 0 ∨ s.mem.jobs ≠ [])) ∧
    (∃ (s : State) (h : CmdHdr) (w a : Nat), Ready s h pgSYSC pgSYSC .work ∧ syscBad a 256 = false ∧ w < 16 ∧ s.locked w = true ∧ s.way w = .powered ∧ s.mem.jobs = [] ∧ (∀ j, (s.stack j).sr = .active) ∧ s.mem.bad = []) :=
  ⟨⟨running [pgHBM 2, pgEVT, pgSYSC], 3, by decide +kernel⟩,
   ⟨{ State.reset with plat.pwr.cold := true }, 2, by decide +kernel⟩,
   ⟨{ State.reset with pages := [(pgHBM 2, { st := .fault })] }, 2, by decide +kernel⟩,
   ⟨running [pgHBM 2, pgEVT, pgSYSC], 2, by decide +kernel⟩,
   ⟨{ running [pgHBM 2] with mem.hbmStacks := [(2, { sr := .entering })] }, 2, by decide +kernel⟩,
   ⟨{ running [pgHBM 2] with mem.hbmStacks := [(2, { sr := .entering })] }, 2, by decide +kernel⟩,
   ⟨{ running [pgHBM 2] with mem.hbmStacks := [(2, { sr := .selfRefresh })] }, 2, by decide +kernel⟩,
   ⟨running [pgHBM 2, pgEVT, pgSYSC], 2, by decide +kernel⟩,
   ⟨{ running [pgHBM 2] with mem.hbmStacks := [(2, { sr := .entering })] }, 2, by decide +kernel⟩,
   ⟨{ running [pgHBM 2] with mem.hbmStacks := [(2, { sr := .entering, exitNext := true })] }, 2, by decide +kernel⟩,
   ⟨running [pgHBM 2, pgEVT, pgSYSC], 2, by decide +kernel⟩,
   ⟨{ running [pgHBM 2] with mem.hbmStacks := [(2, { sr := .exiting })] }, 2, by decide +kernel⟩,
   ⟨{ running [pgHBM 2] with mem.hbmStacks := [(2, { sr := .exiting })] }, 2, by decide +kernel⟩,
   ⟨running [pgHBM 2, pgEVT, pgSYSC], 2, by decide +kernel⟩,
   ⟨running [pgHBM 2, pgEVT, pgSYSC], ((running [pgHBM 2, pgEVT, pgSYSC] : State).mem.soft.filter (fun x => stackOf (64 * x) = 2)).foldl (fun t x => t.hbmCorr (64 * x)) (running [pgHBM 2, pgEVT, pgSYSC] : State), ((running [pgHBM 2, pgEVT, pgSYSC] : State).mem.bad.filter (fun x => stackOf (64 * x) = 2)).foldl (fun t x => t.hbmUncorr (64 * x)) (((running [pgHBM 2, pgEVT, pgSYSC] : State).mem.soft.filter (fun x => stackOf (64 * x) = 2)).foldl (fun t x => t.hbmCorr (64 * x)) (running [pgHBM 2, pgEVT, pgSYSC] : State) : State), 2, by decide +kernel, by decide +kernel, by decide +kernel, by decide +kernel, rfl, rfl⟩,
   ⟨{ (running [pgHBM 2]).setFld (fHBM_SCRUB_CFG_PERIOD_H 2) 1 with mem.soft := [8] }, 2, 8, by decide +kernel⟩,
   ⟨running [pgHBM 2, pgEVT, pgSYSC], 3, by decide +kernel⟩,
   ⟨running [pgHBM 2, pgEVT, pgSYSC], hdr 0, 0, 0, 1, by decide +kernel⟩,
   ⟨running [pgHBM 2, pgEVT, pgSYSC], hdr 0, 0, 0, hbmEnd - 16, by decide +kernel⟩,
   ⟨{ running [pgEVT, pgSYSC] with mem.lines := [(0, { phase := .valid })] }, hdr 0, 0, 256, hbmEnd - 16, 0, { phase := .valid }, by decide +kernel, by decide +kernel, by decide +kernel, by decide +kernel, by decide +kernel, fun _ => rfl, by decide +kernel, by decide +kernel, by decide +kernel, by decide +kernel⟩,
   ⟨running [pgHBM 2, pgEVT, pgSYSC], hdr 0, 0, 1, by decide +kernel⟩,
   ⟨running [pgHBM 2, pgEVT, pgSYSC], hdr 0, 0, 0, by decide +kernel⟩,
   ⟨running [pgHBM 2, pgEVT, pgSYSC], hdr 0, 0, 256, by decide +kernel⟩,
   ⟨running [pgEVT, pgSYSC], hdr 0, hbmEnd - 256, by decide +kernel, by decide +kernel, by decide +kernel, by decide +kernel, by decide +kernel, fun _ => rfl⟩,
   ⟨running [pgHBM 2, pgEVT, pgSYSC], hdr 0, 15, 0, 0, by decide +kernel⟩,
   ⟨(running [pgEVT, pgSYSC]).setReg rSYSC_LOCK 0x8000, hdr 0, 15, 0, 0, by decide +kernel⟩,
   ⟨(running [pgEVT, pgSYSC]).setReg rSYSC_LOCK 0x8000, hdr 0, 15, 0, 256, by decide +kernel⟩,
   ⟨(running [pgEVT, pgSYSC]).setReg rSYSC_LOCK 0x8000, hdr 0, 15, hbmEnd - 256, by decide +kernel, by decide +kernel, by decide +kernel, by decide +kernel, by decide +kernel, by decide +kernel, fun _ => rfl, by decide +kernel⟩⟩

theorem witness_SystemCache :
    (∃ (s : State) (_a _len _ecc : Nat) (_bs : List Byte) (_core : Bool), s.plat.pwr.cold = true) ∧
    (∃ (s : State) (a _len _ecc : Nat) (_bs : List Byte) (core : Bool), s.plat.pwr.cold = false ∧ (core = false ∨ a < hbmEnd)) ∧
    (∃ (s : State) (a len _ecc : Nat), s.plat.pwr.cold = false ∧ 0 < len ∧ len ≤ 256 - a % 256 ∧ hbmEnd ≤ a) ∧
    (∃ (s : State) (a len _ecc : Nat) (_core : Bool), s.plat.pwr.cold = false ∧ 0 < len ∧ len ≤ 256 - a % 256 ∧ a < hbmEnd ∧ (s.stack (stackOf a)).sr = .exiting) ∧
    (∃ (s : State) (a len ecc : Nat) (_core : Bool) (w : Nat), s.plat.pwr.cold = false ∧ 0 < len ∧ len ≤ 256 - a % 256 ∧ a < hbmEnd ∧ (s.stack (stackOf a)).sr ≠ .exiting ∧ s.tagWay a = some w ∧ (s.line (lineKey w a)).valid &&& sectorsOf a len = sectorsOf a len ∧ ecc ≠ 2) ∧
    (∃ (s : State) (a len ecc : Nat) (_core : Bool) (w : Nat), s.plat.pwr.cold = false ∧ 0 < len ∧ len ≤ 256 - a % 256 ∧ a < hbmEnd ∧ (s.stack (stackOf a)).sr = .active ∧ s.tagWay a = some w ∧ (s.line (lineKey w a)).valid &&& sectorsOf a len = sectorsOf a len ∧ ecc = 2) ∧
    (∃ (s : State) (a len _ecc : Nat) (_core : Bool) (w : Nat), s.plat.pwr.cold = false ∧ 0 < len ∧ len ≤ 256 - a % 256 ∧ a < hbmEnd ∧ (s.stack (stackOf a)).sr = .active ∧ s.tagWay a = some w ∧ (s.line (lineKey w a)).valid &&& sectorsOf a len ≠ sectorsOf a len) ∧
    (∃ (s : State) (a len _ecc : Nat) (_core : Bool), s.plat.pwr.cold = false ∧ 0 < len ∧ len ≤ 256 - a % 256 ∧ a < hbmEnd ∧ s.tagWay a = none ∧ s.asleep a = true) ∧
    (∃ (s : State) (a len ecc : Nat) (_core : Bool) (w : Nat), s.plat.pwr.cold = false ∧ 0 < len ∧ len ≤ 256 - a % 256 ∧ a < hbmEnd ∧ s.asleep a = true ∧ s.tagWay a = some w ∧ ((s.line (lineKey w a)).valid &&& sectorsOf a len ≠ sectorsOf a len ∨ ecc = 2)) ∧
    (∃ (s : State) (a len _ecc : Nat) (_core : Bool) (w : Nat), s.plat.pwr.cold = false ∧ 0 < len ∧ len ≤ 256 - a % 256 ∧ a < hbmEnd ∧ (s.stack (stackOf a)).sr = .active ∧ s.tagWay a = none ∧ s.departingWay a = some w) ∧
    (∃ (s : State) (a len _ecc : Nat) (_core : Bool), s.plat.pwr.cold = false ∧ 0 < len ∧ len ≤ 256 - a % 256 ∧ a < hbmEnd ∧ (s.stack (stackOf a)).sr = .active ∧ s.tagWay a = none ∧ s.departingWay a = none) ∧
    (∃ (s : State) (a _n _ecc : Nat) (_bs : List Byte), s.plat.pwr.cold = false ∧ hbmEnd ≤ a ∧ coreSpace a = .nothing) ∧
    (∃ (s : State) (a n _ecc : Nat) (_bs : List Byte) (c o : Nat), s.plat.pwr.cold = false ∧ hbmEnd ≤ a ∧ coreSpace a = .scratch c o ∧ s.scratchOk c o n = true) ∧
    (∃ (s : State) (a n _ecc : Nat) (_bs : List Byte) (c o : Nat), s.plat.pwr.cold = false ∧ hbmEnd ≤ a ∧ coreSpace a = .scratch c o ∧ s.scratchOk c o n = false) ∧
    (∃ (s : State) (a _n _ecc : Nat) (bs : List Byte) (c o : Nat), s.plat.pwr.cold = false ∧ hbmEnd ≤ a ∧ coreSpace a = .scratch c o ∧ s.scratchOk c o bs.length = true) ∧
    (∃ (s : State) (a _n _ecc : Nat) (bs : List Byte) (c o : Nat), s.plat.pwr.cold = false ∧ hbmEnd ≤ a ∧ coreSpace a = .scratch c o ∧ s.scratchOk c o bs.length = false) ∧
    (∃ (s : State) (a n _ecc : Nat) (_bs : List Byte) (o : Nat), s.plat.pwr.cold = false ∧ hbmEnd ≤ a ∧ coreSpace a = .rom o ∧ o + n ≤ 65536) ∧
    (∃ (s : State) (a n _ecc : Nat) (_bs : List Byte) (o : Nat), s.plat.pwr.cold = false ∧ hbmEnd ≤ a ∧ coreSpace a = .rom o ∧ 65536 < o + n) ∧
    (∃ (s : State) (a n _ecc : Nat) (_bs : List Byte) (o : Nat), s.plat.pwr.cold = false ∧ hbmEnd ≤ a ∧ coreSpace a = .window o ∧ winCheck false o n = .ok) ∧
    (∃ (s : State) (a n _ecc : Nat) (_bs : List Byte) (o : Nat), s.plat.pwr.cold = false ∧ hbmEnd ≤ a ∧ coreSpace a = .window o ∧ winCheck false o n ≠ .ok) ∧
    (∃ (s : State) (a _n _ecc : Nat) (bs : List Byte) (o : Nat), s.plat.pwr.cold = false ∧ hbmEnd ≤ a ∧ coreSpace a = .window o ∧ winCheck true o bs.length = .ok) ∧
    (∃ (s : State) (a _n _ecc : Nat) (bs : List Byte) (o : Nat), s.plat.pwr.cold = false ∧ hbmEnd ≤ a ∧ coreSpace a = .window o ∧ winCheck true o bs.length ≠ .ok) ∧
    (∃ (s : State) (a _n _ecc : Nat) (bs : List Byte) (k o : Nat), s.plat.pwr.cold = false ∧ hbmEnd ≤ a ∧ coreSpace a = .irqFile k o ∧ o = 0 ∧ bs.length = 4 ∧ 1 ≤ unLe bs ∧ unLe bs < 256) ∧
    (∃ (s : State) (a _n _ecc : Nat) (bs : List Byte) (k o : Nat), s.plat.pwr.cold = false ∧ hbmEnd ≤ a ∧ coreSpace a = .irqFile k o ∧ (o ≠ 0 ∨ bs.length ≠ 4 ∨ unLe bs = 0 ∨ 256 ≤ unLe bs)) ∧
    (∃ (s : State) (a : Nat) (bs : List Byte) (_core : Bool), s.plat.pwr.cold = false ∧ bs ≠ [] ∧ bs.length ≤ 64 - a % 64 ∧ hbmEnd ≤ a) ∧
    (∃ (s : State) (a : Nat) (bs : List Byte) (_core : Bool), s.plat.pwr.cold = false ∧ bs ≠ [] ∧ bs.length ≤ 64 - a % 64 ∧ a < hbmEnd ∧ s.asleep a = true) ∧
    (∃ (s : State) (a : Nat) (bs : List Byte) (_core : Bool), s.plat.pwr.cold = false ∧ bs ≠ [] ∧ bs.length ≤ 64 - a % 64 ∧ a < hbmEnd ∧ s.asleep a = false ∧ ((s.stack (stackOf a)).sr = .exiting ∨ (s.mem.held.any fun x => x.data.isSome && x.addr / 64 = a / 64) = true)) ∧
    (∃ (s : State) (a : Nat) (bs : List Byte) (_core : Bool), s.plat.pwr.cold = false ∧ bs ≠ [] ∧ bs.length ≤ 64 - a % 64 ∧ a < hbmEnd ∧ (s.stack (stackOf a)).sr = .active ∧ (s.mem.held.any fun x => x.data.isSome && x.addr / 64 = a / 64) = false ∧ s.mem.mb.find? (fun e => e.sector = a / 64) = none ∧ 512 ≤ s.mem.mb.length) ∧
    (∃ (s : State) (a : Nat) (bs : List Byte) (_core : Bool), s.plat.pwr.cold = false ∧ bs ≠ [] ∧ bs.length ≤ 64 - a % 64 ∧ a < hbmEnd ∧ (s.stack (stackOf a)).sr = .active ∧ (s.mem.held.any fun x => x.data.isSome && x.addr / 64 = a / 64) = false ∧ ((s.mem.mb.find? (fun e => e.sector = a / 64)).isSome = true ∨ s.mem.mb.length < 512)) ∧
    (∃ (s : State) (a : Nat) (bs : List Byte) (_core : Bool), s.plat.pwr.cold = false ∧ a < hbmEnd ∧ (s.stack (stackOf a)).sr = .active ∧ s.mem.held = [] ∧ s.mem.mb = [] ∧ bs ≠ [] ∧ bs.length ≤ 64 - a % 64) ∧
    (∃ (s : State) (w a : Nat), ((s.line (lineKey w a)).phase = .filling ∨ (s.line (lineKey w a)).phase = .departing)) ∧
    (∃ (s : State) (w a : Nat), ((s.line (lineKey w a)).phase = .valid ∨ (s.line (lineKey w a)).phase = .invalid)) ∧
    (∃ (s : State) (w a : Nat), ((s.line (lineKey w a)).phase = .filling ∨ (s.line (lineKey w a)).phase = .departing) ∧ (s.line (lineKey w a)).waits = [] ∧ (s.line (lineKey w a)).fill ≤ 15 ∧ s.mem.bad = [] ∧ s.mem.soft = [] ∧ s.mem.jobs = []) ∧
    (∃ (s : State) (_ecc : Bool), s.mem.mb = []) ∧
    (∃ (s : State) (e : MbEntry) (es : List MbEntry), s.mem.mb = e :: es ∧ s.mem.bad.contains e.sector = true ∧ e.mask ≠ 2 ^ 64 - 1) ∧
    (∃ (s : State) (e : MbEntry) (es : List MbEntry), s.mem.mb = e :: es ∧ (s.mem.bad.contains e.sector = false ∨ e.mask = 2 ^ 64 - 1)) ∧
    (∃ (s : State) (e : MbEntry), s.mem.mb = [e] ∧ s.mem.bad = [] ∧ s.mem.held = [] ∧ s.mem.jobs = []) ∧
    (∃ (_s : State) (w : Nat), 16 ≤ w) ∧
    (∃ (s : State) (w : Nat), w < 16 ∧ s.pageOn pgSYSC = false) ∧
    (∃ (s : State) (w : Nat), w < 16 ∧ s.pageOn pgSYSC = true ∧ (s.blk pgSYSC = .fault ∨ s.blk pgSYSC = .off)) ∧
    (∃ (s : State) (w : Nat), w < 16 ∧ Reaches s pgSYSC ∧ s.mem.ways.get .powered w = .powered ∧ s.locked w = false) ∧
    (∃ (s : State) (w : Nat), w < 16 ∧ Reaches s pgSYSC ∧ s.mem.ways.get .powered w = .powered ∧ s.locked w = true) ∧
    (∃ (s : State) (w : Nat), w < 16 ∧ Reaches s pgSYSC ∧ s.mem.ways.get .powered w ≠ .powered) ∧
    (∃ (s : State) (w : Nat), w < 16 ∧ Reaches s pgSYSC ∧ (s.mem.ways.get .powered w = .off ∨ s.mem.ways.get .powered w = .draining)) ∧
    (∃ (s : State) (w : Nat), w < 16 ∧ Reaches s pgSYSC ∧ (s.mem.ways.get .powered w = .powered ∨ s.mem.ways.get .powered w = .poweringUp)) ∧
    (∃ (s : State) (w : Nat), s.mem.ways.get .powered w = .draining ∧ s.wayIdle w = true) ∧
    (∃ (s : State) (w : Nat), (s.mem.ways.get .powered w ≠ .draining ∨ s.wayIdle w = false)) ∧
    (∃ (s : State) (w : Nat), s.mem.ways.get .powered w = .poweringUp) ∧
    (∃ (s : State) (w : Nat), s.mem.ways.get .powered w ≠ .poweringUp) :=
  ⟨⟨{ State.reset with plat.pwr.cold := true }, 0, 256, 0, [1], true, by decide +kernel⟩,
   ⟨State.reset, 0, 256, 0, [1], true, by decide +kernel⟩,
   ⟨State.reset, hbmEnd, 256, 0, by decide +kernel⟩,
   ⟨{ State.reset with mem.hbmStacks := [(0, { sr := .exiting })] }, 0, 256, 0, true, by decide +kernel⟩,
   ⟨{ State.reset with mem.lines := [(lineKey 15 0, { phase := .valid, valid := 15 })] }, 0, 256, 0, true, 15, by decide +kernel⟩,
   ⟨{ State.reset with mem.lines := [(lineKey 15 0, { phase := .valid, valid := 15 })] }, 0, 256, 2, true, 15, by decide +kernel⟩,
   ⟨{ State.reset with mem.lines := [(lineKey 15 0, { phase := .valid })] }, 0, 256, 0, true, 15, by decide +kernel⟩,
   ⟨{ State.reset with mem.hbmStacks := [(0, { sr := .selfRefresh })] }, 0, 256, 0, true, by decide +kernel⟩,
   ⟨{ State.reset with mem.hbmStacks := [(0, { sr := .selfRefresh })], mem.lines := [(lineKey 15 0, { phase := .valid })] }, 0, 256, 0, true, 15, by decide +kernel⟩,
   ⟨{ State.reset with mem.lines := [(lineKey 15 0, { phase := .departing, tag := 1 })] }, 0, 256, 0, true, 15, by decide +kernel⟩,
   ⟨State.reset, 0, 256, 0, true, by decide +kernel⟩,
   ⟨State.reset, hbmEnd, 1, 0, [1], by decide +kernel⟩,
   ⟨{ State.reset with plat.clus := [(11, { scratchWays := 1 })] }, 0x2202C00000, 1, 0, [1], 11, 0, by decide +kernel⟩,
   ⟨State.reset, 0x2202C00000, 1, 0, [1], 11, 0, by decide +kernel⟩,
   ⟨State.reset, 0x2202C00000, 1, 0, [], 11, 0, by decide +kernel⟩,
   ⟨State.reset, 0x2202C00000, 1, 0, [1], 11, 0, by decide +kernel⟩,
   ⟨State.reset, 0x2300000000, 1, 0, [1], 0, by decide +kernel⟩,
   ⟨State.reset, 0x2300000000, 65537, 0, [1], 0, by decide +kernel⟩,
   ⟨State.reset, 0x2000000000, 4, 0, [1], 0, by decide +kernel⟩,
   ⟨State.reset, 0x2000000000, 1, 0, [1], 0, by decide +kernel⟩,
   ⟨State.reset, 0x2000000000, 1, 0, [1, 0, 0, 0], 0, by decide +kernel⟩,
   ⟨State.reset, 0x2000000000, 1, 0, [1], 0, by decide +kernel⟩,
   ⟨State.reset, 0x2100001000, 1, 0, [1, 0, 0, 0], 1, 0, by decide +kernel⟩,
   ⟨State.reset, 0x2100001000, 1, 0, [1], 1, 0, by decide +kernel⟩,
   ⟨State.reset, hbmEnd, [1], true, by decide +kernel⟩,
   ⟨{ State.reset with mem.hbmStacks := [(0, { sr := .selfRefresh })] }, 0, [1], true, by decide +kernel⟩,
   ⟨{ State.reset with mem.hbmStacks := [(0, { sr := .exiting })] }, 0, [1], true, by decide +kernel⟩,
   ⟨{ State.reset with mem.mb := (List.range 512).map (fun i => ⟨8 + i, 0, [], none⟩) }, 0, [1], true, by decide +kernel⟩,
   ⟨State.reset, 0, [1], true, by decide +kernel⟩,
   ⟨State.reset, 0, [1], true, by decide +kernel⟩,
   ⟨{ State.reset with mem.lines := [(lineKey 15 0, { phase := .departing })] }, 15, 0, by decide +kernel⟩,
   ⟨State.reset, 15, 0, by decide +kernel⟩,
   ⟨{ State.reset with mem.lines := [(lineKey 15 0, { phase := .departing })] }, 15, 0, by decide +kernel⟩,
   ⟨State.reset, true, by decide +kernel⟩,
   ⟨{ State.reset with mem.mb := [⟨0, 1, [(0, 7)], some 3⟩], mem.bad := [0] }, { sector := 0, mask := 1, data := [(0, 7)], way := some 3 }, [], by decide +kernel⟩,
   ⟨{ State.reset with mem.mb := (List.range 512).map (fun i => ⟨8 + i, 0, [], none⟩) }, { sector := 8, mask := 0, data := [], way := none }, [{ sector := 9, mask := 0, data := [], way := none }, { sector := 10, mask := 0, data := [], way := none }, { sector := 11, mask := 0, data := [], way := none }, { sector := 12, mask := 0, data := [], way := none }, { sector := 13, mask := 0, data := [], way := none }, { sector := 14, mask := 0, data := [], way := none }, { sector := 15, mask := 0, data := [], way := none }, { sector := 16, mask := 0, data := [], way := none }, { sector := 17, mask := 0, data := [], way := none }, { sector := 18, mask := 0, data := [], way := none }, { sector := 19, mask := 0, data := [], way := none }, { sector := 20, mask := 0, data := [], way := none }, { sector := 21, mask := 0, data := [], way := none }, { sector := 22, mask := 0, data := [], way := none }, { sector := 23, mask := 0, data := [], way := none }, { sector := 24, mask := 0, data := [], way := none }, { sector := 25, mask := 0, data := [], way := none }, { sector := 26, mask := 0, data := [], way := none }, { sector := 27, mask := 0, data := [], way := none }, { sector := 28, mask := 0, data := [], way := none }, { sector := 29, mask := 0, data := [], way := none }, { sector := 30, mask := 0, data := [], way := none }, { sector := 31, mask := 0, data := [], way := none }, { sector := 32, mask := 0, data := [], way := none }, { sector := 33, mask := 0, data := [], way := none }, { sector := 34, mask := 0, data := [], way := none }, { sector := 35, mask := 0, data := [], way := none }, { sector := 36, mask := 0, data := [], way := none }, { sector := 37, mask := 0, data := [], way := none }, { sector := 38, mask := 0, data := [], way := none }, { sector := 39, mask := 0, data := [], way := none }, { sector := 40, mask := 0, data := [], way := none }, { sector := 41, mask := 0, data := [], way := none }, { sector := 42, mask := 0, data := [], way := none }, { sector := 43, mask := 0, data := [], way := none }, { sector := 44, mask := 0, data := [], way := none }, { sector := 45, mask := 0, data := [], way := none }, { sector := 46, mask := 0, data := [], way := none }, { sector := 47, mask := 0, data := [], way := none }, { sector := 48, mask := 0, data := [], way := none }, { sector := 49, mask := 0, data := [], way := none }, { sector := 50, mask := 0, data := [], way := none }, { sector := 51, mask := 0, data := [], way := none }, { sector := 52, mask := 0, data := [], way := none }, { sector := 53, mask := 0, data := [], way := none }, { sector := 54, mask := 0, data := [], way := none }, { sector := 55, mask := 0, data := [], way := none }, { sector := 56, mask := 0, data := [], way := none }, { sector := 57, mask := 0, data := [], way := none }, { sector := 58, mask := 0, data := [], way := none }, { sector := 59, mask := 0, data := [], way := none }, { sector := 60, mask := 0, data := [], way := none }, { sector := 61, mask := 0, data := [], way := none }, { sector := 62, mask := 0, data := [], way := none }, { sector := 63, mask := 0, data := [], way := none }, { sector := 64, mask := 0, data := [], way := none }, { sector := 65, mask := 0, data := [], way := none }, { sector := 66, mask := 0, data := [], way := none }, { sector := 67, mask := 0, data := [], way := none }, { sector := 68, mask := 0, data := [], way := none }, { sector := 69, mask := 0, data := [], way := none }, { sector := 70, mask := 0, data := [], way := none }, { sector := 71, mask := 0, data := [], way := none }, { sector := 72, mask := 0, data := [], way := none }, { sector := 73, mask := 0, data := [], way := none }, { sector := 74, mask := 0, data := [], way := none }, { sector := 75, mask := 0, data := [], way := none }, { sector := 76, mask := 0, data := [], way := none }, { sector := 77, mask := 0, data := [], way := none }, { sector := 78, mask := 0, data := [], way := none }, { sector := 79, mask := 0, data := [], way := none }, { sector := 80, mask := 0, data := [], way := none }, { sector := 81, mask := 0, data := [], way := none }, { sector := 82, mask := 0, data := [], way := none }, { sector := 83, mask := 0, data := [], way := none }, { sector := 84, mask := 0, data := [], way := none }, { sector := 85, mask := 0, data := [], way := none }, { sector := 86, mask := 0, data := [], way := none }, { sector := 87, mask := 0, data := [], way := none }, { sector := 88, mask := 0, data := [], way := none }, { sector := 89, mask := 0, data := [], way := none }, { sector := 90, mask := 0, data := [], way := none }, { sector := 91, mask := 0, data := [], way := none }, { sector := 92, mask := 0, data := [], way := none }, { sector := 93, mask := 0, data := [], way := none }, { sector := 94, mask := 0, data := [], way := none }, { sector := 95, mask := 0, data := [], way := none }, { sector := 96, mask := 0, data := [], way := none }, { sector := 97, mask := 0, data := [], way := none }, { sector := 98, mask := 0, data := [], way := none }, { sector := 99, mask := 0, data := [], way := none }, { sector := 100, mask := 0, data := [], way := none }, { sector := 101, mask := 0, data := [], way := none }, { sector := 102, mask := 0, data := [], way := none }, { sector := 103, mask := 0, data := [], way := none }, { sector := 104, mask := 0, data := [], way := none }, { sector := 105, mask := 0, data := [], way := none }, { sector := 106, mask := 0, data := [], way := none }, { sector := 107, mask := 0, data := [], way := none }, { sector := 108, mask := 0, data := [], way := none }, { sector := 109, mask := 0, data := [], way := none }, { sector := 110, mask := 0, data := [], way := none }, { sector := 111, mask := 0, data := [], way := none }, { sector := 112, mask := 0, data := [], way := none }, { sector := 113, mask := 0, data := [], way := none }, { sector := 114, mask := 0, data := [], way := none }, { sector := 115, mask := 0, data := [], way := none }, { sector := 116, mask := 0, data := [], way := none }, { sector := 117, mask := 0, data := [], way := none }, { sector := 118, mask := 0, data := [], way := none }, { sector := 119, mask := 0, data := [], way := none }, { sector := 120, mask := 0, data := [], way := none }, { sector := 121, mask := 0, data := [], way := none }, { sector := 122, mask := 0, data := [], way := none }, { sector := 123, mask := 0, data := [], way := none }, { sector := 124, mask := 0, data := [], way := none }, { sector := 125, mask := 0, data := [], way := none }, { sector := 126, mask := 0, data := [], way := none }, { sector := 127, mask := 0, data := [], way := none }, { sector := 128, mask := 0, data := [], way := none }, { sector := 129, mask := 0, data := [], way := none }, { sector := 130, mask := 0, data := [], way := none }, { sector := 131, mask := 0, data := [], way := none }, { sector := 132, mask := 0, data := [], way := none }, { sector := 133, mask := 0, data := [], way := none }, { sector := 134, mask := 0, data := [], way := none }, { sector := 135, mask := 0, data := [], way := none }, { sector := 136, mask := 0, data := [], way := none }, { sector := 137, mask := 0, data := [], way := none }, { sector := 138, mask := 0, data := [], way := none }, { sector := 139, mask := 0, data := [], way := none }, { sector := 140, mask := 0, data := [], way := none }, { sector := 141, mask := 0, data := [], way := none }, { sector := 142, mask := 0, data := [], way := none }, { sector := 143, mask := 0, data := [], way := none }, { sector := 144, mask := 0, data := [], way := none }, { sector := 145, mask := 0, data := [], way := none }, { sector := 146, mask := 0, data := [], way := none }, { sector := 147, mask := 0, data := [], way := none }, { sector := 148, mask := 0, data := [], way := none }, { sector := 149, mask := 0, data := [], way := none }, { sector := 150, mask := 0, data := [], way := none }, { sector := 151, mask := 0, data := [], way := none }, { sector := 152, mask := 0, data := [], way := none }, { sector := 153, mask := 0, data := [], way := none }, { sector := 154, mask := 0, data := [], way := none }, { sector := 155, mask := 0, data := [], way := none }, { sector := 156, mask := 0, data := [], way := none }, { sector := 157, mask := 0, data := [], way := none }, { sector := 158, mask := 0, data := [], way := none }, { sector := 159, mask := 0, data := [], way := none }, { sector := 160, mask := 0, data := [], way := none }, { sector := 161, mask := 0, data := [], way := none }, { sector := 162, mask := 0, data := [], way := none }, { sector := 163, mask := 0, data := [], way := none }, { sector := 164, mask := 0, data := [], way := none }, { sector := 165, mask := 0, data := [], way := none }, { sector := 166, mask := 0, data := [], way := none }, { sector := 167, mask := 0, data := [], way := none }, { sector := 168, mask := 0, data := [], way := none }, { sector := 169, mask := 0, data := [], way := none }, { sector := 170, mask := 0, data := [], way := none }, { sector := 171, mask := 0, data := [], way := none }, { sector := 172, mask := 0, data := [], way := none }, { sector := 173, mask := 0, data := [], way := none }, { sector := 174, mask := 0, data := [], way := none }, { sector := 175, mask := 0, data := [], way := none }, { sector := 176, mask := 0, data := [], way := none }, { sector := 177, mask := 0, data := [], way := none }, { sector := 178, mask := 0, data := [], way := none }, { sector := 179, mask := 0, data := [], way := none }, { sector := 180, mask := 0, data := [], way := none }, { sector := 181, mask := 0, data := [], way := none }, { sector := 182, mask := 0, data := [], way := none }, { sector := 183, mask := 0, data := [], way := none }, { sector := 184, mask := 0, data := [], way := none }, { sector := 185, mask := 0, data := [], way := none }, { sector := 186, mask := 0, data := [], way := none }, { sector := 187, mask := 0, data := [], way := none }, { sector := 188, mask := 0, data := [], way := none }, { sector := 189, mask := 0, data := [], way := none }, { sector := 190, mask := 0, data := [], way := none }, { sector := 191, mask := 0, data := [], way := none }, { sector := 192, mask := 0, data := [], way := none }, { sector := 193, mask := 0, data := [], way := none }, { sector := 194, mask := 0, data := [], way := none }, { sector := 195, mask := 0, data := [], way := none }, { sector := 196, mask := 0, data := [], way := none }, { sector := 197, mask := 0, data := [], way := none }, { sector := 198, mask := 0, data := [], way := none }, { sector := 199, mask := 0, data := [], way := none }, { sector := 200, mask := 0, data := [], way := none }, { sector := 201, mask := 0, data := [], way := none }, { sector := 202, mask := 0, data := [], way := none }, { sector := 203, mask := 0, data := [], way := none }, { sector := 204, mask := 0, data := [], way := none }, { sector := 205, mask := 0, data := [], way := none }, { sector := 206, mask := 0, data := [], way := none }, { sector := 207, mask := 0, data := [], way := none }, { sector := 208, mask := 0, data := [], way := none }, { sector := 209, mask := 0, data := [], way := none }, { sector := 210, mask := 0, data := [], way := none }, { sector := 211, mask := 0, data := [], way := none }, { sector := 212, mask := 0, data := [], way := none }, { sector := 213, mask := 0, data := [], way := none }, { sector := 214, mask := 0, data := [], way := none }, { sector := 215, mask := 0, data := [], way := none }, { sector := 216, mask := 0, data := [], way := none }, { sector := 217, mask := 0, data := [], way := none }, { sector := 218, mask := 0, data := [], way := none }, { sector := 219, mask := 0, data := [], way := none }, { sector := 220, mask := 0, data := [], way := none }, { sector := 221, mask := 0, data := [], way := none }, { sector := 222, mask := 0, data := [], way := none }, { sector := 223, mask := 0, data := [], way := none }, { sector := 224, mask := 0, data := [], way := none }, { sector := 225, mask := 0, data := [], way := none }, { sector := 226, mask := 0, data := [], way := none }, { sector := 227, mask := 0, data := [], way := none }, { sector := 228, mask := 0, data := [], way := none }, { sector := 229, mask := 0, data := [], way := none }, { sector := 230, mask := 0, data := [], way := none }, { sector := 231, mask := 0, data := [], way := none }, { sector := 232, mask := 0, data := [], way := none }, { sector := 233, mask := 0, data := [], way := none }, { sector := 234, mask := 0, data := [], way := none }, { sector := 235, mask := 0, data := [], way := none }, { sector := 236, mask := 0, data := [], way := none }, { sector := 237, mask := 0, data := [], way := none }, { sector := 238, mask := 0, data := [], way := none }, { sector := 239, mask := 0, data := [], way := none }, { sector := 240, mask := 0, data := [], way := none }, { sector := 241, mask := 0, data := [], way := none }, { sector := 242, mask := 0, data := [], way := none }, { sector := 243, mask := 0, data := [], way := none }, { sector := 244, mask := 0, data := [], way := none }, { sector := 245, mask := 0, data := [], way := none }, { sector := 246, mask := 0, data := [], way := none }, { sector := 247, mask := 0, data := [], way := none }, { sector := 248, mask := 0, data := [], way := none }, { sector := 249, mask := 0, data := [], way := none }, { sector := 250, mask := 0, data := [], way := none }, { sector := 251, mask := 0, data := [], way := none }, { sector := 252, mask := 0, data := [], way := none }, { sector := 253, mask := 0, data := [], way := none }, { sector := 254, mask := 0, data := [], way := none }, { sector := 255, mask := 0, data := [], way := none }, { sector := 256, mask := 0, data := [], way := none }, { sector := 257, mask := 0, data := [], way := none }, { sector := 258, mask := 0, data := [], way := none }, { sector := 259, mask := 0, data := [], way := none }, { sector := 260, mask := 0, data := [], way := none }, { sector := 261, mask := 0, data := [], way := none }, { sector := 262, mask := 0, data := [], way := none }, { sector := 263, mask := 0, data := [], way := none }, { sector := 264, mask := 0, data := [], way := none }, { sector := 265, mask := 0, data := [], way := none }, { sector := 266, mask := 0, data := [], way := none }, { sector := 267, mask := 0, data := [], way := none }, { sector := 268, mask := 0, data := [], way := none }, { sector := 269, mask := 0, data := [], way := none }, { sector := 270, mask := 0, data := [], way := none }, { sector := 271, mask := 0, data := [], way := none }, { sector := 272, mask := 0, data := [], way := none }, { sector := 273, mask := 0, data := [], way := none }, { sector := 274, mask := 0, data := [], way := none }, { sector := 275, mask := 0, data := [], way := none }, { sector := 276, mask := 0, data := [], way := none }, { sector := 277, mask := 0, data := [], way := none }, { sector := 278, mask := 0, data := [], way := none }, { sector := 279, mask := 0, data := [], way := none }, { sector := 280, mask := 0, data := [], way := none }, { sector := 281, mask := 0, data := [], way := none }, { sector := 282, mask := 0, data := [], way := none }, { sector := 283, mask := 0, data := [], way := none }, { sector := 284, mask := 0, data := [], way := none }, { sector := 285, mask := 0, data := [], way := none }, { sector := 286, mask := 0, data := [], way := none }, { sector := 287, mask := 0, data := [], way := none }, { sector := 288, mask := 0, data := [], way := none }, { sector := 289, mask := 0, data := [], way := none }, { sector := 290, mask := 0, data := [], way := none }, { sector := 291, mask := 0, data := [], way := none }, { sector := 292, mask := 0, data := [], way := none }, { sector := 293, mask := 0, data := [], way := none }, { sector := 294, mask := 0, data := [], way := none }, { sector := 295, mask := 0, data := [], way := none }, { sector := 296, mask := 0, data := [], way := none }, { sector := 297, mask := 0, data := [], way := none }, { sector := 298, mask := 0, data := [], way := none }, { sector := 299, mask := 0, data := [], way := none }, { sector := 300, mask := 0, data := [], way := none }, { sector := 301, mask := 0, data := [], way := none }, { sector := 302, mask := 0, data := [], way := none }, { sector := 303, mask := 0, data := [], way := none }, { sector := 304, mask := 0, data := [], way := none }, { sector := 305, mask := 0, data := [], way := none }, { sector := 306, mask := 0, data := [], way := none }, { sector := 307, mask := 0, data := [], way := none }, { sector := 308, mask := 0, data := [], way := none }, { sector := 309, mask := 0, data := [], way := none }, { sector := 310, mask := 0, data := [], way := none }, { sector := 311, mask := 0, data := [], way := none }, { sector := 312, mask := 0, data := [], way := none }, { sector := 313, mask := 0, data := [], way := none }, { sector := 314, mask := 0, data := [], way := none }, { sector := 315, mask := 0, data := [], way := none }, { sector := 316, mask := 0, data := [], way := none }, { sector := 317, mask := 0, data := [], way := none }, { sector := 318, mask := 0, data := [], way := none }, { sector := 319, mask := 0, data := [], way := none }, { sector := 320, mask := 0, data := [], way := none }, { sector := 321, mask := 0, data := [], way := none }, { sector := 322, mask := 0, data := [], way := none }, { sector := 323, mask := 0, data := [], way := none }, { sector := 324, mask := 0, data := [], way := none }, { sector := 325, mask := 0, data := [], way := none }, { sector := 326, mask := 0, data := [], way := none }, { sector := 327, mask := 0, data := [], way := none }, { sector := 328, mask := 0, data := [], way := none }, { sector := 329, mask := 0, data := [], way := none }, { sector := 330, mask := 0, data := [], way := none }, { sector := 331, mask := 0, data := [], way := none }, { sector := 332, mask := 0, data := [], way := none }, { sector := 333, mask := 0, data := [], way := none }, { sector := 334, mask := 0, data := [], way := none }, { sector := 335, mask := 0, data := [], way := none }, { sector := 336, mask := 0, data := [], way := none }, { sector := 337, mask := 0, data := [], way := none }, { sector := 338, mask := 0, data := [], way := none }, { sector := 339, mask := 0, data := [], way := none }, { sector := 340, mask := 0, data := [], way := none }, { sector := 341, mask := 0, data := [], way := none }, { sector := 342, mask := 0, data := [], way := none }, { sector := 343, mask := 0, data := [], way := none }, { sector := 344, mask := 0, data := [], way := none }, { sector := 345, mask := 0, data := [], way := none }, { sector := 346, mask := 0, data := [], way := none }, { sector := 347, mask := 0, data := [], way := none }, { sector := 348, mask := 0, data := [], way := none }, { sector := 349, mask := 0, data := [], way := none }, { sector := 350, mask := 0, data := [], way := none }, { sector := 351, mask := 0, data := [], way := none }, { sector := 352, mask := 0, data := [], way := none }, { sector := 353, mask := 0, data := [], way := none }, { sector := 354, mask := 0, data := [], way := none }, { sector := 355, mask := 0, data := [], way := none }, { sector := 356, mask := 0, data := [], way := none }, { sector := 357, mask := 0, data := [], way := none }, { sector := 358, mask := 0, data := [], way := none }, { sector := 359, mask := 0, data := [], way := none }, { sector := 360, mask := 0, data := [], way := none }, { sector := 361, mask := 0, data := [], way := none }, { sector := 362, mask := 0, data := [], way := none }, { sector := 363, mask := 0, data := [], way := none }, { sector := 364, mask := 0, data := [], way := none }, { sector := 365, mask := 0, data := [], way := none }, { sector := 366, mask := 0, data := [], way := none }, { sector := 367, mask := 0, data := [], way := none }, { sector := 368, mask := 0, data := [], way := none }, { sector := 369, mask := 0, data := [], way := none }, { sector := 370, mask := 0, data := [], way := none }, { sector := 371, mask := 0, data := [], way := none }, { sector := 372, mask := 0, data := [], way := none }, { sector := 373, mask := 0, data := [], way := none }, { sector := 374, mask := 0, data := [], way := none }, { sector := 375, mask := 0, data := [], way := none }, { sector := 376, mask := 0, data := [], way := none }, { sector := 377, mask := 0, data := [], way := none }, { sector := 378, mask := 0, data := [], way := none }, { sector := 379, mask := 0, data := [], way := none }, { sector := 380, mask := 0, data := [], way := none }, { sector := 381, mask := 0, data := [], way := none }, { sector := 382, mask := 0, data := [], way := none }, { sector := 383, mask := 0, data := [], way := none }, { sector := 384, mask := 0, data := [], way := none }, { sector := 385, mask := 0, data := [], way := none }, { sector := 386, mask := 0, data := [], way := none }, { sector := 387, mask := 0, data := [], way := none }, { sector := 388, mask := 0, data := [], way := none }, { sector := 389, mask := 0, data := [], way := none }, { sector := 390, mask := 0, data := [], way := none }, { sector := 391, mask := 0, data := [], way := none }, { sector := 392, mask := 0, data := [], way := none }, { sector := 393, mask := 0, data := [], way := none }, { sector := 394, mask := 0, data := [], way := none }, { sector := 395, mask := 0, data := [], way := none }, { sector := 396, mask := 0, data := [], way := none }, { sector := 397, mask := 0, data := [], way := none }, { sector := 398, mask := 0, data := [], way := none }, { sector := 399, mask := 0, data := [], way := none }, { sector := 400, mask := 0, data := [], way := none }, { sector := 401, mask := 0, data := [], way := none }, { sector := 402, mask := 0, data := [], way := none }, { sector := 403, mask := 0, data := [], way := none }, { sector := 404, mask := 0, data := [], way := none }, { sector := 405, mask := 0, data := [], way := none }, { sector := 406, mask := 0, data := [], way := none }, { sector := 407, mask := 0, data := [], way := none }, { sector := 408, mask := 0, data := [], way := none }, { sector := 409, mask := 0, data := [], way := none }, { sector := 410, mask := 0, data := [], way := none }, { sector := 411, mask := 0, data := [], way := none }, { sector := 412, mask := 0, data := [], way := none }, { sector := 413, mask := 0, data := [], way := none }, { sector := 414, mask := 0, data := [], way := none }, { sector := 415, mask := 0, data := [], way := none }, { sector := 416, mask := 0, data := [], way := none }, { sector := 417, mask := 0, data := [], way := none }, { sector := 418, mask := 0, data := [], way := none }, { sector := 419, mask := 0, data := [], way := none }, { sector := 420, mask := 0, data := [], way := none }, { sector := 421, mask := 0, data := [], way := none }, { sector := 422, mask := 0, data := [], way := none }, { sector := 423, mask := 0, data := [], way := none }, { sector := 424, mask := 0, data := [], way := none }, { sector := 425, mask := 0, data := [], way := none }, { sector := 426, mask := 0, data := [], way := none }, { sector := 427, mask := 0, data := [], way := none }, { sector := 428, mask := 0, data := [], way := none }, { sector := 429, mask := 0, data := [], way := none }, { sector := 430, mask := 0, data := [], way := none }, { sector := 431, mask := 0, data := [], way := none }, { sector := 432, mask := 0, data := [], way := none }, { sector := 433, mask := 0, data := [], way := none }, { sector := 434, mask := 0, data := [], way := none }, { sector := 435, mask := 0, data := [], way := none }, { sector := 436, mask := 0, data := [], way := none }, { sector := 437, mask := 0, data := [], way := none }, { sector := 438, mask := 0, data := [], way := none }, { sector := 439, mask := 0, data := [], way := none }, { sector := 440, mask := 0, data := [], way := none }, { sector := 441, mask := 0, data := [], way := none }, { sector := 442, mask := 0, data := [], way := none }, { sector := 443, mask := 0, data := [], way := none }, { sector := 444, mask := 0, data := [], way := none }, { sector := 445, mask := 0, data := [], way := none }, { sector := 446, mask := 0, data := [], way := none }, { sector := 447, mask := 0, data := [], way := none }, { sector := 448, mask := 0, data := [], way := none }, { sector := 449, mask := 0, data := [], way := none }, { sector := 450, mask := 0, data := [], way := none }, { sector := 451, mask := 0, data := [], way := none }, { sector := 452, mask := 0, data := [], way := none }, { sector := 453, mask := 0, data := [], way := none }, { sector := 454, mask := 0, data := [], way := none }, { sector := 455, mask := 0, data := [], way := none }, { sector := 456, mask := 0, data := [], way := none }, { sector := 457, mask := 0, data := [], way := none }, { sector := 458, mask := 0, data := [], way := none }, { sector := 459, mask := 0, data := [], way := none }, { sector := 460, mask := 0, data := [], way := none }, { sector := 461, mask := 0, data := [], way := none }, { sector := 462, mask := 0, data := [], way := none }, { sector := 463, mask := 0, data := [], way := none }, { sector := 464, mask := 0, data := [], way := none }, { sector := 465, mask := 0, data := [], way := none }, { sector := 466, mask := 0, data := [], way := none }, { sector := 467, mask := 0, data := [], way := none }, { sector := 468, mask := 0, data := [], way := none }, { sector := 469, mask := 0, data := [], way := none }, { sector := 470, mask := 0, data := [], way := none }, { sector := 471, mask := 0, data := [], way := none }, { sector := 472, mask := 0, data := [], way := none }, { sector := 473, mask := 0, data := [], way := none }, { sector := 474, mask := 0, data := [], way := none }, { sector := 475, mask := 0, data := [], way := none }, { sector := 476, mask := 0, data := [], way := none }, { sector := 477, mask := 0, data := [], way := none }, { sector := 478, mask := 0, data := [], way := none }, { sector := 479, mask := 0, data := [], way := none }, { sector := 480, mask := 0, data := [], way := none }, { sector := 481, mask := 0, data := [], way := none }, { sector := 482, mask := 0, data := [], way := none }, { sector := 483, mask := 0, data := [], way := none }, { sector := 484, mask := 0, data := [], way := none }, { sector := 485, mask := 0, data := [], way := none }, { sector := 486, mask := 0, data := [], way := none }, { sector := 487, mask := 0, data := [], way := none }, { sector := 488, mask := 0, data := [], way := none }, { sector := 489, mask := 0, data := [], way := none }, { sector := 490, mask := 0, data := [], way := none }, { sector := 491, mask := 0, data := [], way := none }, { sector := 492, mask := 0, data := [], way := none }, { sector := 493, mask := 0, data := [], way := none }, { sector := 494, mask := 0, data := [], way := none }, { sector := 495, mask := 0, data := [], way := none }, { sector := 496, mask := 0, data := [], way := none }, { sector := 497, mask := 0, data := [], way := none }, { sector := 498, mask := 0, data := [], way := none }, { sector := 499, mask := 0, data := [], way := none }, { sector := 500, mask := 0, data := [], way := none }, { sector := 501, mask := 0, data := [], way := none }, { sector := 502, mask := 0, data := [], way := none }, { sector := 503, mask := 0, data := [], way := none }, { sector := 504, mask := 0, data := [], way := none }, { sector := 505, mask := 0, data := [], way := none }, { sector := 506, mask := 0, data := [], way := none }, { sector := 507, mask := 0, data := [], way := none }, { sector := 508, mask := 0, data := [], way := none }, { sector := 509, mask := 0, data := [], way := none }, { sector := 510, mask := 0, data := [], way := none }, { sector := 511, mask := 0, data := [], way := none }, { sector := 512, mask := 0, data := [], way := none }, { sector := 513, mask := 0, data := [], way := none }, { sector := 514, mask := 0, data := [], way := none }, { sector := 515, mask := 0, data := [], way := none }, { sector := 516, mask := 0, data := [], way := none }, { sector := 517, mask := 0, data := [], way := none }, { sector := 518, mask := 0, data := [], way := none }, { sector := 519, mask := 0, data := [], way := none }], by decide +kernel⟩,
   ⟨{ State.reset with mem.mb := [⟨0, 1, [(0, 7)], none⟩] }, { sector := 0, mask := 1, data := [(0, 7)], way := none }, by decide +kernel⟩,
   ⟨State.reset, 16, by decide +kernel⟩,
   ⟨{ State.reset with plat.pwr.cold := true }, 15, by decide +kernel⟩,
   ⟨{ State.reset with pages := [(pgSYSC, { st := .fault })] }, 15, by decide +kernel⟩,
   ⟨State.reset, 15, by decide +kernel⟩,
   ⟨(running [pgEVT, pgSYSC]).setReg rSYSC_LOCK 0x8000, 15, by decide +kernel⟩,
   ⟨{ running [pgEVT, pgSYSC] with mem.ways := [(15, .off)] }, 15, by decide +kernel⟩,
   ⟨{ running [pgEVT, pgSYSC] with mem.ways := [(15, .off)] }, 15, by decide +kernel⟩,
   ⟨State.reset, 15, by decide +kernel⟩,
   ⟨{ running [pgEVT, pgSYSC] with mem.ways := [(15, .draining)] }, 15, by decide +kernel⟩,
   ⟨State.reset, 15, by decide +kernel⟩,
   ⟨{ running [pgEVT, pgSYSC] with mem.ways := [(15, .poweringUp)] }, 15, by decide +kernel⟩,
   ⟨State.reset, 15, by decide +kernel⟩⟩

theorem witness_CoherentMemory :
    (∃ (s : State) (_a _x : Nat) (_bs : List Byte), s.plat.pwr.cold = false ∧ s.mem.bad = [] ∧ (∀ j, (s.stack j).sr = .active)) ∧
    (∃ (s : State) (_a _x : Nat) (_bs : List Byte), s.plat.pwr.cold = false ∧ s.mem.bad = [] ∧ (∀ j, (s.stack j).sr = .active) ∧ s.mem.lines = [] ∧ s.mem.mb = []) ∧
    (∃ (s : State) (_a : Nat) (_bs : List Byte), s.plat.pwr.cold = true) :=
  ⟨⟨State.reset, hbmEnd - 64, hbmEnd - 64, [], by decide +kernel, by decide +kernel, fun _ => rfl⟩,
   ⟨State.reset, hbmEnd - 64, hbmEnd - 64, [], by decide +kernel, by decide +kernel, fun _ => rfl, by decide +kernel, by decide +kernel⟩,
   ⟨{ State.reset with plat.pwr.cold := true }, hbmEnd - 64, [], by decide +kernel⟩⟩

theorem witness_PowerDomains :
    (∃ (s : State) (h : CmdHdr) (d g : Nat), Ready s h pgPWR pgPWR .work ∧ (32 < d ∨ 2 < g)) ∧
    (∃ (s : State) (h : CmdHdr) (d g : Nat), Ready s h pgPWR pgPWR .work ∧ d ≤ 32 ∧ g ≤ 2 ∧ s.plat.pwr.powerFail = true) ∧
    (∃ (s : State) (h : CmdHdr) (d g : Nat), Ready s h pgPWR pgPWR .work ∧ d ≤ 32 ∧ g ≤ 2 ∧ s.plat.pwr.powerFail = false ∧ s.restarting = true) ∧
    (∃ (s : State) (h : CmdHdr) (d g : Nat), Ready s h pgPWR pgPWR .work ∧ d ≤ 32 ∧ g ≤ 2 ∧ s.plat.pwr.powerFail = false ∧ s.restarting = false ∧ (s.dom d).cmd = none ∧ (((s.dom d).st = .firing ∧ g = 0) ∨ ((s.dom d).st = .soak ∧ g = 1) ∨ ((s.dom d).st = .banked ∧ g = 2))) ∧
    (∃ (s : State) (h : CmdHdr) (d g : Nat), Ready s h pgPWR pgPWR .work ∧ d ≤ 32 ∧ g ≤ 2 ∧ s.plat.pwr.powerFail = false ∧ s.restarting = false ∧ (s.dom d).cmd = none ∧ (¬(((s.dom d).st = .firing ∧ g = 0) ∨ ((s.dom d).st = .soak ∧ g = 1) ∨ ((s.dom d).st = .banked ∧ g = 2))) ∧ s.pwrRefused d g = true) ∧
    (∃ (s : State) (h : CmdHdr) (d g : Nat), Ready s h pgPWR pgPWR .work ∧ d ≤ 32 ∧ g ≤ 2 ∧ s.plat.pwr.powerFail = false ∧ s.restarting = false ∧ (s.dom d).cmd = none ∧ (¬(((s.dom d).st = .firing ∧ g = 0) ∨ ((s.dom d).st = .soak ∧ g = 1) ∨ ((s.dom d).st = .banked ∧ g = 2))) ∧ g = 0) ∧
    (∃ (s : State) (h : CmdHdr) (d g : Nat), Ready s h pgPWR pgPWR .work ∧ d ≤ 32 ∧ g ≤ 2 ∧ s.plat.pwr.powerFail = false ∧ s.restarting = false ∧ (s.dom d).cmd = none ∧ (¬(((s.dom d).st = .firing ∧ g = 0) ∨ ((s.dom d).st = .soak ∧ g = 1) ∨ ((s.dom d).st = .banked ∧ g = 2))) ∧ s.pwrRefused d g = false ∧ g ≠ 0 ∧ (s.dom d).st = .firing) ∧
    (∃ (s : State) (h : CmdHdr) (d g : Nat), Ready s h pgPWR pgPWR .work ∧ d ≤ 32 ∧ g ≤ 2 ∧ s.plat.pwr.powerFail = false ∧ s.restarting = false ∧ (s.dom d).cmd = none ∧ (¬(((s.dom d).st = .firing ∧ g = 0) ∨ ((s.dom d).st = .soak ∧ g = 1) ∨ ((s.dom d).st = .banked ∧ g = 2))) ∧ s.pwrRefused d g = false ∧ g ≠ 0 ∧ (s.dom d).st ≠ .firing) ∧
    (∃ (s : State) (h : CmdHdr) (d g : Nat) (c : DomCmd), Ready s h pgPWR pgPWR .work ∧ d ≤ 32 ∧ g ≤ 2 ∧ s.plat.pwr.powerFail = false ∧ s.restarting = false ∧ (s.dom d).cmd = some c ∧ g = 0 ∧ c.chipReset = false ∧ (s.dom d).st = .draining) ∧
    (∃ (s : State) (h : CmdHdr) (d g : Nat) (c : DomCmd), Ready s h pgPWR pgPWR .work ∧ d ≤ 32 ∧ g ≤ 2 ∧ s.plat.pwr.powerFail = false ∧ s.restarting = false ∧ (s.dom d).cmd = some c ∧ g = 0 ∧ c.chipReset = false ∧ (s.dom d).st = .entering ∧ (s.dom d).wake = none) ∧
    (∃ (s : State) (h : CmdHdr) (d g : Nat) (c : DomCmd), Ready s h pgPWR pgPWR .work ∧ d ≤ 32 ∧ g ≤ 2 ∧ s.plat.pwr.powerFail = false ∧ s.restarting = false ∧ (s.dom d).cmd = some c ∧ (g ≠ 0 ∨ c.chipReset = true ∨ ((s.dom d).st ≠ .draining ∧ ((s.dom d).st ≠ .entering ∨ (s.dom d).wake ≠ none)))) ∧
    (∃ (s : State) (h : CmdHdr) (d : Nat), Ready s h pgCHIP pgCHIP .work ∧ 32 < d) ∧
    (∃ (s : State) (h : CmdHdr) (d : Nat), Ready s h pgCHIP pgCHIP .work ∧ d ≤ 32 ∧ (d ≤ 1 ∨ (s.dom d).cmd.isSome = true ∨ s.restarting = true ∨ s.pwrRefused d 2 = true)) ∧
    (∃ (s : State) (h : CmdHdr) (d : Nat), Ready s h pgCHIP pgCHIP .work ∧ 2 ≤ d ∧ d ≤ 32 ∧ s.restarting = false ∧ (s.dom d).cmd = none ∧ s.pwrRefused d 2 = false ∧ (s.dom d).st = .firing) ∧
    (∃ (s : State) (h : CmdHdr) (d : Nat), Ready s h pgCHIP pgCHIP .work ∧ 2 ≤ d ∧ d ≤ 32 ∧ s.restarting = false ∧ (s.dom d).cmd = none ∧ s.pwrRefused d 2 = false ∧ (s.dom d).st = .soak) ∧
    (∃ (s : State) (h : CmdHdr) (d : Nat), Ready s h pgCHIP pgCHIP .work ∧ 2 ≤ d ∧ d ≤ 32 ∧ s.restarting = false ∧ (s.dom d).cmd = none ∧ s.pwrRefused d 2 = false ∧ (s.dom d).st ≠ .firing ∧ (s.dom d).st ≠ .soak) ∧
    (∃ (s : State) (d : Nat), (s.dom d).st = .draining ∧ ((pagesOfDom d).all fun p => (s.page p).st.drained) = true) ∧
    (∃ (s : State) (d : Nat), (s.dom d).st = .draining ∧ ((pagesOfDom d).all fun p => (s.page p).st.drained) = true) ∧
    (∃ (s : State) (d : Nat), ((s.dom d).st ≠ .draining ∨ ((pagesOfDom d).all fun p => (s.page p).st.drained) = false)) ∧
    (∃ (s : State) (d : Nat), (s.dom d).st ≠ .draining) ∧
    (∃ (s : State) (d : Nat), (s.dom d).st = .draining ∧ (s.fld fPWR_CTRL_DRAIN_MODE ≠ 1 ∨ s.plat.pwr.powerFail = true)) ∧
    (∃ (s : State) (d : Nat), (s.dom d).st = .draining ∧ s.fld fPWR_CTRL_DRAIN_MODE = 1 ∧ s.plat.pwr.powerFail = false ∧ s.forceOk d = true) ∧
    (∃ (s : State) (d : Nat), (s.dom d).st = .draining ∧ s.fld fPWR_CTRL_DRAIN_MODE = 1 ∧ s.plat.pwr.powerFail = false ∧ s.forceOk d = false) ∧
    (∃ (s : State) (d : Nat), ((s.dom d).cmd = none ∨ (s.dom d).st ≠ .entering)) ∧
    (∃ (s t : State) (d : Nat) (c : DomCmd), (s.dom d).st = .entering ∧ (s.dom d).cmd = some c ∧ c.target = 1 ∧ t = ((s.setDom d { s.dom d with entries := min 65535 ((s.dom d).entries + 1), cmd := none }).domGoes d .soak).finishRunning c.cseq 0 stOk ∧ (s.dom d).wake = none) ∧
    (∃ (s t : State) (d : Nat) (c : DomCmd) (q : Nat), (s.dom d).st = .entering ∧ (s.dom d).cmd = some c ∧ c.target = 1 ∧ t = ((s.setDom d { s.dom d with entries := min 65535 ((s.dom d).entries + 1), cmd := none }).domGoes d .soak).finishRunning c.cseq 0 stOk ∧ (s.dom d).wake = some q) ∧
    (∃ (s t u : State) (d : Nat) (c : DomCmd), (s.dom d).st = .entering ∧ (s.dom d).cmd = some c ∧ c.target ≠ 1 ∧ t = (if c.chipReset then s else s.saveDom d).domLoses d ∧ u = (t.setDom d { t.dom d with entries := min 65535 ((s.dom d).entries + 1), cmd := none, quiesced := [] }).domGoes d .banked ∧ c.chipReset = true) ∧
    (∃ (s t u : State) (d : Nat) (c : DomCmd), (s.dom d).st = .entering ∧ (s.dom d).cmd = some c ∧ c.target ≠ 1 ∧ t = (if c.chipReset then s else s.saveDom d).domLoses d ∧ u = (t.setDom d { t.dom d with entries := min 65535 ((s.dom d).entries + 1), cmd := none, quiesced := [] }).domGoes d .banked ∧ c.chipReset = false ∧ (s.dom d).wake = none) ∧
    (∃ (s t u : State) (d : Nat) (c : DomCmd) (q : Nat), (s.dom d).st = .entering ∧ (s.dom d).cmd = some c ∧ c.target ≠ 1 ∧ t = (if c.chipReset then s else s.saveDom d).domLoses d ∧ u = (t.setDom d { t.dom d with entries := min 65535 ((s.dom d).entries + 1), cmd := none, quiesced := [] }).domGoes d .banked ∧ c.chipReset = false ∧ (s.dom d).wake = some q) ∧
    (∃ (s : State) (d : Nat), (s.dom d).st = .waking) ∧
    (∃ (s : State) (d : Nat), (s.dom d).st ≠ .waking) ∧
    (∃ (s : State) (q : Nat), (s.dom 31).st = .waking ∧ (s.dom 31).saveValid = false ∧ (s.dom 31).quiesced = [] ∧ (s.dom 31).cmd = some ⟨q, 0, false⟩) :=
  ⟨⟨running [pgEVT, pgPWR], hdr 0, 32, 3, by decide +kernel⟩,
   ⟨{ running [pgEVT, pgPWR] with plat.pwr.powerFail := true }, hdr 0, 32, 0, by decide +kernel⟩,
   ⟨{ running [pgEVT, pgPWR] with plat.chip.restartReq := some 3 }, hdr 0, 32, 0, by decide +kernel⟩,
   ⟨running [pgEVT, pgPWR], hdr 0, 32, 0, by decide +kernel⟩,
   ⟨running [pgEVT, pgPWR], hdr 0, 0, 1, by decide +kernel⟩,
   ⟨domIn 32 { st := .soak }, hdr 0, 32, 0, by decide +kernel⟩,
   ⟨running [pgEVT, pgPWR], hdr 0, 32, 1, by decide +kernel⟩,
   ⟨domIn 32 { st := .soak }, hdr 0, 32, 2, by decide +kernel⟩,
   ⟨domIn 32 { st := .draining, cmd := some ⟨7, 1, false⟩ }, hdr 0, 32, 0, { cseq := 7, target := 1, chipReset := false }, by decide +kernel⟩,
   ⟨domIn 32 { st := .entering, cmd := some ⟨7, 1, false⟩ }, hdr 0, 32, 0, { cseq := 7, target := 1, chipReset := false }, by decide +kernel⟩,
   ⟨domIn 32 { st := .draining, cmd := some ⟨7, 1, false⟩ }, hdr 0, 32, 1, { cseq := 7, target := 1, chipReset := false }, by decide +kernel⟩,
   ⟨running [pgEVT, pgCHIP], hdr 0, 33, by decide +kernel⟩,
   ⟨running [pgEVT, pgCHIP], hdr 0, 0, by decide +kernel⟩,
   ⟨running [pgEVT, pgCHIP], hdr 0, 32, by decide +kernel⟩,
   ⟨{ running [pgEVT, pgCHIP] with plat.pwr.doms := [(32, { st := .soak })] }, hdr 0, 32, by decide +kernel⟩,
   ⟨{ running [pgEVT, pgCHIP] with plat.pwr.doms := [(32, { st := .banked })] }, hdr 0, 32, by decide +kernel⟩,
   ⟨domIn 32 { st := .draining }, 32, by decide +kernel⟩,
   ⟨domIn 32 { st := .draining }, 32, by decide +kernel⟩,
   ⟨running [pgEVT, pgPWR], 32, by decide +kernel⟩,
   ⟨running [pgEVT, pgPWR], 32, by decide +kernel⟩,
   ⟨domIn 32 { st := .draining }, 32, by decide +kernel⟩,
   ⟨(domIn 2 { st := .draining }).setFld fPWR_CTRL_DRAIN_MODE 1, 2, by decide +kernel⟩,
   ⟨(domIn 32 { st := .draining }).setFld fPWR_CTRL_DRAIN_MODE 1, 32, by decide +kernel⟩,
   ⟨running [pgEVT, pgPWR], 32, by decide +kernel⟩,
   ⟨domIn 32 { st := .entering, cmd := some ⟨7, 1, false⟩ }, (((domIn 32 { st := .entering, cmd := some ⟨7, 1, false⟩ } : State).setDom 32 { (domIn 32 { st := .entering, cmd := some ⟨7, 1, false⟩ } : State).dom 32 with entries := min 65535 (((domIn 32 { st := .entering, cmd := some ⟨7, 1, false⟩ } : State).dom 32).entries + 1), cmd := none }).domGoes 32 .soak).finishRunning ({ cseq := 7, target := 1, chipReset := false } : DomCmd).cseq 0 stOk, 32, { cseq := 7, target := 1, chipReset := false }, by decide +kernel, by decide +kernel, by decide +kernel, rfl, by decide +kernel⟩,
   ⟨domIn 32 { st := .entering, cmd := some ⟨7, 1, false⟩, wake := some 8 }, (((domIn 32 { st := .entering, cmd := some ⟨7, 1, false⟩, wake := some 8 } : State).setDom 32 { (domIn 32 { st := .entering, cmd := some ⟨7, 1, false⟩, wake := some 8 } : State).dom 32 with entries := min 65535 (((domIn 32 { st := .entering, cmd := some ⟨7, 1, false⟩, wake := some 8 } : State).dom 32).entries + 1), cmd := none }).domGoes 32 .soak).finishRunning ({ cseq := 7, target := 1, chipReset := false } : DomCmd).cseq 0 stOk, 32, { cseq := 7, target := 1, chipReset := false }, 8, by decide +kernel, by decide +kernel, by decide +kernel, rfl, by decide +kernel⟩,
   ⟨domIn 32 { st := .entering, cmd := some ⟨7, 2, true⟩ }, (if ({ cseq := 7, target := 2, chipReset := true } : DomCmd).chipReset then (domIn 32 { st := .entering, cmd := some ⟨7, 2, true⟩ } : State) else (domIn 32 { st := .entering, cmd := some ⟨7, 2, true⟩ } : State).saveDom 32).domLoses 32, (((if ({ cseq := 7, target := 2, chipReset := true } : DomCmd).chipReset then (domIn 32 { st := .entering, cmd := some ⟨7, 2, true⟩ } : State) else (domIn 32 { st := .entering, cmd := some ⟨7, 2, true⟩ } : State).saveDom 32).domLoses 32 : State).setDom 32 { ((if ({ cseq := 7, target := 2, chipReset := true } : DomCmd).chipReset then (domIn 32 { st := .entering, cmd := some ⟨7, 2, true⟩ } : State) else (domIn 32 { st := .entering, cmd := some ⟨7, 2, true⟩ } : State).saveDom 32).domLoses 32 : State).dom 32 with entries := min 65535 (((domIn 32 { st := .entering, cmd := some ⟨7, 2, true⟩ } : State).dom 32).entries + 1), cmd := none, quiesced := [] }).domGoes 32 .banked, 32, { cseq := 7, target := 2, chipReset := true }, by decide +kernel, by decide +kernel, by decide +kernel, rfl, rfl, by decide +kernel⟩,
   ⟨domIn 32 { st := .entering, cmd := some ⟨7, 2, false⟩ }, (if ({ cseq := 7, target := 2, chipReset := false } : DomCmd).chipReset then (domIn 32 { st := .entering, cmd := some ⟨7, 2, false⟩ } : State) else (domIn 32 { st := .entering, cmd := some ⟨7, 2, false⟩ } : State).saveDom 32).domLoses 32, (((if ({ cseq := 7, target := 2, chipReset := false } : DomCmd).chipReset then (domIn 32 { st := .entering, cmd := some ⟨7, 2, false⟩ } : State) else (domIn 32 { st := .entering, cmd := some ⟨7, 2, false⟩ } : State).saveDom 32).domLoses 32 : State).setDom 32 { ((if ({ cseq := 7, target := 2, chipReset := false } : DomCmd).chipReset then (domIn 32 { st := .entering, cmd := some ⟨7, 2, false⟩ } : State) else (domIn 32 { st := .entering, cmd := some ⟨7, 2, false⟩ } : State).saveDom 32).domLoses 32 : State).dom 32 with entries := min 65535 (((domIn 32 { st := .entering, cmd := some ⟨7, 2, false⟩ } : State).dom 32).entries + 1), cmd := none, quiesced := [] }).domGoes 32 .banked, 32, { cseq := 7, target := 2, chipReset := false }, by decide +kernel, by decide +kernel, by decide +kernel, rfl, rfl, by decide +kernel, by decide +kernel⟩,
   ⟨domIn 32 { st := .entering, cmd := some ⟨7, 2, false⟩, wake := some 8 }, (if ({ cseq := 7, target := 2, chipReset := false } : DomCmd).chipReset then (domIn 32 { st := .entering, cmd := some ⟨7, 2, false⟩, wake := some 8 } : State) else (domIn 32 { st := .entering, cmd := some ⟨7, 2, false⟩, wake := some 8 } : State).saveDom 32).domLoses 32, (((if ({ cseq := 7, target := 2, chipReset := false } : DomCmd).chipReset then (domIn 32 { st := .entering, cmd := some ⟨7, 2, false⟩, wake := some 8 } : State) else (domIn 32 { st := .entering, cmd := some ⟨7, 2, false⟩, wake := some 8 } : State).saveDom 32).domLoses 32 : State).setDom 32 { ((if ({ cseq := 7, target := 2, chipReset := false } : DomCmd).chipReset then (domIn 32 { st := .entering, cmd := some ⟨7, 2, false⟩, wake := some 8 } : State) else (domIn 32 { st := .entering, cmd := some ⟨7, 2, false⟩, wake := some 8 } : State).saveDom 32).domLoses 32 : State).dom 32 with entries := min 65535 (((domIn 32 { st := .entering, cmd := some ⟨7, 2, false⟩, wake := some 8 } : State).dom 32).entries + 1), cmd := none, quiesced := [] }).domGoes 32 .banked, 32, { cseq := 7, target := 2, chipReset := false }, 8, by decide +kernel, by decide +kernel, by decide +kernel, rfl, rfl, by decide +kernel, by decide +kernel⟩,
   ⟨domIn 32 { st := .waking }, 32, by decide +kernel⟩,
   ⟨running [pgEVT, pgPWR], 32, by decide +kernel⟩,
   ⟨domIn 31 { st := .waking, cmd := some ⟨7, 0, false⟩ }, 7, by decide +kernel⟩⟩

theorem witness_ColdAndPowerFail :
    (∃ (s : State) (h : CmdHdr), Ready s h pgPWR pgPWR .work ∧ s.plat.pwr.powerFail = true) ∧
    (∃ (s : State) (h : CmdHdr), Ready s h pgPWR pgPWR .work ∧ s.plat.pwr.powerFail = false ∧ (s.restarting = true ∨ s.coldAllowed = false)) ∧
    (∃ (s : State) (h : CmdHdr), Ready s h pgPWR pgPWR .work ∧ s.plat.pwr.powerFail = false ∧ s.restarting = false ∧ s.coldAllowed = true ∧ s.plat.pwr.enCore = true) ∧
    (∃ (s : State) (h : CmdHdr), Ready s h pgPWR pgPWR .work ∧ s.plat.pwr.powerFail = false ∧ s.restarting = false ∧ s.coldAllowed = true ∧ s.plat.pwr.enCore = false) ∧
    (∃ (s : State), s.plat.pwr.cold = true ∧ s.plat.pwr.waking = false ∧ s.plat.pwr.powerFail = false ∧ s.fld fPWR_WAKE_EN_WAKE_N = 1) ∧
    (∃ (s : State), (s.plat.pwr.cold = false ∨ s.plat.pwr.waking = true ∨ s.plat.pwr.powerFail = true ∨ s.fld fPWR_WAKE_EN_WAKE_N ≠ 1)) ∧
    (∃ (s : State), s.plat.pwr.cold = true ∧ s.plat.pwr.waking = false ∧ s.plat.pwr.powerFail = false ∧ s.fld fPWR_WAKE_EN_TIMER = 1 ∧ s.reg64 rPWR_WAKE_TIME ≠ 0 ∧ s.reg64 rPWR_WAKE_TIME ≤ s.now) ∧
    (∃ (s : State), (s.plat.pwr.cold = false ∨ s.plat.pwr.waking = true ∨ s.plat.pwr.powerFail = true ∨ s.fld fPWR_WAKE_EN_TIMER ≠ 1 ∨ s.reg64 rPWR_WAKE_TIME = 0 ∨ s.now < s.reg64 rPWR_WAKE_TIME)) ∧
    (∃ (s : State) (_v _hf : Nat), s.pageOn pgPWR = false) ∧
    (∃ (s : State) (_v _hf : Nat), s.pageOn pgPWR = true ∧ (s.blk pgPWR = .fault ∨ s.blk pgPWR = .off)) ∧
    (∃ (s : State) (_v _hf : Nat), s.pageOn pgAON = false) ∧
    (∃ (s : State) (_v _hf : Nat), s.pageOn pgAON = true ∧ (s.blk pgAON = .fault ∨ s.blk pgAON = .off)) ∧
    (∃ (s t : State) (v : Nat) (no : List Nat), Reaches s pgPWR ∧ no = (bitList 8 v).filter (fun b => !(s.fld fPWR_BANK_GATE).testBit b && s.sw.cfg.bankEn.testBit b) ∧ t = s.setFld fPWR_BANK_GATE (maskOf ((bitList 8 v).filter fun b => !no.contains b)) ∧ no = []) ∧
    (∃ (s t : State) (v : Nat) (no : List Nat) (b : Nat) (bs : List Nat), Reaches s pgPWR ∧ no = (bitList 8 v).filter (fun b => !(s.fld fPWR_BANK_GATE).testBit b && s.sw.cfg.bankEn.testBit b) ∧ t = s.setFld fPWR_BANK_GATE (maskOf ((bitList 8 v).filter fun b => !no.contains b)) ∧ no = b :: bs) ∧
    (∃ (s : State) (_v : Nat), Reaches s pgPWR ∧ s.sw.cfg.bankEn = 0) ∧
    (∃ (s : State), (s.plat.chip.porstLow = true ∨ s.plat.pwr.powerFail = true)) ∧
    (∃ (s : State) (t : State), s.plat.chip.porstLow = false ∧ s.plat.pwr.powerFail = false ∧ t = { s with plat.pwr.powerFail := true, plat.chip.admissionStopped := true }) ∧
    (∃ (s : State), s.plat.chip.porstLow = false ∧ s.plat.pwr.powerFail = false ∧ (∀ d, d < 33 → (s.dom d).st ≠ .draining)) ∧
    (∃ (s : State) (hf _v : Nat), Reaches s pgAON ∧ 2 ≤ hf) ∧
    (∃ (s : State) (hf _v : Nat), Reaches s pgAON ∧ hf < 2 ∧ s.plat.aon.bad.contains s.swWord = true) ∧
    (∃ (s : State) (hf _v : Nat), Reaches s pgAON ∧ hf < 2 ∧ s.plat.aon.bad.contains s.swWord = false) :=
  ⟨⟨{ running [pgEVT, pgPWR] with plat.pwr.powerFail := true }, hdr 0, by decide +kernel⟩,
   ⟨{ running [pgEVT, pgPWR] with plat.chip.restartReq := some 3 }, hdr 0, by decide +kernel⟩,
   ⟨running [pgEVT, pgPWR], hdr 0, by decide +kernel⟩,
   ⟨{ running [pgEVT, pgPWR] with plat.pwr.enCore := false }, hdr 0, by decide +kernel⟩,
   ⟨{ State.reset with plat.pwr.cold := true }, by decide +kernel⟩,
   ⟨running [pgEVT, pgPWR], by decide +kernel⟩,
   ⟨{ (({ running [pgPWR] with plat.pwr.cold := true } : State).setFld fPWR_WAKE_EN_TIMER 1).setReg rPWR_WAKE_TIME 9 with plat.time.now := 9 }, by decide +kernel⟩,
   ⟨running [pgEVT, pgPWR], by decide +kernel⟩,
   ⟨{ State.reset with plat.pwr.doms := [(0, { st := .banked })] }, 0, 0, by decide +kernel⟩,
   ⟨{ State.reset with pages := [(pgPWR, { st := .fault })] }, 0, 0, by decide +kernel⟩,
   ⟨{ State.reset with plat.pwr.doms := [(0, { st := .banked })] }, 0, 0, by decide +kernel⟩,
   ⟨{ State.reset with pages := [(pgAON, { st := .fault })] }, 0, 0, by decide +kernel⟩,
   ⟨running [pgEVT, pgPWR], (running [pgEVT, pgPWR] : State).setFld fPWR_BANK_GATE (maskOf ((bitList 8 0).filter fun b => !([] : List Nat).contains b)), 0, [], by decide +kernel, by decide +kernel, rfl, by decide +kernel⟩,
   ⟨running [pgEVT, pgPWR], (running [pgEVT, pgPWR] : State).setFld fPWR_BANK_GATE (maskOf ((bitList 8 1).filter fun b => !((bitList 8 1).filter (fun b => !((running [pgEVT, pgPWR] : State).fld fPWR_BANK_GATE).testBit b && (running [pgEVT, pgPWR] : State).sw.cfg.bankEn.testBit b) : List Nat).contains b)), 1, (bitList 8 1).filter (fun b => !((running [pgEVT, pgPWR] : State).fld fPWR_BANK_GATE).testBit b && (running [pgEVT, pgPWR] : State).sw.cfg.bankEn.testBit b), 0, [], by decide +kernel, by decide +kernel, rfl, by decide +kernel⟩,
   ⟨{ running [pgPWR] with sw.cfg.bankEn := 0 }, 0, by decide +kernel⟩,
   ⟨{ running [pgEVT, pgPWR] with plat.pwr.powerFail := true }, by decide +kernel⟩,
   ⟨running [pgEVT, pgPWR], { (running [pgEVT, pgPWR] : State) with plat.pwr.powerFail := true, plat.chip.admissionStopped := true }, by decide +kernel, by decide +kernel, rfl⟩,
   ⟨running [pgEVT, pgPWR], by decide +kernel⟩,
   ⟨running [pgEVT, pgPWR], 2, 0, by decide +kernel⟩,
   ⟨{ running [] with plat.aon.bad := [0] }, 0, 0, by decide +kernel⟩,
   ⟨running [pgEVT, pgPWR], 0, 0, by decide +kernel⟩⟩

theorem witness_ServiceAccess :
    (∃ (s : State) (op : Nat), op ≠ svHBMREAD ∧ op ≠ svHBMWRITE ∧ s.fld fSVC_CTRL_ACCESS = 0) ∧
    (∃ (s : State) (op : Nat), op ≠ svHBMREAD ∧ s.fld fSVC_CTRL_ACCESS = 1) ∧
    (∃ (s : State) (_op : Nat), s.fld fSVC_CTRL_ACCESS = 2) ∧
    (∃ (s : State), s.fld fSVC_CTRL_HBM_EN = 0) ∧
    (∃ (s : State), s.fld fSVC_CTRL_HBM_EN = 1 ∧ s.fld fSVC_CTRL_ACCESS < 2) ∧
    (∃ (s : State) (m : SvcMsg), svcGood svWRITE m = true ∧ s.svcKept svWRITE (m.seq % 65536) = none ∧ s.svcAllows svWRITE = false) ∧
    (∃ (s : State) (_v : Nat), Reaches s pgSVC ∧ s.lockedRwl = true) :=
  ⟨⟨State.reset.setFld fSVC_CTRL_ACCESS 0, svWRITE, by decide +kernel⟩,
   ⟨State.reset.setFld fSVC_CTRL_ACCESS 1, svWRITE, by decide +kernel⟩,
   ⟨State.reset.setFld fSVC_CTRL_ACCESS 2, svWRITE, by decide +kernel⟩,
   ⟨State.reset.setFld fSVC_CTRL_ACCESS 0, by decide +kernel⟩,
   ⟨(State.reset.setFld fSVC_CTRL_HBM_EN 1).setFld fSVC_CTRL_ACCESS 1, by decide +kernel⟩,
   ⟨State.reset.setFld fSVC_CTRL_ACCESS 1, ⟨0x5356, 1, 0, 0, 1, 0, [0, 0, 0, 0]⟩, by decide +kernel⟩,
   ⟨State.reset.setReg rSTORE_LOCK 1, 0, by decide +kernel⟩⟩

theorem witness_ServiceMessages :
    (∃ (_s : State) (m : SvcMsg) (op : Nat) (x : Instr), SvcRow m op x ∧ svcGood op m = false) ∧
    (∃ (s : State) (m : SvcMsg) (op : Nat) (x : Instr) (r : List Byte), SvcRow m op x ∧ svcGood op m = true ∧ s.svcKept op (m.seq % 65536) = some r) ∧
    (∃ (s : State) (m : SvcMsg) (op : Nat) (x : Instr), SvcRow m op x ∧ svcGood op m = true ∧ s.svcKept op (m.seq % 65536) = none ∧ s.svcAllows op = false) ∧
    (∃ (s : State) (m : SvcMsg) (op : Nat) (x : Instr) (a : SvcAns), SvcRow m op x ∧ Served s op m ∧ a = (s.bump fSVC_RX_MSG).svcOp op m) ∧
    (∃ (s : State) (m : SvcMsg), Served s svREAD m ∧ m.count = 1 ∧ (s.bump fSVC_RX_MSG).svcCheck false m.addr 4 = svOk) ∧
    (∃ (s : State) (m : SvcMsg), Served s svWRITE m ∧ m.count = 1 ∧ (s.bump fSVC_RX_MSG).svcCheck true m.addr 4 = svOk) ∧
    (∃ (s : State) (m : SvcMsg), Served s svREAD64 m ∧ (s.bump fSVC_RX_MSG).svcCheck false m.addr 8 = svOk) ∧
    (∃ (s : State) (m : SvcMsg), Served s svWRITE64 m ∧ (s.bump fSVC_RX_MSG).svcCheck true m.addr 8 = svOk) ∧
    (∃ (s : State) (m : SvcMsg), (s.bump fSVC_RX_MSG).svcCheck false m.addr 4 = svAlign ∧ (s.bump fSVC_RX_MSG).svcCheck true m.addr 4 = svAlign ∧ Served s svREAD m) ∧
    (∃ (s : State) (m : SvcMsg), (s.bump fSVC_RX_MSG).svcCheck false m.addr 4 = svAlign ∧ (s.bump fSVC_RX_MSG).svcCheck true m.addr 4 = svAlign ∧ Served s svWRITE m) ∧
    (∃ (s : State) (m : SvcMsg), Served s svHBMREAD m ∧ s.plat.pwr.cold = true) ∧
    (∃ (s : State) (m : SvcMsg), Served s svHBMREAD m ∧ s.plat.pwr.cold = false ∧ m.addr % 64 ≠ 0) ∧
    (∃ (s : State) (m : SvcMsg), Served s svHBMREAD m ∧ s.plat.pwr.cold = false ∧ m.addr % 64 = 0 ∧ hbmEnd < m.addr + m.count) ∧
    (∃ (s : State) (m : SvcMsg), Served s svHBMREAD m ∧ s.plat.pwr.cold = false ∧ m.addr % 64 = 0 ∧ m.addr + m.count ≤ hbmEnd ∧ s.stackAsleep m.addr m.count = true) ∧
    (∃ (s : State) (m : SvcMsg) (b : Nat), Served s svHBMREAD m ∧ s.plat.pwr.cold = false ∧ m.addr % 64 = 0 ∧ m.addr + m.count ≤ hbmEnd ∧ s.stackAsleep m.addr m.count = false ∧ s.rawBad m.addr m.count = some b) ∧
    (∃ (s : State) (m : SvcMsg), Served s svHBMREAD m ∧ s.plat.pwr.cold = false ∧ m.addr % 64 = 0 ∧ m.addr + m.count ≤ hbmEnd ∧ s.stackAsleep m.addr m.count = false ∧ s.rawBad m.addr m.count = none) ∧
    (∃ (s : State) (m : SvcMsg), Served s svHBMWRITE m ∧ s.plat.pwr.cold = true) ∧
    (∃ (s : State) (m : SvcMsg), Served s svHBMWRITE m ∧ s.plat.pwr.cold = false ∧ m.addr % 64 ≠ 0) ∧
    (∃ (s : State) (m : SvcMsg), Served s svHBMWRITE m ∧ s.plat.pwr.cold = false ∧ m.addr % 64 = 0 ∧ hbmEnd < m.addr + m.count) ∧
    (∃ (s : State) (m : SvcMsg), Served s svHBMWRITE m ∧ s.plat.pwr.cold = false ∧ m.addr % 64 = 0 ∧ m.addr + m.count ≤ hbmEnd ∧ s.stackAsleep m.addr m.count = true) ∧
    (∃ (s : State) (m : SvcMsg), Served s svHBMWRITE m ∧ s.plat.pwr.cold = false ∧ m.addr % 64 = 0 ∧ m.addr + m.count ≤ hbmEnd ∧ s.stackAsleep m.addr m.count = false) ∧
    (∃ (s : State) (m : SvcMsg), Served s svUPDDATA m ∧ s.plat.pwr.cold = true) ∧
    (∃ (s : State) (m : SvcMsg), Served s svUPDDATA m ∧ s.plat.pwr.cold = false ∧ s.updLimit = none) ∧
    (∃ (s : State) (m : SvcMsg) (lim : Nat), Served s svUPDDATA m ∧ s.plat.pwr.cold = false ∧ s.updLimit = some lim ∧ lim < m.addr + m.count) ∧
    (∃ (s : State) (m : SvcMsg) (lim : Nat), Served s svUPDDATA m ∧ s.plat.pwr.cold = false ∧ s.updLimit = some lim ∧ m.addr + m.count ≤ lim ∧ s.reg64 rUPD_PKG_BASE + m.addr + m.count ≤ hbmEnd ∧ (∀ j, (s.stack j).sr = .active)) ∧
    (∃ (s : State), s.upd.st = .verified) ∧
    (∃ (s : State), s.upd.st = .idle) ∧
    (∃ (s : State), s.upd.st ≠ .verified ∧ s.upd.st ≠ .idle) ∧
    (∃ (s : State) (m : SvcMsg), Served s svPING m) ∧
    (∃ (s : State) (f : List Byte), unBe (f.take 6) = s.reg64 rSVC_MAC ∧ unBe (slice f 12 2) = 0x88B5 ∧ (svcUnpad (f.drop 14)).length < 24) ∧
    (∃ (s : State) (f : List Byte), unBe (f.take 6) = s.reg64 rSVC_MAC ∧ unBe (slice f 12 2) = 0x88B5 ∧ 24 ≤ (svcUnpad (f.drop 14)).length) ∧
    (∃ (s : State) (f : List Byte), (unBe (f.take 6) ≠ s.reg64 rSVC_MAC ∨ unBe (slice f 12 2) ≠ 0x88B5) ∧ s.fld fSVC_CTRL_FWD = 1) ∧
    (∃ (s : State) (f : List Byte), (unBe (f.take 6) ≠ s.reg64 rSVC_MAC ∨ unBe (slice f 12 2) ≠ 0x88B5) ∧ s.fld fSVC_CTRL_FWD ≠ 1) ∧
    (∃ (s : State) (bs : List Byte), s.i3cOn = true ∧ i3cGood bs = true) ∧
    (∃ (s : State) (bs : List Byte), s.i3cOn = true ∧ i3cGood bs = false) ∧
    (∃ (s : State) (r : List Byte), s.i3cOn = true ∧ s.svc.i3cResp = some r) ∧
    (∃ (s : State), s.svc.i3cResp = none) ∧
    (∃ (s : State) (_a : Nat), s.i3cOn = true) ∧
    (∃ (s : State) (a : Nat), s.i3cOn = true ∧ a < 128) ∧
    (∃ (s : State), s.i3cOn = true) ∧
    (∃ (s : State), s.i3cOn = true) ∧
    (∃ (s : State) (_a : Nat) (_bs : List Byte), s.i3cOn = false) :=
  ⟨⟨State.reset, (⟨0, 1, 0, 0, 1, 0, []⟩ : SvcMsg), svREAD, .svcRead (⟨0, 1, 0, 0, 1, 0, []⟩ : SvcMsg), by decide +kernel⟩,
   ⟨{ ((State.reset.setFld fSVC_CTRL_ACCESS 0).setFld fSVC_CTRL_HBM_EN 1) with svc.recent := [(65535, svPING, [1])] }, (⟨0x5356, 1, 0, 65535, 0, 0, []⟩ : SvcMsg), svPING, .ping (⟨0x5356, 1, 0, 65535, 0, 0, []⟩ : SvcMsg), [1], by decide +kernel⟩,
   ⟨State.reset.setFld fSVC_CTRL_ACCESS 2, (⟨0x5356, 1, 0, 65535, 1, 0x214, [0, 0, 0, 0]⟩ : SvcMsg), svWRITE, .svcWrite (⟨0x5356, 1, 0, 65535, 1, 0x214, [0, 0, 0, 0]⟩ : SvcMsg), by decide +kernel⟩,
   ⟨((State.reset.setFld fSVC_CTRL_ACCESS 0).setFld fSVC_CTRL_HBM_EN 1), (⟨0x5356, 1, 0, 65535, 1, 0x214, [0, 0, 0, 0]⟩ : SvcMsg), svWRITE, .svcWrite (⟨0x5356, 1, 0, 65535, 1, 0x214, [0, 0, 0, 0]⟩ : SvcMsg), (((State.reset.setFld fSVC_CTRL_ACCESS 0).setFld fSVC_CTRL_HBM_EN 1).bump fSVC_RX_MSG).svcOp svWRITE (⟨0x5356, 1, 0, 65535, 1, 0x214, [0, 0, 0, 0]⟩ : SvcMsg), by decide +kernel, by decide +kernel, rfl⟩,
   ⟨((State.reset.setFld fSVC_CTRL_ACCESS 0).setFld fSVC_CTRL_HBM_EN 1), ⟨0x5356, 1, 0, 65535, 1, 0x214, []⟩, by decide +kernel⟩,
   ⟨((State.reset.setFld fSVC_CTRL_ACCESS 0).setFld fSVC_CTRL_HBM_EN 1), ⟨0x5356, 1, 0, 65535, 1, 0x214, [0, 0, 0, 0]⟩, by decide +kernel⟩,
   ⟨((State.reset.setFld fSVC_CTRL_ACCESS 0).setFld fSVC_CTRL_HBM_EN 1), ⟨0x5356, 1, 0, 65535, 1, rFTL_CKPT_SEQ, []⟩, by decide +kernel⟩,
   ⟨((State.reset.setFld fSVC_CTRL_ACCESS 0).setFld fSVC_CTRL_HBM_EN 1), ⟨0x5356, 1, 0, 65535, 1, rFTL_CKPT_SEQ, [0, 0, 0, 0, 0, 0, 0, 0]⟩, by decide +kernel⟩,
   ⟨((State.reset.setFld fSVC_CTRL_ACCESS 0).setFld fSVC_CTRL_HBM_EN 1), ⟨0x5356, 1, 0, 65535, 1, 0x216, []⟩, by decide +kernel⟩,
   ⟨((State.reset.setFld fSVC_CTRL_ACCESS 0).setFld fSVC_CTRL_HBM_EN 1), ⟨0x5356, 1, 0, 65535, 1, 0x216, [0, 0, 0, 0]⟩, by decide +kernel⟩,
   ⟨{ ((State.reset.setFld fSVC_CTRL_ACCESS 0).setFld fSVC_CTRL_HBM_EN 1) with plat.pwr.cold := true }, ⟨0x5356, 1, 0, 65535, 64, hbmEnd - 1024, []⟩, by decide +kernel⟩,
   ⟨((State.reset.setFld fSVC_CTRL_ACCESS 0).setFld fSVC_CTRL_HBM_EN 1), ⟨0x5356, 1, 0, 65535, 64, 1, []⟩, by decide +kernel⟩,
   ⟨((State.reset.setFld fSVC_CTRL_ACCESS 0).setFld fSVC_CTRL_HBM_EN 1), ⟨0x5356, 1, 0, 65535, 64, hbmEnd, []⟩, by decide +kernel⟩,
   ⟨{ ((State.reset.setFld fSVC_CTRL_ACCESS 0).setFld fSVC_CTRL_HBM_EN 1) with mem.hbmStacks := [(0, { sr := .selfRefresh }), (1, { sr := .selfRefresh }), (2, { sr := .selfRefresh })] }, ⟨0x5356, 1, 0, 65535, 64, hbmEnd - 1024, []⟩, by decide +kernel⟩,
   ⟨{ ((State.reset.setFld fSVC_CTRL_ACCESS 0).setFld fSVC_CTRL_HBM_EN 1) with mem.bad := [hbmEnd / 64 - 16] }, ⟨0x5356, 1, 0, 65535, 64, hbmEnd - 1024, []⟩, 103079214080, by decide +kernel⟩,
   ⟨((State.reset.setFld fSVC_CTRL_ACCESS 0).setFld fSVC_CTRL_HBM_EN 1), ⟨0x5356, 1, 0, 65535, 64, hbmEnd - 1024, []⟩, by decide +kernel⟩,
   ⟨{ ((State.reset.setFld fSVC_CTRL_ACCESS 0).setFld fSVC_CTRL_HBM_EN 1) with plat.pwr.cold := true }, ⟨0x5356, 1, 0, 65535, 64, hbmEnd - 1024, List.replicate 64 0⟩, by decide +kernel⟩,
   ⟨((State.reset.setFld fSVC_CTRL_ACCESS 0).setFld fSVC_CTRL_HBM_EN 1), ⟨0x5356, 1, 0, 65535, 64, 1, List.replicate 64 0⟩, by decide +kernel⟩,
   ⟨((State.reset.setFld fSVC_CTRL_ACCESS 0).setFld fSVC_CTRL_HBM_EN 1), ⟨0x5356, 1, 0, 65535, 64, hbmEnd, List.replicate 64 0⟩, by decide +kernel⟩,
   ⟨{ ((State.reset.setFld fSVC_CTRL_ACCESS 0).setFld fSVC_CTRL_HBM_EN 1) with mem.hbmStacks := [(0, { sr := .selfRefresh }), (1, { sr := .selfRefresh }), (2, { sr := .selfRefresh })] }, ⟨0x5356, 1, 0, 65535, 64, hbmEnd - 1024, List.replicate 64 0⟩, by decide +kernel⟩,
   ⟨((State.reset.setFld fSVC_CTRL_ACCESS 0).setFld fSVC_CTRL_HBM_EN 1), ⟨0x5356, 1, 0, 65535, 64, hbmEnd - 1024, List.replicate 64 0⟩, by decide +kernel⟩,
   ⟨{ ((State.reset.setFld fSVC_CTRL_ACCESS 0).setFld fSVC_CTRL_HBM_EN 1) with plat.pwr.cold := true }, ⟨0x5356, 1, 0, 65535, 64, hbmEnd - 1024, List.replicate 64 0⟩, by decide +kernel⟩,
   ⟨{ ((State.reset.setFld fSVC_CTRL_ACCESS 0).setFld fSVC_CTRL_HBM_EN 1) with upd.st := .staged }, ⟨0x5356, 1, 0, 65535, 64, hbmEnd - 1024, List.replicate 64 0⟩, by decide +kernel⟩,
   ⟨((State.reset.setFld fSVC_CTRL_ACCESS 0).setFld fSVC_CTRL_HBM_EN 1), ⟨0x5356, 1, 0, 65535, 64, hbmEnd - 1024, List.replicate 64 0⟩, 12288, by decide +kernel⟩,
   ⟨{ ((State.reset.setFld fSVC_CTRL_ACCESS 0).setFld fSVC_CTRL_HBM_EN 1) with upd.st := .verified }, ⟨0x5356, 1, 0, 65535, 1, 0, [0]⟩, bodyStart 0 + 16, by decide +kernel, by decide +kernel, by decide +kernel, by decide +kernel, by decide +kernel, fun _ => rfl⟩,
   ⟨{ ((State.reset.setFld fSVC_CTRL_ACCESS 0).setFld fSVC_CTRL_HBM_EN 1) with upd.st := .verified }, by decide +kernel⟩,
   ⟨((State.reset.setFld fSVC_CTRL_ACCESS 0).setFld fSVC_CTRL_HBM_EN 1), by decide +kernel⟩,
   ⟨{ ((State.reset.setFld fSVC_CTRL_ACCESS 0).setFld fSVC_CTRL_HBM_EN 1) with upd.st := .staged }, by decide +kernel⟩,
   ⟨((State.reset.setFld fSVC_CTRL_ACCESS 0).setFld fSVC_CTRL_HBM_EN 1), ⟨0x5356, 1, 0, 65535, 0, 0, []⟩, by decide +kernel⟩,
   ⟨((State.reset.setFld fSVC_CTRL_ACCESS 0).setFld fSVC_CTRL_HBM_EN 1), List.replicate 12 0 ++ [0x88, 0xB5], by decide +kernel⟩,
   ⟨((State.reset.setFld fSVC_CTRL_ACCESS 0).setFld fSVC_CTRL_HBM_EN 1), List.replicate 12 0 ++ [0x88, 0xB5, 0x56, 0x53, 1] ++ List.replicate 40 0, by decide +kernel⟩,
   ⟨State.reset.setFld fSVC_CTRL_FWD 1, [1], by decide +kernel⟩,
   ⟨((State.reset.setFld fSVC_CTRL_ACCESS 0).setFld fSVC_CTRL_HBM_EN 1), [1], by decide +kernel⟩,
   ⟨((State.reset.setFld fSVC_CTRL_ACCESS 0).setFld fSVC_CTRL_HBM_EN 1), [0x56, 0x53, 1, BitVec.ofNat 8 svPING] ++ List.replicate 20 0, by decide +kernel⟩,
   ⟨((State.reset.setFld fSVC_CTRL_ACCESS 0).setFld fSVC_CTRL_HBM_EN 1), [], by decide +kernel⟩,
   ⟨{ (State.reset.setFld fSVC_I3C_CFG_I3C_EN 1) with svc.i3cResp := some [1] }, [1], by decide +kernel⟩,
   ⟨((State.reset.setFld fSVC_CTRL_ACCESS 0).setFld fSVC_CTRL_HBM_EN 1), by decide +kernel⟩,
   ⟨((State.reset.setFld fSVC_CTRL_ACCESS 0).setFld fSVC_CTRL_HBM_EN 1), 127, by decide +kernel⟩,
   ⟨((State.reset.setFld fSVC_CTRL_ACCESS 0).setFld fSVC_CTRL_HBM_EN 1), 127, by decide +kernel⟩,
   ⟨((State.reset.setFld fSVC_CTRL_ACCESS 0).setFld fSVC_CTRL_HBM_EN 1), by decide +kernel⟩,
   ⟨((State.reset.setFld fSVC_CTRL_ACCESS 0).setFld fSVC_CTRL_HBM_EN 1), by decide +kernel⟩,
   ⟨State.reset.setFld fSVC_I3C_CFG_I3C_EN 0, 127, [0x56, 0x53, 1, BitVec.ofNat 8 svPING] ++ List.replicate 20 0, by decide +kernel⟩⟩

theorem witness_Update :
    (∃ (s : State) (h : CmdHdr) (_g _fo : Bool), Ready s h pgUPD pgUPD .work ∧ s.upd.st ≠ .idle) ∧
    (∃ (s : State) (h : CmdHdr) (_g _fo : Bool), Ready s h pgUPD pgUPD .work ∧ s.upd.st ≠ .verified) ∧
    (∃ (s : State) (h : CmdHdr) (_g _fo : Bool), Ready s h pgUPD pgUPD .work ∧ ((s.upd.st ≠ .staged ∧ s.upd.st ≠ .failed) ∨ s.upd.job.isSome = true)) ∧
    (∃ (s : State) (h : CmdHdr) (_g _fo : Bool), Ready s h pgUPD pgUPD .work ∧ (s.upd.st ≠ .staged ∨ s.upd.job.isSome = true ∨ s.plat.pwr.powerFail = true)) ∧
    (∃ (s : State) (h : CmdHdr) (_g _fo : Bool), Ready s h pgUPD pgUPD .work ∧ (s.upd.st ≠ .trial ∨ s.upd.job.isSome = true)) ∧
    (∃ (s : State) (h : CmdHdr), Ready s h pgUPD pgUPD .work ∧ s.upd.st = .idle) ∧
    (∃ (s t : State) (h : CmdHdr) (_g _fo : Bool), Ready s h pgUPD pgUPD .work ∧ s.upd.st = .verified ∧ t = s.consume.updGoes .staging 0 ∧ t.snoopLane = false) ∧
    (∃ (s t : State) (h : CmdHdr) (_g _fo : Bool), Ready s h pgUPD pgUPD .work ∧ s.upd.st = .verified ∧ t = s.consume.updGoes .staging 0 ∧ t.snoopLane = true) ∧
    (∃ (t _u : State) (_g _fo : Bool), t.zeroized = true) ∧
    (∃ (t u : State) (g _fo : Bool), t.zeroized = false ∧ t.cipherLock g = (u, false)) ∧
    (∃ (t u : State) (g _fo : Bool) (e : Nat), t.zeroized = false ∧ t.cipherLock g = (u, true) ∧ u.stageBody = .error e) ∧
    (∃ (t u : State) (g _fo : Bool) (body : List Byte) (e p : Nat), t.zeroized = false ∧ t.cipherLock g = (u, true) ∧ u.stageBody = .ok body ∧ u.newImages u.upd.header body = .error (e, p)) ∧
    (∃ (t u : State) (g _fo : Bool) (body : List Byte) (imgs : List (List Byte × Nat)), t.zeroized = false ∧ t.cipherLock g = (u, true) ∧ u.stageBody = .ok body ∧ u.newImages u.upd.header body = .ok imgs) ∧
    (∃ (s : State) (h : CmdHdr) (_mask : Nat), Ready s h pgUPD pgUPD .work ∧ (s.upd.st ≠ .staged ∨ s.upd.job.isSome = true)) ∧
    (∃ (s : State) (h : CmdHdr) (mask : Nat), Ready s h pgUPD pgUPD .work ∧ s.upd.st = .staged ∧ s.upd.job = none ∧ 2 ^ 24 ≤ mask) ∧
    (∃ (s : State) (h : CmdHdr) (mask : Nat), Ready s h pgUPD pgUPD .work ∧ s.upd.st = .staged ∧ s.upd.job = none ∧ mask < 2 ^ 24 ∧ (mask = 0 ∨ s.bridgeNamed = false)) ∧
    (∃ (s : State) (h : CmdHdr) (mask : Nat), Ready s h pgUPD pgUPD .work ∧ s.upd.st = .staged ∧ s.upd.job = none ∧ mask < 2 ^ 24 ∧ 0 < mask ∧ s.bridgeNamed = true ∧ ((bitList 24 mask).any s.foreignModule) = true) ∧
    (∃ (s : State) (h : CmdHdr) (mask : Nat), Ready s h pgUPD pgUPD .work ∧ s.upd.st = .staged ∧ s.upd.job = none ∧ mask < 2 ^ 24 ∧ 0 < mask ∧ s.bridgeNamed = true ∧ ((bitList 24 mask).any s.foreignModule) = false) ∧
    (∃ (s : State) (h : CmdHdr) (ow : Bool), Ready s h pgUPD pgUPD .work ∧ s.upd.st = .staged ∧ s.upd.job = none ∧ s.plat.pwr.powerFail = false ∧ s.ownsPaired = true ∧ ow = false) ∧
    (∃ (s : State) (h : CmdHdr) (ow : Bool), Ready s h pgUPD pgUPD .work ∧ s.upd.st = .staged ∧ s.upd.job = none ∧ s.plat.pwr.powerFail = false ∧ (s.ownsPaired = false ∨ ow = true)) ∧
    (∃ (s t : State) (h : CmdHdr), Ready s h pgUPD pgUPD .work ∧ s.upd.st = .trial ∧ s.upd.job = none ∧ t = { s.consume.emptyStaging with upd.trial := false, upd.tries := 0, upd.bridges := [], upd.floor := max s.upd.floor (unLe (slice s.activeSlot.dir 0x00C 4)) }) ∧
    (∃ (s : State) (h : CmdHdr), Ready s h pgUPD pgUPD .work ∧ s.upd.st = .trial ∧ s.upd.job = none) ∧
    (∃ (s : State) (h : CmdHdr), Ready s h pgUPD pgUPD .work ∧ s.upd.st = .trial ∧ s.upd.job = none) ∧
    (∃ (s : State) (h : CmdHdr), Ready s h pgUPD pgUPD .work ∧ (s.upd.st = .staged ∨ s.upd.st = .failed) ∧ s.upd.job = none) ∧
    (∃ (s : State), s.upd.st = .trial ∧ s.fld fUPD_CFG_CONFIRM_TIMEOUT_S ≠ 0 ∧ s.upd.job = none) ∧
    (∃ (s : State), (s.upd.st ≠ .trial ∨ s.fld fUPD_CFG_CONFIRM_TIMEOUT_S = 0 ∨ s.upd.job.isSome = true)) ∧
    (∃ (s : State) (_v : Nat), s.pageOn pgUPD = false) ∧
    (∃ (s : State) (_v : Nat), s.pageOn pgUPD = true ∧ (s.blk pgUPD = .fault ∨ s.blk pgUPD = .off)) ∧
    (∃ (s : State) (v : Nat), Reaches s pgUPD ∧ s.upd.revoked ||| v % 16 ≠ 15) ∧
    (∃ (s : State) (v : Nat), Reaches s pgUPD ∧ s.upd.revoked ||| v % 16 = 15) :=
  ⟨⟨updIn .verified, hdr 0, false, true, by decide +kernel⟩,
   ⟨updIn .idle, hdr 0, false, true, by decide +kernel⟩,
   ⟨updIn .idle, hdr 0, false, true, by decide +kernel⟩,
   ⟨updIn .idle, hdr 0, false, true, by decide +kernel⟩,
   ⟨updIn .idle, hdr 0, false, true, by decide +kernel⟩,
   ⟨updIn .idle, hdr 0, by decide +kernel⟩,
   ⟨{ updIn .verified with mark.quads := [(0, { pio := some { noPio with lane := some 31 } })] }, ({ updIn .verified with mark.quads := [(0, { pio := some { noPio with lane := some 31 } })] } : State).consume.updGoes .staging 0, hdr 0, false, true, by decide +kernel, by decide +kernel, rfl, by decide +kernel⟩,
   ⟨updIn .verified, (updIn .verified : State).consume.updGoes .staging 0, hdr 0, false, true, by decide +kernel, by decide +kernel, rfl, by decide +kernel⟩,
   ⟨{ State.reset with sec.tamp.zeroized := true }, updIn .idle, false, true, by decide +kernel⟩,
   ⟨{ State.reset with sec.gciph.lock := .held }, (({ State.reset with sec.gciph.lock := .held } : State).cipherLock false).1, false, true, by decide +kernel, pair_snd _ _ (by decide +kernel)⟩,
   ⟨stagingOf [], ((stagingOf []).cipherLock false).1, false, false, udDigest, rfl, rfl, fails_eq _ _ (by decide +kernel)⟩,
   ⟨stagingOf spoiltHeader, ((stagingOf spoiltHeader).cipherLock false).1, false, false, [], udDigest, 1, rfl, rfl, stageBody_opens _ (by decide +kernel) (by decide +kernel) (by decide +kernel) (by decide +kernel), fails_eq _ _ (by decide +kernel)⟩,
   ⟨stagingOf stHeader, ((stagingOf stHeader).cipherLock false).1, false, false, [], List.replicate 6 ([], 0), rfl, rfl, stageBody_opens _ (by decide +kernel) (by decide +kernel) (by decide +kernel) (by decide +kernel), gives_eq _ _ (by decide +kernel)⟩,
   ⟨updIn .idle, hdr 0, 2 ^ 24 - 1, by decide +kernel⟩,
   ⟨updIn .staged, hdr 0, 2 ^ 24, by decide +kernel⟩,
   ⟨updIn .staged, hdr 0, 2 ^ 24 - 1, by decide +kernel⟩,
   ⟨{ updIn .staged with upd.header := stHeader, back.mems := [(23, { st := 1, group := 3 })] }, hdr 0, 2 ^ 24 - 1, by decide +kernel⟩,
   ⟨{ updIn .staged with upd.header := stHeader }, hdr 0, 2 ^ 24 - 1, by decide +kernel⟩,
   ⟨{ (((updIn .staged).setFld fPEERCTL_STATE_PEER_STATE psPaired).setFld fPEERCTL_STATE_GROUP_OWNER 0) with back.groups := [(0, { exists_ := true })] }, hdr 0, false, by decide +kernel⟩,
   ⟨updIn .staged, hdr 0, true, by decide +kernel⟩,
   ⟨updIn .trial, { (updIn .trial : State).consume.emptyStaging with upd.trial := false, upd.tries := 0, upd.bridges := [], upd.floor := max (updIn .trial : State).upd.floor (unLe (slice (updIn .trial : State).activeSlot.dir 0x00C 4)) }, hdr 0, by decide +kernel, by decide +kernel, by decide +kernel, rfl⟩,
   ⟨updIn .trial, hdr 0, by decide +kernel⟩,
   ⟨updIn .trial, hdr 0, by decide +kernel⟩,
   ⟨updIn .staged, hdr 0, by decide +kernel⟩,
   ⟨updIn .trial, by decide +kernel⟩,
   ⟨updIn .idle, by decide +kernel⟩,
   ⟨{ State.reset with plat.pwr.cold := true }, 14, by decide +kernel⟩,
   ⟨{ State.reset with pages := [(pgUPD, { st := .fault })] }, 14, by decide +kernel⟩,
   ⟨updIn .idle, 14, by decide +kernel⟩,
   ⟨updIn .idle, 15, by decide +kernel⟩⟩

theorem witness_InvariantKept :
    ∃ (s t : State), BlockInv s ∧ step s = .next t :=
  ⟨State.reset, State.reset.idle, by decide +kernel, rfl⟩

end
end

section
/-! Refused block resets (R45, R46, R442) and the INT_N pin (R51). -/

namespace Sys2Proof.Machine

/-! ### Page headers -/

@[simp] theorem State.modPage_page (s : State) (p q : Nat) (f : Page → Page) :
    (s.modPage p f).page q = if q = p then f (s.page p) else s.page q := State.setPage_page _ _ _ _

/-- Of a page of one block, State.blk is the page's own state. -/
theorem State.page_st_of_oneBlock {s : State} {p : Nat} (hp : OneBlock s p) : (s.page p).st = s.blk p := by
  obtain ⟨-, hbroad, -, -⟩ := hp
  simp [State.blk, hbroad]

/-- A header write to a powered page of one block that is not Off reaches that page alone (R43, R48). -/
theorem State.headerWrite_of_oneBlock {s : State} {p : Nat} (hp : OneBlock s p) (f : State → Nat → State) :
    s.headerWrite p f = f s p := by
  obtain ⟨hex, hbroad, hon, hoff⟩ := hp
  simp [State.headerWrite, writePages, hex, hbroad, hon, hoff]

/-! ### Error capture (R47) -/

theorem State.capture_of_armed {s : State} {p : Nat} (ha : (s.page p).armed = true) (code a b : Nat) :
    s.capture p code a b = s.modPage p (fun g => { g with
      errCap := BitVec.ofNat 8 code, infoA := BitVec.ofNat 32 a, infoB := BitVec.ofNat 32 b, armed := false }) := by
  simp only [State.capture, ha, if_true]

/-! ### BLK_CTRL (R45) -/

/-- QUIESCE = 0 leaves a running block running, whatever ENABLE says. -/
theorem State.writeEnable_of_run {s : State} {p : Nat} (hrun : (s.page p).st = .run) (en : Bool) :
    s.writeEnable p en false = s.modPage p (fun g => { g with quiesce := false }) := by
  simp only [State.writeEnable, hrun, Bool.false_eq_true, if_false]

theorem ctrlBits_reset_testBits (s : State) (p : Nat) :
    (4 + s.ctrlBits p).testBit 0 = (s.page p).enable ∧ (4 + s.ctrlBits p).testBit 1 = (s.page p).quiesce ∧
      (4 + s.ctrlBits p).testBit 2 = true := by
  unfold State.ctrlBits
  cases (s.page p).enable <;> cases (s.page p).quiesce <;> decide

/-- RESET = 1 with the other bits as they stand, where it is refused: 0xF0 is captured and the other bits are taken. -/
theorem State.writeCtrl_reset_refused {s : State} {p : Nat} (hno : s.mayReset p = false) :
    s.writeCtrl p (4 + s.ctrlBits p) = (s.capture p 0xF0 0 0).writeEnable p (s.page p).enable (s.page p).quiesce := by
  obtain ⟨hen, hqu, hreset⟩ := ctrlBits_reset_testBits s p
  simp only [State.writeCtrl, State.writeReset, hen, hqu, hreset, hno, if_true, Bool.false_eq_true, if_false]

/-! ### The pages that refuse a reset (R46, R442) -/

theorem State.mayReset_of_refused (s : State) {p : Nat} (hp : p ∈ resetRefused) : s.mayReset p = false := by
  simp only [State.mayReset, List.contains_iff_mem.mpr hp, Bool.not_true, Bool.false_and]

theorem State.mayReset_of_idleOnly {s : State} {p : Nat} (hp : p ∈ resetIdleOnly) (hblk : s.blk p ≠ .idle) :
    s.mayReset p = false := by
  simp [State.mayReset, hp, hblk]

theorem exec_blockReset_refused {s : State} {p : Nat} (hp : OneBlock s p) (hno : s.mayReset p = false) :
    exec (.blockReset p) s = .next ((s.capture p 0xF0 0 0).writeEnable p (s.page p).enable (s.page p).quiesce) :=
  calc exec (.blockReset p) s
      = .next (s.headerWrite p (fun t q => t.writeCtrl q (4 + t.ctrlBits q))) := rfl
    _ = .next (s.writeCtrl p (4 + s.ctrlBits p)) := by rw [State.headerWrite_of_oneBlock hp]
    _ = _ := by rw [State.writeCtrl_reset_refused hno]

/-- A refused reset of a running block writes the capture and nothing else: the block runs on. -/
theorem exec_blockReset_refused_of_run {s : State} {p : Nat} (hp : OneBlock s p) (hno : s.mayReset p = false)
    (hrun : s.blk p = .run) (hqu : (s.page p).quiesce = false) (harmed : (s.page p).armed = true) :
    exec (.blockReset p) s =
      .next ((s.capture p 0xF0 0 0).modPage p (fun g => { g with quiesce := false })) := by
  have hst : ((s.capture p 0xF0 0 0).page p).st = .run := by
    simp [State.capture_of_armed harmed, State.page_st_of_oneBlock hp, hrun]
  rw [exec_blockReset_refused hp hno, hqu, State.writeEnable_of_run hst]

/-! ### INT_N (R51) -/

theorem foldl_or_testBit (l : List Nat) (m b : Nat) :
    (l.foldl (fun m i => m ||| 2 ^ i) m).testBit b = true ↔ m.testBit b = true ∨ b ∈ l := by
  induction l generalizing m with
  | nil => simp
  | cons i l ih =>
    rw [List.foldl_cons, ih, Nat.testBit_or, Nat.testBit_two_pow, Bool.or_eq_true, decide_eq_true_eq, List.mem_cons, or_assoc,
      eq_comm (a := i)]

/-- A mask has exactly the bits of its list. -/
theorem maskOf_testBit (l : List Nat) (b : Nat) : (maskOf l).testBit b = true ↔ b ∈ l := by
  simp [maskOf, foldl_or_testBit]

theorem mem_allPages (p : Nat) : p ∈ allPages ↔ p < 0xD8 ∧ pageExists p = true := by
  rw [allPages, List.mem_filter, List.mem_range]

theorem State.intN_iff (s : State) :
    s.intN = true ↔ ∃ p, pageExists p = true ∧ p < 0xD8 ∧ s.fld (fIRQR_ROUTE_INT_N p) = 1 ∧ s.irqLine p = true := by
  simp only [State.intN, List.any_eq_true, mem_allPages, Bool.and_eq_true, decide_eq_true_eq]
  exact exists_congr fun p => ⟨fun ⟨⟨hlt, hex⟩, hroute⟩ => ⟨hex, hlt, hroute⟩, fun ⟨hex, hlt, hroute⟩ => ⟨⟨hlt, hex⟩, hroute⟩⟩

theorem State.intnPend_testBit (s : State) (w : Nat) {b : Nat} (hb : b < 32) :
    (s.intnPend w).testBit b = true ↔
      pageExists (32 * w + b) = true ∧ s.fld (fIRQR_ROUTE_INT_N (32 * w + b)) = 1 ∧ s.irqLine (32 * w + b) = true := by
  simp only [State.intnPend, maskOf_testBit, List.mem_filter, List.mem_range, hb, true_and, Bool.and_eq_true, decide_eq_true_eq,
    and_assoc]

theorem State.liveWord_irqr (s : State) (o : Nat) :
    s.liveWord pgIRQR o = if 0x800 ≤ o ∧ o < 0x81C then some (s.intnPend ((o - 0x800) / 4)) else none := rfl

/-- The words of IRQR at 0x800 and above read INTN_PEND. -/
theorem State.liveWord_intnPend (s : State) {w : Nat} (hw : w < 7) :
    s.liveWord pgIRQR (0x800 + 4 * w) = some (s.intnPend w) := by
  have hrange : 0x800 ≤ 0x800 + 4 * w ∧ 0x800 + 4 * w < 0x81C := by omega
  have hword : (0x800 + 4 * w - 0x800) / 4 = w := by omega
  rw [State.liveWord_irqr, if_pos hrange, hword]

end Sys2Proof.Machine

open Sys2Proof Sys2Proof.Machine

/-- Settles O9: the pages named are those that State.mayReset refuses, and a refused reset is a capture and a write of ENABLE and QUIESCE
as they stand. -/
theorem resetRefused : Obligations.ResetRefused := by
  unfold Obligations.ResetRefused
  refine ⟨?_, fun s p hp hno => exec_blockReset_refused hp hno, ?_, ?_⟩
  · rintro s p hp (halways | ⟨hidle, hblk⟩)
    · exact exec_blockReset_refused hp (s.mayReset_of_refused halways)
    · exact exec_blockReset_refused hp (State.mayReset_of_idleOnly hidle hblk)
  · intro s p harmed
    simp [State.capture_of_armed harmed]
  · intro s p hp hrun hqu hen harmed hpage
    have hno : s.mayReset p = false := by
      rcases hpage with halways | hidle
      · exact s.mayReset_of_refused halways
      · exact State.mayReset_of_idleOnly hidle (by simp [hrun])
    have hst : (s.page p).st = .run := (State.page_st_of_oneBlock hp).trans hrun
    refine ⟨_, exec_blockReset_refused_of_run hp hno hrun hqu harmed, ?_, ?_, ?_, fun q hq => ?_, ?_⟩
    · simp [State.capture_of_armed harmed]
    · simp [State.capture_of_armed harmed, hst]
    · simp [State.capture_of_armed harmed, hen]
    · simp [State.capture_of_armed harmed, hq]
    · rw [State.capture_of_armed harmed]
      rfl

/-- Settles O11: INT_N asks every page, and bit `b` of word `w` of INTN_PEND asks page `32 * w + b`. -/
theorem intN : Obligations.IntN := by
  unfold Obligations.IntN
  exact fun s => ⟨s.intN_iff, fun w b _ hb _ => s.intnPend_testBit w hb, fun w hw => s.liveWord_intnPend hw⟩

end

section
/-! The cells of a frame, and the one place in which a frame of several destinations is stored (R133). -/

namespace Sys2Proof.Machine

/-! ### Cells (R133) -/

/-- A frame without payload still takes a cell. -/
theorem frameCells_of_nil {f : SwFrame} (hf : f.payload = []) : frameCells f = 1 := by
  simp [frameCells, ceilDiv, hf]

/-- The cells hold the payload, and all but the last of them are full. -/
theorem frameCells_bounds (f : SwFrame) :
    256 * (frameCells f - 1) ≤ f.payload.length ∧ f.payload.length ≤ 256 * frameCells f := by
  unfold frameCells ceilDiv
  omega

/-- The last cell of a payload is not empty. -/
theorem frameCells_last {f : SwFrame} (hf : f.payload ≠ []) : 256 * (frameCells f - 1) < f.payload.length := by
  have hpos : 0 < f.payload.length := List.length_pos_iff.mpr hf
  unfold frameCells ceilDiv
  omega

/-! ### What a placed frame writes in the switch (R143, R150, R151) -/

@[simp] theorem writeOvf_sw (base : Nat) (cells : List Nat) (s : State) (bs : List Byte) :
    (writeOvf base cells s bs).sw = s.sw := by
  induction cells generalizing s bs with
  | nil => rfl
  | cons i cells ih => rw [writeOvf, ih, State.hbmWrite_sw]

/-- Joining the queues of its destinations, a frame changes the queues alone. -/
theorem State.joinQueues_shape (id c : Nat) (dests : List Nat) (s : State) :
    ∃ queues, dests.foldl (fun t e => t.setSwQueue e c (t.swQueue e c ++ [id])) s = { s with sw.queues := queues } := by
  induction dests generalizing s with
  | nil => exact ⟨s.sw.queues, rfl⟩
  | cons e dests ih =>
    obtain ⟨queues, hq⟩ := ih (s.setSwQueue e c (s.swQueue e c ++ [id]))
    exact ⟨queues, hq⟩

/-- A placed frame takes the next identifier and is stored under it alone, once for all its destinations, with its payload as it came:
the ECN mark changes headers. -/
theorem State.enqueue_stored (s : State) (f : SwFrame) (dests : List Nat) (head shared ovf : Nat) :
    (s.enqueue f dests head shared ovf).sw.nextId = s.sw.nextId + 1 ∧
    ∃ g : SwFrame, g.payload = f.payload ∧ ∀ k, (s.enqueue f dests head shared ovf).stored k =
      if k = s.sw.nextId then { frame := g, head := head, shared := shared, ovf := ovf, ovfAt := s.takeOvf ovf, left := dests }
      else s.stored k := by
  unfold State.enqueue
  extract_lets id st _ s1 s2 mark _ _ s3
  obtain ⟨queues, hqueues⟩ := State.joinQueues_shape id f.cls dests s3
  have hsw : s2.sw = s1.sw := writeOvf_sw _ _ _ _
  rw [hqueues]
  unfold s3
  split
  case isTrue =>
    refine ⟨congrArg SwSt.nextId hsw, { f with ce := true, hdr := markCe f.hdr }, rfl, fun k => ?_⟩
    simp only [State.stored, hsw, s1, Tab.get_put]
    split <;> rfl
  case isFalse =>
    refine ⟨congrArg SwSt.nextId hsw, f, rfl, fun k => ?_⟩
    simp only [State.stored, hsw, s1, Tab.get_put]
    rfl

end Sys2Proof.Machine

open Sys2Proof Sys2Proof.Machine

/-- Settles O31: the cells by division of the payload's length, the one stored frame by what State.enqueue writes. -/
theorem cellsOfFrame : Obligations.CellsOfFrame := by
  unfold Obligations.CellsOfFrame
  intro f
  obtain ⟨hfull, hhold⟩ := frameCells_bounds f
  refine ⟨frameCells_of_nil, hfull, hhold, frameCells_last, fun s dests head shared => ?_⟩
  obtain ⟨hnext, g, -, hstored⟩ := s.enqueue_stored f dests head shared 0
  refine ⟨hnext, ?_, fun k hk => ?_⟩
  · rw [hstored, if_pos rfl]
  · rw [hstored, if_neg hk]

end

section
/-! START_STAGE: which writes the chip takes, and what a taken one changes (R431, R446). -/

namespace Sys2Proof.Machine

/-- A write that reaches START_STAGE writes the stage of its four bits. -/
theorem exec_startStageWrite_of_reaches {s : State} {v : Nat} (hreach : Reaches s pgCHIP) (hv : v < 16) :
    exec (.startStageWrite v) s = .next (s.writeStage v) := by
  have harm : exec (.startStageWrite v) s = .next (s.gated pgCHIP (fun t => t.writeStage (v % 16))) := rfl
  rw [harm, gated_of_reaches _ hreach, Nat.mod_eq_of_lt hv]

theorem State.writeStage_five {s : State} (h : s.plat.chip.stage < 5) :
    s.writeStage 5 = { s with plat.chip.stage := 5 } :=
  if_pos ⟨rfl, h⟩

theorem State.writeStage_six {s : State} (h : s.plat.chip.stage < 6) :
    s.writeStage 6 =
      { s with plat.chip.stage := 6, upd.tries := 0, plat.chip.wdogCounting := s.plat.chip.runEn, plat.chip.wdogFrom := s.now } := by
  simp [State.writeStage, h]

theorem State.writeStage_fourteen {s : State} (h : s.plat.chip.stage < 6) :
    s.writeStage 14 = { s with plat.chip.stage := 14, plat.chip.startErr := 4 } := by
  simp [State.writeStage, h]

/-- The writes that START_STAGE ignores: 5 and 6 at or below the current stage, 14 from stage 6 on, and any other value. -/
theorem State.writeStage_ignored {s : State} {v : Nat} (hfive : v = 5 → 5 ≤ s.plat.chip.stage)
    (hsix : v = 6 → 6 ≤ s.plat.chip.stage) (hfourteen : v = 14 → 6 ≤ s.plat.chip.stage) : s.writeStage v = s := by
  have hno5 : ¬ (v = 5 ∧ s.plat.chip.stage < 5) := fun ⟨hv, hlt⟩ => Nat.not_lt_of_le (hfive hv) hlt
  have hno6 : ¬ (v = 6 ∧ s.plat.chip.stage < 6) := fun ⟨hv, hlt⟩ => Nat.not_lt_of_le (hsix hv) hlt
  have hno14 : ¬ (v = 14 ∧ s.plat.chip.stage < 6) := fun ⟨hv, hlt⟩ => Nat.not_lt_of_le (hfourteen hv) hlt
  rw [State.writeStage, if_neg hno5, if_neg hno6, if_neg hno14]

end Sys2Proof.Machine

open Sys2Proof Sys2Proof.Machine

/-- Settles O17: a write that reaches CHIP is State.writeStage, which takes three writes and ignores the others. -/
theorem startStage : Obligations.StartStage := by
  unfold Obligations.StartStage
  intro s v hreach hv
  rw [exec_startStageWrite_of_reaches hreach hv]
  refine ⟨?_, ?_, ?_, fun hvalue hle => ?_, fun hvalue hle => ?_, fun h5 h6 h14 => ?_⟩
  · rintro rfl hlt
    rw [State.writeStage_five hlt]
  · rintro rfl hlt
    rw [State.writeStage_six hlt]
  · rintro rfl hlt
    rw [State.writeStage_fourteen hlt]
  · rw [State.writeStage_ignored] <;> omega
  · rw [State.writeStage_ignored] <;> omega
  · rw [State.writeStage_ignored] <;> omega

end
